-- ==== Sys2Proof/Word.lean ====
section
/-! DEFINITION. The word types of the Ibmund Q9 (R4, R5, R45): what a register, a lane mask, a vector register or an
accumulator tile is, as bits. Nothing here computes. -/

namespace Sys2Proof

/-- A byte of a bed or of device memory (R6). -/
abbrev Byte := BitVec 8

/-- A 64-bit scalar register's value, a doubleword, a system register (R5, R12). -/
abbrev Word := BitVec 64

/-- A 4096-bit vector register's bits (R5, R45). -/
abbrev VBits := BitVec 4096

/-- A 128-bit lane mask, one bit a lane (R123). -/
abbrev Mask := BitVec 128

/-- An accumulator tile's 128 × 64 words of 32 bits, row-major: word (i, j) at bits 32·(64·i + j) (R12, R195). -/
abbrev TileBits := BitVec 262144

/-- A 256-bit bundle (R68). -/
abbrev BundleBits := BitVec 256

/-- A 4-bit format tag (R15). -/
abbrev Tag := BitVec 4

/-- A register number of a 6-bit field (R71). -/
abbrev RegNo := BitVec 6

/-- A qualifying predicate field (R70). -/
abbrev PredNo := BitVec 4

end Sys2Proof
end

