-- ==== Sys2Proof/Config.lean ====
section
/-! DEFINITION. What the spec leaves to the part and never states, as constants with no body: nothing in Lean can evaluate one or
prove a value of one. Each is named in a log entry. -/

namespace Sys2Proof.Config

/-- The FP32 result a core gives for VRCP (0), VRSQ (1), VEXP2 (2), VLOG2 (3) and VTANH (4): R131 fixes only a bound and the exact
cases (log 3). -/
opaque approx (op : Nat) (a : BitVec 32) : BitVec 32

/-- Where the frame arena's allocator puts the n-th frame (R264, log 4). -/
opaque framePlace (n : Nat) : Nat

/-- The n-th fresh value of the plinth: a context's key pair (R398), a session (R397) (log 5). -/
opaque fresh (n : Nat) : Nat

/-- The device identity key, derived from a fused secret, and its certificate, signed at manufacture under the Zorwick root (R396, log 5). -/
opaque identityKey : Nat
opaque identityCert : List Word

/-- The alias key that the ROM derives from the identity secret and a firmware measurement (R396, log 5). -/
opaque aliasKey (measurement : BitVec 384) : Nat

/-- The words of the public key of a key, and of its signature of a message (R396, R397, log 5). -/
opaque publicKey (key i : Nat) : Word
opaque signature (key : Nat) (message : List Word) (i : Nat) : Word

/-- Byte i of a line of device memory that stands encrypted under one key, as another key deciphers it (R398, log 40). -/
opaque deciphered (under with_ line : Nat) (bytes : List Byte) (i : Nat) : Byte

/-- The bytes of a save arena that the image of one core takes (R323, log 9). -/
opaque imageBytes : Nat

/-- The bits of a signed or derived answer of the SPDM responder whose contents no rule states (R397, log 5). -/
opaque spdmAnswer (n : Nat) : Word

/-- Whether a path to a package runs over a link (R399, R407, log 41). -/
opaque pathVia (link pkg : Nat) : Bool

/-- The virtual page at which system software maps the collective port for a context (R409, log 41). -/
opaque portPage (asid : Nat) : Nat

/-- The memory that the arbiter holds for the block tables of archived signals, in entries (R298, R359, log 75). -/
opaque tableEntries : Nat

/-- The trip count that SQST.trip reads of a level that the last SQGO has not set (R209, log 77). -/
opaque noTrip (level : Nat) : Word

/-- The bank of the home caches that holds a line of device memory (R281, log 71). -/
opaque homeBank (line : Nat) : Nat

/-- The records of the tag overflow table, in the memory that the plinth reserves (R281, log 71). -/
opaque overflowRecords : Nat

end Sys2Proof.Config
end

