-- ==== Sys2Proof/Machine/Bits.lean ====
section
/-! DEFINITION. Bit fields, extension, byte order and element access (R4, R6, R45, R52): the helpers every encoding and
every operation is written with. -/

namespace Sys2Proof.Machine

/-- Bits [lo + n − 1 : lo] of a natural number. -/
def natBits (x lo n : Nat) : Nat := (x >>> lo) % 2 ^ n

/-- Bits [lo + n − 1 : lo] of a word, as an n-bit word. -/
def field {w : Nat} (x : BitVec w) (lo n : Nat) : BitVec n := x.extractLsb' lo n

/-- Bit i of a word. -/
def bitAt {w : Nat} (x : BitVec w) (i : Nat) : Bool := x.getLsbD i

/-- sext(v, w) of R52 on 64 bits: v's low w bits, sign-extended to 64 (w from 1 to 64). -/
def sext (v : Word) (w : Nat) : Word := (v <<< (64 - w)).sshiftRight (64 - w)

/-- zext(v, w) of R52: v's low w bits, zero-extended. -/
def zext (v : Word) (w : Nat) : Word := (v <<< (64 - w)) >>> (64 - w)

/-- A field of n bits sign-extended to a 64-bit word. -/
def sextW {n : Nat} (x : BitVec n) : Word := x.signExtend 64

/-- A field of n bits zero-extended to a 64-bit word. -/
def zextW {n : Nat} (x : BitVec n) : Word := x.setWidth 64

/-- A truth value as a word of n bits: 1 or 0. -/
def boolW (n : Nat) (b : Bool) : BitVec n := if b then 1#n else 0#n

/-- Bits in bits [lo + n − 1 : lo] of x replaced by v. -/
def putField {w n : Nat} (x : BitVec w) (lo : Nat) (v : BitVec n) : BitVec w :=
  (x &&& ~~~(((BitVec.allOnes n).setWidth w) <<< lo)) ||| ((v.setWidth w) <<< lo)

/-- Element i of width w of a vector of bits (R45). -/
def elemAt {n : Nat} (x : BitVec n) (w i : Nat) : BitVec w := x.extractLsb' (w * i) w

/-- The natural number whose digit i in base 2^w is the i-th element of the list (each taken modulo 2^w). -/
def packNat (w : Nat) : List Nat → Nat
  | [] => 0
  | a :: as => a % 2 ^ w + (packNat w as) <<< w

/-- The n-bit vector whose element i of width w is the i-th of the list (R45). -/
def packElems (n w : Nat) (l : List Nat) : BitVec n := BitVec.ofNat n (packNat w l)

/-- The elements of width w of a vector of bits, element 0 first (R45). -/
def elemsOf {n : Nat} (x : BitVec n) (w : Nat) : List Nat :=
  let v := x.toNat
  (List.range (n / w)).map (fun i => (v >>> (w * i)) % 2 ^ w)

/-- The bytes of a number, lowest address first (R6). -/
def bytesOfNat (v : Nat) : Nat → List Byte
  | 0 => []
  | n + 1 => BitVec.ofNat 8 v :: bytesOfNat (v >>> 8) n

/-- The little-endian number a list of bytes holds (R6). -/
def natOfBytes : List Byte → Nat
  | [] => 0
  | b :: bs => b.toNat + (natOfBytes bs) <<< 8

/-- The 64-bit word at the front of a list of bytes (R6). -/
def wordOfBytes (bs : List Byte) : Word := BitVec.ofNat 64 (natOfBytes bs)

/-- The bytes of a word, n of them, lowest address first. -/
def bytesOf {w : Nat} (v : BitVec w) (n : Nat) : List Byte := bytesOfNat v.toNat n

/-- floor(a ÷ 2^k) rounded up instead: ceil(a ÷ 2^k). -/
def ceilShift (a k : Nat) : Nat := (a + 2 ^ k - 1) >>> k

/-- ceil(a ÷ b), 0 when b is 0. -/
def ceilDiv (a b : Nat) : Nat := if b = 0 then 0 else (a + b - 1) / b

/-- A value clamped between two bounds: sat(x, lo, hi) of R52. -/
def satInt (x lo hi : Int) : Int := if x < lo then lo else if x > hi then hi else x

/-- The word of w bits that an exact integer wraps to. -/
def wrapInt (w : Nat) (x : Int) : BitVec w := BitVec.ofInt w x

/-- The integer a w-bit element denotes, signed or unsigned (R50). -/
def intOf {w : Nat} (signed : Bool) (x : BitVec w) : Int := if signed then x.toInt else (x.toNat : Int)

/-- Lowest and highest integer of w bits, signed or unsigned (R50). -/
def loInt (w : Nat) (signed : Bool) : Int := if signed then -(2 ^ (w - 1) : Nat) else 0
def hiInt (w : Nat) (signed : Bool) : Int := if signed then ((2 ^ (w - 1) : Nat) : Int) - 1 else ((2 ^ w : Nat) : Int) - 1

/-- The signed value of the low w bits of a natural number. -/
def sNat (w v : Nat) : Int :=
  let m := v % 2 ^ w
  if m < 2 ^ (w - 1) then (m : Int) else (m : Int) - (2 ^ w : Nat)

/-- An integer's residue modulo 2^w, as a natural number. -/
def natWrap (w : Nat) (x : Int) : Nat := (x % ((2 ^ w : Nat) : Int)).toNat

/-- The entry at an index of a list, or a default past its end. -/
def getAt {α : Type} (l : List α) (i : Nat) (d : α) : α := l.getD i d

/-- The list with its entry at index i replaced (unchanged past its end). -/
def setAt {α : Type} (l : List α) (i : Nat) (a : α) : List α := l.set i a

/-- The entry of an association list under a key. -/
def lookup {α : Type} (l : List (Nat × α)) (k : Nat) : Option α := (l.find? (fun e => e.1 == k)).map (·.2)

/-- The association list, keys rising, with the entry under k set. -/
def assocSet {α : Type} (l : List (Nat × α)) (k : Nat) (a : α) : List (Nat × α) :=
  match l with
  | [] => [(k, a)]
  | e :: es => if e.1 < k then e :: assocSet es k a else if e.1 = k then (k, a) :: es else (k, a) :: e :: es

/-- The association list without the entry under k. -/
def assocDel {α : Type} (l : List (Nat × α)) (k : Nat) : List (Nat × α) := l.filter (fun e => e.1 != k)

/-- The first of a list replaced where a test holds; the list unchanged where none does. -/
def updFirst {α : Type} (p : α → Bool) (f : α → α) : List α → List α
  | [] => []
  | a :: as => if p a then f a :: as else a :: updFirst p f as

/-- The list without its first entry where a test holds. -/
def delFirst {α : Type} (p : α → Bool) : List α → List α
  | [] => []
  | a :: as => if p a then as else a :: delFirst p as

end Sys2Proof.Machine
end

