-- ==== Sys2Proof/Machine/Float.lean ====
section
/-! DEFINITION. Number formats and rounding (R46 to R56): a value is a sign, a natural and a power of two, computed exactly and
rounded once. -/

namespace Sys2Proof.Machine

/-- How a format spends its highest exponent (R46): infinities and NaNs, one NaN code only, or numbers only. -/
inductive FmtKind where
  | ieee
  | e4m3
  | e2m1
  deriving DecidableEq, Repr

/-- A floating-point format (R46): width, mantissa bits, bias, the codes of the largest finite value and of the canonical NaN. -/
structure Fmt where
  w : Nat
  mb : Nat
  bias : Nat
  maxCode : Nat
  nan : Nat
  kind : FmtKind
  deriving DecidableEq, Repr

/-- The seven formats (R46, R48). -/
def Fmt.fp64 : Fmt := ⟨64, 52, 1023, 0x7FEFFFFFFFFFFFFF, 0x7FF8000000000000, .ieee⟩
def Fmt.fp32 : Fmt := ⟨32, 23, 127, 0x7F7FFFFF, 0x7FC00000, .ieee⟩
def Fmt.bf16 : Fmt := ⟨16, 7, 127, 0x7F7F, 0x7FC0, .ieee⟩
def Fmt.f16 : Fmt := ⟨16, 10, 15, 0x7BFF, 0x7E00, .ieee⟩
def Fmt.e4m3 : Fmt := ⟨8, 3, 7, 0x7E, 0x7F, .e4m3⟩
def Fmt.e5m2 : Fmt := ⟨8, 2, 15, 0x7B, 0x7E, .ieee⟩
def Fmt.e2m1 : Fmt := ⟨4, 1, 1, 0x7, 0, .e2m1⟩

/-- The code of +∞ in a format that has infinities: one above the largest finite value. -/
def Fmt.infCode (f : Fmt) : Nat := f.maxCode + 1

/-- The exponent of the smallest subnormal: 1 − bias − mb. -/
def Fmt.emin (f : Fmt) : Int := 1 - (f.bias : Int) - (f.mb : Int)

/-- An extended real: NaN, an infinity, or (−1)^neg × m × 2^e. -/
inductive FV where
  | nan
  | inf (neg : Bool)
  | fin (neg : Bool) (m : Nat) (e : Int)
  deriving DecidableEq, Repr

/-- Zero of a sign. -/
def FV.zero (neg : Bool) : FV := .fin neg 0 0

/-- An exact integer. -/
def FV.ofInt (i : Int) : FV := .fin (i < 0) i.natAbs 0

/-- The value a code of a format denotes (R46). -/
def Fmt.decode (f : Fmt) (c : Nat) : FV :=
  let c := c % 2 ^ f.w
  let neg := c >>> (f.w - 1) == 1
  let mag := c % 2 ^ (f.w - 1)
  let e := mag >>> f.mb
  let m := mag % 2 ^ f.mb
  if f.kind == .e4m3 && mag == 0x7F then .nan
  else if f.kind == .ieee && mag == f.infCode then .inf neg
  else if f.kind == .ieee && mag > f.infCode then .nan
  else if e == 0 then .fin neg m f.emin
  else .fin neg (2 ^ f.mb + m) (f.emin + (e : Int) - 1)

/-- floor(log2 m) + 1, 0 for 0. -/
def bitLen (m : Nat) : Nat := if m = 0 then 0 else Nat.log2 m + 1

/-- A natural number times 2^k rounded down (k may be negative). -/
def shiftZ (m : Nat) (k : Int) : Nat := if k < 0 then m >>> k.natAbs else m <<< k.natAbs

/-- m × 2^e rounded to a multiple of 2^q, as the multiple (R51): mode 0 RNE, 1 RTZ, 2 RDN, 3 RUP, 4 SR with the bits rb (R53). -/
def roundAt (mode rb : Nat) (neg : Bool) (m : Nat) (e q : Int) : Nat :=
  if q ≤ e then m <<< (e - q).toNat else
  let sh := (q - e).toNat
  let lo := m >>> sh
  let rem := m - lo <<< sh
  let up : Bool :=
    if rem == 0 then false
    else match mode with
      | 0 => let half := 2 ^ (sh - 1)
             decide (rem > half) || (rem == half && lo % 2 == 1)
      | 1 => false
      | 2 => neg
      | 3 => !neg
      | _ => decide ((rem <<< 32) >>> sh + rb ≥ 2 ^ 32)
  if up then lo + 1 else lo

/-- round(x, F, mode) with no range limit, as the magnitude's code continued past the largest exponent (R52). -/
def Fmt.roundMag (f : Fmt) (mode rb : Nat) (neg : Bool) (m : Nat) (e : Int) : Nat :=
  if m = 0 then 0 else
  let top := e + (bitLen m : Int) - 1
  let q := max (top - (f.mb : Int)) f.emin
  (q - f.emin).toNat <<< f.mb + roundAt mode rb neg m e q

/-- A magnitude's code with its sign. -/
def Fmt.signed (f : Fmt) (neg : Bool) (mag : Nat) : Nat := if neg then 2 ^ (f.w - 1) + mag else mag

/-- Overflow of a result (R55). -/
def Fmt.overflow (f : Fmt) (mode : Nat) (sat neg : Bool) : Nat :=
  let directed := mode == 1 || (mode == 2 && !neg) || (mode == 3 && neg)
  if sat || directed || f.kind == .e2m1 then f.signed neg f.maxCode
  else if f.kind == .e4m3 then f.nan
  else f.signed neg f.infCode

/-- A result rounded once to a format and limited by R55: the code. -/
def Fmt.encode (f : Fmt) (mode rb : Nat) (sat : Bool) : FV → Nat
  | .nan => f.nan
  | .inf neg => f.overflow 0 sat neg
  | .fin neg m e =>
    let mag := f.roundMag mode rb neg m e
    if mag > f.maxCode then f.overflow mode sat neg else f.signed neg mag

/-- The value of a result rounded to a format with no saturation, by RNE or another mode. -/
def Fmt.round (f : Fmt) (mode : Nat) (v : FV) : FV := f.decode (f.encode mode 0 false v)

/-- Whether a value is zero. -/
def FV.isZero : FV → Bool
  | .fin _ m _ => m == 0
  | _ => false

/-- Whether a value is NaN. -/
def FV.isNan : FV → Bool
  | .nan => true
  | _ => false

/-- The sign of a value, false for NaN. -/
def FV.neg? : FV → Bool
  | .nan => false
  | .inf n => n
  | .fin n _ _ => n

/-- The value with its sign inverted. -/
def FV.negate : FV → FV
  | .nan => .nan
  | .inf n => .inf (!n)
  | .fin n m e => .fin (!n) m e

/-- The value without its sign. -/
def FV.abs : FV → FV
  | .nan => .nan
  | .inf _ => .inf false
  | .fin _ m e => .fin false m e

/-- The exact sum of two finite values as an integer multiple of 2^e, with that e. -/
def exactSum (n1 : Bool) (m1 : Nat) (e1 : Int) (n2 : Bool) (m2 : Nat) (e2 : Int) : Int × Int :=
  let e := min e1 e2
  let a : Int := (m1 <<< (e1 - e).toNat : Nat)
  let b : Int := (m2 <<< (e2 - e).toNat : Nat)
  ((if n1 then -a else a) + (if n2 then -b else b), e)

/-- The sum of two values, exact; an exact zero sum of unlike signs is −0 under RDN and +0 otherwise (R52, R130). -/
def FV.add (mode : Nat) (a b : FV) : FV :=
  match a, b with
  | .nan, _ => .nan
  | _, .nan => .nan
  | .inf x, .inf y => if x == y then .inf x else .nan
  | .inf x, _ => .inf x
  | _, .inf y => .inf y
  | .fin n1 m1 e1, .fin n2 m2 e2 =>
    let (s, e) := exactSum n1 m1 e1 n2 m2 e2
    if s == 0 then
      .fin (if m1 == 0 && m2 == 0 && n1 == n2 then n1 else if m1 == 0 && m2 == 0 then mode == 2 else mode == 2) 0 0
    else .fin (s < 0) s.natAbs e

/-- The product of two values, exact (R52). -/
def FV.mul (a b : FV) : FV :=
  match a, b with
  | .nan, _ => .nan
  | _, .nan => .nan
  | .inf x, y => if y.isZero then .nan else .inf (x != y.neg?)
  | x, .inf y => if x.isZero then .nan else .inf (x.neg? != y)
  | .fin n1 m1 e1, .fin n2 m2 e2 => .fin (n1 != n2) (m1 * m2) (e1 + e2)

/-- a × b + c, exact: ∞ × 0 is NaN even beside a NaN addend (R130). -/
def FV.fma (mode : Nat) (a b c : FV) : FV := FV.add mode (FV.mul a b) c

/-- The quotient of two values to 80 bits, its last bit set when anything is left below (enough for one rounding of any format). -/
def FV.div (a b : FV) : FV :=
  match a, b with
  | .nan, _ => .nan
  | _, .nan => .nan
  | .inf _, .inf _ => .nan
  | .inf x, y => .inf (x != y.neg?)
  | x, .inf y => .fin (x.neg? != y) 0 0
  | .fin n1 m1 e1, .fin n2 m2 e2 =>
    if m2 == 0 then (if m1 == 0 then .nan else .inf (n1 != n2))
    else
      let k := 80 + bitLen m2
      let q := (m1 <<< k) / m2
      let r := (m1 <<< k) % m2
      .fin (n1 != n2) (2 * q + (if r == 0 then 0 else 1)) (e1 - e2 - (k : Int) - 1)

/-- The digits of an integer square root from bit i downward. -/
def isqrtFrom (x : Nat) : Nat → Nat → Nat
  | 0, r => if (r + 1) * (r + 1) ≤ x then r + 1 else r
  | i + 1, r =>
    let r' := r + 2 ^ (i + 1)
    isqrtFrom x i (if r' * r' ≤ x then r' else r)

/-- floor(√x). -/
def isqrt (x : Nat) : Nat := isqrtFrom x (bitLen x / 2) 0

/-- The square root to at least 64 bits, its last bit set when anything is left below (R107). -/
def FV.sqrt : FV → FV
  | .nan => .nan
  | .inf neg => if neg then .nan else .inf false
  | .fin neg m e =>
    if m == 0 then .fin neg 0 0
    else if neg then .nan
    else
      let k : Nat := 130
      let (m, e) := if e % 2 == 0 then (m, e) else (2 * m, e - 1)
      let x := m <<< (2 * k)
      let r := isqrt x
      .fin false (2 * r + (if r * r == x then 0 else 1)) (e / 2 - (k : Int) - 1)

/-- How two values compare: less, equal, greater, or unordered; −0 equals +0 (R104). -/
inductive Cmp where
  | lt | eq | gt | un
  deriving DecidableEq, Repr

/-- The comparison of R104. -/
def FV.cmp (a b : FV) : Cmp :=
  match a, b with
  | .nan, _ => .un
  | _, .nan => .un
  | .inf x, .inf y => if x == y then .eq else if x then .lt else .gt
  | .inf x, _ => if x then .lt else .gt
  | _, .inf y => if y then .gt else .lt
  | .fin n1 m1 e1, .fin n2 m2 e2 =>
    let (s, _) := exactSum n1 m1 e1 (!n2) m2 e2
    if s < 0 then .lt else if s == 0 then .eq else .gt

/-- The smaller and the larger of two values: NaN if either is, −0 below +0 (R107). -/
def FV.min (a b : FV) : FV :=
  match FV.cmp a b with
  | .un => .nan
  | .lt => a
  | .gt => b
  | .eq => if a.neg? then a else b
def FV.max (a b : FV) : FV :=
  match FV.cmp a b with
  | .un => .nan
  | .gt => a
  | .lt => b
  | .eq => if a.neg? then b else a

/-- A value times a power of two. -/
def FV.scale (k : Int) : FV → FV
  | .fin n m e => .fin n m (e + k)
  | v => v

/-- A finite value rounded to an integer (R51). -/
def roundInt (mode rb : Nat) (neg : Bool) (m : Nat) (e : Int) : Int :=
  let r : Int := (roundAt mode rb neg m e 0 : Nat)
  if neg then -r else r

/-- A float to an integer range, always saturated (R55). -/
def FV.toInt (mode rb : Nat) (lo hi : Int) : FV → Int
  | .nan => 0
  | .inf neg => if neg then lo else hi
  | .fin neg m e => satInt (roundInt mode rb neg m e) lo hi

/-- The exponent a conversion to E8M0 chooses for a finite magnitude above zero, before the clamp (R56). -/
def e8m0Exp (mode rb m : Nat) (e : Int) : Int :=
  let k := e + (bitLen m : Int) - 1
  let pow := m == 2 ^ (bitLen m - 1)
  let frac := m - 2 ^ (bitLen m - 1)
  let half := 2 ^ (bitLen m - 1)
  match mode with
  | 0 => if 2 * frac > half then k + 1 else if 2 * frac == half && half ≥ 2 then (if k % 2 == 0 then k else k + 1) else k
  | 1 => k
  | 2 => k
  | 3 => if pow then k else k + 1
  | _ => if (frac <<< 32) / half + rb ≥ 2 ^ 32 then k + 1 else k

/-- A value to E8M0 (R56). -/
def toE8m0 (mode rb : Nat) : FV → Nat
  | .nan => 0xFF
  | .inf _ => 0xFF
  | .fin _ m e => if m == 0 then 0 else (satInt (e8m0Exp mode rb m e + 127) 0 0xFE).toNat

/-- The value of an E8M0 code (R47). -/
def ofE8m0 (c : Nat) : FV := if c % 256 == 0xFF then .nan else .fin false 1 ((c % 256 : Nat) - 127 : Int)

/-- The random bits of stochastic rounding for element j (R53). -/
def srBits (seed ctr : Word) (j : Nat) : Nat :=
  let z := seed + (ctr * 4096 + BitVec.ofNat 64 (j + 1)) * 0x9E3779B97F4A7C15#64
  let z := (z ^^^ (z >>> 30)) * 0xBF58476D1CE4E5B9#64
  let z := (z ^^^ (z >>> 27)) * 0x94D049BB133111EB#64
  let z := z ^^^ (z >>> 31)
  (z >>> 32).toNat

/-- FP32 arithmetic on codes, rounded by RNE with overflow to infinity. -/
def f32 (c : Nat) : FV := Fmt.fp32.decode c
def toF32 (v : FV) : Nat := Fmt.fp32.encode 0 0 false v

end Sys2Proof.Machine
end

