-- ==== Sys2Proof/Machine/Approx.lean ====
section
/-! DEFINITION. The approximations of R131. A fixed-point enclosure of the exact result is computed; the part's own value
(Config.approx) stands where it keeps to the bound of R131, and the correctly rounded value where it would not. -/

namespace Sys2Proof.Machine

/-- floor(2^(2^−i) × 2^100) for i from 1 to 50. -/
def rootsA : List Nat :=
  [1792728671193156477399422023278, 1507499113128880389969770996485,
   1382382781866639398002081157355, 1323774287096714591494552121732,
   1295408533862907174262462278504, 1281454410227724375900157682935,
   1274533817633053828745639158582, 1271087549673002404956479766209,
   1269367911712601490856697735500, 1268508965357727925512416525449,
   1268079710164394224611614170197, 1267865137042238223387869669148,
   1267757864097099423165883173656, 1267704231028178812475980235592,
   1267677415344588706483392730521, 1267664007715505953783040177316,
   1267657303954141996327093411483, 1267653952086754290301021227724,
   1267652276156383995210804243843, 1267651438192029735864821681824,
   1267651019210060328081414725965, 1267650809719127554642082697067,
   1267650704973674150533006466620, 1267650652600950694130802912662,
   1267650626414589777342745665412, 1267650613321409521801973285395]
/-- The table continued. -/
def rootsB : List Nat :=
  [1267650606774819444744900545186, 1267650603501524418894692461144,
   1267650601864876909139170481089, 1267650601046553155053805005360,
   1267650600637391278209221145921, 1267650600432810339836453935789,
   1267650600330519870662451510618, 1267650600279374636078545593006,
   1267650600253802018787366457943, 1267650600241015710141970346347,
   1267650600234622555819320654533, 1267650600231425978658007899622,
   1267650600229827690077354544916, 1267650600229028545787028623250,
   1267650600228628973641865851339, 1267650600228429187569284512614,
   1267650600228329294532993855059, 1267650600228279348014848529233,
   1267650600228254374755775867058, 1267650600228241888126239536155,
   1267650600228235644811471370750, 1267650600228232523154087288059,
   1267650600228230962325395246716, 1267650600228230181911049226046]

/-- floor(log2 e × 2^120). -/
def log2e : Nat := 1917670637729674084946755258930051709

/-- The product of the table's entries whose bit of f (50 bits, highest first) is set, at 2^100. -/
def powFrac (f : Nat) : List Nat → Nat → Nat → Nat
  | [], _, acc => acc
  | r :: rs, i, acc => powFrac f rs (i - 1) (if f.testBit i then (acc * r) >>> 100 else acc)

/-- An enclosure of 2^t for t = x × 2^−50 (x an integer, its exact value at most one unit above): the mantissa's bounds at 2^100
and the exponent. -/
def exp2Enc (x : Int) (exact : Bool) : Nat × Nat × Int :=
  let n := x / (2 ^ 50 : Nat)
  let f := (x % (2 ^ 50 : Nat)).toNat
  let lo := powFrac f (rootsA ++ rootsB) 49 (2 ^ 100)
  if f == 0 && exact then (2 ^ 100, 2 ^ 100, n)
  else (lo - 2 ^ 10, lo + 2 ^ 10 + (if exact then 0 else 2 ^ 51), n)

/-- Binary digits of log2 of m (at 2^127, in [1, 2)) by repeated squaring. -/
def log2Digits : Nat → Nat → Nat → Nat
  | 0, _, acc => acc
  | k + 1, m, acc =>
    let s := (m * m) >>> 127
    if s ≥ 2 ^ 128 then log2Digits k (s >>> 1) (2 * acc + 1) else log2Digits k s (2 * acc)

/-- An exact or enclosed positive real: lo ≤ x ≤ hi, both times 2^e. -/
structure Enc where
  neg : Bool
  lo : Nat
  hi : Nat
  e : Int
  deriving DecidableEq, Repr

/-- The FP32 ulp's exponent at a positive real of at least lo × 2^e. -/
def ulpExp (lo : Nat) (e : Int) : Int := max (e + (bitLen lo : Int) - 24) (-149)

/-- |y − x| ≤ b × 2^u for every x of the enclosure, y finite and of its sign (strictly below when strict). -/
def Enc.within (x : Enc) (y : FV) (strict : Bool) (b : Nat) (u : Int) : Bool :=
  match y with
  | .fin n m e =>
    if n != x.neg && m != 0 then false
    else
      let base := min (min e x.e) u
      let ym : Int := (m <<< (e - base).toNat : Nat)
      let lo : Int := (x.lo <<< (x.e - base).toNat : Nat)
      let hi : Int := (x.hi <<< (x.e - base).toNat : Nat)
      let bd : Int := (b <<< (u - base).toNat : Nat)
      let ok (d : Int) : Bool := if strict then decide (d < bd) else decide (d ≤ bd)
      ok (ym - lo) && ok (lo - ym) && ok (ym - hi) && ok (hi - ym)
  | _ => false

/-- The FP32 result for an enclosed exact value: the part's own value where it keeps the bound, else the value rounded by RNE;
saturation and overflow by R55. -/
def Enc.result (x : Enc) (own : Nat) (strict : Bool) (b : Nat) (u : Int) (sat : Bool) : Nat :=
  let rne := Fmt.fp32.encode 0 0 sat (.fin x.neg (x.lo + x.hi + 1) (x.e - 1))
  if x.lo == x.hi then Fmt.fp32.encode 0 0 sat (.fin x.neg x.lo x.e)
  else if x.within (f32 own) strict b u then own else rne

/-- An infinity that R130 names outright of a finite source: no overflow and no infinite source, so the saturate bit leaves it (R55, log 8). -/
def exactInf (neg : Bool) : Nat := Fmt.fp32.signed neg Fmt.fp32.infCode

/-- 1 ÷ a (R130, R131). -/
def approxRcp (c : Nat) (sat : Bool) : Nat :=
  match f32 c with
  | .nan => Fmt.fp32.nan
  | .inf n => Fmt.fp32.signed n 0
  | .fin n m e =>
    if m == 0 then exactInf n
    else
      let k : Nat := 120
      let q := 2 ^ k / m
      let x : Enc := if q * m == 2 ^ k then ⟨n, q, q, -e - (k : Int)⟩ else ⟨n, q, q + 1, -e - (k : Int)⟩
      x.result (Config.approx 0 (BitVec.ofNat 32 c)).toNat true 1 (ulpExp x.lo x.e) sat

/-- 1 ÷ √a (R130, R131). -/
def approxRsq (c : Nat) (sat : Bool) : Nat :=
  match f32 c with
  | .nan => Fmt.fp32.nan
  | .inf n => if n then Fmt.fp32.nan else 0
  | .fin n m e =>
    if m == 0 then exactInf n
    else if n then Fmt.fp32.nan
    else
      let (m, e) := if e % 2 == 0 then (m, e) else (2 * m, e - 1)
      let k : Nat := 240
      let q := 2 ^ k / m
      let r := isqrt q
      let x : Enc := if r * r * m == 2 ^ k then ⟨false, r, r, -(e / 2) - 120⟩ else ⟨false, r, r + 1, -(e / 2) - 120⟩
      x.result (Config.approx 1 (BitVec.ofNat 32 c)).toNat true 1 (ulpExp x.lo x.e) sat

/-- 2^a (R130, R131). -/
def approxExp2 (c : Nat) (sat : Bool) : Nat :=
  match f32 c with
  | .nan => Fmt.fp32.nan
  | .inf n => if n then 0 else Fmt.fp32.encode 0 0 sat (.inf false)
  | .fin n m e =>
    let top := e + (bitLen m : Int)
    if top > 9 then (if n then 0 else Fmt.fp32.encode 0 0 sat (.fin false 1 400))
    else
      let t := shiftZ m (e + 50)
      let exact := decide (e + 50 ≥ 0) || t <<< (-(e + 50)).toNat == m
      let xi : Int := if n then (if exact then -(t : Int) else -(t : Int) - 1) else (t : Int)
      let (lo, hi, k) := exp2Enc xi exact
      let x : Enc := ⟨false, lo, hi, k - 100⟩
      x.result (Config.approx 2 (BitVec.ofNat 32 c)).toNat false 2 (ulpExp x.lo x.e) sat

/-- log2 a (R130, R131): an absolute bound of 2^−22 for a in [0.5, 2]. -/
def approxLog2 (c : Nat) (sat : Bool) : Nat :=
  match f32 c with
  | .nan => Fmt.fp32.nan
  | .inf n => if n then Fmt.fp32.nan else Fmt.fp32.encode 0 0 sat (.inf false)
  | .fin n m e =>
    if m == 0 then exactInf true
    else if n then Fmt.fp32.nan
    else
      let len := bitLen m
      let ex : Int := e + (len : Int) - 1
      if m == 2 ^ (len - 1) then Fmt.fp32.encode 0 0 sat (FV.ofInt ex)
      else
        let d := log2Digits 60 (m <<< (128 - len)) 0
        let v : Int := ex * (2 ^ 60 : Nat) + (d : Int)
        let x : Enc := if v < 0 then ⟨true, (-v - 3).toNat, (-v + 1).toNat, -60⟩ else ⟨false, (v - 1).toNat, (v + 3).toNat, -60⟩
        let near := ex == 0 || ex == -1
        if near then x.result (Config.approx 3 (BitVec.ofNat 32 c)).toNat false 1 (-22) sat
        else x.result (Config.approx 3 (BitVec.ofNat 32 c)).toNat false 2 (ulpExp x.lo x.e) sat

/-- tanh a (R130, R131): a small a lies within a(1 − a²/2) and a; otherwise through e^(2a). -/
def approxTanh (c : Nat) (sat : Bool) : Nat :=
  match f32 c with
  | .nan => Fmt.fp32.nan
  | .inf n => Fmt.fp32.signed n 0x3F800000
  | .fin n m e =>
    if m == 0 then Fmt.fp32.signed n 0
    else
      let top := e + (bitLen m : Int)
      if top > 5 then Fmt.fp32.signed n 0x3F800000
      else
        let own := (Config.approx 4 (BitVec.ofNat 32 c)).toNat
        let x : Enc :=
          if top < -13 then
            let hi := m <<< 60
            ⟨n, hi - (hi >>> ((-2 * top).toNat + 1)) - 1, hi, e - 60⟩
          else
            let t := shiftZ (m * log2e) (e + 1 - 120 + 50)
            let (lo, hi, k) := exp2Enc (t : Int) false
            let one := shiftZ (2 ^ 100) (-k)
            let nlo := lo - one - 1
            let nhi := hi - one + 1
            ⟨n, (nlo <<< 80) / (hi + one + 1), (nhi <<< 80) / (lo + one) + 1, -80⟩
        let r := x.result own false 2 (ulpExp x.lo x.e) sat
        if shiftZ x.hi (x.e + 80) > 2 ^ 80 - 2 ^ 56 then Fmt.fp32.signed n 0x3F800000 else r

/-- The FP32 result of an approximation (R131). -/
def approx (op c : Nat) (sat : Bool) : Nat :=
  match op with
  | 0 => approxRcp c sat
  | 1 => approxRsq c sat
  | 2 => approxExp2 c sat
  | 3 => approxLog2 c sat
  | _ => approxTanh c sat

end Sys2Proof.Machine
end

