-- ==== Sys2Proof/Syntax.lean ====
section
/-! DEFINITION. The syntax: the operand records of the slot formats (R72 to R77), the data an event carries, and Instr, one
constructor per row of spec/opcode_table.json. Rows 0 to 243 are instructions of a bundle's slots; rows 244 to 344 are the
events of spec/95: steps of other agents, whose arguments are the inputs that arrive with them. -/

namespace Sys2Proof

/-- A 7-bit source field A, B or ASEL: a register, or a tap port when bit 6 is set (R71). -/
inductive Src where
  | reg (r : RegNo)
  | tap (q : BitVec 3)
  deriving DecidableEq, Repr

/-- Operands: SR format with three x registers (R72). -/
structure SR where
  (qp : PredNo)
  (d a b : RegNo)
  deriving DecidableEq, Repr

/-- Operands: SR format with B zero (R95). -/
structure SU where
  (qp : PredNo)
  (d a : RegNo)
  deriving DecidableEq, Repr

/-- Operands: SI format (R72). -/
structure SI where
  (qp : PredNo)
  (d a : RegNo)
  (imm : BitVec 14)
  deriving DecidableEq, Repr

/-- Operands: a shift by an immediate: IMM14[13:6] zero (R93). -/
structure SShI where
  (qp : PredNo)
  (d a : RegNo)
  (sh : BitVec 6)
  deriving DecidableEq, Repr

/-- Operands: a bit-field instruction: position in B, width − 1 in FN[5:0] (R96). -/
structure SBits where
  (qp : PredNo)
  (d a : RegNo)
  (pos wm1 : BitVec 6)
  deriving DecidableEq, Repr

/-- Operands: LEA: shift in FN[1:0] (R97). -/
structure SLea where
  (qp : PredNo)
  (d a b : RegNo)
  (sh : BitVec 2)
  deriving DecidableEq, Repr

/-- Operands: SEL: predicate in FN[3:0] (R97). -/
structure SSel where
  (qp : PredNo)
  (d a b : RegNo)
  (pn : PredNo)
  deriving DecidableEq, Repr

/-- Operands: SL format (R72). -/
structure SL where
  (qp : PredNo)
  (d : RegNo)
  (imm : BitVec 20)
  deriving DecidableEq, Repr

/-- Operands: MOVK: imm16 and halfword index (R79, R98). -/
structure SMovk where
  (qp : PredNo)
  (d : RegNo)
  (imm : BitVec 16)
  (h : BitVec 2)
  deriving DecidableEq, Repr

/-- Operands: VEXTR, VINS: element width code in FN[2:1], lane in x[B] (R99). -/
structure SElem where
  (qp : PredNo)
  (d a b : RegNo)
  (ew : BitVec 2)
  deriving DecidableEq, Repr

/-- Operands: SC format (R72): predicates, combining type, condition, sources (B a register or a 6-bit immediate). -/
structure SC where
  (qp p1 p2 : PredNo)
  (ct cond : BitVec 3)
  (a b : RegNo)
  deriving DecidableEq, Repr

/-- Operands: PLOG with two sources: p registers (R105). -/
structure SP where
  (qp d a b : PredNo)
  deriving DecidableEq, Repr

/-- Operands: PNOT (R105). -/
structure SP1 where
  (qp d a : PredNo)
  deriving DecidableEq, Repr

/-- Operands: an SR instruction with a destination only (R106). -/
structure SD where
  (qp : PredNo)
  (d : RegNo)
  deriving DecidableEq, Repr

/-- Operands: an SR instruction with source A only. -/
structure SA where
  (qp : PredNo)
  (a : RegNo)
  deriving DecidableEq, Repr

/-- Operands: scalar floating point: rounding FN[6:4] below 4, FN[7] FP64 (R107, R108). -/
structure SFp where
  (qp : PredNo)
  (d a b : RegNo)
  (rnd : BitVec 2)
  (f64 : Bool)
  deriving DecidableEq, Repr

/-- Operands: scalar floating point with B zero (R107). -/
structure SFp1 where
  (qp : PredNo)
  (d a : RegNo)
  (rnd : BitVec 2)
  (f64 : Bool)
  deriving DecidableEq, Repr

/-- Operands: FCVT: kinds, rounding, unsigned (R109). -/
structure SCvt where
  (qp : PredNo)
  (d a : RegNo)
  (rnd src dst : BitVec 2)
  (uns : Bool)
  deriving DecidableEq, Repr

/-- Operands: MFS: selector in IMM14 (R110). -/
structure SMfs where
  (qp : PredNo)
  (d : RegNo)
  (sel : BitVec 14)
  deriving DecidableEq, Repr

/-- Operands: MTS: selector in IMM14 (R110). -/
structure SMts where
  (qp : PredNo)
  (a : RegNo)
  (sel : BitVec 14)
  deriving DecidableEq, Repr

/-- Operands: TRAP: number in IMM20 (R116). -/
structure STrap where
  (qp : PredNo)
  (n : BitVec 20)
  deriving DecidableEq, Repr

/-- Operands: an instruction with no operand but its predicate. -/
structure SQ where
  (qp : PredNo)
  deriving DecidableEq, Repr

/-- Operands: SB format (R72). -/
structure SBr where
  (qp : PredNo)
  (disp : BitVec 26)
  deriving DecidableEq, Repr

/-- Operands: an SR instruction with two sources and no destination (R119). -/
structure SAB where
  (qp : PredNo)
  (a b : RegNo)
  deriving DecidableEq, Repr

/-- Operands: ML format (R75). -/
structure ML where
  (qp : PredNo)
  (rg base : RegNo)
  (off : BitVec 18)
  deriving DecidableEq, Repr

/-- Operands: VLD, RVLD: tag and offset scaled by 512 (R222, R225). -/
structure MLTag where
  (qp : PredNo)
  (rg base : RegNo)
  (tag : Tag)
  (off : BitVec 14)
  deriving DecidableEq, Repr

/-- Operands: VST, RVST: offset scaled by 512 (R222, R225). -/
structure MLV where
  (qp : PredNo)
  (rg base : RegNo)
  (off : BitVec 14)
  deriving DecidableEq, Repr

/-- Operands: VGATH (R223). -/
structure MGath where
  (qp : PredNo)
  (rg base : RegNo)
  (tag : Tag)
  (idx : RegNo)
  (w : BitVec 2)
  (sx : Bool)
  (km : BitVec 3)
  deriving DecidableEq, Repr

/-- Operands: VSCAT (R223). -/
structure MScat where
  (qp : PredNo)
  (rg base idx : RegNo)
  (w : BitVec 2)
  (km : BitVec 3)
  deriving DecidableEq, Repr

/-- Operands: MG format (R75, R226). -/
structure MG where
  (qp : PredNo)
  (rg : RegNo)
  (h : BitVec 4)
  (xi : RegNo)
  (off : BitVec 14)
  deriving DecidableEq, Repr

/-- Operands: GVLD: tag and offset scaled by 512 (R227). -/
structure MGTag where
  (qp : PredNo)
  (rg : RegNo)
  (h : BitVec 4)
  (xi : RegNo)
  (tag : Tag)
  (off : BitVec 10)
  deriving DecidableEq, Repr

/-- Operands: GVST (R227). -/
structure MGV where
  (qp : PredNo)
  (rg : RegNo)
  (h : BitVec 4)
  (xi : RegNo)
  (off : BitVec 10)
  deriving DecidableEq, Repr

/-- Operands: PREF: die cache or home cache (R230). -/
structure MPref where
  (qp : PredNo)
  (home : Bool)
  (h : BitVec 4)
  (xi : RegNo)
  (off : BitVec 14)
  deriving DecidableEq, Repr

/-- Operands: an engine command with three operands (R75, R233). -/
structure MCQ where
  (qp : PredNo)
  (qu : BitVec 2)
  (d a b : RegNo)
  deriving DecidableEq, Repr

/-- Operands: ACCW with B zero: W selects 64 bits (R237). -/
structure MAcc where
  (qp : PredNo)
  (qu : BitVec 2)
  (d a : RegNo)
  (w64 : Bool)
  deriving DecidableEq, Repr

/-- Operands: ACCW.swap, ACCW.cas (R238). -/
structure MAccB where
  (qp : PredNo)
  (qu : BitVec 2)
  (d a b : RegNo)
  (w64 : Bool)
  deriving DecidableEq, Repr

/-- Operands: ACCW.faddq: DSCALE index and FP32 source (R238). -/
structure MFaddq where
  (qp : PredNo)
  (qu : BitVec 2)
  (d a : RegNo)
  (dsc : BitVec 3)
  (f32 : Bool)
  deriving DecidableEq, Repr

/-- Operands: QNOTIFY (R243). -/
structure MNot where
  (qp : PredNo)
  (qu : BitVec 2)
  (a : RegNo)
  deriving DecidableEq, Repr

/-- Operands: QFENCE: the mask of joined queues (R244). -/
structure MQf where
  (qp : PredNo)
  (mask : BitVec 4)
  deriving DecidableEq, Repr

/-- Operands: FPOSTR: scope in FN[3:0] (R245). -/
structure MPost where
  (qp : PredNo)
  (a b : RegNo)
  (scope : BitVec 4)
  deriving DecidableEq, Repr

/-- Operands: FENCE: scope in FN[3:0] (R246). -/
structure MFence where
  (qp : PredNo)
  (scope : BitVec 4)
  deriving DecidableEq, Repr

/-- Operands: XLAT (R334). -/
structure MXlat where
  (qp : PredNo)
  (d : BitVec 4)
  (a : RegNo)
  deriving DecidableEq, Repr

/-- Operands: HREL (R335). -/
structure MHrel where
  (qp : PredNo)
  (d : BitVec 4)
  deriving DecidableEq, Repr

/-- Operands: HINFO (R336). -/
structure MHinfo where
  (qp : PredNo)
  (d : RegNo)
  (a : BitVec 4)
  deriving DecidableEq, Repr

/-- Operands: an MC instruction with a destination and two sources. -/
structure MDAB where
  (qp : PredNo)
  (d a b : RegNo)
  deriving DecidableEq, Repr

/-- Operands: an MC instruction with a destination and one source. -/
structure MDA where
  (qp : PredNo)
  (d a : RegNo)
  deriving DecidableEq, Repr

/-- Operands: QALLOC, BTAPP: FN[0] is Z (R356). -/
structure MDAZ where
  (qp : PredNo)
  (d a : RegNo)
  (z : Bool)
  deriving DecidableEq, Repr

/-- Operands: SHAPE (R316). -/
structure MAB where
  (qp : PredNo)
  (a b : RegNo)
  deriving DecidableEq, Repr

/-- Operands: vector floating point with two sources (R82, R129). -/
structure VF where
  (qp : PredNo)
  (km : BitVec 3)
  (d : RegNo)
  (a b : Src)
  (fmt rnd : BitVec 2)
  (sat : Bool)
  deriving DecidableEq, Repr

/-- Operands: VMIN, VMAX: no rounding or saturate (R129). -/
structure VFmm where
  (qp : PredNo)
  (km : BitVec 3)
  (d : RegNo)
  (a b : Src)
  (fmt : BitVec 2)
  deriving DecidableEq, Repr

/-- Operands: VABS, VNEG (R129). -/
structure VF1 where
  (qp : PredNo)
  (km : BitVec 3)
  (d : RegNo)
  (a : Src)
  (fmt : BitVec 2)
  deriving DecidableEq, Repr

/-- Operands: VRCP, VRSQ, VEXP2, VLOG2, VTANH: saturate only (R129). -/
structure VFs where
  (qp : PredNo)
  (km : BitVec 3)
  (d : RegNo)
  (a : Src)
  (fmt : BitVec 2)
  (sat : Bool)
  deriving DecidableEq, Repr

/-- Operands: VSQRT: rounding and saturate (R129). -/
structure VFr where
  (qp : PredNo)
  (km : BitVec 3)
  (d : RegNo)
  (a : Src)
  (fmt rnd : BitVec 2)
  (sat : Bool)
  deriving DecidableEq, Repr

/-- Operands: vector integer, all fields (R82, R133). -/
structure VI where
  (qp : PredNo)
  (km : BitVec 3)
  (d : RegNo)
  (a b : Src)
  (w : BitVec 2)
  (sgn sat : Bool)
  deriving DecidableEq, Repr

/-- Operands: VIMIN, VIMAX: no saturate (R133). -/
structure VIs where
  (qp : PredNo)
  (km : BitVec 3)
  (d : RegNo)
  (a b : Src)
  (w : BitVec 2)
  (sgn : Bool)
  deriving DecidableEq, Repr

/-- Operands: VSHR, VSAR: width only (R133). -/
structure VIw where
  (qp : PredNo)
  (km : BitVec 3)
  (d : RegNo)
  (a b : Src)
  (w : BitVec 2)
  deriving DecidableEq, Repr

/-- Operands: VAND, VOR, VXOR, VANDN, VPERML (R134, R144). -/
structure V2 where
  (qp : PredNo)
  (km : BitVec 3)
  (d : RegNo)
  (a b : Src)
  deriving DecidableEq, Repr

/-- Operands: VDOT4 (R135). -/
structure VDot where
  (qp : PredNo)
  (km : BitVec 3)
  (d : RegNo)
  (a b : Src)
  (sgn sat : Bool)
  deriving DecidableEq, Repr

/-- Operands: VIABS: signed (R133). -/
structure VIabs where
  (qp : PredNo)
  (km : BitVec 3)
  (d : RegNo)
  (a : Src)
  (w : BitVec 2)
  (sat : Bool)
  deriving DecidableEq, Repr

/-- Operands: VCMP: kind, condition, reduction, format or width; D a k register (R136). -/
structure VCmp where
  (qp : PredNo)
  (km d : BitVec 3)
  (a b : Src)
  (int : Bool)
  (cond : BitVec 3)
  (any : Bool)
  (fw : BitVec 2)
  deriving DecidableEq, Repr

/-- Operands: VSELK: selector k[FN[2:0]] (R137). -/
structure VSelk where
  (qp : PredNo)
  (km : BitVec 3)
  (d : RegNo)
  (a b : Src)
  (kf : BitVec 3)
  deriving DecidableEq, Repr

/-- Operands: KLOG with two sources (R138). -/
structure KL where
  (qp : PredNo)
  (d a b : BitVec 3)
  deriving DecidableEq, Repr

/-- Operands: KNOT, KMOV (R138, R139). -/
structure KL1 where
  (qp : PredNo)
  (d a : BitVec 3)
  deriving DecidableEq, Repr

/-- Operands: KMOV.v2k (R139). -/
structure KV where
  (qp : PredNo)
  (d : BitVec 3)
  (a : Src)
  deriving DecidableEq, Repr

/-- Operands: KMOV.k2v (R139). -/
structure VK where
  (qp : PredNo)
  (d : RegNo)
  (a : BitVec 3)
  deriving DecidableEq, Repr

/-- Operands: VCVT: destination code, rounding, part, saturate, unsigned sides (R140). -/
structure VCv where
  (qp : PredNo)
  (km : BitVec 3)
  (d : RegNo)
  (a : Src)
  (dst : Tag)
  (rnd part : BitVec 3)
  (sat us ud : Bool)
  deriving DecidableEq, Repr

/-- Operands: VPERMB: half selection in FN[1:0] (R143). -/
structure VPb where
  (qp : PredNo)
  (km : BitVec 3)
  (d : RegNo)
  (a b : Src)
  (half : BitVec 2)
  deriving DecidableEq, Repr

/-- Operands: VRED of floats (R145). -/
structure VRd where
  (qp : PredNo)
  (km : BitVec 3)
  (d : RegNo)
  (a : Src)
  (fw : BitVec 2)
  deriving DecidableEq, Repr

/-- Operands: VRED.isum: saturate and unsigned (R145). -/
structure VRs where
  (qp : PredNo)
  (km : BitVec 3)
  (d : RegNo)
  (a : Src)
  (fw : BitVec 2)
  (sat uns : Bool)
  deriving DecidableEq, Repr

/-- Operands: VMOV (R146). -/
structure VMv where
  (qp : PredNo)
  (km : BitVec 3)
  (d : RegNo)
  (a : Src)
  deriving DecidableEq, Repr

/-- Operands: VBCAST: x register, element width code, result tag (R146). -/
structure VBc where
  (qp : PredNo)
  (km : BitVec 3)
  (d a : RegNo)
  (w : BitVec 2)
  (tag : Tag)
  deriving DecidableEq, Repr

/-- Operands: VIMM: width code and IMM14 (R147). -/
structure VIm where
  (qp : PredNo)
  (km : BitVec 3)
  (d : RegNo)
  (w : BitVec 2)
  (imm : BitVec 14)
  deriving DecidableEq, Repr

/-- Operands: VTAG: tag code in FN[3:0] (R148). -/
structure VTg where
  (qp : PredNo)
  (d : RegNo)
  (a : Src)
  (tag : Tag)
  deriving DecidableEq, Repr

/-- Operands: RFMODE: n in IMM14[2:0] (R149). -/
structure VRfm where
  (qp : PredNo)
  (n : BitVec 3)
  deriving DecidableEq, Repr

/-- Operands: MMA (R196). -/
structure XMma where
  (qp : PredNo)
  (acc : BitVec 3)
  (a : Src)
  (b : RegNo)
  (ovw mc rb bf af : Bool)
  (mode : BitVec 3)
  deriving DecidableEq, Repr

/-- Operands: MZERO (R201). -/
structure XAcc where
  (qp : PredNo)
  (acc : BitVec 3)
  deriving DecidableEq, Repr

/-- Operands: MLD: image code in FN[1:0] (R202). -/
structure XMld where
  (qp : PredNo)
  (acc : BitVec 3)
  (b : RegNo)
  (img : BitVec 2)
  deriving DecidableEq, Repr

/-- Operands: MST, bed form (R203). -/
structure XMst where
  (qp : PredNo)
  (acc : BitVec 3)
  (b : RegNo)
  (img : BitVec 2)
  (sat : Bool)
  deriving DecidableEq, Repr

/-- Operands: MST, signal form (R203). -/
structure XMss where
  (qp : PredNo)
  (acc q : BitVec 3)
  (img : BitVec 2)
  (sat : Bool)
  deriving DecidableEq, Repr

/-- Operands: MROW, tile to vector (R204). -/
structure XMrow where
  (qp : PredNo)
  (d : RegNo)
  (acc : BitVec 3)
  (row : BitVec 7)
  (int : Bool)
  deriving DecidableEq, Repr

/-- Operands: MROW, vector to tile (R204). -/
structure XMroww where
  (qp : PredNo)
  (a : RegNo)
  (acc : BitVec 3)
  (row : BitVec 7)
  deriving DecidableEq, Repr

/-- Operands: MSCL (R200). -/
structure XMscl where
  (qp : PredNo)
  (acc : BitVec 3)
  (a : Src)
  (b : RegNo)
  deriving DecidableEq, Repr

/-- Operands: SQST: item in FN[3:0] (R209). -/
structure XSqst where
  (qp : PredNo)
  (d : RegNo)
  (item : BitVec 4)
  deriving DecidableEq, Repr

/-- Operands: ATTN (R211). -/
structure XAttn where
  (qp : PredNo)
  (acc : BitVec 3)
  (a : Src)
  (b : RegNo)
  (prune fin init d128 : Bool)
  (fmt : BitVec 2)
  deriving DecidableEq, Repr

/-- Operands: TAPSET (R178). -/
structure XTs where
  (qp : PredNo)
  (q : BitVec 3)
  (sig : BitVec 8)
  (lag : BitVec 15)
  deriving DecidableEq, Repr

/-- Operands: TAPSETX (R179). -/
structure XTx where
  (qp : PredNo)
  (q : BitVec 3)
  (a : RegNo)
  (sig : BitVec 8)
  deriving DecidableEq, Repr

/-- Operands: TAPRD: D an x register when X is set, else a v register (R180). -/
structure XTap where
  (qp : PredNo)
  (d : RegNo)
  (q part : BitVec 3)
  (x : Bool)
  deriving DecidableEq, Repr

/-- Operands: TAPWR (R181). -/
structure XTw where
  (qp : PredNo)
  (q : BitVec 3)
  (a : RegNo)
  (part : BitVec 3)
  (x : Bool)
  deriving DecidableEq, Repr

/-- Operands: SIGINF: item in FN[11:8] (R182). -/
structure XSi where
  (qp : PredNo)
  (d a : RegNo)
  (sig : BitVec 8)
  (item : BitVec 4)
  deriving DecidableEq, Repr

/-- Operands: SLOTS (R183). -/
structure XSl where
  (qp : PredNo)
  (a : RegNo)
  (sig : BitVec 8)
  deriving DecidableEq, Repr

/-- Operands: SIGRST (R184). -/
structure XSr where
  (qp : PredNo)
  (sig : BitVec 8)
  deriving DecidableEq, Repr

/-- Operands: FWAIT, FPOST: flag and count (R252). -/
structure CF where
  (f : BitVec 5)
  (n : BitVec 10)
  deriving DecidableEq, Repr

/-- Operands: WAITN (R248). -/
structure CW where
  (ld st cp : BitVec 4)
  (tl : BitVec 3)
  deriving DecidableEq, Repr

/-- Operands: PHARR, PHWAIT, PHDROP (R257). -/
structure CPh where
  (ph : RegNo)
  deriving DecidableEq, Repr

/-- Operands: PHREG: mode in ARG[8:7] (R257). -/
structure CPr where
  (ph : RegNo)
  (mode : BitVec 2)
  deriving DecidableEq, Repr

/-- A fault as it is raised: the code of R340 with the parts of FAULT_INFO and FAULT_VA it carries (R341). -/
structure FaultRec where
  code : BitVec 8
  slot : BitVec 3
  origin : BitVec 2
  rb : Bool
  wr : Bool
  queue : BitVec 2
  detail : BitVec 20
  va : Word
  deriving DecidableEq, Repr

/-- A firmware image as the boot ROM finds it after a cold reset (R395, R396): whether its signature verifies under the
fused key hash, its security version, and the four measurements of R397. -/
structure BootImage where
  sigOk : Bool
  version : Nat
  meas : List (BitVec 384)
  deriving DecidableEq, Repr

/-- What another participant of a collective brings (R408 to R412): its rank, the descriptor it has submitted, its source bytes, none of them
where that access failed, and whether its destination could be written. -/
structure CollPeer where
  rank : Nat
  desc : List Word
  src : Option (List Byte)
  dstOk : Bool
  deriving DecidableEq, Repr

/-- An SPDM request as it reaches the responder (R397): its session, nonce, the ASID of a quote, and the LOAD sections that the context maps at
that time, each by its address and length. -/
structure SpdmReq where
  session : Nat
  nonce : BitVec 256
  asid : BitVec 16
  param : Word
  authOk : Bool
  loads : List (Nat × Nat)
  deriving DecidableEq, Repr

/-- The steps of the part, one constructor per row of the opcode table, in its order; each is named with its rule. -/
inductive Instr where
  /-- IADD (R92). -/
  | iadd (o : SR)
  /-- ISUB (R92). -/
  | isub (o : SR)
  /-- AND (R92). -/
  | andR (o : SR)
  /-- OR (R92). -/
  | orR (o : SR)
  /-- XOR (R92). -/
  | xor (o : SR)
  /-- ANDN (R92). -/
  | andn (o : SR)
  /-- ORN (R92). -/
  | orn (o : SR)
  /-- SHL (R92). -/
  | shl (o : SR)
  /-- SHR (R92). -/
  | shr (o : SR)
  /-- SAR (R92). -/
  | sar (o : SR)
  /-- ROR (R92). -/
  | ror (o : SR)
  /-- IMIN (R92). -/
  | imin (o : SR)
  /-- IMAX (R92). -/
  | imax (o : SR)
  /-- IMINZ (R92). -/
  | iminz (o : SR)
  /-- IMAXZ (R92). -/
  | imaxz (o : SR)
  /-- IADDI (R93). -/
  | iaddi (o : SI)
  /-- ANDI (R93). -/
  | andi (o : SI)
  /-- ORI (R93). -/
  | ori (o : SI)
  /-- XORI (R93). -/
  | xori (o : SI)
  /-- SHLI (R93). -/
  | shli (o : SShI)
  /-- SHRI (R93). -/
  | shri (o : SShI)
  /-- SARI (R93). -/
  | sari (o : SShI)
  /-- RORI (R93). -/
  | rori (o : SShI)
  /-- IMUL (R94). -/
  | imul (o : SR)
  /-- IMULH (R94). -/
  | imulh (o : SR)
  /-- IMULHZ (R94). -/
  | imulhz (o : SR)
  /-- IDIV (R94). -/
  | idiv (o : SR)
  /-- IDIVZ (R94). -/
  | idivz (o : SR)
  /-- IREM (R94). -/
  | irem (o : SR)
  /-- IREMZ (R94). -/
  | iremz (o : SR)
  /-- IMULI (R94). -/
  | imuli (o : SI)
  /-- CLZ (R95). -/
  | clz (o : SU)
  /-- CTZ (R95). -/
  | ctz (o : SU)
  /-- POPC (R95). -/
  | popc (o : SU)
  /-- BREV (R95). -/
  | brev (o : SU)
  /-- BSWAP (R95). -/
  | bswap (o : SU)
  /-- IABS (R95). -/
  | iabs (o : SU)
  /-- INEG (R95). -/
  | ineg (o : SU)
  /-- EXTS (R96). -/
  | exts (o : SBits)
  /-- EXTZ (R96). -/
  | extz (o : SBits)
  /-- DEP (R96). -/
  | dep (o : SBits)
  /-- LEA (R97). -/
  | lea (o : SLea)
  /-- SEL (R97). -/
  | sel (o : SSel)
  /-- MOVI (R98). -/
  | movi (o : SL)
  /-- MOVK (R98). -/
  | movk (o : SMovk)
  /-- VEXTR (R99). -/
  | vextr (o : SElem)
  /-- VINS (R99). -/
  | vins (o : SElem)
  /-- ICMP (R100). -/
  | icmp (o : SC)
  /-- ICMPI (R100). -/
  | icmpi (o : SC)
  /-- FCMP (R104). -/
  | fcmp (o : SC)
  /-- PAND (R105). -/
  | pand (o : SP)
  /-- POR (R105). -/
  | por (o : SP)
  /-- PXOR (R105). -/
  | pxor (o : SP)
  /-- PANDN (R105). -/
  | pandn (o : SP)
  /-- PNOT (R105). -/
  | pnot (o : SP1)
  /-- PGET (R106). -/
  | pget (o : SD)
  /-- PSET (R106). -/
  | pset (o : SA)
  /-- FADD (R107). -/
  | fadd (o : SFp)
  /-- FSUB (R107). -/
  | fsub (o : SFp)
  /-- FMUL (R107). -/
  | fmul (o : SFp)
  /-- FDIV (R107). -/
  | fdiv (o : SFp)
  /-- FSQRT (R107). -/
  | fsqrt (o : SFp1)
  /-- FMIN (R107). -/
  | fmin (o : SFp)
  /-- FMAX (R107). -/
  | fmax (o : SFp)
  /-- FFMA (R108). -/
  | ffma (o : SFp)
  /-- FCVT (R109). -/
  | fcvt (o : SCvt)
  /-- MFS (R110). -/
  | mfs (o : SMfs)
  /-- MTS (R110). -/
  | mts (o : SMts)
  /-- TRAP (R116). -/
  | trap (o : STrap)
  /-- RFT (R117). -/
  | rft (o : SQ)
  /-- HALT (R118). -/
  | halt (o : SQ)
  /-- BR (R113). -/
  | br (o : SBr)
  /-- CALL (R113). -/
  | call (o : SBr)
  /-- BRX (R114). -/
  | brx (o : SU)
  /-- RET (R114). -/
  | ret (o : SA)
  /-- CHK (R115). -/
  | chk (o : SI)
  /-- CHKV (R115). -/
  | chkv (o : SI)
  /-- FORK (R119). -/
  | fork (o : SAB)
  /-- SYNC (R119). -/
  | sync (o : SQ)
  /-- RETF (R119). -/
  | retf (o : SQ)
  /-- TEND (R119). -/
  | tend (o : SQ)
  /-- YIELD (R119). -/
  | yield (o : SQ)
  /-- WAITC (R119). -/
  | waitc (o : SA)
  /-- LDB (R221). -/
  | ldb (o : ML)
  /-- LDBZ (R221). -/
  | ldbz (o : ML)
  /-- LDH (R221). -/
  | ldh (o : ML)
  /-- LDHZ (R221). -/
  | ldhz (o : ML)
  /-- LDW (R221). -/
  | ldw (o : ML)
  /-- LDWZ (R221). -/
  | ldwz (o : ML)
  /-- LDD (R221). -/
  | ldd (o : ML)
  /-- STB (R221). -/
  | stb (o : ML)
  /-- STH (R221). -/
  | sth (o : ML)
  /-- STW (R221). -/
  | stw (o : ML)
  /-- STD (R221). -/
  | std (o : ML)
  /-- VLD (R222). -/
  | vld (o : MLTag)
  /-- VST (R222). -/
  | vst (o : MLV)
  /-- VGATH (R223). -/
  | vgath (o : MGath)
  /-- VSCAT (R223). -/
  | vscat (o : MScat)
  /-- RLD (R225). -/
  | rld (o : ML)
  /-- RST (R225). -/
  | rst (o : ML)
  /-- RVLD (R225). -/
  | rvld (o : MLTag)
  /-- RVST (R225). -/
  | rvst (o : MLV)
  /-- GLDB (R227). -/
  | gldb (o : MG)
  /-- GLDH (R227). -/
  | gldh (o : MG)
  /-- GLDW (R227). -/
  | gldw (o : MG)
  /-- GLDD (R227). -/
  | gldd (o : MG)
  /-- GSTB (R227). -/
  | gstb (o : MG)
  /-- GSTH (R227). -/
  | gsth (o : MG)
  /-- GSTW (R227). -/
  | gstw (o : MG)
  /-- GSTD (R227). -/
  | gstd (o : MG)
  /-- GVLD (R227). -/
  | gvld (o : MGTag)
  /-- GVST (R227). -/
  | gvst (o : MGV)
  /-- GLDS_W (R229). -/
  | gldsW (o : MG)
  /-- GLDS_D (R229). -/
  | gldsD (o : MG)
  /-- PREF (R230). -/
  | pref (o : MPref)
  /-- COPY (R234). -/
  | copy (o : MCQ)
  /-- COPY_IN (R234). -/
  | copyIn (o : MCQ)
  /-- COPY_OUT (R234). -/
  | copyOut (o : MCQ)
  /-- COPY2D (R235). -/
  | copy2d (o : MCQ)
  /-- ACCW_ADD (R238). -/
  | accwAdd (o : MAcc)
  /-- ACCW_MIN (R238). -/
  | accwMin (o : MAcc)
  /-- ACCW_MAX (R238). -/
  | accwMax (o : MAcc)
  /-- ACCW_MINZ (R238). -/
  | accwMinz (o : MAcc)
  /-- ACCW_MAXZ (R238). -/
  | accwMaxz (o : MAcc)
  /-- ACCW_AND (R238). -/
  | accwAnd (o : MAcc)
  /-- ACCW_OR (R238). -/
  | accwOr (o : MAcc)
  /-- ACCW_XOR (R238). -/
  | accwXor (o : MAcc)
  /-- ACCW_SWAP (R238). -/
  | accwSwap (o : MAccB)
  /-- ACCW_CAS (R238). -/
  | accwCas (o : MAccB)
  /-- ACCW_FADDQ (R238, R239). -/
  | accwFaddq (o : MFaddq)
  /-- ALD (R236). -/
  | ald (o : MCQ)
  /-- QNOTIFY (R243). -/
  | qnotify (o : MNot)
  /-- QFENCE (R244). -/
  | qfence (o : MQf)
  /-- FPOSTR (R245). -/
  | fpostr (o : MPost)
  /-- FENCE_REL (R246). -/
  | fenceRel (o : MFence)
  /-- FENCE_ACQ (R246). -/
  | fenceAcq (o : MFence)
  /-- FENCE_FULL (R246). -/
  | fenceFull (o : MFence)
  /-- FENCE_FULLQ (R246). -/
  | fenceFullq (o : MFence)
  /-- XLAT (R334). -/
  | xlat (o : MXlat)
  /-- HREL (R335). -/
  | hrel (o : MHrel)
  /-- HINFO (R336). -/
  | hinfo (o : MHinfo)
  /-- HINFO_VA (R336). -/
  | hinfoVa (o : MHinfo)
  /-- PCOMMIT (R339). -/
  | pcommit (o : MDAB)
  /-- PDECOMMIT (R339). -/
  | pdecommit (o : MDA)
  /-- QALLOC (R357). -/
  | qalloc (o : MDAZ)
  /-- QFREE (R358). -/
  | qfree (o : MDA)
  /-- BTSET (R360). -/
  | btset (o : MDAB)
  /-- BTGET (R360). -/
  | btget (o : MDA)
  /-- BTAPP (R361). -/
  | btapp (o : MDAZ)
  /-- LAUNCH (R310). -/
  | launch (o : MDAB)
  /-- SHAPE_FINAL (R316). -/
  | shapeFinal (o : MAB)
  /-- SHAPE_FLOOR (R316). -/
  | shapeFloor (o : MAB)
  /-- GRAPH (R321). -/
  | graph (o : MDAB)
  /-- VADD (R129). -/
  | vadd (o : VF)
  /-- VSUB (R129). -/
  | vsub (o : VF)
  /-- VMUL (R129). -/
  | vmul (o : VF)
  /-- VFMA (R129). -/
  | vfma (o : VF)
  /-- VFMS (R129). -/
  | vfms (o : VF)
  /-- VFNMA (R129). -/
  | vfnma (o : VF)
  /-- VMIN (R129). -/
  | vmin (o : VFmm)
  /-- VMAX (R129). -/
  | vmax (o : VFmm)
  /-- VABS (R129). -/
  | vabs (o : VF1)
  /-- VNEG (R129). -/
  | vneg (o : VF1)
  /-- VDIV (R129). -/
  | vdiv (o : VF)
  /-- VSQRT (R129). -/
  | vsqrt (o : VFr)
  /-- VRCP (R129, R131). -/
  | vrcp (o : VFs)
  /-- VRSQ (R129, R131). -/
  | vrsq (o : VFs)
  /-- VEXP2 (R129, R131). -/
  | vexp2 (o : VFs)
  /-- VLOG2 (R129, R131). -/
  | vlog2 (o : VFs)
  /-- VTANH (R129, R131). -/
  | vtanh (o : VFs)
  /-- VSCL (R132). -/
  | vscl (o : VF)
  /-- VIADD (R133). -/
  | viadd (o : VI)
  /-- VISUB (R133). -/
  | visub (o : VI)
  /-- VIMUL (R133). -/
  | vimul (o : VI)
  /-- VIMAD (R133). -/
  | vimad (o : VI)
  /-- VSHL (R133). -/
  | vshl (o : VI)
  /-- VSHR (R133). -/
  | vshr (o : VIw)
  /-- VSAR (R133). -/
  | vsar (o : VIw)
  /-- VAND (R134). -/
  | vand (o : V2)
  /-- VOR (R134). -/
  | vor (o : V2)
  /-- VXOR (R134). -/
  | vxor (o : V2)
  /-- VANDN (R134). -/
  | vandn (o : V2)
  /-- VIMIN (R133). -/
  | vimin (o : VIs)
  /-- VIMAX (R133). -/
  | vimax (o : VIs)
  /-- VDOT4 (R135). -/
  | vdot4 (o : VDot)
  /-- VIABS (R133). -/
  | viabs (o : VIabs)
  /-- VCMP (R136). -/
  | vcmp (o : VCmp)
  /-- VSELK (R137). -/
  | vselk (o : VSelk)
  /-- KAND (R138). -/
  | kand (o : KL)
  /-- KOR (R138). -/
  | kor (o : KL)
  /-- KXOR (R138). -/
  | kxor (o : KL)
  /-- KANDN (R138). -/
  | kandn (o : KL)
  /-- KNOT (R138). -/
  | knot (o : KL1)
  /-- KMOV (R139). -/
  | kmov (o : KL1)
  /-- KMOV_V2K (R139). -/
  | kmovV2k (o : KV)
  /-- KMOV_K2V (R139). -/
  | kmovK2v (o : VK)
  /-- VCVT (R140). -/
  | vcvt (o : VCv)
  /-- VPERMB (R143). -/
  | vpermb (o : VPb)
  /-- VPERML (R144). -/
  | vperml (o : V2)
  /-- VPERML_TWO (R144). -/
  | vpermlTwo (o : V2)
  /-- VRED_FSUM (R145). -/
  | vredFsum (o : VRd)
  /-- VRED_FMAX (R145). -/
  | vredFmax (o : VRd)
  /-- VRED_FMIN (R145). -/
  | vredFmin (o : VRd)
  /-- VRED_ISUM (R145). -/
  | vredIsum (o : VRs)
  /-- VRED_IMAX (R145). -/
  | vredImax (o : VRd)
  /-- VRED_IMIN (R145). -/
  | vredImin (o : VRd)
  /-- VRED_IMAXZ (R145). -/
  | vredImaxz (o : VRd)
  /-- VRED_IMINZ (R145). -/
  | vredIminz (o : VRd)
  /-- VMOV (R146). -/
  | vmov (o : VMv)
  /-- VBCAST (R146). -/
  | vbcast (o : VBc)
  /-- VIMM (R147). -/
  | vimm (o : VIm)
  /-- VTAG (R148). -/
  | vtag (o : VTg)
  /-- RFMODE (R149). -/
  | rfmode (o : VRfm)
  /-- MMA (R196). -/
  | mma (o : XMma)
  /-- MZERO (R201). -/
  | mzero (o : XAcc)
  /-- MLD (R202). -/
  | mld (o : XMld)
  /-- MST_BED (R203). -/
  | mstBed (o : XMst)
  /-- MST_SIGNAL (R203). -/
  | mstSignal (o : XMss)
  /-- MROW (R204). -/
  | mrow (o : XMrow)
  /-- MROW_W (R204). -/
  | mrowW (o : XMroww)
  /-- MSCL (R200). -/
  | mscl (o : XMscl)
  /-- MGRP (R199). -/
  | mgrp (o : SA)
  /-- SQLD (R206). -/
  | sqld (o : SA)
  /-- SQGO (R207). -/
  | sqgo (o : SQ)
  /-- SQST (R209). -/
  | sqst (o : XSqst)
  /-- SQABT (R208). -/
  | sqabt (o : SQ)
  /-- ATTN (R211). -/
  | attn (o : XAttn)
  /-- TAPSET (R178). -/
  | tapset (o : XTs)
  /-- TAPSETX (R179). -/
  | tapsetx (o : XTx)
  /-- TAPRD (R180). -/
  | taprd (o : XTap)
  /-- TAPWR (R181). -/
  | tapwr (o : XTw)
  /-- SIGINF (R182). -/
  | siginf (o : XSi)
  /-- SLOTS_SEL (R183). -/
  | slotsSel (o : XSl)
  /-- SLOTS_CLR (R183). -/
  | slotsClr (o : XSl)
  /-- SLOTS_ONE (R183). -/
  | slotsOne (o : XSl)
  /-- SIGRST (R184). -/
  | sigrst (o : XSr)
  /-- TICK (R162). -/
  | tick
  /-- FWAIT (R252). -/
  | fwait (o : CF)
  /-- FPOST (R252). -/
  | fpost (o : CF)
  /-- WAITN (R248). -/
  | waitn (o : CW)
  /-- PHREG (R258). -/
  | phreg (o : CPr)
  /-- PHARR (R258). -/
  | pharr (o : CPh)
  /-- PHWAIT (R258). -/
  | phwait (o : CPh)
  /-- PHDROP (R258). -/
  | phdrop (o : CPh)
  /-- RESTART_MARK (R29: core c). -/
  | restartMark (c : Nat)
  /-- RESULT_LANDING (R18: core c). -/
  | resultLanding (c : Nat)
  /-- RESULT_ARRIVAL (R21: the request numbered n of core c). -/
  | resultArrival (c n : Nat)
  /-- CLUSTER_WAKE_DONE (R17: vector cluster v of core c). -/
  | clusterWakeDone (c v : Nat)
  /-- FREEZE_CYCLE (R41: core c). -/
  | freezeCycle (c : Nat)
  /-- BALLAST_CYCLE (R427: core c). -/
  | ballastCycle (c : Nat)
  /-- ROLLBACK_FAULT (R33: core c). -/
  | rollbackFault (c : Nat) (f : FaultRec)
  /-- TRAP_ENTRY (R343: core c). -/
  | trapEntry (c : Nat) (f : FaultRec)
  /-- TILE_ENTRY_COMPLETE (R185: the head of the tile queue of core c). -/
  | tileEntryComplete (c : Nat)
  /-- TILE_FAULT_REPORT (R192: core c). -/
  | tileFaultReport (c : Nat)
  /-- COMMAND_COMPLETE (R232: the head of queue q of core c). -/
  | commandComplete (c q : Nat)
  /-- INGRESS_SAMPLE_DELIVERY (R169: queue q of core c). -/
  | ingressSampleDelivery (c q : Nat)
  /-- EGRESS_SAMPLE_DRAIN (R170: queue q of core c). -/
  | egressSampleDrain (c q : Nat)
  /-- MIRROR_SAMPLE_ARRIVAL (R166: mirror signal sig of core c). -/
  | mirrorSampleArrival (c sig : Nat)
  /-- UNIT_END (R250: core c). -/
  | unitEnd (c : Nat)
  /-- TASK_SUSPEND (R121: core c). -/
  | taskSuspend (c : Nat)
  /-- FLAG_POST_ARRIVAL (R253: n posted to flag f of core c). -/
  | flagPostArrival (c f n : Nat)
  /-- TASK_PICK (R272: idle core c). -/
  | taskPick (c : Nat)
  /-- PREEMPT (R43: core c). -/
  | preempt (c : Nat)
  /-- RESUME (R44: the k-th saved image, on core c). -/
  | resume (c k : Nat)
  /-- LAUNCH_ACCEPT (R298: the oldest submission). -/
  | launchAccept
  /-- LAUNCH_START (R304: the next hardware queue). -/
  | launchStart
  /-- BLOCK_DEAL (R306: launch l). -/
  | blockDeal (l : Nat)
  /-- UNIT_START (R300: member m of stage of launch l on core c). -/
  | unitStart (l stage m c : Nat)
  /-- LAUNCH_COMPLETE (R309: launch or graph l). -/
  | launchComplete (l : Nat)
  /-- SHAPE_POST (R317: the oldest post). -/
  | shapePost
  /-- BLOCK_COMMIT (R318: block b of launch l). -/
  | blockCommit (l b : Nat)
  /-- GRAPH_VISIT (R322: the next visit of graph g). -/
  | graphVisit (g : Nat)
  /-- TRANSLATION_WALK_DONE (R331: handle h of core c). -/
  | translationWalkDone (c h : Nat)
  /-- PAGE_MIGRATION (R292: the page at va moves to pa). -/
  | pageMigration (asid : Nat) (va : Word) (pa : Nat)
  /-- BLOCK_DRAIN_DONE (R352). -/
  | blockDrainDone (asid pool blk : Nat)
  /-- SQ_TAIL (R389, R393). -/
  | sqTail (fn q : Nat) (v : BitVec 32)
  /-- SUBMISSION_RECORD (R390). -/
  | submissionRecord (fn q : Nat)
  /-- CQ_HEAD (R389). -/
  | cqHead (fn q : Nat) (v : BitVec 32)
  /-- FQ_HEAD (R389). -/
  | fqHead (fn : Nat) (v : BitVec 32)
  /-- FAULT_REPLY_RESUME (R389, R392). -/
  | faultReplyResume (fn : Nat) (req : BitVec 24)
  /-- FAULT_REPLY_END (R389, R392). -/
  | faultReplyEnd (fn : Nat) (req : BitVec 24)
  /-- SQ_CONF (R441: the mailbox command record at IOVA addr of function fn). -/
  | sqConf (fn : Nat) (addr : Word)
  /-- CQ_CONF (R441: the mailbox command record at IOVA addr of function fn). -/
  | cqConf (fn : Nat) (addr : Word)
  /-- FQ_CONF (R441: the mailbox command record at IOVA addr of function fn). -/
  | fqConf (fn : Nat) (addr : Word)
  /-- Q_RESET (R441: the mailbox command record at IOVA addr of function fn). -/
  | qReset (fn : Nat) (addr : Word)
  /-- CTX_CREATE (R441: the mailbox command record at IOVA addr of function fn). -/
  | ctxCreate (fn : Nat) (addr : Word)
  /-- CTX_DESTROY (R441: the mailbox command record at IOVA addr of function fn). -/
  | ctxDestroy (fn : Nat) (addr : Word)
  /-- INVALIDATE (R441: the mailbox command record at IOVA addr of function fn). -/
  | invalidate (fn : Nat) (addr : Word)
  /-- PRED_CLEAR (R441: the mailbox command record at IOVA addr of function fn). -/
  | predClear (fn : Nat) (addr : Word)
  /-- HOST_MEMORY_ACCESS (R398; with ASID 0, of the host's own memory). -/
  | hostMemoryAccess (fn asid : Nat) (va : Word) (write : Bool) (bytes : List Byte)
  /-- COLD_RESET (R395). -/
  | coldReset (img : BootImage)
  /-- GET_VERSION (R397). -/
  | getVersion (r : SpdmReq)
  /-- GET_CAPABILITIES (R397). -/
  | getCapabilities (r : SpdmReq)
  /-- NEGOTIATE_ALGORITHMS (R397). -/
  | negotiateAlgorithms (r : SpdmReq)
  /-- GET_DIGESTS (R397). -/
  | getDigests (r : SpdmReq)
  /-- GET_CERTIFICATE (R397). -/
  | getCertificate (r : SpdmReq)
  /-- CHALLENGE (R397). -/
  | challenge (r : SpdmReq)
  /-- GET_MEASUREMENTS (R397). -/
  | getMeasurements (r : SpdmReq)
  /-- KEY_EXCHANGE (R397). -/
  | keyExchange (r : SpdmReq)
  /-- FINISH (R397). -/
  | finish (r : SpdmReq)
  /-- END_SESSION (R397). -/
  | endSession (r : SpdmReq)
  /-- TDISP_LEAVE_RUN (R397). -/
  | tdispLeaveRun (fn : Nat) (err : Bool)
  /-- LINK_AUTH_FAIL (R399). -/
  | linkAuthFail (l : Nat)
  /-- LINK_PATH_LOST (R407). -/
  | linkPathLost (pkg : Nat)
  /-- COLLECTIVE_SUBMIT (R409). -/
  | collectiveSubmit (asid ch : Nat) (desc : List Word)
  /-- COLLECTIVE_COMPLETE (R410). -/
  | collectiveComplete (ch : Nat) (peers : List CollPeer)
  /-- LOWERING_NOTICE (R414). -/
  | loweringNotice (pkg : Nat) (ceiling t : Nat)
  /-- LOWERING_NOTICE_DUE (R414). -/
  | loweringNoticeDue
  /-- RAISE_JOIN_LEAVE (R415: kind 0 raise, 1 join, 2 leave). -/
  | raiseJoinLeave (kind pkg ceiling : Nat)
  /-- EPOCH_BOUNDARY (R415). -/
  | epochBoundary
  /-- HEARTBEAT (R416). -/
  | heartbeat (pkg : Nat)
  /-- MEMBER_SILENT (R418). -/
  | memberSilent (pkg : Nat)
  /-- LEADER_TIMEOUT (R416). -/
  | leaderTimeout
  /-- MEMBER_ISOLATED (R416). -/
  | memberIsolated
  /-- EMERGENCY_LIMIT (R417). -/
  | emergencyLimit (f : Nat)
  /-- URGENT_NOTICE (R417). -/
  | urgentNotice (pkg f : Nat)
  /-- DIE_FENCE (R421). -/
  | dieFence (d : Nat)
  /-- HUB_DIE_FATAL (R421). -/
  | hubDieFatal (h : Nat)
  /-- VF_RESET (R425). -/
  | vfReset (fn : Nat)
  /-- MEMBER_WITHDRAWN (R425). -/
  | memberWithdrawn (ch : Nat)
  /-- POWER_RING_PERIOD (R429: what each die asks for and drew). -/
  | powerRingPeriod (demand used : List Nat)
  /-- OVERCAP_BALLAST_LIMIT (R428). -/
  | overcapBallastLimit (d : Nat)
  /-- PKG_CAP_WRITE (R429). -/
  | pkgCapWrite (v : Word)
  /-- DIE_PWR_WRITE (R429). -/
  | diePwrWrite (d : Nat) (v : Word)
  /-- VTRIM_WRITE (R430). -/
  | vtrimWrite (d : Nat) (v : Word)
  /-- VOLTAGE_LOW (R430). -/
  | voltageLow (d col f : Nat)
  /-- WDOG_CTL_WRITE (R431). -/
  | wdogCtlWrite (fn : Nat) (v : Word)
  /-- WATCHDOG_EXPIRY (R432). -/
  | watchdogExpiry (c : Nat)
  /-- ERROR_DETECTED (R433, R435). -/
  | errorDetected (inst : Nat) (addr : Word) (asid synd : BitVec 16) (ue : Bool)
  /-- LINK_CRC_ERROR (R433). -/
  | linkCrcError (l : Nat)
  /-- ERR_STAT_CLEAR (R435). -/
  | errStatClear (inst : Nat)
  /-- ERR_INJ_WRITE (R436). -/
  | errInjWrite (inst : Nat) (v : Word)
  /-- CL_REQ_RUN (R438). -/
  | clReqRun (k : Nat)
  /-- CL_REQ_QUIESCED (R438). -/
  | clReqQuiesced (k : Nat)
  /-- CL_REQ_SAVED (R438). -/
  | clReqSaved (k : Nat)
  /-- CL_REQ_GATED (R438). -/
  | clReqGated (k : Nat)
  /-- CL_STATE_REACHED (R438). -/
  | clStateReached (k : Nat)
  /-- CL_WAKE (R439). -/
  | clWake (k : Nat)
  /-- CL_START (R437). -/
  | clStart (k : Nat) (v : Word)
  /-- LINK_BRING_UP (R399). -/
  | linkBringUp (l : Nat) (ok : Bool)
  /-- TDISP_LOCK (R397). -/
  | tdispLock (fn : Nat)
  /-- TDISP_ENTER_RUN (R397). -/
  | tdispEnterRun (fn : Nat)
  /-- ANTI_ROLLBACK_RAISE (R395). -/
  | antiRollbackRaise (v : Nat) (sigOk : Bool)
  /-- GROUP_BINDING (R408). -/
  | groupBinding (pkg group ch asid : Nat) (members ranks : List Nat)
  /-- CUR_LIMIT_BASE_SET (R426). -/
  | curLimitBaseSet (c : Nat) (v : Word)
  deriving DecidableEq, Repr

end Sys2Proof
end

