-- ==== Sys2Proof/WellFormed.lean ====
section
/-! DEFINITION. Which terms of Instr an encoding can hold: the checks R71, R78, R80, R96, R99, R102, R110 and the rules of the
single instructions make on an encoding alone. An event has no encoding; it is well formed whatever inputs arrive with it. -/

namespace Sys2Proof

/-- An even register number (R71, R109). -/
def even (r : RegNo) : Bool := r.toNat % 2 == 0

/-- pos + w at most 64 (R96). -/
def wfBits (o : SBits) : Bool := o.pos.toNat + o.wm1.toNat + 1 <= 64

/-- Types that write unequal values name two registers, or p0 (R102). -/
def wfSC (o : SC) : Bool := !(o.ct == 0 || o.ct == 6 || o.ct == 7) || o.p1 != o.p2 || o.p1 == 0

/-- An integer kind of FCVT: INT64 or INT128 (R79). -/
def intKind (k : BitVec 2) : Bool := k == 2 || k == 3

/-- Two different kinds, not both integers (R80). -/
def cvtKinds (o : SCvt) : Bool := o.src != o.dst && !(intKind o.src && intKind o.dst)

/-- FCVT: legal kinds, unsigned only with an integer, INT128 in an even pair (R80, R109). -/
def wfCvt (o : SCvt) : Bool :=
  cvtKinds o && (!o.uns || intKind o.src || intKind o.dst) && (o.src != 3 || even o.a) && (o.dst != 3 || even o.d)

/-- The selectors MFS reads (R110). -/
def mfsSel (s : BitVec 14) : Bool :=
  let n := s.toNat
  n <= 4 || (8 <= n && n <= 12) || (16 <= n && n <= 26) || (32 <= n && n <= 42)

/-- The selectors whose MTS column is not ILLEGAL_OPERAND (R110). -/
def mtsSel (s : BitVec 14) : Bool :=
  let n := s.toNat
  n == 1 || n == 3 || (8 <= n && n <= 12) || (20 <= n && n <= 22) || n == 25 || (32 <= n && n <= 42)

/-- A tag code an instruction may write: 13 to 15 are reserved (R15). -/
def wfTag (t : Tag) : Bool := t < 13

/-- The tags VBCAST accepts for an element width code (R146). -/
def wfBc (w : BitVec 2) (t : Tag) : Bool :=
  match w.toNat with
  | 0 => t == 10 || t == 11 || t == 5 || t == 6 || t == 7 || t == 12 || t == 1
  | 1 => t == 9 || t == 3 || t == 4 || t == 1
  | 2 => t == 8 || t == 2 || t == 1
  | _ => false

/-- An integer tag (R15, R50). -/
def intTag (t : Tag) : Bool := 8 <= t && t <= 11

/-- The checks of VCVT that need only the encoding (R140). -/
def wfCv (o : VCv) : Bool := o.rnd <= 4 && 2 <= o.dst && o.dst <= 12 && (!o.sat || o.dst != 12) && (!o.ud || intTag o.dst)

/-- MMA: a listed mode, AF and BF only where they mean something, MC only with RB (R196). -/
def wfMma (o : XMma) : Bool := o.mode <= 5 && (o.mode <= 2 || (!o.af && !o.bf)) && (!o.mc || o.rb)

/-- The terms an encoding can hold. -/
def Instr.wellFormed : Instr → Bool
  | .iadd _ => true
  | .isub _ => true
  | .andR _ => true
  | .orR _ => true
  | .xor _ => true
  | .andn _ => true
  | .orn _ => true
  | .shl _ => true
  | .shr _ => true
  | .sar _ => true
  | .ror _ => true
  | .imin _ => true
  | .imax _ => true
  | .iminz _ => true
  | .imaxz _ => true
  | .iaddi _ => true
  | .andi _ => true
  | .ori _ => true
  | .xori _ => true
  | .shli _ => true
  | .shri _ => true
  | .sari _ => true
  | .rori _ => true
  | .imul _ => true
  | .imulh _ => true
  | .imulhz _ => true
  | .idiv _ => true
  | .idivz _ => true
  | .irem _ => true
  | .iremz _ => true
  | .imuli _ => true
  | .clz _ => true
  | .ctz _ => true
  | .popc _ => true
  | .brev _ => true
  | .bswap _ => true
  | .iabs _ => true
  | .ineg _ => true
  | .exts o => wfBits o
  | .extz o => wfBits o
  | .dep o => wfBits o
  | .lea _ => true
  | .sel _ => true
  | .movi _ => true
  | .movk _ => true
  | .vextr _ => true
  | .vins _ => true
  | .icmp o => wfSC o
  | .icmpi o => wfSC o
  | .fcmp o => wfSC o
  | .pand _ => true
  | .por _ => true
  | .pxor _ => true
  | .pandn _ => true
  | .pnot _ => true
  | .pget _ => true
  | .pset _ => true
  | .fadd _ => true
  | .fsub _ => true
  | .fmul _ => true
  | .fdiv _ => true
  | .fsqrt _ => true
  | .fmin _ => true
  | .fmax _ => true
  | .ffma _ => true
  | .fcvt o => wfCvt o
  | .mfs o => mfsSel o.sel
  | .mts o => mtsSel o.sel
  | .trap _ => true
  | .rft _ => true
  | .halt _ => true
  | .br _ => true
  | .call _ => true
  | .brx _ => true
  | .ret _ => true
  | .chk o => o.d == 0 || o.d != o.a
  | .chkv _ => true
  | .fork _ => true
  | .sync _ => true
  | .retf _ => true
  | .tend _ => true
  | .yield _ => true
  | .waitc _ => true
  | .ldb _ => true
  | .ldbz _ => true
  | .ldh _ => true
  | .ldhz _ => true
  | .ldw _ => true
  | .ldwz _ => true
  | .ldd _ => true
  | .stb _ => true
  | .sth _ => true
  | .stw _ => true
  | .std _ => true
  | .vld o => wfTag o.tag
  | .vst _ => true
  | .vgath o => wfTag o.tag && o.w != 3 && o.base != 2
  | .vscat o => o.w != 3 && o.base != 2
  | .rld _ => true
  | .rst _ => true
  | .rvld o => wfTag o.tag
  | .rvst _ => true
  | .gldb _ => true
  | .gldh _ => true
  | .gldw _ => true
  | .gldd _ => true
  | .gstb _ => true
  | .gsth _ => true
  | .gstw _ => true
  | .gstd _ => true
  | .gvld o => wfTag o.tag
  | .gvst _ => true
  | .gldsW _ => true
  | .gldsD _ => true
  | .pref _ => true
  | .copy _ => true
  | .copyIn _ => true
  | .copyOut _ => true
  | .copy2d o => even o.b
  | .accwAdd _ => true
  | .accwMin _ => true
  | .accwMax _ => true
  | .accwMinz _ => true
  | .accwMaxz _ => true
  | .accwAnd _ => true
  | .accwOr _ => true
  | .accwXor _ => true
  | .accwSwap _ => true
  | .accwCas o => even o.b
  | .accwFaddq _ => true
  | .ald _ => true
  | .qnotify _ => true
  | .qfence o => o.mask != 0
  | .fpostr _ => true
  | .fenceRel _ => true
  | .fenceAcq _ => true
  | .fenceFull _ => true
  | .fenceFullq _ => true
  | .xlat _ => true
  | .hrel _ => true
  | .hinfo _ => true
  | .hinfoVa _ => true
  | .pcommit _ => true
  | .pdecommit _ => true
  | .qalloc _ => true
  | .qfree _ => true
  | .btset _ => true
  | .btget _ => true
  | .btapp _ => true
  | .launch _ => true
  | .shapeFinal _ => true
  | .shapeFloor _ => true
  | .graph _ => true
  | .vadd o => o.fmt != 3
  | .vsub o => o.fmt != 3
  | .vmul o => o.fmt != 3
  | .vfma o => o.fmt != 3
  | .vfms o => o.fmt != 3
  | .vfnma o => o.fmt != 3
  | .vmin o => o.fmt != 3
  | .vmax o => o.fmt != 3
  | .vabs o => o.fmt != 3
  | .vneg o => o.fmt != 3
  | .vdiv o => o.fmt != 3
  | .vsqrt o => o.fmt != 3
  | .vrcp o => o.fmt != 3
  | .vrsq o => o.fmt != 3
  | .vexp2 o => o.fmt != 3
  | .vlog2 o => o.fmt != 3
  | .vtanh o => o.fmt != 3
  | .vscl o => o.fmt != 3
  | .viadd o => o.w != 3
  | .visub o => o.w != 3
  | .vimul o => o.w != 3
  | .vimad o => o.w != 3
  | .vshl o => o.w != 3
  | .vshr o => o.w != 3
  | .vsar o => o.w != 3
  | .vand _ => true
  | .vor _ => true
  | .vxor _ => true
  | .vandn _ => true
  | .vimin o => o.w != 3
  | .vimax o => o.w != 3
  | .vdot4 _ => true
  | .viabs o => o.w != 3
  | .vcmp o => o.fw != 3
  | .vselk _ => true
  | .kand _ => true
  | .kor _ => true
  | .kxor _ => true
  | .kandn _ => true
  | .knot _ => true
  | .kmov _ => true
  | .kmovV2k _ => true
  | .kmovK2v _ => true
  | .vcvt o => wfCv o
  | .vpermb o => o.half != 3
  | .vperml _ => true
  | .vpermlTwo _ => true
  | .vredFsum o => o.fw != 3
  | .vredFmax o => o.fw != 3
  | .vredFmin o => o.fw != 3
  | .vredIsum o => o.fw != 3
  | .vredImax o => o.fw != 3
  | .vredImin o => o.fw != 3
  | .vredImaxz o => o.fw != 3
  | .vredIminz o => o.fw != 3
  | .vmov _ => true
  | .vbcast o => wfBc o.w o.tag
  | .vimm o => o.w != 3
  | .vtag o => wfTag o.tag
  | .rfmode o => 1 <= o.n && o.n <= 4
  | .mma o => wfMma o
  | .mzero _ => true
  | .mld o => o.img != 3
  | .mstBed o => o.img != 3 && (!o.sat || o.img != 0)
  | .mstSignal o => o.img != 3 && (!o.sat || o.img != 0)
  | .mrow _ => true
  | .mrowW _ => true
  | .mscl _ => true
  | .mgrp _ => true
  | .sqld _ => true
  | .sqgo _ => true
  | .sqst o => o.item != 7 && o.item < 14
  | .sqabt _ => true
  | .attn o => !o.d128 || o.acc.toNat % 2 == 0
  | .tapset _ => true
  | .tapsetx _ => true
  | .taprd _ => true
  | .tapwr _ => true
  | .siginf o => o.item <= 4
  | .slotsSel _ => true
  | .slotsClr _ => true
  | .slotsOne _ => true
  | .sigrst _ => true
  | .tick => true
  | .fwait _ => true
  | .fpost _ => true
  | .waitn _ => true
  | .phreg o => o.mode != 3
  | .pharr _ => true
  | .phwait _ => true
  | .phdrop _ => true
  | .restartMark _ => true
  | .resultLanding _ => true
  | .resultArrival _ _ => true
  | .clusterWakeDone _ _ => true
  | .freezeCycle _ => true
  | .ballastCycle _ => true
  | .rollbackFault _ _ => true
  | .trapEntry _ _ => true
  | .tileEntryComplete _ => true
  | .tileFaultReport _ => true
  | .commandComplete _ _ => true
  | .ingressSampleDelivery _ _ => true
  | .egressSampleDrain _ _ => true
  | .mirrorSampleArrival _ _ => true
  | .unitEnd _ => true
  | .taskSuspend _ => true
  | .flagPostArrival _ _ _ => true
  | .taskPick _ => true
  | .preempt _ => true
  | .resume _ _ => true
  | .launchAccept => true
  | .launchStart => true
  | .blockDeal _ => true
  | .unitStart _ _ _ _ => true
  | .launchComplete _ => true
  | .shapePost => true
  | .blockCommit _ _ => true
  | .graphVisit _ => true
  | .translationWalkDone _ _ => true
  | .pageMigration _ _ _ => true
  | .blockDrainDone _ _ _ => true
  | .sqTail _ _ _ => true
  | .submissionRecord _ _ => true
  | .cqHead _ _ _ => true
  | .fqHead _ _ => true
  | .faultReplyResume _ _ => true
  | .faultReplyEnd _ _ => true
  | .sqConf _ _ => true
  | .cqConf _ _ => true
  | .fqConf _ _ => true
  | .qReset _ _ => true
  | .ctxCreate _ _ => true
  | .ctxDestroy _ _ => true
  | .invalidate _ _ => true
  | .predClear _ _ => true
  | .hostMemoryAccess _ _ _ _ _ => true
  | .coldReset _ => true
  | .getVersion _ => true
  | .getCapabilities _ => true
  | .negotiateAlgorithms _ => true
  | .getDigests _ => true
  | .getCertificate _ => true
  | .challenge _ => true
  | .getMeasurements _ => true
  | .keyExchange _ => true
  | .finish _ => true
  | .endSession _ => true
  | .tdispLeaveRun _ _ => true
  | .linkAuthFail _ => true
  | .linkPathLost _ => true
  | .collectiveSubmit _ _ _ => true
  | .collectiveComplete _ _ => true
  | .loweringNotice _ _ _ => true
  | .loweringNoticeDue => true
  | .raiseJoinLeave _ _ _ => true
  | .epochBoundary => true
  | .heartbeat _ => true
  | .memberSilent _ => true
  | .leaderTimeout => true
  | .memberIsolated => true
  | .emergencyLimit _ => true
  | .urgentNotice _ _ => true
  | .dieFence _ => true
  | .hubDieFatal _ => true
  | .vfReset _ => true
  | .memberWithdrawn _ => true
  | .powerRingPeriod _ _ => true
  | .overcapBallastLimit _ => true
  | .pkgCapWrite _ => true
  | .diePwrWrite _ _ => true
  | .vtrimWrite _ _ => true
  | .voltageLow _ _ _ => true
  | .wdogCtlWrite _ _ => true
  | .watchdogExpiry _ => true
  | .errorDetected _ _ _ _ _ => true
  | .linkCrcError _ => true
  | .errStatClear _ => true
  | .errInjWrite _ _ => true
  | .clReqRun _ => true
  | .clReqQuiesced _ => true
  | .clReqSaved _ => true
  | .clReqGated _ => true
  | .clStateReached _ => true
  | .clWake _ => true
  | .clStart _ _ => true
  | .linkBringUp _ _ => true
  | .tdispLock _ => true
  | .tdispEnterRun _ => true
  | .antiRollbackRaise _ _ => true
  | .groupBinding _ _ _ _ _ _ => true
  | .curLimitBaseSet _ _ => true

/-- The well-formed terms, as a proposition. -/
abbrev Instr.WellFormed (i : Instr) : Prop := i.wellFormed = true

end Sys2Proof
end

