-- ==== Sys2Proof/Decode.lean ====
section
/-! DEFINITION. The encoding of a bundle (R68 to R85): decoding is total on 256 bits and refuses by name; the encoder after it
writes the words of a well-formed instruction from the same tables. -/

namespace Sys2Proof

open Sys2Proof.Machine (field bitAt boolW)

/-- Why a slot's bits name no instruction: the three encoding faults of R79 and R86. -/
inductive BadSlot where
  | illegalSlot
  | illegalOp
  | illegalOperand
  deriving DecidableEq, Repr

/-- What a slot's bits decode to. -/
inductive SlotDec where
  | nop
  | ok (i : Instr)
  | bad (b : BadSlot)
  deriving DecidableEq, Repr

/-- The instruction, where a field that must be zero, or keep to a range, does; ILLEGAL_OPERAND otherwise (R71, R78). -/
def need (c : Bool) (i : Instr) : SlotDec := if c then .ok i else .bad .illegalOperand

/-- A reserved OP, or an FN code beyond those listed (R79). -/
def noOp : SlotDec := .bad .illegalOp

/-- A 7-bit source field names a register or a port; bits [5:3] of a port must be zero (R71). -/
def srcOf (f : BitVec 7) : Src := if bitAt f 6 then .tap (field f 0 3) else .reg (field f 0 6)

/-- Whether a 7-bit source field keeps to R71. -/
def srcOk (f : BitVec 7) : Bool := !(bitAt f 6) || field f 3 3 == 0

/-- OP 01: three-register integer arithmetic (R92). -/
def decAlu (fn : BitVec 8) (o : SR) : SlotDec :=
  match fn.toNat with
  | 0 => .ok (.iadd o)
  | 1 => .ok (.isub o)
  | 2 => .ok (.andR o)
  | 3 => .ok (.orR o)
  | 4 => .ok (.xor o)
  | 5 => .ok (.andn o)
  | 6 => .ok (.orn o)
  | 7 => .ok (.shl o)
  | 8 => .ok (.shr o)
  | 9 => .ok (.sar o)
  | 10 => .ok (.ror o)
  | 11 => .ok (.imin o)
  | 12 => .ok (.imax o)
  | 13 => .ok (.iminz o)
  | 14 => .ok (.imaxz o)
  | _ => noOp

/-- OP 02: multiply and divide (R94). -/
def decMul (fn : BitVec 8) (o : SR) : SlotDec :=
  match fn.toNat with
  | 0 => .ok (.imul o)
  | 1 => .ok (.imulh o)
  | 2 => .ok (.imulhz o)
  | 3 => .ok (.idiv o)
  | 4 => .ok (.idivz o)
  | 5 => .ok (.irem o)
  | 6 => .ok (.iremz o)
  | _ => noOp

/-- OP 03: unary integer results, B zero (R95). -/
def decUnary (fn : BitVec 8) (bz : Bool) (o : SU) : SlotDec :=
  match fn.toNat with
  | 0 => need bz (.clz o)
  | 1 => need bz (.ctz o)
  | 2 => need bz (.popc o)
  | 3 => need bz (.brev o)
  | 4 => need bz (.bswap o)
  | 5 => need bz (.iabs o)
  | 6 => need bz (.ineg o)
  | _ => noOp

/-- OP 04: bit fields; pos + w at most 64 (R96). -/
def decBits (k : BitVec 2) (o : SBits) : SlotDec :=
  match k.toNat with
  | 0 => need (wfBits o) (.exts o)
  | 1 => need (wfBits o) (.extz o)
  | 2 => need (wfBits o) (.dep o)
  | _ => noOp

/-- OP 28: predicate logic; the fields below 16 (R105). -/
def decPlog (fn : BitVec 8) (qp : PredNo) (d a b : RegNo) : SlotDec :=
  let small := field d 4 2 == 0 && field a 4 2 == 0 && field b 4 2 == 0
  let o : SP := ⟨qp, field d 0 4, field a 0 4, field b 0 4⟩
  match fn.toNat with
  | 0 => need small (.pand o)
  | 1 => need small (.por o)
  | 2 => need small (.pxor o)
  | 3 => need small (.pandn o)
  | 4 => need (small && b == 0) (.pnot ⟨qp, field d 0 4, field a 0 4⟩)
  | _ => noOp

/-- OP 2C: scalar floating point; rounding codes below 4 (R80, R107). -/
def decFp (fn : BitVec 8) (bz : Bool) (o : SFp) : SlotDec :=
  let r := !(bitAt fn 6)
  match (field fn 0 4).toNat with
  | 0 => need r (.fadd o)
  | 1 => need r (.fsub o)
  | 2 => need r (.fmul o)
  | 3 => need r (.fdiv o)
  | 4 => need (r && bz) (.fsqrt ⟨o.qp, o.d, o.a, o.rnd, o.f64⟩)
  | 5 => need r (.fmin o)
  | 6 => need r (.fmax o)
  | _ => noOp

/-- OP 3F: the instructions that end or suspend a unit (R119). -/
def decEnd (fn : BitVec 8) (qp : PredNo) (dbz : Bool) (a : RegNo) : SlotDec :=
  match fn.toNat with
  | 0 => need (dbz && a == 0) (.sync ⟨qp⟩)
  | 1 => need (dbz && a == 0) (.retf ⟨qp⟩)
  | 2 => need (dbz && a == 0) (.tend ⟨qp⟩)
  | 3 => need (dbz && a == 0) (.yield ⟨qp⟩)
  | 4 => need dbz (.waitc ⟨qp, a⟩)
  | _ => noOp

/-- The opcodes of the S0-only table (R79). -/
def decS0Only (op : Nat) (qp : PredNo) (d a : RegNo) (imm : BitVec 14) (w : BitVec 36) : SlotDec :=
  match op with
  | 0x30 => need (a == 0 && mfsSel imm) (.mfs ⟨qp, d, imm⟩)
  | 0x31 => need (d == 0 && mtsSel imm) (.mts ⟨qp, a, imm⟩)
  | 0x32 => need (d == 0) (.trap ⟨qp, field w 0 20⟩)
  | 0x33 => need (field w 0 26 == 0) (.rft ⟨qp⟩)
  | 0x34 => need (field w 0 26 == 0) (.halt ⟨qp⟩)
  | _ => noOp

/-- The opcodes of the S1-only table (R79). -/
def decS1Only (op : Nat) (qp : PredNo) (d a b : RegNo) (fn : BitVec 8) (imm : BitVec 14) (w : BitVec 36) : SlotDec :=
  match op with
  | 0x38 => .ok (.br ⟨qp, field w 0 26⟩)
  | 0x39 => need (b == 0 && fn == 0) (.brx ⟨qp, d, a⟩)
  | 0x3A => .ok (.call ⟨qp, field w 0 26⟩)
  | 0x3B => need (d == 0 && b == 0 && fn == 0) (.ret ⟨qp, a⟩)
  | 0x3C => need (d == 0 || d != a) (.chk ⟨qp, d, a, imm⟩)
  | 0x3D => .ok (.chkv ⟨qp, d, a, imm⟩)
  | 0x3E => need (d == 0 && fn == 0) (.fork ⟨qp, a, b⟩)
  | 0x3F => decEnd fn qp (d == 0 && b == 0) a
  | _ => noOp

/-- An S slot's 36 bits (R72, R79); s1 tells slot S1. An opcode of the other slot's own table is ILLEGAL_SLOT. -/
def decodeS (s1 : Bool) (w : BitVec 36) : SlotDec :=
  if w = 0 then .nop else
  let op := (field w 30 6).toNat
  let qp : PredNo := field w 26 4
  let d : RegNo := field w 20 6
  let a : RegNo := field w 14 6
  let b : RegNo := field w 8 6
  let fn := field w 0 8
  let imm := field w 0 14
  let sh : SShI := ⟨qp, d, a, field w 0 6⟩
  let shz := field w 6 8 == 0
  let sc : SC := ⟨qp, field w 22 4, field w 18 4, field w 15 3, field w 12 3, field w 6 6, field w 0 6⟩
  if op ≥ 0x38 then (if s1 then decS1Only op qp d a b fn imm w else .bad .illegalSlot)
  else if op ≥ 0x30 then
    (if s1 && op ≤ 0x34 then .bad .illegalSlot else decS0Only op qp d a imm w)
  else
  match op with
  | 0 => .bad .illegalOperand
  | 0x01 => decAlu fn ⟨qp, d, a, b⟩
  | 0x02 => decMul fn ⟨qp, d, a, b⟩
  | 0x03 => decUnary fn (b == 0) ⟨qp, d, a⟩
  | 0x04 => decBits (field w 6 2) ⟨qp, d, a, b, field w 0 6⟩
  | 0x05 => need (field w 2 6 == 0) (.lea ⟨qp, d, a, b, field w 0 2⟩)
  | 0x06 => need (field w 4 4 == 0) (.sel ⟨qp, d, a, b, field w 0 4⟩)
  | 0x07 =>
    let o : SElem := ⟨qp, d, a, b, field w 1 2⟩
    need (field w 3 5 == 0) (if bitAt w 0 then .vins o else .vextr o)
  | 0x10 => .ok (.iaddi ⟨qp, d, a, imm⟩)
  | 0x11 => .ok (.andi ⟨qp, d, a, imm⟩)
  | 0x12 => .ok (.ori ⟨qp, d, a, imm⟩)
  | 0x13 => .ok (.xori ⟨qp, d, a, imm⟩)
  | 0x14 => need shz (.shli sh)
  | 0x15 => need shz (.shri sh)
  | 0x16 => need shz (.sari sh)
  | 0x17 => need shz (.rori sh)
  | 0x18 => .ok (.movi ⟨qp, d, field w 0 20⟩)
  | 0x19 => need (field w 18 2 == 0) (.movk ⟨qp, d, field w 0 16, field w 16 2⟩)
  | 0x1A => .ok (.imuli ⟨qp, d, a, imm⟩)
  | 0x20 => need (wfSC sc) (.icmp sc)
  | 0x21 => need (wfSC sc) (.icmpi sc)
  | 0x22 => need (wfSC sc) (.fcmp sc)
  | 0x28 => decPlog fn qp d a b
  | 0x29 =>
    match fn.toNat with
    | 0 => need (a == 0 && b == 0) (.pget ⟨qp, d⟩)
    | 1 => need (d == 0 && b == 0) (.pset ⟨qp, a⟩)
    | _ => noOp
  | 0x2C => decFp fn (b == 0) ⟨qp, d, a, b, field w 4 2, bitAt w 7⟩
  | 0x2D => need (field w 0 4 == 0 && !(bitAt w 6)) (.ffma ⟨qp, d, a, b, field w 4 2, bitAt w 7⟩)
  | 0x2E =>
    let o : SCvt := ⟨qp, d, a, field w 4 2, field w 2 2, field w 0 2, bitAt w 7⟩
    if cvtKinds o then need (b == 0 && !(bitAt w 6) && wfCvt o) (.fcvt o) else noOp
  | _ => noOp

/-- OP 22: the accumulating writes (R237, R238). -/
def decAccw (fn : BitVec 6) (qp : PredNo) (qu : BitVec 2) (d a b : RegNo) : SlotDec :=
  let w64 := bitAt fn 4
  let z := !(bitAt fn 5)
  let o : MAcc := ⟨qp, qu, d, a, w64⟩
  match (field fn 0 4).toNat with
  | 0 => need (z && b == 0) (.accwAdd o)
  | 1 => need (z && b == 0) (.accwMin o)
  | 2 => need (z && b == 0) (.accwMax o)
  | 3 => need (z && b == 0) (.accwMinz o)
  | 4 => need (z && b == 0) (.accwMaxz o)
  | 5 => need (z && b == 0) (.accwAnd o)
  | 6 => need (z && b == 0) (.accwOr o)
  | 7 => need (z && b == 0) (.accwXor o)
  | 8 => need z (.accwSwap ⟨qp, qu, d, a, b, w64⟩)
  | 9 => need (z && even b) (.accwCas ⟨qp, qu, d, a, b, w64⟩)
  | 10 => need (z && w64 && field b 4 2 == 0) (.accwFaddq ⟨qp, qu, d, a, field b 0 3, bitAt b 3⟩)
  | _ => noOp

/-- The MC rows of the M slot (R75, R81); QU is zero outside the engine commands. -/
def decMC (op : Nat) (w : BitVec 40) : SlotDec :=
  let qp : PredNo := field w 30 4
  let qu := field w 28 2
  let d : RegNo := field w 22 6
  let a : RegNo := field w 16 6
  let b : RegNo := field w 10 6
  let fn := field w 4 6
  let low := field w 0 4 == 0
  let z := low && qu == 0
  let e : MCQ := ⟨qp, qu, d, a, b⟩
  let hd := field d 4 2 == 0
  match op with
  | 0x20 =>
    let r := low && field fn 2 4 == 0
    match (field fn 0 2).toNat with
    | 0 => need r (.copy e)
    | 1 => need r (.copyIn e)
    | 2 => need r (.copyOut e)
    | _ => noOp
  | 0x21 => need (low && fn == 0 && even b) (.copy2d e)
  | 0x22 => match decAccw fn qp qu d a b with
    | .ok i => need low i
    | r => r
  | 0x23 => need (low && fn == 0) (.ald e)
  | 0x24 => need (low && d == 0 && b == 0 && fn == 0) (.qnotify ⟨qp, qu, a⟩)
  | 0x25 => need (z && d == 0 && a == 0 && b == 0 && field fn 4 2 == 0 && field fn 0 4 != 0) (.qfence ⟨qp, field fn 0 4⟩)
  | 0x26 => need (z && d == 0 && field fn 4 2 == 0) (.fpostr ⟨qp, a, b, field fn 0 4⟩)
  | 0x30 =>
    let o : MFence := ⟨qp, field fn 0 4⟩
    need (z && d == 0 && a == 0 && b == 0)
      (match (field fn 4 2).toNat with
       | 0 => .fenceRel o
       | 1 => .fenceAcq o
       | 2 => .fenceFull o
       | _ => .fenceFullq o)
  | 0x34 => need (z && hd && b == 0 && fn == 0) (.xlat ⟨qp, field d 0 4, a⟩)
  | 0x35 => need (z && hd && a == 0 && b == 0 && fn == 0) (.hrel ⟨qp, field d 0 4⟩)
  | 0x36 =>
    let o : MHinfo := ⟨qp, d, field a 0 4⟩
    need (z && field a 4 2 == 0 && b == 0 && field fn 1 5 == 0) (if bitAt fn 0 then .hinfoVa o else .hinfo o)
  | 0x37 =>
    if bitAt fn 0 then need (z && b == 0 && field fn 1 5 == 0) (.pdecommit ⟨qp, d, a⟩)
    else need (z && field fn 1 5 == 0) (.pcommit ⟨qp, d, a, b⟩)
  | 0x38 => need (z && b == 0 && field fn 1 5 == 0) (.qalloc ⟨qp, d, a, bitAt fn 0⟩)
  | 0x39 => need (z && b == 0 && fn == 0) (.qfree ⟨qp, d, a⟩)
  | 0x3A =>
    if bitAt fn 0 then need (z && b == 0 && field fn 1 5 == 0) (.btget ⟨qp, d, a⟩)
    else need (z && field fn 1 5 == 0) (.btset ⟨qp, d, a, b⟩)
  | 0x3B => need (z && b == 0 && field fn 1 5 == 0) (.btapp ⟨qp, d, a, bitAt fn 0⟩)
  | 0x3C => need (z && fn == 0) (.launch ⟨qp, d, a, b⟩)
  | 0x3D =>
    let o : MAB := ⟨qp, a, b⟩
    need (z && d == 0 && field fn 1 5 == 0) (if bitAt fn 0 then .shapeFloor o else .shapeFinal o)
  | 0x3E => need (z && fn == 0) (.graph ⟨qp, d, a, b⟩)
  | _ => noOp

/-- The M slot's 40 bits (R75, R81). -/
def decodeM (w : BitVec 40) : SlotDec :=
  if w = 0 then .nop else
  let op := (field w 34 6).toNat
  let qp : PredNo := field w 30 4
  let rg : RegNo := field w 24 6
  let base : RegNo := field w 18 6
  let off := field w 0 18
  let ml : ML := ⟨qp, rg, base, off⟩
  let tag : Tag := field w 14 4
  let off14 := field w 0 14
  let h := field w 20 4
  let xi : RegNo := field w 14 6
  let mg : MG := ⟨qp, rg, h, xi, off14⟩
  match op with
  | 0 => .bad .illegalOperand
  | 0x01 => .ok (.ldb ml)
  | 0x02 => .ok (.ldbz ml)
  | 0x03 => .ok (.ldh ml)
  | 0x04 => .ok (.ldhz ml)
  | 0x05 => .ok (.ldw ml)
  | 0x06 => .ok (.ldwz ml)
  | 0x07 => .ok (.ldd ml)
  | 0x08 => .ok (.stb ml)
  | 0x09 => .ok (.sth ml)
  | 0x0a => .ok (.stw ml)
  | 0x0b => .ok (.std ml)
  | 0x0C => need (wfTag tag) (.vld ⟨qp, rg, base, tag, off14⟩)
  | 0x0D => need (tag == 0) (.vst ⟨qp, rg, base, off14⟩)
  | 0x0E =>
    need (wfTag tag && field w 6 2 != 3 && field w 0 2 == 0 && base != 2)
      (.vgath ⟨qp, rg, base, tag, field w 8 6, field w 6 2, bitAt w 5, field w 2 3⟩)
  | 0x0F =>
    need (tag == 0 && field w 6 2 != 3 && !(bitAt w 5) && field w 0 2 == 0 && base != 2)
      (.vscat ⟨qp, rg, base, field w 8 6, field w 6 2, field w 2 3⟩)
  | 0x10 => .ok (.gldb mg)
  | 0x11 => .ok (.gldh mg)
  | 0x12 => .ok (.gldw mg)
  | 0x13 => .ok (.gldd mg)
  | 0x14 => .ok (.gstb mg)
  | 0x15 => .ok (.gsth mg)
  | 0x16 => .ok (.gstw mg)
  | 0x17 => .ok (.gstd mg)
  | 0x18 => need (wfTag (field w 10 4)) (.gvld ⟨qp, rg, h, xi, field w 10 4, field w 0 10⟩)
  | 0x19 => need (field w 10 4 == 0) (.gvst ⟨qp, rg, h, xi, field w 0 10⟩)
  | 0x1A => .ok (.gldsW mg)
  | 0x1B => .ok (.gldsD mg)
  | 0x1C => .ok (.rld ml)
  | 0x1D => .ok (.rst ml)
  | 0x1E => need (wfTag tag) (.rvld ⟨qp, rg, base, tag, off14⟩)
  | 0x1F => need (tag == 0) (.rvst ⟨qp, rg, base, off14⟩)
  | 0x31 => need (field rg 1 5 == 0) (.pref ⟨qp, bitAt rg 0, h, xi, off14⟩)
  | op => decMC op w

/-- OP 01 to 12: vector floating point (R82, R129). -/
def decVF (op : Nat) (w : BitVec 40) : SlotDec :=
  let qp : PredNo := field w 30 4
  let km := field w 27 3
  let d : RegNo := field w 21 6
  let fa := field w 14 7
  let fb := field w 7 7
  let a := srcOf fa
  let fmt := field w 0 2
  let rnd := field w 3 2
  let sat := bitAt w 5
  let base := srcOk fa && !(bitAt w 2) && fmt != 3 && !(bitAt w 6)
  let two := base && srcOk fb
  let one := base && fb == 0
  let nr := rnd == 0
  let ns := !sat
  let o : VF := ⟨qp, km, d, a, srcOf fb, fmt, rnd, sat⟩
  let mm : VFmm := ⟨qp, km, d, a, srcOf fb, fmt⟩
  let u : VF1 := ⟨qp, km, d, a, fmt⟩
  let t : VFs := ⟨qp, km, d, a, fmt, sat⟩
  match op with
  | 0x01 => need two (.vadd o)
  | 0x02 => need two (.vsub o)
  | 0x03 => need two (.vmul o)
  | 0x04 => need two (.vfma o)
  | 0x05 => need two (.vfms o)
  | 0x06 => need two (.vfnma o)
  | 0x07 => need (two && nr && ns) (.vmin mm)
  | 0x08 => need (two && nr && ns) (.vmax mm)
  | 0x09 => need (one && nr && ns) (.vabs u)
  | 0x0A => need (one && nr && ns) (.vneg u)
  | 0x0B => need two (.vdiv o)
  | 0x0C => need one (.vsqrt ⟨qp, km, d, a, fmt, rnd, sat⟩)
  | 0x0D => need (one && nr) (.vrcp t)
  | 0x0E => need (one && nr) (.vrsq t)
  | 0x0F => need (one && nr) (.vexp2 t)
  | 0x10 => need (one && nr) (.vlog2 t)
  | 0x11 => need (one && nr) (.vtanh t)
  | 0x12 => need two (.vscl o)
  | _ => noOp

/-- OP 20 to 2E: vector integer (R82, R133 to R135). -/
def decVI (op : Nat) (w : BitVec 40) : SlotDec :=
  let qp : PredNo := field w 30 4
  let km := field w 27 3
  let d : RegNo := field w 21 6
  let fa := field w 14 7
  let fb := field w 7 7
  let a := srcOf fa
  let b := srcOf fb
  let wd := field w 0 2
  let sgn := bitAt w 2
  let sat := bitAt w 3
  let base := srcOk fa && wd != 3 && field w 4 3 == 0
  let two := base && srcOk fb
  let plain := two && !sgn && !sat
  let o : VI := ⟨qp, km, d, a, b, wd, sgn, sat⟩
  let u : VIw := ⟨qp, km, d, a, b, wd⟩
  let l : V2 := ⟨qp, km, d, a, b⟩
  match op with
  | 0x20 => need two (.viadd o)
  | 0x21 => need two (.visub o)
  | 0x22 => need two (.vimul o)
  | 0x23 => need two (.vimad o)
  | 0x24 => need two (.vshl o)
  | 0x25 => need plain (.vshr u)
  | 0x26 => need plain (.vsar u)
  | 0x27 => need (plain && wd == 2) (.vand l)
  | 0x28 => need (plain && wd == 2) (.vor l)
  | 0x29 => need (plain && wd == 2) (.vxor l)
  | 0x2A => need (plain && wd == 2) (.vandn l)
  | 0x2B => need (two && !sat) (.vimin ⟨qp, km, d, a, b, wd, sgn⟩)
  | 0x2C => need (two && !sat) (.vimax ⟨qp, km, d, a, b, wd, sgn⟩)
  | 0x2D => need (two && wd == 0) (.vdot4 ⟨qp, km, d, a, b, sgn, sat⟩)
  | 0x2E => need (base && fb == 0 && sgn) (.viabs ⟨qp, km, d, a, wd, sat⟩)
  | _ => noOp

/-- OP 32, 33: mask logic and moves (R138, R139). -/
def decK (op : Nat) (w : BitVec 40) : SlotDec :=
  let qp : PredNo := field w 30 4
  let kz := field w 27 3 == 0
  let d : RegNo := field w 21 6
  let fa := field w 14 7
  let fb := field w 7 7
  let fn := field w 0 7
  let kd := field d 3 3 == 0
  let ka := field fa 3 4 == 0
  let kb := field fb 3 4 == 0
  let o : KL := ⟨qp, field d 0 3, field fa 0 3, field fb 0 3⟩
  let u : KL1 := ⟨qp, field d 0 3, field fa 0 3⟩
  if op = 0x32 then
    let r := kz && kd && ka && kb && field fn 3 4 == 0
    match (field fn 0 3).toNat with
    | 0 => need r (.kand o)
    | 1 => need r (.kor o)
    | 2 => need r (.kxor o)
    | 3 => need r (.kandn o)
    | 4 => need (r && fb == 0) (.knot u)
    | _ => noOp
  else
    let r := kz && fb == 0 && field fn 2 5 == 0
    match (field fn 0 2).toNat with
    | 0 => need (r && kd && ka) (.kmov u)
    | 1 => need (r && kd && srcOk fa) (.kmovV2k ⟨qp, field d 0 3, srcOf fa⟩)
    | 2 => need (r && ka) (.kmovK2v ⟨qp, d, field fa 0 3⟩)
    | _ => noOp

/-- OP 3B: reduction (R145). -/
def decVred (fn : BitVec 7) (ok : Bool) (qp : PredNo) (km : BitVec 3) (d : RegNo) (a : Src) : SlotDec :=
  let fw := field fn 3 2
  let r := ok && fw != 3
  let z := r && field fn 5 2 == 0
  let o : VRd := ⟨qp, km, d, a, fw⟩
  match (field fn 0 3).toNat with
  | 0 => need z (.vredFsum o)
  | 1 => need z (.vredFmax o)
  | 2 => need z (.vredFmin o)
  | 3 => need r (.vredIsum ⟨qp, km, d, a, fw, bitAt fn 5, bitAt fn 6⟩)
  | 4 => need z (.vredImax o)
  | 5 => need z (.vredImin o)
  | 6 => need z (.vredImaxz o)
  | _ => need z (.vredIminz o)

/-- A V slot's 40 bits (R74, R82); v1 tells slot V1, where RFMODE is ILLEGAL_SLOT. -/
def decodeV (v1 : Bool) (w : BitVec 40) : SlotDec :=
  if w = 0 then .nop else
  let op := (field w 34 6).toNat
  let qp : PredNo := field w 30 4
  let km := field w 27 3
  let d : RegNo := field w 21 6
  let fa := field w 14 7
  let fb := field w 7 7
  let fn := field w 0 7
  let a := srcOf fa
  let b := srcOf fb
  let ab := srcOk fa && srcOk fb
  if op = 0 then .bad .illegalOperand
  else if op ≤ 0x1F then decVF op w
  else if op ≤ 0x2F then decVI op w
  else
  match op with
  | 0x30 =>
    need (ab && field d 3 3 == 0 && field fn 0 2 != 3)
      (.vcmp ⟨qp, km, field d 0 3, a, b, bitAt fn 6, field fn 3 3, bitAt fn 2, field fn 0 2⟩)
  | 0x31 => need (ab && field fn 3 4 == 0) (.vselk ⟨qp, km, d, a, b, field fn 0 3⟩)
  | 0x32 => decK op w
  | 0x33 => decK op w
  | 0x38 =>
    let o : VCv := ⟨qp, km, d, a, field fn 0 4, field fn 4 3, field fb 0 3, bitAt fb 3, bitAt fb 4, bitAt fb 5⟩
    need (srcOk fa && !(bitAt fb 6) && wfCv o) (.vcvt o)
  | 0x39 => need (ab && field fn 0 2 != 3 && field fn 2 5 == 0) (.vpermb ⟨qp, km, d, a, b, field fn 0 2⟩)
  | 0x3A => need (ab && field fn 1 6 == 0) (if bitAt fn 0 then .vpermlTwo ⟨qp, km, d, a, b⟩ else .vperml ⟨qp, km, d, a, b⟩)
  | 0x3B => decVred fn (srcOk fa && fb == 0) qp km d a
  | 0x3C =>
    if bitAt fn 0 then
      need (!(bitAt fa 6) && fb == 0 && wfBc (field fn 1 2) (field fn 3 4))
        (.vbcast ⟨qp, km, d, field fa 0 6, field fn 1 2, field fn 3 4⟩)
    else need (srcOk fa && fb == 0 && field fn 1 6 == 0) (.vmov ⟨qp, km, d, a⟩)
  | 0x3D => need (field fa 2 5 == 0 && field fa 0 2 != 3) (.vimm ⟨qp, km, d, field fa 0 2, field w 0 14⟩)
  | 0x3E =>
    if v1 then .bad .illegalSlot
    else need (km == 0 && d == 0 && fa == 0 && field w 3 11 == 0 && 1 ≤ (field w 0 3).toNat && (field w 0 3).toNat ≤ 4)
      (.rfmode ⟨qp, field w 0 3⟩)
  | 0x3F => need (srcOk fa && fb == 0 && km == 0 && field fn 4 3 == 0 && wfTag (field fn 0 4)) (.vtag ⟨qp, d, a, field fn 0 4⟩)
  | _ => noOp

/-- The X slot's 36 bits (R76, R83). OP 20 to 3F the spec neither lists nor marks reserved: the model takes them as reserved (log 70). -/
def decodeX (w : BitVec 36) : SlotDec :=
  if w = 0 then .nop else
  let op := (field w 30 6).toNat
  let qp : PredNo := field w 26 4
  let acc := field w 23 3
  let asel := field w 16 7
  let b : RegNo := field w 10 6
  let fm := field w 0 10
  let sig := field w 15 8
  let lag := field w 0 15
  let d : RegNo := field w 20 6
  let a : RegNo := field w 14 6
  let fr := field w 0 14
  let qd := field d 3 3 == 0
  match op with
  | 0 => .bad .illegalOperand
  | 0x01 =>
    let o : XMma := ⟨qp, acc, srcOf asel, b, bitAt fm 7, bitAt fm 6, bitAt fm 5, bitAt fm 4, bitAt fm 3, field fm 0 3⟩
    need (srcOk asel && field fm 8 2 == 0 && wfMma o) (.mma o)
  | 0x02 => need (asel == 0 && b == 0 && fm == 0) (.mzero ⟨qp, acc⟩)
  | 0x03 => need (asel == 0 && field fm 2 8 == 0 && field fm 0 2 != 3) (.mld ⟨qp, acc, b, field fm 0 2⟩)
  | 0x04 =>
    let img := field fm 0 2
    let sat := bitAt fm 2
    let r := field fm 3 7 == 0 && img != 3 && (!sat || img != 0)
    if bitAt asel 6 then need (r && srcOk asel && b == 0) (.mstSignal ⟨qp, acc, field asel 0 3, img, sat⟩)
    else need (r && asel == 0) (.mstBed ⟨qp, acc, b, img, sat⟩)
  | 0x05 =>
    let z := field fr 12 2 == 0
    if bitAt fr 10 then need (z && d == 0 && !(bitAt fr 11)) (.mrowW ⟨qp, a, field fr 0 3, field fr 3 7⟩)
    else need (z && a == 0) (.mrow ⟨qp, d, field fr 0 3, field fr 3 7, bitAt fr 11⟩)
  | 0x06 => need (srcOk asel && fm == 0) (.mscl ⟨qp, acc, srcOf asel, b⟩)
  | 0x07 => need (d == 0 && fr == 0) (.mgrp ⟨qp, a⟩)
  | 0x10 => need (d == 0 && fr == 0) (.sqld ⟨qp, a⟩)
  | 0x11 => need (field w 0 26 == 0) (.sqgo ⟨qp⟩)
  | 0x12 =>
    let it := field fr 0 4
    need (a == 0 && field fr 4 10 == 0 && it != 7 && it.toNat < 14) (.sqst ⟨qp, d, it⟩)
  | 0x13 =>
    need (srcOk asel && field fm 6 4 == 0 && (!(bitAt fm 2) || acc.toNat % 2 == 0))
      (.attn ⟨qp, acc, srcOf asel, b, bitAt fm 5, bitAt fm 4, bitAt fm 3, bitAt fm 2, field fm 0 2⟩)
  | 0x14 => need (field w 0 26 == 0) (.sqabt ⟨qp⟩)
  | 0x18 => .ok (.tapset ⟨qp, field w 23 3, sig, lag⟩)
  | 0x19 => need (qd && field fr 8 6 == 0) (.tapsetx ⟨qp, field d 0 3, a, field fr 0 8⟩)
  | 0x1A => need (field a 3 3 == 0 && field fr 4 10 == 0) (.taprd ⟨qp, d, field a 0 3, field fr 0 3, bitAt fr 3⟩)
  | 0x1B => need (qd && field fr 4 10 == 0) (.tapwr ⟨qp, field d 0 3, a, field fr 0 3, bitAt fr 3⟩)
  | 0x1C => need (field fr 12 2 == 0 && (field fr 8 4).toNat ≤ 4) (.siginf ⟨qp, d, a, field fr 0 8, field fr 8 4⟩)
  | 0x1D =>
    let o : XSl := ⟨qp, a, field fr 0 8⟩
    let r := d == 0 && field fr 10 4 == 0
    match (field fr 8 2).toNat with
    | 0 => need r (.slotsSel o)
    | 1 => need r (.slotsClr o)
    | 2 => need r (.slotsOne o)
    | _ => noOp
  | 0x1E => need (field w 23 3 == 0 && lag == 0) (.sigrst ⟨qp, sig⟩)
  | _ => noOp

/-- The C slot's 20 bits (R77, R84). -/
def decodeC (w : BitVec 20) : SlotDec :=
  if w = 0 then .nop else
  let arg := field w 0 15
  let f : CF := ⟨field arg 10 5, field arg 0 10⟩
  let ph := field arg 9 6
  let pz := field arg 0 9 == 0
  match (field w 15 5).toNat with
  | 0 => .bad .illegalOperand
  | 1 => need (arg == 0) .tick
  | 2 => .ok (.fwait f)
  | 3 => .ok (.fpost f)
  | 4 => .ok (.waitn ⟨field arg 11 4, field arg 7 4, field arg 3 4, field arg 0 3⟩)
  | 5 => need pz (.pharr ⟨ph⟩)
  | 6 => need pz (.phwait ⟨ph⟩)
  | 7 => need (field arg 0 7 == 0 && field arg 7 2 != 3) (.phreg ⟨ph, field arg 7 2⟩)
  | 8 => need pz (.phdrop ⟨ph⟩)
  | _ => noOp

/-- A decoded bundle: the header and the seven slots (R68, R69). -/
structure Bundle where
  rm : Bool
  psel : BitVec 3
  /-- H[7:4] is zero (R69). -/
  hdrOk : Bool
  /-- S0, and S1, hold a branch-class operation; C holds TICK, X SIGRST: by the operation's codes alone (R85). -/
  br0 : Bool
  br1 : Bool
  tickC : Bool
  sigrstX : Bool
  c : SlotDec
  s0 : SlotDec
  s1 : SlotDec
  m : SlotDec
  v0 : SlotDec
  v1 : SlotDec
  x : SlotDec
  deriving DecidableEq, Repr

/-- Whether the codes of an S0 slot's 36 bits name a branch-class operation: TRAP, RFT, HALT (R23, R80). -/
def brCode0 (w : BitVec 36) : Bool := let op := (field w 30 6).toNat; 0x32 ≤ op && op ≤ 0x34

/-- Whether the codes of an S1 slot's 36 bits name one: BR to FORK, and SYNC to WAITC by FN (R23, R80). -/
def brCode1 (w : BitVec 36) : Bool :=
  let op := (field w 30 6).toNat
  (0x38 ≤ op && op ≤ 0x3E) || (op == 0x3F && (field w 0 8).toNat ≤ 4)

/-- The fields of a bundle's 256 bits (R68). -/
def decodeBundle (w : BundleBits) : Bundle :=
  { rm := bitAt w 0, psel := field w 1 3, hdrOk := field w 4 4 == 0,
    br0 := brCode0 (field w 28 36), br1 := brCode1 (field w 64 36),
    tickC := (field w 23 5).toNat == 1, sigrstX := (field w 250 6).toNat == 0x1E,
    c := decodeC (field w 8 20), s0 := decodeS false (field w 28 36), s1 := decodeS true (field w 64 36),
    m := decodeM (field w 100 40), v0 := decodeV false (field w 140 40), v1 := decodeV true (field w 180 40),
    x := decodeX (field w 220 36) }

/-- The bundle of 32 bytes, lowest address first (R6, R68). -/
def bundleOfBytes (bs : List Byte) : BundleBits := BitVec.ofNat 256 (Sys2Proof.Machine.natOfBytes (bs.take 32))

/-- A bundle's slots from the lowest rank to the highest (R8). -/
def Bundle.slots (b : Bundle) : List SlotDec := [b.c, b.s0, b.s1, b.m, b.v0, b.v1, b.x]

/-- The instructions a bundle holds with the numbers of their slots (R8, R341). -/
def Bundle.instrs (b : Bundle) : List (Nat × Instr) :=
  (b.slots.zipIdx).filterMap (fun e => match e.1 with
    | .ok i => some (e.2, i)
    | _ => none)

/-- The branch class (R23). -/
def Instr.branchClass : Instr → Bool
  | .br _ | .brx _ | .call _ | .ret _ | .chk _ | .chkv _ | .fork _ | .sync _ | .retf _ | .tend _ | .yield _ | .waitc _
  | .trap _ | .rft _ | .halt _ => true
  | _ => false

/-- The region-closing instructions (R32). -/
def Instr.regionClosing : Instr → Bool
  | .tick | .fwait _ | .fpost _ | .pharr _ | .phwait _ | .phreg _ | .phdrop _ | .fpostr _ | .qnotify _ | .qfence _
  | .fenceRel _ | .fenceAcq _ | .fenceFull _ | .fenceFullq _ | .qalloc _ | .qfree _ | .btapp _ | .btset _ | .pcommit _
  | .pdecommit _ | .launch _ | .shapeFinal _ | .shapeFloor _ | .graph _ | .fork _ | .sync _ | .retf _ | .tend _
  | .yield _ | .waitc _ => true
  | _ => false

/-- Whether a slot holds an instruction of a class. -/
def SlotDec.holds (p : Instr → Bool) : SlotDec → Bool
  | .ok i => p i
  | _ => false

/-- ILLEGAL_BUNDLE that the encoding alone decides, before any fault of a slot (R86): the header's high bits, two branches, TICK beside
SIGRST (R69, R85). -/
def Bundle.illegal (b : Bundle) : Bool := !b.hdrOk || (b.br0 && b.br1) || (b.tickC && b.sigrstX)

/-- The lowest-ranked slot whose bits are refused for a reason (R86). -/
def Bundle.badSlot (b : Bundle) (r : BadSlot) : Option Nat := b.slots.findIdx? (· == .bad r)

/-- A bundle that raises no encoding fault. -/
def Bundle.clean (b : Bundle) : Bool :=
  !b.illegal && b.slots.all (fun s => match s with
    | .bad _ => false
    | _ => true)

/-- The instruction read from the bits of a row of the opcode table, laid out as a bundle whose other bits are zero: the
lowest-ranked instruction of the bundle, where the bundle raises no encoding fault. -/
def decodeTableWord (nbits w : Nat) : Option Instr :=
  let b := decodeBundle (BitVec.ofNat 256 (w % 2 ^ nbits))
  if b.clean then (b.instrs.head?).map (·.2) else none

/-! The encoder (R72 to R84). -/

/-- SR, SI, SL, SC and SB words (R72). -/
def wSR (op : BitVec 6) (qp : PredNo) (d a b : RegNo) (fn : BitVec 8) : BitVec 36 := op ++ qp ++ d ++ a ++ b ++ fn
def wSI (op : BitVec 6) (qp : PredNo) (d a : RegNo) (imm : BitVec 14) : BitVec 36 := op ++ qp ++ d ++ a ++ imm
def wSL (op : BitVec 6) (qp : PredNo) (d : RegNo) (imm : BitVec 20) : BitVec 36 := op ++ qp ++ d ++ imm
def wSC (op : BitVec 6) (o : SC) : BitVec 36 := op ++ o.qp ++ o.p1 ++ o.p2 ++ o.ct ++ o.cond ++ o.a ++ o.b
def wSB (op : BitVec 6) (o : SBr) : BitVec 36 := op ++ o.qp ++ o.disp
/-- VR and VI words (R74). -/
def wVR (op : BitVec 6) (qp : PredNo) (km : BitVec 3) (d : RegNo) (a b fn : BitVec 7) : BitVec 40 :=
  op ++ qp ++ km ++ d ++ a ++ b ++ fn
def wVI (op : BitVec 6) (qp : PredNo) (km : BitVec 3) (d : RegNo) (a : BitVec 7) (imm : BitVec 14) : BitVec 40 :=
  op ++ qp ++ km ++ d ++ a ++ imm
/-- ML, MG and MC words (R75). -/
def wML (op : BitVec 6) (o : ML) : BitVec 40 := op ++ o.qp ++ o.rg ++ o.base ++ o.off
def wMG (op : BitVec 6) (qp : PredNo) (rg : RegNo) (h : BitVec 4) (xi : RegNo) (off : BitVec 14) : BitVec 40 :=
  op ++ qp ++ rg ++ h ++ xi ++ off
def wMC (op : BitVec 6) (qp : PredNo) (qu : BitVec 2) (d a b fn : BitVec 6) : BitVec 40 :=
  op ++ qp ++ qu ++ d ++ a ++ b ++ fn ++ 0#4
/-- XM, XS and XR words (R76). -/
def wXM (op : BitVec 6) (qp : PredNo) (acc : BitVec 3) (asel : BitVec 7) (b : RegNo) (fn : BitVec 10) : BitVec 36 :=
  op ++ qp ++ acc ++ asel ++ b ++ fn
def wXS (op : BitVec 6) (qp : PredNo) (q : BitVec 3) (sig : BitVec 8) (lag : BitVec 15) : BitVec 36 :=
  op ++ qp ++ q ++ sig ++ lag
def wXR (op : BitVec 6) (qp : PredNo) (d a : RegNo) (fn : BitVec 14) : BitVec 36 := op ++ qp ++ d ++ a ++ fn
/-- A C word (R77). -/
def wC (op : BitVec 5) (arg : BitVec 15) : BitVec 20 := op ++ arg

/-- One bit. -/
def bit (b : Bool) : BitVec 1 := boolW 1 b

/-- The 7-bit source field (R71). -/
def Src.bits : Src → BitVec 7
  | .reg r => 0#1 ++ r
  | .tap q => 1#1 ++ 0#3 ++ q

/-- The words of one-slot bundles: the slot's bits in their place, every other bit zero (R68). -/
def inC (w : BitVec 20) : BundleBits := w.setWidth 256 <<< 8
def inS0 (w : BitVec 36) : BundleBits := w.setWidth 256 <<< 28
def inS1 (w : BitVec 36) : BundleBits := w.setWidth 256 <<< 64
def inM (w : BitVec 40) : BundleBits := w.setWidth 256 <<< 100
def inV0 (w : BitVec 40) : BundleBits := w.setWidth 256 <<< 140
def inX (w : BitVec 36) : BundleBits := w.setWidth 256 <<< 220

/-- FN of the vector floating-point and integer layouts (R82). -/
def fnVF (fmt rnd : BitVec 2) (sat : Bool) : BitVec 7 := 0#1 ++ bit sat ++ rnd ++ 0#1 ++ fmt
def fnVI (w : BitVec 2) (sgn sat : Bool) : BitVec 7 := 0#3 ++ bit sat ++ bit sgn ++ w
/-- FN of ACCW (R237). -/
def fnAcc (w64 : Bool) (opc : BitVec 4) : BitVec 6 := 0#1 ++ bit w64 ++ opc

/-- The bundle that holds one instruction and no other (an S instruction of both slots stands in S0, a V instruction in V0);
an event has no encoding. -/
def encode : Instr → Option BundleBits
  | .iadd o => some (inS0 (wSR 0x01#6 o.qp o.d o.a o.b 0#8))
  | .isub o => some (inS0 (wSR 0x01#6 o.qp o.d o.a o.b 1#8))
  | .andR o => some (inS0 (wSR 0x01#6 o.qp o.d o.a o.b 2#8))
  | .orR o => some (inS0 (wSR 0x01#6 o.qp o.d o.a o.b 3#8))
  | .xor o => some (inS0 (wSR 0x01#6 o.qp o.d o.a o.b 4#8))
  | .andn o => some (inS0 (wSR 0x01#6 o.qp o.d o.a o.b 5#8))
  | .orn o => some (inS0 (wSR 0x01#6 o.qp o.d o.a o.b 6#8))
  | .shl o => some (inS0 (wSR 0x01#6 o.qp o.d o.a o.b 7#8))
  | .shr o => some (inS0 (wSR 0x01#6 o.qp o.d o.a o.b 8#8))
  | .sar o => some (inS0 (wSR 0x01#6 o.qp o.d o.a o.b 9#8))
  | .ror o => some (inS0 (wSR 0x01#6 o.qp o.d o.a o.b 10#8))
  | .imin o => some (inS0 (wSR 0x01#6 o.qp o.d o.a o.b 11#8))
  | .imax o => some (inS0 (wSR 0x01#6 o.qp o.d o.a o.b 12#8))
  | .iminz o => some (inS0 (wSR 0x01#6 o.qp o.d o.a o.b 13#8))
  | .imaxz o => some (inS0 (wSR 0x01#6 o.qp o.d o.a o.b 14#8))
  | .iaddi o => some (inS0 (wSI 0x10#6 o.qp o.d o.a o.imm))
  | .andi o => some (inS0 (wSI 0x11#6 o.qp o.d o.a o.imm))
  | .ori o => some (inS0 (wSI 0x12#6 o.qp o.d o.a o.imm))
  | .xori o => some (inS0 (wSI 0x13#6 o.qp o.d o.a o.imm))
  | .shli o => some (inS0 (wSI 0x14#6 o.qp o.d o.a (0#8 ++ o.sh)))
  | .shri o => some (inS0 (wSI 0x15#6 o.qp o.d o.a (0#8 ++ o.sh)))
  | .sari o => some (inS0 (wSI 0x16#6 o.qp o.d o.a (0#8 ++ o.sh)))
  | .rori o => some (inS0 (wSI 0x17#6 o.qp o.d o.a (0#8 ++ o.sh)))
  | .imul o => some (inS0 (wSR 0x02#6 o.qp o.d o.a o.b 0#8))
  | .imulh o => some (inS0 (wSR 0x02#6 o.qp o.d o.a o.b 1#8))
  | .imulhz o => some (inS0 (wSR 0x02#6 o.qp o.d o.a o.b 2#8))
  | .idiv o => some (inS0 (wSR 0x02#6 o.qp o.d o.a o.b 3#8))
  | .idivz o => some (inS0 (wSR 0x02#6 o.qp o.d o.a o.b 4#8))
  | .irem o => some (inS0 (wSR 0x02#6 o.qp o.d o.a o.b 5#8))
  | .iremz o => some (inS0 (wSR 0x02#6 o.qp o.d o.a o.b 6#8))
  | .imuli o => some (inS0 (wSI 0x1a#6 o.qp o.d o.a o.imm))
  | .clz o => some (inS0 (wSR 0x03#6 o.qp o.d o.a 0#6 0#8))
  | .ctz o => some (inS0 (wSR 0x03#6 o.qp o.d o.a 0#6 1#8))
  | .popc o => some (inS0 (wSR 0x03#6 o.qp o.d o.a 0#6 2#8))
  | .brev o => some (inS0 (wSR 0x03#6 o.qp o.d o.a 0#6 3#8))
  | .bswap o => some (inS0 (wSR 0x03#6 o.qp o.d o.a 0#6 4#8))
  | .iabs o => some (inS0 (wSR 0x03#6 o.qp o.d o.a 0#6 5#8))
  | .ineg o => some (inS0 (wSR 0x03#6 o.qp o.d o.a 0#6 6#8))
  | .exts o => some (inS0 (wSR 0x04#6 o.qp o.d o.a o.pos (0#2 ++ o.wm1)))
  | .extz o => some (inS0 (wSR 0x04#6 o.qp o.d o.a o.pos (1#2 ++ o.wm1)))
  | .dep o => some (inS0 (wSR 0x04#6 o.qp o.d o.a o.pos (2#2 ++ o.wm1)))
  | .lea o => some (inS0 (wSR 0x05#6 o.qp o.d o.a o.b (0#6 ++ o.sh)))
  | .sel o => some (inS0 (wSR 0x06#6 o.qp o.d o.a o.b (0#4 ++ o.pn)))
  | .movi o => some (inS0 (wSL 0x18#6 o.qp o.d o.imm))
  | .movk o => some (inS0 (wSL 0x19#6 o.qp o.d (0#2 ++ o.h ++ o.imm)))
  | .vextr o => some (inS0 (wSR 0x07#6 o.qp o.d o.a o.b (0#5 ++ o.ew ++ 0#1)))
  | .vins o => some (inS0 (wSR 0x07#6 o.qp o.d o.a o.b (0#5 ++ o.ew ++ 1#1)))
  | .icmp o => some (inS0 (wSC 0x20#6 o))
  | .icmpi o => some (inS0 (wSC 0x21#6 o))
  | .fcmp o => some (inS0 (wSC 0x22#6 o))
  | .pand o => some (inS0 (wSR 0x28#6 o.qp (0#2 ++ o.d) (0#2 ++ o.a) (0#2 ++ o.b) 0#8))
  | .por o => some (inS0 (wSR 0x28#6 o.qp (0#2 ++ o.d) (0#2 ++ o.a) (0#2 ++ o.b) 1#8))
  | .pxor o => some (inS0 (wSR 0x28#6 o.qp (0#2 ++ o.d) (0#2 ++ o.a) (0#2 ++ o.b) 2#8))
  | .pandn o => some (inS0 (wSR 0x28#6 o.qp (0#2 ++ o.d) (0#2 ++ o.a) (0#2 ++ o.b) 3#8))
  | .pnot o => some (inS0 (wSR 0x28#6 o.qp (0#2 ++ o.d) (0#2 ++ o.a) 0#6 4#8))
  | .pget o => some (inS0 (wSR 0x29#6 o.qp o.d 0#6 0#6 0#8))
  | .pset o => some (inS0 (wSR 0x29#6 o.qp 0#6 o.a 0#6 1#8))
  | .fadd o => some (inS0 (wSR 0x2c#6 o.qp o.d o.a o.b (bit o.f64 ++ 0#1 ++ o.rnd ++ 0#4)))
  | .fsub o => some (inS0 (wSR 0x2c#6 o.qp o.d o.a o.b (bit o.f64 ++ 0#1 ++ o.rnd ++ 1#4)))
  | .fmul o => some (inS0 (wSR 0x2c#6 o.qp o.d o.a o.b (bit o.f64 ++ 0#1 ++ o.rnd ++ 2#4)))
  | .fdiv o => some (inS0 (wSR 0x2c#6 o.qp o.d o.a o.b (bit o.f64 ++ 0#1 ++ o.rnd ++ 3#4)))
  | .fmin o => some (inS0 (wSR 0x2c#6 o.qp o.d o.a o.b (bit o.f64 ++ 0#1 ++ o.rnd ++ 5#4)))
  | .fmax o => some (inS0 (wSR 0x2c#6 o.qp o.d o.a o.b (bit o.f64 ++ 0#1 ++ o.rnd ++ 6#4)))
  | .fsqrt o => some (inS0 (wSR 0x2c#6 o.qp o.d o.a 0#6 (bit o.f64 ++ 0#1 ++ o.rnd ++ 4#4)))
  | .ffma o => some (inS0 (wSR 0x2d#6 o.qp o.d o.a o.b (bit o.f64 ++ 0#1 ++ o.rnd ++ 0#4)))
  | .fcvt o => some (inS0 (wSR 0x2e#6 o.qp o.d o.a 0#6 (bit o.uns ++ 0#1 ++ o.rnd ++ o.src ++ o.dst)))
  | .mfs o => some (inS0 (wSI 0x30#6 o.qp o.d 0#6 o.sel))
  | .mts o => some (inS0 (wSI 0x31#6 o.qp 0#6 o.a o.sel))
  | .trap o => some (inS0 (wSL 0x32#6 o.qp 0#6 o.n))
  | .rft o => some (inS0 (wSL 0x33#6 o.qp 0#6 0#20))
  | .halt o => some (inS0 (wSL 0x34#6 o.qp 0#6 0#20))
  | .br o => some (inS1 (wSB 0x38#6 o))
  | .call o => some (inS1 (wSB 0x3a#6 o))
  | .brx o => some (inS1 (wSR 0x39#6 o.qp o.d o.a 0#6 0#8))
  | .ret o => some (inS1 (wSR 0x3b#6 o.qp 0#6 o.a 0#6 0#8))
  | .chk o => some (inS1 (wSI 0x3c#6 o.qp o.d o.a o.imm))
  | .chkv o => some (inS1 (wSI 0x3d#6 o.qp o.d o.a o.imm))
  | .fork o => some (inS1 (wSR 0x3e#6 o.qp 0#6 o.a o.b 0#8))
  | .sync o => some (inS1 (wSR 0x3f#6 o.qp 0#6 0#6 0#6 0#8))
  | .retf o => some (inS1 (wSR 0x3f#6 o.qp 0#6 0#6 0#6 1#8))
  | .tend o => some (inS1 (wSR 0x3f#6 o.qp 0#6 0#6 0#6 2#8))
  | .yield o => some (inS1 (wSR 0x3f#6 o.qp 0#6 0#6 0#6 3#8))
  | .waitc o => some (inS1 (wSR 0x3f#6 o.qp 0#6 o.a 0#6 4#8))
  | .ldb o => some (inM (wML 0x01#6 o))
  | .ldbz o => some (inM (wML 0x02#6 o))
  | .ldh o => some (inM (wML 0x03#6 o))
  | .ldhz o => some (inM (wML 0x04#6 o))
  | .ldw o => some (inM (wML 0x05#6 o))
  | .ldwz o => some (inM (wML 0x06#6 o))
  | .ldd o => some (inM (wML 0x07#6 o))
  | .stb o => some (inM (wML 0x08#6 o))
  | .sth o => some (inM (wML 0x09#6 o))
  | .stw o => some (inM (wML 0x0a#6 o))
  | .std o => some (inM (wML 0x0b#6 o))
  | .vld o => some (inM (wML 0x0c#6 ⟨o.qp, o.rg, o.base, o.tag ++ o.off⟩))
  | .vst o => some (inM (wML 0x0d#6 ⟨o.qp, o.rg, o.base, 0#4 ++ o.off⟩))
  | .vgath o => some (inM (wML 0x0e#6 ⟨o.qp, o.rg, o.base, o.tag ++ o.idx ++ o.w ++ bit o.sx ++ o.km ++ 0#2⟩))
  | .vscat o => some (inM (wML 0x0f#6 ⟨o.qp, o.rg, o.base, 0#4 ++ o.idx ++ o.w ++ 0#1 ++ o.km ++ 0#2⟩))
  | .rld o => some (inM (wML 0x1c#6 o))
  | .rst o => some (inM (wML 0x1d#6 o))
  | .rvld o => some (inM (wML 0x1e#6 ⟨o.qp, o.rg, o.base, o.tag ++ o.off⟩))
  | .rvst o => some (inM (wML 0x1f#6 ⟨o.qp, o.rg, o.base, 0#4 ++ o.off⟩))
  | .gldb o => some (inM (wMG 0x10#6 o.qp o.rg o.h o.xi o.off))
  | .gldh o => some (inM (wMG 0x11#6 o.qp o.rg o.h o.xi o.off))
  | .gldw o => some (inM (wMG 0x12#6 o.qp o.rg o.h o.xi o.off))
  | .gldd o => some (inM (wMG 0x13#6 o.qp o.rg o.h o.xi o.off))
  | .gstb o => some (inM (wMG 0x14#6 o.qp o.rg o.h o.xi o.off))
  | .gsth o => some (inM (wMG 0x15#6 o.qp o.rg o.h o.xi o.off))
  | .gstw o => some (inM (wMG 0x16#6 o.qp o.rg o.h o.xi o.off))
  | .gstd o => some (inM (wMG 0x17#6 o.qp o.rg o.h o.xi o.off))
  | .gvld o => some (inM (wMG 0x18#6 o.qp o.rg o.h o.xi (o.tag ++ o.off)))
  | .gvst o => some (inM (wMG 0x19#6 o.qp o.rg o.h o.xi (0#4 ++ o.off)))
  | .gldsW o => some (inM (wMG 0x1a#6 o.qp o.rg o.h o.xi o.off))
  | .gldsD o => some (inM (wMG 0x1b#6 o.qp o.rg o.h o.xi o.off))
  | .pref o => some (inM (wMG 0x31#6 o.qp (0#5 ++ bit o.home) o.h o.xi o.off))
  | .copy o => some (inM (wMC 0x20#6 o.qp o.qu o.d o.a o.b 0#6))
  | .copyIn o => some (inM (wMC 0x20#6 o.qp o.qu o.d o.a o.b 1#6))
  | .copyOut o => some (inM (wMC 0x20#6 o.qp o.qu o.d o.a o.b 2#6))
  | .copy2d o => some (inM (wMC 0x21#6 o.qp o.qu o.d o.a o.b 0#6))
  | .accwAdd o => some (inM (wMC 0x22#6 o.qp o.qu o.d o.a 0#6 (fnAcc o.w64 0#4)))
  | .accwMin o => some (inM (wMC 0x22#6 o.qp o.qu o.d o.a 0#6 (fnAcc o.w64 1#4)))
  | .accwMax o => some (inM (wMC 0x22#6 o.qp o.qu o.d o.a 0#6 (fnAcc o.w64 2#4)))
  | .accwMinz o => some (inM (wMC 0x22#6 o.qp o.qu o.d o.a 0#6 (fnAcc o.w64 3#4)))
  | .accwMaxz o => some (inM (wMC 0x22#6 o.qp o.qu o.d o.a 0#6 (fnAcc o.w64 4#4)))
  | .accwAnd o => some (inM (wMC 0x22#6 o.qp o.qu o.d o.a 0#6 (fnAcc o.w64 5#4)))
  | .accwOr o => some (inM (wMC 0x22#6 o.qp o.qu o.d o.a 0#6 (fnAcc o.w64 6#4)))
  | .accwXor o => some (inM (wMC 0x22#6 o.qp o.qu o.d o.a 0#6 (fnAcc o.w64 7#4)))
  | .accwSwap o => some (inM (wMC 0x22#6 o.qp o.qu o.d o.a o.b (fnAcc o.w64 8#4)))
  | .accwCas o => some (inM (wMC 0x22#6 o.qp o.qu o.d o.a o.b (fnAcc o.w64 9#4)))
  | .accwFaddq o => some (inM (wMC 0x22#6 o.qp o.qu o.d o.a (0#2 ++ bit o.f32 ++ o.dsc) (fnAcc true 10#4)))
  | .ald o => some (inM (wMC 0x23#6 o.qp o.qu o.d o.a o.b 0#6))
  | .qnotify o => some (inM (wMC 0x24#6 o.qp o.qu 0#6 o.a 0#6 0#6))
  | .qfence o => some (inM (wMC 0x25#6 o.qp 0#2 0#6 0#6 0#6 (0#2 ++ o.mask)))
  | .fpostr o => some (inM (wMC 0x26#6 o.qp 0#2 0#6 o.a o.b (0#2 ++ o.scope)))
  | .fenceRel o => some (inM (wMC 0x30#6 o.qp 0#2 0#6 0#6 0#6 (0#2 ++ o.scope)))
  | .fenceAcq o => some (inM (wMC 0x30#6 o.qp 0#2 0#6 0#6 0#6 (1#2 ++ o.scope)))
  | .fenceFull o => some (inM (wMC 0x30#6 o.qp 0#2 0#6 0#6 0#6 (2#2 ++ o.scope)))
  | .fenceFullq o => some (inM (wMC 0x30#6 o.qp 0#2 0#6 0#6 0#6 (3#2 ++ o.scope)))
  | .xlat o => some (inM (wMC 0x34#6 o.qp 0#2 (0#2 ++ o.d) o.a 0#6 0#6))
  | .hrel o => some (inM (wMC 0x35#6 o.qp 0#2 (0#2 ++ o.d) 0#6 0#6 0#6))
  | .hinfo o => some (inM (wMC 0x36#6 o.qp 0#2 o.d (0#2 ++ o.a) 0#6 0#6))
  | .hinfoVa o => some (inM (wMC 0x36#6 o.qp 0#2 o.d (0#2 ++ o.a) 0#6 1#6))
  | .pcommit o => some (inM (wMC 0x37#6 o.qp 0#2 o.d o.a o.b 0#6))
  | .pdecommit o => some (inM (wMC 0x37#6 o.qp 0#2 o.d o.a 0#6 1#6))
  | .qalloc o => some (inM (wMC 0x38#6 o.qp 0#2 o.d o.a 0#6 (0#5 ++ bit o.z)))
  | .qfree o => some (inM (wMC 0x39#6 o.qp 0#2 o.d o.a 0#6 0#6))
  | .btset o => some (inM (wMC 0x3a#6 o.qp 0#2 o.d o.a o.b 0#6))
  | .btget o => some (inM (wMC 0x3a#6 o.qp 0#2 o.d o.a 0#6 1#6))
  | .btapp o => some (inM (wMC 0x3b#6 o.qp 0#2 o.d o.a 0#6 (0#5 ++ bit o.z)))
  | .launch o => some (inM (wMC 0x3c#6 o.qp 0#2 o.d o.a o.b 0#6))
  | .shapeFinal o => some (inM (wMC 0x3d#6 o.qp 0#2 0#6 o.a o.b 0#6))
  | .shapeFloor o => some (inM (wMC 0x3d#6 o.qp 0#2 0#6 o.a o.b 1#6))
  | .graph o => some (inM (wMC 0x3e#6 o.qp 0#2 o.d o.a o.b 0#6))
  | .vadd o => some (inV0 (wVR 0x01#6 o.qp o.km o.d o.a.bits o.b.bits (fnVF o.fmt o.rnd o.sat)))
  | .vsub o => some (inV0 (wVR 0x02#6 o.qp o.km o.d o.a.bits o.b.bits (fnVF o.fmt o.rnd o.sat)))
  | .vmul o => some (inV0 (wVR 0x03#6 o.qp o.km o.d o.a.bits o.b.bits (fnVF o.fmt o.rnd o.sat)))
  | .vfma o => some (inV0 (wVR 0x04#6 o.qp o.km o.d o.a.bits o.b.bits (fnVF o.fmt o.rnd o.sat)))
  | .vfms o => some (inV0 (wVR 0x05#6 o.qp o.km o.d o.a.bits o.b.bits (fnVF o.fmt o.rnd o.sat)))
  | .vfnma o => some (inV0 (wVR 0x06#6 o.qp o.km o.d o.a.bits o.b.bits (fnVF o.fmt o.rnd o.sat)))
  | .vdiv o => some (inV0 (wVR 0x0b#6 o.qp o.km o.d o.a.bits o.b.bits (fnVF o.fmt o.rnd o.sat)))
  | .vscl o => some (inV0 (wVR 0x12#6 o.qp o.km o.d o.a.bits o.b.bits (fnVF o.fmt o.rnd o.sat)))
  | .vmin o => some (inV0 (wVR 0x07#6 o.qp o.km o.d o.a.bits o.b.bits (fnVF o.fmt 0#2 false)))
  | .vmax o => some (inV0 (wVR 0x08#6 o.qp o.km o.d o.a.bits o.b.bits (fnVF o.fmt 0#2 false)))
  | .vabs o => some (inV0 (wVR 0x09#6 o.qp o.km o.d o.a.bits 0#7 (fnVF o.fmt 0#2 false)))
  | .vneg o => some (inV0 (wVR 0x0a#6 o.qp o.km o.d o.a.bits 0#7 (fnVF o.fmt 0#2 false)))
  | .vsqrt o => some (inV0 (wVR 0x0c#6 o.qp o.km o.d o.a.bits 0#7 (fnVF o.fmt o.rnd o.sat)))
  | .vrcp o => some (inV0 (wVR 0x0d#6 o.qp o.km o.d o.a.bits 0#7 (fnVF o.fmt 0#2 o.sat)))
  | .vrsq o => some (inV0 (wVR 0x0e#6 o.qp o.km o.d o.a.bits 0#7 (fnVF o.fmt 0#2 o.sat)))
  | .vexp2 o => some (inV0 (wVR 0x0f#6 o.qp o.km o.d o.a.bits 0#7 (fnVF o.fmt 0#2 o.sat)))
  | .vlog2 o => some (inV0 (wVR 0x10#6 o.qp o.km o.d o.a.bits 0#7 (fnVF o.fmt 0#2 o.sat)))
  | .vtanh o => some (inV0 (wVR 0x11#6 o.qp o.km o.d o.a.bits 0#7 (fnVF o.fmt 0#2 o.sat)))
  | .viadd o => some (inV0 (wVR 0x20#6 o.qp o.km o.d o.a.bits o.b.bits (fnVI o.w o.sgn o.sat)))
  | .visub o => some (inV0 (wVR 0x21#6 o.qp o.km o.d o.a.bits o.b.bits (fnVI o.w o.sgn o.sat)))
  | .vimul o => some (inV0 (wVR 0x22#6 o.qp o.km o.d o.a.bits o.b.bits (fnVI o.w o.sgn o.sat)))
  | .vimad o => some (inV0 (wVR 0x23#6 o.qp o.km o.d o.a.bits o.b.bits (fnVI o.w o.sgn o.sat)))
  | .vshl o => some (inV0 (wVR 0x24#6 o.qp o.km o.d o.a.bits o.b.bits (fnVI o.w o.sgn o.sat)))
  | .vshr o => some (inV0 (wVR 0x25#6 o.qp o.km o.d o.a.bits o.b.bits (fnVI o.w false false)))
  | .vsar o => some (inV0 (wVR 0x26#6 o.qp o.km o.d o.a.bits o.b.bits (fnVI o.w false false)))
  | .vand o => some (inV0 (wVR 0x27#6 o.qp o.km o.d o.a.bits o.b.bits (fnVI 2#2 false false)))
  | .vor o => some (inV0 (wVR 0x28#6 o.qp o.km o.d o.a.bits o.b.bits (fnVI 2#2 false false)))
  | .vxor o => some (inV0 (wVR 0x29#6 o.qp o.km o.d o.a.bits o.b.bits (fnVI 2#2 false false)))
  | .vandn o => some (inV0 (wVR 0x2a#6 o.qp o.km o.d o.a.bits o.b.bits (fnVI 2#2 false false)))
  | .vimin o => some (inV0 (wVR 0x2b#6 o.qp o.km o.d o.a.bits o.b.bits (fnVI o.w o.sgn false)))
  | .vimax o => some (inV0 (wVR 0x2c#6 o.qp o.km o.d o.a.bits o.b.bits (fnVI o.w o.sgn false)))
  | .vdot4 o => some (inV0 (wVR 0x2d#6 o.qp o.km o.d o.a.bits o.b.bits (fnVI 0#2 o.sgn o.sat)))
  | .viabs o => some (inV0 (wVR 0x2e#6 o.qp o.km o.d o.a.bits 0#7 (fnVI o.w true o.sat)))
  | .vcmp o => some (inV0 (wVR 0x30#6 o.qp o.km (0#3 ++ o.d) o.a.bits o.b.bits (bit o.int ++ o.cond ++ bit o.any ++ o.fw)))
  | .vselk o => some (inV0 (wVR 0x31#6 o.qp o.km o.d o.a.bits o.b.bits (0#4 ++ o.kf)))
  | .kand o => some (inV0 (wVR 0x32#6 o.qp 0#3 (0#3 ++ o.d) (0#4 ++ o.a) (0#4 ++ o.b) 0#7))
  | .kor o => some (inV0 (wVR 0x32#6 o.qp 0#3 (0#3 ++ o.d) (0#4 ++ o.a) (0#4 ++ o.b) 1#7))
  | .kxor o => some (inV0 (wVR 0x32#6 o.qp 0#3 (0#3 ++ o.d) (0#4 ++ o.a) (0#4 ++ o.b) 2#7))
  | .kandn o => some (inV0 (wVR 0x32#6 o.qp 0#3 (0#3 ++ o.d) (0#4 ++ o.a) (0#4 ++ o.b) 3#7))
  | .knot o => some (inV0 (wVR 0x32#6 o.qp 0#3 (0#3 ++ o.d) (0#4 ++ o.a) 0#7 4#7))
  | .kmov o => some (inV0 (wVR 0x33#6 o.qp 0#3 (0#3 ++ o.d) (0#4 ++ o.a) 0#7 0#7))
  | .kmovV2k o => some (inV0 (wVR 0x33#6 o.qp 0#3 (0#3 ++ o.d) o.a.bits 0#7 1#7))
  | .kmovK2v o => some (inV0 (wVR 0x33#6 o.qp 0#3 o.d (0#4 ++ o.a) 0#7 2#7))
  | .vcvt o => some (inV0 (wVR 0x38#6 o.qp o.km o.d o.a.bits (0#1 ++ bit o.ud ++ bit o.us ++ bit o.sat ++ o.part) (o.rnd ++ o.dst)))
  | .vpermb o => some (inV0 (wVR 0x39#6 o.qp o.km o.d o.a.bits o.b.bits (0#5 ++ o.half)))
  | .vperml o => some (inV0 (wVR 0x3a#6 o.qp o.km o.d o.a.bits o.b.bits (0#7)))
  | .vpermlTwo o => some (inV0 (wVR 0x3a#6 o.qp o.km o.d o.a.bits o.b.bits (1#7)))
  | .vredFsum o => some (inV0 (wVR 0x3b#6 o.qp o.km o.d o.a.bits 0#7 (0#2 ++ o.fw ++ 0#3)))
  | .vredFmax o => some (inV0 (wVR 0x3b#6 o.qp o.km o.d o.a.bits 0#7 (0#2 ++ o.fw ++ 1#3)))
  | .vredFmin o => some (inV0 (wVR 0x3b#6 o.qp o.km o.d o.a.bits 0#7 (0#2 ++ o.fw ++ 2#3)))
  | .vredImax o => some (inV0 (wVR 0x3b#6 o.qp o.km o.d o.a.bits 0#7 (0#2 ++ o.fw ++ 4#3)))
  | .vredImin o => some (inV0 (wVR 0x3b#6 o.qp o.km o.d o.a.bits 0#7 (0#2 ++ o.fw ++ 5#3)))
  | .vredImaxz o => some (inV0 (wVR 0x3b#6 o.qp o.km o.d o.a.bits 0#7 (0#2 ++ o.fw ++ 6#3)))
  | .vredIminz o => some (inV0 (wVR 0x3b#6 o.qp o.km o.d o.a.bits 0#7 (0#2 ++ o.fw ++ 7#3)))
  | .vredIsum o => some (inV0 (wVR 0x3b#6 o.qp o.km o.d o.a.bits 0#7 (bit o.uns ++ bit o.sat ++ o.fw ++ 3#3)))
  | .vmov o => some (inV0 (wVR 0x3c#6 o.qp o.km o.d o.a.bits 0#7 (0#7)))
  | .vbcast o => some (inV0 (wVR 0x3c#6 o.qp o.km o.d (0#1 ++ o.a) 0#7 (o.tag ++ o.w ++ 1#1)))
  | .vimm o => some (inV0 (wVI 0x3d#6 o.qp o.km o.d (0#5 ++ o.w) o.imm))
  | .vtag o => some (inV0 (wVR 0x3f#6 o.qp 0#3 o.d o.a.bits 0#7 (0#3 ++ o.tag)))
  | .rfmode o => some (inV0 (wVI 0x3e#6 o.qp 0#3 0#6 0#7 (0#11 ++ o.n)))
  | .mma o => some (inX (wXM 0x01#6 o.qp o.acc o.a.bits o.b (0#2 ++ bit o.ovw ++ bit o.mc ++ bit o.rb ++ bit o.bf ++ bit o.af ++ o.mode)))
  | .mzero o => some (inX (wXM 0x02#6 o.qp o.acc 0#7 0#6 0#10))
  | .mld o => some (inX (wXM 0x03#6 o.qp o.acc 0#7 o.b (0#8 ++ o.img)))
  | .mstBed o => some (inX (wXM 0x04#6 o.qp o.acc 0#7 o.b (0#7 ++ bit o.sat ++ o.img)))
  | .mstSignal o => some (inX (wXM 0x04#6 o.qp o.acc (1#1 ++ 0#3 ++ o.q) 0#6 (0#7 ++ bit o.sat ++ o.img)))
  | .mrow o => some (inX (wXR 0x05#6 o.qp o.d 0#6 (0#2 ++ bit o.int ++ 0#1 ++ o.row ++ o.acc)))
  | .mrowW o => some (inX (wXR 0x05#6 o.qp 0#6 o.a (0#2 ++ 0#1 ++ 1#1 ++ o.row ++ o.acc)))
  | .mscl o => some (inX (wXM 0x06#6 o.qp o.acc o.a.bits o.b 0#10))
  | .mgrp o => some (inX (wXR 0x07#6 o.qp 0#6 o.a 0#14))
  | .sqld o => some (inX (wXR 0x10#6 o.qp 0#6 o.a 0#14))
  | .sqgo o => some (inX (wXR 0x11#6 o.qp 0#6 0#6 0#14))
  | .sqst o => some (inX (wXR 0x12#6 o.qp o.d 0#6 (0#10 ++ o.item)))
  | .sqabt o => some (inX (wXR 0x14#6 o.qp 0#6 0#6 0#14))
  | .attn o => some (inX (wXM 0x13#6 o.qp o.acc o.a.bits o.b (0#4 ++ bit o.prune ++ bit o.fin ++ bit o.init ++ bit o.d128 ++ o.fmt)))
  | .tapset o => some (inX (wXS 0x18#6 o.qp o.q o.sig o.lag))
  | .tapsetx o => some (inX (wXR 0x19#6 o.qp (0#3 ++ o.q) o.a (0#6 ++ o.sig)))
  | .taprd o => some (inX (wXR 0x1a#6 o.qp o.d (0#3 ++ o.q) (0#10 ++ bit o.x ++ o.part)))
  | .tapwr o => some (inX (wXR 0x1b#6 o.qp (0#3 ++ o.q) o.a (0#10 ++ bit o.x ++ o.part)))
  | .siginf o => some (inX (wXR 0x1c#6 o.qp o.d o.a (0#2 ++ o.item ++ o.sig)))
  | .slotsSel o => some (inX (wXR 0x1d#6 o.qp 0#6 o.a (0#4 ++ 0#2 ++ o.sig)))
  | .slotsClr o => some (inX (wXR 0x1d#6 o.qp 0#6 o.a (0#4 ++ 1#2 ++ o.sig)))
  | .slotsOne o => some (inX (wXR 0x1d#6 o.qp 0#6 o.a (0#4 ++ 2#2 ++ o.sig)))
  | .sigrst o => some (inX (wXS 0x1e#6 o.qp 0#3 o.sig 0#15))
  | .tick => some (inC (wC 0x01#5 0#15))
  | .fwait o => some (inC (wC 0x02#5 (o.f ++ o.n)))
  | .fpost o => some (inC (wC 0x03#5 (o.f ++ o.n)))
  | .waitn o => some (inC (wC 0x04#5 (o.ld ++ o.st ++ o.cp ++ o.tl)))
  | .phreg o => some (inC (wC 0x07#5 (o.ph ++ o.mode ++ 0#7)))
  | .pharr o => some (inC (wC 0x05#5 (o.ph ++ 0#9)))
  | .phwait o => some (inC (wC 0x06#5 (o.ph ++ 0#9)))
  | .phdrop o => some (inC (wC 0x08#5 (o.ph ++ 0#9)))
  | .restartMark _ | .resultLanding _ | .resultArrival _ _ | .clusterWakeDone _ _
  | .freezeCycle _ | .ballastCycle _ | .rollbackFault _ _ | .trapEntry _ _
  | .tileEntryComplete _ | .tileFaultReport _ | .commandComplete _ _ | .ingressSampleDelivery _ _
  | .egressSampleDrain _ _ | .mirrorSampleArrival _ _ | .unitEnd _ | .taskSuspend _
  | .flagPostArrival _ _ _ | .taskPick _ | .preempt _ | .resume _ _
  | .launchAccept | .launchStart | .blockDeal _ | .unitStart _ _ _ _
  | .launchComplete _ | .shapePost | .blockCommit _ _ | .graphVisit _
  | .translationWalkDone _ _ | .pageMigration _ _ _ | .blockDrainDone _ _ _ | .sqTail _ _ _
  | .submissionRecord _ _ | .cqHead _ _ _ | .fqHead _ _ | .faultReplyResume _ _
  | .faultReplyEnd _ _ | .sqConf _ _ | .cqConf _ _ | .fqConf _ _
  | .qReset _ _ | .ctxCreate _ _ | .ctxDestroy _ _ | .invalidate _ _
  | .predClear _ _ | .hostMemoryAccess _ _ _ _ _ | .coldReset _ | .getVersion _
  | .getCapabilities _ | .negotiateAlgorithms _ | .getDigests _ | .getCertificate _
  | .challenge _ | .getMeasurements _ | .keyExchange _ | .finish _
  | .endSession _ | .tdispLeaveRun _ _ | .linkAuthFail _ | .linkPathLost _
  | .collectiveSubmit _ _ _ | .collectiveComplete _ _ | .loweringNotice _ _ _ | .loweringNoticeDue
  | .raiseJoinLeave _ _ _ | .epochBoundary | .heartbeat _ | .memberSilent _
  | .leaderTimeout | .memberIsolated | .emergencyLimit _ | .urgentNotice _ _
  | .dieFence _ | .hubDieFatal _ | .vfReset _ | .memberWithdrawn _
  | .powerRingPeriod _ _ | .overcapBallastLimit _ | .pkgCapWrite _ | .diePwrWrite _ _
  | .vtrimWrite _ _ | .voltageLow _ _ _ | .wdogCtlWrite _ _ | .watchdogExpiry _
  | .errorDetected _ _ _ _ _ | .linkCrcError _ | .errStatClear _ | .errInjWrite _ _
  | .clReqRun _ | .clReqQuiesced _ | .clReqSaved _ | .clReqGated _
  | .clStateReached _ | .clWake _ | .clStart _ _ | .linkBringUp _ _
  | .tdispLock _ | .tdispEnterRun _ | .antiRollbackRaise _ _ | .groupBinding _ _ _ _ _ _
  | .curLimitBaseSet _ _ => none

end Sys2Proof
end

