-- ==== Sys2Proof/Machine/State.lean ====
section
/-! DEFINITION. The state of the package as plain data: every piece of state the spec gives a core, a cluster, a dispatcher, a
host function, the fabric and the power manager, and the state after a cold reset. The one core that issues stands in the field
core; the others stand in a list under their numbers. Nothing here computes but the values at reset. -/

namespace Sys2Proof.Machine

/-- Memory as a list of listed bytes: addresses strictly rising, no byte zero; an unlisted byte reads zero (R39; log 1). -/
abbrev Memory := List Host.Cell

/-- A scalar register: value, poison bit (R12). Its pending bit is set exactly while a pending request names it (R21): it is kept
once, in the requests. -/
structure XReg where
  val : Word
  poison : Bool
  deriving DecidableEq, Repr

/-- A vector register: bits, format tag, poison bit (R12, R15); its pending bit is kept in the requests (R21). -/
structure VReg where
  bits : VBits
  tag : Tag
  poison : Bool
  deriving DecidableEq, Repr

/-- A tap port that is set: signal, lag, member offset, slot (R157). -/
structure Tap where
  sig : Nat
  lag : Nat
  off : Int
  slot : Nat
  deriving DecidableEq, Repr

/-- The states of a translation handle (R330). -/
inductive HState where
  | none
  | pending
  | valid
  | stale
  deriving DecidableEq, Repr

/-- A translation handle: its state, the recorded address, the page (base, size code, physical address, rights), the code of its
last walk with the CAUSE that walk gave (R330). -/
structure Handle where
  st : HState
  ah : Word
  base : Nat
  size : Nat
  pa : Nat
  r : Bool
  w : Bool
  code : BitVec 8
  cause : Nat
  deriving DecidableEq, Repr

/-- The registers a restart mark copies (R29). -/
structure Regs where
  x : Vector XReg 64
  p : BitVec 16
  v : Vector VReg 64
  k : Vector Mask 8
  q : Vector (Option Tap) 8
  h : Vector Handle 16
  deriving DecidableEq, Repr

/-- An accumulator tile with its poison bit and its scale set (R190, R200). -/
structure Tile where
  bits : TileBits
  poison : Bool
  sA : VBits
  sB : BitVec 32
  sPoison : Bool
  deriving DecidableEq, Repr

/-- A result on its way to a register: what the landing writes (R18, R90). -/
inductive Landing where
  | x (r : RegNo) (v : Word) (poison : Bool)
  | v (r : RegNo) (bits : VBits) (tag : Tag) (poison : Bool)
  | k (r : BitVec 3) (m : Mask)
  | p (r : PredNo) (b : Bool)
  | h (r : BitVec 4) (v : Handle)
  | q (r : BitVec 3) (t : Tap)
  /-- An MTS: the selector and the value (R111). -/
  | sys (sel : BitVec 14) (v : Word)
  /-- The poison clear of a taken CHK (R115). -/
  | unpoison (r : RegNo)
  /-- STATUS.WCONF set by a conflict (R20, R27). -/
  | wconf
  deriving DecidableEq, Repr

/-- An exposed result in flight: its landing, the number of bundles still to read the old value (the count of R43), and the
bundle and the slot that issued it (R20). -/
structure Flight where
  land : Landing
  count : Nat
  seq : Nat
  slot : Nat
  deriving DecidableEq, Repr

/-- A destination a pending bit may stand on (R21). -/
inductive PDest where
  | x (r : RegNo)
  | v (r : RegNo)
  | h (r : BitVec 4)
  deriving DecidableEq, Repr

/-- What a pending request brings (R21). -/
inductive ReqKind where
  /-- A value that has been read or made: it lands on arrival. -/
  | lands (l : List Landing)
  /-- A load whose access failed: its fault waits for a first touch or a region close (R228). -/
  | failed (f : FaultRec)
  /-- A tap of another member's share that has not sealed the sample: its core, the signal, slot, sample index and part, whether the
  destination is an x register, and the first register (R157, R159). -/
  | remoteTap (core sig slot : Nat) (idx : Int) (part : Nat) (x : Bool) (d : RegNo)
  /-- A result another agent still holds: the package master's (R311), or a deferred QFREE's (R315). -/
  | master
  deriving DecidableEq, Repr

/-- How a load's bytes become its result: into an x register, sign- or zero-extended (R221, R227), or a v register with a tag (R222). -/
inductive LandForm where
  | x (rg : RegNo) (n : Nat) (sgn : Bool)
  | v (rg : RegNo) (tag : Tag)
  deriving DecidableEq, Repr

/-- What a load reads, so that it can be issued again (R44): the number of its bundle, the place and length, the form of its result. -/
inductive Again where
  /-- A virtual range; a speculative load's failure gives its reason word (R229). -/
  | mem (idx va n : Nat) (form : LandForm) (spec : Bool)
  /-- A core's bed. -/
  | bed (idx core off n : Nat) (form : LandForm)
  deriving DecidableEq, Repr

/-- A pending request: its number, bundle and slot, its destinations, whether it counts in ld (R247), the signal a BTSET or BTAPP
names (R362), what it brings, and the read it makes again after a pre-emption. -/
structure Request where
  num : Nat
  seq : Nat
  slot : Nat
  dests : List PDest
  ld : Bool
  sig : Option Nat
  kind : ReqKind
  again : Option Again
  deriving DecidableEq, Repr

/-- An agent's family (R275): the context, and the frame pointer of a task or a gang's own number (offset 2^60). -/
structure Family where
  asid : Nat
  key : Nat
  deriving DecidableEq, Repr

/-- Where an agent runs, for the containment of scopes (R282): family, context, launch, stage, core, function. -/
structure AgentAt where
  fam : Family
  launch : Nat
  stage : Nat
  core : Nat
  fn : Nat
  deriving DecidableEq, Repr

/-- The kind of an access (R277). -/
inductive AccKind where
  | read
  | write
  | acc
  deriving DecidableEq, Repr

/-- One entry of a line's access tag: the region that made it and the kind (R280, R281). -/
structure TagEnt where
  region : Nat
  kind : AccKind
  deriving DecidableEq, Repr

/-- A region-name row: region stamp, agent, the tick at which a gang opened it (0 for a task), whether it is a command's, whether it has
closed, and the widest scope it has been released to (R176, R276, R281, R286). -/
structure Region where
  id : Nat
  by_ : AgentAt
  tick : Nat
  cmd : Bool
  closed : Bool
  scope : Option Nat
  deriving DecidableEq, Repr

/-- The eleven operations of an accumulating write (R238). -/
inductive AccOp where
  | add | min | max | minz | maxz | and | or | xor | swap | cas | faddq
  deriving DecidableEq, Repr

/-- A copy-engine command, or a fence entry (R233 to R244). -/
inductive Cmd where
  | copy (dst src len : Nat)
  | copyIn (sig src count : Nat)
  | copyOut (dst sig count : Nat)
  | copy2d (dst src len rows : Nat) (dstStride srcStride : Int)
  | accw (op : AccOp) (w64 : Bool) (addr : Nat) (a cmp : Word) (old : Nat)
  | ald (off sig slot i0 count : Nat)
  /-- A notice target, with the unit it names (R242, R243). -/
  | notify (d : Word) (dest : Family)
  | fence (id : Nat) (mask : BitVec 4)
  deriving DecidableEq, Repr

/-- How far a command has come (R233): the rows or samples done, the bytes of the one under way that have been read, each with the poison
mark of its line, and how many of them have been written. -/
structure Progress where
  rows : Nat
  got : List (Byte × Bool)
  put : Nat
  deriving DecidableEq, Repr

/-- A queue entry: the command, who issued it, whether its accesses carry tags (a handler's do not, R343), the provisional block
or tick it belongs to, the commit or paging request that holds it and the page whose commit was last waited for (R232, R233, R315,
R338), its region once it has begun, and its progress. -/
structure QEnt where
  cmd : Cmd
  seq : Nat
  tagged : Bool
  prov : Option Nat
  held : Option Nat
  served : Option Nat
  region : Nat
  pr : Progress
  deriving DecidableEq, Repr

/-- A copy-engine queue: entries, notice target with the unit it names, FAULTED state (R232, R233, R242, R243). -/
structure Queue where
  ents : List QEnt
  target : Option (Word × Family)
  faulted : Option FaultRec
  deriving DecidableEq, Repr

/-- What a store-gate entry holds (R30). -/
inductive GateOp where
  /-- A global or redirected store: virtual address, and its bytes by physical address (two runs where a redirected store crosses a
  page). -/
  | store (va : Nat) (runs : List (Nat × List Byte))
  /-- A remote-bed store: core, offset, bytes. -/
  | remote (core off : Nat) (bytes : List Byte)
  /-- A copy-engine command and its queue. -/
  | cmd (q : Nat) (e : QEnt)
  deriving DecidableEq, Repr

/-- A store-gate entry: the bundle it came from, by the core's count and by the unit's (R288), the fault its access met (R30, R333),
whether a release by another member of the gang has performed it (R284), and whether its page has been revoked since (R332, R354). -/
structure GateEnt where
  op : GateOp
  seq : Nat
  idx : Nat
  fail : Option FaultRec
  done : Bool
  stale : Bool
  deriving DecidableEq, Repr

/-- An undo record of a bed store: the offset and the previous bytes (R30), with the sample poison it replaced. -/
structure UndoEnt where
  off : Nat
  old : List Byte
  deriving DecidableEq, Repr

/-- A poisoned part of a sample: signal, slot, sample index, part (R161, R181). -/
structure PoisonPart where
  sig : Nat
  slot : Nat
  idx : Int
  part : Nat
  deriving DecidableEq, Repr

/-- A signal's attributes (R152, R372). Kind 0 OWN, 1 MIRROR, 2 INGRESS, 3 EGRESS. -/
structure SigDecl where
  kind : Nat
  div : Nat
  phase : Nat
  depth : Nat
  lag : Nat
  sizek : Nat
  tag : Tag
  fault : Bool
  arch : Bool
  adepth : Nat
  slots : Nat
  pool : Nat
  queue : Nat
  home : Nat
  owner : Nat
  prime : List Byte
  ext : Bool
  pmember : Nat
  psig : Nat
  pstage : Nat
  /-- Entries of the archive's block table (R359), 0 without one. -/
  btLen : Nat
  /-- Samples of one archive block (R172), 0 without an archive. -/
  perBlk : Nat
  deriving DecidableEq, Repr

/-- One slot of a signal: sample count, floor, selection, written bits of the pending sample, and the block table (R154, R156,
R160, R171, R184, R359). -/
structure SlotState where
  n : Int
  floor : Int
  sel : Bool
  written : BitVec 8
  table : List Word
  deriving DecidableEq, Repr

/-- A signal as a gang member holds it: its slots, the highest arrived or drained index, and the lowest index a MIRROR has received (R166,
R169, R170). -/
structure SigState where
  slots : List SlotState
  arr : Int
  low : Int
  deriving DecidableEq, Repr

/-- A change SLOTS has asked for and the next TICK applies (R183). -/
inductive SlotChange where
  | sel (sig : Nat) (mask : BitVec 256)
  | clr (sig slot : Nat)
  | one (sig slot : Nat)
  deriving DecidableEq, Repr

/-- A sample that has left the ring of its member's share while another member of the gang may still read it (R153, R159): signal, slot,
index, bytes, poisoned parts. -/
structure KeptSample where
  sig : Nat
  slot : Nat
  idx : Int
  bytes : List Byte
  poison : List Nat
  deriving DecidableEq, Repr

/-- The signal unit (R152 to R184): the declared signals (none where the index names another stage's), their states, the poisoned
parts, the changes not yet applied, the samples kept for other members, and, of a predicted stream, the sample counts at the opening of
each provisional tick (R176). -/
structure SigUnit where
  decls : List (Option SigDecl)
  st : List SigState
  poison : List PoisonPart
  changes : List SlotChange
  kept : List KeptSample
  opened : List (Nat × List (List Int))
  deriving DecidableEq, Repr

/-- A stream of the sequencer (R205). -/
structure Stream where
  xreg : RegNo
  base : Nat
  inc : List Int
  deriving DecidableEq, Repr

/-- A level of the sequencer (R205). -/
structure Level where
  sl : Bool
  sh : Nat
  trip : Nat
  deriving DecidableEq, Repr

/-- A loaded sequencer program (R205, R206). -/
structure SeqProg where
  inner : Nat
  sig : Nat
  slot : Nat
  levels : List Level
  streams : List Stream
  templates : List (List BundleBits)
  deriving DecidableEq, Repr

/-- A running sequence: the template at issue and the bundle of it that comes next (R207, R210). -/
structure SeqRun where
  tmpl : Nat
  pos : Nat
  deriving DecidableEq, Repr

/-- The sequencer: the loaded program, the active sequence, the trips T of the last SQGO and the indices i (R205 to R210). -/
structure Sequencer where
  prog : Option SeqProg
  run : Option SeqRun
  trips : List Nat
  idx : List Nat
  deriving DecidableEq, Repr

/-- An A operand of a tile entry: a bed offset, or a sample fixed at issue (R189). -/
inductive Opnd where
  | bed (off : Nat)
  | sample (sig slot : Nat) (idx : Int)
  deriving DecidableEq, Repr

/-- The parameters of an ATTN, captured at its issue, and its progress: the next key tile and the row state (R211 to R217). -/
structure AttnOp where
  acc : Nat
  q : Opnd
  fmt : Nat
  d128 : Bool
  init : Bool
  fin : Bool
  prune : Bool
  prof : Nat
  margin : BitVec 32
  ksig : Nat
  vsig : Nat
  slot : Nat
  rows : Nat
  causal : Bool
  qpos0 : Nat
  scale : BitVec 32
  state : Nat
  klo : Nat
  khi : Nat
  norms : Nat
  /-- The next key tile; none before the first. -/
  next : Option Nat
  m : List Nat
  l : List Nat
  /-- Something poisoned has been read (R190). -/
  poison : Bool
  /-- The mapping the current key tile has read: signal, index and physical address of each archived sample it needs (R218). -/
  maps : Option (List (Nat × Nat × Nat))
  deriving DecidableEq, Repr

/-- A tile operation in the queue (R185). -/
inductive TileOp where
  | mma (acc : Nat) (a : Opnd) (b : Nat) (remote : Option Nat) (mode : Nat) (af bf ovw mc : Bool) (prof : Nat) (sA : VBits)
      (sB : BitVec 32) (sPoison : Bool)
  | mzero (acc : Nat)
  | mld (acc addr img : Nat)
  | mstBed (acc addr img : Nat) (sat : Bool)
  | mstSig (acc sig slot : Nat) (idx : Int) (img : Nat) (sat : Bool)
  | attn (o : AttnOp)
  | mrowW (acc row : Nat) (bits : VBits) (poison : Bool)
  deriving DecidableEq, Repr

/-- An entry of the tile queue: the operation, and the bundle it issued in, by the core's count (R193) and by the unit's (R288). -/
structure TileEnt where
  op : TileOp
  seq : Nat
  idx : Nat
  deriving DecidableEq, Repr

/-- The matrix unit: the queue, a fault found and not yet reported, whether the queue stands until RFT after a report, the multicast group
(R185 to R193, R199). -/
structure Matrix where
  queue : List TileEnt
  fault : Option FaultRec
  held : Bool
  mgrp : BitVec 16
  deriving DecidableEq, Repr

/-- A pending end or suspension of the unit (R120, R122). -/
inductive EndKind where
  | retf
  | tend
  | sync
  | yield
  | waitc (ticket : Nat)
  /-- An end by an unresolved fault (R346). -/
  | fault
  /-- TEND of a stream at its last tick (R319). -/
  | stream
  deriving DecidableEq, Repr

/-- A TRAP, RFT or HALT whose delay bundles are issuing, or an end (R116 to R118, R122). -/
inductive Pending where
  | ending (k : EndKind)
  | trap (n : BitVec 20) (ret : Word)
  | rft
  | halt
  deriving DecidableEq, Repr

/-- A bundle the lead of a gang has fetched (R273): whether for the trap handler, its number in the unit's order, its address. -/
structure Fed where
  trap : Bool
  idx : Nat
  pc : Word
  bits : BundleBits
  deriving DecidableEq, Repr

/-- Control: the next bundle's address, the delay state of R26, what takes effect after the delay bundles, whether the next bundle
is treated as marked (R32), HALT (R118), the header PSEL in force, and the slot, raised fault and stall of the bundle at issue. -/
structure Ctl where
  pc : Word
  dly : Nat
  cont : Word
  after : Option Pending
  nextMarked : Bool
  halted : Bool
  parked : Option Nat
  psel : BitVec 3
  slot : Nat
  raised : Option FaultRec
  stalled : Bool
  /-- The meaning of the slot at issue has passed its own checks and closed its region (R32): a stall from here on leaves the bundle
  begun. -/
  passed : Bool
  /-- The bundles an SQLD of the bundle at issue takes as templates: what follows it in the unit's order starts behind them (R206). -/
  skip : Nat
  /-- The bundle at issue, while a region-closing instruction of it waits: the slots named in done_ have taken effect, its gate has been
  released (R32). -/
  begun : Option BundleBits
  done_ : List Nat
  /-- Such a bundle set aside while a trap handler runs, with its address (R343). -/
  heldBegun : Option (Word × BundleBits × List Nat)
  /-- Bundles issued by the unit outside its trap handler, and by the handler that runs (R22, R273, R347). -/
  issued : Nat
  handled : Nat
  /-- Cycles in which the unit issues before this member does (R273). -/
  lag : Nat
  /-- On the lead of a gang: the bundles it has fetched that a member has yet to issue, or may issue again (R273). -/
  stream : List Fed
  /-- A pending end set aside while a trap handler runs (R122, R345). -/
  held : Option Pending
  /-- The core runs plinth firmware, not a unit (R118, R251, R437). -/
  firmware : Bool
  /-- The stall cycle of R19 has passed for the bundle at issue. -/
  paired : Bool
  deriving DecidableEq, Repr

/-- The shadow of a restart mark (R29). -/
structure Shadow where
  r : Regs
  seqr : Sequencer
  pc : Word
  dly : Nat
  cont : Word
  after : Option Pending
  stochCtr : Word
  rfN : Nat
  awake : BitVec 4
  wakes : List (Nat × Nat)
  sigs : List SigState
  sigPoison : List PoisonPart
  changes : List SlotChange
  issued : Nat
  seq : Nat
  deriving DecidableEq, Repr

/-- A store of a gang's member that has been performed while another member stood before its bundle (R288): the bundle's number, the member,
the place of its first byte, the bytes, and those before it. -/
structure TeamStore where
  idx : Nat
  member : Nat
  place : Nat
  bytes : List Byte
  old : List Byte
  deriving DecidableEq, Repr

/-- The region since the last mark: the store gate, the undo log (with its count of records), the shadow, the tile shadows, the
replay count of R347, and the current region's name (R29, R30, R276). -/
structure RegionState where
  gate : List GateEnt
  undo : List UndoEnt
  undoCount : Nat
  shadow : Option Shadow
  tiles : List (Nat × Tile)
  /-- Bundles issued from the mark (R347). -/
  since : Nat
  replayLeft : Nat
  id : Nat
  /-- The page of the commit whose end started the replay under way (R338). -/
  served : Option Nat
  /-- On the lead of a gang: its members' latest stores (R288). -/
  log : List TeamStore
  deriving DecidableEq, Repr

/-- The pipelines: results in flight, pending requests, the trap result buffer, the numbers of the next request (a core's rise by 1024 from
its index, so that no two cores share one) and bundle. -/
structure Pipe where
  flights : List Flight
  reqs : List Request
  trapBuf : List Flight
  nextReq : Nat
  seq : Nat
  deriving DecidableEq, Repr

/-- The system registers (R27, R28, R163, R341, R66, R34, R16, R40, R426, R240, R216, R54). -/
structure Sys where
  wconf : Bool
  replay : Bool
  intrap : Bool
  priv : Bool
  markv : Bool
  dly : BitVec 2
  stage : BitVec 8
  tick : Word
  tickBudget : BitVec 32
  slip : Word
  /-- Cycles of the current tick (R164). -/
  tickCycles : Nat
  faultInfo : Word
  faultVa : Word
  trapPc : Word
  trapVec : Word
  trapTgt : Word
  profLo : Word
  profHi : Word
  spillBase : Word
  spillLimit : Word
  ovf : Word
  budget : Nat
  awake : BitVec 4
  rfN : Nat
  /-- Clusters still waking with the issue cycles left (R17, R150). -/
  wakes : List (Nat × Nat)
  freeze : Word
  limit : Nat
  slope : Nat
  limitBase : Nat
  slopeBase : Nat
  ballast : Word
  dscale : Vector (BitVec 8) 8
  margin : BitVec 32
  seed : Word
  ctr : Word
  /-- One past the line store's last offset (R34, R299). -/
  lineEnd : Nat
  deriving DecidableEq, Repr

/-- A core TLB entry (R331); the list stands least recently used first. -/
structure TlbEnt where
  asid : Nat
  base : Nat
  size : Nat
  pa : Nat
  r : Bool
  w : Bool
  deriving DecidableEq, Repr

/-- The core's storage: the bed, its poisoned lines (R434), the TLB. -/
structure CoreMem where
  bed : Memory
  poisoned : List Nat
  tlb : List TlbEnt
  deriving DecidableEq, Repr

/-- The unit a core runs (R273, R261): a gang member or a task, its context, launch, stage and member, its frame, priority, class,
provisional and reissuable bits, its block, the commit request it serves. -/
structure UnitInfo where
  gang : Bool
  asid : Nat
  launch : Nat
  stage : Nat
  member : Nat
  members : Nat
  first : Nat
  frame : Nat
  prio : Nat
  place : Nat
  prov : Bool
  reissue : Bool
  block : Option Nat
  serves : Option Nat
  deriving DecidableEq, Repr

/-- What the core's current limit and its watchdog count: the weights of the last 128 cycles, newest first, each with its cycle and the
ballast's part of it (R40, R41, R427), the cycles stalled (R431) and whether the watchdog has reported. -/
structure Weights where
  hist : List (Nat × Nat × Nat)
  stall : Nat
  reported : Bool
  deriving DecidableEq, Repr

/-- A core (R7). -/
structure Core where
  id : Nat
  r : Regs
  f : Vector (BitVec 16) 32
  acc : Vector Tile 8
  sys : Sys
  ctl : Ctl
  pipe : Pipe
  rg : RegionState
  mx : Matrix
  seqr : Sequencer
  eng : Vector Queue 4
  mem : CoreMem
  sig : SigUnit
  unit : Option UnitInfo
  pw : Weights
  /-- The context of the core's last pick (R272). -/
  lastPick : Nat
  deriving DecidableEq, Repr

/-! Package state. -/

/-- A continuation record (R261), with the launch and block the dispatcher knows it by. -/
structure Rec where
  asid : Nat
  resume : Word
  reissue : Bool
  prov : Bool
  place : Nat
  prio : Nat
  frame : Nat
  carry : List Word
  launch : Nat
  block : Option Nat
  serves : Option Nat
  deriving DecidableEq, Repr

/-- A frame and its header (R263). -/
structure Frame where
  asid : Nat
  ptr : Nat
  size : Nat
  parent : Nat
  count : Nat
  waiting : Bool
  parked : Option Rec
  spd : Nat
  /-- The core on which the task parked (R271). -/
  at_ : Nat
  /-- The task has ended by a fault with children outstanding: the last join frees the frame. -/
  orphan : Bool
  deriving DecidableEq, Repr

/-- What a ready queue holds: a record, or the image of a pre-empted running task (R323). -/
inductive Ready where
  | record (r : Rec)
  | image (k : Nat)
  deriving DecidableEq, Repr

/-- Where a ready queue stands (R271). -/
inductive Domain where
  | cluster (k : Nat)
  | die (d : Nat)
  | package
  deriving DecidableEq, Repr

/-- A ready queue of a context: eight levels, level 0 first, and the age counter (R271, R272). -/
structure ReadyQ where
  dom : Domain
  asid : Nat
  levels : List (List Ready)
  age : Nat
  deriving DecidableEq, Repr

/-- What a WAITC waits on (R267). -/
inductive WaitObj where
  /-- A flag of a core, of the gang that runs there (R242). -/
  | flag (core f : Nat) (fam : Family)
  | phaser (cluster ph : Nat)
  deriving DecidableEq, Repr

/-- A recorded wait: its ticket, the waiting task, the object, the designator, whether it has been served, and the record once the
task has suspended (R268). -/
structure Wait where
  ticket : Nat
  asid : Nat
  frame : Nat
  obj : WaitObj
  desig : Word
  served : Bool
  /-- The gang of its flag has ended (R269). -/
  dead : Bool
  rec_ : Option Rec
  /-- The core where the task waits. -/
  at_ : Nat
  deriving DecidableEq, Repr

/-- A phaser (R255). -/
structure Phaser where
  phase : BitVec 32
  ncur : Nat
  nnext : Nat
  acur : Nat
  anext : Nat
  deriving DecidableEq, Repr

/-- A party record (R255, R256): the phaser, the party, its mode, sp and wp. -/
structure Party where
  ph : Nat
  fam : Family
  sig : Bool
  wait : Bool
  sp : BitVec 32
  wp : BitVec 32
  deriving DecidableEq, Repr

/-- The phasers of a context on a cluster, with their parties (R255). -/
structure PhaserSet where
  cluster : Nat
  asid : Nat
  ph : List (Nat × Phaser)
  parties : List Party
  deriving DecidableEq, Repr

/-- A cluster's power block and retention latches (R437, R438). -/
structure Cluster where
  req : Nat
  state : Nat
  target : Option Nat
  wpend : Bool
  badreq : Bool
  saved : List (Nat × Nat)
  deriving DecidableEq, Repr

/-- The state of a quarry block that is not FREE (R352). -/
inductive BlkState where
  | allocated
  | retractable (launch block : Nat)
  | draining
  deriving DecidableEq, Repr

/-- A pool: its descriptor, the blocks never yet given out (from fresh on), the freed ones in order, the others' states (R350,
R352). -/
structure Pool where
  v : Bool
  arena : Nat
  engine : Nat
  count : Nat
  bsize : Nat
  fresh : Nat
  freed : List Nat
  blocks : List (Nat × BlkState)
  deriving DecidableEq, Repr

/-- A hold on a block (R353): pool, block, and the holder: a core's queue (0 to 3). An ATTN key tile's holds
are those its own mapping names. -/
structure Hold where
  asid : Nat
  pool : Nat
  blk : Nat
  core : Nat
  agent : Nat
  deriving DecidableEq, Repr

/-- A context (R394). -/
structure Ctx where
  asid : Nat
  fn : Nat
  hpage : Bool
  trusted : Bool
  root : Nat
  trapVec : Word
  commit : Word
  frameBase : Nat
  frameSize : Nat
  saveBase : Nat
  saveSize : Nat
  bounceBase : Nat
  bounceSize : Nat
  pools : List Pool
  nextId : Nat
  /-- The context record as copied (R397). -/
  record : List Word
  /-- The key of its slot (R398), a name for a value no interface reads. -/
  key : Nat
  deriving DecidableEq, Repr

/-- The states of a block of a PREDICTED launch (R318). -/
inductive BlockSt where
  | waiting | runC | runP | commit | endP | done | dropped | squashed
  deriving DecidableEq, Repr

/-- A write held in a launch's provisional buffer (R315): to memory, or to a bed, with the launch of the unit whose bed it is. -/
inductive ProvWrite where
  | bytes (va pa : Nat) (b : List Byte)
  | remote (core launch off : Nat) (b : List Byte)
  | accw (va pa : Nat) (op : AccOp) (w64 : Bool) (a : Word)
  | accwBed (core launch off : Nat) (op : AccOp) (w64 : Bool) (a : Word)
  deriving DecidableEq, Repr

/-- An action a provisional unit defers (R315). -/
inductive Deferred where
  /-- A post: core, flag, count, the unit it names, and its release's scope. -/
  | post (core flag n : Nat) (dest : Family) (scope : Nat)
  | shape (final : Bool) (cell : Nat) (pa : Nat) (v : Nat)
  /-- A QFREE, with the core and the request its status goes to. -/
  | qfree (addr : Word) (answer : Nat × Nat)
  | release (scope : Nat)
  /-- The release of a task's end. -/
  | finish
  /-- What a command's completion releases, and the post of its notice: core, flag and unit (R243, R294). -/
  | notice (post : Option (Nat × Nat × Family)) (region : Nat)
  /-- A descriptor copied into the collective port: channel, words, the core and the unit FLAG names (R409). -/
  | submit (ch : Nat) (desc : List Word) (core : Nat) (dest : Option Family)
  deriving DecidableEq, Repr

/-- An entry of the provisional buffer, in program order: the block (or tick), the agent, the region of its command (0 for a unit's own
store) and the write. -/
structure ProvEnt where
  unit : Nat
  by_ : AgentAt
  region : Nat
  write : ProvWrite
  deriving DecidableEq, Repr

/-- A deferred action with its block (or tick) and the family. -/
structure DeferEnt where
  unit : Nat
  by_ : AgentAt
  act : Deferred
  deriving DecidableEq, Repr

/-- How far a launch has come. -/
inductive LaunchSt where
  | queued | started | complete
  deriving DecidableEq, Repr

/-- A launch as its dispatcher keeps it (R297 to R319). -/
structure Launch where
  key : Nat
  asid : Nat
  id : Nat
  queue : Nat
  desc : List Word
  sigs : List SigDecl
  stageMap : List Nat
  tickBudget : BitVec 32
  frameSize : Nat
  st : LaunchSt
  /-- Runs as PREDICTED still; the shape is not final. -/
  waits : Bool
  final : Option Nat
  floor : Nat
  pred : Nat
  low : Bool
  /-- Next block to deal, and the end of what may be dealt. -/
  cursor : Nat
  rotation : Nat
  blocks : List (Nat × BlockSt)
  /-- First core of each placed stage. -/
  placed : List Nat
  /-- Blocks to be started again (R423). -/
  again : List Nat
  /-- Members placed whose start is still to come: stage and member. -/
  toStart : List (Nat × Nat)
  unitsLeft : Nat
  status : Nat
  prov : List ProvEnt
  defer_ : List DeferEnt
  notify : Option Word
  /-- The issuer of the LAUNCH: core and family, where the designator is LOCAL. -/
  issuer : Option (Nat × Family)
  /-- The submission record's function, completion queue and TAG. -/
  host : Option (Nat × Nat × BitVec 32)
  /-- The graph walk that started it, and the node that follows it there. -/
  graph : Option (Nat × Nat)
  /-- The valid block-table entries of its gangs that have ended: the tables stand until the launch is complete (R359). -/
  entries : List Word
  deriving DecidableEq, Repr

/-- A started or queued graph: header address, the active paths (nodes still to visit), node counters, running kernels, status
(R320 to R322). -/
structure Graph where
  key : Nat
  asid : Nat
  id : Nat
  queue : Nat
  addr : Nat
  nodes : Nat
  start : Nat
  cell : Nat
  st : LaunchSt
  visits : List Nat
  running : List Nat
  iters : List (Nat × Nat)
  arrivals : List (Nat × Nat)
  status : Nat
  failed : Bool
  notify : Option Word
  issuer : Option (Nat × Family)
  host : Option (Nat × Nat × BitVec 32)
  deriving DecidableEq, Repr

/-- What stands in a hardware launch queue: a launch, a graph, or a refused record with its status (R303, R390). -/
inductive HwEnt where
  | launch (key : Nat)
  | graph (key : Nat)
  | refused (status : Nat) (host : Option (Nat × Nat × BitVec 32))
  deriving DecidableEq, Repr

/-- A hardware launch queue (R303, R304): owner, priority, the function and submission queue bound, entries. -/
structure HwQueue where
  n : Nat
  owner : Nat
  prio : Nat
  fn : Nat
  sq : Nat
  ents : List HwEnt
  deriving DecidableEq, Repr

/-- A submission on its way to the package master (R311, R390). -/
structure Submit where
  kind : Nat
  asid : Nat
  queue : Nat
  addr : Nat
  desc : Option (List Word)
  notify : Option Word
  issuer : Option (Nat × Family)
  /-- The core and request number of the LAUNCH that waits. -/
  answer : Option (Nat × Nat)
  /-- Other members that receive the same result (R312). -/
  also : List (Nat × Nat)
  host : Option (Nat × Nat × BitVec 32)
  deriving DecidableEq, Repr

/-- A shape post on its way to the package master (R316, R317). -/
structure ShapeMsg where
  final : Bool
  asid : Nat
  cell : Nat
  pa : Nat
  v : Nat
  deriving DecidableEq, Repr

/-- An open request of the fault service (R338): a commit (its page) or a host paging request (its number). -/
structure FaultReq where
  num : Nat
  paging : Bool
  asid : Nat
  page : Nat
  size : Nat
  pool : Nat
  va : Nat
  /-- The commit-handler task has been enqueued. -/
  queued : Bool
  /-- A paging request's fault, with the core that raised it. -/
  fault : Option (Nat × FaultRec)
  deriving DecidableEq, Repr

/-- A saved image of a pre-empted unit (R323). -/
structure Image where
  num : Nat
  core : Core
  gang : Bool
  prio : Nat
  bytes : Nat
  deriving DecidableEq, Repr

/-- A sealed sample on its way to a mirror (R162, R166): the consumer, the index, the bytes, the poisoned parts, and the tick that
must be confirmed first (R176). -/
structure MirrorMsg where
  launch : Nat
  stage : Nat
  member : Nat
  sig : Nat
  idx : Int
  bytes : List Byte
  poison : List Nat
  holds : Option (Nat × Nat)
  deriving DecidableEq, Repr

/-- A host ring (R388, R389): base, n, tail, head, state (0 idle, 1 running, 2 ERROR, 3 reset), the phase, and its bindings. -/
structure Ring where
  q : Nat
  base : Nat
  n : Nat
  tail : Nat
  head : Nat
  st : Nat
  phase : Bool
  cq : Nat
  hw : Nat
  owner : Nat
  deriving DecidableEq, Repr

/-- A fault record on its way to the host (R392). -/
structure FaultOut where
  words : List Word
  deriving DecidableEq, Repr

/-- A completion waiting for its record (R309, R391). -/
structure CompOut where
  cq : Nat
  tag : BitVec 32
  status : Nat
  shape : Nat
  id : Nat
  deriving DecidableEq, Repr

/-- The states of a TDISP interface (R397). -/
inductive Tdisp where
  | unlocked | locked | run | error
  deriving DecidableEq, Repr

/-- A PCIe function (R388, R441, R397, R431): rings, fault queue, undelivered faults, completions waiting, mailbox, TDISP, watchdog
control, host memory, counters. The mailbox: DONE, STATUS, and while BUSY the word written to MBOX_CMD. The host: its memory by IOVA, the
ranges of it that the device cannot read (log 40), what its last read of memory returned. -/
structure Fn where
  n : Nat
  sqs : List Ring
  cqs : List Ring
  fq : Option Ring
  faults : List FaultOut
  comps : List CompOut
  done : BitVec 32
  status : BitVec 8
  busy : Option Word
  tdisp : Tdisp
  wdogEn : Bool
  wdogExp : Nat
  mem : Memory
  holes : List (Nat × Nat)
  lastRead : List Byte
  dropped : Nat
  nextReq : Nat
  deriving DecidableEq, Repr

/-- The site predictor's entry: ASID tag and the last observations, oldest first (R314). -/
structure Site where
  asid : Nat
  obs : List Nat
  deriving DecidableEq, Repr

/-- Boot and identity (R395 to R397): the alias key that firmware holds, its certificate, and the identity certificate. -/
structure Boot where
  recovery : Bool
  fused : Nat
  version : Nat
  meas : List (BitVec 384)
  aliasKey : Nat
  aliasCert : List Word
  identityCert : List Word
  deriving DecidableEq, Repr

/-- What a boot leaves (R395, R396): the ROM derives the alias key from the identity secret and the firmware measurement and signs the alias
certificate with the identity key; the identity certificate is signed at manufacture. -/
def Boot.of (recovery : Bool) (fused version : Nat) (meas : List (BitVec 384)) : Boot :=
  let key := Config.aliasKey (meas.getD 1 0)
  let pub := (List.range 12).map (Config.publicKey key)
  ⟨recovery, fused, version, meas, key, pub ++ (List.range 12).map (Config.signature Config.identityKey pub), Config.identityCert⟩

/-- The SPDM responder's connection (R397): the version and algorithms agreed, the session, and the last answer given. -/
structure Spdm where
  phase : Nat
  session : Option Nat
  finished : Bool
  answer : List Word
  deriving DecidableEq, Repr

/-- A collective in a channel (R409, R410), with the core whose copy submitted it and the unit that FLAG names. -/
structure Coll where
  ch : Nat
  asid : Nat
  desc : List Word
  core : Nat
  dest : Option Family
  deriving DecidableEq, Repr

/-- A binding of a channel (R408): the context here, the group and its packages, the ranks' packages; whether a participant elsewhere has
been withdrawn (R425). -/
structure Binding where
  ch : Nat
  asid : Nat
  group : Nat
  members : List Nat
  ranks : List Nat
  withdrawn : Bool
  deriving DecidableEq, Repr

/-- A notice of the lintel, in force or not yet due (R414): its package, ceiling, effective time, and when it was sent or came. -/
structure Notice where
  pkg : Nat
  ceiling : Nat
  t : Nat
  sent : Nat
  deriving DecidableEq, Repr

/-- A raise, a join or a leave waiting for the boundary (R415): kind, package, ceiling, when it reached the leader. -/
structure Change where
  kind : Nat
  pkg : Nat
  ceiling : Nat
  at_ : Nat
  deriving DecidableEq, Repr

/-- The lintel (R413 to R419). -/
structure Lintel where
  group : Nat
  leader : Nat
  /-- Live members, each with the ceiling of its join or its last raise; a package that has left the group is not among them. -/
  members : List (Nat × Nat)
  /-- Notices in the order they were sent: of each member the newest in force, and those not yet due. -/
  notices : List Notice
  changes : List Change
  /-- When each member was last heard, in reference nanoseconds. -/
  heard : List (Nat × Nat)
  silent : List Nat
  applied : Nat
  g : Nat
  own : Nat
  epoch : BitVec 32
  breach : Nat
  silenced : Nat
  deriving DecidableEq, Repr

/-- The fabric (R399, R406 to R412): own package number, live and down links, packages no path reaches, flits retried, the contexts'
collective ports (a context and a page of its space), bindings, collectives. -/
structure Fabric where
  pkg : Nat
  links : List Nat
  downLinks : List Nat
  lost : List Nat
  retries : List (Nat × Nat)
  ports : List (Nat × Nat)
  bindings : List Binding
  colls : List Coll
  deriving DecidableEq, Repr

/-- An event the arbiter has numbered (R420): the number, a code of the model's (named with the event), an argument. -/
structure ArbEvent where
  seq : BitVec 32
  what : Nat
  arg : Nat
  deriving DecidableEq, Repr

/-- A die's power (R428, R429, R430): BASE, USED, DEBT, TAKEN, budget, the over-cap episode's ticks, ballast suppressed, VTRIM, the frequency
limit, CAPLIM. -/
structure DiePower where
  base : Nat
  used : Nat
  debt : Nat
  taken : Nat
  budget : Nat
  overCap : Bool
  overTicks : Nat
  suppressed : Bool
  vtrim : Word
  freqLimit : Nat
  caplim : Nat
  deriving DecidableEq, Repr

/-- Package power (R429). -/
structure Power where
  hub : Nat
  cap : Nat
  period : Nat
  dies : List DiePower
  deriving DecidableEq, Repr

/-- An array's error log and injection register (R435, R436). -/
structure ErrLog where
  inst : Nat
  count : Nat
  inj : Bool
  ovf : Bool
  ue : Bool
  valid : Bool
  addr : Word
  asid : BitVec 16
  synd : BitVec 16
  injReg : Word
  deriving DecidableEq, Repr

/-- The dispatchers' state (R303 to R324). -/
structure Disp where
  hw : List HwQueue
  hwLast : Nat
  hwAge : Nat
  reserving : Option Nat
  reserved : List Nat
  launches : List Launch
  graphs : List Graph
  submits : List Submit
  shapes : List ShapeMsg
  nextKey : Nat
  ready : List ReadyQ
  waits : List Wait
  frames : List Frame
  images : List Image
  sites : List (Nat × Site)
  reqs : List FaultReq
  phasers : List PhaserSet
  mirrors : List MirrorMsg
  /-- Flag posts that have left their poster: core, flag, count, and who may receive it (R242, R253). -/
  posts : List (Nat × Nat × Nat × Family)
  deriving DecidableEq, Repr

/-- The package. -/
structure State where
  /-- The core whose step is next. -/
  core : Core
  /-- Every other core that is not as a reset leaves it, under its number, numbers rising. -/
  others : List (Nat × Core)
  /-- The model's own: the events that come next, and the cores still to issue in this cycle. -/
  agenda : List Instr
  turn : List Nat
  /-- Device memory by physical address (R325, R406) and its poisoned lines (R434). -/
  mem : Memory
  /-- The lines of it that stand encrypted, each with its key (R398). -/
  sealed : List (Nat × Nat)
  poisoned : List Nat
  /-- Access tags and region-name rows (R280, R281). -/
  tags : List (Nat × List TagEnt)
  regions : List Region
  nextRegion : Nat
  ctxs : List Ctx
  holds : List Hold
  disp : Disp
  clusters : List (Nat × Cluster)
  fns : List Fn
  boot : Boot
  spdm : Spdm
  fabric : Fabric
  lintel : Lintel
  arb : BitVec 32
  arbLog : List ArbEvent
  fenced : List Nat
  master : Nat
  stopped : Bool
  power : Power
  errs : List ErrLog
  cycle : Nat
  refTime : Nat
  pticks : Nat
  /-- The model's own: the number of the next free value (Config). -/
  free : Nat
  deriving DecidableEq, Repr

/-- Why a step stops the machine. -/
inductive Fault where
  /-- Raised by step once HUB_DIE_FATAL has stopped the package (R421): nothing runs until it is reset. Safe: no state follows. -/
  | packageStopped
  deriving DecidableEq, Repr

/-- Why an instruction has no meaning. -/
inductive Refusal where
  /-- Raised by an arm of exec whose meaning has not been written. Safe: no state follows. -/
  | notModelled (mnemonic : String)
  deriving DecidableEq, Repr

/-! The values at reset and at a unit's start (R12). -/

/-- A scalar register at launch. -/
def XReg.zero : XReg := ⟨0, false⟩

/-- A vector register at launch. -/
def VReg.zero : VReg := ⟨0, 0, false⟩

/-- A handle that records no page. -/
def Handle.none : Handle := ⟨.none, 0, 0, 0, 0, false, false, 0, 0⟩

/-- The registers at launch, x2 at SPILL_LIMIT (R12). -/
def Regs.launch : Regs :=
  { x := (Vector.replicate 64 XReg.zero).set 2 ⟨0x180000, false⟩,
    p := 1, v := Vector.replicate 64 VReg.zero,
    k := (Vector.replicate 8 (0 : Mask)).set 0 (BitVec.allOnes 128),
    q := Vector.replicate 8 Option.none, h := Vector.replicate 16 Handle.none }

/-- A tile at launch: zero, scales 1.0 (R12, R200). -/
def Tile.launch : Tile := ⟨0, false, packElems 4096 32 (List.replicate 128 0x3F800000), 0x3F800000, false⟩

/-- A command that has not begun. -/
def Progress.start : Progress := ⟨0, [], 0⟩

/-- An empty queue. -/
def Queue.empty : Queue := ⟨[], Option.none, Option.none⟩

/-- The system registers at reset (maps of R27 to R34, R110, R163, R216, R240, R341, R426; log 2). -/
def Sys.reset : Sys :=
  { wconf := false, replay := false, intrap := false, priv := false, markv := false, dly := 0, stage := 0, tick := 0,
    tickBudget := 0, slip := 0, tickCycles := 0, faultInfo := 0, faultVa := 0, trapPc := 0, trapVec := 0, trapTgt := 0,
    profLo := 0, profHi := 0, spillBase := 0, spillLimit := 0x180000, ovf := 0, budget := 4, awake := 15, rfN := 4,
    wakes := [], freeze := 0, limit := 5824, slope := 1920, limitBase := 5824, slopeBase := 1920, ballast := 0,
    dscale := Vector.replicate 8 0, margin := 0x7F800000, seed := 0, ctr := 0, lineEnd := 0 }

/-- Control with nothing under way. -/
def Ctl.idle : Ctl :=
  { pc := 0, dly := 0, cont := 0, after := Option.none, nextMarked := false, halted := false, parked := Option.none, psel := 0, slot := 0,
    raised := Option.none, stalled := false, passed := false, skip := 0, begun := Option.none, done_ := [], heldBegun := Option.none,
    issued := 0, handled := 0, lag := 0, stream := [], held := Option.none, firmware := false, paired := false }

/-- A core that runs nothing (R12; log 2). -/
def Core.reset (id : Nat) : Core :=
  { id := id, r := Regs.launch, f := Vector.replicate 32 0, acc := Vector.replicate 8 Tile.launch, sys := Sys.reset,
    ctl := Ctl.idle, pipe := ⟨[], [], [], id, 0⟩, rg := ⟨[], [], 0, Option.none, [], 0, 0, 0, Option.none, []⟩,
    mx := ⟨[], Option.none, false, 0⟩, seqr := ⟨Option.none, Option.none, [], []⟩, eng := Vector.replicate 4 Queue.empty,
    mem := ⟨[], [], []⟩, sig := ⟨[], [], [], [], [], []⟩, unit := Option.none, pw := ⟨[], 0, false⟩, lastPick := 0 }

/-- A cluster in RUN (R437). -/
def Cluster.reset : Cluster := ⟨0, 0, Option.none, false, false, []⟩

/-- A die's power registers at reset (R429, R430). -/
def DiePower.reset : DiePower := ⟨450, 0, 0, 0, 450, false, 0, false, 0, 90, 5824⟩

/-- A PCIe function before anything is configured (R388, R431): function 0 is the physical one, 1 to 64 the virtual ones. -/
def Fn.reset (n : Nat) : Fn := ⟨n, [], [], Option.none, [], [], 0, 0, Option.none, .unlocked, true, 32, [], [], [], 0, 1⟩

/-- The state after a cold reset (R395): firmware passed (what an image brings to the boot record stands with COLD_RESET), no context, no unit,
every register at its reset value (log 2). -/
def State.reset : State :=
  { core := Core.reset 0, others := [], agenda := [], turn := [], mem := [], sealed := [], poisoned := [], tags := [], regions := [],
    nextRegion := 1, ctxs := [], holds := [],
    disp := { hw := [], hwLast := 0, hwAge := 0, reserving := Option.none, reserved := [], launches := [], graphs := [],
              submits := [], shapes := [], nextKey := 1, ready := [], waits := [], frames := [], images := [], sites := [],
              reqs := [], phasers := [], mirrors := [], posts := [] },
    clusters := [], fns := (List.range 65).map Fn.reset, boot := ⟨false, 0, 0, [], 0, [], []⟩, spdm := ⟨0, Option.none, false, []⟩,
    fabric := ⟨0, [], [], [], [], [], [], []⟩,
    lintel := ⟨0, 0, [], [], [], [], [], 90, 90, 90, 0, 0, 0⟩,
    arb := 0, arbLog := [], fenced := [], master := 0, stopped := false,
    power := ⟨600, 4200, 0, List.replicate 8 DiePower.reset⟩, errs := [], cycle := 0, refTime := 0, pticks := 0, free := 0 }

end Sys2Proof.Machine
end

