-- ==== Sys2Proof/Machine/Memory.lean ====
section
/-! DEFINITION. Memory as the canonical list of its nonzero bytes: reading, writing, and the form every operation keeps. A bed, the
device's memory and a function's host memory are of this one type. -/

namespace Sys2Proof.Machine

/-- The canonical form: addresses strictly rising, and no byte equal to what an unlisted address reads as (log 1). -/
abbrev Memory.wf (m : Memory) : Prop := m.Pairwise (fun a b => a.1 < b.1) ∧ ∀ c ∈ m, c.2 ≠ 0

/-- What an unlisted address reads as: zero (R39 for a bed; log 1 for device and host memory). -/
def Memory.unlisted : Byte := 0

/-- The byte at an address. -/
def Memory.get : Memory → Nat → Byte
  | [], _ => Memory.unlisted
  | c :: cs, a => if c.1 = a then c.2 else Memory.get cs a

/-- The bytes at n addresses from a, the list holding none below a. -/
def Memory.fill (a : Nat) : Nat → Memory → List Byte
  | 0, _ => []
  | n + 1, [] => Memory.unlisted :: Memory.fill (a + 1) n []
  | n + 1, c :: cs => if c.1 = a then c.2 :: Memory.fill (a + 1) n cs else Memory.unlisted :: Memory.fill (a + 1) n (c :: cs)

/-- The n bytes from address a, lowest first (R6). -/
def Memory.read (m : Memory) (a n : Nat) : List Byte := Memory.fill a n (m.dropWhile (fun c => c.1 < a))

/-- The cells of a run of bytes from a: the zero ones are not listed. -/
def Memory.cells (a : Nat) : List Byte → Memory
  | [] => []
  | b :: bs => if b = Memory.unlisted then Memory.cells (a + 1) bs else (a, b) :: Memory.cells (a + 1) bs

/-- The memory with a run of bytes written from address a. -/
def Memory.write (m : Memory) (a : Nat) (bs : List Byte) : Memory :=
  m.filter (fun c => c.1 < a) ++ Memory.cells a bs ++ m.filter (fun c => a + bs.length ≤ c.1)

/-- The memory with n bytes from address a cleared to zero. -/
def Memory.clear (m : Memory) (a n : Nat) : Memory := m.filter (fun c => c.1 < a || a + n ≤ c.1)

/-- The little-endian number of n bytes at a (R6). -/
def Memory.readNat (m : Memory) (a n : Nat) : Nat := natOfBytes (m.read a n)

/-- The doubleword at a (R6). -/
def Memory.readW (m : Memory) (a : Nat) : Word := BitVec.ofNat 64 (m.readNat a 8)

/-- The memory with a doubleword written at a. -/
def Memory.writeW (m : Memory) (a : Nat) (w : Word) : Memory := m.write a (bytesOf w 8)

end Sys2Proof.Machine
end

