-- ==== Sys2Proof/Machine/Base.lean ====
section
/-! DEFINITION. Reaching the cores of the package, reading registers, results in flight and pending requests (R9 to R28), the codes
of the faults (R340). -/

namespace Sys2Proof.Machine

/-- What a meaning answers. -/
abbrev Res := Host.Outcome State Fault Refusal

/-! Cores. -/

/-- Core n as it stands. -/
def State.coreOf (s : State) (n : Nat) : Core := if s.core.id = n then s.core else (lookup s.others n).getD (Core.reset n)

/-- The state with a core put back under its number. -/
def State.putCore (s : State) (c : Core) : State :=
  if c.id = s.core.id then { s with core := c } else { s with others := assocSet s.others c.id c }

/-- The state with core n changed. -/
def State.modCore (s : State) (n : Nat) (f : Core → Core) : State := s.putCore (f (s.coreOf n))

/-- The state with the core in focus changed. -/
def State.mapCore (s : State) (f : Core → Core) : State := { s with core := f s.core }

/-- The state with core n as the one whose step is next. -/
def State.focus (s : State) (n : Nat) : State :=
  if s.core.id = n then s else { s with core := s.coreOf n, others := assocSet (assocDel s.others n) s.core.id s.core }

/-- Every core that is not as a reset leaves it. -/
def State.cores (s : State) : List Core := s.core :: s.others.map (·.2)

/-- The cores of the gang a unit belongs to, member 0 first; one core for a task (R273). -/
def UnitInfo.coreIds (u : UnitInfo) (id : Nat) : List Nat := if u.gang then (List.range u.members).map (u.first + ·) else [id]

/-- The cores of the unit on a core. -/
def Core.team (c : Core) : List Nat := (c.unit.map (·.coreIds c.id)).getD [c.id]

/-- The cluster, the cluster counted over the package, the die and the place within its cluster of a core index (R28). -/
def clusterOf (id : Nat) : Nat := id / 16
def dieOf (id : Nat) : Nat := id / 112
def placeOf (id : Nat) : Nat := id % 16

/-- The number by which the plinth's core goes in the model: it has no global core index (R28). -/
def plinthId : Nat := 896

/-- Whether core n runs a unit of context a. -/
def State.runsUnitOf (s : State) (n a : Nat) : Bool := ((s.coreOf n).unit.map (·.asid == a)).getD false

/-- The context of an ASID. -/
def State.ctx (s : State) (a : Nat) : Option Ctx := s.ctxs.find? (·.asid == a)

/-- The ASID of the unit on the core in focus, 0 without one. -/
def Core.asid (c : Core) : Nat := (c.unit.map (·.asid)).getD 0

/-- The stage of the unit, 0 without one (R28). -/
def Core.isGang (c : Core) : Bool := (c.unit.map (·.gang)).getD false
def Core.isTask (c : Core) : Bool := (c.unit.map (fun u => !u.gang)).getD false
def Core.member (c : Core) : Nat := (c.unit.map (·.member)).getD 0

/-! Registers (R12, R13). -/

/-- A scalar register as it reads: x0 is zero, its poison bit clear. -/
def Core.xr (c : Core) (r : RegNo) : XReg := if r = 0 then XReg.zero else c.r.x.get r.toFin
def Core.x (c : Core) (r : RegNo) : Word := (c.xr r).val
def Core.xp (c : Core) (r : RegNo) : Bool := (c.xr r).poison

/-- A predicate as it reads: p0 is true. -/
def Core.p (c : Core) (n : PredNo) : Bool := n == 0 || c.r.p.getLsbD n.toNat

/-- A vector register. -/
def Core.v (c : Core) (r : RegNo) : VReg := c.r.v.get r.toFin

/-- A lane mask as it reads: k0 is all ones. -/
def Core.k (c : Core) (n : BitVec 3) : Mask := if n = 0 then BitVec.allOnes 128 else c.r.k.get n.toFin

/-- A tap port and a handle. -/
def Core.q (c : Core) (n : BitVec 3) : Option Tap := c.r.q.get n.toFin
def Core.h (c : Core) (n : BitVec 4) : Handle := c.r.h.get n.toFin

/-- A counting flag (R251). -/
def Core.flag (c : Core) (n : Nat) : Nat := if h : n < 32 then (c.f.get ⟨n, h⟩).toNat else 0

/-- A counting flag set, saturating at 65,535 (R251). -/
def Core.setFlag (c : Core) (n v : Nat) : Core :=
  if h : n < 32 then { c with f := c.f.set n (BitVec.ofNat 16 (min v 65535)) h } else c

/-- A tile. -/
def Core.tile (c : Core) (n : Nat) : Tile := if h : n < 8 then c.acc.get ⟨n, h⟩ else Tile.launch
def Core.setTile (c : Core) (n : Nat) (t : Tile) : Core := if h : n < 8 then { c with acc := c.acc.set n t h } else c

/-- Registers written (R13: x0, p0 and k0 discard). -/
def Regs.setX (r : Regs) (n : RegNo) (v : XReg) : Regs := if n = 0 then r else { r with x := r.x.set n.toNat v n.isLt }
def Regs.setV (r : Regs) (n : RegNo) (v : VReg) : Regs := { r with v := r.v.set n.toNat v n.isLt }
def Regs.setP (r : Regs) (n : PredNo) (b : Bool) : Regs :=
  if n = 0 then r else { r with p := putField r.p n.toNat (boolW 1 b) }
def Regs.setK (r : Regs) (n : BitVec 3) (m : Mask) : Regs := if n = 0 then r else { r with k := r.k.set n.toNat m n.isLt }
def Regs.setQ (r : Regs) (n : BitVec 3) (t : Option Tap) : Regs := { r with q := r.q.set n.toNat t n.isLt }
def Regs.setH (r : Regs) (n : BitVec 4) (h : Handle) : Regs := { r with h := r.h.set n.toNat h n.isLt }

/-- The cluster of a vector register (R16). -/
def vCluster (r : RegNo) : Nat := r.toNat / 16

/-! Copy-engine queues (R232). -/

/-- Whether a queue is full. -/
def Queue.full (q : Queue) : Bool := decide (q.ents.length ≥ 32)

/-- A queue of the core in focus. -/
def Core.queue (c : Core) (n : Nat) : Queue := if h : n < 4 then c.eng.get ⟨n, h⟩ else Queue.empty
def Core.setQueue (c : Core) (n : Nat) (q : Queue) : Core := if h : n < 4 then { c with eng := c.eng.set n q h } else c

/-- A command into its queue. -/
def Core.enqueueCmd (c : Core) (n : Nat) (e : QEnt) : Core := c.setQueue n { c.queue n with ents := (c.queue n).ents ++ [e] }

/-- A queue's FAULTED state cleared (R249). -/
def Core.clearFaulted (c : Core) (q : Nat) : Core := c.setQueue q { c.queue q with faulted := none }

/-! System registers an MTS writes (R110, R111). -/

/-- A system register with a value in its place, the value having passed the map's checks. -/
def Sys.write (y : Sys) (sel : BitVec 14) (v : Word) : Sys :=
  match sel.toNat with
  | 1 => if bitAt v 0 then { y with wconf := false } else y
  | 3 => { y with tickBudget := field v 0 32 }
  | 8 => { y with faultInfo := v }
  | 9 => { y with faultVa := v }
  | 10 => { y with trapPc := v }
  | 11 => { y with trapVec := v }
  | 12 => { y with trapTgt := v }
  | 20 => { y with spillBase := v }
  | 21 => { y with spillLimit := v }
  | 22 => { y with ovf := v }
  | 25 => { y with limit := max 91 (field v 0 13).toNat, slope := (field v 16 13).toNat }
  | 40 => { y with margin := field v 0 32 }
  | 41 => { y with seed := v }
  | 42 => { y with ctr := v }
  | n => if h : 32 ≤ n ∧ n ≤ 39 then { y with dscale := y.dscale.set (n - 32) (field v 0 8) (by omega) } else y

/-! Results in flight (R18, R20, R90). -/

/-- A landing's effect. -/
def Landing.apply (l : Landing) (c : Core) : Core :=
  match l with
  | .x n val ps => { c with r := c.r.setX n ⟨val, ps⟩ }
  | .v n bits tag ps => { c with r := c.r.setV n ⟨bits, tag, ps⟩ }
  | .k n m => { c with r := c.r.setK n m }
  | .p n b => { c with r := c.r.setP n b }
  | .h n val => { c with r := c.r.setH n val }
  | .q n t => { c with r := c.r.setQ n (some t) }
  | .sys sel val => { c with sys := c.sys.write sel val }
  | .unpoison n => { c with r := c.r.setX n ⟨c.x n, false⟩ }
  | .wconf => { c with sys := { c.sys with wconf := true } }

/-- Landings one after another. -/
def applyAll (ls : List Landing) (c : Core) : Core := ls.foldl (fun c l => l.apply c) c

/-- Whether two landings name the same destination (R20). A poison clear names none: the write that stays decides (R20, rule 4). -/
def Landing.same : Landing → Landing → Bool
  | .x a _ _, .x b _ _ => a == b
  | .v a _ _ _, .v b _ _ _ => a == b
  | .k a _, .k b _ => a == b
  | .p a _, .p b _ => a == b
  | .h a _, .h b _ => a == b
  | .q a _, .q b _ => a == b
  | .sys a _, .sys b _ => a == b
  | _, _ => false

/-- The destination a pending bit of which a landing would write (R21). -/
def Landing.pdest : Landing → Option PDest
  | .x r _ _ => some (.x r)
  | .v r _ _ _ => some (.v r)
  | .h r _ => some (.h r)
  | _ => none

/-- Whether the write is STATUS.WCONF's by a conflict, which lands last in its cycle (R27). -/
def Landing.isWconf : Landing → Bool
  | .wconf => true
  | _ => false

/-- Results whose count has run out land, earlier bundles first (R18, R20). -/
def Core.land (c : Core) : Core :=
  let due := (c.pipe.flights.filter (·.count == 0)).map (·.land)
  let rest := c.pipe.flights.filter (·.count != 0)
  applyAll (due.filter (!·.isWconf) ++ due.filter (·.isWconf)) { c with pipe := { c.pipe with flights := rest } }

/-- Every result in flight lands at once, in the order of its landing cycles (R29, step 2). -/
def Core.landAll : Nat → Core → Core
  | 0, c => c.land
  | n + 1, c =>
    let c := c.land
    Core.landAll n { c with pipe := { c.pipe with flights := c.pipe.flights.map (fun f => { f with count := f.count - 1 }) } }

/-- The longest count a result in flight can have (R18). -/
def maxCount : Nat := 18

/-- The counts of results in flight after the current bundle has issued (R10, R18). -/
def Pipe.age (p : Pipe) : Pipe :=
  { p with flights := p.flights.map (fun f => if f.seq == p.seq then f else { f with count := f.count - 1 }), seq := p.seq + 1 }

/-- A flag raised by rule 1 of R20, landing as an MTS of the bundle would (R27). -/
def Pipe.conflict (p : Pipe) (slot : Nat) : Pipe := { p with flights := p.flights ++ [⟨.wconf, 0, p.seq, slot⟩] }

/-- Requests of the current bundle's lower slots without a destination; whether there was one. -/
def Pipe.dropDest (p : Pipe) (slot : Nat) (d : PDest) : Pipe × Bool :=
  let hit := fun (r : Request) => r.seq == p.seq && r.slot < slot && r.dests.contains d
  ({ p with reqs := p.reqs.map (fun r => if hit r then { r with dests := r.dests.filter (· != d) } else r) }, p.reqs.any hit)

/-- A result of the current bundle enters its pipeline to be readable lat issue cycles on (R18); of two slots that name one
destination the lower-ranked one's write is discarded and WCONF set (R20, rule 1). -/
def Pipe.push (p : Pipe) (slot : Nat) (l : Landing) (lat : Nat) : Pipe :=
  let f : Flight := ⟨l, lat - 1, p.seq, slot⟩
  let other := fun (g : Flight) => g.seq == p.seq && g.slot != slot && g.land.same l
  let above := p.flights.any (fun g => other g && slot < g.slot) ||
    (l.pdest.map (fun d => p.reqs.any (fun r => r.seq == p.seq && slot < r.slot && r.dests.contains d))).getD false
  if above then p.conflict slot
  else
    let below := p.flights.any other
    let (q, hit) := (l.pdest.map (p.dropDest slot)).getD (p, false)
    let kept := q.flights.filter (fun g => !other g)
    let q := match l with
      | .unpoison _ => { q with flights := kept.filter (fun g => g.seq != p.seq) ++ [f] ++ kept.filter (fun g => g.seq == p.seq) }
      | _ => { q with flights := kept ++ [f] }
    if below || hit then q.conflict slot else q

/-- A pending request of the current bundle (R21): its pending bits stand from now on for later bundles. -/
def Pipe.pend (p : Pipe) (slot : Nat) (dests : List PDest) (ld : Bool) (sig : Option Nat) (kind : ReqKind) (again : Option Again := none) :
    Pipe :=
  let named := fun (d : PDest) (g : Flight) => g.seq == p.seq && g.slot != slot && g.land.pdest == some d
  let above := fun (d : PDest) => p.flights.any (fun g => named d g && slot < g.slot)
  let below := fun (d : PDest) => p.flights.any (fun g => named d g && g.slot < slot)
  let mine := dests.filter (fun d => !above d)
  let kept := p.flights.filter (fun g => !(mine.any (fun d => named d g)))
  let r : Request := ⟨p.nextReq, p.seq, slot, mine, ld, sig, kind, again⟩
  let q := { p with flights := kept, reqs := p.reqs ++ [r], nextReq := p.nextReq + 1024 }
  if dests.any (fun d => above d || below d) then q.conflict slot else q

/-- The core with a result pushed by the slot at issue. -/
def Core.push (c : Core) (l : Landing) (lat : Nat) : Core := { c with pipe := c.pipe.push c.ctl.slot l lat }

/-- The request of an earlier bundle that a destination's pending bit stands on (R21, R22). -/
def Core.pendOn (c : Core) (d : PDest) : Option Request :=
  if d == .x 0 then none else c.pipe.reqs.find? (fun r => r.seq < c.pipe.seq && r.dests.contains d)

/-- Whether any request of an earlier bundle stands on a register. -/
def Core.anyPend (c : Core) : Bool := c.pipe.reqs.any (fun r => r.seq < c.pipe.seq && !r.dests.isEmpty)

/-- What a request brings when it arrives: the destinations it still names are written, the request is gone. -/
def Core.arrive (c : Core) (r : Request) (ls : List Landing) : Core :=
  let mine := ls.filter (fun l => (l.pdest.map r.dests.contains).getD true)
  applyAll mine { c with pipe := { c.pipe with reqs := c.pipe.reqs.filter (·.num != r.num) } }

/-! Fault records (R340, R341). -/

/-- Fault codes (R340). -/
def illegalBundle : BitVec 8 := 0x01
def illegalOp : BitVec 8 := 0x02
def illegalSlot : BitVec 8 := 0x03
def illegalOperand : BitVec 8 := 0x04
def regAsleep : BitVec 8 := 0x05
def formatMismatch : BitVec 8 := 0x06
def poisonConsumed : BitVec 8 := 0x07
def delaySlotBranch : BitVec 8 := 0x08
def privilege : BitVec 8 := 0x09
def lagOverrun : BitVec 8 := 0x10
def lagZero : BitVec 8 := 0x11
def offRateWrite : BitVec 8 := 0x12
def unwrittenSample : BitVec 8 := 0x13
def handleBound : BitVec 8 := 0x18
def pageFault : BitVec 8 := 0x19
def permission : BitVec 8 := 0x1A
def uncommitted : BitVec 8 := 0x1B
def regionConflict : BitVec 8 := 0x20
def scopeInvalid : BitVec 8 := 0x21
def gateOverflow : BitVec 8 := 0x28
def trapInsn : BitVec 8 := 0x30

/-- A precise fault of a slot with no address. -/
def precise (code : BitVec 8) (slot : Nat) : FaultRec := ⟨code, BitVec.ofNat 3 slot, 0, false, false, 0, 0, 0⟩

/-- A translation fault's DETAIL: its CAUSE, in FAULT_INFO[15:8], zero above (R341). -/
def causeDetail (cause : Nat) : BitVec 20 := BitVec.ofNat 20 cause

/-- A fault of an access: its code, CAUSE, address, whether it writes. -/
def accessFault (code : BitVec 8) (cause slot va : Nat) (wr : Bool) : FaultRec :=
  ⟨code, BitVec.ofNat 3 slot, 0, false, wr, 0, causeDetail cause, BitVec.ofNat 64 (va % 2 ^ 56)⟩

/-- The same fault as a rollback fault (R33, R342). -/
def asRollback (f : FaultRec) : FaultRec := { f with rb := true }

/-- The same fault with an origin: 1 tile operation, 2 engine command, 3 fetch (R341). -/
def withOrigin (f : FaultRec) (o : BitVec 2) : FaultRec := { f with origin := o }

/-- Slots as R341 numbers them. -/
def slotC : Nat := 0
def slotS0 : Nat := 1
def slotS1 : Nat := 2
def slotM : Nat := 3
def slotV0 : Nat := 4
def slotV1 : Nat := 5
def slotX : Nat := 6

end Sys2Proof.Machine
end

