-- ==== Sys2Proof/Machine/Walk.lean ====
section
/-! DEFINITION. Address spaces and translation (R325 to R333): the regions of a virtual address, the walk of the page tables, the core
TLBs, revoking a page. -/

namespace Sys2Proof.Machine

/-- What an access needs of a page (R329): a read, a write, both (ACCW), or a fetch. -/
structure Need where
  r : Bool
  w : Bool
  x : Bool
  deriving DecidableEq, Repr

def Need.read : Need := ⟨true, false, false⟩
def Need.write : Need := ⟨false, true, false⟩
def Need.both : Need := ⟨true, true, false⟩
def Need.fetch : Need := ⟨false, false, true⟩

/-- A page as a walk finds it: virtual base, size code, physical address, the sparse bit, pool and rights (R328). -/
structure Page where
  base : Nat
  size : Nat
  pa : Nat
  sparse : Bool
  pool : Nat
  r : Bool
  w : Bool
  x : Bool
  deriving DecidableEq, Repr

/-- The outcome of a walk (R329): a page, or a code with its CAUSE; an uncommitted leaf gives its SIZE and POOL too (R338). -/
inductive WalkRes where
  | page (p : Page)
  | fail (code : BitVec 8) (cause : Nat)
  | uncommitted (p : Page)
  deriving DecidableEq, Repr

/-- A page's bytes: 4 KiB × 4^k (R327). -/
def pageBytes (k : Nat) : Nat := 4096 * 4 ^ k

/-- The bytes one leaf of a level covers (R327). -/
def levelBytes (lv : Nat) : Nat := 4096 * 512 ^ (lv - 1)

/-- Whether a size code is allowed for leaves of a level (R327). -/
def sizeOk (lv k : Nat) : Bool :=
  match lv with
  | 1 => k ≤ 4
  | 2 => 5 ≤ k && k ≤ 8
  | 3 => k == 9
  | _ => false

/-- Fields of a table entry (R328). -/
def entAddr (e : Nat) : Nat := natBits e 12 40 * 4096
def entSize (e : Nat) : Nat := natBits e 8 4
def entPool (e : Nat) : Nat := natBits e 52 6
def entBit (e i : Nat) : Bool := e.testBit i

/-- Nonzero reserved bits: [63:58], [7:6], POOL outside SPARSE leaves, SIZE of a table (R328). -/
def entReserved (e : Nat) : Bool :=
  natBits e 58 6 != 0 || natBits e 6 2 != 0 || (!(entBit e 5) && entPool e != 0) || (!(entBit e 1) && entSize e != 0)

/-- The run of leaves that makes the page of leaf e at index i of the table at tbl: whether its entries agree and step as R327 asks
(ADDR counts for valid leaves), with the page's physical address. -/
def runOf (m : Memory) (tbl lv i e : Nat) : Option Nat :=
  let k := entSize e
  let n := pageBytes k / levelBytes lv
  let first := i / n * n
  let mask := 2 ^ 64 - 1 - natBits (2 ^ 64 - 1) 12 40 * 4096
  let ents := (List.range n).map (fun j => m.readNat (tbl + 8 * (first + j)) 8)
  let a0 := entAddr (ents.headD 0)
  let addrs := (List.range n).map (fun j => a0 + j * levelBytes lv)
  let same := ents.all (fun x => x &&& mask == e &&& mask)
  let stepped := !(entBit e 0) || (ents.map entAddr == addrs && a0 % pageBytes k == 0)
  if same && stepped then some a0 else none

/-- The walk from the table of a level at physical address tbl (R327, R329): the first outcome of the table that applies. An entry that is
neither valid nor a leaf names no table, at level 1 as elsewhere (log 66). -/
def walkFrom (m : Memory) (va : Nat) (need : Need) : Nat → Nat → WalkRes
  | 0, _ => .fail pageFault 2
  | lv + 1, tbl =>
    let i := natBits va (12 + 9 * lv) 9
    let i := if lv == 4 then natBits va 48 8 else i
    let e := m.readNat (tbl + 8 * i) 8
    let valid := entBit e 0
    let sparse := entBit e 5
    let leaf := entBit e 1
    if entReserved e || (sparse && lv != 0) then .fail pageFault 2
    else if !leaf then
      (if !valid && !sparse then .fail pageFault 1 else if lv == 0 then .fail pageFault 2 else walkFrom m va need lv (entAddr e))
    else if !(sizeOk (lv + 1) (entSize e)) then .fail pageFault 2
    else
      match runOf m tbl (lv + 1) i e with
      | none => .fail pageFault 2
      | some pa =>
        let k := entSize e
        let p : Page := ⟨va / pageBytes k * pageBytes k, k, pa, sparse, entPool e, entBit e 2, entBit e 3, entBit e 4⟩
        if !valid then (if need.x || !sparse then .fail pageFault 1 else .uncommitted p)
        else if need.r && !p.r then .fail permission 3
        else if need.w && !p.w then .fail permission 4
        else if need.x && !p.x then .fail permission 5
        else .page p

/-- The first address of the bed window, the first above it, and the first above context memory (R325). -/
def windowBase : Nat := 0x00FF000000000000
def windowEnd : Nat := 0x00FF000070000000

/-- Where a virtual address of the bed window points: the core and the offset (R326). -/
def windowOf (va : Nat) : Option (Nat × Nat) :=
  if windowBase ≤ va ∧ va < windowEnd then some ((va - windowBase) / 2 ^ 21, (va - windowBase) % 2 ^ 21) else none

/-- The cluster control blocks as plinth firmware reaches them (R437): the virtual page, and the model's name for its physical page, above
every address a leaf can hold. -/
def clPageVa : Nat := 0x00FE000000010000
def clPagePa : Nat := 2 ^ 52

/-- The model's name for the physical page of the collective port (R409, log 41). -/
def portPa : Nat := 2 ^ 53

/-- The lines of device memory that a run of bytes touches, by their numbers (R280); the two pages above hold none. -/
def memLines (pa n : Nat) : List Nat :=
  if pa ≥ clPagePa then [] else (List.range ((pa + n - 1) / 64 - pa / 64 + 1)).map (fun i => pa / 64 + i)

/-- The channel of the collective port that a context's address names (R409). -/
def State.portChannel (s : State) (asid va : Nat) : Option Nat :=
  if s.fabric.ports.contains (asid, va / 4096) && va % 64 == 0 then some (va % 4096 / 64) else none

/-! Encryption (R398). -/

/-- The key under which an access of a context at an address reaches device memory: none in its bounce window, nor for the plinth. -/
def State.keyAt (s : State) (asid va : Nat) : Option Nat :=
  (s.ctx asid).bind (fun c => if c.bounceBase ≤ va ∧ va < c.bounceBase + c.bounceSize then none else some c.key)

/-- The key of a context; none for the plinth. -/
def State.keyOf (s : State) (asid : Nat) : Option Nat := (s.ctx asid).map (·.key)

/-- The bytes of a line that stands under a key as an access under another finds them. -/
def State.scrambled (s : State) (key : Option Nat) (e : Nat × Nat) : List Byte :=
  (List.range 64).map (Config.deciphered e.2 (key.getD 0) e.1 (s.mem.read (64 * e.1) 64))

/-- Device memory as an access under a key reads it (R398). -/
def State.memAs (s : State) (key : Option Nat) : Memory :=
  (s.sealed.filter (fun e => key != some e.2)).foldl (fun m e => m.write (64 * e.1) (s.scrambled key e)) s.mem

/-- A line taken over by a write under a key: what stood under another is read under this one first, and the whole line stands under it. -/
def State.sealLine (s : State) (key : Option Nat) (line : Nat) : State :=
  let sealed := match key with
    | some k => assocSet s.sealed line k
    | none => assocDel s.sealed line
  match lookup s.sealed line with
  | some k => if key == some k then s else { s with mem := s.mem.write (64 * line) (s.scrambled key (line, k)), sealed := sealed }
  | none => if key.isNone then s else { s with sealed := sealed }

/-- The lines of a run of bytes taken over by a write under a key. -/
def State.seal (s : State) (key : Option Nat) (pa n : Nat) : State := (memLines pa n).foldl (·.sealLine key) s

/-! The fabric (R406, R407). -/

/-- The package whose memory a fabric address names (R406). -/
def fabricOwner (pa : Nat) : Option Nat := if pa.testBit 51 then some (natBits pa 42 9) else none

/-- A fabric address of this package's own number names its own memory (R406). Any other address is held as one of its own bytes, one past the
package's memory of R1 too (log 41). -/
def State.localPa (s : State) (pa : Nat) : Nat := if fabricOwner pa == some s.fabric.pkg then pa % 2 ^ 42 else pa

/-- Whether a package belongs to a context's trust domain (R399, R407): those of the groups the context is bound to (log 41). -/
def State.trusts (s : State) (asid p : Nat) : Bool := s.fabric.bindings.any (fun b => b.asid == asid && b.members.contains p)

/-- Why an access to a fabric address fails (R407): its owner lies outside the trust domain, or no live path reaches it. -/
def State.fabricFail (s : State) (asid pa : Nat) (need : Need) : Option (BitVec 8 × Nat) :=
  match fabricOwner pa with
  | none => none
  | some p =>
    if p == s.fabric.pkg || !(need.r || need.w || need.x) then none
    else if !(s.trusts asid p) then some (permission, if need.r then 3 else if need.w then 4 else 5)
    else if s.fabric.links.isEmpty || s.fabric.lost.contains p then some (pageFault, 1)
    else none

/-- A walk's page as an access of the package reaches it (R406, R407). -/
def State.onFabric (s : State) (asid : Nat) (need : Need) (r : WalkRes) : WalkRes :=
  match r with
  | .page p => match s.fabricFail asid p.pa need with
    | some (code, cause) => .fail code cause
    | none => .page { p with pa := s.localPa p.pa }
  | r => r

/-- A walk in the space of an ASID (R325, R327, R437): above context memory nothing is mapped. -/
def State.walk (s : State) (asid va : Nat) (need : Need) : WalkRes :=
  if va ≥ windowBase then .fail pageFault 1
  else if asid == 0 && va / 4096 == clPageVa / 4096 then
    (if need.x then .fail permission 5 else .page ⟨clPageVa, 0, clPagePa, false, 0, true, true, false⟩)
  else if s.fabric.ports.contains (asid, va / 4096) then
    (if need.x then .fail permission 5 else .page ⟨va / 4096 * 4096, 0, portPa, false, 0, true, true, false⟩)
  else match s.ctx asid with
    | none => .fail pageFault 1
    | some c => s.onFabric asid need (walkFrom s.mem va need 5 c.root)

/-- The physical address of a virtual address in a page. -/
def Page.phys (p : Page) (va : Nat) : Nat := p.pa + (va - p.base)

/-- The code and CAUSE of a failed walk, none for a page. -/
def WalkRes.code : WalkRes → Option (BitVec 8 × Nat)
  | .page _ => none
  | .fail c k => some (c, k)
  | .uncommitted _ => some (Sys2Proof.Machine.uncommitted, 0)

/-- The translation of an access of an ASID by a walk: a physical address, or the code and CAUSE. -/
def State.translate (s : State) (asid va : Nat) (need : Need) : Except (BitVec 8 × Nat) Nat :=
  match s.walk asid va need with
  | .page p => .ok (p.phys va)
  | .fail c k => .error (c, k)
  | .uncommitted _ => .error (uncommitted, 0)

/-- A walk that asks for no right: what XLAT records (R330, R334). -/
def State.walkAny (s : State) (asid va : Nat) : WalkRes := s.walk asid va ⟨false, false, false⟩

/-! TLBs (R331). -/

/-- Whether a TLB entry covers an address of an ASID. -/
def TlbEnt.covers (e : TlbEnt) (asid va : Nat) : Bool := e.asid == asid && va / pageBytes e.size * pageBytes e.size == e.base

/-- The TLB entry of a page. -/
def Page.tlb (p : Page) (asid : Nat) : TlbEnt := ⟨asid, p.base, p.size, p.pa, p.r, p.w⟩

/-- Whether a VALID handle of the core uses an entry (R331). -/
def Core.pins (c : Core) (e : TlbEnt) : Bool :=
  let uses := fun (h : Handle) => h.st == .valid && h.base == e.base && h.size == e.size
  c.asid == e.asid && (c.r.h.toList.any uses ||
    c.pipe.flights.any (fun f => match f.land with
      | .h _ h => uses h
      | _ => false))

/-- The entry that covers an address, used now: it stands most recently used. -/
def Core.tlbHit (c : Core) (asid va : Nat) : Option (TlbEnt × Core) :=
  match c.mem.tlb.find? (·.covers asid va) with
  | none => none
  | some e => some (e, { c with mem := { c.mem with tlb := c.mem.tlb.filter (· != e) ++ [e] } })

/-- An entry filled: at 64 the least recently used one that no handle uses is replaced; with none such nothing is filled (R331). -/
def Core.tlbFill (c : Core) (e : TlbEnt) : Core :=
  let old := c.mem.tlb.filter (fun t => !(t.asid == e.asid && t.base == e.base && t.size == e.size))
  if old.length < 64 then { c with mem := { c.mem with tlb := old ++ [e] } }
  else match old.find? (fun t => !(c.pins t)) with
    | none => c
    | some v => { c with mem := { c.mem with tlb := old.filter (· != v) ++ [e] } }

/-- The handle that a TLB entry makes VALID. -/
def TlbEnt.handle (e : TlbEnt) (ah : Word) : Handle := ⟨.valid, ah, e.base, e.size, e.pa, e.r, e.w, 0, 0⟩

/-- The lookup of a miss (R331): the cluster neighbours' TLBs, then the walk. Answers the handle, and the entry to fill. -/
def State.resolve (s : State) (c : Core) (ah : Word) : Handle × Option TlbEnt :=
  let va := ah.toNat
  let near := s.cores.filter (fun d => d.id != c.id && clusterOf d.id == clusterOf c.id)
  match near.findSome? (fun d => d.mem.tlb.find? (·.covers c.asid va)) with
  | some e => (e.handle ah, some e)
  | none =>
    match s.walkAny c.asid va with
    | .page p => ((p.tlb c.asid).handle ah, some (p.tlb c.asid))
    | .fail code cause => (⟨.stale, ah, 0, 0, 0, false, false, code, cause⟩, none)
    | .uncommitted p => (⟨.stale, ah, p.base, p.size, 0, false, false, uncommitted, 0⟩, none)

/-- A STALE handle walked again at an access (R330): the core with the handle VALID, or STALE with the new code. -/
def State.rewalk (s : State) (c : Core) (n : BitVec 4) : Core × Handle :=
  let (h, e) := s.resolve c (c.h n).ah
  let c := match e with
    | none => c
    | some e => c.tlbFill e
  ({ c with r := c.r.setH n h }, h)

/-- A handle that a lost page makes STALE (R330, R332): reason 0x00. -/
def Handle.revoked (h : Handle) (base bytes : Nat) : Handle :=
  if h.st == .valid && h.base < base + bytes && base < h.base + pageBytes h.size then { h with st := .stale, code := 0, cause := 0 } else h

/-- A handle as a rollback or a resumption restores it (R330): a VALID one is STALE, reason 0x00; a STALE one keeps the code of its last
walk, and a PENDING one waits on. -/
def Handle.restored (h : Handle) : Handle := if h.st == .valid then { h with st := .stale, code := 0, cause := 0 } else h

/-- A result in flight whose handle loses its page. -/
def Flight.revoked (f : Flight) (base bytes : Nat) : Flight :=
  match f.land with
  | .h n h => { f with land := .h n (h.revoked base bytes) }
  | _ => f

/-- A gated store to a range of pages that a context loses: it is walked again before it is performed (R332, R354). -/
def GateEnt.revoked (g : GateEnt) (base bytes : Nat) : GateEnt :=
  match g.op with
  | .store va runs =>
    let n := (runs.map (·.2.length)).sum
    if va < base + bytes && base < va + n then { g with stale := true } else g
  | _ => g

/-- A core that loses a range of a context's pages (R332): TLB entries gone, handles STALE, gated stores marked. -/
def Core.revoke (asid base bytes : Nat) (c : Core) : Core :=
  let hit := fun (e : TlbEnt) => e.asid == asid && e.base < base + bytes && base < e.base + pageBytes e.size
  let c := { c with mem := { c.mem with tlb := c.mem.tlb.filter (fun e => !(hit e)) } }
  if c.asid == asid then
    { c with r := { c.r with h := c.r.h.map (·.revoked base bytes) },
             rg := { c.rg with gate := c.rg.gate.map (·.revoked base bytes) },
             pipe := { c.pipe with flights := c.pipe.flights.map (·.revoked base bytes),
                                   trapBuf := c.pipe.trapBuf.map (·.revoked base bytes) } }
  else c

/-- An invalidation of a range of a context's pages on every core, running or saved (R332). -/
def State.revoke (s : State) (asid base bytes : Nat) : State :=
  { s with core := s.core.revoke asid base bytes, others := s.others.map (fun e => (e.1, e.2.revoke asid base bytes)),
           disp := { s.disp with images := s.disp.images.map (fun i => { i with core := i.core.revoke asid base bytes }) } }

/-- A bundle's 32 bytes by an instruction fetch (R331, R348): the bytes, or the code and CAUSE (an uncommitted page reads as
PAGE_FAULT, CAUSE 1). -/
def State.fetch (s : State) (asid pc : Nat) : Except (BitVec 8 × Nat) BundleBits :=
  match s.translate asid pc .fetch with
  | .ok pa => .ok (bundleOfBytes ((s.memAs (s.keyOf asid)).read pa 32))
  | .error e => .error e

end Sys2Proof.Machine
end

