-- ==== Sys2Proof/Machine/Order.lean ====
section
/-! DEFINITION. The memory model's state (R275 to R287): agents, scopes, regions, access tags, releases. Releases only widen what a
row records. A line's entries are held as one list, whether its tag names them or the overflow table; the tag word of R280 is read off
them. -/

namespace Sys2Proof.Machine

/-- Scopes (R282). -/
def scopeCore : Nat := 0
def scopeGang : Nat := 1
def scopeCluster : Nat := 2
def scopeStage : Nat := 3
def scopeDie : Nat := 4
def scopePackage : Nat := 5
def scopeQuarry : Nat := 6
def scopeHost : Nat := 7
def scopeDomain : Nat := 8
def scopeGroup : Nat := 9
def scopeContext : Nat := 10
def scopeSystem : Nat := 11

/-- The scopes a scope lies within, itself first (R283). -/
def scopeUp (n : Nat) : List Nat :=
  match n with
  | 0 => [0, 1, 2, 3, 4, 5, 6, 7, 8, 9, 10, 11]
  | 1 => [1, 2, 3, 4, 5, 6, 7, 8, 9, 10, 11]
  | 2 => [2, 3, 4, 5, 6, 7, 8, 9, 10, 11]
  | 3 => [3, 5, 6, 7, 8, 9, 10, 11]
  | 4 => [4, 5, 6, 7, 8, 9, 10, 11]
  | 5 => [5, 6, 7, 8, 9, 10, 11]
  | 6 => [6, 7, 8, 10, 11]
  | 7 => [7, 8, 10, 11]
  | 8 => [8, 10, 11]
  | 9 => [9, 8, 10, 11]
  | 10 => [10, 11]
  | _ => [11]

/-- The containment of scopes (R283). -/
def scopeWithin (a b : Nat) : Bool := (scopeUp a).contains b

/-- The smallest scope that contains both (R283). -/
def scopeJoin (a b : Nat) : Nat :=
  let common := (scopeUp a).filter (fun c => (scopeUp b).contains c)
  (common.find? (fun c => common.all (fun d => scopeWithin c d))).getD scopeSystem

/-- The join with a scope that may be empty (R286). -/
def scopeJoin? (a : Option Nat) (b : Nat) : Nat :=
  match a with
  | none => b
  | some a => scopeJoin a b

/-- Whether a release at a scope by one agent contains another (R282). -/
def scopeContains (scope : Nat) (r a : AgentAt) : Bool :=
  if scope == scopeSystem then true
  else if a.fam.asid != r.fam.asid then false
  else match scope with
    | 0 => a.fam == r.fam && a.core == r.core
    | 1 => a.fam == r.fam && (a.fam.key ≥ 2 ^ 60 || a.core == r.core)
    | 2 => clusterOf a.core == clusterOf r.core
    | 3 => clusterOf a.core == clusterOf r.core || (a.launch == r.launch && a.stage == r.stage)
    | 4 => dieOf a.core == dieOf r.core
    | _ => true

/-- The family of a unit (R275). -/
def UnitInfo.family (u : UnitInfo) : Family :=
  if u.gang then ⟨u.asid, 2 ^ 60 + u.launch * 256 + u.stage⟩ else ⟨u.asid, u.frame⟩

/-- The agent a core's unit is. -/
def State.agentOf (s : State) (c : Core) : AgentAt :=
  match c.unit with
  | none => ⟨⟨0, 2 ^ 59 + c.id⟩, 0, 0, c.id, 0⟩
  | some u => ⟨u.family, u.launch, u.stage, c.id, ((s.ctx u.asid).map (·.fn)).getD 0⟩

/-- The key of a line of a bed; a line of device memory goes by its physical address (R280). -/
def bedLine (core off : Nat) : Nat := 2 ^ 50 + (core * 2 ^ 21 + off) / 64

/-- The keys of the lines a run of bytes touches. -/
def bedLines (core off n : Nat) : List Nat := (List.range ((off + n - 1) / 64 - off / 64 + 1)).map (fun i => bedLine core (off / 64 * 64) + i)

/-! Writes of device memory. -/

/-- The marks left after a write: a line wholly written loses its mark. -/
def clearLines (l : List Nat) (a n : Nat) : List Nat := l.filter (fun p => !(decide (a ≤ p * 64 ∧ p * 64 + 64 ≤ a + n)))

/-- Device memory written. -/
def State.writeMem (s : State) (pa : Nat) (bs : List Byte) : State :=
  { s with mem := s.mem.write pa bs, poisoned := clearLines s.poisoned pa bs.length }

/-- Device memory written by an access of a context at a virtual address (R398). -/
def State.storeAt (s : State) (asid va pa : Nat) (bs : List Byte) : State := (s.seal (s.keyAt asid va) pa bs.length).writeMem pa bs

/-- A range of virtual addresses written through its physical runs. -/
def State.storeRuns (s : State) (asid va : Nat) (rs : List (Nat × List Byte)) : State :=
  (rs.foldl (fun (e : State × Nat) r => (e.1.storeAt asid e.2 r.1 r.2, e.2 + r.2.length)) (s, va)).1

/-! Regions. -/

/-- The row of a region stamp. -/
def State.region (s : State) (id : Nat) : Option Region := s.regions.find? (·.id == id)

/-- A new region of an agent, at a gang's tick, of a command or of the unit (R276). -/
def State.openRegion (s : State) (a : AgentAt) (tick : Nat) (cmd : Bool) : State × Nat :=
  ({ s with regions := s.regions ++ [⟨s.nextRegion, a, tick, cmd, false, none⟩], nextRegion := s.nextRegion + 1 }, s.nextRegion)

/-- Whether a region is open toward an agent (R287). -/
def Region.openToward (r : Region) (a : AgentAt) : Bool :=
  !r.closed || !((r.scope.map (fun sc => scopeContains sc r.by_ a)).getD false)

/-- Whether two kinds of access on one line conflict: a plain write with anything, a plain access with an accumulating one (R277). -/
def kindsConflict : AccKind → AccKind → Bool
  | .write, _ => true
  | _, .write => true
  | .read, .acc => true
  | .acc, .read => true
  | .read, .read => false
  | .acc, .acc => false

/-- Whether an access of a kind by an agent conflicts with what a line's tag holds (R277). -/
def State.lineConflict (s : State) (a : AgentAt) (line : Nat) (kind : AccKind) : Bool :=
  ((lookup s.tags line).getD []).any (fun t =>
    kindsConflict t.kind kind &&
      ((s.region t.region).map (fun r => r.by_.fam != a.fam && r.openToward a)).getD false)

/-! Holders and the tag word (R280, R281). -/

/-- The holder of a line: a core's bed, or a bank of the home caches (R281). -/
def holderOf (line : Nat) : Nat := if line < 2 ^ 50 then 1024 + Config.homeBank line else (line - 2 ^ 50) / 32768

/-- The regions named in a holder, oldest first: those with an entry on a line of its. -/
def State.namedIn (s : State) (h : Nat) : List Nat :=
  (s.regions.filter (fun r => s.tags.any (fun e => holderOf e.1 == h && e.2.any (·.region == r.id)))).map (·.id)

/-- The row of a region in a holder's table of 256; none while it has no row (R281). While fewer regions than rows exist, each has one. -/
def State.rowOf (s : State) (h rid : Nat) : Option Nat :=
  let rows := if s.regions.length ≤ 256 then s.regions.map (·.id) else (s.namedIn h).take 256
  rows.findIdx? (· == rid)

/-- Whether entries need a record of the overflow table: a fourth, or one without a row (R281). -/
def State.spills (s : State) (line : Nat) (es : List TagEnt) : Bool :=
  decide (es.length ≥ 4) || (decide (s.regions.length > 256) && es.any (fun t => (s.rowOf (holderOf line) t.region).isNone))

/-- The lines whose entries stand in the overflow table. -/
def State.records (s : State) : List Nat := (s.tags.filter (fun e => s.spills e.1 e.2)).map (·.1)

/-- A kind as a tag names it. -/
def AccKind.code : AccKind → BitVec 2
  | .read => 1
  | .write => 2
  | .acc => 3

/-- A line's 32-bit access tag (R280). -/
def State.tagWord (s : State) (line : Nat) : BitVec 32 :=
  let es := (lookup s.tags line).getD []
  let ent := fun (i : Nat) => match es[i]? with
    | none => (0 : BitVec 10)
    | some t => t.kind.code ++ BitVec.ofNat 8 ((s.rowOf (holderOf line) t.region).getD 0)
  if es.isEmpty then 0
  else if !(s.spills line es) then 1#2 ++ ent 2 ++ ent 1 ++ ent 0
  else if decide (es.length > 3) && (es.all (·.kind == .read) || es.all (·.kind == .acc)) then
    2#2 ++ (if es.all (·.kind == .acc) then 1#1 else 0#1) ++ BitVec.ofNat 29 es.length
  else 3#2 ++ BitVec.ofNat 30 ((s.records.findIdx? (· == line)).getD 0)

/-- Whether entries of a line are more than a record holds, or need a record and none is free (R281). -/
def State.noRoom (s : State) (line : Nat) (es : List TagEnt) : Bool :=
  decide (es.length > 64) || (s.spills line es && !(s.records.contains line) && decide (s.records.length ≥ Config.overflowRecords))

/-- Entries without those released to CONTEXT, which no agent of their context meets: they make room where there is none (log 71). -/
def State.living (s : State) (es : List TagEnt) : List TagEnt :=
  es.filter (fun t => ((s.region t.region).map (·.scope != some scopeContext)).getD false)

/-- Whether an entry more finds no room on a line: the access stalls (R281). -/
def State.lineFull (s : State) (rid line : Nat) (kind : AccKind) : Bool :=
  let es := (lookup s.tags line).getD []
  !(es.contains ⟨rid, kind⟩) && s.noRoom line (es ++ [⟨rid, kind⟩]) && s.noRoom line (s.living es ++ [⟨rid, kind⟩])

/-- The entry made (R278, R280). -/
def State.tagLine (s : State) (rid line : Nat) (kind : AccKind) : State :=
  let es := (lookup s.tags line).getD []
  let kept := if s.noRoom line (es ++ [⟨rid, kind⟩]) then s.living es else es
  if es.contains ⟨rid, kind⟩ then s else { s with tags := assocSet s.tags line (kept ++ [⟨rid, kind⟩]) }

/-- How the check of an access ends (R278, R281). -/
inductive TagRes where
  | ok (s : State)
  | conflict
  | full
  deriving DecidableEq, Repr

/-- The check of an access of a region on some lines (R278); region 0 carries no tags. -/
def State.tagAccess (s : State) (rid : Nat) (lines : List Nat) (kind : AccKind) : TagRes :=
  match s.region rid with
  | none => .ok s
  | some r =>
    if lines.any (fun l => s.lineConflict r.by_ l kind) then .conflict
    else if lines.any (fun l => s.lineFull rid l kind) then .full
    else .ok (lines.foldl (fun s l => s.tagLine rid l kind) s)

/-- Rows that need not be kept: released to SYSTEM, with their entries, or closed and named by no tag (R286). -/
def State.sweep (s : State) : State :=
  let dead := (s.regions.filter (·.scope == some scopeSystem)).map (·.id)
  let tags := (s.tags.map (fun e => (e.1, e.2.filter (fun t => !(dead.contains t.region))))).filter (fun e => !e.2.isEmpty)
  let named := fun (r : Region) => tags.any (fun e => e.2.any (fun t => t.region == r.id))
  { s with tags := tags, regions := s.regions.filter (fun r => !(dead.contains r.id) && (!r.closed || named r)) }

/-- A region closed without a release (R286). -/
def State.closeRegion (s : State) (rid : Nat) : State :=
  State.sweep { s with regions := s.regions.map (fun r => if r.id == rid then { r with closed := true } else r) }

/-- A release at a scope of a family: the closed regions of its agents and of its completed commands (R284, R286). -/
def State.release (s : State) (f : Family) (scope : Nat) : State :=
  State.sweep { s with regions := s.regions.map (fun r =>
      if r.by_.fam == f && r.closed then { r with scope := some (scopeJoin? r.scope scope) } else r) }

/-- The end of a unit: a release at CONTEXT of everything its family did (R285, R287). -/
def State.endFamily (s : State) (f : Family) : State :=
  State.sweep { s with regions := s.regions.map (fun r =>
      if r.by_.fam == f then { r with closed := true, scope := some (scopeJoin? r.scope scopeContext) } else r) }

/-- A family's entries removed (R294: a squash). -/
def State.dropFamilyTags (s : State) (f : Family) : State :=
  let ids := (s.regions.filter (·.by_.fam == f)).map (·.id)
  State.sweep { s with tags := s.tags.map (fun e => (e.1, e.2.filter (fun t => !(ids.contains t.region)))) }

/-- The entries of the regions that a gang opened at or after a tick removed (R176, R294). -/
def State.dropTicks (s : State) (f : Family) (tick : Nat) : State :=
  let ids := (s.regions.filter (fun r => r.by_.fam == f && tick ≤ r.tick)).map (·.id)
  State.sweep { s with tags := s.tags.map (fun e => (e.1, e.2.filter (fun t => !(ids.contains t.region)))) }

/-- The entries of completed commands on some lines removed: their next user acquires from those completions (R293). -/
def State.dropDone (s : State) (lo n : Nat) : State :=
  let ids := (s.regions.filter (fun r => r.cmd && r.closed)).map (·.id)
  let away := fun (l : Nat) => lo ≤ l && l < lo + n
  State.sweep { s with tags := s.tags.map (fun e => if away e.1 then (e.1, e.2.filter (fun t => !(ids.contains t.region))) else e) }

/-- The entries of some lines discarded (R339). -/
def State.dropLines (s : State) (lo n : Nat) : State :=
  State.sweep { s with tags := s.tags.filter (fun e => e.1 < lo || lo + n ≤ e.1) }

/-- The core that keeps what the unit in focus has as one agent: a gang's lead (R275). -/
def Core.lead (c : Core) : Nat :=
  match c.unit with
  | none => c.id
  | some u => if u.gang then u.first else c.id

/-- The unit in focus as an agent: a gang is one, named by its lead's core (R275). -/
def State.unitAgent (s : State) : AgentAt := { s.agentOf s.core with core := s.core.lead }

/-- The region of the unit in focus, one for all members of a gang, opened at its first tagged access (R275, R276); none for a handler or
firmware (R343). -/
def State.unitRegion (s : State) : State × Nat :=
  if s.core.sys.intrap || s.core.unit.isNone then (s, 0)
  else
    let k := s.coreOf s.core.lead
    if k.rg.id != 0 then (s, k.rg.id)
    else
      let (t, id) := s.openRegion s.unitAgent s.core.sys.tick.toNat false
      (t.modCore s.core.lead (fun c => { c with rg := { c.rg with id := id } }), id)

/-- An access of the unit in focus checked and tagged (R278). -/
def State.unitTag (s : State) (lines : List Nat) (kind : AccKind) : TagRes :=
  let (t, id) := s.unitRegion
  t.tagAccess id lines kind

/-- The release of one closed region of a command (R284, R285). -/
def State.releaseRegion (s : State) (rid scope : Nat) : State :=
  State.sweep { s with regions := s.regions.map (fun r => if r.id == rid then { r with scope := some (scopeJoin? r.scope scope) } else r) }

/-- A command's region for a write performed at its confirmation: its row again where it has been freed (R294). -/
def State.regionAgain (s : State) (a : AgentAt) (tick rid : Nat) : State × Nat :=
  if rid == 0 then s.openRegion a tick false
  else if (s.region rid).isSome then (s, rid)
  else ({ s with regions := s.regions ++ [⟨rid, a, tick, true, true, none⟩] }, rid)

/-- The region of the unit in focus closed, by whichever member: the next access of any member opens another (R276). -/
def State.unitClose (s : State) : State :=
  let id := (s.coreOf s.core.lead).rg.id
  if id == 0 then s
  else (s.closeRegion id).modCore s.core.lead (fun c => { c with rg := { c.rg with id := 0 } })

end Sys2Proof.Machine
end

