-- ==== Sys2Proof/Machine/Frames.lean ====
section
/-! DEFINITION. Frames, continuation records and ready queues (R261 to R272): the frame arena, joining, enqueueing and picking. -/

namespace Sys2Proof.Machine

/-- A frame word that keeps R264: its size. -/
def frameWord (w : Nat) : Option Nat :=
  if w < 2 ^ 32 ∧ w % 128 = 0 ∧ 128 ≤ w ∧ w ≤ 0x100000 then some w else none

/-- The frame of a context with a pointer. -/
def State.frame (s : State) (asid ptr : Nat) : Option Frame := s.disp.frames.find? (fun f => f.asid == asid && f.ptr == ptr)

/-- A continuation record's words (R261). -/
def Rec.words (r : Rec) : List Word :=
  [BitVec.ofNat 16 r.asid ++ field r.resume 0 48,
   0#6 ++ boolW 1 r.reissue ++ boolW 1 r.prov ++ BitVec.ofNat 4 r.place ++ BitVec.ofNat 4 r.prio ++ BitVec.ofNat 48 r.frame] ++ r.carry

/-- The words of a frame's header (R263): w0 to w7, and RECORD while it holds one. -/
def Frame.header (f : Frame) : List Word :=
  [BitVec.ofNat 64 (f.count % 2 ^ 32 + (if f.waiting then 2 ^ 32 else 0) + (if f.parked.isSome then 2 ^ 33 else 0)),
   BitVec.ofNat 64 f.parent, BitVec.ofNat 64 f.size, BitVec.ofNat 64 f.spd, 0, 0, 0, 0] ++ ((f.parked.map Rec.words).getD [])

/-- Words at the head of a frame written by the sync engine through the context's tables (R263); nothing where they map no page (log 47). -/
def State.writeHeader (s : State) (asid ptr : Nat) (ws : List Word) : State :=
  match s.translate asid ptr .write with
  | .ok pa => s.storeAt asid ptr pa (ws.flatMap (fun w => bytesOf w 8))
  | .error _ => s

/-- A frame's header as it stands now written. -/
def State.syncHeader (s : State) (asid ptr : Nat) : State :=
  match s.frame asid ptr with
  | none => s
  | some f => s.writeHeader asid ptr f.header

/-- A frame changed, its header with it. -/
def State.modFrame (s : State) (asid ptr : Nat) (g : Frame → Frame) : State :=
  ({ s with disp := { s.disp with frames := s.disp.frames.map (fun f => if f.asid == asid && f.ptr == ptr then g f else f) } } : State).syncHeader
    asid ptr

/-- Whether a frame of some size fits at a pointer of the context's arena (R264). -/
def State.frameFits (s : State) (c : Ctx) (ptr size : Nat) : Bool :=
  ptr % 128 == 0 && c.frameBase ≤ ptr && ptr + size ≤ c.frameBase + c.frameSize &&
    s.disp.frames.all (fun f => f.asid != c.asid || f.ptr + f.size ≤ ptr || ptr + size ≤ f.ptr)

/-- Where a new frame is put: the part's own choice when that place is free, else the lowest free place; none while the arena has
no room (R265; log 4). -/
def State.framePlace (s : State) (c : Ctx) (size : Nat) : Option Nat :=
  let wish := Config.framePlace s.free
  if s.frameFits c wish size then some wish
  else
    let ends := (s.disp.frames.filter (·.asid == c.asid)).map (fun f => f.ptr + f.size)
    ((c.frameBase :: ends).filter (fun p => s.frameFits c p size)).min?

/-- Whether the arena has room for a frame. -/
def State.frameRoom (s : State) (c : Ctx) (size : Nat) : Bool := (s.framePlace c size).isSome

/-- A frame made (R265): COUNT 0, PARENT, SIZE, the rest of its header zero. -/
def State.newFrame (s : State) (c : Ctx) (size parent : Nat) : Option (State × Nat) :=
  (s.framePlace c size).map (fun p =>
    let f : Frame := ⟨c.asid, p, size, parent, 0, false, none, 0, 0, false⟩
    (({ s with disp := { s.disp with frames := s.disp.frames ++ [f] }, free := s.free + 1 } : State).writeHeader c.asid p
      (f.header ++ List.replicate 8 0), p))

/-- The frame word at a task entry's address − 8, read through the context's tables in memory as the reader sees it (R264). -/
def State.readFrameWord (s : State) (m : Memory) (asid entry : Nat) : Except (BitVec 8 × Nat) Nat :=
  let va := (entry + 2 ^ 56 - 8) % 2 ^ 56
  match s.translate asid va .read with
  | .ok pa => .ok (m.readNat pa 8)
  | .error e => .error e

/-- Whether a range of virtual addresses touches the header of a frame (R263). -/
def State.touchesHeader (s : State) (asid va n : Nat) : Bool :=
  s.disp.frames.any (fun f => f.asid == asid && va < f.ptr + 128 && f.ptr < va + n)

/-! Ready queues (R271). -/

/-- The queue a placement class names for a core's cluster and die (R271). -/
def domainAt (place core : Nat) : Domain :=
  match place with
  | 0 => .cluster (clusterOf core)
  | 1 => .die (dieOf core)
  | _ => .package

/-- The scope of a placement class (R265). -/
def placeScope (place : Nat) : Nat :=
  match place with
  | 0 => scopeCluster
  | 1 => scopeDie
  | _ => scopePackage

/-- The narrower queue first (R272). -/
def Domain.width : Domain → Nat
  | .cluster _ => 0
  | .die _ => 1
  | .package => 2

/-- Whether a core sees a queue (R271). -/
def Domain.seen (d : Domain) (core : Nat) : Bool :=
  match d with
  | .cluster k => k == clusterOf core
  | .die n => n == dieOf core
  | .package => true

/-- An empty queue of a context. -/
def ReadyQ.new (d : Domain) (asid : Nat) : ReadyQ := ⟨d, asid, List.replicate 8 [], 0⟩

/-- A queue with something at a level: at its tail, or at its head. -/
def ReadyQ.add (q : ReadyQ) (lv : Nat) (r : Ready) (front : Bool) : ReadyQ :=
  let l := q.levels.getD lv []
  { q with levels := q.levels.set lv (if front then r :: l else l ++ [r]) }

/-- Something put into the queue of a domain and context. -/
def State.ready (s : State) (d : Domain) (asid lv : Nat) (r : Ready) (front : Bool) : State :=
  let here := fun (q : ReadyQ) => q.dom == d && q.asid == asid
  let qs := if s.disp.ready.any here then s.disp.ready else s.disp.ready ++ [ReadyQ.new d asid]
  { s with disp := { s.disp with ready := qs.map (fun q => if here q then q.add lv r front else q) } }

/-- A record enqueued at the tail of its level, in the queue its PLACE names (R270, R271). -/
def State.enqueue (s : State) (r : Rec) (d : Domain) : State := s.ready d r.asid r.prio (.record r) false

/-- A queue's candidate: what, its level, whether it is aged, its queue's width and context (R272). -/
structure Cand where
  what : Ready
  lv : Nat
  aged : Bool
  dom : Domain
  asid : Nat
  deriving DecidableEq, Repr

/-- The highest level below n that holds anything. -/
def ReadyQ.topBelow (q : ReadyQ) : Nat → Option Nat
  | 0 => none
  | n + 1 => if (q.levels.getD n []).isEmpty then q.topBelow n else some n

/-- cand(Q) of R272. -/
def ReadyQ.cand (q : ReadyQ) : Option Cand :=
  match q.topBelow 8 with
  | none => none
  | some t =>
    let low := q.topBelow t
    let (lv, aged) := match low with
      | some l => if q.age == 256 then (l, true) else (t, false)
      | none => (t, false)
    ((q.levels.getD lv []).head?).map (fun r => ⟨r, lv, aged, q.dom, q.asid⟩)

/-- How far a context comes after another in ascending order with wrap-around (R272). -/
def ctxDist (last a : Nat) : Nat := if a > last then a - last else a + 65536 - last

/-- Whether one candidate is chosen before another (R272). -/
def Cand.before (last : Nat) (a b : Cand) : Bool :=
  if a.aged != b.aged then a.aged
  else if a.lv != b.lv then a.lv > b.lv
  else if a.dom.width != b.dom.width then a.dom.width < b.dom.width
  else ctxDist last a.asid < ctxDist last b.asid

/-- The best of some candidates. -/
def bestCand (last : Nat) : List Cand → Option Cand
  | [] => none
  | c :: cs => match bestCand last cs with
    | none => some c
    | some d => if d.before last c then some d else some c

/-- What an idle core picks (R272). -/
def State.pickFor (s : State) (core : Nat) : Option Cand :=
  bestCand (s.coreOf core).lastPick ((s.disp.ready.filter (·.dom.seen core)).filterMap ReadyQ.cand)

/-- A queue after a pick of its own (R272): an image leaves the counter as it is (R323). -/
def ReadyQ.picked (q : ReadyQ) (c : Cand) : ReadyQ :=
  let q := { q with levels := q.levels.set c.lv ((q.levels.getD c.lv []).drop 1) }
  match c.what with
  | .image _ => q
  | .record _ => if c.aged then { q with age := 0 }
    else if (q.topBelow c.lv).isSome then { q with age := min 256 (q.age + 1) } else { q with age := 0 }

/-- The queues after a pick. -/
def State.takePick (s : State) (c : Cand) : State :=
  { s with disp := { s.disp with ready := s.disp.ready.map (fun q => if q.dom == c.dom && q.asid == c.asid then q.picked c else q) } }

/-- The queues without some records. -/
def State.dropReady (s : State) (p : Ready → Bool) : State :=
  { s with disp := { s.disp with ready := s.disp.ready.map (fun q => { q with levels := q.levels.map (·.filter (fun r => !(p r))) }) } }

/-- Whether a queue holds a record. -/
def State.anyReady (s : State) (p : Ready → Bool) : Bool := s.disp.ready.any (fun q => q.levels.any (·.any p))

/-! Joining (R266). -/

/-- A parked parent whose COUNT is zero moves to the ready queues, WAITING and PARKED cleared (R266). The queue is that of the
cluster or die where it suspended (R271). -/
def State.tryUnpark (s : State) (asid ptr : Nat) : State :=
  match s.frame asid ptr with
  | none => s
  | some f =>
    match f.parked with
    | none => s
    | some r =>
      if f.count == 0 && f.waiting then
        (s.modFrame asid ptr (fun f => { f with waiting := false, parked := none })).enqueue r (domainAt r.place f.at_)
      else s

/-- A frame removed. -/
def State.dropFrame (s : State) (asid ptr : Nat) : State :=
  { s with disp := { s.disp with frames := s.disp.frames.filter (fun g => !(g.asid == asid && g.ptr == ptr)) } }

/-- A join (R266): COUNT of a frame counted down, a parent that waits set going, the frame of a task that ended by a fault freed. -/
def State.join (s : State) (asid ptr : Nat) : State :=
  let s := s.modFrame asid ptr (fun g => { g with count := g.count - 1 })
  match s.frame asid ptr with
  | none => s
  | some f => if f.orphan && f.count == 0 then s.dropFrame asid ptr else s.tryUnpark asid ptr

/-- The end of a task's frame (R266): freed, and joined to its parent. A task that a fault ends with children outstanding leaves its frame
to the last of them. -/
def State.endFrame (s : State) (asid ptr : Nat) : State :=
  match s.frame asid ptr with
  | none => s
  | some f =>
    let s := if f.count == 0 then s.dropFrame asid ptr
      else s.modFrame asid ptr (fun g => { g with orphan := true, waiting := false, parked := none, parent := 0 })
    if f.parent == 0 then s else s.join asid f.parent

/-! Root tasks (R300). -/

/-- The record of a root task: its frame is made, its carried words given (R300, R338). -/
def State.rootTask (s : State) (c : Ctx) (entry size prio place launch : Nat) (reissue prov : Bool) (carry : List Word)
    (block serves : Option Nat) : Option (State × Rec) :=
  (s.newFrame c size 0).map (fun (t, p) =>
    (t, ⟨c.asid, BitVec.ofNat 64 entry, reissue, prov, place, prio, p, carry, launch, block, serves⟩))

end Sys2Proof.Machine
end

