-- ==== Sys2Proof/Machine/Rings.lean ====
section
/-! DEFINITION. The rings a function shares with the host (R388 to R392): outstanding records, writing a completion or a fault record with
its phase, and the records that wait for room. -/

namespace Sys2Proof.Machine

/-- Records of a ring (R388). -/
def Ring.size (r : Ring) : Nat := 2 ^ r.n

/-- Records written and not yet consumed. -/
def Ring.out (r : Ring) : Nat := (r.tail + r.size - r.head) % r.size

/-- Whether no record more fits: 2^n − 1 may be outstanding (R389). -/
def Ring.full (r : Ring) : Bool := decide (r.out + 1 ≥ r.size)

/-- STATE of a ring that is not in ERROR: running while records are outstanding, else idle (R389). -/
def Ring.settle (r : Ring) : Ring := if r.st == 2 then r else { r with st := if r.out == 0 then 0 else 1 }

/-- An empty ring as a configuration or a reset leaves it (R441). -/
def Ring.empty (q base n cq hw owner : Nat) : Ring := ⟨q, base, n, 0, 0, 0, true, cq, hw, owner⟩

/-- A record the device writes at a ring's tail, its phase bit in w0[63], inverted on each wrap (R391, R392). -/
def Ring.push (r : Ring) (m : Memory) (ws : List Word) : Ring × Memory :=
  let w0 := ws.headD 0 ||| (if r.phase then BitVec.ofNat 64 (2 ^ 63) else 0)
  let m := m.write (r.base + r.tail * (8 * ws.length)) ((w0 :: ws.drop 1).flatMap (fun w => bytesOf w 8))
  let r := if r.tail + 1 == r.size then { r with tail := 0, phase := !r.phase } else { r with tail := r.tail + 1 }
  (r.settle, m)

/-- A completion record's words (R391). -/
def CompOut.words (c : CompOut) : List Word :=
  [0#24 ++ BitVec.ofNat 8 c.status ++ c.tag, BitVec.ofNat 32 c.shape ++ BitVec.ofNat 32 c.id, 0, 0]

/-- A completion queue, and a submission queue, of a function. -/
def Fn.cqOf (f : Fn) (q : Nat) : Option Ring := f.cqs.find? (·.q == q)
def Fn.sqOf (f : Fn) (q : Nat) : Option Ring := f.sqs.find? (·.q == q)
def Fn.setCq (f : Fn) (r : Ring) : Fn := { f with cqs := f.cqs.map (fun x => if x.q == r.q then r else x) }
def Fn.setSq (f : Fn) (r : Ring) : Fn := { f with sqs := f.sqs.map (fun x => if x.q == r.q then r else x) }

/-- The completions that wait, delivered in order as far as their rings have room (R391). -/
def Fn.sendComps (f : Fn) : List CompOut → Fn
  | [] => f
  | c :: cs =>
    match f.cqOf c.cq with
    | none =>
      let g := f.sendComps cs
      { g with comps := c :: g.comps }
    | some r =>
      if r.full || r.st == 2 then
        let g := f.sendComps cs
        { g with comps := c :: g.comps }
      else
        let (r, m) := r.push f.mem c.words
        Fn.sendComps ({ f with mem := m } |>.setCq r) cs

/-- The fault records that wait, delivered in order as far as the fault queue has room (R392). -/
def Fn.sendFaults (f : Fn) : List FaultOut → Fn
  | [] => { f with faults := [] }
  | w :: ws =>
    match f.fq with
    | none => { f with faults := w :: ws }
    | some r =>
      if r.full || r.st == 2 then { f with faults := w :: ws }
      else
        let (r, m) := r.push f.mem w.words
        Fn.sendFaults { f with mem := m, fq := some r } ws

/-- Everything that waits for a ring delivered as far as there is room. -/
def Fn.deliver (f : Fn) : Fn :=
  let g := Fn.sendComps { f with comps := [] } f.comps
  g.sendFaults g.faults

end Sys2Proof.Machine
end

