-- ==== Sys2Proof/Machine/Ops.lean ====
section
/-! DEFINITION. The shared operations every meaning is written with: rollback (R33), the fault service (R338), taking an exception
(R343 to R347) and returning from one (R345), the stall and predicate rules of a slot (R9, R11, R22, R228). -/

namespace Sys2Proof.Machine

/-! FAULT_INFO (R341). -/

/-- The word FAULT_INFO receives: the fault's fields, with REPLAY, SIB, NEST and MEMBER as they stand (R341). -/
def infoWord (f : FaultRec) (replay sib nest : Bool) (member : Nat) : Word :=
  0#16 ++ f.slot ++ f.origin ++ boolW 1 f.rb ++ boolW 1 f.wr ++ boolW 1 replay ++ boolW 1 sib ++ boolW 1 nest ++ f.queue ++
    BitVec.ofNat 4 member ++ 0#4 ++ f.detail ++ f.code

/-! Rollback (R33). -/

/-- A bed with the undo log applied, newest record first (R33, step 3). -/
def undoBed (m : Memory) (us : List UndoEnt) : Memory := us.foldl (fun m u => m.write u.off u.old) m

/-- Whether a poisoned part belongs to the pending sample of a written signal. -/
def pendingPart (ds : List (Option SigDecl)) (st : List SigState) (p : PoisonPart) : Bool :=
  match (ds.getD p.sig none), st[p.sig]? with
  | some d, some g => (d.kind == 0 || d.kind == 3) && ((g.slots[p.slot]?).map (fun t => t.n == p.idx)).getD false
  | _, _ => false

/-- A slot's state with the written bits of another. -/
def SlotState.withWritten (t old : SlotState) : SlotState := { t with written := old.written }

/-- The signal unit with the written bits, the poison of the pending samples and the SLOTS changes a shadow holds (R175). -/
def SigUnit.restore (u : SigUnit) (st : List SigState) (poison : List PoisonPart) (ch : List SlotChange) : SigUnit :=
  { u with
    st := (u.st.zip st).map (fun (a, b) => { a with slots := (a.slots.zip b.slots).map (fun (x, y) => x.withWritten y) }),
    poison := u.poison.filter (fun p => !(pendingPart u.decls u.st p)) ++ poison.filter (pendingPart u.decls st),
    changes := ch }

/-- Whether a request belongs to a bundle the core has yet to issue: member 0 has made it for the gang (R312). -/
def Core.toCome (c : Core) (r : Request) : Bool := c.pipe.seq < r.seq || (c.pipe.seq == r.seq && c.ctl.begun.isNone)

/-- The matrix unit without the entries of bundles from a number on: a fault of one of them, found and not reported, or reported and not
yet started again, goes with it (R33, R192, R193). -/
def Matrix.before (m : Matrix) (seq : Nat) : Matrix :=
  let gone := ((m.queue.head?).map (fun e => decide (seq ≤ e.seq))).getD true
  { m with queue := m.queue.filter (fun e => e.seq < seq), fault := if gone then none else m.fault, held := m.held && !gone }

/-- Whether the bundle at issue waits with its gate released: the next bundle is as good as marked, and no rollback repeats it (R32). -/
def Core.pastMark (c : Core) : Bool := c.ctl.begun.isSome && c.ctl.nextMarked

/-- A core rolled back to the mark its shadow holds (R33): results in flight discarded, requests after the mark abandoned, the bed
undone, tiles and registers restored, the gate discarded, REPLAY set until k bundles have issued (R347). The marked bundle is marked
again when it issues. Clusters still waking at the mark wake on from the counts they had there (log 63). -/
def Core.rollback (k : Nat) (c : Core) : Core :=
  match c.rg.shadow with
  | none => c
  | some h =>
    if c.pastMark then c
    else { c with
      r := { h.r with h := h.r.h.map (·.restored) },
      seqr := h.seqr,
      pipe := { c.pipe with flights := [], reqs := c.pipe.reqs.filter (fun r => r.seq < h.seq || c.toCome r), trapBuf := [], seq := h.seq },
      mem := { c.mem with bed := undoBed c.mem.bed c.rg.undo },
      acc := c.rg.tiles.foldl (fun a e => if q : e.1 < 8 then a.set e.1 e.2 q else a) c.acc,
      mx := c.mx.before h.seq,
      sig := c.sig.restore h.sigs h.sigPoison h.changes,
      rg := { c.rg with gate := [], undo := [], undoCount := 0, tiles := [], replayLeft := k, since := 0 },
      sys := { c.sys with replay := true, ctr := h.stochCtr, rfN := h.rfN, awake := h.awake, wakes := h.wakes },
      ctl := { c.ctl with pc := h.pc, dly := h.dly, cont := h.cont, after := h.after, nextMarked := true, issued := h.issued,
                          begun := none, done_ := [], paired := false, stream := c.ctl.stream.filter (fun e => e.trap || e.idx < h.issued) } }

/-! Ending by a fault (R346). -/

/-- A unit's core that only its end remains for: the gate is released then (R32), or has been discarded (R31). -/
def Core.endNow (discard : Bool) (c : Core) : Core :=
  { c with
    ctl := { c.ctl with after := some (.ending .fault), dly := 0, held := none, begun := none, done_ := [] },
    rg := if discard then { c.rg with gate := [], undo := [], undoCount := 0 } else c.rg }

/-- The fault registers written (R343): FAULT_INFO and FAULT_VA. -/
def Core.record (f : FaultRec) (replay sib : Bool) (member : Nat) (c : Core) : Core :=
  { c with sys := { c.sys with faultInfo := infoWord f replay sib c.sys.intrap member, faultVa := f.va } }

/-! Trap entry (R343). -/

/-- A bundle address as TRAP_PC and TRAP_TGT hold it: bits [47:0] (R28, R341). -/
def addr48 (a : Word) : Word := zext a 48

/-- Requests as a handler begins: those a bundle still to come will name stand far behind its numbers (R312, R343). -/
def Core.setAside (c : Core) : List Request := c.pipe.reqs.map (fun r => if c.toCome r then { r with seq := r.seq + 2 ^ 40 } else r)

/-- Requests as n handler bundles leave them: the interrupted unit's stand as near to its next bundle as before. -/
def Pipe.takeUp (p : Pipe) (n : Nat) : List Request :=
  p.reqs.map (fun r => if r.seq ≥ 2 ^ 40 then { r with seq := r.seq - 2 ^ 40 + n } else if r.seq < p.seq - n then { r with seq := r.seq + n } else r)

/-- One core's trap entry, its fault registers written: TRAP_PC, STATUS.DLY and TRAP_TGT take the place it stands at (R26; both zero in a
sequence, R210), results in flight go to the trap result buffer, and the handler begins, in skew (R344); with TRAP_VEC zero, or inside
a handler, the unit ends (R346). A bundle at issue that waits with its gate released is set aside. -/
def Core.trapEntry (c : Core) : Core :=
  let nested := c.sys.intrap
  let dly := if c.seqr.run.isSome then 0 else c.ctl.dly
  let c := { c with
    sys := { c.sys with trapPc := addr48 c.ctl.pc, dly := BitVec.ofNat 2 dly,
                        trapTgt := if dly == 0 then 0 else addr48 c.ctl.cont } }
  if nested || c.sys.trapVec == 0 then c.endNow false
  else { c with
    sys := { c.sys with intrap := true, priv := true },
    pipe := { c.pipe with trapBuf := c.pipe.flights, flights := [], reqs := c.setAside },
    ctl := { c.ctl with pc := c.sys.trapVec, dly := 0, cont := 0, held := c.ctl.after, after := none,
                        heldBegun := c.ctl.begun.map (fun b => (addr48 c.ctl.pc, b, c.ctl.done_)), begun := none, done_ := [],
                        paired := false, handled := 0, lag := c.member, stream := c.ctl.stream.filter (!·.trap) } }

/-- The return from the handler (R345): INTRAP and PRIV clear, the trap result buffer counts on, issue resumes at TRAP_PC under
R26, lag cycles behind its gang's first (R344); the tile queue goes on (R192), and a bundle set aside where TRAP_PC still names it. -/
def Core.trapReturn (lag : Nat) (c : Core) : Core :=
  let aside := match c.ctl.heldBegun with
    | some (pc, b, done) => if pc == c.sys.trapPc then some (b, done) else none
    | none => none
  { c with
    sys := { c.sys with intrap := false, priv := false },
    pipe := { c.pipe with flights := c.pipe.trapBuf ++ c.pipe.flights, trapBuf := [], reqs := c.pipe.takeUp c.ctl.handled },
    mx := { c.mx with held := false },
    ctl := { c.ctl with pc := c.sys.trapPc, dly := c.sys.dly.toNat, cont := c.sys.trapTgt, after := c.ctl.held, held := none,
                        begun := aside.map (·.1), done_ := (aside.map (·.2)).getD [], heldBegun := none, lag := lag } }

/-- A change made on every core of the unit in focus. -/
def State.onTeam (s : State) (f : Core → Core) : State := s.core.team.foldl (fun s n => s.modCore n f) s

/-- The least number among the unit's members (R273). -/
def State.teamLeast (s : State) (f : Core → Nat) : Nat := ((s.core.team.map (fun n => f (s.coreOf n))).min?).getD 0

/-- The return of the core in focus: a gang's members stand as far apart as their bundles' numbers say (R344, R345). -/
def State.trapReturn (s : State) : State :=
  let lo := s.teamLeast (·.ctl.issued)
  s.mapCore (fun c => c.trapReturn (c.ctl.issued - lo))

/-- Every member rolled back, the performed stores a replay makes again forgotten, the members in skew from their marks on (R33, R273,
R344). -/
def State.rollTeam (s : State) (k : Nat) : State :=
  let s := s.onTeam (Core.rollback k)
  let at_ := fun (c : Core) => c.ctl.issued + c.member
  let lo := s.teamLeast at_
  let s := s.onTeam (fun c => { c with ctl := { c.ctl with lag := at_ c - lo } })
  let kept := fun (t : TeamStore) => s.core.team.all (fun n =>
    let c := s.coreOf n
    c.member != t.member || t.idx < c.ctl.issued)
  s.modCore s.core.lead (fun c => { c with rg := { c.rg with log := c.rg.log.filter kept } })

/-! The host's fault queue (R392). -/

/-- A fault record's words, the phase bit still to come (R392). -/
def faultWords (kind req asid : Nat) (info va pc : Word) (id core : Nat) : List Word :=
  [BitVec.ofNat 64 (kind * 2 ^ 48 + req % 2 ^ 24 * 2 ^ 24 + asid), info, va, pc,
    BitVec.ofNat 64 (id % 2 ^ 32 * 2 ^ 32 + (if core ≥ plinthId then 0x3FF else core)), 0, 0, 0]

/-- The function of a context. -/
def State.fnOf (s : State) (asid : Nat) : Nat := ((s.ctx asid).map (·.fn)).getD 0

/-- A function changed. -/
def State.modFn (s : State) (n : Nat) (g : Fn → Fn) : State := { s with fns := s.fns.map (fun f => if f.n == n then g f else f) }

/-- Whether a function's store of undelivered fault records is full (R392: 256). -/
def State.faultsFull (s : State) (fn : Nat) : Bool := ((s.fns.find? (·.n == fn)).map (fun f => decide (f.faults.length ≥ 256))).getD false

/-- Whether it has room for n records more. -/
def State.faultRoom (s : State) (fn n : Nat) : Bool := ((s.fns.find? (·.n == fn)).map (fun f => decide (f.faults.length + n ≤ 256))).getD true

/-- An event numbered by the arbiter on hub die 0 (R291, R420): 0 completion record, 1 fault report, 2 lintel notice, 3 epoch record,
4 silence, 5 breach, 6 die fencing, 7 master election, 8 virtual-function reset; its function, package or die. -/
def State.arbitrate (s : State) (what arg : Nat) : State := { s with arb := s.arb + 1, arbLog := s.arbLog ++ [⟨s.arb, what, arg⟩] }

/-- A fault record on its way to the host: into the ring where there is room, else it waits (R392). -/
def State.postFault (s : State) (fn : Nat) (w : List Word) : State :=
  (s.arbitrate 1 fn).modFn fn (fun f => ({ f with faults := f.faults ++ [⟨w⟩] } : Fn).deliver)

/-! The fault service (R338). -/

/-- What the service does with a rollback fault. -/
inductive Service where
  /-- It does not act. -/
  | declined
  /-- A commit request for a page, with the leaf's size and pool. -/
  | commit (page size pool : Nat)
  /-- A host paging request. -/
  | paging
  deriving DecidableEq, Repr

/-- The commit handler's entry and frame size where the context has a usable one (R338). -/
def State.commitHandler (s : State) (asid : Nat) : Option (Ctx × Nat × Nat) :=
  match s.ctx asid with
  | none => none
  | some c =>
    if c.commit == 0 then none
    else match s.readFrameWord (s.memAs (s.keyOf asid)) asid c.commit.toNat with
      | .error _ => none
      | .ok w => (frameWord w).map (fun n => (c, c.commit.toNat, n))

/-- The page of an UNCOMMITTED that is served (R338), as its leaf stands now: committed since, or, where no leaf is left, 4 KiB of pool 0
(log 64). -/
def State.pageOfFault (s : State) (asid va : Nat) : Page :=
  match s.walkAny asid va with
  | .uncommitted p => p
  | .page p => p
  | .fail _ _ => ⟨va / 4096 * 4096, 0, 0, true, 0, false, false, false⟩

/-- Whether the service acts on a rollback fault of the unit in focus (R338). -/
def State.serviceOf (s : State) (f : FaultRec) : Service :=
  let c := s.core
  match c.unit with
  | none => .declined
  | some u =>
    if f.code == uncommitted then
      let p := s.pageOfFault u.asid f.va.toNat
      if u.serves.isSome || (c.sys.replay && c.rg.served == some p.base) || (s.commitHandler u.asid).isNone then .declined
      else .commit p.base p.size p.pool
    else if f.code == pageFault && ((s.ctx u.asid).map (·.hpage)).getD false then .paging
    else .declined

/-- Open commit requests whose handler task can now be made are enqueued: priority 7, placement class 2 (R338). -/
def State.serveCommits (s : State) : State :=
  s.disp.reqs.foldl (fun s q =>
    if q.paging || q.queued then s
    else match s.commitHandler q.asid with
      | none => s
      | some (c, entry, size) =>
        let carry := [BitVec.ofNat 64 q.va, BitVec.ofNat 64 (q.size + q.pool * 256), 0, 0, 0, 0]
        match s.rootTask c entry size 7 2 0 false false carry none (some q.num) with
        | none => s
        | some (t, r) =>
          let t := t.enqueue r .package
          { t with disp := { t.disp with reqs := t.disp.reqs.map (fun x => if x.num == q.num then { x with queued := true } else x) } })
    s

/-- The open commit request of a page, opened now if there is none (R338, step 2). -/
def State.commitRequest (s : State) (asid page size pool va : Nat) : State × Nat :=
  match s.disp.reqs.find? (fun q => !q.paging && q.asid == asid && q.page == page) with
  | some q => (s, q.num)
  | none =>
    let n := s.disp.nextKey
    let s := { s with disp := { s.disp with reqs := s.disp.reqs ++ [(⟨n, false, asid, page, size, pool, va, false, none⟩ : FaultReq)], nextKey := n + 1 } }
    (s.serveCommits, n)

/-- A paging request posted to the host's fault queue (R338, R392, KIND 2), with the marked bundle's address (R343); its number is the
function's next. -/
def State.pagingRequest (s : State) (f : FaultRec) (replay : Bool) : State × Nat :=
  let c := s.core
  let fn := s.fnOf c.asid
  let req := ((s.fns.find? (·.n == fn)).map (·.nextReq)).getD 1
  let n := s.disp.nextKey
  let id := (c.unit.map (·.launch)).getD 0
  let pc := addr48 (if c.pastMark then c.ctl.pc else (c.rg.shadow.map (·.pc)).getD c.ctl.pc)
  let w := faultWords 2 req c.asid (infoWord f replay false false c.member) f.va pc id c.id
  let s := (s.postFault fn w).modFn fn (fun g => { g with nextReq := if g.nextReq + 1 < 2 ^ 24 then g.nextReq + 1 else 1 })
  let q : FaultReq := ⟨n, true, c.asid, f.va.toNat / 4096 * 4096, 0, req, f.va.toNat, true, some (c.id, f)⟩
  ({ s with disp := { s.disp with reqs := s.disp.reqs ++ [q], nextKey := n + 1 } }, n)

/-! Taking an exception. -/

/-- A fault of plinth firmware, which handles its own outside the mechanism of this chapter (R346): the fault registers are written and
the core stops issue (log 6). -/
def Core.firmwareFault (f : FaultRec) (c : Core) : Core :=
  let c := c.record f c.sys.replay false 0
  { c with sys := { c.sys with trapPc := addr48 c.ctl.pc }, ctl := { c.ctl with halted := true } }

/-- Every member of the unit in focus enters its handler: a member that faults records its own fault, SIB clear, the others the first
one's with SIB set (R344). -/
def State.trapTeam (s : State) (fs : List (Nat × FaultRec)) (replay : Bool) : State :=
  match fs with
  | [] => s
  | (n, f) :: _ =>
    let m := (s.coreOf n).member
    s.core.team.foldl (fun s k => s.modCore k (fun c => (match lookup fs k with
      | some g => c.record g replay false c.member
      | none => c.record f replay true m).trapEntry)) s

/-- A unit that ends unserved by any handler: its fault registers tell why (R31, R33, R346). -/
def State.endTeam (s : State) (f : FaultRec) (discard : Bool) : State :=
  let m := s.core.member
  let me := s.core.id
  let replay := s.core.sys.replay
  s.core.team.foldl (fun s n => s.modCore n (fun c =>
    let k := c.record f replay (n != me) m
    Core.endNow discard { k with sys := { k.sys with trapPc := addr48 c.ctl.pc } })) s

/-- Every member of the unit rolled back and parked on a request (R338, step 1). -/
def State.parkTeam (s : State) (k n : Nat) : State := (s.rollTeam k).onTeam (fun c => { c with ctl := { c.ctl with parked := some n } })

/-- The rollback fault of the unit in focus (R33, R338, R342, R344): k counts the bundles from the mark to the faulting one (R347). -/
def State.rollFault (s : State) (f : FaultRec) : State :=
  let replay := s.core.sys.replay
  let k := s.core.rg.since + 1
  if s.core.team.any (fun n => !((s.coreOf n).sys.markv)) then s.endTeam f true
  else match s.serviceOf f with
    | .commit page size pool =>
      let (s, n) := s.commitRequest s.core.asid page size pool f.va.toNat
      s.parkTeam k n
    | .paging =>
      if s.faultsFull (s.fnOf s.core.asid) then s.mapCore (fun c => { c with ctl := { c.ctl with stalled := true } })
      else
        let (s, n) := s.pagingRequest f replay
        s.parkTeam k n
    | .declined => (s.rollTeam k).trapTeam [(s.core.id, f)] replay

/-- A reported fault of a queue leaves the queue FAULTED no longer (R249). -/
def State.clearReported (s : State) (fs : List (Nat × FaultRec)) : State :=
  fs.foldl (fun s e => if e.2.origin == 2 then s.modCore e.1 (·.clearFaulted e.2.queue.toNat) else s) s

/-- TAKING AN EXCEPTION (R342 to R346): the faults that members of the unit in focus raise in one cycle, each with its core, lower members
first, at the state their bundles were suppressed in. One that ends the unit comes before a rollback, and that before the precise
ones (log 65). -/
def State.enterFaults (fs : List (Nat × FaultRec)) (s : State) : State :=
  let s := s.clearReported fs
  match fs with
  | [] => s
  | (_, first) :: _ =>
    if s.core.unit.isNone then s.mapCore (·.firmwareFault first)
    else match fs.find? (fun e => e.2.code == gateOverflow) with
      | some (n, f) => ((s.focus n).endTeam f true).focus s.core.id
      | none =>
        if s.core.sys.intrap then s.trapTeam fs s.core.sys.replay
        else match fs.find? (·.2.rb) with
          | some (n, f) => ((s.focus n).rollFault f).focus s.core.id
          | none => s.trapTeam fs s.core.sys.replay

/-- A fault of the unit in focus, of that core alone. -/
def enterFault (f : FaultRec) (s : State) : State := s.enterFaults [(s.core.id, f)]

/-! How a meaning ends. -/

/-- The bundle stalls at issue (R10, R22). -/
def stall (s : State) : Res := .next (s.mapCore (fun c => { c with ctl := { c.ctl with stalled := true } }))

/-- The slot raises a fault: the exception is taken, and the fault noted for the choice among slots (R86). -/
def raise (f : FaultRec) (s : State) : Res :=
  .next ((enterFault f s).mapCore (fun c => { c with ctl := { c.ctl with raised := some f } }))

/-- A precise fault of the slot at issue with no address. -/
def fault (code : BitVec 8) (s : State) : Res := raise (precise code s.core.ctl.slot) s

/-- A fault of an access of the slot at issue. -/
def faultAt (code : BitVec 8) (cause va : Nat) (wr rb : Bool) (s : State) : Res :=
  raise { accessFault code cause s.core.ctl.slot va wr with rb := rb } s

/-- A check of an instruction's rule: the fault where it fails. -/
def check (ok : Bool) (code : BitVec 8) (s : State) (k : Res) : Res := if ok then k else fault code s

/-- The fault of a load whose access failed, met by the first bundle that names its destination (R228). -/
def Core.failedOn (c : Core) (ds : List PDest) : Option FaultRec :=
  ds.findSome? (fun d => (c.pendOn d).bind (fun r => match r.kind with
    | .failed f => some f
    | _ => none))

/-- A slot's start (R9, R11, R22): a failed load is reported and a pending register stalls whatever the predicate reads; a false
predicate has no effect. -/
def begin (qp : PredNo) (regs : List PDest) (s : State) (k : State → Res) : Res :=
  match s.core.failedOn regs with
  | some f => raise f s
  | none =>
    if regs.any (fun d => (s.core.pendOn d).isSome) then stall s
    else if s.core.p qp then k s
    else .next s

/-- The next state in which the core in focus is changed. -/
def ok (s : State) (f : Core → Core) : Res := .next (s.mapCore f)

/-- A result into an x register after lat issue cycles (R18, R90, R91). -/
def writeX (d : RegNo) (v : Word) (poison : Bool) (lat : Nat) (s : State) : Res := ok s (·.push (.x d v poison) lat)

/-- A result into a v register (R18). -/
def writeV (d : RegNo) (b : VBits) (t : Tag) (poison : Bool) (lat : Nat) (s : State) : Res := ok s (·.push (.v d b t poison) lat)

/-- A predicate written (R90). -/
def writeP (d : PredNo) (b : Bool) (lat : Nat) (s : State) : Res := ok s (·.push (.p d b) lat)

end Sys2Proof.Machine
end

