-- ==== Sys2Proof/Machine/Cluster.lean ====
section
/-! DEFINITION. The cluster control blocks (R437 to R439): requests, wakes, starts, and reading and writing them. -/

namespace Sys2Proof.Machine

/-- Cluster k's block. -/
def State.cluster (s : State) (k : Nat) : Cluster := (lookup s.clusters k).getD Cluster.reset
def State.setCluster (s : State) (k : Nat) (c : Cluster) : State := { s with clusters := assocSet s.clusters k c }

/-- A request judged against the state reached (R438): a legal next state is entered upon; the state already reached clears BADREQ;
anything else sets it. -/
def Cluster.judge (c : Cluster) : Cluster :=
  if c.req == c.state then { c with badreq := false }
  else if c.req == 0 || (c.req == c.state + 1 && c.req ≤ 3) then { c with badreq := false, target := some c.req }
  else { c with badreq := true }

/-- A write of REQ (R437, R438, R439): 4 to 7 are ignored, REQ 0 clears WPEND, and a request made on the way to a state waits until
that state is reached. -/
def Cluster.request (c : Cluster) (v : Nat) : Cluster :=
  if v > 3 then c
  else
    let c := { c with req := v, wpend := if v == 0 then false else c.wpend }
    if c.target.isSome then c else c.judge

/-- The state asked for is wholly reached: a request that waited is judged now (R438). -/
def Cluster.reached (c : Cluster) : Cluster :=
  match c.target with
  | none => c
  | some t => ({ c with state := t, target := none } : Cluster).judge

/-- CL_STAT (R437). -/
def Cluster.stat (c : Cluster) : Word :=
  BitVec.ofNat 64 (c.state + (if c.badreq then 8 else 0) + (if c.wpend then 16 else 0))

/-- A wake (R439): WPEND, and one post to f0 of the plinth's core. -/
def State.clWakeWrite (s : State) (k : Nat) : State :=
  (s.setCluster k { s.cluster k with wpend := true }).modCore plinthId (fun c => c.setFlag 0 (c.flag 0 + 1))

/-- A write of CL_START (R437, R118): a core that HALT stopped starts again at PC in privileged state. A word whose PC is no bundle address or
whose [63:52] are not zero is dropped: the spec does not say what such a write does (log 76). -/
def State.clStartWrite (s : State) (k : Nat) (v : Word) : State :=
  let core := k * 16 + (field v 48 4).toNat
  let pc := field v 0 48
  if field v 52 12 != 0 || (field v 0 5) != 0 then s
  else if (s.coreOf core).ctl.halted then
    s.modCore core (fun c => { c with
      ctl := { c.ctl with halted := false, pc := pc.setWidth 64, dly := 0, after := none, firmware := true },
      sys := { c.sys with priv := true } })
  else s

/-- A 64-bit word of the control blocks, by its offset from the first block (R437): beyond the registers of a block, and for the
write-only ones, zero. -/
def State.clRead (s : State) (off : Nat) : Word :=
  let c := s.cluster (off / 64)
  if off / 64 ≥ 56 then 0
  else if off % 64 == 0 then BitVec.ofNat 64 c.req
  else if off % 64 == 8 then c.stat
  else 0

/-- A 64-bit word of the control blocks written (R437). -/
def State.clWrite (s : State) (off : Nat) (v : Word) : State :=
  let k := off / 64
  if k ≥ 56 then s
  else if off % 64 == 0 then s.setCluster k ((s.cluster k).request (field v 0 3).toNat)
  else if off % 64 == 16 then s.clWakeWrite k
  else if off % 64 == 24 then s.clStartWrite k v
  else s

end Sys2Proof.Machine
end

