-- ==== Sys2Proof/Machine/Ranges.lean ====
section
/-! DEFINITION. Where samples lie (R153, R154, R160), and the bed ranges a queued tile entry reads and writes (R188, R194, R195). -/

namespace Sys2Proof.Machine

/-- The bytes of a sample of one member's share (R152). -/
def SigDecl.size (d : SigDecl) : Nat := 8 * 2 ^ d.sizek

/-- Whether the gang writes the signal: OWN or EGRESS. -/
def SigDecl.written (d : SigDecl) : Bool := d.kind == 0 || d.kind == 3

/-- The positions of a ring (R153). -/
def SigDecl.ring (d : SigDecl) : Nat := if d.written then d.depth + 1 else d.depth

/-- The line-store offset of sample i of a slot (R153). -/
def SigDecl.pos (d : SigDecl) (slot : Nat) (i : Int) : Nat :=
  d.home + slot * (d.ring * d.size) + (i % (max d.ring 1 : Nat)).toNat * d.size

/-- A part's bytes and the parts of a sample (R160). -/
def SigDecl.partBytes (d : SigDecl) : Nat := min d.size 4096
def SigDecl.parts (d : SigDecl) : Nat := d.size / d.partBytes

/-- The written bits of a whole sample. -/
def SigDecl.allParts (d : SigDecl) : BitVec 8 := BitVec.ofNat 8 (2 ^ d.parts - 1)

/-- The lag limit of a port (R156). -/
def SigDecl.lagLimit (d : SigDecl) : Nat := if d.kind == 1 || d.kind == 2 then d.lag + 1 else if d.arch then d.adepth else d.depth

/-- Whether a signal advances at a tick (R154). -/
def SigDecl.advances (d : SigDecl) (tick : Nat) : Bool := ((tick : Int) - d.phase) % (max d.div 1 : Nat) == 0

/-- A declared signal of the core's unit. -/
def Core.decl (c : Core) (sig : Nat) : Option SigDecl := (c.sig.decls.getD sig none)

/-- A slot's state. -/
def Core.slotState (c : Core) (sig slot : Nat) : SlotState :=
  ((c.sig.st[sig]?).bind (fun g => g.slots[slot]?)).getD ⟨-1, 0, false, 0, []⟩

/-- A slot's state changed. -/
def SigUnit.modSlot (u : SigUnit) (sig slot : Nat) (f : SlotState → SlotState) : SigUnit :=
  { u with st := u.st.modify sig (fun g => { g with slots := g.slots.modify slot f }) }

/-- The prime value of a signal: its image, or zero (R152). -/
def SigDecl.primeBytes (d : SigDecl) : List Byte := if d.prime.isEmpty then List.replicate d.size 0 else d.prime.take d.size

/-- Whether a part of a sample is poisoned (R161). -/
def SigUnit.poisoned (u : SigUnit) (sig slot : Nat) (i : Int) (part : Nat) : Bool := u.poison.contains ⟨sig, slot, i, part⟩

/-- The poison of a part set or cleared. -/
def SigUnit.setPoison (u : SigUnit) (sig slot : Nat) (i : Int) (part : Nat) (b : Bool) : SigUnit :=
  let rest := u.poison.filter (· != ⟨sig, slot, i, part⟩)
  { u with poison := if b then rest ++ [⟨sig, slot, i, part⟩] else rest }

/-! Ranges of tile entries. -/

/-- An A operand's range (R194); an index below zero stands for the prime value. -/
def opndRange (c : Core) (o : Opnd) (n : Nat) : List (Nat × Nat) :=
  match o with
  | .bed off => [(off, n)]
  | .sample sig slot i => match c.decl sig with
    | none => []
    | some d => if i < 0 then [] else [(d.pos slot i, d.size)]

/-- The samples of a slot's ring with an index from lo to below hi. -/
def ringRange (c : Core) (sig slot lo hi : Nat) : List (Nat × Nat) :=
  match c.decl sig with
  | none => []
  | some d =>
    let n := (c.slotState sig slot).n
    ((List.range d.depth).filterMap (fun (k : Nat) =>
      let i := n - (k : Int)
      if (lo : Int) ≤ i ∧ i < (hi : Int) then some (d.pos slot i, d.size) else none))

/-- The bytes of a tile image: FP32, or 16-bit elements (R195). -/
def imgBytes (img : Nat) : Nat := if img == 0 then 32768 else 16384

/-- The head dimension of an ATTN, and the bytes of an element of its format (R211). -/
def AttnOp.d (o : AttnOp) : Nat := if o.d128 then 128 else 64
def AttnOp.esize (o : AttnOp) : Nat := if o.fmt ≤ 1 then 2 else 1

/-- The bed ranges an entry reads (R188). -/
def TileOp.reads (c : Core) : TileOp → List (Nat × Nat)
  | .mma _ a b remote mode _ _ _ _ _ _ _ _ =>
    let local_ := match remote with
      | none => true
      | some m => m == c.id
    opndRange c a (if mode == 5 then 17408 else 16384) ++ (if local_ then [(b, if mode == 5 then 8704 else 8192)] else [])
  | .mld _ addr img => [(addr, imgBytes img)]
  | .attn o => opndRange c o.q (128 * o.d * o.esize) ++ [(o.state, 1024)] ++
      (if o.prune && o.klo < o.khi then [(o.norms, 4 * ((o.khi + 63) / 64 - o.klo / 64))] else []) ++
      ringRange c o.ksig o.slot o.klo o.khi ++ ringRange c o.vsig o.slot o.klo o.khi
  | _ => []

/-- The bed ranges an entry writes (R188). -/
def TileOp.writes (c : Core) : TileOp → List (Nat × Nat)
  | .mstBed _ addr img _ => [(addr, imgBytes img)]
  | .mstSig _ sig slot i _ _ => opndRange c (.sample sig slot i) 0
  | .attn o => [(o.state, 1024)]
  | _ => []

/-- The tiles an entry names (R186). -/
def TileOp.tiles : TileOp → List Nat
  | .mma acc .. => [acc]
  | .mzero acc => [acc]
  | .mld acc .. => [acc]
  | .mstBed acc .. => [acc]
  | .mstSig acc .. => [acc]
  | .attn o => if o.d128 then [o.acc, o.acc + 1] else [o.acc]
  | .mrowW acc .. => [acc]

/-- Whether an entry reads or writes a sample (R189). -/
def TileOp.usesSample : TileOp → Bool
  | .mma _ (.sample ..) .. => true
  | .mstSig .. => true
  | .attn _ => true
  | _ => false

/-- Whether two byte ranges overlap. -/
def overlap (a b : Nat × Nat) : Bool := a.1 < b.1 + b.2 && b.1 < a.1 + a.2

/-- Whether a bed access of the core must wait for a queued entry (R188). -/
def Core.tileHolds (c : Core) (off n : Nat) (write : Bool) : Bool :=
  c.mx.queue.any (fun e =>
    e.seq != c.pipe.seq && ((e.op.writes c).any (overlap (off, n)) || (write && (e.op.reads c).any (overlap (off, n)))))

end Sys2Proof.Machine
end

