-- ==== Sys2Proof/Machine/Access.lean ====
section
/-! DEFINITION. Reaching storage (R219 to R232): bed offsets and their redirection, pages, the memory a unit sees with its own gated and
provisional writes, the store gate, its release, closing a region (R32). -/

namespace Sys2Proof.Machine

/-- One past the last bed offset (R7). -/
def bedEnd : Nat := 0x180000

/-- Where a bed access goes (R220, R37, R38). -/
inductive BedAddr where
  | bed (off : Nat)
  | redirect (va : Nat)
  | bad (code : BitVec 8)
  deriving DecidableEq, Repr

/-- An address in the issuing core's bed (R220): a multiple of the access, inside the bed, outside the line store for a write. -/
def bedPlain (c : Core) (o : Int) (n : Nat) (write : Bool) : BedAddr :=
  if o % (n : Int) ≠ 0 then .bad illegalOperand
  else if o < 0 ∨ o + (n : Int) > (bedEnd : Int) then .bad handleBound
  else if write && o.toNat < c.sys.lineEnd then .bad handleBound
  else .bed o.toNat

/-- The address OVF_PTR gives a stack offset below the carve-out (R37). -/
def overflowVa (y : Sys) (o : Int) : Nat := (((y.ovf.toNat : Int) - ((y.spillBase.toNat : Int) - o)) % (2 ^ 56 : Nat)).toNat

/-- The address of a bed access with a base register: x2 is subject to R37 and R38, its offset like
every other's a 64-bit unsigned sum (R220, log 7). -/
def bedAddr (c : Core) (base : RegNo) (add : Int) (n : Nat) (write : Bool) : BedAddr :=
  let o := ((c.x base).toNat : Int) + add
  if base = 2 && o % (n : Int) == 0 && decide (0 ≤ o) && decide (o + (n : Int) ≤ (bedEnd : Int)) then
    if o < (c.sys.spillBase.toNat : Int) then .redirect (overflowVa c.sys o)
    else if o + (n : Int) > (c.sys.spillLimit.toNat : Int) then .bad handleBound
    else bedPlain c o n write
  else bedPlain c o n write

/-! Poisoned lines (R434). -/

/-- Whether a run of bytes touches a poisoned line. -/
def linesPoisoned (l : List Nat) (a n : Nat) : Bool := l.any (fun p => a / 64 ≤ p && p ≤ (a + n - 1) / 64 && n > 0)

/-- The bed of a core written, an undo record kept apart. -/
def CoreMem.writeBed (m : CoreMem) (off : Nat) (bs : List Byte) : CoreMem :=
  { m with bed := m.bed.write off bs, poisoned := clearLines m.poisoned off bs.length }

/-- Whether a run touches a poisoned line of device memory (R434). -/
def State.runPoisoned (s : State) (r : Nat × Nat) : Bool := linesPoisoned s.poisoned r.1 r.2

/-- A bed write by the core's own slots, its previous bytes recorded (R30); a handler keeps no record (R343). -/
def Core.storeBed (c : Core) (off : Nat) (bs : List Byte) : Core :=
  let u : UndoEnt := ⟨off, c.mem.bed.read off bs.length⟩
  { c with mem := c.mem.writeBed off bs, rg := if c.sys.intrap then c.rg else { c.rg with undo := u :: c.rg.undo } }

/-- An undo record more, beyond the 96th GATE_OVERFLOW (R30, R31); a handler keeps none (R343). -/
def withUndo (s : State) (k : State → Res) : Res :=
  if s.core.sys.intrap then k s
  else if s.core.rg.undoCount ≥ 96 then fault gateOverflow s
  else k (s.mapCore (fun c => { c with rg := { c.rg with undoCount := c.rg.undoCount + 1 } }))

/-! Accumulating operations (R238). -/

/-- new of R238 from old and a; cas compares with cmp. -/
def accNew (op : AccOp) (w : Nat) (old a cmp : Nat) : Nat :=
  let o := old % 2 ^ w
  let a := a % 2 ^ w
  match op with
  | .add => (o + a) % 2 ^ w
  | .faddq => (o + a) % 2 ^ w
  | .min => if sNat w o ≤ sNat w a then o else a
  | .max => if sNat w o ≥ sNat w a then o else a
  | .minz => min o a
  | .maxz => max o a
  | .and => o &&& a
  | .or => o ||| a
  | .xor => o ^^^ a
  | .swap => a
  | .cas => if o == cmp % 2 ^ w then a else o

/-- The bits of an accumulating write. -/
def accBits (w64 : Bool) : Nat := if w64 then 64 else 32

/-- Memory with an accumulating write applied at a physical address. -/
def accMem (m : Memory) (pa : Nat) (op : AccOp) (w64 : Bool) (a cmp : Word) : Memory :=
  let w := accBits w64
  m.write pa (bytesOfNat (accNew op w (m.readNat pa (w / 8)) a.toNat cmp.toNat) (w / 8))

/-! Provisional units (R315). -/

/-- The launch of a unit. -/
def State.launchOf (s : State) (u : UnitInfo) : Option Launch := s.disp.launches.find? (fun l => l.asid == u.asid && l.id == u.launch)

/-- A launch by its key, and one changed. -/
def State.launch (s : State) (key : Nat) : Option Launch := s.disp.launches.find? (·.key == key)
def State.modLaunch (s : State) (key : Nat) (f : Launch → Launch) : State :=
  { s with disp := { s.disp with launches := s.disp.launches.map (fun l => if l.key == key then f l else l) } }

/-- The launch, and the block or tick, by which a core's unit is provisional now (R315, R319). -/
def State.provOf (s : State) (c : Core) : Option (Launch × Nat) :=
  match c.unit with
  | none => none
  | some u =>
    match s.launchOf u with
    | none => none
    | some l =>
      if u.gang then (if l.waits && c.sys.tick.toNat ≥ l.floor then some (l, c.sys.tick.toNat) else none)
      else if u.prov then u.block.map (fun b => (l, b))
      else none

/-- Whether an entry of the buffer is the unit's own (R294). -/
def ProvEnt.own (e : ProvEnt) (u : UnitInfo) : Bool := if u.gang then e.by_.fam == u.family else some e.unit == u.block

/-- The unit's own buffered writes, in program order (R294, R315). -/
def State.ownProv (s : State) (c : Core) : List ProvWrite :=
  match c.unit with
  | none => []
  | some u => match s.launchOf u with
    | none => []
    | some l => (l.prov.filter (·.own u)).map (·.write)

/-- Device memory with a buffered write applied. -/
def ProvWrite.onMem (m : Memory) : ProvWrite → Memory
  | .bytes _ pa b => m.write pa b
  | .remote .. => m
  | .accw _ pa op w64 a => accMem m pa op w64 a 0
  | .accwBed .. => m

/-- A core's bed with a buffered write applied. -/
def ProvWrite.onBed (core : Nat) (m : Memory) : ProvWrite → Memory
  | .remote g _ off b => if g == core then m.write off b else m
  | .accwBed g _ off op w64 a => if g == core then accMem m off op w64 a 0 else m
  | _ => m

/-- The lines a buffered write counts for (R315). -/
def ProvWrite.lines : ProvWrite → List Nat
  | .bytes _ pa b => memLines pa b.length
  | .remote g _ off b => bedLines g off b.length
  | .accw _ pa _ w64 _ => memLines pa (accBits w64 / 8)
  | .accwBed g _ off _ w64 _ => bedLines g off (accBits w64 / 8)

/-- Whether a launch's buffer has room for a write: QUOTA × 16 lines, each counted once (R315). -/
def Launch.room (l : Launch) (w : ProvWrite) : Bool :=
  let quota := (field (l.desc.getD 3 0) 32 16).toNat * 16
  let have_ := (l.prov.flatMap (fun e => e.write.lines)).eraseDups
  let new := w.lines.filter (fun x => !(have_.contains x))
  new.isEmpty || have_.length + new.length ≤ quota

/-- A write put into a launch's buffer, by the unit (region 0) or by a command of its. -/
def State.bufferWrite (s : State) (l : Launch) (unit : Nat) (a : AgentAt) (rid : Nat) (w : ProvWrite) : State :=
  s.modLaunch l.key (fun l => { l with prov := l.prov ++ [⟨unit, a, rid, w⟩] })

/-- The launch of the unit that runs on a core. -/
def State.launchOn (s : State) (n : Nat) : Nat := ((s.coreOf n).unit.map (·.launch)).getD 0

/-! The memory a unit sees (R231, R288, R294). -/

/-- The virtual address of a byte of a core's bed: the bed window's (R326). -/
def bedVa (core off : Nat) : Nat := windowBase + core * 2 ^ 21 + off

/-- A byte of a core's bed as a place: device memory's are its physical addresses. -/
def bedPlace (core off : Nat) : Nat := 2 ^ 60 + core * 2 ^ 21 + off

/-- The runs of bytes a gate entry stores, by place. -/
def GateEnt.runs (g : GateEnt) : List (Nat × List Byte) :=
  match g.op with
  | .store _ runs => if g.fail.isSome then [] else runs
  | .remote n off b => if g.fail.isSome then [] else [(bedPlace n off, b)]
  | .cmd _ _ => []

/-- Whether a store is older than another of its gang: of an earlier bundle, or of the same one by a lower member (R288). -/
def TeamStore.before (a b : TeamStore) : Bool := decide (a.idx < b.idx) || (a.idx == b.idx && decide (a.member < b.member))

/-- Whether a store writes a place. -/
def TeamStore.covers (t : TeamStore) (a : Nat) : Bool := decide (t.place ≤ a) && decide (a < t.place + t.bytes.length)

/-- Stores in the order of R288, those of one member and bundle as they stood. -/
def byBundle : List TeamStore → List TeamStore
  | [] => []
  | g :: gs => place g (byBundle gs)
where
  /-- A store placed before the first that is not older. -/
  place (g : TeamStore) : List TeamStore → List TeamStore
    | [] => [g]
    | x :: xs => if x.before g then x :: place g xs else g :: x :: xs

/-- The stores of the gang in focus performed while a member stands before them, oldest first, as its lead keeps them: none for a unit of one
core. -/
def State.teamLog (s : State) : List TeamStore := (s.coreOf s.core.lead).rg.log

/-- What a store leaves of the bytes that stand: where a newer store of its gang has been performed before it, that one's stay (R288). -/
def TeamStore.leaves (t : TeamStore) (newer : List TeamStore) (now : List Byte) : List Byte :=
  t.bytes.mapIdx (fun i b => if newer.any (·.covers (t.place + i)) then now.getD i 0 else b)

/-- What a store would have found, had its gang's newer ones not been performed before it. -/
def TeamStore.found (t : TeamStore) (newer : List TeamStore) (now : List Byte) : List Byte :=
  now.mapIdx (fun i b => ((newer.find? (·.covers (t.place + i))).map (fun u => u.old.getD (t.place + i - u.place) 0)).getD b)

/-- Newer stores once an older one has been performed: the oldest of them at a place finds the older one's byte. -/
def TeamStore.under (t : TeamStore) : List TeamStore → List TeamStore → List TeamStore
  | _, [] => []
  | seen, u :: us =>
    { u with old := u.old.mapIdx (fun i b =>
        if t.covers (u.place + i) && !(seen.any (·.covers (u.place + i))) then t.bytes.getD (u.place + i - t.place) 0 else b) } ::
      t.under (seen ++ [u]) us

/-- The stores of bundles below idx in the gates of the unit's members, oldest first (R231, R288). -/
def State.gatedBefore (s : State) (idx : Nat) : List TeamStore :=
  byBundle (s.core.team.flatMap (fun n =>
    let c := s.coreOf n
    (c.rg.gate.filter (fun g => g.idx < idx && !g.done)).flatMap (fun g => g.runs.map (fun r => ⟨g.idx, c.member, r.1, r.2, []⟩))))

/-- A store applied to device memory, and to a core's bed. -/
def TeamStore.onMem (m : Memory) (t : TeamStore) : Memory := if t.place < 2 ^ 60 then m.write t.place t.bytes else m
def TeamStore.onBed (core : Nat) (m : Memory) (t : TeamStore) : Memory :=
  if bedPlace core 0 ≤ t.place && t.place < bedPlace (core + 1) 0 then m.write (t.place - bedPlace core 0) t.bytes else m

/-- A performed store as it was before. -/
def TeamStore.undone (t : TeamStore) : TeamStore := { t with bytes := t.old }

/-- A memory as a bundle of the unit in focus sees it: without the performed stores of bundles from idx on, with the gated ones of earlier
bundles, of each byte the newest (R231, R288). -/
def State.seenThrough (s : State) (idx : Nat) (on : Memory → TeamStore → Memory) (read : Memory → TeamStore → List Byte)
    (own : Memory → Memory) (m : Memory) : Memory :=
  (s.gatedBefore idx).foldl (fun m g =>
      on m { g with bytes := g.leaves (s.teamLog.filter (fun t => g.before t && decide (t.idx < idx))) (read m g) })
    (own ((s.teamLog.filter (fun t => decide (idx ≤ t.idx))).foldr (fun t m => on m t.undone) m))

/-- Device memory as a bundle of the unit in focus sees it, its own provisional writes too (R294). -/
def State.memBefore (s : State) (idx : Nat) : Memory :=
  s.seenThrough idx TeamStore.onMem (fun m g => m.read g.place g.bytes.length) ((s.ownProv s.core).foldl ProvWrite.onMem)
    (s.memAs (s.keyOf s.core.asid))

/-- A core's bed as a bundle of the unit in focus sees it. -/
def State.bedBefore (s : State) (idx n : Nat) : Memory :=
  s.seenThrough idx (TeamStore.onBed n) (fun m g => m.read (g.place - bedPlace n 0) g.bytes.length) ((s.ownProv s.core).foldl (ProvWrite.onBed n))
    (s.coreOf n).mem.bed

/-- Both as the bundle at issue sees them. -/
def State.seenMem (s : State) : Memory := s.memBefore s.core.ctl.issued
def State.seenBed (s : State) (n : Nat) : Memory := s.bedBefore s.core.ctl.issued n

/-- The bytes at a store's place, device memory's or a bed's. -/
def State.bytesAt (s : State) (t : TeamStore) : List Byte :=
  if t.place < 2 ^ 60 then (s.memAs (s.keyOf s.core.asid)).read t.place t.bytes.length
  else (s.coreOf ((t.place - bedPlace 0 0) / 2 ^ 21)).mem.bed.read ((t.place - bedPlace 0 0) % 2 ^ 21) t.bytes.length

/-- A store of the unit in focus that has been performed, before as the state before it: of bytes that newer stores of its gang have
written, those stand (R288). -/
def State.logStore (s : State) (t : TeamStore) (before : State) : State :=
  if s.core.team.length ≤ 1 || s.core.sys.intrap then s
  else
    let newer := s.teamLog.filter t.before
    let now := before.bytesAt t
    let kept : TeamStore := { t with bytes := t.leaves newer now }
    let s := if newer.isEmpty then s
      else if t.place < 2 ^ 60 then { s with mem := kept.onMem s.mem }
      else s.modCore ((t.place - bedPlace 0 0) / 2 ^ 21) (fun c => { c with mem := { c.mem with bed := kept.onBed c.id c.mem.bed } })
    s.modCore s.core.lead (fun c => { c with rg := { c.rg with
      log := s.teamLog.filter (fun u => !(t.before u)) ++ { t with old := t.found newer now } :: t.under [] newer } })

/-- A bed store of the unit in focus, in the order of its gang's stores (R288). -/
def State.storeOwn (s : State) (off : Nat) (bs : List Byte) : State :=
  (s.mapCore (·.storeBed off bs)).logStore ⟨s.core.ctl.issued, s.core.member, bedPlace s.core.id off, bs, []⟩ s

/-! Tags of bed ranges. -/

/-- Plain accesses of a core's bed tagged in turn, each of an offset and a length (R276, R278): reads of the line store carry no tags. The
offset of the first that conflicts; none where a line is full. -/
def State.tagRanges (s : State) (core : Nat) (kind : AccKind) : List (Nat × Nat) → Except (Option Nat) State
  | [] => .ok s
  | (off, n) :: rest =>
    let lo := if kind == .read then max off (s.coreOf core).sys.lineEnd else off
    if off + n ≤ lo then s.tagRanges core kind rest
    else match s.unitTag (bedLines core lo (off + n - lo)) kind with
      | .conflict => .error (some off)
      | .full => .error none
      | .ok t => t.tagRanges core kind rest

/-- Ranges of a core's bed accessed by the slot at issue, tagged; a conflict is found at the access that meets it (R188, R278). -/
def withRanges (core : Nat) (kind : AccKind) (l : List (Nat × Nat)) (s : State) (k : State → Res) : Res :=
  match s.tagRanges core kind l with
  | .ok t => k t
  | .error none => stall s
  | .error (some off) => faultAt regionConflict 0 (bedVa core off) (kind == .write) true s

/-! Translation of runs of bytes. -/

/-- Consecutive physical runs of n bytes from a virtual address, cut at 4 KiB; or the code, the CAUSE and the address that failed. -/
def State.spanGo (s : State) (asid : Nat) (need : Need) : Nat → Nat → Nat → Except (BitVec 8 × Nat × Nat) (List (Nat × Nat))
  | 0, _, _ => .ok []
  | fuel + 1, va, n =>
    if n == 0 then .ok []
    else
      let k := min n (4096 - va % 4096)
      match s.translate asid va need with
      | .error (c, cause) => .error (c, cause, va)
      | .ok pa => match s.spanGo asid need fuel ((va + k) % 2 ^ 56) (n - k) with
        | .error e => .error e
        | .ok rs => .ok ((pa, k) :: rs)

/-- The physical runs of a virtual range. -/
def State.span (s : State) (asid va n : Nat) (need : Need) : Except (BitVec 8 × Nat × Nat) (List (Nat × Nat)) :=
  s.spanGo asid need (n / 4096 + 2) va n

/-- Bytes laid onto physical runs. -/
def layRuns : List (Nat × Nat) → List Byte → List (Nat × List Byte)
  | [], _ => []
  | (pa, k) :: rs, bs => (pa, bs.take k) :: layRuns rs (bs.drop k)

/-! The store gate (R30 to R32). -/

/-- Whether an entry more fits (R31). -/
def Core.gateFull (c : Core) : Bool := decide (c.rg.gate.length ≥ 48)

/-- An entry into the gate. -/
def Core.gateAdd (c : Core) (op : GateOp) (fail : Option FaultRec) : Core :=
  { c with rg := { c.rg with gate := c.rg.gate ++ [⟨op, c.pipe.seq, c.ctl.issued, fail, false, false⟩] } }

/-- A gate entry whose page has been revoked since it was translated, walked again (R332, R354). -/
def State.freshEntry (s : State) (g : GateEnt) : GateEnt :=
  match g.op, g.stale with
  | .store va runs, true =>
    let bs := runs.flatMap (·.2)
    match s.span s.core.asid va bs.length .write with
    | .error (code, cause, bad) => { g with fail := some (asRollback (accessFault code cause slotM bad true)), stale := false }
    | .ok rs => { g with op := .store va (layRuns rs bs), stale := false }
  | _, _ => g

/-- The gate of the core in focus with such entries walked again. -/
def State.freshGate (s : State) : State :=
  if s.core.rg.gate.any (·.stale) then s.mapCore (fun c => { c with rg := { c.rg with gate := c.rg.gate.map s.freshEntry } }) else s

/-- How a gate's check or release goes on. -/
inductive GateRes where
  | ok (s : State)
  | fail (f : FaultRec)
  | wait (s : State)
  deriving DecidableEq, Repr

/-- The lines a gate entry writes, and the address a fault of it names. -/
def GateOp.lines : GateOp → List Nat
  | .store _ runs => runs.flatMap (fun r => memLines r.1 r.2.length)
  | .remote n off b => bedLines n off b.length
  | .cmd _ _ => []
def GateOp.va : GateOp → Nat
  | .store va _ => va
  | .remote n off _ => bedVa n off
  | .cmd _ _ => 0

/-- The check of one entry (R228, R278, R32): a failed access, a conflict, or its write tags made. A provisional unit's stores take
their tags at confirmation (R294). -/
def State.checkEntry (s : State) (g : GateEnt) : GateRes :=
  match g.fail with
  | some f => .fail f
  | none =>
    if g.done || (s.provOf s.core).isSome then .ok s
    else match s.unitTag g.op.lines .write with
      | .ok t => .ok t
      | .conflict => .fail (asRollback (accessFault regionConflict 0 slotM g.op.va true))
      | .full => .wait s

/-- The check of some entries in gate order. -/
def State.checkEntries (s : State) : List GateEnt → GateRes
  | [] => .ok s
  | g :: gs => match s.checkEntry g with
    | .ok t => t.checkEntries gs
    | r => r

/-- A store's bytes reaching storage: device memory, a control block (R437), or the launch's provisional buffer (R315); into the collective
port they are dropped (R409). None while the quota has no room. -/
def State.performRun (s : State) (va idx : Nat) (r : Nat × List Byte) : Option State :=
  if r.1 ≥ portPa then some s
  else if r.1 ≥ clPagePa then
    some (if r.2.length == 8 && (r.1 - clPagePa) % 8 == 0 then s.clWrite (r.1 - clPagePa) (wordOfBytes r.2) else s)
  else match s.provOf s.core with
    | some (l, unit) =>
      let w := ProvWrite.bytes va r.1 r.2
      if l.room w then some (s.bufferWrite l unit (s.agentOf s.core) 0 w) else none
    | none => some ((s.storeAt s.core.asid va r.1 r.2).logStore ⟨idx, s.core.member, r.1, r.2, []⟩ s)

/-- A gate entry performed (R30, R225, R227, R232); none while it must wait. -/
def State.performEntry (s : State) (op : GateOp) (idx : Nat) : Option State :=
  match op with
  | .store va runs => runs.foldl (fun o r => o.bind (fun s => s.performRun va idx r)) (some s)
  | .remote n off b =>
    match s.provOf s.core with
    | some (l, unit) =>
      let w := ProvWrite.remote n (s.launchOn n) off b
      if l.room w then some (s.bufferWrite l unit (s.agentOf s.core) 0 w) else none
    | none => if (s.coreOf n).tileHolds off b.length true then none
      else some ((s.modCore n (fun c => { c with mem := c.mem.writeBed off b })).logStore ⟨idx, s.core.member, bedPlace n off, b, []⟩ s)
  | .cmd q e => if (s.core.queue q).full then none
    else some (s.mapCore (·.enqueueCmd q { e with prov := (s.provOf s.core).map (·.2) }))

/-- The entries performed in gate order; those behind one that must wait stay in the gate (R32, R232). -/
def State.performGate (s : State) : List GateEnt → GateRes
  | [] => .ok (s.mapCore (fun c => { c with rg := { c.rg with gate := [] } }))
  | g :: gs => match if g.done then some s else s.performEntry g.op g.idx with
    | some t => t.performGate gs
    | none => .wait (s.mapCore (fun c => { c with rg := { c.rg with gate := g :: gs } }))

/-- The gate released: every entry checked, then all performed (R32, steps 1 and 2). From the first on no rollback reaches behind it. -/
def State.openGate (s : State) : GateRes :=
  let s := s.freshGate
  match s.checkEntries s.core.rg.gate with
  | .ok t => (t.mapCore (fun c => { c with ctl := { c.ctl with nextMarked := true } })).performGate t.core.rg.gate
  | r => r

/-- A load whose access failed and that nothing has reported (R228). -/
def Core.failedLoad (c : Core) : Option FaultRec :=
  c.pipe.reqs.findSome? (fun r => match r.kind with
    | .failed f => if r.seq == c.pipe.seq then none else some f
    | _ => none)

/-- The unit's region closed: the next access opens another, the next bundle is treated as marked, a replay is over (R32, R276,
R347). -/
def State.closed (s : State) : State :=
  s.unitClose.mapCore (fun c => { c with
    ctl := { c.ctl with nextMarked := true },
    sys := { c.sys with replay := false },
    rg := { c.rg with replayLeft := 0, served := none } })

/-- A region-closing instruction with a true predicate (R32): earlier failed accesses are reported, the gate is released, the region
closes, then the instruction acts. It is illegal in a handler (R343). -/
def closing (s : State) (k : State → Res) : Res :=
  if s.core.sys.intrap then fault illegalOp s
  else
    let s := s.mapCore (fun c => { c with ctl := { c.ctl with passed := true } })
    match s.core.failedLoad with
    | some f => raise f s
    | none => match s.openGate with
      | .fail f => raise f s
      | .wait t => stall t
      | .ok t => k t.closed

/-- A region-closing instruction in a handler is illegal before any check of its own (R343). -/
def notInHandler (s : State) (k : State → Res) : Res := if s.core.sys.intrap then fault illegalOp s else k s

/-- The start of a region-closing instruction with a predicate (R32, R343). -/
def beginClosing (qp : PredNo) (regs : List PDest) (s : State) (k : State → Res) : Res := begin qp regs s (notInHandler · k)

/-- The stores in the gate of one member of the gang, oldest first, checked and performed as far as they can be, for a release by another
member; they stay in that gate as performed (R284, R288). -/
def State.performEarly (s : State) (n : Nat) : State :=
  let me := s.core.id
  let go := fun (a : State × List GateEnt × Bool) (g : GateEnt) =>
    let (t, out, on) := a
    if !on || g.done then (t, out ++ [g], on)
    else if g.op matches .cmd _ _ then (t, out ++ [g], false)
    else match t.checkEntry g with
      | .ok u => match u.performEntry g.op g.idx with
        | some v => (v, out ++ [{ g with done := true }], true)
        | none => (t, out ++ [g], false)
      | _ => (t, out ++ [g], false)
  let f := (s.focus n).freshGate
  let (t, out, _) := f.core.rg.gate.foldl go (f, [], true)
  (t.mapCore (fun c => { c with rg := { c.rg with gate := out } })).focus me

/-- What a release of the unit in focus covers made visible: every store its members have issued (R275, R284, R285). -/
def State.teamVisible (s : State) : State :=
  if s.core.team.length ≤ 1 || (s.provOf s.core).isSome then s
  else (s.core.team.filter (· != s.core.id)).foldl State.performEarly s

/-- A release of the unit in focus, its region closed before it (R284, R285): it covers what every member of a gang has issued (R275). -/
def State.unitRelease (s : State) (scope : Nat) : State :=
  match s.core.unit with
  | none => s
  | some u => s.teamVisible.unitClose.release u.family scope

end Sys2Proof.Machine
end

