-- ==== Sys2Proof/Machine/Operands.lean ====
section
/-! DEFINITION. Every operand form of the slots: scalar immediates and shifts, vector sources with their tap ports (R71, R127, R156 to
R158), lane masks (R123, R124), tags and widths (R15, R45). -/

namespace Sys2Proof.Machine

/-! Scalar forms. -/

/-- A 14-bit and a 20-bit immediate, and the 6-bit immediate of ICMPI (R72, R93, R98, R100). -/
def imm14 (i : BitVec 14) : Word := sextW i
def imm20 (i : BitVec 20) : Word := sextW i
def imm6 (i : BitVec 6) : Word := sextW i

/-- The shift amount of a register: its low six bits (R92). -/
def shiftOf (b : Word) : Nat := (field b 0 6).toNat

/-! Tap reads. -/

/-- How a tap is served (R157). -/
inductive TapRes where
  /-- From the local line store, or the prime value: bytes and poison. -/
  | bytes (bs : List Byte) (poison : Bool)
  /-- The sample has not arrived, or an MST still writes it. -/
  | wait
  | bad (code : BitVec 8)
  /-- Another member's share: the core and the index. -/
  | remote (core : Nat) (idx : Int)
  /-- An archived sample. -/
  | archive (idx : Int)
  deriving DecidableEq, Repr

/-- Whether a signal's slot advances at the current tick (R171): its current sample is pending (R155). -/
def Core.pendingNow (c : Core) (d : SigDecl) (sig slot : Nat) : Bool := d.advances c.sys.tick.toNat && (c.slotState sig slot).sel

/-- The sample a port names (R156). -/
def Core.tapIndex (c : Core) (t : Tap) : Int := (c.slotState t.sig t.slot).n - (t.lag : Int)

/-- The line-store bytes of some parts of a sample, from part p0 on, with their poison. -/
def Core.sampleBytes (c : Core) (d : SigDecl) (sig slot : Nat) (i : Int) (off n : Nat) : List Byte × Bool :=
  let a := d.pos slot i + off
  let parts := (List.range d.parts).filter (fun p => p * d.partBytes < off + n && off < (p + 1) * d.partBytes)
  (c.mem.bed.read a n, parts.any (c.sig.poisoned sig slot i) || linesPoisoned c.mem.poisoned a n)

/-- The same of a share as another member of the gang reads it: a sample the ring has given up is kept for it (R153, R159). -/
def Core.shareBytes (c : Core) (d : SigDecl) (sig slot : Nat) (i : Int) (off n : Nat) : List Byte × Bool :=
  match c.sig.kept.find? (fun k => k.sig == sig && k.slot == slot && k.idx == i) with
  | some k => ((k.bytes.drop off).take n, k.poison.any (fun p => p * d.partBytes < off + n && off < (p + 1) * d.partBytes))
  | none => c.sampleBytes d sig slot i off n

/-- Whether sample i of a MIRROR or INGRESS signal has arrived (R166, R169). -/
def Core.arrived (c : Core) (sig : Nat) (i : Int) : Bool :=
  ((c.sig.st[sig]?).map (fun g => decide (g.low ≤ i) && decide (i ≤ g.arr))).getD false

/-- A read of n bytes at an offset of the sample that a port names (R156 to R158). -/
def Core.tapRead (c : Core) (t : Tap) (off n : Nat) : TapRes :=
  match c.decl t.sig with
  | none => .bad illegalOperand
  | some d =>
    let st := c.slotState t.sig t.slot
    let i := c.tapIndex t
    let prime := (d.primeBytes.drop off).take n
    if t.off ≠ 0 then
      let g := (c.unit.map (·.members)).getD 1
      let m := (((c.member : Int) + t.off) % (max g 1 : Nat)).toNat
      .remote ((c.unit.map (·.first)).getD 0 + m) i
    else if d.arch && t.lag ≥ d.depth then .archive i
    else if i < st.floor then .bytes prime false
    else if !d.written then
      if !(c.arrived t.sig i) then .wait
      else
        let (bs, p) := c.sampleBytes d t.sig t.slot i off n
        .bytes bs p
    else
      let need := BitVec.ofNat 8 (((List.range d.parts).filter (fun p => p * d.partBytes < off + n && off < (p + 1) * d.partBytes)).foldl
        (fun a p => a + 2 ^ p) 0)
      if t.lag == 0 && c.pendingNow d t.sig t.slot && (st.written &&& need) != need then .bad lagZero
      else if c.tileHolds (d.pos t.slot i + off) n false then .wait
      else
        let (bs, p) := c.sampleBytes d t.sig t.slot i off n
        .bytes bs p

/-! Vector sources (R71, R127). -/

/-- What a vector source reads: a value, a wait, or a fault. -/
inductive VSrc where
  | val (v : VReg)
  | wait
  | bad (code : BitVec 8)
  deriving DecidableEq, Repr

/-- The pending bits a source field can wait on. -/
def srcRegs : Src → List PDest
  | .reg r => [.v r]
  | .tap _ => []

/-- A vector source's value (R127): a v register, or the sample of a set port served from the local line store. -/
def Core.vsrc (c : Core) : Src → VSrc
  | .reg r => .val (c.v r)
  | .tap q =>
    match c.q q with
    | none => .bad illegalOperand
    | some t =>
      match c.decl t.sig with
      | none => .bad illegalOperand
      | some d =>
        if d.size != 512 then .bad illegalOperand
        else match c.tapRead t 0 512 with
          | .bytes bs p => .val ⟨BitVec.ofNat 4096 (natOfBytes bs), d.tag, p⟩
          | .wait => .wait
          | .bad code => .bad code
          | .remote _ _ => .bad illegalOperand
          | .archive _ => .bad illegalOperand

/-- A source used by a meaning: its value, else the stall or the fault. -/
def useSrc (src : Src) (s : State) (k : VReg → Res) : Res :=
  match s.core.vsrc src with
  | .val v => k v
  | .wait => stall s
  | .bad code => fault code s

/-! Lane masks (R123, R124). -/

/-- The bits of the lanes a mask selects. -/
def laneBits (m : Mask) : VBits := packElems 4096 32 ((List.range 128).map (fun i => if bitAt m i then 0xFFFFFFFF else 0))

/-- A result written under a mask: lanes outside keep their previous bits (R124). -/
def blend (m : Mask) (new old : VBits) : VBits :=
  if m = BitVec.allOnes 128 then new else (new &&& laneBits m) ||| (old &&& ~~~(laneBits m))

/-- Whether the lane of element i of width w is selected (R123). -/
def elemOn (m : Mask) (w i : Nat) : Bool := bitAt m (i * w / 32)

/-- Elements computed one by one. -/
def mapElems (w : Nat) (f : Nat → Nat) (a : VBits) : VBits := packElems 4096 w ((elemsOf a w).map f)
def zipElems (w : Nat) (f : Nat → Nat → Nat) (a b : VBits) : VBits :=
  packElems 4096 w (((elemsOf a w).zip (elemsOf b w)).map (fun p => f p.1 p.2))
def zip3Elems (w : Nat) (f : Nat → Nat → Nat → Nat) (a b d : VBits) : VBits :=
  packElems 4096 w ((((elemsOf a w).zip (elemsOf b w)).zip (elemsOf d w)).map (fun p => f p.1.1 p.1.2 p.2))

/-- The write of a vector instruction under its mask KM (R124 to R126): the old destination's tag must suit, its poison joins. -/
def writeMasked (km : BitVec 3) (d : RegNo) (bits : VBits) (tag : Tag) (poison : Bool) (lat : Nat) (s : State) : Res :=
  let old := s.core.v d
  if km = 0 then writeV d bits tag poison lat s
  else if old.tag != 0 && old.tag != tag then fault formatMismatch s
  else writeV d (blend (s.core.k km) bits old.bits) tag (poison || old.poison) lat s

/-! Tags and widths (R15, R45). -/

/-- Format tags (R15). -/
def tINVALID : Tag := 0
def tBITS : Tag := 1
def tF32 : Tag := 2
def tBF16 : Tag := 3
def tF16 : Tag := 4
def tE4M3 : Tag := 5
def tE5M2 : Tag := 6
def tE2M1 : Tag := 7
def tI32 : Tag := 8
def tI16 : Tag := 9
def tI8 : Tag := 10
def tI4 : Tag := 11
def tE8M0 : Tag := 12

/-- The element width of a tag. -/
def tagWidth (t : Tag) : Nat :=
  match t.toNat with
  | 3 => 16
  | 4 => 16
  | 5 => 8
  | 6 => 8
  | 7 => 4
  | 9 => 16
  | 10 => 8
  | 11 => 4
  | 12 => 8
  | _ => 32

/-- The float format of a floating-point FN field (R82): F32, BF16, F16. -/
def vfmt (f : BitVec 2) : Fmt :=
  match f.toNat with
  | 1 => Fmt.bf16
  | 2 => Fmt.f16
  | _ => Fmt.fp32
def vfmtTag (f : BitVec 2) : Tag :=
  match f.toNat with
  | 1 => tBF16
  | 2 => tF16
  | _ => tF32

/-- The width and the tag of an integer FN field (R82, R133). -/
def viWidth (w : BitVec 2) : Nat :=
  match w.toNat with
  | 0 => 8
  | 1 => 16
  | _ => 32
def viTag (w : BitVec 2) : Tag :=
  match w.toNat with
  | 0 => tI8
  | 1 => tI16
  | _ => tI32

/-- The float format a tag names. -/
def tagFmt (t : Tag) : Option Fmt :=
  match t.toNat with
  | 2 => some Fmt.fp32
  | 3 => some Fmt.bf16
  | 4 => some Fmt.f16
  | 5 => some Fmt.e4m3
  | 6 => some Fmt.e5m2
  | 7 => some Fmt.e2m1
  | _ => none

/-! Checks of a bundle at issue that no predicate lifts (R11). -/

/-- The v registers an operand field names, with a group size. -/
def group (r : RegNo) (g : Nat) : List Nat := (List.range g).map (r.toNat + ·)

/-- The registers of a v source field. -/
def srcV : Src → List Nat
  | .reg r => [r.toNat]
  | .tap _ => []

end Sys2Proof.Machine
end

