-- ==== Sys2Proof/Machine/Control.lean ====
section
/-! DEFINITION. Transfers, traps and halting (R113 to R118). A transfer leaves the delay state of R26: three delay bundles and the
address at which issue goes on. -/

namespace Sys2Proof.Machine

/-- Bundle addresses have 56 bits (R325). -/
def addr56 (a : Word) : Word := zext a 56

/-- The address n bundles after the bundle at issue (R113). -/
def Core.bundleAt (c : Core) (disp : Word) : Word := addr56 (c.ctl.pc + disp * 32)

/-- The address of the bundle that follows the third delay bundle (R113), templates of the bundle's own SQLD apart (R206). -/
def Core.link (c : Core) : Word := addr56 (c.ctl.pc + BitVec.ofNat 64 (128 + 32 * c.ctl.skip))

/-- A taken transfer (R23, R26). -/
def Core.transfer (c : Core) (target : Word) : Core := { c with ctl := { c.ctl with dly := 3, cont := target } }

/-- What takes effect after the three delay bundles. -/
def Core.later (c : Core) (p : Pending) : Core := { c with ctl := { c.ctl with dly := 3, cont := c.link, after := some p } }

/-- BR (R113). -/
def execBr (o : SBr) (s : State) : Res := begin o.qp [] s fun s => ok s (fun c => c.transfer (c.bundleAt (sextW o.disp)))

/-- CALL: the link goes to x1 (R113). -/
def execCall (o : SBr) (s : State) : Res :=
  begin o.qp [.x 1] s fun s => ok s (fun c => (c.push (.x 1 c.link false) 1).transfer (c.bundleAt (sextW o.disp)))

/-- Whether a value may be a branch target (R114). -/
def targetOk (v : Word) : Bool := field v 56 8 == 0 && field v 0 5 == 0

/-- A transfer to a register's value, with a link unless D is x0 (R114). -/
def jump (d a : RegNo) (s : State) : Res :=
  if s.core.xp a then fault poisonConsumed s
  else if !(targetOk (s.core.x a)) then fault illegalOperand s
  else ok s (fun c => (if d = 0 then c else c.push (.x d c.link false) 1).transfer (c.x a))

/-- BRX (R114). -/
def execBrx (o : SU) (s : State) : Res := begin o.qp [.x o.a, .x o.d] s fun s => jump o.d o.a s

/-- RET (R114). -/
def execRet (o : SA) (s : State) : Res := begin o.qp [.x o.a] s fun s => jump 0 o.a s

/-- A check taken (R115). -/
def Core.checkTaken (c : Core) (o : SI) : Core :=
  (if o.d = 0 then c else c.push (.x o.d c.link false) 1).transfer (c.bundleAt (imm14 o.imm))

/-- CHK: taken on a poisoned x[A], whose poison bit it clears (R115). -/
def execChk (o : SI) (s : State) : Res :=
  begin o.qp [.x o.a, .x o.d] s fun s =>
    if s.core.xp o.a then ok s (fun c => (c.push (.unpoison o.a) 1).checkTaken o) else .next s

/-- CHKV (R115). -/
def execChkv (o : SI) (s : State) : Res :=
  begin o.qp [.v o.a, .x o.d] s fun s => if (s.core.v o.a).poison then ok s (·.checkTaken o) else .next s

/-- TRAP: the handler is entered after the three delay bundles (R116). -/
def execTrap (o : STrap) (s : State) : Res := begin o.qp [] s fun s => ok s (fun c => c.later (.trap o.n c.link))

/-- RFT: privileged; illegal outside a handler (R117, R345). -/
def execRft (o : SQ) (s : State) : Res :=
  begin o.qp [] s fun s =>
    if !s.core.sys.priv then fault privilege s
    else if !s.core.sys.intrap then fault illegalOperand s
    else ok s (·.later .rft)

/-- HALT: privileged (R118). -/
def execHalt (o : SQ) (s : State) : Res :=
  begin o.qp [] s fun s => if !s.core.sys.priv then fault privilege s else ok s (·.later .halt)

end Sys2Proof.Machine
end

