-- ==== Sys2Proof/Machine/Profile.lean ====
section
/-! DEFINITION. Numerics profiles and the order of dot products (R57 to R67). -/

namespace Sys2Proof.Machine

/-- A numerics profile (R65): group sizes, alignment width (none for EXACT), RNE alignment, flushes, saturating overflow. -/
structure Profile where
  g8 : Nat
  g16 : Nat
  g4 : Nat
  width : Option Nat
  rne : Bool
  din : Bool
  dout : Bool
  sat : Bool
  deriving DecidableEq, Repr

/-- The published profiles (R65). -/
def profileOf (n : Nat) : Option Profile :=
  match n with
  | 0x9101 => some ⟨32, 16, 64, some 32, false, false, false, false⟩
  | 0x9102 => some ⟨32, 16, 64, none, false, false, false, false⟩
  | 0x9103 => some ⟨32, 16, 64, some 32, false, true, true, false⟩
  | 0x9104 => some ⟨1, 1, 1, none, false, false, false, false⟩
  | 0x9105 => some ⟨64, 32, 128, some 16, false, false, false, false⟩
  | 0x9106 => some ⟨32, 16, 64, some 32, true, false, false, true⟩
  | _ => none

/-- The exponent floor(log2 |t|) of a nonzero finite term. -/
def FV.top : FV → Option Int
  | .fin _ m e => if m == 0 then none else some (e + (bitLen m : Int) - 1)
  | _ => none

/-- A finite term aligned to a multiple of 2^u: a(t) ÷ 2^u (R60). -/
def alignTerm (rne : Bool) (u : Int) : FV → Int
  | .fin n m e =>
    let a : Int := (if rne then roundAt 0 0 n m e u else shiftZ m (e - u) : Nat)
    if n then -a else a
  | _ => 0

/-- The lowest exponent of the finite terms. -/
def lowExp : List FV → Int → Int
  | [], e => e
  | .fin _ m x :: ts, e => lowExp ts (if m == 0 then e else min x e)
  | _ :: ts, e => lowExp ts e

/-- The terms with one NaN, or infinities of both signs, or an infinity (R60). -/
def specialSum (ts : List FV) : Option FV :=
  let p := ts.any (· == .inf false)
  let n := ts.any (· == .inf true)
  if ts.any FV.isNan || (p && n) then some .nan
  else if p then some (.inf false)
  else if n then some (.inf true)
  else none

/-- group_sum(T, P) of R60, an FP32 value. -/
def groupSum (p : Profile) (ts : List FV) : FV :=
  match specialSum ts with
  | some v => v
  | none =>
    match (ts.filterMap FV.top).max? with
    | none => .fin (ts.all FV.neg?) 0 0
    | some emax =>
      let u := match p.width with
        | some w => emax - (w : Int) + 1
        | none => lowExp ts emax
      let s := ts.foldl (fun acc t => acc + alignTerm (p.rne && p.width.isSome) u t) 0
      if s == 0 then .fin false 0 0
      else
        let neg := decide (s < 0)
        let y := Fmt.fp32.encode 0 0 p.sat (.fin neg s.natAbs u)
        let mag := y % 2 ^ 31
        if p.dout && mag < 0x00800000 then .fin neg 0 0 else f32 y

/-- A value with its subnormals of a format flushed to zero of their sign (R59). -/
def flushSub (on : Bool) (f : Fmt) (v : FV) : FV :=
  match v with
  | .fin n m e =>
    match FV.top v with
    | none => v
    | some t => if on && t < f.emin + (f.mb : Int) then .fin n 0 0 else .fin n m e
  | v => v

/-- The list cut into groups of g terms. -/
def chunks {α : Type} (g : Nat) : Nat → List α → List (List α)
  | 0, _ => []
  | n + 1, l => l.take g :: chunks g n (l.drop g)

/-- The chain of R61: each group's result is a term of the next group. -/
def dotChain (p : Profile) (g : Nat) (start : FV) (terms : List FV) : FV :=
  (chunks g (terms.length / g) terms).foldl (fun s ts => groupSum p (s :: ts)) start

end Sys2Proof.Machine
end

