-- ==== Sys2Proof/Machine/Desc.lean ====
section
/-! DEFINITION. The fields of a launch descriptor (R297), the actions a provisional unit defers (R315), and what a unit with a region-closing
instruction leaves behind. -/

namespace Sys2Proof.Machine

/-- Word i of a descriptor. -/
def dWord (d : List Word) (i : Nat) : Word := d.getD i 0

/-- A field of a descriptor's word. -/
def dField (d : List Word) (i lo n : Nat) : Nat := (field (dWord d i) lo n).toNat

/-- Descriptor fields (R297). -/
def dPsite (d : List Word) : Bool := bitAt (dWord d 0) 59
def dReissue (d : List Word) : Bool := bitAt (dWord d 0) 58
def dPredicted (d : List Word) : Bool := bitAt (dWord d 0) 57
def dGang (d : List Word) : Bool := bitAt (dWord d 0) 56
def dPlace (d : List Word) : Nat := dField d 0 52 4
def dPrio (d : List Word) : Nat := dField d 0 48 4
def dEntry (d : List Word) : Nat := dField d 0 0 48
def dFloor (d : List Word) : Nat := dField d 1 32 32
def dShape (d : List Word) : Nat := dField d 1 0 32
def dSite (d : List Word) : Nat := dField d 2 56 8
def dCell (d : List Word) : Nat := dField d 2 0 56
def dRpool (d : List Word) : Nat := dField d 3 48 6
def dQuota (d : List Word) : Nat := dField d 3 32 16
def dMembers (d : List Word) : Nat := dField d 3 28 4 + 1
def dStages (d : List Word) : Nat := dField d 3 20 8 + 1
def dVbud (d : List Word) : Nat := dField d 3 14 3
def dScratch (d : List Word) : Nat := dField d 3 7 7
def dLine (d : List Word) : Nat := dField d 3 0 7
def dModule (d : List Word) : Nat := dField d 4 0 56

/-- Whether the unit in focus is provisional now (R315). -/
def State.isProv (s : State) : Bool := (s.provOf s.core).isSome

/-- Whether an action counts among the sixteen of R315: a FENCE's release and a command's completion do not. -/
def Deferred.counts : Deferred → Bool
  | .release _ => false
  | .notice .. => false
  | _ => true

/-- Whether a provisional unit can defer an action more: 16 a block or tick (R315). -/
def State.canDefer (s : State) : Bool :=
  match s.provOf s.core with
  | none => true
  | some (l, u) => (l.defer_.filter (fun e => e.unit == u && e.act.counts)).length < 16

/-- An action deferred by a provisional unit, or taken now by any other (R315). -/
def State.deferOr (s : State) (act : Deferred) (now : State → State) : State :=
  match s.provOf s.core with
  | none => now s
  | some (l, u) => s.modLaunch l.key (fun l => { l with defer_ := l.defer_ ++ [⟨u, s.agentOf s.core, act⟩] })

/-- A release of the unit in focus; a provisional unit's covers its buffered stores once they have been performed (R294). -/
def State.releaseNow (s : State) (scope : Nat) : State := (s.unitRelease scope).deferOr (.release scope) id

/-- A deferrable closing instruction: it stalls behind sixteen (R315), then closes its region. -/
def closingDefer (s : State) (k : State → Res) : Res := if s.canDefer then closing s k else stall s

/-- An instruction that a provisional unit holds until it is confirmed (R312, R315). -/
def closingConfirmed (s : State) (k : State → Res) : Res := if s.isProv then stall s else closing s k

/-- A pending result into an x register (R21). -/
def pendX (d : RegNo) (sig : Option Nat) (kind : ReqKind) (s : State) : Res :=
  ok s (fun c => { c with pipe := c.pipe.pend c.ctl.slot [.x d] false sig kind })

/-- A result that has been made and lands on arrival. -/
def pendWord (d : RegNo) (sig : Option Nat) (w : Word) (s : State) : Res := pendX d sig (.lands [.x d w false]) s

end Sys2Proof.Machine
end

