-- ==== Sys2Proof/Machine/Quarry.lean ====
section
/-! DEFINITION. The quarry (R350 to R364) and the commits of sparse ranges (R337, R339): pools, block states, holds, block tables, and the
instructions on them. -/

namespace Sys2Proof.Machine

/-! Pools. -/

/-- A pool's block size (R350). -/
def Pool.bytes (p : Pool) : Nat := 16384 * 2 ^ p.bsize

/-- The address of a pool's block (R351). -/
def Pool.addr (p : Pool) (i : Nat) : Nat := p.arena + i * p.bytes

/-- The block of a configured pool that holds an address. -/
def Pool.blockOf (p : Pool) (va : Nat) : Option Nat :=
  if p.v && p.arena ≤ va && va < p.arena + p.count * p.bytes then some ((va - p.arena) / p.bytes) else none

/-- A block's state; none while it is FREE (R352). -/
def Pool.state (p : Pool) (i : Nat) : Option BlkState := lookup p.blocks i

/-- A block's state set, or FREE. -/
def Pool.setState (p : Pool) (i : Nat) (b : Option BlkState) : Pool :=
  { p with blocks := match b with
    | some b => assocSet p.blocks i b
    | none => assocDel p.blocks i }

/-- The head of the free list taken: first in, first out from blocks 0 to COUNT − 1 (R352). -/
def Pool.take (p : Pool) : Option (Nat × Pool) :=
  if p.fresh < p.count then some (p.fresh, { p with fresh := p.fresh + 1 })
  else match p.freed with
    | [] => none
    | b :: bs => some (b, { p with freed := bs })

/-- A block back at the tail of the free list (R352). -/
def Pool.free (p : Pool) (i : Nat) : Pool := { p.setState i none with freed := p.freed ++ [i] }

/-- A context's pool. -/
def Ctx.pool (c : Ctx) (n : Nat) : Option Pool := (c.pools[n]?).bind (fun p => if p.v then some p else none)

/-- The first pool of a context, with the block, whose arena holds an address. -/
def Ctx.blockAt (c : Ctx) (va : Nat) : Option (Nat × Nat) :=
  (c.pools.zip (List.range c.pools.length)).findSome? (fun e => (e.1.blockOf va).map (fun b => (e.2, b)))

/-- A context changed, and one of its pools. -/
def State.modCtx (s : State) (a : Nat) (f : Ctx → Ctx) : State := { s with ctxs := s.ctxs.map (fun c => if c.asid == a then f c else c) }
def State.modPool (s : State) (a n : Nat) (f : Pool → Pool) : State := s.modCtx a (fun c => { c with pools := c.pools.modify n f })
def State.pool (s : State) (a n : Nat) : Option Pool := (s.ctx a).bind (·.pool n)

/-! Leaves of the arenas and of sparse ranges. -/

/-- The physical address of the level-1 table entry of a virtual address, its tables walked (R327). -/
def leafFrom (m : Memory) (va : Nat) : Nat → Nat → Option Nat
  | 0, tbl => some (tbl + 8 * natBits va 12 9)
  | lv + 1, tbl =>
    let i := if lv == 3 then natBits va 48 8 else natBits va (12 + 9 * (lv + 1)) 9
    let e := m.readNat (tbl + 8 * i) 8
    if entReserved e || !entBit e 0 || entBit e 1 || entBit e 5 then none else leafFrom m va lv (entAddr e)

/-- The level-1 entry of a virtual address of a context: where it stands, and its value. -/
def State.leaf (s : State) (asid va : Nat) : Option (Nat × Nat) :=
  (s.ctx asid).bind (fun c => (leafFrom s.mem va 4 c.root).map (fun pa => (pa, s.mem.readNat pa 8)))

/-- The 4 KiB steps of a range of bytes. -/
def pagesOf (va n : Nat) : List Nat := (List.range (n / 4096)).map (fun i => va + i * 4096)

/-- Level-1 entries of a range rewritten. -/
def State.mapLeaves (s : State) (asid va n : Nat) (f : Nat → Nat → Nat) : State :=
  (pagesOf va n).foldl (fun s a => match s.leaf asid a with
    | none => s
    | some (pa, e) => { s with mem := s.mem.write pa (bytesOfNat (f (a - va) e) 8) }) s

/-- An entry with V set or cleared. -/
def leafV (v : Bool) (e : Nat) : Nat := e / 2 * 2 + (if v then 1 else 0)

/-- The page size code of a pool's blocks (R351): the largest page that does not exceed a block. -/
def Pool.pageCode (p : Pool) : Nat := 1 + p.bsize / 2

/-- The arena leaf the quarry writes (R351): the ADDR found there, SIZE code k, valid, LEAF, R and W set, X, SPARSE and POOL clear. -/
def arenaLeaf (k e : Nat) : Nat := entAddr e + k * 256 + 15

/-- An entry with another ADDR. -/
def leafAt (pa e : Nat) : Nat := e - natBits e 12 40 * 4096 + pa / 4096 % 2 ^ 40 * 4096

/-- The physical address of a byte of a block, as its arena leaf gives it. -/
def State.blockPa (s : State) (asid va : Nat) : Nat := ((s.leaf asid va).map (fun e => entAddr e.2)).getD 0 + va % 4096

/-- The block of a context's pool whose memory holds a physical address (R353: however mapped). -/
def State.blockOfPa (s : State) (asid pa : Nat) : Option (Nat × Nat) :=
  (s.ctx asid).bind (fun c =>
    (c.pools.zip (List.range c.pools.length)).findSome? (fun e =>
      e.1.blocks.findSome? (fun b =>
        if (pagesOf (e.1.addr b.1) e.1.bytes).any (fun a => s.blockPa asid a == pa / 4096 * 4096) then some (e.2, b.1) else none)))

/-! Holds (R353). -/

/-- The physical addresses that the key tile under way of a core's ATTN has read (R218). -/
def Core.attnHolds (c : Core) : List Nat :=
  c.mx.queue.flatMap (fun e => match e.op with
    | .attn o => (o.maps.getD []).map (·.2.2)
    | _ => [])

/-- A core whose ATTN starts its key tile again, reading the table anew (R193, R217). -/
def Core.attnRestart (c : Core) : Core :=
  { c with mx := { c.mx with queue := c.mx.queue.map (fun e => match e.op with
      | .attn o => { e with op := .attn { o with maps := none } }
      | _ => e) } }

/-- Whether anything holds a block. -/
def State.held (s : State) (asid pool blk : Nat) : Bool :=
  s.holds.any (fun h => h.asid == asid && h.pool == pool && h.blk == blk) ||
    s.cores.any (fun c => c.asid == asid && c.attnHolds.any (fun pa => s.blockOfPa asid pa == some (pool, blk)))

/-- A DRAINING block that nothing holds becomes FREE (R352). -/
def State.drained (s : State) (asid pool blk : Nat) : State :=
  match (s.pool asid pool).bind (·.state blk) with
  | some .draining => if s.held asid pool blk then s else s.modPool asid pool (·.free blk)
  | _ => s

/-- The holds of one agent set to some blocks; a block let go is left for BLOCK_DRAIN_DONE. -/
def State.setHolds (s : State) (asid core agent : Nat) (bs : List (Nat × Nat)) : State :=
  { s with holds := s.holds.filter (fun h => !(h.core == core && h.agent == agent)) ++ bs.map (fun b => ⟨asid, b.1, b.2, core, agent⟩) }

/-- Whether an agent holds a block. -/
def State.holdsBlock (s : State) (asid core agent : Nat) (b : Nat × Nat) : Bool :=
  s.holds.any (fun h => h.asid == asid && h.core == core && h.agent == agent && h.pool == b.1 && h.blk == b.2)

/-! Leaving and entering states (R352, R354). -/

/-- The lines of a run of device memory that is a multiple of 64 bytes. -/
def State.dropTags (s : State) (pa n : Nat) : State := s.dropLines (pa / 64) (n / 64)

/-- A block leaves ALLOCATED or RETRACTABLE: its pages are revoked, its leaves cleared; DRAINING, or FREE at once (R352, R354). -/
def State.leaveBlock (s : State) (asid pool blk : Nat) : State :=
  match s.pool asid pool with
  | none => s
  | some p =>
    let s := s.mapLeaves asid (p.addr blk) p.bytes (fun _ e => leafV false e)
    let s := s.revoke asid (p.addr blk) p.bytes
    (s.modPool asid pool (·.setState blk (some .draining))).drained asid pool blk

/-- Whether the unit in focus takes blocks of a pool as retractable (R315, R352). -/
def State.retracts (s : State) (pool : Nat) : Option (Nat × Nat) :=
  match s.provOf s.core with
  | some (l, u) => if pool == dRpool l.desc then some (l.key, u) else none
  | none => none

/-- A block taken from a pool: its leaves written valid, what completed holders did there acquired, the block filled with zero where asked
(R293, R352, R357). -/
def State.takeBlock (s : State) (asid pool : Nat) (z : Bool) (st : BlkState) : Option (State × Nat) :=
  match s.pool asid pool with
  | none => none
  | some p => match p.take with
    | none => none
    | some (b, q) =>
      let s := s.modPool asid pool (fun _ => q.setState b (some st))
      let s := s.mapLeaves asid (q.addr b) q.bytes (fun _ e => arenaLeaf q.pageCode e)
      let s := (pagesOf (q.addr b) q.bytes).foldl (fun s a => s.dropDone (s.blockPa asid a / 64) 64) s
      let s := if z then (pagesOf (q.addr b) q.bytes).foldl (fun s a =>
          let pa := s.blockPa asid a
          { s with mem := s.mem.clear pa 4096, poisoned := clearLines s.poisoned pa 4096 }) s else s
      some (s, q.addr b)

/-- QALLOC's result (R357). -/
def State.qalloc (s : State) (asid pool : Nat) (z : Bool) : State × Word :=
  if (s.pool asid pool).isNone then (s, 4)
  else
    let st := match s.retracts pool with
      | some (l, u) => BlkState.retractable l u
      | none => .allocated
    match s.takeBlock asid pool z st with
    | none => (s, 2)
    | some (t, a) => (t, BitVec.ofNat 64 a)

/-- The tables of a core's unit: every entry of every slot. -/
def Core.entries (c : Core) : List Word := c.sig.st.flatMap (fun g => g.slots.flatMap (·.table))

/-- The valid ones. -/
def Core.validEntries (c : Core) : List Word := c.entries.filter (bitAt · 0)

/-- Whether an entry names a block's address (R359). -/
def entryNames (e : Word) (addr : Nat) : Bool := bitAt e 0 && (field e 14 42).toNat * 16384 == addr

/-- The reference count of a block: the valid entries that name it, in the tables of running, pre-empted and ended units of launches that
run (R359). -/
def State.refs (s : State) (asid addr : Nat) : Nat :=
  let cores := s.cores.filter (·.asid == asid) ++ (s.disp.images.map (·.core)).filter (·.asid == asid)
  let ended := (s.disp.launches.filter (·.asid == asid)).flatMap (·.entries)
  ((cores.flatMap (·.entries) ++ ended).filter (entryNames · addr)).length

/-- QFREE's status (R358). -/
def State.qfree (s : State) (asid : Nat) (a : Word) : State × Word :=
  match (s.ctx asid).bind (·.blockAt a.toNat) with
  | none => (s, 6)
  | some (n, b) =>
    match s.pool asid n with
    | none => (s, 6)
    | some p =>
      if p.state b != some .allocated then (s, 6)
      else if s.refs asid (p.addr b) > 0 then (s, 8)
      else (s.leaveBlock asid n b, 0)

/-! Block tables (R359 to R361). -/

/-- An entry of a slot's table. -/
def Core.entry (c : Core) (sig slot e : Nat) : Word := (c.slotState sig slot).table.getD e 0

/-- An entry written. -/
def Core.setEntry (c : Core) (sig slot e : Nat) (w : Word) : Core :=
  { c with sig := c.sig.modSlot sig slot (fun t => { t with table := t.table.set e w }) }

/-- The signal, slot and entry a selector names, where it names an archived OWN signal of the core (R359). -/
def Core.selector (c : Core) (a : Word) : Option (SigDecl × Nat × Nat × Nat) :=
  let sig := (field a 0 8).toNat
  let slot := (field a 8 8).toNat
  let e := (field a 16 24).toNat
  match c.decl sig with
  | none => none
  | some d => if d.kind == 0 && d.arch && slot < d.slots && e < d.btLen then some (d, sig, slot, e) else none

/-- A selector's word (R359). -/
def selectorWord (sig slot e : Nat) : Word := BitVec.ofNat 64 (sig + slot * 256 + e * 65536)

/-- Whether a BTSET or BTAPP of the unit on a signal has not landed (R362). -/
def Core.tablePending (c : Core) (sig : Nat) : Bool := c.pipe.reqs.any (fun r => r.seq < c.pipe.seq && r.sig == some sig)

/-- Whether a value names the start of an ALLOCATED block of a pool (R360). -/
def State.namesBlock (s : State) (asid pool : Nat) (v : Word) : Bool :=
  let a := (field v 14 42).toNat * 16384
  match s.pool asid pool with
  | none => false
  | some p => match p.blockOf a with
    | none => false
    | some b => p.addr b == a && p.state b == some .allocated

/-! The instructions. -/

/-- QALLOC (R357). -/
def execQalloc (o : MDAZ) (s : State) : Res :=
  beginClosing o.qp [.x o.a, .x o.d] s fun s =>
    let a := s.core.x o.a
    let pool := (field a 0 6).toNat
    if s.core.xp o.a then fault poisonConsumed s
    else if field a 6 58 != 0 then fault illegalOperand s
    else if s.isProv && (s.retracts pool).isNone then stall s
    else closing s fun s =>
      let (t, r) := s.qalloc s.core.asid pool o.z
      pendWord o.d none r t

/-- QFREE (R358): deferred by a provisional unit (R315). -/
def execQfree (o : MDA) (s : State) : Res :=
  beginClosing o.qp [.x o.a, .x o.d] s fun s =>
    let a := s.core.x o.a
    if s.core.xp o.a then fault poisonConsumed s
    else if field a 56 8 != 0 then fault illegalOperand s
    else closingDefer s fun s =>
      if s.isProv then
        let n := s.core.pipe.nextReq
        pendX o.d none .master (s.deferOr (.qfree a (s.core.id, n)) id)
      else
        let (t, r) := (s.unitRelease scopeQuarry).qfree s.core.asid a
        pendWord o.d none r t

/-- BTSET (R360). -/
def execBtset (o : MDAB) (s : State) : Res :=
  beginClosing o.qp [.x o.a, .x o.b, .x o.d] s fun s =>
    let c := s.core
    let v := c.x o.b
    if c.xp o.a || c.xp o.b then fault poisonConsumed s
    else if field (c.x o.a) 40 24 != 0 then fault illegalOperand s
    else match c.selector (c.x o.a) with
      | none => fault illegalOperand s
      | some (d, sig, slot, e) =>
        if field v 56 8 != 0 || field v 1 13 != 0 then fault illegalOperand s
        else closingConfirmed s fun s =>
          if bitAt v 0 && !(s.namesBlock s.core.asid d.pool v) then pendWord o.d (some sig) 6 s
          else pendWord o.d (some sig) 0 (s.mapCore (·.setEntry sig slot e v))

/-- BTGET (R360): it closes no region. -/
def execBtget (o : MDA) (s : State) : Res :=
  begin o.qp [.x o.a, .x o.d] s fun s =>
    let c := s.core
    if c.xp o.a then fault poisonConsumed s
    else if field (c.x o.a) 40 24 != 0 then fault illegalOperand s
    else match c.selector (c.x o.a) with
      | none => fault illegalOperand s
      | some (_, sig, slot, e) => pendWord o.d none (c.entry sig slot e) s

/-- BTAPP (R361). -/
def execBtapp (o : MDAZ) (s : State) : Res :=
  beginClosing o.qp [.x o.a, .x o.d] s fun s =>
    let c := s.core
    if c.xp o.a then fault poisonConsumed s
    else if field (c.x o.a) 16 48 != 0 then fault illegalOperand s
    else match c.selector (c.x o.a) with
      | none => fault illegalOperand s
      | some (d, sig, slot, _) =>
        if s.isProv && (s.retracts d.pool).isNone then stall s
        else closing s fun s =>
          let tab := (s.core.slotState sig slot).table
          match (List.range tab.length).find? (fun e => !(bitAt (tab.getD e 0) 0)) with
          | none => pendWord o.d (some sig) 7 s
          | some e =>
            let (t, r) := s.qalloc s.core.asid d.pool o.z
            if field r 0 8 != 0 then pendWord o.d (some sig) r t
            else pendWord o.d (some sig) r (t.mapCore (·.setEntry sig slot e (r ||| 1)))

/-- Whether an entry is a sparse leaf, committed or not (R337). -/
def sparseLeaf (v : Bool) (e : Nat) : Bool := entBit e 5 && entBit e 0 == v && entBit e 1 && !(entReserved e)

/-- PCOMMIT's status (R339). -/
def State.pcommit (s : State) (asid va k pool : Nat) : State × Word :=
  match s.pool asid pool with
  | none => (s, 4)
  | some p =>
    let leaves := (pagesOf va p.bytes).map (fun a => (s.leaf asid a).map (·.2))
    let all := fun (f : Nat → Bool) => leaves.all (fun e => (e.map f).getD false)
    if all (sparseLeaf true) then (s, 1)
    else if !(all (fun e => sparseLeaf false e && entSize e == k)) then (s, 3)
    else match s.takeBlock asid pool true .allocated with
      | none => (s, 2)
      | some (t, blk) => (t.mapLeaves asid va p.bytes (fun off e => leafV true (leafAt (t.blockPa asid (blk + off)) e)), 0)

/-- PCOMMIT (R339). -/
def execPcommit (o : MDAB) (s : State) : Res :=
  beginClosing o.qp [.x o.a, .x o.b, .x o.d] s fun s =>
    let c := s.core
    let a := c.x o.a
    let b := c.x o.b
    let k := (field b 0 4).toNat
    let pool := (field b 8 6).toNat
    let p := s.pool c.asid pool
    if c.xp o.a || c.xp o.b then fault poisonConsumed s
    else if field a 56 8 != 0 || field b 4 4 != 0 || field b 14 50 != 0 then fault illegalOperand s
    else if k > 4 || (p.map (fun p => pageBytes k > p.bytes || a.toNat % p.bytes != 0)).getD false then fault illegalOperand s
    else closingConfirmed s fun s =>
      let (t, r) := s.pcommit s.core.asid a.toNat k pool
      pendWord o.d none r t

/-- PDECOMMIT's status (R339). -/
def State.pdecommit (s : State) (asid va : Nat) : State × Word :=
  match s.leaf asid va with
  | none => (s, 3)
  | some (_, e) =>
    if sparseLeaf false e then (s, 5)
    else if !(sparseLeaf true e) then (s, 3)
    else
      let pa := entAddr e + va % 4096
      let blk := match s.blockOfPa asid pa with
        | some (n, b) => if n == entPool e && ((s.pool asid n).bind (·.state b)) == some BlkState.allocated then some b else none
        | none => none
      let undo := fun (s : State) (lo n : Nat) =>
        let lines := (pagesOf lo n).filterMap (fun a => (s.leaf asid a).map (fun e => entAddr e.2))
        let s := s.revoke asid lo n
        let s := lines.foldl (fun s p => s.dropTags p 4096) s
        s.mapLeaves asid lo n (fun _ e => if sparseLeaf true e then leafV false e else e)
      match blk, s.pool asid (entPool e) with
      | some b, some p =>
        let off := ((pagesOf (p.addr b) p.bytes).zip (List.range (p.bytes / 4096))).findSome? (fun (x : Nat × Nat) =>
          if s.blockPa asid x.1 == pa / 4096 * 4096 then some (x.2 * 4096) else none)
        ((undo s (va / 4096 * 4096 - off.getD 0) p.bytes).leaveBlock asid (entPool e) b, 0)
      | _, _ => (undo s (va / pageBytes (entSize e) * pageBytes (entSize e)) (pageBytes (entSize e)), 0)

/-- PDECOMMIT (R339). -/
def execPdecommit (o : MDA) (s : State) : Res :=
  beginClosing o.qp [.x o.a, .x o.d] s fun s =>
    let a := s.core.x o.a
    if s.core.xp o.a then fault poisonConsumed s
    else if field a 56 8 != 0 then fault illegalOperand s
    else closingConfirmed s fun s =>
      let (t, r) := s.pdecommit s.core.asid a.toNat
      pendWord o.d none r t

/-- BLOCK_DRAIN_DONE (R352). -/
def execBlockDrainDone (asid pool blk : Nat) (s : State) : Res := .next (s.drained asid pool blk)

end Sys2Proof.Machine
end

