-- ==== Sys2Proof/Machine/Archive.lean ====
section
/-! DEFINITION. Samples wherever they lie (R153, R171 to R173): sealed indices, the line ring, the archive, pieces of a sample as a register
group takes them. -/

namespace Sys2Proof.Machine

/-- The index a signal's slot starts with (R154). -/
def SigDecl.startIdx (d : SigDecl) : Int := if d.advances 0 then 0 else -1

/-- Whether the unit's last tick is sealed and none is open (R319). -/
def Core.streamEnded (c : Core) : Bool := c.ctl.after == some (.ending .stream)

/-- The highest sealed index of a slot (R155). -/
def Core.sealedIdx (c : Core) (d : SigDecl) (sig slot : Nat) : Int :=
  let n := (c.slotState sig slot).n
  if !c.streamEnded && c.pendingNow d sig slot then n - 1 else n

/-- The tick at which sample i of a signal is open (R154). -/
def SigDecl.tickOf (d : SigDecl) (i : Int) : Int := d.phase + i * d.div

/-- The block-table entry that sample i lies under (R172). -/
def SigDecl.entryOf (d : SigDecl) (i : Nat) : Nat := i / max d.perBlk 1 % max d.btLen 1

/-- The block address an entry names, none while it is absent (R359). -/
def entryBlock (e : Word) : Option Nat := if bitAt e 0 then some ((field e 14 42).toNat * 16384) else none

/-- The virtual address of an archived sample, or the selector of the absent entry (R172, R440). -/
def Core.archiveVa (c : Core) (d : SigDecl) (sig slot i : Nat) : Except Word Nat :=
  let e := d.entryOf i
  match entryBlock (c.entry sig slot e) with
  | none => .error (selectorWord sig slot e)
  | some a => .ok (a + i % max d.perBlk 1 * d.size)

/-- The poisoned parts of a sample. -/
def SigUnit.partsPoisoned (u : SigUnit) (sig slot : Nat) (i : Int) : List Nat :=
  (u.poison.filter (fun p => p.sig == sig && p.slot == slot && p.idx == i)).map (·.part)

/-- A sample's poison set to some parts. -/
def SigUnit.setParts (u : SigUnit) (sig slot : Nat) (i : Int) (ps : List Nat) : SigUnit :=
  { u with poison := u.poison.filter (fun p => !(p.sig == sig && p.slot == slot && p.idx == i)) ++ ps.map (fun p => ⟨sig, slot, i, p⟩) }

/-- The bytes and the poisoned parts of a sample in the ring, or of the prime value below the floor (R156). -/
def Core.ringSample (c : Core) (d : SigDecl) (sig slot : Nat) (i : Int) : List Byte × List Nat :=
  if i < (c.slotState sig slot).floor then (d.primeBytes, [])
  else (c.mem.bed.read (d.pos slot i) d.size, c.sig.partsPoisoned sig slot i)

/-- The registers of a group that takes a part of a sample, from register d on (R180). -/
def SigDecl.group (d : SigDecl) : Nat := min 8 (max 1 (d.size / 512))

/-- What a part of a sample lands as (R180): an x register, or a group of v registers, the bytes above a short sample zero. -/
def pieces (d : SigDecl) (x : Bool) (r : RegNo) (bs : List Byte) (p : Bool) : List Landing :=
  if x then [.x r (wordOfBytes bs) p]
  else (List.range d.group).map (fun j =>
    .v (r + BitVec.ofNat 6 j) (BitVec.ofNat 4096 (natOfBytes ((bs.drop (512 * j)).take 512))) d.tag p)

/-- A sample written back to the archive (R173): through the block's own arena leaves. -/
def State.writeBack (s : State) (d : SigDecl) (sig slot i : Nat) : State :=
  match s.core.archiveVa d sig slot i with
  | .error _ => s
  | .ok va =>
    let bs := s.core.mem.bed.read (d.pos slot i) d.size
    s.storeAt s.core.asid va (s.blockPa s.core.asid va) bs

end Sys2Proof.Machine
end

