-- ==== Sys2Proof/Machine/Signals.lean ====
section
/-! DEFINITION. Signals and the tick (R152 to R184, R440): tap ports, TAPRD, TAPWR, SIGINF, SLOTS, SIGRST, TICK, and the arrival of mirror
samples. -/

namespace Sys2Proof.Machine

/-! Ports (R177 to R179). -/

/-- A declared signal of the unit, else ILLEGAL_OPERAND (R177). -/
def withSignal (sig : Nat) (s : State) (k : SigDecl → Res) : Res :=
  match s.core.decl sig with
  | none => fault illegalOperand s
  | some d => k d

/-- TAPSET (R178). -/
def execTapset (o : XTs) (s : State) : Res :=
  begin o.qp [] s fun s => withSignal o.sig.toNat s fun d =>
    if o.lag.toNat ≥ d.lagLimit then fault lagOverrun s
    else ok s (·.push (.q o.q ⟨o.sig.toNat, o.lag.toNat, 0, 0⟩) 1)

/-- TAPSETX (R179). -/
def execTapsetx (o : XTx) (s : State) : Res :=
  begin o.qp [.x o.a] s fun s =>
    let a := s.core.x o.a
    let lag := (field a 0 24).toNat
    let slot := (field a 24 8).toNat
    let off : Int := (field a 32 5).toInt
    let g := (s.core.unit.map (·.members)).getD 1
    if s.core.xp o.a then fault poisonConsumed s
    else withSignal o.sig.toNat s fun d =>
      if field a 37 27 != 0 || slot ≥ d.slots then fault illegalOperand s
      else if off != 0 && (!d.written || off.natAbs ≥ g) then fault illegalOperand s
      else if lag ≥ d.lagLimit then fault lagOverrun s
      else if off != 0 && lag == 0 then fault lagZero s
      else ok s (·.push (.q o.q ⟨o.sig.toNat, lag, off, slot⟩) 1)

/-! TAPRD (R180, R440). -/

/-- The registers TAPRD or TAPWR names: an x register, or a group of v registers. -/
def tapRegs (d : Option SigDecl) (x : Bool) (r : RegNo) : List PDest :=
  if x then [.x r] else (List.range ((d.map (·.group)).getD 1)).map (fun j => .v (r + BitVec.ofNat 6 j))

/-- The size, part and group rules of R180. -/
def tapFits (d : SigDecl) (x : Bool) (part : Nat) (r : RegNo) : Bool :=
  if x then d.size == 8 && part == 0 else decide (d.size ≥ 16) && part < d.parts && r.toNat % d.group == 0

/-- A pending tap read. -/
def pendTap (d : SigDecl) (x : Bool) (r : RegNo) (k : ReqKind) (s : State) : Res :=
  ok s (fun c => { c with pipe := c.pipe.pend c.ctl.slot (tapRegs (some d) x r) false none k })

/-- An archive read of the share of the member on a core (R440): the entry of that share's table and its translation at issue, the data
later. An index below the reader's own floor reads the prime value (log 72). -/
def archiveTapRead (d : SigDecl) (t : Tap) (x : Bool) (r : RegNo) (part core : Nat) (i : Int) (s : State) : Res :=
  let m := s.coreOf core
  let off := part * d.partBytes
  if i < (s.core.slotState t.sig t.slot).floor then
    pendTap d x r (.lands (pieces d x r ((d.primeBytes.drop off).take d.partBytes) false)) s
  else if m.tablePending t.sig then stall s
  else match m.archiveVa d t.sig t.slot i.toNat with
    | .error sel => raise { accessFault pageFault 10 s.core.ctl.slot 0 false with va := sel } s
    | .ok va => match s.span m.asid va d.size .read with
      | .error (code, cause, _) => faultAt code cause va false false s
      | .ok rs =>
        let bs := rs.flatMap (fun e => (s.memAs (s.keyOf m.asid)).read e.1 e.2)
        let p := m.sig.poisoned t.sig t.slot i part || rs.any s.runPoisoned
        pendTap d x r (.lands (pieces d x r ((bs.drop off).take d.partBytes) p)) s

/-- A tap of another member's share (R159): read now where that share is sealed, else when it is. An archived sample is read from that
share's archive (R157), unless the skew has it in that share's ring still. An index below the reader's own floor at the tap's issue reads the
prime value: every member's floors move in one bundle, and the skew must change no value (R168, log 72). -/
def remoteTapRead (d : SigDecl) (t : Tap) (x : Bool) (r : RegNo) (part core : Nat) (i : Int) (s : State) : Res :=
  let m := s.coreOf core
  let off := part * d.partBytes
  if i < (s.core.slotState t.sig t.slot).floor then
    pendTap d x r (.lands (pieces d x r ((d.primeBytes.drop off).take d.partBytes) false)) s
  else if d.arch && t.lag ≥ d.depth && i ≤ (m.slotState t.sig t.slot).n - (d.depth : Int) then archiveTapRead d t x r part core i s
  else if i ≤ m.sealedIdx d t.sig t.slot then
    let (bs, p) := m.shareBytes d t.sig t.slot i off d.partBytes
    pendTap d x r (.lands (pieces d x r bs p)) s
  else pendTap d x r (.remoteTap core t.sig t.slot i part x r) s

/-- TAPRD (R180). -/
def execTaprd (o : XTap) (s : State) : Res :=
  let port := s.core.q o.q
  let part := o.part.toNat
  begin o.qp (tapRegs (port.bind (fun t => s.core.decl t.sig)) o.x o.d) s fun s =>
    match port with
    | none => fault illegalOperand s
    | some t => withSignal t.sig s fun d =>
      if !(tapFits d o.x part o.d) then fault illegalOperand s
      else match s.core.tapRead t (part * d.partBytes) d.partBytes with
        | .bytes bs p => ok s (fun c => (pieces d o.x o.d bs p).foldl (fun c l => c.push l 4) c)
        | .wait => stall s
        | .bad code => fault code s
        | .remote core i => remoteTapRead d t o.x o.d part core i s
        | .archive i => archiveTapRead d t o.x o.d part s.core.id i s

/-! TAPWR (R160, R175, R181). -/

/-- The sources of a TAPWR: bytes, poison, and whether every v tag suits. -/
def Core.tapSource (c : Core) (d : SigDecl) (x : Bool) (a : RegNo) : List Byte × Bool × Bool :=
  if x then (bytesOf (c.x a) 8, c.xp a, true)
  else
    let rs := (List.range d.group).map (fun j => c.v (a + BitVec.ofNat 6 j))
    ((rs.flatMap (fun r => bytesOf r.bits 512)).take d.partBytes, rs.any (·.poison), d.tag == tBITS || rs.all (·.tag == d.tag))

/-- A part of the current sample written: its bytes with an undo record, its written bit, its poison (R160, R161, R175). -/
def Core.writePart (c : Core) (d : SigDecl) (t : Tap) (part : Nat) (bs : List Byte) (p : Bool) : Core :=
  let n := (c.slotState t.sig t.slot).n
  let c := c.storeBed (d.pos t.slot n + part * d.partBytes) bs
  let u := c.sig.modSlot t.sig t.slot (fun g => { g with written := g.written ||| BitVec.ofNat 8 (2 ^ part) })
  { c with sig := u.setPoison t.sig t.slot n part p }

/-- TAPWR (R181). -/
def execTapwr (o : XTw) (s : State) : Res :=
  let port := s.core.q o.q
  let part := o.part.toNat
  begin o.qp (tapRegs (port.bind (fun t => s.core.decl t.sig)) o.x o.a) s fun s =>
    match port with
    | none => fault illegalOperand s
    | some t => withSignal t.sig s fun d =>
      let c := s.core
      if !(tapFits d o.x part o.a) || t.lag != 0 || t.off != 0 || !d.written then fault illegalOperand s
      else if !(c.pendingNow d t.sig t.slot) then fault offRateWrite s
      else
        let (bs, p, tags) := c.tapSource d o.x o.a
        if !tags then fault formatMismatch s
        else if p && d.kind == 3 then fault poisonConsumed s
        else if c.tileHolds (d.pos t.slot (c.slotState t.sig t.slot).n + part * d.partBytes) d.partBytes true then stall s
        else withUndo s fun s => ok s (·.writePart d t part bs p)

/-! SIGINF, SLOTS, SIGRST (R182 to R184). -/

/-- The item of SIGINF (R182). -/
def Core.sigItem (c : Core) (d : SigDecl) (sig slot item : Nat) : Word :=
  let n := (c.slotState sig slot).n
  match item with
  | 0 => BitVec.ofInt 64 n
  | 1 => boolW 64 (c.pendingNow d sig slot)
  | 2 => BitVec.ofInt 64 (n + 1)
  | 3 => BitVec.ofInt 64 (if d.kind == 0 then n else ((c.sig.st[sig]?).map (·.arr)).getD (-1))
  | _ => BitVec.ofNat 64 (d.div + d.phase * 2 ^ 16 + d.depth * 2 ^ 32 + d.sizek * 2 ^ 48 + (if d.fault then 2 ^ 52 else 0)
      + d.kind * 2 ^ 53 + (if d.arch then 2 ^ 55 else 0))

/-- SIGINF (R182). -/
def execSiginf (o : XSi) (s : State) : Res :=
  begin o.qp [.x o.a, .x o.d] s fun s =>
    let a := s.core.x o.a
    if s.core.xp o.a then fault poisonConsumed s
    else withSignal o.sig.toNat s fun d =>
      if a.toNat ≥ d.slots then fault illegalOperand s
      else writeX o.d (s.core.sigItem d o.sig.toNat a.toNat o.item.toNat) false 4 s

/-- What SLOTS shares among its kinds: the operand's poison, and an archived OWN signal (R183). -/
def slotsOn (o : XSl) (s : State) (k : SigDecl → Word → State → Res) : Res :=
  begin o.qp [.x o.a] s fun s =>
    if s.core.xp o.a then fault poisonConsumed s
    else withSignal o.sig.toNat s fun d =>
      if d.kind != 0 || !d.arch then fault illegalOperand s else k d (s.core.x o.a) s

/-- A change asked for, that the next TICK applies (R183). -/
def Core.askSlots (c : Core) (ch : SlotChange) : Core := { c with sig := { c.sig with changes := c.sig.changes ++ [ch] } }

/-- SLOTS.sel (R183). -/
def execSlotsSel (o : XSl) (s : State) : Res :=
  slotsOn o s fun d a s =>
    if field a 0 5 != 0 then fault illegalOperand s
    else match bedPlain s.core a.toNat 32 false with
      | .bad code => fault code s
      | .redirect _ => fault illegalOperand s
      | .bed off =>
        let mask : BitVec 256 := BitVec.ofNat 256 ((s.seenBed s.core.id).readNat off 32)
        if s.core.tileHolds off 32 false then stall s
        else if mask.toNat ≥ 2 ^ d.slots then fault illegalOperand s
        else ok s (·.askSlots (.sel o.sig.toNat mask))

/-- SLOTS.clr (R183). -/
def execSlotsClr (o : XSl) (s : State) : Res :=
  slotsOn o s fun d a s =>
    if a.toNat ≥ d.slots then fault illegalOperand s else ok s (·.askSlots (.clr o.sig.toNat a.toNat))

/-- SLOTS.one (R183). -/
def execSlotsOne (o : XSl) (s : State) : Res :=
  slotsOn o s fun d a s =>
    if a.toNat ≥ d.slots then fault illegalOperand s else ok s (·.askSlots (.one o.sig.toNat a.toNat))

/-- The floor of every slot of a signal moved (R184). -/
def Core.resetFloor (c : Core) (d : SigDecl) (sig : Nat) : Core :=
  { c with sig := { c.sig with st := c.sig.st.modify sig (fun g => { g with
      slots := g.slots.map (fun t => { t with floor := if d.advances c.sys.tick.toNat && t.sel then t.n else t.n + 1 }) }) } }

/-- SIGRST (R184). -/
def execSigrst (o : XSr) (s : State) : Res :=
  begin o.qp [] s fun s =>
    if !s.core.sys.priv then fault privilege s
    else withSignal o.sig.toNat s fun d =>
      if !d.written then fault illegalOperand s
      else ok s (·.resetFloor d o.sig.toNat)

/-! TICK (R162 to R167, R173, R176, R319). -/

/-- The signals a core's unit declares, with their indices. -/
def Core.declared (c : Core) : List (Nat × SigDecl) :=
  (c.sig.decls.zip (List.range c.sig.decls.length)).filterMap (fun e => e.1.map (fun d => (e.2, d)))

/-- The slots of a signal. -/
def SigDecl.slotList (d : SigDecl) : List Nat := List.range d.slots

/-- A slot as the changes asked for leave it (R183): the last selection stands, every restart applies. -/
def applyChanges (chs : List SlotChange) (sig slot : Nat) (t : SlotState) : SlotState :=
  chs.foldl (fun t ch => match ch with
    | .sel g m => if g == sig then { t with sel := m.getLsbD slot } else t
    | .one g k => if g == sig then { t with sel := k == slot } else t
    | .clr g k => if g == sig && k == slot then { t with n := -1 } else t) t

/-- Whether some part of a sample that FAULT guards is unwritten (R161, R162). -/
def Core.unwritten (c : Core) : Bool :=
  c.declared.any (fun (sig, d) => d.written && d.fault && d.slotList.any (fun k =>
    c.pendingNow d sig k && (c.slotState sig k).written != d.allParts))

/-- The selector of the first block that the next tick's write-back after it would miss (R162, R404). -/
def Core.missingBlock (c : Core) : Option Word :=
  c.declared.findSome? (fun (sig, d) =>
    if !d.arch || !(d.advances (c.sys.tick.toNat + 1)) then none
    else d.slotList.findSome? (fun k =>
      let t := applyChanges c.sig.changes sig k (c.slotState sig k)
      let i := t.n + 1 - (d.depth : Int)
      if !t.sel || i < 0 then none
      else match c.archiveVa d sig k i.toNat with
        | .error w => some w
        | .ok _ => none))

/-- The launch identifier a MIRROR's producer has (R372): the consumer's own, or the one its ARG names. -/
def producerId (l : Launch) (d : SigDecl) : Nat := if d.ext then (field (dWord l.desc 5) 0 32).toNat else l.id

/-- A mirror of a producer's signal (R152, R166): the consumer's launch, stage and member, its signal, the declaration, the current index. -/
structure MirrorAt where
  launch : Launch
  stage : Nat
  member : Nat
  sig : Nat
  decl : SigDecl
  n : Int
  deriving DecidableEq, Repr

/-- The mirrors of a producer's signal: of members that run, are saved, or have been placed and are still to start. -/
def State.mirrorsOf (s : State) (u : UnitInfo) (sig : Nat) : List MirrorAt :=
  let names := fun (l : Launch) (d : SigDecl) =>
    d.kind == 1 && producerId l d == u.launch && d.pstage == u.stage && d.pmember == u.member && d.psig == sig
  let cs := (s.cores ++ s.disp.images.map (·.core)).filter (fun c => c.isGang && c.asid == u.asid)
  let here := cs.flatMap (fun c => match c.unit.bind s.launchOf with
    | none => []
    | some l => (c.declared.filter (fun (_, d) => names l d)).map
        (fun (n, d) => ⟨l, (c.unit.map (·.stage)).getD 0, c.member, n, d, (c.slotState n 0).n⟩))
  let toCome := (s.disp.launches.filter (·.asid == u.asid)).flatMap (fun l => l.toStart.flatMap (fun e =>
    ((l.sigs.zip (List.range l.sigs.length)).filter (fun (d, _) => d.owner == e.1 && names l d)).map
      (fun (d, n) => ⟨l, e.1, e.2, n, d, d.startIdx⟩)))
  here ++ toCome

/-- Whether every flow window admits the samples the next tick opens (R167, R170). -/
def State.windowsOpen (s : State) : Bool :=
  let c := s.core
  c.declared.all (fun (sig, d) =>
    let t := applyChanges c.sig.changes sig 0 (c.slotState sig 0)
    if !d.written || !(d.advances (c.sys.tick.toNat + 1)) || !t.sel then true
    else
      let j := t.n + 1
      let drained := ((c.sig.st[sig]?).map (·.arr)).getD (-1) + 1
      let ms := match c.unit with
        | none => []
        | some u => s.mirrorsOf u sig
      (d.kind != 3 || drained ≥ j - (d.depth : Int) + 1) &&
        ms.all (fun m => j - m.n < (m.decl.depth : Int) - (m.decl.lag : Int)))

/-- The unwritten parts of a slot's pending sample filled under HOLD (R161). -/
def Core.sealSlot (c : Core) (sig : Nat) (d : SigDecl) (slot : Nat) : Core :=
  let t := c.slotState sig slot
  if !(c.pendingNow d sig slot) then c
  else
    let (prev, bad) := c.ringSample d sig slot (t.n - 1)
    (List.range d.parts).foldl (fun c p =>
      if t.written.getLsbD p then c
      else
        let c := { c with mem := c.mem.writeBed (d.pos slot t.n + p * d.partBytes) ((prev.drop (p * d.partBytes)).take d.partBytes) }
        { c with sig := c.sig.setPoison sig slot t.n p (bad.contains p) }) c

/-- A sealed sample sent to its mirrors (R162, R166); to a launch outside, once its tick is confirmed (R176). Of a producer with several
slots a MIRROR receives slot 0, and slot 0 paces it: the model's choice (log 73). -/
def State.publish (s : State) (sig : Nat) (d : SigDecl) : State :=
  let c := s.core
  match c.unit with
  | none => s
  | some u =>
    let i := (c.slotState sig 0).n
    if !(c.pendingNow d sig 0) then s
    else
      let (bs, ps) := c.ringSample d sig 0 i
      let held := match s.launchOf u with
        | none => none
        | some l => if l.waits && c.sys.tick.toNat ≥ l.floor then some (l.key, c.sys.tick.toNat) else none
      let msgs := (s.mirrorsOf u sig).map (fun m =>
        (⟨m.launch.key, m.stage, m.member, m.sig, i, bs, ps, if m.launch.id == u.launch then none else held⟩ : MirrorMsg))
      { s with disp := { s.disp with mirrors := s.disp.mirrors ++ msgs } }

/-- The remote taps that waited for this member's sealed samples (R159): they arrive with the value. -/
def State.serveTaps (s : State) : State :=
  let c := s.core
  let serve := fun (r : Request) => match r.kind with
    | .remoteTap core sig slot i part x d =>
      match c.decl sig with
      | some e => if core == c.id && i ≤ (c.slotState sig slot).n then
          let (bs, p) := c.shareBytes e sig slot i (part * e.partBytes) e.partBytes
          { r with kind := .lands (pieces e x d bs p) }
        else r
      | none => r
    | _ => r
  s.onTeam (fun k => { k with pipe := { k.pipe with reqs := k.pipe.reqs.map serve } })

/-- The open tick sealed (R161, R162). -/
def State.sealTick (s : State) : State :=
  let ds := s.core.declared.filter (fun (_, d) => d.written && d.advances s.core.sys.tick.toNat)
  let s := s.mapCore (fun c => ds.foldl (fun c (sig, d) => d.slotList.foldl (fun c k => c.sealSlot sig d k) c) c)
  (ds.foldl (fun s (sig, d) => s.publish sig d) s).serveTaps

/-- The budget accounted, and the tick counted (R164). -/
def Core.countTick (c : Core) : Core :=
  let y := c.sys
  let excess := y.tickCycles - y.tickBudget.toNat
  let slip := y.tickBudget != 0 && excess > 0
  let count := min 65535 ((field y.slip 48 16).toNat + 1)
  let most := min 65535 (max (field y.slip 32 16).toNat excess)
  let log := BitVec.ofNat 64 (count * 2 ^ 48 + most * 2 ^ 32 + y.tick.toNat % 2 ^ 32)
  { c with sys := { y with slip := if slip then log else y.slip, tick := y.tick + 1, tickCycles := 0 } }

/-- The sample that leaves the ring as sample n opens, kept for the members of the gang that stand behind in the skew: the last sixteen
(R153, R159). -/
def Core.keepSample (c : Core) (sig : Nat) (d : SigDecl) (slot : Nat) (n : Int) : Core :=
  let i := n - (d.ring : Nat)
  if i < 0 || (c.unit.map (·.members)).getD 1 ≤ 1 then c
  else
    let (bs, ps) := c.ringSample d sig slot i
    let ps := if linesPoisoned c.mem.poisoned (d.pos slot i) d.size then List.range d.parts else ps
    let old := c.sig.kept.filter (fun k => !(k.sig == sig && k.slot == slot && (k.idx ≤ i - 16 || i ≤ k.idx)))
    { c with sig := { c.sig with kept := old ++ [⟨sig, slot, i, bs, ps⟩] } }

/-- A slot's next sample opened (R154, R162). -/
def Core.openSlot (c : Core) (sig : Nat) (d : SigDecl) (slot : Nat) : Core :=
  let n := (c.slotState sig slot).n + 1
  let c := c.keepSample sig d slot n
  let u := c.sig.modSlot sig slot (fun t => { t with n := n, written := 0 })
  let gone : Int := if d.arch then n - (d.depth + d.btLen * d.perBlk : Nat) else n - (d.ring : Nat)
  { c with sig := { u with poison := u.poison.filter (fun p => !(p.sig == sig && p.slot == slot && (p.idx ≤ gone || p.idx == n))) } }

/-- The new tick opened: the changes of SLOTS applied, samples opened, those that leave the ring written back (R162, R173). -/
def State.openTick (s : State) : State :=
  let chs := s.core.sig.changes
  let s := s.mapCore (fun c => { c with sig := { c.sig with
      changes := [],
      st := (c.sig.st.zip (List.range c.sig.st.length)).map (fun (g, sig) => { g with
        slots := (g.slots.zip (List.range g.slots.length)).map (fun (t, k) => applyChanges chs sig k t) }) } })
  s.core.declared.foldl (fun s (sig, d) =>
    if !(d.advances s.core.sys.tick.toNat) then s
    else d.slotList.foldl (fun s k =>
      if !((s.core.slotState sig k).sel) then s
      else
        let s := s.mapCore (·.openSlot sig d k)
        let i := (s.core.slotState sig k).n - (d.depth : Int)
        if d.arch && i ≥ 0 then s.writeBack d sig k i.toNat else s) s) s

/-- The sample counts of a core's signals. -/
def Core.counts (c : Core) : List (List Int) := c.sig.st.map (fun g => g.slots.map (·.n))

/-- The counts at the opening of a tick of a predicted stream, remembered while they may be asked for (R176). -/
def State.countTicks (s : State) : State :=
  match s.core.unit.bind s.launchOf with
  | none => s
  | some l =>
    if !l.waits then s
    else s.mapCore (fun c => { c with sig := { c.sig with
        opened := c.sig.opened.filter (fun e => l.floor ≤ e.1) ++ [(c.sys.tick.toNat, c.counts)] } })

/-- The tick at which the unit's launch ends its gangs, where it is known (R297, R319). -/
def State.lastTick (s : State) : Option Nat :=
  match s.core.unit.bind s.launchOf with
  | none => none
  | some l => if s.core.isGang then l.final.bind (fun n => if n = 0 then none else some n) else none

/-- Whether the next tick may not open before the final shape is known (R319). -/
def State.tickWaits (s : State) : Bool :=
  match s.core.unit.bind s.launchOf with
  | none => false
  | some l => s.core.isGang && l.waits && s.core.sys.tick.toNat + 1 ≥ l.pred

/-- Whether TICK waits before its first check: an entry of an earlier bundle still uses a sample (R189), or a table the unit changes has
not settled (R362). -/
def Core.tickEarly (c : Core) : Bool :=
  c.mx.queue.any (fun e => e.op.usesSample && e.seq < c.pipe.seq) || c.declared.any (fun (sig, d) => d.arch && c.tablePending sig)

/-- TICK's two faults (R162): an unwritten sample that FAULT guards, a block that the write-backs after it would miss. -/
def Core.tickFault (c : Core) (last : Bool) : Option FaultRec :=
  if c.unwritten then some (precise unwrittenSample c.ctl.slot)
  else if last then none
  else c.missingBlock.map (fun sel => { accessFault pageFault 10 c.ctl.slot 0 false with va := sel })

/-- What TICK does once nothing holds it (R161 to R164, R319). -/
def State.tick (s : State) (last : Bool) : State :=
  let s := s.sealTick.mapCore Core.countTick
  if last then s.mapCore (fun c => { c with ctl := { c.ctl with after := some (.ending .stream), dly := 0 } }) else s.openTick.countTicks

/-- TICK (R162). Its faults are precise: they are judged before the gate is released, and no more once it has been. The entries of its own
bundle, and the flow windows, are waited for after that. -/
def execTick (s : State) : Res :=
  notInHandler s fun s =>
    let last := s.lastTick == some (s.core.sys.tick.toNat + 1)
    if s.core.ctl.begun.isNone && s.core.tickEarly then stall s
    else match if s.core.ctl.begun.isSome then none else s.core.tickFault last with
      | some f => raise f s
      | none => closing s fun s =>
        if s.core.mx.queue.any (·.op.usesSample) || (!last && (s.tickWaits || !s.windowsOpen)) then stall s
        else .next (s.tick last)

/-! Mirrors (R166). -/

/-- Whether a tick of a producing launch is confirmed (R176). -/
def State.confirmed (s : State) (h : Option (Nat × Nat)) : Bool :=
  match h with
  | none => true
  | some (key, t) => match s.launch key with
    | none => true
    | some l => !l.waits || t < l.floor

/-- MIRROR_SAMPLE_ARRIVAL (R166): the oldest sample on its way to a mirror, when it is the next index and nothing holds its place. -/
def execMirrorSampleArrival (c sig : Nat) (s : State) : Res :=
  let k := s.coreOf c
  match k.unit with
  | none => .next s
  | some u => match s.launchOf u, k.decl sig with
    | some l, some d =>
      let mine := fun (m : MirrorMsg) => m.launch == l.key && m.stage == u.stage && m.member == u.member && m.sig == sig
      match s.disp.mirrors.find? mine with
      | none => .next s
      | some m =>
        let arr := ((k.sig.st[sig]?).map (·.arr)).getD (-1)
        if d.kind != 1 || m.idx ≤ arr || !(s.confirmed m.holds) || k.tileHolds (d.pos 0 m.idx) d.size true then .next s
        else
          let bs := m.bytes.take d.size ++ List.replicate (d.size - m.bytes.length) 0
          let sg := (k.sig.setParts sig 0 m.idx (m.poison.filter (· < d.parts)))
          let sg := { sg with st := sg.st.modify sig (fun g => { g with arr := m.idx, low := if g.arr < 0 then m.idx else g.low }) }
          let k := { k with mem := k.mem.writeBed (d.pos 0 m.idx) bs, sig := sg }
          .next ({ s with disp := { s.disp with mirrors := delFirst mine s.disp.mirrors } }.putCore k)
    | _, _ => .next s

end Sys2Proof.Machine
end

