-- ==== Sys2Proof/Machine/Matrix.lean ====
section
/-! DEFINITION. The matrix unit (R185 to R204): what an operation checks and captures at issue, what an entry computes, and the tile
instructions but ATTN. An entry is performed whole at TILE_ENTRY_COMPLETE (R64). -/

namespace Sys2Proof.Machine

/-! Issue. -/

/-- The slot of a tile operation's start: its registers, its predicate, and a queue of eight (R185). -/
def tileOp (qp : PredNo) (regs : List PDest) (s : State) (k : State → Res) : Res :=
  begin qp regs s fun s => if s.core.mx.queue.length ≥ 8 then stall s else k s

/-- An entry put into the tile queue (R185). -/
def Core.enqueueTile (c : Core) (op : TileOp) : Core := { c with mx := { c.mx with queue := c.mx.queue ++ [⟨op, c.pipe.seq, c.ctl.issued⟩] } }

/-- Undo records counted at issue (R30, R31, R193); a handler keeps none (R343). -/
def withUndos (n : Nat) (s : State) (k : State → Res) : Res :=
  if s.core.sys.intrap then k s
  else if s.core.rg.undoCount + n > 96 then fault gateOverflow s
  else k (s.mapCore (fun c => { c with rg := { c.rg with undoCount := c.rg.undoCount + n } }))

/-- The fault of a bed address of an operation, if it has one (R191). -/
def imageFault (c : Core) (a : Word) (align n : Nat) (write : Bool) : Option (BitVec 8) :=
  if a.toNat % align ≠ 0 then some illegalOperand
  else if a.toNat + n > bedEnd then some handleBound
  else if write && a.toNat < c.sys.lineEnd then some handleBound
  else none

/-- Bed ranges of the core tagged as plain accesses at issue (R188). -/
def tagBed (l : List (Nat × Nat)) (kind : AccKind) (s : State) (k : State → Res) : Res := withRanges s.core.id kind l s k

/-- A port's tile signal of a size and a tag (R157, R158, R194, R197): the sample fixed at issue (an index of −1 is the prime value), a
wait, or a fault. -/
inductive PortRes where
  | at_ (o : Opnd)
  | wait
  | bad (code : BitVec 8)
  deriving DecidableEq, Repr

/-- An A operand or Q on a port (R194). -/
def Core.tilePort (c : Core) (q : BitVec 3) (size used : Nat) (tag : Tag) : PortRes :=
  match c.q q with
  | none => .bad illegalOperand
  | some t => match c.decl t.sig with
    | none => .bad illegalOperand
    | some d =>
      if t.off ≠ 0 || (d.arch && t.lag ≥ d.depth) || d.size != size then .bad illegalOperand
      else if d.tag != tag && d.tag != tBITS then .bad formatMismatch
      else match c.tapRead t 0 used with
        | .bytes _ _ =>
          let i := c.tapIndex t
          .at_ (.sample t.sig t.slot (if i < (c.slotState t.sig t.slot).floor then -1 else i))
        | .wait => .wait
        | .bad code => .bad code
        | .remote _ _ => .bad illegalOperand
        | .archive _ => .bad illegalOperand

/-- The registers an A operand's field waits on, and its poison (R191). -/
def aRegs : Src → List PDest
  | .reg r => [.x r]
  | .tap _ => []
def Core.aPoison (c : Core) : Src → Bool
  | .reg r => c.xp r
  | .tap _ => false

/-- An A operand (R191): an x register's bed address, or a port. -/
def Core.aOperand (c : Core) (a : Src) (bytes size used : Nat) (tag : Tag) : PortRes :=
  match a with
  | .tap q => c.tilePort q size used tag
  | .reg r => match imageFault c (c.x r) 512 bytes false with
    | some code => .bad code
    | none => .at_ (.bed (c.x r).toNat)

/-- The bed ranges an A operand gives to tag. -/
def Opnd.tagged (o : Opnd) (n : Nat) : List (Nat × Nat) :=
  match o with
  | .bed off => [(off, n)]
  | .sample .. => []

/-- The tag an A operand on a port must carry by mode (R197). -/
def modeTag (mode : Nat) (e5m2 : Bool) : Tag :=
  match mode with
  | 2 => tI8
  | 3 => tBF16
  | 4 => tF16
  | 5 => tE2M1
  | _ => if e5m2 then tE5M2 else tE4M3

/-- The profile in force (R66, R67): none where the entry that PSEL selects is empty. -/
def Core.profile (c : Core) : Option Nat :=
  let n := c.ctl.psel.toNat
  let p := if n < 4 then (field c.sys.profLo (16 * n) 16).toNat else (field c.sys.profHi (16 * (n - 4)) 16).toNat
  if p == 0 then none else some p

/-- A remote B (R198): the core, the offset, or a fault. -/
def remoteB (c : Core) (x : Word) (n : Nat) : Except (BitVec 8) (Nat × Nat) :=
  let off := (field x 0 21).toNat
  if field x 25 39 != 0 || off % 512 != 0 then .error illegalOperand
  else if off + n > bedEnd then .error handleBound
  else .ok (clusterOf c.id * 16 + (field x 21 4).toNat, off)

/-- Whether core g runs a unit of the same launch: the reach of a remote bed access (R224). -/
def State.reaches (s : State) (g : Nat) : Bool :=
  match s.core.unit, (s.coreOf g).unit with
  | some u, some t => u.asid == t.asid && u.launch == t.launch
  | _, _ => false

/-- MMA (R196 to R198, R67): the profile and the scale set are fixed at issue. -/
def execMma (o : XMma) (s : State) : Res :=
  tileOp o.qp (aRegs o.a ++ [.x o.b]) s fun s =>
    let c := s.core
    let mode := o.mode.toNat
    let mx := mode == 5
    let an := if mx then 17408 else 16384
    let bn := if mx then 8704 else 8192
    if c.aPoison o.a || c.xp o.b then fault poisonConsumed s
    else match c.profile with
      | none => fault illegalOperand s
      | some prof => match c.aOperand o.a an (if mx then 32768 else 16384) an (modeTag mode o.af) with
        | .wait => stall s
        | .bad code => fault code s
        | .at_ a =>
          let b := if o.rb then remoteB c (c.x o.b) bn
            else match imageFault c (c.x o.b) 512 bn false with
              | some code => .error code
              | none => .ok (c.id, (c.x o.b).toNat)
          match b with
          | .error code => fault code s
          | .ok (g, off) =>
            let t := c.tile o.acc.toNat
            let op := TileOp.mma o.acc.toNat a off (if o.rb then some g else none) mode o.af o.bf o.ovw o.mc prof t.sA t.sB t.sPoison
            let go := fun (s : State) => ok s (·.enqueueTile op)
            if !o.rb then tagBed (a.tagged an ++ [(off, bn)]) .read s go
            else tagBed (a.tagged an) .read s fun s =>
              if s.reaches g then withRanges g .read [(off, bn)] s go else go s

/-- MZERO (R201). -/
def execMzero (o : XAcc) (s : State) : Res :=
  tileOp o.qp [] s fun s => ok s (·.enqueueTile (.mzero o.acc.toNat))

/-- MLD (R202). -/
def execMld (o : XMld) (s : State) : Res :=
  tileOp o.qp [.x o.b] s fun s =>
    let c := s.core
    let n := imgBytes o.img.toNat
    if c.xp o.b then fault poisonConsumed s
    else match imageFault c (c.x o.b) 512 n false with
      | some code => fault code s
      | none =>
        let a := (c.x o.b).toNat
        tagBed [(a, n)] .read s fun s => ok s (·.enqueueTile (.mld o.acc.toNat a o.img.toNat))

/-- Whether an entry of the queue names a tile: its busy bit (R186). -/
def Core.busy (c : Core) (t : Nat) : Bool := c.mx.queue.any (fun e => e.op.tiles.contains t)

/-- MST into the bed (R203): a tile that is poisoned and not busy is reported at once (R190). -/
def execMstBed (o : XMst) (s : State) : Res :=
  tileOp o.qp [.x o.b] s fun s =>
    let c := s.core
    let n := imgBytes o.img.toNat
    let t := o.acc.toNat
    if c.xp o.b then fault poisonConsumed s
    else match imageFault c (c.x o.b) 512 n true with
      | some code => fault code s
      | none =>
        let a := (c.x o.b).toNat
        if !(c.busy t) && (c.tile t).poison then fault poisonConsumed s
        else tagBed [(a, n)] .write s fun s => withUndos (n / 512) s fun s =>
          ok s (·.enqueueTile (.mstBed t a o.img.toNat o.sat))

/-- The tag of a signal that takes an image (R203). -/
def imgTag (img : Nat) : Tag :=
  match img with
  | 1 => tBF16
  | 2 => tF16
  | _ => tF32

/-- Every written bit of a pending sample set (R203). -/
def Core.setWritten (c : Core) (d : SigDecl) (sig slot : Nat) : Core :=
  { c with sig := c.sig.modSlot sig slot (fun t => { t with written := d.allParts }) }

/-- MST into a signal (R203): the faults of TAPWR, every written bit set at issue. -/
def execMstSignal (o : XMss) (s : State) : Res :=
  tileOp o.qp [] s fun s =>
    let c := s.core
    let t := o.acc.toNat
    match c.q o.q with
    | none => fault illegalOperand s
    | some p => withSignal p.sig s fun d =>
      if p.lag != 0 || p.off != 0 || !d.written || d.size != imgBytes o.img.toNat then fault illegalOperand s
      else if !(c.pendingNow d p.sig p.slot) then fault offRateWrite s
      else if d.tag != imgTag o.img.toNat && d.tag != tBITS then fault formatMismatch s
      else if !(c.busy t) && (c.tile t).poison && d.kind == 3 then fault poisonConsumed s
      else
        let n := (c.slotState p.sig p.slot).n
        ok s (fun c => (c.enqueueTile (.mstSig t p.sig p.slot n o.img.toNat o.sat)).setWritten d p.sig p.slot)

/-- Row i of a tile: 64 words. -/
def Tile.row (t : Tile) (i : Nat) : VBits := (elemAt t.bits 2048 i).setWidth 4096

/-- MROW, tile to vector (R204). -/
def execMrow (o : XMrow) (s : State) : Res :=
  begin o.qp [.v o.d] s fun s =>
    let c := s.core
    if c.busy o.acc.toNat then stall s
    else
      let t := c.tile o.acc.toNat
      writeV o.d (t.row o.row.toNat) (if o.int then tI32 else tF32) t.poison 5 s

/-- MROW, vector to tile (R204). -/
def execMrowW (o : XMroww) (s : State) : Res :=
  tileOp o.qp [.v o.a] s fun s =>
    let v := s.core.v o.a
    if v.tag != tF32 && v.tag != tI32 then fault formatMismatch s
    else ok s (·.enqueueTile (.mrowW o.acc.toNat o.row.toNat v.bits v.poison))

/-- A tile copied into its shadow before its first write after the mark (R30). -/
def Core.shadowTile (c : Core) (t : Nat) : Core :=
  if c.rg.shadow.isNone || c.rg.tiles.any (fun e => e.1 == t) then c
  else { c with rg := { c.rg with tiles := c.rg.tiles ++ [(t, c.tile t)] } }

/-- MSCL (R200): the scale set changes at issue. -/
def execMscl (o : XMscl) (s : State) : Res :=
  begin o.qp (srcRegs o.a ++ [.x o.b]) s fun s =>
    let t := o.acc.toNat
    if s.core.busy t then stall s
    else useSrc o.a s fun v =>
      if v.tag != tF32 then fault formatMismatch s
      else if field (s.core.x o.b) 32 32 != 0 then fault illegalOperand s
      else ok s (fun c =>
        let c := c.shadowTile t
        c.setTile t { c.tile t with sA := v.bits, sB := field (c.x o.b) 0 32, sPoison := v.poison || c.xp o.b })

/-- MGRP (R199): a group holds the core's own bit, or nothing. -/
def execMgrp (o : SA) (s : State) : Res :=
  begin o.qp [.x o.a] s fun s =>
    let x := s.core.x o.a
    if field x 16 48 != 0 || (x != 0 && !(bitAt x (placeOf s.core.id))) then fault illegalOperand s
    else ok s (fun c => { c with mx := { c.mx with mgrp := field x 0 16 } })

/-! What entries compute. -/

/-- The elements of a run of bytes, w bits each (R45). -/
def elemsOfBytes (w : Nat) (bs : List Byte) : List Nat :=
  let v := natOfBytes bs
  (List.range (8 * bs.length / w)).map (fun i => natBits v (w * i) w)

/-- Rows of 128 bytes as elements (R194). -/
def imageRows (w n : Nat) (bs : List Byte) : List (List Nat) :=
  (List.range n).map (fun i => elemsOfBytes w ((bs.drop (128 * i)).take 128))

/-- The format of an operand by mode (R59, R196). -/
def modeFmt (mode : Nat) (e5m2 : Bool) : Fmt :=
  match mode with
  | 3 => Fmt.bf16
  | 4 => Fmt.f16
  | 5 => Fmt.e2m1
  | _ => if e5m2 then Fmt.e5m2 else Fmt.e4m3

/-- The group size of a profile by mode (R65). -/
def Profile.g (p : Profile) (mode : Nat) : Nat :=
  match mode with
  | 3 => p.g16
  | 4 => p.g16
  | 5 => p.g4
  | _ => p.g8

/-- The values of an operand's rows, subnormals flushed where the profile says so, MXFP4 elements with their scales (R57, R59, R194). -/
def operandRows (p : Profile) (mode : Nat) (e5m2 : Bool) (n : Nat) (bs : List Byte) : List (List FV) :=
  let f := modeFmt mode e5m2
  let val := fun (x : Nat) => flushSub p.din f (f.decode x)
  let rows := (imageRows f.w n bs).map (·.map val)
  if mode != 5 then rows
  else
    let sc := bs.drop (128 * n)
    (rows.zip (List.range n)).map (fun (r, i) =>
      let ss := ((sc.drop (8 * i)).take 8).map (fun b => ofE8m0 b.toNat)
      (r.zip (List.range r.length)).map (fun (v, k) => FV.mul v (ss.getD (k / 32) .nan)))

/-- One element of a floating-point MMA (R61, R62). -/
def mmaElem (p : Profile) (mode : Nat) (acc : Nat) (sA sB : Nat) (a b : List FV) : Nat :=
  let prods := (a.zip b).map (fun (x, y) => FV.mul x y)
  let inc := flushSub p.din Fmt.fp32 (f32 acc)
  if mode == 1 then
    let s := dotChain p (p.g 1) (.fin false 0 0) prods
    let sc := f32 (toF32 (FV.mul (f32 sA) (f32 sB)))
    let t := f32 (toF32 (FV.mul sc s))
    toF32 (groupSum p [inc, t])
  else toF32 (dotChain p (p.g mode) inc prods)

/-- One element of an INT8 MMA (R63). -/
def mmaInt (sa sb : Bool) (acc : Nat) (a b : List Nat) : Nat :=
  let val := fun (sgn : Bool) (x : Nat) => if sgn then sNat 8 x else (x : Int)
  natWrap 32 ((a.zip b).foldl (fun t (x, y) => t + val sa x * val sb y) (acc : Int))

/-- The words of a tile after an MMA (R197), row-major. -/
def mmaWords (mode : Nat) (af bf ovw : Bool) (prof : Nat) (sA : VBits) (sB : BitVec 32) (old : TileBits) (a b : List Byte) : List Nat :=
  let olds := if ovw then List.replicate 8192 0 else elemsOf old 32
  let inc := fun (i j : Nat) => olds.getD (64 * i + j) 0
  if mode == 2 then
    let bs := imageRows 8 64 b
    ((imageRows 8 128 a).zip (List.range 128)).flatMap (fun (r, i) =>
      (bs.zip (List.range 64)).map (fun (c, j) => mmaInt af bf (inc i j) r c))
  else match profileOf prof with
    | none => olds
    | some p =>
      let bs := operandRows p mode bf 64 b
      ((operandRows p mode af 128 a).zip (List.range 128)).flatMap (fun (r, i) =>
        let s := (elemAt sA 32 i : BitVec 32).toNat
        (bs.zip (List.range 64)).map (fun (c, j) => mmaElem p mode (inc i j) s sB.toNat r c))

/-- A tile image's words as they enter a tile (R202): FP32 as bits, 16-bit elements widened. -/
def loadImage (img : Nat) (bs : List Byte) : List Nat :=
  match img with
  | 1 => (elemsOfBytes 16 bs).map (fun x => toF32 (Fmt.bf16.decode x))
  | 2 => (elemsOfBytes 16 bs).map (fun x => toF32 (Fmt.f16.decode x))
  | _ => elemsOfBytes 32 bs

/-- A tile's image as an MST writes it (R203). -/
def storeImage (img : Nat) (sat : Bool) (t : TileBits) : List Byte :=
  match img with
  | 1 => (elemsOf t 32).flatMap (fun x => bytesOfNat (Fmt.bf16.encode 0 0 sat (f32 x)) 2)
  | 2 => (elemsOf t 32).flatMap (fun x => bytesOfNat (Fmt.f16.encode 0 0 sat (f32 x)) 2)
  | _ => bytesOf t 32768

/-! Performing an entry. -/

/-- How an entry goes on. -/
inductive TileRes where
  /-- It has completed. -/
  | done (s : State)
  /-- A step of it has been made; it stays at the head. -/
  | more (s : State)
  | wait
  | fault (f : FaultRec)
  deriving DecidableEq, Repr

/-- A fault an entry meets while it executes: origin 1 (R192, R341). -/
def tileFault (code : BitVec 8) (cause va : Nat) (wr : Bool) : FaultRec := { accessFault code cause 7 va wr with origin := 1 }

/-- Whether an entry was issued after the mark the core holds (R193). -/
def Core.afterMark (c : Core) (e : TileEnt) : Bool := (c.rg.shadow.map (fun h => decide (h.seq ≤ e.seq))).getD false

/-- A tile written by an entry, its shadow taken first where the entry is the first after the mark (R193). -/
def Core.entryTile (c : Core) (e : TileEnt) (t : Nat) (v : Tile) : Core := (if c.afterMark e then c.shadowTile t else c).setTile t v

/-- Bed bytes written by an entry, with their undo record where it lies after the mark. -/
def Core.entryBed (c : Core) (e : TileEnt) (off : Nat) (bs : List Byte) : Core :=
  let u : UndoEnt := ⟨off, c.mem.bed.read off bs.length⟩
  { c with mem := c.mem.writeBed off bs, rg := if c.afterMark e then { c.rg with undo := u :: c.rg.undo } else c.rg }

/-- An A operand's bytes and poison when the entry runs (R189, R190), from the bed as its bundle sees it (R288). -/
def Core.opndBytes (c : Core) (bed : Memory) (o : Opnd) (n : Nat) : List Byte × Bool :=
  match o with
  | .bed off => (bed.read off n, linesPoisoned c.mem.poisoned off n)
  | .sample sig slot i => match c.decl sig with
    | none => ([], false)
    | some d => if i < 0 then (d.primeBytes.take n, false) else c.sampleBytes d sig slot i 0 n

/-- An MMA (R197 to R199): a remote B waits at the bed port for the target's own entries (R188); the beds are seen with the unit's stores
of bundles before its own (R231, R288). A tile it reads poisons it, and so does that tile's scale set (R190; log 37). -/
def State.runMma (s : State) (e : TileEnt) (acc : Nat) (a : Opnd) (b : Nat) (remote : Option Nat) (mode : Nat) (af bf ovw : Bool) (prof : Nat)
    (sA : VBits) (sB : BitVec 32) (sPoison : Bool) : TileRes :=
  let c := s.core
  let an := if mode == 5 then 17408 else 16384
  let bn := if mode == 5 then 8704 else 8192
  let g := remote.getD c.id
  let k := s.coreOf g
  if remote.isSome && !(s.reaches g) then .fault (tileFault permission 8 (bedVa g b) false)
  else if g != c.id && k.tileHolds b bn false then .wait
  else
    let (ab, ap) := c.opndBytes (s.bedBefore e.idx c.id) a an
    let bb := (s.bedBefore e.idx g).read b bn
    let t := c.tile acc
    let poison := ap || linesPoisoned k.mem.poisoned b bn || (!ovw && t.poison) || ((mode == 1 || !ovw) && sPoison)
    let w := mmaWords mode af bf ovw prof sA sB t.bits ab bb
    .done (s.mapCore (·.entryTile e acc { t with bits := packElems 262144 32 w, poison := poison }))

/-- The poison of a sample that an MST writes (R190), in the shadow too where the entry lies before the mark. -/
def Core.samplePoison (c : Core) (e : TileEnt) (d : SigDecl) (sig slot : Nat) (i : Int) (p : Bool) : Core :=
  let ps := if p then List.range d.parts else []
  let sg := c.sig.setParts sig slot i ps
  let new := ps.map (fun q => (⟨sig, slot, i, q⟩ : PoisonPart))
  let others := fun (q : PoisonPart) => !(q.sig == sig && q.slot == slot && q.idx == i)
  let sh := c.rg.shadow.map (fun h => if h.seq ≤ e.seq then h else { h with sigPoison := h.sigPoison.filter others ++ new })
  { c with sig := sg, rg := { c.rg with shadow := sh } }

/-- The entry at the head performed, for every operation but ATTN. -/
def State.runTile (s : State) (e : TileEnt) : TileRes :=
  let c := s.core
  match e.op with
  | .mma acc a b remote mode af bf ovw _ prof sA sB sPoison => s.runMma e acc a b remote mode af bf ovw prof sA sB sPoison
  | .mzero acc => .done (s.mapCore (fun c => c.entryTile e acc { c.tile acc with bits := 0, poison := false }))
  | .mld acc addr img =>
    let n := imgBytes img
    let w := loadImage img ((s.bedBefore e.idx c.id).read addr n)
    .done (s.mapCore (fun c => c.entryTile e acc
      { c.tile acc with bits := packElems 262144 32 w, poison := linesPoisoned c.mem.poisoned addr n }))
  | .mstBed acc addr img sat =>
    if (c.tile acc).poison then .fault (tileFault poisonConsumed 0 0 true)
    else .done (s.mapCore (fun c => c.entryBed e addr (storeImage img sat (c.tile acc).bits)))
  | .mstSig acc sig slot i img sat =>
    match c.decl sig with
    | none => .done s
    | some d =>
      if (c.tile acc).poison && d.kind == 3 then .fault (tileFault poisonConsumed 0 0 true)
      else .done (s.mapCore (fun c =>
        (c.entryBed e (d.pos slot i) (storeImage img sat (c.tile acc).bits)).samplePoison e d sig slot i (c.tile acc).poison))
  | .mrowW acc row bits poison =>
    .done (s.mapCore (fun c =>
      let t := c.tile acc
      c.entryTile e acc { t with bits := putField t.bits (2048 * row) (bits.setWidth 2048), poison := t.poison || poison }))
  | .attn _ => .wait

end Sys2Proof.Machine
end

