-- ==== Sys2Proof/Machine/Names.lean ====
section
/-! DEFINITION. The registers an instruction names: its x destinations (R206) and its v registers (R11, R17). -/

namespace Sys2Proof.Machine

/-- The x registers an instruction's field names as destinations (R72 to R76). -/
def xDests : Instr → List RegNo
  | .iadd o | .isub o | .andR o | .orR o | .xor o | .andn o | .orn o | .shl o | .shr o | .sar o | .ror o | .imin o | .imax o
  | .iminz o | .imaxz o | .imul o | .imulh o | .imulhz o | .idiv o | .idivz o | .irem o | .iremz o => [o.d]
  | .clz o | .ctz o | .popc o | .brev o | .bswap o | .iabs o | .ineg o => [o.d]
  | .iaddi o | .andi o | .ori o | .xori o | .imuli o => [o.d]
  | .shli o | .shri o | .sari o | .rori o => [o.d]
  | .exts o | .extz o | .dep o => [o.d]
  | .lea o => [o.d]
  | .sel o => [o.d]
  | .movi o => [o.d]
  | .movk o => [o.d]
  | .pget o => [o.d]
  | .fadd o | .fsub o | .fmul o | .fdiv o | .fmin o | .fmax o | .ffma o => [o.d]
  | .fsqrt o => [o.d]
  | .mfs o => [o.d]
  | .hinfo o | .hinfoVa o => [o.d]
  | .pcommit o | .btset o | .launch o | .graph o => [o.d]
  | .pdecommit o | .qfree o | .btget o => [o.d]
  | .qalloc o | .btapp o => [o.d]
  | .sqst o => [o.d]
  | .siginf o => [o.d]
  | .ldb o | .ldbz o | .ldh o | .ldhz o | .ldw o | .ldwz o | .ldd o | .rld o => [o.rg]
  | .gldb o | .gldh o | .gldw o | .gldd o | .gldsW o | .gldsD o => [o.rg]
  | .vextr o => [o.d]
  | .fcvt o => if o.dst == 3 then [o.d, o.d + 1] else [o.d]
  | .taprd o => if o.x then [o.d] else []
  | .call _ => [1]
  | .brx o => [o.d]
  | _ => []

/-- The v registers of a group that a port's signal gives an operand field (R180, R181). -/
def Core.portGroup (c : Core) (q : BitVec 3) (r : RegNo) : List Nat :=
  group r (((c.q q).bind (fun t => (c.decl t.sig).map (·.group))).getD 1)

/-- The v registers an instruction names (R71, R74, R75). -/
def Core.vNamed (c : Core) : Instr → List Nat
  | .vadd o | .vsub o | .vmul o | .vfma o | .vfms o | .vfnma o | .vdiv o | .vscl o => o.d.toNat :: (srcV o.a ++ srcV o.b)
  | .vmin o | .vmax o => o.d.toNat :: (srcV o.a ++ srcV o.b)
  | .viadd o | .visub o | .vimul o | .vimad o | .vshl o => o.d.toNat :: (srcV o.a ++ srcV o.b)
  | .vimin o | .vimax o => o.d.toNat :: (srcV o.a ++ srcV o.b)
  | .vshr o | .vsar o => o.d.toNat :: (srcV o.a ++ srcV o.b)
  | .vand o | .vor o | .vxor o | .vandn o | .vperml o | .vpermlTwo o => o.d.toNat :: (srcV o.a ++ srcV o.b)
  | .vdot4 o => o.d.toNat :: (srcV o.a ++ srcV o.b)
  | .vselk o => o.d.toNat :: (srcV o.a ++ srcV o.b)
  | .vpermb o => o.d.toNat :: (srcV o.a ++ srcV o.b)
  | .vabs o | .vneg o => o.d.toNat :: srcV o.a
  | .vrcp o | .vrsq o | .vexp2 o | .vlog2 o | .vtanh o => o.d.toNat :: srcV o.a
  | .vsqrt o => o.d.toNat :: srcV o.a
  | .viabs o => o.d.toNat :: srcV o.a
  | .vcvt o => o.d.toNat :: srcV o.a
  | .vredFsum o | .vredFmax o | .vredFmin o | .vredImax o | .vredImin o | .vredImaxz o | .vredIminz o => o.d.toNat :: srcV o.a
  | .vredIsum o => o.d.toNat :: srcV o.a
  | .vmov o => o.d.toNat :: srcV o.a
  | .vtag o => o.d.toNat :: srcV o.a
  | .vcmp o => srcV o.a ++ srcV o.b
  | .kmovV2k o => srcV o.a
  | .kmovK2v o => [o.d.toNat]
  | .vbcast o => [o.d.toNat]
  | .vimm o => [o.d.toNat]
  | .mrow o => [o.d.toNat]
  | .mrowW o => [o.a.toNat]
  | .mscl o => srcV o.a
  | .vld o | .rvld o => [o.rg.toNat]
  | .vst o | .rvst o => [o.rg.toNat]
  | .gvld o => [o.rg.toNat]
  | .gvst o => [o.rg.toNat]
  | .vgath o => [o.rg.toNat, o.idx.toNat]
  | .vscat o => [o.rg.toNat, o.idx.toNat]
  | .chkv o => [o.a.toNat]
  | .vextr o => [o.a.toNat]
  | .vins o => [o.d.toNat]
  | .taprd o => if o.x then [] else c.portGroup o.q o.d
  | .tapwr o => if o.x then [] else c.portGroup o.q o.a
  | _ => []

end Sys2Proof.Machine
end

