-- ==== Sys2Proof/Machine/Seqr.lean ====
section
/-! DEFINITION. The sequencer (R205 to R210): loading a program, the nest of R207 as the bundle that comes next, and the instructions SQLD,
SQGO, SQABT, SQST. -/

namespace Sys2Proof.Machine

/-! Positions of the nest (R207). -/

/-- The bundles of template t. -/
def SeqProg.len (p : SeqProg) (t : Nat) : Nat := (p.templates.getD t []).length

/-- The outer indices counted on by one, the innermost of them fastest; none when the last iteration is over. -/
def countUp : List Nat → List Nat → Option (List Nat)
  | t :: ts, i :: is => match countUp ts is with
    | some js => some (i :: js)
    | none => if i + 1 < t then some ((i + 1) :: is.map (fun _ => 0)) else none
  | _, _ => none

/-- Whether the nest issues nothing before template 3: an outer trip of 0, or an innermost level without a bundle. -/
def SeqProg.hollow (p : SeqProg) (trips : List Nat) : Bool :=
  (trips.take p.inner).contains 0 || (trips.getD p.inner 0 == 0 && p.len 1 == 0 && p.len 2 == 0)

/-- Where a run of the innermost level begins. -/
def SeqProg.enter (p : SeqProg) (trips : List Nat) : SeqRun :=
  if p.len 1 > 0 then ⟨1, 0⟩ else if trips.getD p.inner 0 > 0 then ⟨0, 0⟩ else ⟨2, 0⟩

/-- Template 3, where it has a bundle. -/
def SeqProg.last (p : SeqProg) : Option SeqRun := if p.len 3 > 0 then some ⟨3, 0⟩ else none

/-- After the innermost level: the next iteration of the levels outside it, or template 3. -/
def SeqProg.outer (p : SeqProg) (trips idx : List Nat) : List Nat × Option SeqRun :=
  match countUp (trips.take p.inner) (idx.take p.inner) with
  | some is => (is ++ [0], some (p.enter trips))
  | none => (idx.map (fun _ => 0), p.last)

/-- Template 2, or what follows it. -/
def SeqProg.tail (p : SeqProg) (trips idx : List Nat) : List Nat × Option SeqRun :=
  let idx := idx.set p.inner 0
  if p.len 2 > 0 then (idx, some ⟨2, 0⟩) else p.outer trips idx

/-- The indices and the position after the bundle at a position has issued (R207). -/
def SeqProg.next (p : SeqProg) (trips idx : List Nat) (r : SeqRun) : List Nat × Option SeqRun :=
  if r.pos + 1 < p.len r.tmpl then (idx, some ⟨r.tmpl, r.pos + 1⟩)
  else match r.tmpl with
    | 1 => if trips.getD p.inner 0 > 0 then (idx, some ⟨0, 0⟩) else p.tail trips idx
    | 0 => if idx.getD p.inner 0 + 1 < trips.getD p.inner 0 then (idx.set p.inner (idx.getD p.inner 0 + 1), some ⟨0, 0⟩) else p.tail trips idx
    | 2 => p.outer trips idx
    | _ => (idx, none)

/-- Where a sequence begins. -/
def SeqProg.start (p : SeqProg) (trips : List Nat) : Option SeqRun := if p.hollow trips then p.last else some (p.enter trips)

/-- A stream's value at some indices (R207). -/
def Stream.value (t : Stream) (idx : List Nat) : Word :=
  (idx.zip t.inc).foldl (fun v (i, n) => v + BitVec.ofInt 64 ((i : Int) * n)) (BitVec.ofNat 64 t.base)

/-! Issue. -/

/-- The template bundle that comes next: a handler's bundles are fetched (R210). -/
def Core.template (c : Core) : Option BundleBits :=
  if c.sys.intrap then none
  else match c.seqr.prog, c.seqr.run with
    | some p, some r => (p.templates.getD r.tmpl [])[r.pos]?
    | _, _ => none

/-- The stream registers of the program loaded. -/
def Core.streamRegs (c : Core) : List RegNo := (c.seqr.prog.map (fun p => p.streams.map (·.xreg))).getD []

/-- Whether a result is pending for a stream register (R207). -/
def Core.streamPending (c : Core) : Bool := c.streamRegs.any (fun r => (c.pendOn (.x r)).isSome)

/-- The streams written before a template bundle; a result still bound for one of their registers lands before (R207). -/
def Core.writeStreams (c : Core) : Core :=
  let rs := c.streamRegs
  let bound := fun (f : Flight) => rs.any (fun r => f.land.pdest == some (.x r))
  let c := applyAll ((c.pipe.flights.filter bound).map (·.land))
    { c with pipe := { c.pipe with flights := c.pipe.flights.filter (fun f => !(bound f)) } }
  match c.seqr.prog with
  | none => c
  | some p => { c with r := p.streams.foldl (fun r t => r.setX t.xreg ⟨t.value c.seqr.idx, false⟩) c.r }

/-- The sequencer after a template bundle has issued (R207); an SQABT of the bundle has ended the sequence (R208). -/
def Core.seqAdvance (c : Core) : Core :=
  match c.seqr.prog, c.seqr.run with
  | some p, some r =>
    let (idx, run) := p.next c.seqr.trips c.seqr.idx r
    { c with seqr := { c.seqr with idx := idx, run := run } }
  | _, _ => c

/-! SQLD (R205, R206). -/

/-- Fields of a descriptor that keep their ranges: the first two words. -/
def seqHeadOk (w0 w1 : Word) : Bool :=
  let nstr := (field w0 32 4).toNat
  let inner := (field w0 24 3).toNat
  let l := fun (i : Nat) => (field w1 (8 * i) 6).toNat
  field w0 36 28 == 0 && field w0 27 5 == 0 && field w0 17 7 == 0 && nstr ≤ 8 && inner ≤ 5 &&
    field w1 30 34 == 0 && field w1 6 2 == 0 && field w1 14 2 == 0 && field w1 22 2 == 0 &&
    1 ≤ l 0 && l 0 ≤ 32 && l 1 ≤ 32 && l 2 ≤ 32 && l 3 ≤ 32

/-- A level word, and whether its zero field is zero. -/
def seqLevel (w : Word) : Level × Bool := (⟨bitAt w 24, (field w 25 5).toNat, (field w 0 24).toNat⟩, field w 30 34 == 0)

/-- A stream's four words, and whether they keep R205. -/
def seqStream (ws : List Word) : Stream × Bool :=
  let w := ws.getD 0 0
  let r := (field w 0 6).toNat
  let incs := (ws.drop 1).flatMap (fun x => [(field x 0 32).toInt, (field x 32 32).toInt])
  (⟨field w 0 6, (field w 32 32).toNat, incs⟩, field w 6 26 == 0 && 3 ≤ r && !(8 ≤ r && r ≤ 13))

/-- Whether a template bundle may stand (R206). -/
def templateOk (streams : List RegNo) (b : BundleBits) : Bool :=
  let d := decodeBundle b
  let bad := fun (i : Instr) => i.branchClass || i.regionClosing || (match i with
    | .sqld _ => true
    | .sqgo _ => true
    | _ => false) || (xDests i).any streams.contains
  !d.rm && d.instrs.all (fun e => !(bad e.2))

/-- The bundles from an address on. -/
def State.fetchRun (s : State) (asid : Nat) : Nat → Nat → Except (BitVec 8 × Nat × Nat) (List BundleBits)
  | 0, _ => .ok []
  | n + 1, pc =>
    let pc := pc % 2 ^ 56
    match s.fetch asid pc with
    | .error (code, cause) => .error (code, cause, pc)
    | .ok b => match s.fetchRun asid n (pc + 32) with
      | .error e => .error e
      | .ok bs => .ok (b :: bs)

/-- The lists of bundles that lengths cut a list into. -/
def cutInto {α : Type} : List Nat → List α → List (List α)
  | [], _ => []
  | n :: ns, l => l.take n :: cutInto ns (l.drop n)

/-- A signal and a slot that SL levels may name (R206). -/
def Core.seqSlotOk (c : Core) (sig slot : Nat) : Bool := ((c.decl sig).map (fun d => d.arch && decide (slot < d.slots))).getD false

/-- The words of a descriptor at an offset of the bed in focus, as the bundle at issue sees it (R9, R288). -/
def State.bedWords (s : State) (a n : Nat) : List Word :=
  let bed := s.seenBed s.core.id
  (List.range n).map (fun i => bed.readW (a + 8 * i))

/-- The words of a descriptor in use (R205). -/
def seqWords (w0 : Word) : Nat :=
  let nstr := (field w0 32 4).toNat
  max (3 + (field w0 24 3).toNat) (if nstr == 0 then 0 else 8 + 4 * nstr)

/-- The program a descriptor and the bundles behind it make; none where R206 refuses it. -/
def Core.seqProgram (c : Core) (ws : List Word) (bs : List BundleBits) : Option SeqProg :=
  let w0 := ws.getD 0 0
  let w1 := ws.getD 1 0
  let inner := (field w0 24 3).toNat
  let levels := (List.range (inner + 1)).map (fun l => seqLevel (ws.getD (2 + l) 0))
  let streams := (List.range (field w0 32 4).toNat).map (fun k => seqStream ((ws.drop (8 + 4 * k)).take 4))
  let slv := bitAt w0 16
  let sig := (field w0 0 8).toNat
  let slot := (field w0 8 8).toNat
  let ok := seqHeadOk w0 w1 && levels.all (·.2) && streams.all (·.2) && (!slv || c.seqSlotOk sig slot) &&
    levels.all (fun l => slv || !l.1.sl) && bs.all (templateOk (streams.map (·.1.xreg)))
  let lens := (List.range 4).map (fun i => (field w1 (8 * i) 6).toNat)
  if ok then some ⟨inner, sig, slot, levels.map (·.1), streams.map (·.1), cutInto lens bs⟩ else none

/-- The bundles that templates take, by the descriptor's second word. -/
def seqTotal (w1 : Word) : Nat := ((List.range 4).map (fun i => (field w1 (8 * i) 6).toNat)).sum

/-- SQLD (R206): its templates are not executed in line (Core.nextPc). A template on a page that cannot be fetched raises the fetch's fault
(R348). -/
def execSqld (o : SA) (s : State) : Res :=
  begin o.qp [.x o.a] s fun s =>
    let c := s.core
    let a := (c.x o.a).toNat
    if c.xp o.a then fault poisonConsumed s
    else if a % 64 ≠ 0 then fault illegalOperand s
    else if a + 64 > bedEnd then fault handleBound s
    else
      let w0 := (s.seenBed c.id).readW a
      let w1 := (s.seenBed c.id).readW (a + 8)
      let n := if seqHeadOk w0 w1 then seqWords w0 else 8
      if c.tileHolds a (8 * n) false then stall s
      else if !(seqHeadOk w0 w1) then fault illegalOperand s
      else if a + 8 * n > bedEnd then fault handleBound s
      else tagBed [(a, 8 * n)] .read s fun s =>
        match s.fetchRun c.asid (seqTotal w1) (c.ctl.pc.toNat + 32) with
        | .error (code, cause, pc) =>
          let (code, cause) := if code == uncommitted then (pageFault, 1) else (code, cause)
          raise (withOrigin (accessFault code cause c.ctl.slot pc false) 3) s
        | .ok bs => match c.seqProgram (s.bedWords a n) bs with
          | none => fault illegalOperand s
          | some p => ok s (fun c => { c with seqr := { c.seqr with prog := some p, run := none } })

/-- The bundles an SQLD of the bundle at issue takes as templates (R206): none where its predicate reads false, or where it stalls or
raises. -/
def State.sqldSkip (s : State) (b : Bundle) : Nat :=
  match b.x with
  | .ok (.sqld o) =>
    if !(s.core.p o.qp) then 0
    else match execSqld o s with
      | .next t => (t.core.seqr.prog.map (fun p => (p.templates.map List.length).sum)).getD 0
      | _ => 0
  | _ => 0

/-- The address of the bundle n places on in a unit's order: behind the last template after an SQLD with a true predicate (R206). -/
def Core.pcAfter (c : Core) (n : Nat) : Word := addr56 (c.ctl.pc + BitVec.ofNat 64 (32 * (n + c.ctl.skip)))

/-! SQGO, SQABT, SQST (R207 to R209). -/

/-- The trips at SQGO's issue (R207): SEQLEN is n + 1 (R171). -/
def Core.seqTrips (c : Core) (p : SeqProg) : List Nat :=
  p.levels.map (fun l => if l.sl then ceilShift ((c.slotState p.sig p.slot).n + 1).toNat l.sh else l.trip)

/-- SQGO (R207). -/
def execSqgo (o : SQ) (s : State) : Res :=
  begin o.qp [] s fun s =>
    match s.core.seqr.prog with
    | none => fault illegalOperand s
    | some p => ok s (fun c =>
      let ts := c.seqTrips p
      { c with seqr := { c.seqr with trips := ts, idx := ts.map (fun _ => 0), run := p.start ts } })

/-- SQABT (R208, R210). -/
def execSqabt (o : SQ) (s : State) : Res :=
  begin o.qp [] s fun s => ok s (fun c =>
    if c.seqr.run.isSome then { c with seqr := { c.seqr with run := none } } else { c with seqr := { c.seqr with prog := none } })

/-- SQST's item (R209). The trip count of a level that the last SQGO has not set is a free value: the spec gives it none (log 77). -/
def Core.seqItem (c : Core) (item : Nat) : Word :=
  if item < 6 then BitVec.ofNat 64 (c.seqr.idx.getD item 0)
  else if item == 6 then
    BitVec.ofNat 64 ((if c.seqr.prog.isSome then 1 else 0) + (if c.seqr.run.isSome then 2 else 0) +
      4 * (c.seqr.prog.map (·.inner)).getD 0)
  else ((c.seqr.trips[item - 8]?).map (BitVec.ofNat 64)).getD (Config.noTrip (item - 8))

/-- SQST (R209). -/
def execSqst (o : XSqst) (s : State) : Res := begin o.qp [.x o.d] s fun s => writeX o.d (s.core.seqItem o.item.toNat) false 1 s

end Sys2Proof.Machine
end

