-- ==== Sys2Proof/Machine/Attn.lean ====
section
/-! DEFINITION. ATTN (R211 to R218, R405): its checks at issue, and the walk over key tiles. Each TILE_ENTRY_COMPLETE makes one step of it: a
pruned tile, the start of a tile (its block-table entries read), a tile computed, or the end. -/

namespace Sys2Proof.Machine

/-! Issue. -/

/-- The format of Q, K and V, its tag, and the group size of its dot products (R211, R214). -/
def attnFmt (fmt : Nat) : Fmt :=
  match fmt with
  | 0 => Fmt.bf16
  | 1 => Fmt.f16
  | 2 => Fmt.e4m3
  | _ => Fmt.e5m2
def attnTag (fmt : Nat) : Tag :=
  match fmt with
  | 0 => tBF16
  | 1 => tF16
  | 2 => tE4M3
  | _ => tE5M2
def attnGroup (p : Profile) (fmt : Nat) : Nat := if fmt ≤ 1 then p.g16 else p.g8

/-- The parameters a descriptor gives (R212), the rest captured at issue. -/
def attnOf (o : XAttn) (q : Opnd) (prof : Nat) (margin : BitVec 32) (seqlen : Nat) (w : List Word) : AttnOp :=
  let f := fun (i lo n : Nat) => (field (w.getD i 0) lo n).toNat
  let khi := f 3 24 24
  { acc := o.acc.toNat, q := q, fmt := o.fmt.toNat, d128 := o.d128, init := o.init, fin := o.fin, prune := o.prune, prof := prof,
    margin := margin, ksig := f 0 0 8, vsig := f 0 8 8, slot := f 0 16 8, rows := f 0 24 7 + 1, causal := bitAt (w.getD 0 0) 31,
    qpos0 := f 0 32 32, scale := field (w.getD 1 0) 0 32, state := f 2 0 21, klo := f 3 0 24, khi := if khi == 0 then seqlen else khi,
    norms := f 4 0 21, next := none, m := [], l := [], poison := false, maps := none }

/-- The zero fields of R212. -/
def attnReserved (w : List Word) : Bool :=
  field (w.getD 1 0) 32 32 == 0 && field (w.getD 2 0) 21 43 == 0 && field (w.getD 3 0) 48 16 == 0 && field (w.getD 4 0) 21 43 == 0 &&
    field (w.getD 4 0) 0 2 == 0 && w.getD 5 0 == 0 && w.getD 6 0 == 0 && w.getD 7 0 == 0

/-- An archived OWN signal (R213). -/
def SigDecl.archived (d : SigDecl) : Bool := d.kind == 0 && d.arch

/-- The bytes of the norm bounds an ATTN may read (R212). -/
def AttnOp.normBytes (o : AttnOp) : Nat := if o.prune && o.klo < o.khi then 4 * ((o.khi + 63) / 64 - o.klo / 64) else 0

/-- Q's port, or none for the bed form. -/
def qPort (a : Src) (c : Core) : Option (Option SigDecl) :=
  match a with
  | .reg _ => none
  | .tap q => some ((c.q q).bind (fun t => c.decl t.sig))

/-- The range reaches the pending sample, a part of it unwritten (R213). -/
def Core.reachesOpen (c : Core) (o : AttnOp) (sig : Nat) (d : SigDecl) : Bool :=
  let n := (c.slotState sig o.slot).n
  c.pendingNow d sig o.slot && (o.klo : Int) ≤ n && n < (o.khi : Int) && (c.slotState sig o.slot).written != d.allParts

/-- The range holds an index that the archive ring holds no longer (R213, R172). -/
def Core.overrun (c : Core) (o : AttnOp) (sig : Nat) (d : SigDecl) : Bool :=
  let t := c.slotState sig o.slot
  let lo : Int := max (o.klo : Int) t.floor
  lo < (o.khi : Int) && t.n - lo ≥ (d.adepth : Int)

/-- The faults of R213 on signals and ranges, in the order of its table; the port of Q among them. -/
def Core.attnFault (c : Core) (a : Src) (o : AttnOp) (w : List Word) : Option (BitVec 8) :=
  let tag := attnTag o.fmt
  let tagBad := fun (d : SigDecl) => d.tag != tag && d.tag != tBITS
  match c.decl o.ksig, c.decl o.vsig with
  | some k, some v =>
    let seqlen := ((c.slotState o.ksig o.slot).n + 1).toNat
    if !(attnReserved w) || !k.archived || !v.archived || k.slots != v.slots || o.slot ≥ k.slots || o.khi > seqlen then some illegalOperand
    else
      let qd := qPort a c
      let qBad := fun (p : SigDecl → Bool) => match qd with
        | none => false
        | some none => true
        | some (some d) => p d
      if k.size != o.d * o.esize || v.size != o.d * o.esize || qBad (fun d => d.size != 128 * o.d * o.esize) then some illegalOperand
      else if tagBad k || tagBad v || qBad tagBad then some formatMismatch
      else if c.reachesOpen o o.ksig k || c.reachesOpen o o.vsig v then some lagZero
      else if c.overrun o o.ksig k || c.overrun o o.vsig v then some lagOverrun
      else none
  | _, _ => some illegalOperand

/-- The faults of the state's and the norms' addresses (R191, R212, R213). -/
def Core.attnAddrFault (c : Core) (o : AttnOp) : Option (BitVec 8) :=
  if o.state % 1024 ≠ 0 then some illegalOperand
  else if o.state + 1024 > bedEnd || o.state < c.sys.lineEnd || o.norms + o.normBytes > bedEnd then some handleBound
  else none

/-- The keys of a key tile. -/
def AttnOp.keys (o : AttnOp) (j : Nat) : List Nat :=
  (List.range 64).filterMap (fun i => let k := 64 * j + i; if o.klo ≤ k && k < o.khi then some k else none)

/-- Where a sample of K or V lies (R156, R172). -/
inductive KeyAt where
  | prime
  | ring
  | archive
  deriving DecidableEq, Repr

def Core.keyAt (c : Core) (d : SigDecl) (sig slot k : Nat) : KeyAt :=
  let t := c.slotState sig slot
  if (k : Int) < t.floor then .prime else if (k : Int) > t.n - (d.depth : Int) then .ring else .archive

/-- The address of a sample of K or V in its archive block, where it lies there and its block-table entry stands (R172, R192). -/
def Core.keyVa (c : Core) (slot : Nat) (e : Nat × Nat) : Option (Nat × Nat) :=
  match c.decl e.1 with
  | none => none
  | some d => match c.keyAt d e.1 slot e.2 with
    | .archive => match c.archiveVa d e.1 slot e.2 with
      | .ok va => some (va, d.size)
      | .error _ => none
    | _ => none

/-- Archived samples of K and V tagged at issue, each a plain read (R188, R276): those whose page is mapped then. -/
def State.tagSamples (s : State) (slot : Nat) : List (Nat × Nat) → Except (Option Nat) State
  | [] => .ok s
  | e :: es => match s.core.keyVa slot e with
    | none => s.tagSamples slot es
    | some (va, n) => match s.translate s.core.asid va .read with
      | .error _ => s.tagSamples slot es
      | .ok pa => match s.unitTag (memLines pa n) .read with
        | .conflict => .error (some va)
        | .full => .error none
        | .ok t => t.tagSamples slot es

/-- The archived keys and values of an ATTN tagged at its issue. -/
def tagKeys (o : AttnOp) (s : State) (k : State → Res) : Res :=
  let keys := (List.range (o.khi - o.klo)).flatMap (fun i => [(o.ksig, o.klo + i), (o.vsig, o.klo + i)])
  match s.tagSamples o.slot keys with
  | .ok t => k t
  | .error none => stall s
  | .error (some va) => faultAt regionConflict 0 va false true s

/-- ATTN at issue (R211 to R213, R216). -/
def execAttn (o : XAttn) (s : State) : Res :=
  tileOp o.qp (aRegs o.a ++ [.x o.b]) s fun s =>
    let c := s.core
    let da := (c.x o.b).toNat
    if c.aPoison o.a || c.xp o.b then fault poisonConsumed s
    else match c.profile with
      | none => fault illegalOperand s
      | some prof =>
        if da % 64 ≠ 0 then fault illegalOperand s
        else if da + 64 > bedEnd then fault handleBound s
        else if c.tileHolds da 64 false then stall s
        else
          let w := s.bedWords da 8
          let slot := (field (w.getD 0 0) 16 8).toNat
          let ksig := (field (w.getD 0 0) 0 8).toNat
          let seqlen := ((c.slotState ksig slot).n + 1).toNat
          let op := attnOf o (.bed 0) prof c.sys.margin seqlen w
          if c.tablePending op.ksig || c.tablePending op.vsig then stall s
          else match c.attnFault o.a op w with
            | some code => fault code s
            | none =>
              let n := 128 * op.d * op.esize
              match c.aOperand o.a n n n (attnTag op.fmt) with
              | .wait => stall s
              | .bad code => fault code s
              | .at_ q => match c.attnAddrFault op with
                | some code => fault code s
                | none =>
                  let norms := if op.normBytes == 0 then [] else [(op.norms, op.normBytes)]
                  tagBed ((da, 64) :: (q.tagged n ++ norms ++ [(op.state, 1024)])) .read s fun s => tagKeys op s fun s =>
                  tagBed [(op.state, 1024)] .write s fun s => withUndos 2 s fun s =>
                    ok s (·.enqueueTile (.attn { op with q := q }))

/-! The walk. -/

/-- Rows of Q as codes (R211): row-major, as many as ROWS gives. -/
def AttnOp.qRows (o : AttnOp) (bs : List Byte) : List (List Nat) :=
  let n := o.d * o.esize
  (List.range o.rows).map (fun r => elemsOfBytes (8 * o.esize) ((bs.drop (n * r)).take n))

/-- Row r of the output over the tile or the pair. -/
def AttnOp.outRow (o : AttnOp) (c : Core) (r : Nat) : List Nat :=
  (TileOp.attn o).tiles.flatMap (fun t => elemsOf (elemAt (c.tile t).bits 2048 r : BitVec 2048) 32)

/-- The output rows put back into the tile or the pair, with the poison of what has been read: an old poison counts where the old tile has
been read (R190; log 37). -/
def AttnOp.putRows (o : AttnOp) (e : TileEnt) (rows : List (List Nat)) (poison : Bool) (c : Core) : Core :=
  ((TileOp.attn o).tiles.zip [0, 1]).foldl (fun c (t, h) =>
    let old := c.tile t
    let lo := rows.flatMap (fun r => (r.drop (64 * h)).take 64)
    let bits := packElems 262144 32 (lo ++ (elemsOf old.bits 32).drop (64 * rows.length))
    c.entryTile e t { old with bits := bits, poison := poison }) c

/-- The queue's head with its progress. -/
def Core.setAttn (c : Core) (o : AttnOp) : Core :=
  { c with mx := { c.mx with queue := match c.mx.queue with
      | [] => []
      | e :: es => { e with op := .attn o } :: es } }

/-- The start (R214): m, l and O from the state area and the tiles, or their initial values. -/
def Core.attnBegin (c : Core) (bed : Memory) (e : TileEnt) (o : AttnOp) : Core :=
  let word := fun (a : Nat) => bed.readNat a 4
  let q := (c.opndBytes bed o.q (128 * o.d * o.esize)).2
  let old := (TileOp.attn o).tiles.any (fun t => (c.tile t).poison || (c.tile t).sPoison)
  let o := { o with next := some (o.klo / 64) }
  if o.init then
    let o := { o with m := List.replicate o.rows 0xFF800000, l := List.replicate o.rows 0, poison := q }
    (o.putRows e (List.replicate o.rows (List.replicate o.d 0)) q c).setAttn o
  else
    let o := { o with
      m := (List.range o.rows).map (fun r => word (o.state + 4 * r)),
      l := (List.range o.rows).map (fun r => word (o.state + 512 + 4 * r)),
      poison := q || old || linesPoisoned c.mem.poisoned o.state 1024 }
    c.setAttn o

/-- The mapping a key tile reads at its start (R218): the physical address of each archived sample, or the fault of R192. -/
def State.attnMap (s : State) (slot : Nat) : List (Nat × Nat) → Except FaultRec (List (Nat × Nat × Nat))
  | [] => .ok []
  | (sig, k) :: rest =>
    let c := s.core
    match c.decl sig with
    | none => s.attnMap slot rest
    | some d =>
      match c.keyAt d sig slot k with
      | .prime => s.attnMap slot rest
      | .ring => s.attnMap slot rest
      | .archive => match c.archiveVa d sig slot k with
        | .error sel => .error { tileFault pageFault 10 0 false with va := sel }
        | .ok va => match s.translate c.asid va .read with
          | .error (code, cause) => .error (tileFault code cause va false)
          | .ok pa => match s.attnMap slot rest with
            | .error f => .error f
            | .ok l => .ok ((sig, k, pa) :: l)

/-- A sample of K or V as the key tile reads it from the memory its bundle sees, with its poison. -/
def State.attnSample (s : State) (mem : Memory) (o : AttnOp) (sig k : Nat) : List Byte × Bool :=
  let c := s.core
  match c.decl sig with
  | none => ([], false)
  | some d =>
    let marked := !(c.sig.partsPoisoned sig o.slot k).isEmpty
    match c.keyAt d sig o.slot k with
    | .prime => (d.primeBytes, false)
    | .ring => c.sampleBytes d sig o.slot k 0 d.size
    | .archive => match (o.maps.getD []).find? (fun m => m.1 == sig && m.2.1 == k) with
      | some m => (mem.read m.2.2 d.size, marked || s.runPoisoned (m.2.2, d.size))
      | none => ([], false)

/-- qn of R214: the norm of a query row, rounded up. -/
def attnNorm (f : Fmt) (q : List Nat) : FV :=
  let sum := q.foldl (fun t x => FV.add 0 t (FV.mul (f.decode x) (f.decode x))) (.fin false 0 0)
  Fmt.fp32.round 3 (FV.sqrt sum)

/-- Whether key tile j is pruned (R215). -/
def AttnOp.pruned (o : AttnOp) (norm : Nat) (qs : List (List Nat)) : Bool :=
  let n := f32 norm
  let mg := f32 o.margin.toNat
  let sc := (f32 o.scale.toNat).abs
  if n.isNan || (n.neg? && !n.isZero) || mg == .inf false then false
  else (qs.zip o.m).all (fun (q, m) =>
    let bound := Fmt.fp32.round 3 (FV.mul (Fmt.fp32.round 3 (FV.mul sc (attnNorm (attnFmt o.fmt) q))) n)
    let low := Fmt.fp32.round 2 (FV.add 2 (f32 m) mg.negate)
    f32 m != .inf true && FV.cmp bound low == .lt)

/-- FP32 results of one operation, rounded by RNE. -/
def f32mul (a b : FV) : FV := f32 (toF32 (FV.mul a b))
def f32sub (a b : FV) : FV := f32 (toF32 (FV.add 0 a b.negate))
def exp2f (a : FV) : FV := f32 (approxExp2 (toF32 a) false)

/-- One row over the keys it attends (R214): m, l and the row of O. -/
def attnRow (p : Profile) (o : AttnOp) (q : List FV) (m l : Nat) (out : List Nat) (ks : List (List FV × List FV)) :
    Nat × Nat × List Nat :=
  let s := ks.map (fun k =>
    f32mul (f32 o.scale.toNat) (dotChain p (attnGroup p o.fmt) (.fin false 0 0) ((q.zip k.1).map (fun (a, b) => FV.mul a b))))
  let mn := s.foldl FV.max (f32 m)
  let alpha := if f32 m == .inf true then FV.fin false 0 0 else exp2f (f32sub (f32 m) mn)
  let ps := s.map (fun x => exp2f (f32sub x mn))
  let l' := groupSum p (f32mul alpha (f32 l) :: ps)
  let out' := (out.zip (List.range out.length)).map (fun (x, c) =>
    toF32 (groupSum p (f32mul alpha (f32 x) :: (ps.zip ks).map (fun (w, k) => FV.mul w (k.2.getD c .nan)))))
  (toF32 mn, toF32 l', out')

/-- The keys of a key tile with their key and value elements, and whether either is poisoned. The profile's DIN flushes the subnormals of Q
and K; whether it means those of V, and the products of alpha with O and l, the spec does not say, and the model leaves them (log 37). -/
def State.attnKeys (s : State) (e : TileEnt) (o : AttnOp) (p : Profile) (j : Nat) : List (Nat × (List FV × List FV) × Bool) :=
  let f := attnFmt o.fmt
  let mem := s.memBefore e.idx
  let val := fun (bs : List Byte) => (elemsOfBytes (8 * o.esize) bs).map f.decode
  (o.keys j).map (fun k =>
    let (kb, kp) := s.attnSample mem o o.ksig k
    let (vb, vp) := s.attnSample mem o o.vsig k
    (k, ((val kb).map (flushSub p.din f), val vb), kp || vp))

/-- Every row over a key tile: m, l and O. -/
def Core.attnRows (c : Core) (bed : Memory) (o : AttnOp) (p : Profile) (ks : List (Nat × (List FV × List FV) × Bool)) : List (Nat × Nat × List Nat) :=
  let f := attnFmt o.fmt
  let qs := (o.qRows (c.opndBytes bed o.q (128 * o.d * o.esize)).1).map (·.map (fun x => flushSub p.din f (f.decode x)))
  (List.range o.rows).map (fun r =>
    let mine := ks.filter (fun k => !o.causal || k.1 ≤ o.qpos0 + r)
    if mine.isEmpty then (o.m.getD r 0, o.l.getD r 0, o.outRow c r)
    else attnRow p o (qs.getD r []) (o.m.getD r 0) (o.l.getD r 0) (o.outRow c r) (mine.map (·.2.1)))

/-- A key tile computed from its snapshot (R214, R217). -/
def State.attnTile (s : State) (e : TileEnt) (o : AttnOp) (p : Profile) (j : Nat) : State :=
  let ks := s.attnKeys e o p j
  let rs : List (Nat × Nat × List Nat) := s.core.attnRows (s.bedBefore e.idx s.core.id) o p ks
  let m := rs.map Prod.fst
  let l := rs.map (fun (x : Nat × Nat × List Nat) => x.2.1)
  let out := rs.map (fun (x : Nat × Nat × List Nat) => x.2.2)
  let new := { o with next := some (j + 1), m := m, l := l, poison := o.poison || ks.any (·.2.2), maps := none }
  s.mapCore (fun c => (new.putRows e out new.poison c).setAttn new)

/-- O divided by l (R214). -/
def attnFinish (l : Nat) (out : List Nat) : List Nat :=
  out.map (fun x => if (f32 l).isZero then 0 else toF32 (FV.div (f32 x) (f32 l)))

/-- The end: FIN applied, m and l written to the state area (R193, R214). -/
def Core.attnEnd (c : Core) (e : TileEnt) (o : AttnOp) : Core :=
  let rows := (List.range o.rows).map (fun r =>
    let out := o.outRow c r
    if o.fin then attnFinish (o.l.getD r 0) out else out)
  let c := o.putRows e rows o.poison c
  let c := c.entryBed e o.state (o.m.flatMap (bytesOfNat · 4))
  c.entryBed e (o.state + 512) (o.l.flatMap (bytesOfNat · 4))

/-- One step of an ATTN at the head of the queue. -/
def State.runAttn (s : State) (e : TileEnt) (o : AttnOp) : TileRes :=
  match o.next with
  | none => .more (s.mapCore (fun c => c.attnBegin (s.bedBefore e.idx c.id) e o))
  | some j =>
    if o.klo ≥ o.khi || 64 * j ≥ o.khi then .done (s.mapCore (fun c => c.attnEnd e o))
    else
      let bed := s.bedBefore e.idx s.core.id
      let norm := bed.readNat (o.norms + 4 * (j - o.klo / 64)) 4
      let qs := o.qRows (s.core.opndBytes bed o.q (128 * o.d * o.esize)).1
      match o.maps with
      | some _ => match profileOf o.prof with
        | none => .done s
        | some p => .more (s.attnTile e o p j)
      | none =>
        if o.prune && o.pruned norm qs then .more (s.mapCore (fun c => c.setAttn { o with next := some (j + 1) }))
        else match s.attnMap o.slot ((o.keys j).flatMap (fun k => [(o.ksig, k), (o.vsig, k)])) with
          | .error f => .fault f
          | .ok l => .more (s.mapCore (fun c => c.setAttn { o with maps := some l }))

/-! Events. -/

/-- The head of the queue gone. -/
def Core.popTile (c : Core) : Core := { c with mx := { c.mx with queue := c.mx.queue.drop 1 } }

/-- TILE_ENTRY_COMPLETE (R185, R189, R192): the entry at the head of the queue is performed and leaves, but for an ATTN, of which one step is
made. A fault that waits for its report holds the queue, and so does one that has been reported, until RFT. -/
def execTileEntryComplete (c : Nat) (s : State) : Res :=
  let s := s.focus c
  match s.core.mx.queue with
  | [] => .next s
  | e :: _ =>
    if s.core.mx.fault.isSome || s.core.mx.held then .next s
    else
      let r := match e.op with
        | .attn o => s.runAttn e o
        | _ => s.runTile e
      match r with
      | .done t => .next (t.mapCore (·.popTile))
      | .more t => .next t
      | .wait => .next s
      | .fault f => .next (s.mapCore (fun c => { c with mx := { c.mx with fault := some f } }))

/-- A fault of a tile entry taken for its report: the entry stays at the head of the queue and starts again after RFT (R192). -/
def Core.tileReported (c : Core) : Core := { c with mx := { c.mx with fault := none, held := true } }

/-- The report: the exception is taken by the bundle about to issue. -/
def State.reportTile (s : State) (f : FaultRec) : State := enterFault f (s.mapCore (·.tileReported))

/-- TILE_FAULT_REPORT (R192): the report, at the first bundle that would issue after the fault was found. -/
def execTileFaultReport (c : Nat) (s : State) : Res :=
  let s := s.focus c
  match s.core.mx.fault with
  | none => .next s
  | some f => .next (s.reportTile f)

end Sys2Proof.Machine
end

