-- ==== Sys2Proof/Machine/Posts.lean ====
section
/-! DEFINITION. Counting flags (R251 to R254): designators, posts and the waiters a flag serves. -/

namespace Sys2Proof.Machine

/-- A flag designator's bits (R242). -/
def desigOk (d : Word) : Bool :=
  field d 16 48 == 0 && (if bitAt d 15 then field d 5 10 == 0 else decide ((field d 9 3).toNat ≤ 6))

/-- The core and the flag that a designator names, LOCAL being the core at hand. -/
def desigCore (d : Word) (here : Nat) : Nat :=
  if bitAt d 15 then here else (field d 12 3).toNat * 112 + (field d 9 3).toNat * 16 + (field d 5 4).toNat
def desigFlag (d : Word) : Nat := (field d 0 5).toNat

/-- A wait that a served object lets go (R268): its record moves to the ready queue, or will as soon as the task has suspended. -/
def State.serveWait (s : State) (w : Wait) : State :=
  match w.rec_ with
  | none => { s with disp := { s.disp with waits := s.disp.waits.map (fun x => if x.ticket == w.ticket then { x with served := true } else x) } }
  | some r =>
    let s := { s with disp := { s.disp with waits := s.disp.waits.filter (·.ticket != w.ticket) } }
    s.enqueue r (domainAt r.place w.at_)

/-- The tasks waiting on a flag served in the order of their WAITCs, one count each (R253, R268). -/
def State.serveFlag (s : State) (core f : Nat) : State :=
  match (s.coreOf core).unit with
  | none => s
  | some u => s.disp.waits.foldl (fun s w =>
      if w.served || w.dead || w.obj != .flag core f u.family || (s.coreOf core).flag f == 0 then s
      else (s.modCore core (fun c => c.setFlag f (c.flag f - 1))).serveWait w) s

/-- A post applied to a flag, which then serves its waiters (R251, R253). -/
def State.applyPost (s : State) (core f n : Nat) : State :=
  (s.modCore core (fun c => c.setFlag f (c.flag f + n))).serveFlag core f

/-- A post sent to another core, for the unit it runs now (R242, R253). -/
def State.sendPost (s : State) (core f n : Nat) (dest : Family) : State :=
  { s with disp := { s.disp with posts := s.disp.posts ++ [(core, f, n, dest)] } }

/-- A post to the flag a designator names, of the unit it names, by the unit on core here: at once on that core, else on its way (R242, R243,
R253). -/
def State.post (s : State) (here : Nat) (d : Word) (dest : Family) (n : Nat) : State :=
  let core := desigCore d here
  if n == 0 then s
  else if core == here && ((s.coreOf core).unit.map (·.family == dest)).getD false then s.applyPost core (desigFlag d) n
  else s.sendPost core (desigFlag d) n dest

/-- A post reaches a flag (R242): the unit it was sent to, running or pre-empted; otherwise it is discarded. -/
def State.deliverPost (s : State) (core f n : Nat) (dest : Family) : State :=
  if ((s.coreOf core).unit.map (·.family == dest)).getD false then s.applyPost core f n
  else
    let hit := fun (i : Image) => i.gang && i.core.id == core && (i.core.unit.map (·.family == dest)).getD false
    { s with disp := { s.disp with images := s.disp.images.map (fun i =>
        if hit i then { i with core := i.core.setFlag f (i.core.flag f + n) } else i) } }

/-- FLAG_POST_ARRIVAL (R253): the oldest post of n to flag f of core c that is on its way. -/
def execFlagPostArrival (c f n : Nat) (s : State) : Res :=
  let mine := fun (p : Nat × Nat × Nat × Family) => p.1 == c && p.2.1 == f && p.2.2.1 == n
  match s.disp.posts.find? mine with
  | none => .next s
  | some p => .next (({ s with disp := { s.disp with posts := delFirst mine s.disp.posts } } : State).deliverPost c f n p.2.2.2)

end Sys2Proof.Machine
end

