-- ==== Sys2Proof/Machine/Collect.lean ====
section
/-! DEFINITION. A collective's descriptor (R409), its submission through the collective port, and what its end writes (R410). -/

namespace Sys2Proof.Machine

/-- A write of a doubleword of a cell through a context's tables; skipped where it cannot be made (R308, R309, R410). -/
def State.writeCell (s : State) (asid va : Nat) (w : Word) : State :=
  match s.translate asid va .write with
  | .ok pa => s.storeAt asid va pa (bytesOf w 8)
  | .error _ => s

/-! The descriptor (R409). -/

/-- Fields of a collective's descriptor (R409). -/
def cSeq (d : List Word) : Nat := dField d 0 32 32
def cOp (d : List Word) : Nat := dField d 0 16 4
def cRed (d : List Word) : Nat := dField d 0 12 4
def cType (d : List Word) : Nat := dField d 0 8 4
def cRoot (d : List Word) : Nat := dField d 0 0 8
def cSrc (d : List Word) : Nat := dField d 1 0 56
def cDst (d : List Word) : Nat := dField d 2 0 56
def cCount (d : List Word) : Nat := dField d 3 0 32
def cCell (d : List Word) : Nat := dField d 4 0 56
def cFlag (d : List Word) : Word := zextW (field (dWord d 5) 0 16)

/-- Bytes of an element of a type. -/
def cSize (t : Nat) : Nat :=
  match t with
  | 0 => 4
  | 1 => 8
  | 2 => 4
  | _ => 2

/-- Whether a descriptor breaks R409. -/
def collBad (d : List Word) : Bool :=
  let e := cSize (cType d)
  dField d 0 20 12 != 0 || cOp d > 4 || cRed d > 2 || (cRed d != 0 && cOp d != 0 && cOp d != 2) || cType d > 3 ||
    (cOp d != 3 && cRoot d != 0) || [1, 2, 4].any (fun i => dField d i 56 8 != 0) || cSrc d % e != 0 || cDst d % e != 0 ||
    dField d 3 32 32 != 0 || (cOp d != 4 && (cCount d == 0 || cCount d > 2 ^ 28)) || cCell d % 8 != 0 ||
    dField d 5 16 48 != 0 || (cFlag d != 0 && !(desigOk (cFlag d))) || dWord d 6 != 0 || dWord d 7 != 0

/-! Submission and end (R409, R410). The engine's reads and writes are no plain accesses (R276): the releases that the landing of a descriptor
acquires, and the one its post makes, leave no tag to clear. -/

/-- The unit that FLAG names, of the submitting context, when the descriptor lands on a core (R242). -/
def State.flagUnit (s : State) (asid core : Nat) (d : List Word) : Option Family :=
  if cFlag d == 0 || !(desigOk (cFlag d)) then none
  else ((s.coreOf (desigCore (cFlag d) core)).unit.filter (·.asid == asid)).map (·.family)

/-- A collective's end (R410): the word at CELL, then a post of 1 to FLAG. -/
def State.finishColl (s : State) (c : Coll) (status : Nat) : State :=
  let d := c.desc
  let s := if cCell d % 8 == 0 then s.writeCell c.asid (cCell d) (BitVec.ofNat 64 (cSeq d * 2 ^ 32 + 256 + status)) else s
  match c.dest with
  | none => s
  | some f => s.sendPost (desigCore (cFlag d) c.core) (desigFlag (cFlag d)) 1 f

/-- Whether a collective of a channel names a package declared silent (R418). -/
def State.namesSilent (s : State) (ch : Nat) : Bool :=
  s.fabric.bindings.any (fun b => b.ch == ch && b.ranks.any s.lintel.silent.contains)

/-- A descriptor that has landed in a channel of the port (R409, R410): it ends at once where the channel is busy or not the context's, where
it breaks R409, where a participant is silent (R418) or has been withdrawn (R425). -/
def State.submitColl (s : State) (c : Coll) : State :=
  match s.fabric.bindings.find? (fun b => b.ch == c.ch && b.asid == c.asid) with
  | none => s.finishColl c 0x23
  | some b =>
    if s.fabric.colls.any (·.ch == c.ch) || collBad c.desc then s.finishColl c 0x23
    else if s.namesSilent c.ch then s.finishColl c 0x20
    else if b.withdrawn then s.finishColl c 0x21
    else { s with fabric := { s.fabric with colls := s.fabric.colls ++ [c] } }

end Sys2Proof.Machine
end

