-- ==== Sys2Proof/Machine/Loads.lean ====
section
/-! DEFINITION. The loads and stores of the M slot (R219 to R231) and the handle instructions (R330 to R336). A load is translated, checked
against the line's tag and read when it issues; RESULT_ARRIVAL lands it. -/

namespace Sys2Proof.Machine

/-! Loads. -/

/-- A load's landing from its bytes: a scalar sign- or zero-extended (R221), or a vector with its tag (R222). -/
def LandForm.landing (f : LandForm) (bs : List Byte) (p : Bool) : Landing :=
  match f with
  | .x rg n sgn => .x rg (if sgn then sext (wordOfBytes bs) (8 * n) else zext (wordOfBytes bs) (8 * n)) p
  | .v rg tag => .v rg (BitVec.ofNat 4096 (natOfBytes bs)) tag p

/-- A run of physical bytes as the unit in focus reads it (R231, R437); the collective port reads zero (R409). -/
def State.readRun (s : State) (r : Nat × Nat) : List Byte :=
  if r.1 ≥ portPa then List.replicate r.2 0
  else if r.1 ≥ clPagePa then
    (List.range r.2).map (fun i =>
      let o := r.1 - clPagePa + i
      field (s.clRead (o / 8 * 8)) (o % 8 * 8) 8)
  else s.seenMem.read r.1 r.2

/-- The global, speculative, remote and redirected loads that have not arrived (R247). -/
def Core.ld (c : Core) : Nat := (c.pipe.reqs.filter (fun r => r.ld && r.kind matches .lands _)).length

/-- A load that brings a value enters the outstanding work: at 32 issue stalls (R247). -/
def pendLoad (d : PDest) (k : ReqKind) (again : Option Again) (s : State) : Res :=
  if s.core.ld ≥ 32 then stall s
  else ok s (fun c => { c with pipe := c.pipe.pend c.ctl.slot [d] true none k again })

/-- A load whose access failed (R228, R333). -/
def failLoad (d : PDest) (code : BitVec 8) (cause va : Nat) (s : State) : Res :=
  pendLoad d (.failed (asRollback (accessFault code cause slotM va false))) none s

/-- The check of a load at some lines, and its value (R278). -/
def readLines (d : PDest) (va : Nat) (lines : List Nat) (land : State → Landing) (again : Again) (s : State) : Res :=
  match s.unitTag lines .read with
  | .conflict => failLoad d regionConflict 0 va s
  | .full => stall s
  | .ok t => pendLoad d (.lands [land t]) (some again) t

/-- A global load at physical runs (R227, R231, R263). -/
def loadRuns (d : PDest) (va n : Nat) (rs : List (Nat × Nat)) (land : LandForm) (s : State) : Res :=
  if s.touchesHeader s.core.asid va n then failLoad d permission 7 va s
  else
    let lines := rs.flatMap (fun r => memLines r.1 r.2)
    readLines d va lines (fun t => land.landing (rs.flatMap t.readRun) (rs.any t.runPoisoned)) (.mem s.core.ctl.issued va n land false) s

/-- What a bed load answers, at an address with its base register (R220, R221, R37). -/
def loadBed (base : RegNo) (add : Int) (n lat : Nat) (d : PDest) (land : LandForm) (s : State) : Res :=
  let c := s.core
  if c.xp base then fault poisonConsumed s
  else match bedAddr c base add n false with
    | .bad code => fault code s
    | .redirect va =>
      match s.span c.asid va n .read with
      | .error (code, cause, _) => failLoad d code cause va s
      | .ok rs => loadRuns d va n rs land s
    | .bed o =>
      if c.tileHolds o n false then stall s
      else match s.unitTag (if o < c.sys.lineEnd then [] else bedLines c.id o n) .read with
        | .conflict => faultAt regionConflict 0 (bedVa c.id o) false true s
        | .full => stall s
        | .ok t => ok t (·.push (land.landing ((s.seenBed c.id).read o n) (linesPoisoned c.mem.poisoned o n)) lat)

/-- An offset field times the access (R75). -/
def scaled {w : Nat} (off : BitVec w) (n : Nat) : Int := off.toInt * (n : Int)

/-- A scalar bed load (R221). -/
def ldBed (o : ML) (n : Nat) (sgn : Bool) (s : State) : Res :=
  begin o.qp [.x o.base, .x o.rg] s (loadBed o.base (scaled o.off n) n 4 (.x o.rg) (.x o.rg n sgn))

def execLdb (o : ML) (s : State) : Res := ldBed o 1 true s
def execLdbz (o : ML) (s : State) : Res := ldBed o 1 false s
def execLdh (o : ML) (s : State) : Res := ldBed o 2 true s
def execLdhz (o : ML) (s : State) : Res := ldBed o 2 false s
def execLdw (o : ML) (s : State) : Res := ldBed o 4 true s
def execLdwz (o : ML) (s : State) : Res := ldBed o 4 false s
def execLdd (o : ML) (s : State) : Res := ldBed o 8 false s

/-- VLD (R222). -/
def execVld (o : MLTag) (s : State) : Res :=
  begin o.qp [.x o.base, .v o.rg] s (loadBed o.base (scaled o.off 512) 512 5 (.v o.rg) (.v o.rg o.tag))

/-! Stores. -/

/-- A store into the gate, or performed at once by a handler (R30, R31, R343). -/
def gateStore (va : Nat) (rs : Except (BitVec 8 × Nat) (List (Nat × Nat))) (bs : List Byte) (s : State) : Res :=
  let rs := if s.touchesHeader s.core.asid va bs.length then .error (permission, 7) else rs
  if s.core.sys.intrap then
    match rs with
    | .error (code, cause) => faultAt code cause va true true s
    | .ok rs => match s.performEntry (.store va (layRuns rs bs)) s.core.ctl.issued with
      | some t => .next t
      | none => stall s
  else if s.core.gateFull then fault gateOverflow s
  else match rs with
    | .error (code, cause) => ok s (·.gateAdd (.store va []) (some (asRollback (accessFault code cause slotM va true))))
    | .ok rs => ok s (·.gateAdd (.store va (layRuns rs bs)) none)

/-- A bed store at an address with its base register (R220, R221, R37). -/
def storeBed (base : RegNo) (add : Int) (bs : List Byte) (s : State) : Res :=
  let c := s.core
  let n := bs.length
  match bedAddr c base add n true with
  | .bad code => fault code s
  | .redirect va =>
    let rs := match s.span c.asid va n .write with
      | .error (code, cause, _) => .error (code, cause)
      | .ok rs => .ok rs
    gateStore va rs bs s
  | .bed o =>
    if c.tileHolds o n true then stall s
    else match s.unitTag (bedLines c.id o n) .write with
      | .conflict => faultAt regionConflict 0 (bedVa c.id o) true true s
      | .full => stall s
      | .ok t => withUndo t fun t => .next (t.storeOwn o bs)

/-- A scalar bed store (R221). -/
def stBed (o : ML) (n : Nat) (s : State) : Res :=
  begin o.qp [.x o.base, .x o.rg] s fun s =>
    if s.core.xp o.base || s.core.xp o.rg then fault poisonConsumed s
    else storeBed o.base (scaled o.off n) (bytesOf (s.core.x o.rg) n) s

def execStb (o : ML) (s : State) : Res := stBed o 1 s
def execSth (o : ML) (s : State) : Res := stBed o 2 s
def execStw (o : ML) (s : State) : Res := stBed o 4 s
def execStd (o : ML) (s : State) : Res := stBed o 8 s

/-- VST (R222). -/
def execVst (o : MLV) (s : State) : Res :=
  begin o.qp [.x o.base, .v o.rg] s fun s =>
    if s.core.xp o.base || (s.core.v o.rg).poison then fault poisonConsumed s
    else storeBed o.base (scaled o.off 512) (bytesOf (s.core.v o.rg).bits 512) s

/-! Gathers and scatters (R223). -/

/-- The bytes of a lane's access. -/
def laneBytes (w : BitVec 2) : Nat := 2 ^ w.toNat

/-- The active lanes with their addresses. -/
def laneAddrs (c : Core) (km : BitVec 3) (base idx : RegNo) : List (Nat × Int) :=
  (((elemsOf (c.v idx).bits 32).zip (List.range 128)).filter (fun e => bitAt (c.k km) e.2)).map
    (fun e => (e.2, ((c.x base).toNat : Int) + e.1))

/-- The first lane's fault, else the lanes with their bed offsets. -/
def checkLanes (c : Core) (n : Nat) (write : Bool) : List (Nat × Int) → Except (BitVec 8) (List (Nat × Nat))
  | [] => .ok []
  | (l, a) :: r => match bedPlain c a n write with
    | .bad code => .error code
    | .redirect _ => .error illegalOperand
    | .bed o => match checkLanes c n write r with
      | .error e => .error e
      | .ok t => .ok ((l, o) :: t)

/-- The lanes' accesses waited for and tagged, in ascending order (R188, R278). -/
def withLanes (n : Nat) (write : Bool) (ls : List (Nat × Nat)) (s : State) (k : State → Res) : Res :=
  if ls.any (fun e => s.core.tileHolds e.2 n write) then stall s
  else withRanges s.core.id (if write then .write else .read) (ls.map (fun e => (e.2, n))) s k

/-- VGATH (R223). -/
def execVgath (o : MGath) (s : State) : Res :=
  begin o.qp [.x o.base, .v o.idx, .v o.rg] s fun s =>
    let c := s.core
    let n := laneBytes o.w
    if c.xp o.base || (c.v o.idx).poison then fault poisonConsumed s
    else match checkLanes c n false (laneAddrs c o.km o.base o.idx) with
      | .error code => fault code s
      | .ok ls => withLanes n false ls s fun s =>
        let old := c.v o.rg
        if o.km != 0 && old.tag != tINVALID && old.tag != o.tag then fault formatMismatch s
        else
          let bed := s.seenBed c.id
          let val := fun (a : Nat) =>
            let v := wordOfBytes (bed.read a n)
            (if o.sx then sext v (8 * n) else zext v (8 * n)).toNat % 2 ^ 32
          let es := ((elemsOf old.bits 32).zip (List.range 128)).map (fun e => ((lookup ls e.2).map val).getD e.1)
          let p := ls.any (fun e => linesPoisoned c.mem.poisoned e.2 n)
          writeV o.rg (packElems 4096 32 es) o.tag (p || (o.km != 0 && old.poison)) 5 s

/-- VSCAT (R223): lanes in ascending order, one undo record. -/
def execVscat (o : MScat) (s : State) : Res :=
  begin o.qp [.x o.base, .v o.idx, .v o.rg] s fun s =>
    let c := s.core
    let n := laneBytes o.w
    if c.xp o.base || (c.v o.idx).poison || (c.v o.rg).poison then fault poisonConsumed s
    else match checkLanes c n true (laneAddrs c o.km o.base o.idx) with
      | .error code => fault code s
      | .ok ls => withLanes n true ls s fun s => withUndo s fun s =>
        .next (ls.foldl (fun s e => s.storeOwn e.2 (bytesOf (elemAt (c.v o.rg).bits 32 e.1) n)) s)

/-! Remote beds (R224, R225). -/

/-- Where a remote-bed access goes: the core and the offset, or the code, CAUSE and address of its fault. -/
def State.remoteAddr (s : State) (base : RegNo) (add : Int) (n : Nat) (write : Bool) : Except (BitVec 8 × Nat × Nat) (Nat × Nat) :=
  let c := s.core
  let x := c.x base
  let g := clusterOf c.id * 16 + (field x 21 4).toNat
  let o : Int := ((field x 0 21).toNat : Int) + add
  let same := match c.unit, (s.coreOf g).unit with
    | some u, some t => u.asid == t.asid && u.launch == t.launch
    | _, _ => false
  if field x 25 39 != 0 then .error (illegalOperand, 0, 0)
  else if !same then .error (permission, 8, (((bedVa g 0 : Nat) : Int) + o).toNat)
  else if o < 0 ∨ o > 0x1FFFFF then .error (handleBound, 0, 0)
  else match bedPlain (s.coreOf g) o n write with
    | .bed off => .ok (g, off)
    | .bad code => .error (code, 0, 0)
    | .redirect _ => .error (illegalOperand, 0, 0)

/-- A remote load (R225): it waits at the bed port for queued tile entries (R188). -/
def loadRemote (base : RegNo) (add : Int) (n : Nat) (d : PDest) (land : LandForm) (s : State) : Res :=
  if s.core.xp base then fault poisonConsumed s
  else match s.remoteAddr base add n false with
    | .error (code, cause, va) => faultAt code cause va false false s
    | .ok (g, off) =>
      let t := s.coreOf g
      if t.tileHolds off n false then stall s
      else readLines d (bedVa g off) (if off < t.sys.lineEnd then [] else bedLines g off n)
        (fun s => land.landing ((s.seenBed g).read off n) (linesPoisoned t.mem.poisoned off n)) (.bed s.core.ctl.issued g off n land) s

/-- A remote store (R225). -/
def storeRemote (base : RegNo) (add : Int) (bs : List Byte) (s : State) : Res :=
  match s.remoteAddr base add bs.length true with
  | .error (code, cause, va) => faultAt code cause va true false s
  | .ok (g, off) =>
    if s.core.sys.intrap then
      match s.performEntry (.remote g off bs) s.core.ctl.issued with
      | some t => .next t
      | none => stall s
    else if s.core.gateFull then fault gateOverflow s
    else ok s (·.gateAdd (.remote g off bs) none)

def execRld (o : ML) (s : State) : Res :=
  begin o.qp [.x o.base, .x o.rg] s (loadRemote o.base (scaled o.off 8) 8 (.x o.rg) (.x o.rg 8 false))

def execRvld (o : MLTag) (s : State) : Res :=
  begin o.qp [.x o.base, .v o.rg] s (loadRemote o.base (scaled o.off 512) 512 (.v o.rg) (.v o.rg o.tag))

def execRst (o : ML) (s : State) : Res :=
  begin o.qp [.x o.base, .x o.rg] s fun s =>
    if s.core.xp o.base || s.core.xp o.rg then fault poisonConsumed s
    else storeRemote o.base (scaled o.off 8) (bytesOf (s.core.x o.rg) 8) s

def execRvst (o : MLV) (s : State) : Res :=
  begin o.qp [.x o.base, .v o.rg] s fun s =>
    if s.core.xp o.base || (s.core.v o.rg).poison then fault poisonConsumed s
    else storeRemote o.base (scaled o.off 512) (bytesOf (s.core.v o.rg).bits 512) s

/-! Accesses through handles (R226 to R230, R330, R333). -/

/-- How an access through a handle goes on: its page's bytes, a failed access, or a precise fault. -/
inductive HRes where
  | at_ (va pa : Nat)
  | failed (code : BitVec 8) (cause va : Nat)
  | bad (code : BitVec 8) (va : Nat)
  deriving DecidableEq, Repr

/-- The address an access through a handle names (R226). -/
def handleVa (h : Handle) (xi : Word) (off : Int) (n : Nat) : Nat := ((h.ah + (xi + BitVec.ofInt 64 off) * BitVec.ofNat 64 n).toNat) % 2 ^ 56

/-- An access of n bytes through a handle register: a STALE handle is walked again first (R226, R330, R333). -/
def State.throughHandle (s : State) (hn : BitVec 4) (xi : RegNo) (off : Int) (n : Nat) (write : Bool) : State × HRes :=
  let c := s.core
  let h := c.h hn
  let va := handleVa h (c.x xi) off n
  if h.st == .none then (s, .bad illegalOperand 0)
  else if va % n ≠ 0 then (s, .bad illegalOperand va)
  else
    let (c, h) := if h.st == .valid then (c, h) else s.rewalk c hn
    let t := { s with core := c }
    if h.st != .valid then (t, .failed h.code h.cause va)
    else if va < h.base ∨ h.base + pageBytes h.size < va + n then (t, .bad handleBound va)
    else if write && !h.w then (t, .failed permission 4 va)
    else if !write && !h.r then (t, .failed permission 3 va)
    else match t.fabricFail c.asid h.pa (if write then .write else .read) with
      | some (code, cause) => (t, .failed code cause va)
      | none => (t, .at_ va (h.pa + (va - h.base)))

/-- A global load (R227, R228). -/
def loadHandle (o : BitVec 4 × RegNo × Int) (n : Nat) (d : PDest) (land : LandForm) (s : State) : Res :=
  if s.core.xp o.2.1 then fault poisonConsumed s
  else match s.throughHandle o.1 o.2.1 o.2.2 n false with
    | (t, .bad code va) => faultAt code 0 va false false t
    | (t, .failed code cause va) => failLoad d code cause va t
    | (t, .at_ va pa) => loadRuns d va n [(pa, n)] land t

/-- A scalar global load, zero-extended (R227). -/
def gld (o : MG) (n : Nat) (s : State) : Res :=
  begin o.qp [.x o.xi, .h o.h, .x o.rg] s (loadHandle (o.h, o.xi, o.off.toInt) n (.x o.rg) (.x o.rg n false))

def execGldb (o : MG) (s : State) : Res := gld o 1 s
def execGldh (o : MG) (s : State) : Res := gld o 2 s
def execGldw (o : MG) (s : State) : Res := gld o 4 s
def execGldd (o : MG) (s : State) : Res := gld o 8 s

def execGvld (o : MGTag) (s : State) : Res :=
  begin o.qp [.x o.xi, .h o.h, .v o.rg] s (loadHandle (o.h, o.xi, o.off.toInt) 512 (.v o.rg) (.v o.rg o.tag))

/-- A global store (R227, R228, R333). -/
def storeHandle (o : BitVec 4 × RegNo × Int) (bs : List Byte) (s : State) : Res :=
  match s.throughHandle o.1 o.2.1 o.2.2 bs.length true with
  | (t, .bad code va) => faultAt code 0 va true false t
  | (t, .failed code cause va) => gateStore va (.error (code, cause)) bs t
  | (t, .at_ va pa) => gateStore va (.ok [(pa, bs.length)]) bs t

/-- A scalar global store (R227). -/
def gst (o : MG) (n : Nat) (s : State) : Res :=
  begin o.qp [.x o.xi, .h o.h, .x o.rg] s fun s =>
    if s.core.xp o.xi || s.core.xp o.rg then fault poisonConsumed s
    else storeHandle (o.h, o.xi, o.off.toInt) (bytesOf (s.core.x o.rg) n) s

def execGstb (o : MG) (s : State) : Res := gst o 1 s
def execGsth (o : MG) (s : State) : Res := gst o 2 s
def execGstw (o : MG) (s : State) : Res := gst o 4 s
def execGstd (o : MG) (s : State) : Res := gst o 8 s

def execGvst (o : MGV) (s : State) : Res :=
  begin o.qp [.x o.xi, .h o.h, .v o.rg] s fun s =>
    if s.core.xp o.xi || (s.core.v o.rg).poison then fault poisonConsumed s
    else storeHandle (o.h, o.xi, o.off.toInt) (bytesOf (s.core.v o.rg).bits 512) s

/-- A speculative load's reason word (R229). -/
def reasonWord (code : BitVec 8) (cause : Nat) : Word := BitVec.ofNat 64 (cause % 256 * 256 + code.toNat)

/-- A speculative load (R229): in place of a fault, a reason word with poison. -/
def glds (o : MG) (n : Nat) (s : State) : Res :=
  begin o.qp [.x o.xi, .h o.h, .x o.rg] s fun s =>
    let miss := fun (t : State) (code : BitVec 8) (cause : Nat) =>
      pendLoad (.x o.rg) (.lands [.x o.rg (reasonWord code cause) true]) none t
    if s.core.xp o.xi then fault poisonConsumed s
    else match s.throughHandle o.h o.xi o.off.toInt n false with
      | (t, .bad code _) => miss t code 0
      | (t, .failed code cause _) => miss t code cause
      | (t, .at_ va pa) =>
        if t.touchesHeader t.core.asid va n then miss t permission 7
        else match t.unitTag (memLines pa n) .read with
          | .conflict => miss t regionConflict 0
          | .full => stall t
          | .ok u =>
            let f : LandForm := .x o.rg n false
            pendLoad (.x o.rg) (.lands [f.landing (u.readRun (pa, n)) (u.runPoisoned (pa, n))]) (some (.mem s.core.ctl.issued va n f true)) u

def execGldsW (o : MG) (s : State) : Res := glds o 4 s
def execGldsD (o : MG) (s : State) : Res := glds o 8 s

/-- PREF (R230): a hint that writes nothing and tags nothing; a handle it finds STALE is walked again. -/
def execPref (o : MPref) (s : State) : Res :=
  begin o.qp [.x o.xi, .h o.h] s fun s =>
    let h := s.core.h o.h
    if s.core.xp o.xi then fault poisonConsumed s
    else if h.st == .none then fault illegalOperand s
    else .next { s with core := if h.st == .valid then s.core else (s.rewalk s.core o.h).1 }

/-! Handles (R334 to R336). -/

/-- XLAT (R334): a hit lands 8 issue cycles later, a miss is PENDING until TRANSLATION_WALK_DONE. -/
def execXlat (o : MXlat) (s : State) : Res :=
  begin o.qp [.x o.a, .h o.d] s fun s =>
    let c := s.core
    let a := c.x o.a
    if c.xp o.a then fault poisonConsumed s
    else if field a 56 8 != 0 || (windowOf a.toNat).isSome then fault illegalOperand s
    else match c.tlbHit c.asid a.toNat with
      | some (e, c) => .next { s with core := c.push (.h o.d (e.handle a)) 8 }
      | none =>
        let h : Handle := ⟨.pending, a, 0, 0, 0, false, false, 0, 0⟩
        ok s (fun c => { c with pipe := c.pipe.pend c.ctl.slot [.h o.d] false none (.lands [.h o.d h]) })

/-- HREL (R335). -/
def execHrel (o : MHrel) (s : State) : Res :=
  begin o.qp [.h o.d] s fun s => ok s (·.push (.h o.d Handle.none) 1)

/-- HINFO's state word (R336). -/
def handleWord (h : Handle) : Word :=
  match h.st with
  | .none => 0
  | .pending => 0
  | .valid => 1#2 ++ 0#2 ++ BitVec.ofNat 4 h.size ++ field (BitVec.ofNat 64 h.base) 12 44 ++ boolW 1 h.w ++ boolW 1 h.r ++ 0#10
  | .stale => 2#2 ++ 0#54 ++ h.code

/-- HINFO (R336). -/
def execHinfo (o : MHinfo) (s : State) : Res :=
  begin o.qp [.h o.a, .x o.d] s fun s => writeX o.d (handleWord (s.core.h o.a)) false 1 s

/-- HINFO.va (R336). -/
def execHinfoVa (o : MHinfo) (s : State) : Res :=
  begin o.qp [.h o.a, .x o.d] s fun s => writeX o.d (s.core.h o.a).ah false 1 s

/-- TRANSLATION_WALK_DONE (R331, R334): the handle of a miss becomes VALID or STALE, and PENDING is over: the first bundle that issues then
reads it (R21, log 13). -/
def execTranslationWalkDone (c h : Nat) (s : State) : Res :=
  let k := s.coreOf c
  let d : PDest := .h (BitVec.ofNat 4 h)
  match k.pipe.reqs.find? (fun r => r.dests.contains d && r.seq < k.pipe.seq) with
  | none => .next s
  | some r =>
    match r.kind with
    | .lands [.h n p] =>
      let (v, e) := s.resolve k p.ah
      let k := match e with
        | none => k
        | some e => k.tlbFill e
      .next (s.putCore (k.arrive r [.h n v]))
    | _ => .next s

/-! Reads issued again (R44). -/

/-- What a load brings whose access fails (R228, R229). -/
def Again.failure (a : Again) (code : BitVec 8) (cause va : Nat) : ReqKind :=
  match a with
  | .mem _ _ _ (.x rg _ _) true => .lands [.x rg (reasonWord code cause) true]
  | _ => .failed (asRollback (accessFault code cause slotM va false))

/-- What a load of the unit in focus, made again, brings: the value as its bundle sees memory now, or the access's fault. -/
def State.readAgain (s : State) (a : Again) : State × ReqKind :=
  match a with
  | .mem idx va n form _ => match s.span s.core.asid va n .read with
    | .error (code, cause, bad) => (s, a.failure code cause bad)
    | .ok rs => match s.unitTag (rs.flatMap (fun r => memLines r.1 r.2)) .read with
      | .conflict => (s, a.failure regionConflict 0 va)
      | .full => (s, .lands [form.landing (rs.flatMap (fun r => (s.memBefore idx).read r.1 r.2)) (rs.any s.runPoisoned)])
      | .ok t => (t, .lands [form.landing (rs.flatMap (fun r => (t.memBefore idx).read r.1 r.2)) (rs.any t.runPoisoned)])
  | .bed idx core off n form =>
    let bs := fun (t : State) => ReqKind.lands [form.landing ((t.bedBefore idx core).read off n) (linesPoisoned (t.coreOf core).mem.poisoned off n)]
    match s.tagRanges core .read [(off, n)] with
    | .ok t => (t, bs t)
    | .error none => (s, bs s)
    | .error (some _) => (s, a.failure regionConflict 0 (bedVa core off))

/-- The loads of the core in focus that had not arrived when it was pre-empted, issued again (R44). -/
def State.issueAgain (s : State) : State :=
  s.core.pipe.reqs.foldl (fun s r => match r.kind, r.again with
    | .lands _, some a =>
      let (t, k) := s.readAgain a
      t.mapCore (fun c => { c with pipe := { c.pipe with reqs := c.pipe.reqs.map (fun q => if q.num == r.num then { q with kind := k } else q) } })
    | _, _ => s) s

end Sys2Proof.Machine
end

