-- ==== Sys2Proof/Machine/Commands.lean ====
section
/-! DEFINITION. The engine instructions of the M slot: COPY, COPY2D, ACCW, ALD, QNOTIFY, QFENCE, FPOSTR, FENCE (R233 to R246), and WAITN
(R248, R249). Their commands are performed in Engine. -/

namespace Sys2Proof.Machine

/-- A command placed in the gate, or in its queue at once by a handler (R30, R233, R343). -/
def queueCmd (qu : BitVec 2) (cmd : Cmd) (s : State) : Res :=
  let q := qu.toNat
  let e : QEnt := ⟨cmd, s.core.pipe.seq, !s.core.sys.intrap, none, none, none, 0, .start⟩
  if s.core.sys.intrap then
    (if (s.core.queue q).full then stall s else ok s (·.enqueueCmd q { e with prov := (s.provOf s.core).map (·.2) }))
  else if s.core.gateFull then fault gateOverflow s
  else ok s (·.gateAdd (.cmd q e) none)

/-- Whether a word has virtual-address bits only (R233). -/
def isVa (w : Word) : Bool := field w 56 8 == 0

/-- An engine instruction's start: pending and poisoned operands (R14, R233). -/
def engineOp (qp : PredNo) (xs : List RegNo) (s : State) (k : State → Res) : Res :=
  begin qp (xs.map .x) s fun s => if xs.any s.core.xp then fault poisonConsumed s else k s

/-- COPY (R234). -/
def execCopy (o : MCQ) (s : State) : Res :=
  engineOp o.qp [o.d, o.a, o.b] s fun s =>
    let (d, a, b) := (s.core.x o.d, s.core.x o.a, s.core.x o.b)
    if field b 32 32 != 0 || !isVa d || !isVa a then fault illegalOperand s
    else queueCmd o.qu (.copy d.toNat a.toNat b.toNat) s

/-- A signal word and a sample count (R234). -/
def sigCount (g n : Word) : Bool := field g 8 56 == 0 && field n 16 48 == 0 && n != 0

/-- COPY.in (R234). -/
def execCopyIn (o : MCQ) (s : State) : Res :=
  engineOp o.qp [o.d, o.a, o.b] s fun s =>
    let (d, a, b) := (s.core.x o.d, s.core.x o.a, s.core.x o.b)
    if !(sigCount d b) || !isVa a then fault illegalOperand s
    else withSig d.toNat s fun g =>
      if g.kind != 2 || g.queue != o.qu.toNat then fault illegalOperand s
      else queueCmd o.qu (.copyIn d.toNat a.toNat b.toNat) s
where
  /-- The declared signal. -/
  withSig (n : Nat) (s : State) (k : SigDecl → Res) : Res := ((s.core.decl n).map k).getD (fault illegalOperand s)

/-- COPY.out (R234). -/
def execCopyOut (o : MCQ) (s : State) : Res :=
  engineOp o.qp [o.d, o.a, o.b] s fun s =>
    let (d, a, b) := (s.core.x o.d, s.core.x o.a, s.core.x o.b)
    if !(sigCount a b) || !isVa d then fault illegalOperand s
    else match s.core.decl a.toNat with
      | none => fault illegalOperand s
      | some g => if g.kind != 3 then fault illegalOperand s else queueCmd o.qu (.copyOut d.toNat a.toNat b.toNat) s

/-- COPY2D (R235). -/
def execCopy2d (o : MCQ) (s : State) : Res :=
  let b1 := o.b + 1
  engineOp o.qp [o.d, o.a, o.b, b1] s fun s =>
    let (d, a, b, st) := (s.core.x o.d, s.core.x o.a, s.core.x o.b, s.core.x b1)
    if !isVa d || !isVa a then fault illegalOperand s
    else queueCmd o.qu (.copy2d d.toNat a.toNat (field b 0 32).toNat (field b 32 32).toNat (field st 0 32).toInt (field st 32 32).toInt) s

/-- The fault of a bed offset that a command is to write (R220, R236, R238). -/
def bedDest (c : Core) (a : Word) (align n : Nat) : Option (BitVec 8) :=
  if a.toNat % align ≠ 0 then some illegalOperand
  else match bedPlain c a.toNat 1 true with
    | .bad code => some code
    | _ => if a.toNat + n > bedEnd then some handleBound else none

/-- ALD (R236). -/
def execAld (o : MCQ) (s : State) : Res :=
  engineOp o.qp [o.d, o.a, o.b] s fun s =>
    let c := s.core
    let (d, a, b) := (c.x o.d, c.x o.a, c.x o.b)
    let sig := (field a 0 8).toNat
    let slot := (field a 8 8).toNat
    let i0 := (field b 0 24).toNat
    let n := (field b 24 24).toNat
    if field a 16 48 != 0 || field b 48 16 != 0 || n == 0 then fault illegalOperand s
    else match c.decl sig with
      | none => fault illegalOperand s
      | some g =>
        let t := c.slotState sig slot
        let low : Int := max (i0 : Int) t.floor
        if !g.arch || slot ≥ g.slots || ((i0 + n - 1 : Nat) : Int) ≥ t.n then fault illegalOperand s
        else if d.toNat % (if g.size == 8 then 8 else 512) ≠ 0 then fault illegalOperand s
        else if low < (i0 : Int) + n ∧ t.n - low ≥ (g.adepth : Int) then fault lagOverrun s
        else match bedDest c d 1 (n * g.size) with
          | some code => fault code s
          | none => if c.tablePending sig then stall s else queueCmd o.qu (.ald d.toNat sig slot i0 n) s

/-! ACCW (R237 to R239). -/

/-- An accumulating write: its checks, then the gate. -/
def accw (qp : PredNo) (qu : BitVec 2) (d a : RegNo) (xs : List RegNo) (w64 : Bool) (op : AccOp) (val : Core → Word) (cmp : Core → Word)
    (old : Option RegNo) (s : State) : Res :=
  engineOp qp ([d, a] ++ xs) s fun s =>
    let c := s.core
    let n := accBits w64 / 8
    let va := c.x d
    if !isVa va || va.toNat % n ≠ 0 then fault illegalOperand s
    else match old.bind (fun r => bedDest c (c.x r) n n) with
      | some code => fault code s
      | none =>
        if old.isSome && s.isProv then stall s
        else queueCmd qu (.accw op w64 va.toNat (val c) (cmp c) ((old.map (fun r => (c.x r).toNat)).getD 0)) s

/-- An accumulating write with one operand. -/
def accw1 (o : MAcc) (op : AccOp) (s : State) : Res := accw o.qp o.qu o.d o.a [] o.w64 op (·.x o.a) (fun _ => 0) none s

def execAccwAdd (o : MAcc) (s : State) : Res := accw1 o .add s
def execAccwMin (o : MAcc) (s : State) : Res := accw1 o .min s
def execAccwMax (o : MAcc) (s : State) : Res := accw1 o .max s
def execAccwMinz (o : MAcc) (s : State) : Res := accw1 o .minz s
def execAccwMaxz (o : MAcc) (s : State) : Res := accw1 o .maxz s
def execAccwAnd (o : MAcc) (s : State) : Res := accw1 o .and s
def execAccwOr (o : MAcc) (s : State) : Res := accw1 o .or s
def execAccwXor (o : MAcc) (s : State) : Res := accw1 o .xor s

/-- ACCW.swap: the old value goes to bed offset x[B] (R238). -/
def execAccwSwap (o : MAccB) (s : State) : Res := accw o.qp o.qu o.d o.a [o.b] o.w64 .swap (·.x o.a) (fun _ => 0) (some o.b) s

/-- ACCW.cas: the comparand in x[B], the old value to bed offset x[B + 1] (R238). -/
def execAccwCas (o : MAccB) (s : State) : Res :=
  accw o.qp o.qu o.d o.a [o.b, o.b + 1] o.w64 .cas (·.x o.a) (·.x o.b) (some (o.b + 1)) s

/-- FADDQ's addend (R239). -/
def faddqOf (o : MFaddq) (c : Core) : Word :=
  let e : Int := (c.sys.dscale.get o.dsc.toFin).toInt
  let v := if o.f32 then Fmt.fp32.decode (c.x o.a).toNat else Fmt.fp64.decode (c.x o.a).toNat
  wrapInt 64 ((v.scale e).toInt 0 0 (loInt 64 true) (hiInt 64 true))

/-- ACCW.faddq (R238, R239): always 64 bits wide. -/
def execAccwFaddq (o : MFaddq) (s : State) : Res := accw o.qp o.qu o.d o.a [] true .faddq (faddqOf o) (fun _ => 0) none s

/-! Notices, fences, posts (R242 to R246). -/

/-- The fault of a designator at issue: its layout, then the gang its core must run (R242). -/
def State.desigFault (s : State) (d : Word) (va : Word) : Option FaultRec :=
  let c := s.core
  if !(desigOk d) then some (precise illegalOperand c.ctl.slot)
  else if bitAt d 15 then none
  else
    let k := s.coreOf (desigCore d c.id)
    if k.isGang && k.asid == c.asid then none
    else some { accessFault permission 9 c.ctl.slot va.toNat false with rb := false }

/-- The start of an engine instruction that closes a region (R32, R343). -/
def closingEngineOp (qp : PredNo) (xs : List RegNo) (s : State) (k : State → Res) : Res :=
  beginClosing qp (xs.map .x) s fun s => if xs.any s.core.xp then fault poisonConsumed s else k s

/-- The unit a designator names: the issuing one, or the gang on the core (R242). -/
def State.desigUnit (s : State) (d : Word) : Family := (s.agentOf (s.coreOf (desigCore d s.core.id))).fam

/-- QNOTIFY (R243). -/
def execQnotify (o : MNot) (s : State) : Res :=
  closingEngineOp o.qp [o.a] s fun s =>
    let d := s.core.x o.a
    match if d == 0 then none else s.desigFault d d with
    | some f => raise f s
    | none => closing s fun s => queueCmd o.qu (.notify d (s.desigUnit d)) s

/-- QFENCE (R244): one entry in every queue the mask names; a full queue stalls it. -/
def execQfence (o : MQf) (s : State) : Res :=
  beginClosing o.qp [] s fun s => closing s fun s =>
    let qs := (List.range 4).filter (fun i => o.mask.getLsbD i)
    if qs.any (fun q => (s.core.queue q).full) then stall s
    else
      let id := s.core.pipe.seq
      ok s (fun c => qs.foldl (fun c q => c.enqueueCmd q ⟨.fence id o.mask, id, true, none, none, none, 0, .start⟩) c)

/-- FPOSTR (R245): a post with a release; deferred by a provisional unit (R315). -/
def execFpostr (o : MPost) (s : State) : Res :=
  closingEngineOp o.qp [o.a, o.b] s fun s =>
    let (d, n) := (s.core.x o.a, s.core.x o.b)
    let me := s.agentOf s.core
    let k := s.coreOf (desigCore d s.core.id)
    if field n 10 54 != 0 then fault illegalOperand s
    else match s.desigFault d d with
      | some f => raise f s
      | none =>
        if k.isTask then raise { accessFault permission 9 s.core.ctl.slot d.toNat false with rb := false } s
        else if o.scope.toNat ≥ 12 then fault scopeInvalid s
        else if !(scopeContains o.scope.toNat me (s.agentOf k)) then fault illegalOperand s
        else closingDefer s fun s =>
          let dest := s.desigUnit d
          .next (s.deferOr (.post (desigCore d s.core.id) (desigFlag d) n.toNat dest o.scope.toNat)
            (fun s => (s.unitRelease o.scope.toNat).post s.core.id d dest n.toNat))

/-- The loads of earlier bundles that have not arrived (R246). -/
def Core.loadsOut (c : Core) : Bool := c.pipe.reqs.any (fun r => r.seq < c.pipe.seq && r.ld && r.kind matches .lands _)

/-- FENCE: what its kinds share (R246): the scope, the closing, what it waits for. -/
def fence (o : MFence) (rel : Bool) (waits : Core → Bool) (s : State) : Res :=
  beginClosing o.qp [] s fun s =>
    if o.scope.toNat ≥ 12 then fault scopeInvalid s
    else closing s fun s =>
      if waits s.core then stall s
      else if rel then .next (s.releaseNow o.scope.toNat)
      else .next s

def execFenceRel (o : MFence) (s : State) : Res := fence o true Core.loadsOut s
def execFenceAcq (o : MFence) (s : State) : Res := fence o false (fun _ => false) s
def execFenceFull (o : MFence) (s : State) : Res := fence o true Core.loadsOut s
def execFenceFullq (o : MFence) (s : State) : Res :=
  fence o true (fun c => c.loadsOut || c.eng.toList.any (fun q => !q.ents.isEmpty)) s

/-! WAITN (R248, R249). -/

/-- The entries in the four queues (R247). -/
def Core.cp (c : Core) : Nat := (c.eng.toList.map (·.ents.length)).sum

/-- The lowest-numbered FAULTED queue. -/
def Core.faultedQueue (c : Core) : Option (Nat × FaultRec) :=
  ((List.range 4).findSome? (fun q => (c.queue q).faulted.map (fun f => (q, f))))

/-- WAITN (R248): st stays zero, stores being performed at their release. At its end it reports a FAULTED queue (R249). -/
def execWaitn (o : CW) (s : State) : Res :=
  let c := s.core
  if c.ld > o.ld.toNat || c.cp > o.cp.toNat || c.mx.queue.length > o.tl.toNat then stall s
  else match c.faultedQueue with
    | none => .next s
    | some (q, f) => raise { f with slot := BitVec.ofNat 3 slotC, queue := BitVec.ofNat 2 q, origin := 2, rb := false } s

end Sys2Proof.Machine
end

