-- ==== Sys2Proof/Machine/Engine.lean ====
section
/-! DEFINITION. The copy engines (R232 to R244, R293, R295): COMMAND_COMPLETE performs the command at a queue's head whole, a COPY.in or
COPY.out one sample at a time. A command that a page not yet committed stops goes on from the line that failed once the page is served. -/

namespace Sys2Proof.Machine

/-- A place a command reaches (R233, R326). -/
inductive Loc where
  | mem (pa : Nat)
  | bed (core off : Nat)
  deriving DecidableEq, Repr

/-- What stops a command: it waits, or an access failed. -/
inductive Stop where
  | wait
  | fault (f : FaultRec)
  deriving DecidableEq, Repr

/-- A byte with the mark of its line (R434). -/
abbrev Marked := Byte × Bool

/-- A command as it is performed: the state, the region of its accesses (0 for none), the provisional launch and block it writes for, its
queue, and how far it has come (R233). -/
structure Run where
  s : State
  region : Nat
  prov : Option (Launch × Nat)
  q : Nat
  pr : Progress
  deriving DecidableEq, Repr

/-- An engine's fault at an address. -/
def engineFault (code : BitVec 8) (cause va q : Nat) (wr : Bool) : FaultRec :=
  { accessFault code cause 7 va wr with origin := 2, queue := BitVec.ofNat 2 q }

/-- Ranges of at most a line that make up a range of bytes. -/
def linesOf : Nat → Nat → Nat → List (Nat × Nat)
  | 0, _, _ => []
  | fuel + 1, va, n => if n == 0 then [] else
    let k := min n (64 - va % 64)
    (va % 2 ^ 56, k) :: linesOf fuel (va + k) (n - k)
def lineRanges (va n : Nat) : List (Nat × Nat) := linesOf (n / 64 + 2) va n

/-- The block of a context's pool that a physical address stands in held by a queue of the core in focus, from here on (R353). -/
def State.holdAt (s : State) (q pa : Nat) : State :=
  match s.blockOfPa s.core.asid pa with
  | some b => if s.holdsBlock s.core.asid s.core.id q b then s
      else { s with holds := s.holds ++ [⟨s.core.asid, b.1, b.2, s.core.id, q⟩] }
  | none => s

/-- Where an access of a command goes (R233, R263, R326); a block the queue holds stays mapped (R353). -/
def Run.locate (r : Run) (va n : Nat) (need : Need) : Except FaultRec Loc :=
  let s := r.s
  let asid := s.core.asid
  let bad := fun (code : BitVec 8) (cause : Nat) => engineFault code cause va r.q need.w
  match windowOf va with
  | some (g, off) =>
    if off ≥ bedEnd then .error (bad pageFault 1)
    else if !(s.runsUnitOf g asid) then .error (bad permission 6)
    else if need.w && off < (s.coreOf g).sys.lineEnd then .error (bad handleBound 0)
    else .ok (.bed g off)
  | none =>
    if s.touchesHeader asid va n then .error (bad permission 7)
    else match s.translate asid va need with
      | .ok pa => .ok (.mem pa)
      | .error (code, cause) =>
        let kept := (s.leaf asid va).bind (fun e =>
          let pa := entAddr e.2 + va % 4096
          (s.blockOfPa asid pa).bind (fun b => if s.holdsBlock asid s.core.id r.q b then some pa else none))
        match kept with
        | some pa => .ok (.mem pa)
        | none => .error (bad code cause)

/-- The tag check of an access of a command (R278): a buffered write takes its tag when it is performed (R294). -/
def Run.tag (r : Run) (l : Loc) (va n : Nat) (kind : AccKind) : Except Stop Run :=
  let lines := match l with
    | .mem pa => memLines pa n
    | .bed g off => bedLines g off n
  match r.s.tagAccess r.region lines kind with
  | .ok t => .ok { r with s := t }
  | .conflict => .error (.fault (engineFault regionConflict 0 va r.q (kind != .read)))
  | .full => .error .wait

/-- Memory and beds as the command's unit reads them (R315). -/
def Run.memory (r : Run) : Memory := (r.s.ownProv r.s.core).foldl ProvWrite.onMem (r.s.memAs (r.s.keyOf r.s.core.asid))
def Run.bed (r : Run) (g : Nat) : Memory := (r.s.ownProv r.s.core).foldl (ProvWrite.onBed g) (r.s.coreOf g).mem.bed

/-- The bytes at a place with their marks. -/
def Run.get (r : Run) (l : Loc) (n : Nat) : List Marked :=
  match l with
  | .mem pa => (r.memory.read pa n).map (fun b => (b, linesPoisoned r.s.poisoned pa n))
  | .bed g off => ((r.bed g).read off n).map (fun b => (b, linesPoisoned (r.s.coreOf g).mem.poisoned off n))

/-- Marks set on the lines of a run where a marked byte came. -/
def markLines (l : List Nat) (a n : Nat) (bad : Bool) : List Nat :=
  if bad then (l ++ (memLines a n)).eraseDups else l

/-- A place reached: the block it stands in is held (R353). -/
def Run.reach (r : Run) (l : Loc) : Run :=
  match l with
  | .mem pa => { r with s := r.s.holdAt r.q pa }
  | .bed _ _ => r

/-- A place that must lie in memory: the source of a COPY.in is no window address (R326). -/
def Run.locateIn (r : Run) (window : Bool) (va n : Nat) (need : Need) : Except FaultRec Loc :=
  if !window && (windowOf va).isSome then .error (engineFault pageFault 1 va r.q need.w) else r.locate va n need

/-- What is left of a source range read line by line (R234). -/
def Run.readLines (r : Run) (window : Bool) : List (Nat × Nat) → Run × Option Stop
  | [] => (r, none)
  | (va, n) :: rest =>
    match r.locateIn window va n .read with
    | .error f => (r, some (.fault f))
    | .ok l =>
      let held := match l with
        | .bed g off => (r.s.coreOf g).tileHolds off n false
        | .mem _ => false
      if held then (r, some .wait)
      else match (r.reach l).tag l va n .read with
        | .error e => (r, some e)
        | .ok t => ({ t with pr := { t.pr with got := t.pr.got ++ t.get l n } } : Run).readLines window rest

/-- Bytes written at a place: in memory, in a bed, or into the launch's provisional buffer (R315); into the collective port they are dropped
(R409). -/
def Run.put (r : Run) (l : Loc) (va : Nat) (bs : List Marked) : Except Stop Run :=
  let s := r.s
  let bytes := bs.map (·.1)
  let bad := bs.any (·.2)
  let buffer := fun (la : Launch) (u : Nat) (w : ProvWrite) =>
    match s.launch la.key with
    | none => .error .wait
    | some la => if la.room w then .ok { r with s := s.bufferWrite la u (s.agentOf s.core) r.region w } else .error .wait
  let tagged := fun (k : Run → Run) => match r.tag l va bytes.length .write with
    | .error e => .error e
    | .ok t => .ok (k t)
  match l, r.prov with
  | .mem pa, some (la, u) => if pa ≥ portPa then .ok r else buffer la u (.bytes va pa bytes)
  | .mem pa, none => if pa ≥ portPa then .ok r else tagged (fun t =>
      let s := t.s.storeAt s.core.asid va pa bytes
      { t with s := { s with poisoned := markLines s.poisoned pa bytes.length bad } })
  | .bed g off, p =>
    match (if g == s.core.id then none else p) with
    | some (la, u) => buffer la u (.remote g (s.launchOn g) off bytes)
    | none =>
      if (s.coreOf g).tileHolds off bytes.length true then .error .wait
      else tagged (fun t => { t with s := t.s.modCore g (fun c =>
        let m := c.mem.writeBed off bytes
        { c with mem := { m with poisoned := markLines m.poisoned off bytes.length bad } }) })

/-- What is left of a destination range written line by line, from the bytes read. -/
def Run.writeLines (r : Run) : List (Nat × Nat) → Run × Option Stop
  | [] => (r, none)
  | (va, n) :: rest =>
    match r.locate va n .write with
    | .error f => (r, some (.fault f))
    | .ok l => match (r.reach l).put l va ((r.pr.got.drop r.pr.put).take n) with
      | .error e => (r, some e)
      | .ok t => ({ t with pr := { t.pr with put := t.pr.put + n } } : Run).writeLines rest

/-- What is left of a range of n bytes behind its first k. -/
def rangeFrom (va n k : Nat) : List (Nat × Nat) := lineRanges (va + k) (n - k)

/-- A row or sample done. -/
def Run.rowDone (r : Run) : Run := { r with pr := ⟨r.pr.rows + 1, [], 0⟩ }

/-- One COPY, or a row of one, gone on with from where it stands (R233, R234): every source byte is read before any is written. -/
def Run.copy (r : Run) (window : Bool) (dst src n : Nat) : Run × Option Stop :=
  match r.readLines window (rangeFrom src n r.pr.got.length) with
  | (t, none) => match t.writeLines (rangeFrom dst n t.pr.put) with
    | (u, none) => (u.rowDone, none)
    | e => e
  | e => e

/-- A COPY of 64 bytes to a channel of the collective port: when it lands the engine reads the descriptor (R409). A provisional unit's waits for
its confirmation (R315). -/
def Run.submit (r : Run) (ch src : Nat) : Run × Option Stop :=
  match r.readLines true (rangeFrom src 64 r.pr.got.length) with
  | (t, none) =>
    let s := t.s
    let me := s.core
    let desc := (List.range 8).map (fun i => wordOfBytes (((t.pr.got.map (·.1)).drop (8 * i)).take 8))
    let c : Coll := ⟨ch, me.asid, desc, me.id, s.flagUnit me.asid me.id desc⟩
    (({ t with s := match t.prov with
      | none => s.submitColl c
      | some (l, u) => s.modLaunch l.key (fun l => { l with
          defer_ := l.defer_ ++ [⟨u, s.agentOf me, .submit ch desc me.id c.dest⟩] }) } : Run).rowDone, none)
  | e => e

/-- The address of a row (R235). -/
def rowAt (base : Nat) (stride : Int) (k : Nat) : Nat := (((base : Int) + stride * (k : Int)) % (2 ^ 56 : Nat)).toNat

/-- The rows left copied in ascending order (R235). -/
def Run.copyRows (r : Run) (dst src len : Nat) (ds ss : Int) : Nat → Run × Option Stop
  | 0 => (r, none)
  | n + 1 => match r.copy true (rowAt dst ds r.pr.rows) (rowAt src ss r.pr.rows) len with
    | (t, none) => t.copyRows dst src len ds ss n
    | e => e

/-- A sample in the ring as a command reads it: what is poisoned stays so (R161, R434). -/
def Core.ringMarked (c : Core) (d : SigDecl) (sig slot : Nat) (i : Int) : List Marked :=
  let a := d.pos slot i
  (c.mem.bed.read a d.size).zip ((List.range d.size).map (fun o =>
    c.sig.poisoned sig slot i (o / max d.partBytes 1) || linesPoisoned c.mem.poisoned (a + o) 1))

/-- Bytes at hand taken as read. -/
def Run.have_ (r : Run) (bs : List Marked) : Run := { r with pr := { r.pr with got := bs } }

/-- The samples left of an ALD (R236): prime, line ring or archive. -/
def Run.ald (r : Run) (off sig slot : Nat) (d : SigDecl) : List Nat → Run × Option Stop
  | [] => (r, none)
  | i :: rest =>
    let c := r.s.core
    let t := c.slotState sig slot
    let here := bedVa c.id (off + r.pr.rows * d.size)
    let go := fun (r : Run) =>
      match r.writeLines (rangeFrom here d.size r.pr.put) with
      | (t, none) => t.rowDone.ald off sig slot d rest
      | e => e
    if !r.pr.got.isEmpty then go r
    else if (i : Int) < t.floor then go (r.have_ (d.primeBytes.map (·, false)))
    else if (i : Int) > t.n - (d.depth : Int) then go (r.have_ (c.ringMarked d sig slot i))
    else match c.archiveVa d sig slot i with
      | .error sel => (r, some (.fault { engineFault pageFault 10 0 r.q false with va := sel }))
      | .ok va => match r.readLines true (rangeFrom va d.size r.pr.got.length) with
        | (t, none) => go t
        | e => e

/-- An ACCW at its port (R237, R238, R241): indivisible; its old value lands in the issuing core's bed. -/
def Run.accw (r : Run) (op : AccOp) (w64 : Bool) (va : Nat) (a cmp : Word) (old : Nat) : Run × Option Stop :=
  let n := accBits w64 / 8
  let hasOld := op == .swap || op == .cas
  let me := r.s.core
  if r.pr.rows == 1 then r.writeLines (rangeFrom (bedVa me.id old) n r.pr.put)
  else match r.locate va n .both with
  | .error f => (r, some (.fault f))
  | .ok l =>
    let r := r.reach l
    let s := r.s
    let bad := match l with
      | .mem pa => linesPoisoned s.poisoned pa n
      | .bed g off => linesPoisoned (s.coreOf g).mem.poisoned off n
    let held := (match l with
      | .bed g off => (s.coreOf g).tileHolds off n true
      | .mem _ => false) || (hasOld && me.tileHolds old n true)
    if held then (r, some .wait)
    else match r.prov with
      | some (la, u) =>
        let w := match l with
          | .mem pa => ProvWrite.accw va pa op w64 a
          | .bed g off => ProvWrite.accwBed g (s.launchOn g) off op w64 a
        (match s.launch la.key with
          | none => (r, some .wait)
          | some la => if la.room w then ({ r with s := s.bufferWrite la u (s.agentOf me) r.region w }, none) else (r, some .wait))
      | none =>
        if bad then (r, some (.fault (engineFault poisonConsumed 0 va r.q false)))
        else match r.tag l va n .acc with
          | .error e => (r, some e)
          | .ok t =>
            let v := natOfBytes ((t.get l n).map (·.1))
            let new := accNew op (8 * n) v a.toNat cmp.toNat
            let t := match l with
              | .mem pa =>
                if pa ≥ portPa then t
                else
                  let s := t.s.seal (t.s.keyAt me.asid va) pa n
                  { t with s := { s with mem := s.mem.write pa (bytesOfNat new n) } }
              | .bed g off => { t with s := t.s.modCore g (fun c => { c with mem := { c.mem with bed := c.mem.bed.write off (bytesOfNat new n) } }) }
            if hasOld then
              ({ t with pr := ⟨1, (bytesOfNat v n).map (·, false), 0⟩ } : Run).writeLines [(bedVa me.id old, n)]
            else (t, none)

/-! Queues. -/

/-- The entry at a queue's head, and the queue without it. -/
def Core.popCmd (c : Core) (q : Nat) : Core := c.setQueue q { c.queue q with ents := (c.queue q).ents.drop 1 }
def Core.setHead (c : Core) (q : Nat) (e : QEnt) : Core := c.setQueue q { c.queue q with ents := e :: (c.queue q).ents.drop 1 }

/-- Whether the unit's end has reached the wait of R250, past its delay bundles. -/
def Core.endWait (c : Core) : Bool :=
  c.ctl.dly == 0 && (match c.ctl.after with
    | some (.ending .retf) => true
    | some (.ending .tend) => true
    | some (.ending .fault) => true
    | some (.ending .stream) => true
    | _ => false)

/-- Whether completion of a command posts a notice (R243). -/
def Cmd.noticed : Cmd → Bool
  | .notify .. => false
  | .fence _ _ => false
  | _ => true

/-- The provisional launch and block that an entry's writes belong to while they are not confirmed (R315, R318, R319). -/
def State.entryProv (s : State) (e : QEnt) : Option (Launch × Nat) :=
  match s.core.unit, e.prov with
  | some u, some b => match s.launchOf u with
    | none => none
    | some l => if u.gang then (if l.waits && b ≥ l.floor then some (l, b) else none) else if u.prov then some (l, b) else none
  | _, _ => none

/-- A command's run begun, or gone on with: its region opens, unless a handler issued it (R276, R343). -/
def State.beginRun (s : State) (q : Nat) (e : QEnt) : Run :=
  if e.region != 0 || !e.tagged then ⟨s, e.region, s.entryProv e, q, e.pr⟩
  else
    let (t, id) := s.openRegion (s.agentOf s.core) s.core.sys.tick.toNat true
    ⟨t, id, t.entryProv e, q, e.pr⟩

/-- The notice of a completed command and the release that covers it (R243, R285). A provisional command's release, and its post to
another unit, wait for the confirmation of its writes (R294); a post to a flag of its own unit does not (R315). -/
def Run.notice (r : Run) (s : State) : State :=
  match (s.core.queue r.q).target with
  | none => s
  | some (d, dest) => match r.prov with
    | none => (s.releaseRegion r.region scopePackage).post s.core.id d dest 1
    | some (l, u) =>
      let own := (s.core.unit.map (·.family == dest)).getD false
      let act : Deferred := .notice (if own then none else some (desigCore d s.core.id, desigFlag d, dest)) r.region
      let s := s.modLaunch l.key (fun l => { l with defer_ := l.defer_ ++ [⟨u, s.agentOf s.core, act⟩] })
      if own then s.post s.core.id d dest 1 else s

/-- A command complete: its entry leaves, its region closes, its holds end, its notice is posted (R232, R243, R353). -/
def Run.complete (r : Run) (e : QEnt) (good : Bool) : State :=
  let s := if r.region == 0 then r.s else r.s.closeRegion r.region
  let s := (s.mapCore (·.popCmd r.q)).setHolds s.core.asid s.core.id r.q []
  if good && e.cmd.noticed then r.notice s else s

/-- A queue FAULTED by its head, the command's remaining bytes unwritten (R233). -/
def Run.failed (r : Run) (e : QEnt) (f : FaultRec) : State :=
  (r.complete e false).mapCore (fun c => c.setQueue r.q { c.queue r.q with faulted := some f })

/-- The blocks of the context's pools that a range of addresses reaches. -/
def State.blocksOf (s : State) (va n : Nat) : List (Nat × Nat) :=
  ((List.range (n / 4096 + 2)).filterMap (fun i =>
    let a := va / 4096 * 4096 + i * 4096
    if a ≥ va + n then none
    else (s.leaf s.core.asid a).bind (fun e => s.blockOfPa s.core.asid (entAddr e.2)))).eraseDups

/-- The ranges a command that stands still has left (R353). -/
def Cmd.left (c : Cmd) (pr : Progress) : List (Nat × Nat) :=
  match c with
  | .copy dst src n => [(src + pr.got.length, n - pr.got.length), (dst + pr.put, n - pr.put)]
  | .copy2d dst src len rows ds ss => (List.range rows).flatMap (fun k =>
      if k < pr.rows then []
      else if k == pr.rows then [(rowAt src ss k + pr.got.length, len - pr.got.length), (rowAt dst ds k + pr.put, len - pr.put)]
      else [(rowAt src ss k, len), (rowAt dst ds k, len)])
  | _ => []

/-- The holds of a queue kept where something of some ranges is left in the block; a block let go is left for BLOCK_DRAIN_DONE (R353). -/
def State.keepHolds (s : State) (q : Nat) (left : List (Nat × Nat)) : State :=
  let rest := left.flatMap (fun e => s.blocksOf e.1 e.2)
  { s with holds := s.holds.filter (fun h => !(h.core == s.core.id && h.agent == q) || rest.contains (h.pool, h.blk)) }

/-- A command that stands still: its progress, its region, the holds it still needs. -/
def Run.still (r : Run) (e : QEnt) (held served : Option Nat) : State :=
  let s := r.s.mapCore (·.setHead r.q { e with region := r.region, pr := r.pr, held := held, served := served })
  match e.cmd with
  | .copy .. => s.keepHolds r.q (e.cmd.left r.pr)
  | .copy2d .. => s.keepHolds r.q (e.cmd.left r.pr)
  | _ => s

/-- What a stop does to a command, which has come as far as its run says: a page the service brings holds it, and it goes on from the line
that failed (R233, R338); a wait leaves it; any other fault sets the queue FAULTED. -/
def stopCmd (e : QEnt) (r : Run) (st : Stop) : State :=
  let s := r.s
  match st with
  | .wait => r.still e e.held e.served
  | .fault f =>
    let hold := fun (t : State) (n page : Nat) => ({ r with s := t } : Run).still e (some n) (some page)
    if f.code == uncommitted then
      let p := s.pageOfFault s.core.asid f.va.toNat
      if (s.core.unit.bind (·.serves)).isSome || e.served == some p.base || (s.commitHandler s.core.asid).isNone then r.failed e f
      else
        let (t, n) := s.commitRequest s.core.asid p.base p.size p.pool f.va.toNat
        hold t n p.base
    else if f.code == pageFault && f.detail != causeDetail 10 && ((s.ctx s.core.asid).map (·.hpage)).getD false then
      (if s.faultsFull (s.fnOf s.core.asid) then r.still e e.held e.served
      else
        let (t, n) := s.pagingRequest f false
        hold t n (f.va.toNat / 4096 * 4096))
    else r.failed e f

/-- The end of a command's run. -/
def endRun (e : QEnt) (x : Run × Option Stop) : State :=
  match x.2 with
  | none => x.1.complete e true
  | some st => stopCmd e x.1 st

/-- The highest index of an EGRESS signal that may be drained: sealed (R170) and, of a predicted stream, confirmed (R176). -/
def State.drainable (s : State) (d : SigDecl) (sig : Nat) : Int :=
  let c := s.core
  let top := c.sealedIdx d sig 0
  match c.unit.bind s.launchOf with
  | none => top
  | some l => if l.waits then min top (((l.floor : Int) - 1 - d.phase) / (max d.div 1 : Nat)) else top

/-- The head of a queue of the core in focus performed (R232). -/
def State.performHead (s : State) (q : Nat) (e : QEnt) : State :=
  let r := s.beginRun q e
  let here := fun (x : Run × Option Stop) => endRun e x
  match e.cmd with
  | .fence id mask =>
    let qs := (List.range 4).filter (fun i => mask.getLsbD i)
    let ready := qs.all (fun i => ((s.core.queue i).ents.head?.map (fun h => h.cmd == .fence id mask)).getD false)
    if ready then s.mapCore (fun c => qs.foldl (fun c i => c.popCmd i) c) else s
  | _ =>
    if (s.core.queue q).faulted.isSome then r.complete e false
    else match e.cmd with
      | .copy dst src len => here (match (if len == 64 then s.portChannel s.core.asid dst else none) with
        | some ch => r.submit ch src
        | none => r.copy true dst src len)
      | .copy2d dst src len rows ds ss => if len == 0 then here (r, none) else here (r.copyRows dst src len ds ss (rows - r.pr.rows))
      | .accw op w64 va a cmp old => here (r.accw op w64 va a cmp old)
      | .ald off sig slot i0 n => match s.core.decl sig with
        | none => here (r, none)
        | some d => here (r.ald off sig slot d ((List.range (n - r.pr.rows)).map (i0 + r.pr.rows + ·)))
      | .notify d dest => (r.complete e false).mapCore (fun c =>
          c.setQueue q { c.queue q with target := if d == 0 then none else some (d, dest) })
      | .copyIn _ _ n => if n == 0 || s.core.endWait then here (r, none) else s
      | .copyOut _ sig n =>
        let left := match s.core.decl sig with
          | none => false
          | some d => ((s.core.sig.st[sig]?).map (·.arr)).getD (-1) < s.core.sealedIdx d sig 0
        if n == 0 || (s.core.endWait && !left) then here (r, none) else s
      | .fence _ _ => s

/-- COMMAND_COMPLETE (R232): the command at the head of a queue, unless a request of the fault service holds it; the unit's end drops what
a COPY.in has not delivered, held or not (R295). -/
def execCommandComplete (c q : Nat) (s : State) : Res :=
  let s := s.focus c
  match (s.core.queue q).ents with
  | [] => .next s
  | e :: _ =>
    let dropped := s.core.endWait && (match e.cmd with
      | .copyIn .. => true
      | _ => false)
    if (e.held.isSome && !dropped) || s.core.unit.isNone then .next s else .next (s.performHead q e)

/-! Samples (R169, R170, R234). -/

/-- A sample delivered or drained: the entry's progress, its region kept open, the holds that what is left of the images needs (R353). -/
def Run.progress (r : Run) (e : QEnt) (cmd : Cmd) (va n : Nat) : State :=
  (r.s.mapCore (·.setHead r.q { e with cmd := cmd, region := r.region, pr := .start })).keepHolds r.q [(va, n)]

/-- INGRESS_SAMPLE_DELIVERY (R169): the next sample of the COPY.in at the head of a queue, when its window admits it. -/
def execIngressSampleDelivery (c q : Nat) (s : State) : Res :=
  let s := s.focus c
  match (s.core.queue q).ents with
  | e :: _ =>
    match e.cmd with
    | .copyIn sig src (n + 1) =>
      if e.held.isSome || (s.core.queue q).faulted.isSome || s.core.endWait then .next s
      else match s.core.decl sig with
        | none => .next s
        | some d =>
          let j := ((s.core.sig.st[sig]?).map (·.arr)).getD (-1) + 1
          if j - (s.core.slotState sig 0).n ≥ (d.depth : Int) - (d.lag : Int) || s.core.tileHolds (d.pos 0 j) d.size true then .next s
          else
            let r := s.beginRun q e
            match r.readLines false (rangeFrom src d.size r.pr.got.length) with
            | (r, some st) => .next (stopCmd e r st)
            | (r, none) =>
              let bs := r.pr.got
              let t := r.s.mapCore (fun c =>
                let sg := c.sig.setParts sig 0 j ((List.range d.parts).filter (fun p =>
                  ((bs.drop (p * d.partBytes)).take d.partBytes).any (·.2)))
                { c with mem := c.mem.writeBed (d.pos 0 j) (bs.map (·.1)),
                         sig := { sg with st := sg.st.modify sig (fun g => { g with arr := j }) } })
              let next := (src + d.size) % 2 ^ 56
              .next (({ r with s := t } : Run).progress e (.copyIn sig next n) next (n * d.size))
    | _ => .next s
  | [] => .next s

/-- EGRESS_SAMPLE_DRAIN (R170): the next sealed sample of the COPY.out at the head of a queue. -/
def execEgressSampleDrain (c q : Nat) (s : State) : Res :=
  let s := s.focus c
  match (s.core.queue q).ents with
  | e :: _ =>
    match e.cmd with
    | .copyOut dst sig (n + 1) =>
      if e.held.isSome || (s.core.queue q).faulted.isSome then .next s
      else match s.core.decl sig with
        | none => .next s
        | some d =>
          let j := ((s.core.sig.st[sig]?).map (·.arr)).getD (-1) + 1
          if j > s.drainable d sig || s.core.tileHolds (d.pos 0 j) d.size false then .next s
          else
            let r := (s.beginRun q e).have_ (s.core.ringMarked d sig 0 j)
            match r.writeLines (rangeFrom dst d.size r.pr.put) with
            | (r, some st) => .next (stopCmd e r st)
            | (r, none) =>
              let t := r.s.mapCore (fun c => { c with sig := { c.sig with st := c.sig.st.modify sig (fun g => { g with arr := j }) } })
              let next := (dst + d.size) % 2 ^ 56
              .next (({ r with s := t } : Run).progress e (.copyOut next sig n) next (n * d.size))
    | _ => .next s
  | [] => .next s

end Sys2Proof.Machine
end

