-- ==== Sys2Proof/Machine/Tasks.lean ====
section
/-! DEFINITION. Flags, phasers, and the instructions that fork, end and suspend (R119 to R122, R251 to R270). -/

namespace Sys2Proof.Machine

/-! Flags (R252). -/

/-- FPOST: a release at PACKAGE scope, then the post to the core's own flag (R252). -/
def execFpost (o : CF) (s : State) : Res :=
  closing s fun s => .next ((s.releaseNow scopePackage).applyPost s.core.id o.f.toNat o.n.toNat)

/-- FWAIT: it stalls until the count is there, then takes it (R252). -/
def execFwait (o : CF) (s : State) : Res :=
  closing s fun s =>
    let f := s.core.flag o.f.toNat
    if f < o.n.toNat then stall s else ok s (·.setFlag o.f.toNat (f - o.n.toNat))

/-! Phasers (R255 to R260). -/

/-- Phase a is past phase b, modulo 2^32 (R255). -/
def phGt (a b : BitVec 32) : Bool := let d := (a - b).toNat; 0 < d && d < 2 ^ 31

/-- The phasers of a context on a cluster. -/
def State.phasers (s : State) (cluster asid : Nat) : PhaserSet :=
  (s.disp.phasers.find? (fun p => p.cluster == cluster && p.asid == asid)).getD ⟨cluster, asid, [], []⟩

/-- The phasers of a context on a cluster put back. -/
def State.setPhasers (s : State) (p : PhaserSet) : State :=
  let rest := s.disp.phasers.filter (fun q => !(q.cluster == p.cluster && q.asid == p.asid))
  { s with disp := { s.disp with phasers := rest ++ [p] } }

/-- A phaser of a set: one that has not been used is all zero (R255). -/
def PhaserSet.get (p : PhaserSet) (n : Nat) : Phaser := (lookup p.ph n).getD ⟨0, 0, 0, 0, 0⟩
def PhaserSet.put (p : PhaserSet) (n : Nat) (q : Phaser) : PhaserSet := { p with ph := assocSet p.ph n q }

/-- The record of a party on a phaser. -/
def PhaserSet.party (p : PhaserSet) (n : Nat) (f : Family) : Option Party := p.parties.find? (fun r => r.ph == n && r.fam == f)

/-- A party's record changed. -/
def PhaserSet.modParty (p : PhaserSet) (n : Nat) (f : Family) (g : Party → Party) : PhaserSet :=
  { p with parties := p.parties.map (fun r => if r.ph == n && r.fam == f then g r else r) }

/-- check(dropped) of R258: two phases at most complete at once, for the second leaves no arrival. -/
def Phaser.check : Nat → Bool → Phaser → Phaser
  | 0, _, p => p
  | n + 1, dropped, p =>
    if p.acur == p.ncur && (p.ncur > 0 || dropped) then
      Phaser.check n false { p with phase := p.phase + 1, ncur := p.nnext, acur := p.anext, anext := 0 }
    else p

/-- PHREG's effect (R258). -/
def PhaserSet.register (p : PhaserSet) (n : Nat) (f : Family) (sig wait : Bool) : PhaserSet :=
  let q := p.get n
  if sig then
    let first := q.ncur == 0
    let sp := if first then q.phase else q.phase + 1
    { p.put n { q with ncur := if first then 1 else q.ncur, nnext := q.nnext + 1 } with
      parties := p.parties ++ [⟨n, f, true, wait, sp, sp⟩] }
  else { p with parties := p.parties ++ [⟨n, f, false, true, 0, q.phase⟩] }

/-- PHARR's effect (R258). -/
def PhaserSet.arrive (p : PhaserSet) (n : Nat) (r : Party) : PhaserSet :=
  let q := p.get n
  let q := if r.sp == q.phase then { q with acur := q.acur + 1 } else { q with anext := q.anext + 1 }
  (p.put n (q.check 3 false)).modParty n r.fam (fun r => { r with sp := r.sp + 1 })

/-- PHDROP's effect (R258). -/
def PhaserSet.drop (p : PhaserSet) (n : Nat) (r : Party) : PhaserSet :=
  let q := p.get n
  let q := if r.sig && r.sp == q.phase then { q with ncur := q.ncur - 1 } else q
  let q := if r.sig then { q with nnext := q.nnext - 1 } else q
  { p.put n (q.check 3 true) with parties := p.parties.filter (fun x => !(x.ph == n && x.fam == r.fam)) }

/-- Whether a signaller stands two phases ahead: its PHARR or PHDROP stalls (R258). -/
def PhaserSet.ahead (p : PhaserSet) (n : Nat) (r : Party) : Bool := r.sig && r.sp == (p.get n).phase + 2

/-- Whether a wait on a phaser would wait for its own arrival, or is no waiter's (R259). -/
def badWait (r : Option Party) : Bool :=
  match r with
  | none => true
  | some r => !r.wait || (r.sig && !(phGt r.sp r.wp))

/-- The tasks waiting on a phaser that its phase lets go (R268). -/
def State.servePhaser (s : State) (cluster asid n : Nat) : State :=
  s.disp.waits.foldl (fun s w =>
    if w.served || w.asid != asid || w.obj != .phaser cluster n then s
    else
      let p := s.phasers cluster asid
      match p.party n ⟨asid, w.frame⟩ with
      | none => s
      | some r => if phGt (p.get n).phase r.wp then
          (s.setPhasers (p.modParty n r.fam (fun r => { r with wp := r.wp + 1 }))).serveWait w
        else s) s

/-- A phaser operation of the unit in focus (R256 to R259): who may use phasers, the checks at issue, the close, the wait, the effect;
member 0 acts for a gang. -/
def phaserOp (n : Nat) (confirmed : Bool) (bad : PhaserSet → Option Party → Bool) (waits : PhaserSet → Option Party → Bool)
    (act : PhaserSet → Option Party → Family → PhaserSet) (rel : Bool) (s : State) : Res :=
  notInHandler s fun s => match s.core.unit with
  | none => fault illegalOperand s
  | some u =>
    let k := clusterOf s.core.id
    let set := s.phasers k u.asid
    if !u.gang && u.place != 0 then fault illegalOperand s
    else if u.gang && u.member != 0 then closing s .next
    else if bad set (set.party n u.family) then fault illegalOperand s
    else (if confirmed then closingConfirmed else closing) s fun s =>
      let set := s.phasers k u.asid
      let r := set.party n u.family
      if waits set r then stall s
      else
        let s := if rel then s.unitRelease scopeCluster else s
        .next ((s.setPhasers (act set r u.family)).servePhaser k u.asid n)

/-- PHREG: mode 0 signal-only, 1 wait-only, 2 signal-and-wait; mode 3 is illegal (R77, R258, R259). -/
def execPhreg (o : CPr) (s : State) : Res :=
  let n := o.ph.toNat
  let mode := o.mode.toNat
  phaserOp n true (fun p r => r.isSome || p.parties.length ≥ 1024 || mode == 3) (fun _ _ => false)
    (fun p _ f => p.register n f (mode != 1) (mode != 0)) false s

/-- PHARR (R258, R259): a release at CLUSTER scope (R260). -/
def execPharr (o : CPh) (s : State) : Res :=
  let n := o.ph.toNat
  phaserOp n true (fun _ r => !((r.map (·.sig)).getD false)) (fun p r => (r.map (p.ahead n)).getD false)
    (fun p r _ => (r.map (p.arrive n)).getD p) true s

/-- PHWAIT (R258, R259): ILLEGAL_OP in a task (R257). -/
def execPhwait (o : CPh) (s : State) : Res :=
  let n := o.ph.toNat
  if s.core.isTask then fault illegalOp s
  else phaserOp n false (fun _ r => badWait r) (fun p r => (r.map (fun r => !(phGt (p.get n).phase r.wp))).getD false)
    (fun p _ f => p.modParty n f (fun r => { r with wp := r.wp + 1 })) false s

/-- PHDROP (R258, R259): a release at CLUSTER scope (R260). -/
def execPhdrop (o : CPh) (s : State) : Res :=
  let n := o.ph.toNat
  phaserOp n true (fun _ r => r.isNone) (fun p r => (r.map (p.ahead n)).getD false)
    (fun p r _ => (r.map (p.drop n)).getD p) true s

/-! Tasks (R119, R120). -/

/-- An instruction of tasks only: ILLEGAL_OP elsewhere, whatever its predicate (R119). -/
def taskOnly (s : State) (k : UnitInfo → Res) : Res :=
  match s.core.unit with
  | some u => if u.gang then fault illegalOp s else k u
  | none => fault illegalOp s

/-- A child made and enqueued (R265); none while the arena has no room. -/
def State.fork (s : State) (u : UnitInfo) (c : Ctx) (entry val : Word) (size : Nat) : Option State :=
  (s.newFrame c size u.frame).map (fun (t, p) =>
    let t := t.modFrame u.asid u.frame (fun f => { f with count := f.count + 1 })
    let r : Rec := ⟨u.asid, addr48 entry, u.reissue, u.prov, u.place, u.prio, p, [val, 0, 0, 0, 0, 0], u.launch, u.block, none⟩
    let t := match t.launchOf u with
      | none => t
      | some l => t.modLaunch l.key (fun l => { l with unitsLeft := l.unitsLeft + 1 })
    (t.releaseNow (placeScope u.place)).enqueue r (domainAt u.place t.core.id))

/-- FORK (R119, R264, R265): the frame word is read once the gate has been released, as the unit sees it (R294). -/
def execFork (o : SAB) (s : State) : Res :=
  taskOnly s fun u => beginClosing o.qp [.x o.a, .x o.b] s fun s =>
    let c := s.core
    let a := c.x o.a
    if c.xp o.a || c.xp o.b then fault poisonConsumed s
    else if !(targetOk a) then fault illegalOperand s
    else closing s fun s =>
      match s.readFrameWord s.seenMem u.asid a.toNat with
      | .error (code, cause) => faultAt code cause ((a.toNat + 2 ^ 56 - 8) % 2 ^ 56) false false s
      | .ok w => match frameWord w, s.ctx u.asid with
        | some n, some c => ((s.fork u c a (s.core.x o.b) n).map .next).getD (stall s)
        | _, _ => fault illegalOperand s

/-- The children of a task that have not joined (R263). -/
def State.children (s : State) (u : UnitInfo) : Nat := ((s.frame u.asid u.frame).map (·.count)).getD 0

/-- SYNC (R120, R266): it decides at issue. -/
def execSync (o : SQ) (s : State) : Res :=
  taskOnly s fun u => beginClosing o.qp [] s fun s => closing s fun s =>
    if s.children u == 0 then .next s
    else ok (s.modFrame u.asid u.frame (fun f => { f with waiting := true })) (·.later (.ending .sync))

/-- RETF (R120, R266). -/
def execRetf (o : SQ) (s : State) : Res :=
  taskOnly s fun u => beginClosing o.qp [] s fun s =>
    if s.children u != 0 then fault illegalOperand s else closing s fun s => ok s (·.later (.ending .retf))

/-- TEND (R120, R266): in a handler it ends the unit by its fault, the gate held until then (R343, R346). The spec gives it to both kinds
of unit; issued by plinth firmware, which is none, it is illegal by the model's choice (log 67). -/
def execTend (o : SQ) (s : State) : Res :=
  match s.core.unit with
  | none => fault illegalOp s
  | some u => begin o.qp [] s fun s =>
    if !u.gang && s.children u != 0 then fault illegalOperand s
    else if s.core.sys.intrap then ok s (·.later (.ending .fault))
    else closing s fun s => ok s (·.later (.ending .tend))

/-- YIELD (R120, R270). -/
def execYield (o : SQ) (s : State) : Res :=
  taskOnly s fun _ => beginClosing o.qp [] s fun s => closing s fun s => ok s (·.later (.ending .yield))

/-- A wait recorded when WAITC issues, and served at once where the object allows (R268); the task suspends. -/
def State.recordWait (s : State) (u : UnitInfo) (obj : WaitObj) (d : Word) : State :=
  let t := s.disp.nextKey
  let w : Wait := ⟨t, u.asid, u.frame, obj, d, false, false, none, s.core.id⟩
  let s := { s with disp := { s.disp with waits := s.disp.waits ++ [w], nextKey := t + 1 } }
  let s := s.mapCore (·.later (.ending (.waitc t)))
  match obj with
  | .flag core f _ => s.serveFlag core f
  | .phaser k n => s.servePhaser k u.asid n

/-- WAITC (R267, R268). -/
def execWaitc (o : SA) (s : State) : Res :=
  taskOnly s fun u => beginClosing o.qp [.x o.a] s fun s =>
    let d := s.core.x o.a
    if s.core.xp o.a then fault poisonConsumed s
    else if bitAt d 16 then
      let k := clusterOf s.core.id
      let n := (field d 0 6).toNat
      if field d 17 47 != 0 || field d 6 10 != 0 || u.place != 0 || badWait ((s.phasers k u.asid).party n u.family) then
        fault illegalOperand s
      else closingConfirmed s fun s => .next (s.recordWait u (.phaser k n) d)
    else if !(desigOk d) || bitAt d 15 then fault illegalOperand s
    else
      let core := desigCore d s.core.id
      let g := s.coreOf core
      match g.unit with
      | none => raise { accessFault permission 9 s.core.ctl.slot d.toNat false with rb := false } s
      | some t =>
        if !t.gang || t.asid != u.asid then raise { accessFault permission 9 s.core.ctl.slot d.toNat false with rb := false } s
        else closing s fun s => .next (s.recordWait u (.flag core (desigFlag d) t.family) d)

end Sys2Proof.Machine
end

