-- ==== Sys2Proof/Machine/Units.lean ====
section
/-! DEFINITION. Units from start to end: the state a unit starts in (R12, R39, R262, R299), UNIT_END (R250, R266, R269, R346),
TASK_SUSPEND (R121, R268), TASK_PICK (R272). -/

namespace Sys2Proof.Machine

/-! Starts. -/

/-- The partition of a unit that belongs to no launch, a commit handler: no line store, no scratchpad, the whole vector budget
(log 10). -/
def noLaunch : List Word := [0, 0, 0, 0x10000, 0, 0, 0, 0]

/-- The system registers of a unit at its start (R12, R16, R34, R299, R341, R426). -/
def Core.startSys (c : Core) (x : Ctx) (d : List Word) : Sys :=
  let y := c.sys
  { Sys.reset with
    trapVec := x.trapVec, profLo := dWord d 6, profHi := dWord d 7,
    spillBase := BitVec.ofNat 64 (16384 * (dLine d + dScratch d)), lineEnd := 16384 * dLine d,
    budget := dVbud d, rfN := dVbud d, awake := BitVec.ofNat 4 (2 ^ dVbud d - 1),
    limit := y.limitBase, slope := y.slopeBase, limitBase := y.limitBase, slopeBase := y.slopeBase }

/-- A core without a unit: what outlasts units is kept (R40, R272, R331, R426). -/
def Core.vacate (c : Core) : Core :=
  let y := c.sys
  { Core.reset c.id with
    sys := { Sys.reset with limit := y.limitBase, slope := y.slopeBase, limitBase := y.limitBase, slopeBase := y.slopeBase },
    pipe := ⟨[], [], [], c.pipe.nextReq, 0⟩, mem := ⟨[], [], c.mem.tlb⟩, lastPick := c.lastPick,
    pw := { c.pw with stall := 0, reported := false } }

/-- A core with a unit about to issue its first bundle at pc, its bed zero (R12, R39, R299). -/
def Core.start (c : Core) (u : UnitInfo) (x : Ctx) (d : List Word) (pc : Word) : Core :=
  { c.vacate with sys := c.startSys x d, ctl := { Ctl.idle with pc := pc }, unit := some u }

/-- The tags of a core's bed dropped with its contents (R39, R280). -/
def State.dropBedTags (s : State) (n : Nat) : State := s.dropLines (bedLine n 0) 32768

/-- A core left by its unit: its bed, its tile entries and the holds of its agents are gone. -/
def State.vacate (s : State) (n : Nat) : State :=
  let s := (s.modCore n Core.vacate).dropBedTags n
  { s with holds := s.holds.filter (·.core != n) }

/-- A task started or resumed on a core from its record (R12, R262). -/
def State.startTask (s : State) (n : Nat) (r : Rec) : State :=
  match s.ctx r.asid, s.frame r.asid r.frame with
  | some x, some f =>
    let u : UnitInfo := ⟨false, r.asid, r.launch, 0, 0, 1, n, r.frame, r.prio, r.place, r.prov, r.reissue, r.block, r.serves⟩
    let d := ((s.launchOf u).map (·.desc)).getD noLaunch
    (s.modCore n (fun c =>
      let c := c.start u x d r.resume
      let regs := (r.carry.zip (List.range 6)).foldl (fun g e => g.setX (BitVec.ofNat 6 (8 + e.2)) ⟨e.1, false⟩) c.r
      { c with
        r := regs.setX 2 ⟨c.sys.spillBase - BitVec.ofNat 64 f.spd, false⟩,
        sys := { c.sys with ovf := BitVec.ofNat 64 ((r.frame + f.size) % 2 ^ 56) },
        lastPick := r.asid })).dropBedTags n
  | _, _ => s

/-! Ends. -/

/-- How far a core of an ending or suspending unit has come (R120, R250). -/
inductive Settle where
  | go (s : State)
  | wait (s : State)
  | fail (s : State) (f : FaultRec)
  deriving DecidableEq, Repr

/-- A gate without the entries that fail: an end by a fault performs the others (R346). -/
def State.dropFailing (s : State) : State :=
  let s := s.freshGate
  let keep := s.core.rg.gate.filter (fun g => match s.checkEntry g with
    | .fail _ => false
    | _ => true)
  s.mapCore (fun c => { c with rg := { c.rg with gate := keep } })

/-- One core of an ending or suspending unit: exposed results land, pending registers are waited for, a load or a store that failed is
reported, the gate is released, the region closes, the copy-engine queues drain (R32, R120, R228, R250, R276). -/
def State.settle (s : State) (n : Nat) : Settle :=
  let s := (s.focus n).mapCore (Core.landAll maxCount)
  let byFault := s.core.ctl.after == some (.ending .fault)
  match if byFault then none else s.core.failedLoad with
  | some f => .fail s f
  | none =>
    if s.core.pipe.reqs.any (fun r => !r.dests.isEmpty && !(r.kind matches .failed _)) then .wait s
    else
      let s := if byFault then s.dropFailing else s
      match s.openGate with
      | .fail f => .fail s f
      | .wait t => .wait t
      | .ok t => if t.core.eng.toList.any (fun q => !q.ents.isEmpty) then .wait t else .go t.unitClose

/-- Every core of the unit settled, member 0 first; c is in focus again at the end. -/
def State.settleAll (s : State) (c : Nat) : List Nat → Settle
  | [] => .go (s.focus c)
  | n :: ns => match s.settle n with
    | .go t => t.settleAll c ns
    | r => r

/-- The record of a fault that the device cannot resolve (R392), of the unit on core n. -/
def State.unitRecord (s : State) (n kind : Nat) (info va pc : Word) : State :=
  let c := s.coreOf n
  s.postFault (s.fnOf c.asid) (faultWords kind 0 c.asid info va pc ((c.unit.map (·.launch)).getD 0) n)

/-- The FAULTED queues of the unit's cores, each core's in ascending order (R250). -/
def State.faultedQueues (s : State) (ns : List Nat) : List (Nat × Nat × FaultRec) :=
  ns.flatMap (fun n => (List.range 4).filterMap (fun q => ((s.coreOf n).queue q).faulted.map (fun f => (n, q, f))))

/-- Their records, KIND 1; the queues are FAULTED no longer (R250). -/
def State.reportQueues (s : State) (ns : List Nat) : State :=
  (s.faultedQueues ns).foldl (fun s e =>
    let f := withOrigin { e.2.2 with queue := BitVec.ofNat 2 e.2.1 } 2
    let info := infoWord f false false false (s.coreOf e.1).member
    (s.unitRecord e.1 1 info f.va 0).modCore e.1 (·.clearFaulted e.2.1)) s

/-- The registrations of a party, and the phasers they stand on. -/
def State.registrations (s : State) (f : Family) : List (PhaserSet × Party) :=
  s.disp.phasers.flatMap (fun p => if p.asid == f.asid then (p.parties.filter (·.fam == f)).map (fun r => (p, r)) else [])

/-- Whether a registration cannot be dropped yet (R258). -/
def State.dropWaits (s : State) (f : Family) : Bool := (s.registrations f).any (fun e => e.1.ahead e.2.ph e.2)

/-- Every registration of a party dropped (R256). -/
def State.dropParties (s : State) (f : Family) : State :=
  (s.registrations f).foldl (fun s e =>
    let k := e.1.cluster
    (s.setPhasers ((s.phasers k f.asid).drop e.2.ph e.2)).servePhaser k f.asid e.2.ph) s

/-- A launch after one of its units has ended (R309): the first failure's status stands. -/
def Launch.unitGone (l : Launch) (failed : Bool) : Launch :=
  { l with unitsLeft := l.unitsLeft - 1, status := if failed && l.status == 0 then 0x10 else l.status }

/-- The block-table entries of a unit that has ended, kept until its launch is complete (R359). -/
def Launch.keepEntries (l : Launch) (ws : List Word) : Launch := { l with entries := l.entries ++ ws }

/-- A block after its root task has ended (R318). -/
def BlockSt.rootEnded : BlockSt → BlockSt
  | .runP => .endP
  | .runC => .done
  | b => b

/-- A block's state set. -/
def Launch.setBlock (l : Launch) (b : Nat) (f : BlockSt → BlockSt) : Launch :=
  { l with blocks := l.blocks.map (fun e => if e.1 == b then (b, f e.2) else e) }

/-- A block's state. -/
def Launch.block (l : Launch) (b : Nat) : Option BlockSt := lookup l.blocks b

/-- The units parked on a request of the fault service go on, and the commands it holds (R338): running and saved. -/
def Core.resumed (n page : Nat) (c : Core) : Core :=
  let c := { c with eng := c.eng.map (fun q => { q with ents := q.ents.map (fun e => if e.held == some n then { e with held := none } else e) }) }
  if c.ctl.parked == some n then { c with ctl := { c.ctl with parked := none }, rg := { c.rg with served := some page } } else c

/-- A change made on every core, running or saved. -/
def State.mapAllCores (s : State) (f : Core → Core) : State :=
  { s with core := f s.core, others := s.others.map (fun e => (e.1, f e.2)),
           disp := { s.disp with images := s.disp.images.map (fun i => { i with core := f i.core }) } }

/-- A request closed: everything that waited on it goes on. -/
def State.resumeRequest (s : State) (n : Nat) : State :=
  match s.disp.reqs.find? (·.num == n) with
  | none => s
  | some q =>
    let s := s.mapAllCores (Core.resumed n q.page)
    { s with disp := { s.disp with reqs := s.disp.reqs.filter (·.num != n) } }

/-- A task's end in its launch, its frame, its phasers, its request (R256, R266, R309, R318, R338). It may be running or waiting. -/
def State.taskGone (s : State) (asid frame launch : Nat) (block serves : Option Nat) (failed : Bool) : State :=
  let root := ((s.frame asid frame).map (·.parent == 0)).getD false
  let fam : Family := ⟨asid, frame⟩
  let s := (s.dropParties fam).endFrame asid frame
  let s := { s with disp := { s.disp with launches := s.disp.launches.map (fun l =>
    if l.asid == asid && l.id == launch then
      match (if root then block else none) with
      | some b => (l.unitGone failed).setBlock b BlockSt.rootEnded
      | none => l.unitGone failed
    else l) } }
  match serves with
  | some n => s.resumeRequest n
  | none => s

/-- Whether a wait is on a flag of a gang. -/
def Wait.on (w : Wait) (f : Family) : Bool :=
  match w.obj with
  | .flag _ _ g => g == f
  | .phaser _ _ => false

/-- The end of a suspended task whose gang has ended (R269), with its record: as soon as its registrations can be dropped (R256, R258) and the
function's store of fault records has room (R392). -/
def State.endDead (s : State) (ticket : Nat) : State :=
  match s.disp.waits.find? (fun w => w.ticket == ticket && w.dead) with
  | none => s
  | some w =>
    let fam : Family := ⟨w.asid, w.frame⟩
    match w.rec_ with
    | none => s
    | some r =>
      if s.dropWaits fam || s.faultsFull (s.fnOf w.asid) then s
      else
        let s := { s with disp := { s.disp with waits := s.disp.waits.filter (·.ticket != w.ticket) } }
        let info := infoWord { accessFault permission 9 7 0 false with va := w.desig } false false false 0
        let s := s.postFault (s.fnOf w.asid) (faultWords 0 0 w.asid info w.desig 0 r.launch w.at_)
        (s.endFamily fam).taskGone w.asid w.frame r.launch r.block r.serves true

/-- The tasks that wait on a flag of a gang that has ended (R269): those that have suspended end, the others will when they do. -/
def State.dropWaiters (s : State) (f : Family) : State :=
  let waits := s.disp.waits.map (fun w => if w.on f && !w.served then { w with dead := true } else w)
  (waits.filter (·.dead)).foldl (fun s w => s.endDead w.ticket) { s with disp := { s.disp with waits := waits } }

/-- The end of a unit's accesses: a release at CONTEXT scope (R285, R287), deferred by a provisional unit (R315). -/
def State.endRelease (s : State) (u : UnitInfo) : State := s.deferOr .finish (fun s => s.endFamily u.family)

/-- The unit in focus leaves its cores (R250, R266): its results, tiles, flags and beds go with it. -/
def State.leave (s : State) (u : UnitInfo) (failed : Bool) : State :=
  let cores := s.core.team
  let tables := cores.flatMap (fun n => (s.coreOf n).validEntries)
  let s := s.endRelease u
  let s := cores.foldl State.vacate s
  if u.gang then
    let s := (s.dropParties u.family).dropWaiters u.family
    let key := ((s.launchOf u).map (·.key)).getD 0
    { s with disp := { s.disp with
        launches := s.disp.launches.map (fun l => if l.key == key then (l.unitGone failed).keepEntries tables else l),
        mirrors := s.disp.mirrors.filter (fun m => !(m.launch == key && m.stage == u.stage)) } }
  else
    let s := { s with disp := { s.disp with waits := s.disp.waits.filter (fun w => !(w.asid == u.asid && w.frame == u.frame)) } }
    s.taskGone u.asid u.frame u.launch u.block u.serves failed

/-- Whether a unit's block is being committed, or confirmed ticks of a gang: it stands still until that is done (R318, R319). -/
def State.committing (s : State) (u : UnitInfo) : Bool :=
  match s.launchOf u with
  | none => false
  | some l =>
    if u.gang then l.prov.any (fun e => e.unit < l.floor && e.by_.fam == u.family) ||
      l.defer_.any (fun e => e.unit < l.floor && e.by_.fam == u.family)
    else (u.block.map (fun b => l.block b == some .commit)).getD false

/-- The member whose fault ends the unit, as FAULT_INFO names it (R341, R344). -/
def State.faultCore (s : State) (u : UnitInfo) : Nat :=
  if u.gang then u.first + (field s.core.sys.faultInfo 32 4).toNat else s.core.id

/-- The unit in focus ended, its cores settled: its faults are reported (R250, R346, R392). It waits while a registration cannot be dropped,
a release cannot be deferred (R315), or the function's store of fault records is full. -/
def State.finishUnit (s : State) (u : UnitInfo) (byFault : Bool) : State :=
  let cores := s.core.team
  let qs := s.faultedQueues cores
  let records := qs.length + (if byFault then 1 else 0)
  if s.committing u || s.dropWaits u.family || !s.canDefer || !(s.faultRoom (s.fnOf u.asid) records) then s
  else
    let s := s.reportQueues cores
    let m := s.faultCore u
    let y := (s.coreOf m).sys
    let s := if byFault then s.unitRecord m 0 y.faultInfo y.faultVa y.trapPc else s
    s.leave u (byFault || !qs.isEmpty)

/-- UNIT_END (R250): the unit on core c, when it stands at its end. -/
def execUnitEnd (c : Nat) (s : State) : Res :=
  let s := s.focus c
  match s.core.unit with
  | none => .next s
  | some u =>
    let cores := s.core.team
    if !(cores.all (fun n => (s.coreOf n).endWait)) then .next s
    else match s.settleAll c cores with
      | .wait t => .next (t.focus c)
      | .fail t f => .next (enterFault f t)
      | .go t => .next (t.finishUnit u (cores.any (fun n => (t.coreOf n).ctl.after == some (.ending .fault))))

/-! Suspensions. -/

/-- SPD: the stack's depth below SPILL_BASE (R262); x2 is an unsigned offset (log 7). -/
def Core.spd (c : Core) : Nat :=
  let d : Int := (c.sys.spillBase.toNat : Int) - ((c.x 2).toNat : Int)
  if c.xp 2 || d ≤ 0 then 0 else (d % (2 ^ 21 : Nat)).toNat

/-- The record of the task in focus (R121, R261). -/
def Core.toRec (c : Core) (u : UnitInfo) : Rec :=
  ⟨u.asid, addr48 c.ctl.cont, u.reissue, u.prov, u.place, u.prio, u.frame,
    (List.range 6).map (fun i => c.x (BitVec.ofNat 6 (8 + i))), u.launch, u.block, u.serves⟩

/-- Waiting records of a die (R268). -/
def State.waitingOn (s : State) (d : Nat) : Nat := (s.disp.waits.filter (fun w => w.rec_.isSome && dieOf w.at_ == d)).length

/-- A task that a suspension ends instead (R121, R269): its record goes to the host. -/
def State.endInstead (s : State) (u : UnitInfo) (f : FaultRec) : State :=
  if s.dropWaits u.family || !s.canDefer || !(s.faultRoom (s.fnOf u.asid) 1) then s
  else (s.unitRecord s.core.id 0 (infoWord f false false false 0) f.va s.core.sys.trapPc).leave u true

/-- The record placed where its suspension says (R266, R268, R270); none while no room holds it. -/
def State.placeRecord (s : State) (u : UnitInfo) (r : Rec) (k : EndKind) : Option State :=
  let at_ := s.core.id
  match k with
  | .sync => some ((s.modFrame u.asid u.frame (fun f => { f with parked := some r, at_ := at_ })).tryUnpark u.asid u.frame)
  | .waitc t =>
    match s.disp.waits.find? (·.ticket == t) with
    | none => none
    | some w =>
      if w.served then
        some (({ s with disp := { s.disp with waits := s.disp.waits.filter (·.ticket != t) } } : State).enqueue r (domainAt r.place at_))
      else if s.waitingOn (dieOf at_) ≥ 4096 then none
      else some { s with disp := { s.disp with waits := s.disp.waits.map (fun x => if x.ticket == t then { x with rec_ := some r } else x) } }
  | _ => some (s.enqueue r (domainAt r.place at_))

/-- The suspension of the task in focus, its core settled (R121, R250, R262, R289). -/
def State.suspend (s : State) (u : UnitInfo) (k : EndKind) : State :=
  let dead := match k with
    | .waitc t => (s.disp.waits.find? (fun w => w.ticket == t && w.dead)).map (·.desig)
    | _ => none
  if s.committing u then s
  else if !(s.faultedQueues [s.core.id]).isEmpty then s.finishUnit u false
  else match dead with
    | some d => s.endInstead u { accessFault permission 9 7 0 false with va := d }
    | none =>
      if (List.range 6).any (fun i => s.core.xp (BitVec.ofNat 6 (8 + i))) then s.endInstead u (precise poisonConsumed 7)
      else
        let spd := s.core.spd
        let r := s.core.toRec u
        let t := (s.modFrame u.asid u.frame (fun f => { f with spd := spd })).releaseNow (placeScope u.place)
        match t.placeRecord u r k with
        | none => s
        | some t => t.vacate s.core.id

/-- TASK_SUSPEND (R121): the task on core c, when it stands at its suspension. -/
def execTaskSuspend (c : Nat) (s : State) : Res :=
  let s := s.focus c
  match s.core.unit, s.core.ctl.after with
  | some u, some (.ending k) =>
    if u.gang || s.core.ctl.dly != 0 then .next s
    else if !(k matches .sync) && !(k matches .yield) && !(k matches .waitc _) then .next s
    else match s.settle c with
      | .wait t => .next t
      | .fail t f => .next (enterFault f t)
      | .go t => .next (t.suspend u k)
  | _, _ => .next s

/-! Idle cores. -/

/-- Whether a core may take a unit: it runs nothing and waits for no placed member, it is not reserved, its cluster is in RUN and its die not
fenced (R304, R421, R438). -/
def State.coreFree (s : State) (n : Nat) : Bool :=
  let c := s.coreOf n
  let k := s.cluster (clusterOf n)
  n < plinthId && c.unit.isNone && !c.ctl.firmware && !c.ctl.halted && k.state == 0 && k.target.isNone &&
    !(s.fenced.contains (dieOf n)) &&
    s.disp.launches.all (fun l => l.toStart.all (fun e => (l.placed.getD e.1 0) + e.2 != n))

/-- Whether a remote store that has issued and is still to be performed names a core's bed, from a unit that a test admits (R224). -/
def State.sentTo (s : State) (n : Nat) (p : Core → Bool) : Bool :=
  (s.cores ++ s.disp.images.map (·.core)).any (fun c => p c && c.rg.gate.any (fun g => match g.op with
    | .remote m _ _ => m == n && g.fail.isNone && !g.done
    | _ => false))

/-- Whether core n may start or resume a unit of a launch: no remote store of another's is on its way to its bed (R224). -/
def State.bedClear (s : State) (n asid launch : Nat) : Bool :=
  !(s.sentTo n (fun c => !(c.asid == asid && (c.unit.map (·.launch == launch)).getD false)))

/-- Whether a core's bed may be saved with those of its own unit (R224): no remote store to it is on its way from another unit, or out of a
gate that is being released. -/
def State.bedStill (s : State) (n : Nat) (u : UnitInfo) : Bool :=
  !(s.sentTo n (fun c => c.pastMark || !((c.unit.map (fun v => v.gang && v.asid == u.asid && v.launch == u.launch && u.gang)).getD false)))

/-- A record as its pick leaves it (R318): the first pick of a block decides whether it runs provisionally. -/
def State.pickRecord (s : State) (r : Rec) : State × Rec :=
  match r.block, s.disp.launches.find? (fun l => l.asid == r.asid && l.id == r.launch) with
  | some b, some l =>
    if l.block b == some .waiting then
      let prov := l.waits && b ≥ l.floor
      (s.modLaunch l.key (fun l => l.setBlock b (fun _ => if prov then .runP else .runC)), { r with prov := prov })
    else (s, r)
  | _, _ => (s, r)

/-- The name under which a saved unit keeps the holds of its queues. -/
def Image.holder (i : Image) : Nat := 1024 + i.num

/-- Handles on their way to a register, as a resumption leaves them (R330). -/
def Landing.restored (l : Landing) : Landing :=
  match l with
  | .h n old => .h n old.restored
  | _ => l
def Pipe.restored (p : Pipe) : Pipe :=
  let fl := fun (f : Flight) => { f with land := f.land.restored }
  { p with flights := p.flights.map fl, trapBuf := p.trapBuf.map fl,
           reqs := p.reqs.map (fun r => match r.kind with
             | .lands ls => { r with kind := .lands (ls.map (·.restored)) }
             | _ => r) }

/-- A read made again after a task has moved to another core: its own bed is there. -/
def Again.moved (old new : Nat) (a : Again) : Again :=
  match a with
  | .bed idx core off n form => .bed idx (if core == old then new else core) off n form
  | a => a

/-- The system registers a resumption restores: the two counters that start anew, and the base values that are the core's own (R426). -/
def Sys.restored (saved here : Sys) : Sys :=
  { saved with freeze := 0, ballast := 0, limitBase := here.limitBase, slopeBase := here.slopeBase }

/-- A saved core put back on core n (R44, R330, R426): its handles are STALE, its TLB the core's, its requests numbered on from the
core's. -/
def State.restoreOn (s : State) (n : Nat) (i : Image) : State :=
  let c := s.coreOf n
  let p := i.core.pipe.restored
  let k := { i.core with
    id := n, r := { i.core.r with h := i.core.r.h.map (·.restored) }, sys := i.core.sys.restored c.sys,
    mem := { i.core.mem with tlb := c.mem.tlb },
    pipe := { p with nextReq := c.pipe.nextReq, reqs := p.reqs.map (fun r => { r with again := r.again.map (·.moved i.core.id n) }) },
    unit := i.core.unit.map (fun u => if u.gang then u else { u with first := n }), pw := { c.pw with stall := 0, reported := false },
    lastPick := if i.gang then c.lastPick else i.core.asid }
  let a := s.agentOf k
  let s := (s.putCore k).dropBedTags n
  let s := { s with disp := { s.disp with images := s.disp.images.filter (·.num != i.num) },
                    holds := s.holds.map (fun h => if h.core == i.holder then { h with core := n } else h),
                    regions := s.regions.map (fun r => if r.id == k.rg.id then { r with by_ := a } else r) }
  (List.range 32).foldl (fun s f => s.serveFlag n f) s

/-! Pre-emption (R43, R305, R323, R349). -/

/-- The saved images of a context, and whether n more fit into its save arena (R323, log 9). -/
def State.saveRoom (s : State) (asid n : Nat) : Bool :=
  let used := ((s.disp.images.filter (·.core.asid == asid)).map (·.bytes)).sum
  ((s.ctx asid).map (fun x => decide (used + n * Config.imageBytes ≤ x.saveSize))).getD false

/-- A core's unit saved, and the core left (R43). -/
def State.saveCore (s : State) (n : Nat) (gang : Bool) (prio : Nat) : State × Nat :=
  let k := s.disp.nextKey
  let i : Image := ⟨k, (s.coreOf n).attnRestart, gang, prio, Config.imageBytes⟩
  let s := { s with disp := { s.disp with images := s.disp.images ++ [i], nextKey := k + 1 },
                    holds := s.holds.map (fun (h : Hold) => if h.core == n then { h with core := i.holder } else h) }
  (s.vacate n, k)

/-- A queue with an image at a level: ahead of every record, behind the images already there (R323). -/
def ReadyQ.addImage (q : ReadyQ) (lv k : Nat) : ReadyQ :=
  let l := q.levels.getD lv []
  let isImage := fun (r : Ready) => r matches .image _
  { q with levels := q.levels.set lv (l.filter isImage ++ [.image k] ++ l.filter (fun r => !(isImage r))) }

/-- The queue priority of a launch (R303). -/
def State.prioOf (s : State) (l : Launch) : Nat := ((s.disp.hw.find? (·.n == l.queue)).map (·.prio)).getD 0

/-- The cores on which gangs of a launch run. -/
def State.gangCores (s : State) (l : Launch) : List Nat :=
  (s.cores.filter (fun c => (c.unit.map (fun u => u.gang && u.asid == l.asid && u.launch == l.id)).getD false)).map (·.id)

/-- A launch pre-empted whole, while all its members run and there is room (R305, R323). -/
def State.preemptLaunch (s : State) (l : Launch) : State :=
  let cores := s.gangCores l
  let still := fun (n : Nat) => ((s.coreOf n).unit.map (fun u => s.bedStill n u && !(s.committing u))).getD true
  if !l.toStart.isEmpty || !(s.saveRoom l.asid cores.length) || !(cores.all still) then s
  else cores.foldl (fun s n => (s.saveCore n true (s.prioOf l)).1) s

/-- PREEMPT (R43, R323): the unit on core c, with the whole of its launch where it is a gang. It waits for a commit (R324) and for room. -/
def execPreempt (c : Nat) (s : State) : Res :=
  match (s.coreOf c).unit with
  | none => .next s
  | some u =>
    if u.gang then .next (((s.launchOf u).map s.preemptLaunch).getD s)
    else if s.committing u || !(s.saveRoom u.asid 1) || !(s.bedStill c u) then .next s
    else
      let (t, k) := s.saveCore c false u.prio
      let d := domainAt u.place c
      let t := if t.disp.ready.any (fun q => q.dom == d && q.asid == u.asid) then t
        else { t with disp := { t.disp with ready := t.disp.ready ++ [ReadyQ.new d u.asid] } }
      .next { t with disp := { t.disp with ready := t.disp.ready.map (fun q =>
        if q.dom == d && q.asid == u.asid then q.addImage u.prio k else q) } }

/-- The saved members of a launch. -/
def State.imagesOf (s : State) (asid launch : Nat) : List Image :=
  s.disp.images.filter (fun i => i.gang && i.core.asid == asid && (i.core.unit.map (·.launch == launch)).getD false)

/-- Whether a pre-empted launch can take its cores again (R323). -/
def State.canResume (s : State) (is : List Image) : Bool :=
  is.all (fun i => s.coreFree i.core.id && !(s.disp.reserved.contains i.core.id) &&
    s.bedClear i.core.id i.core.asid ((i.core.unit.map (·.launch)).getD 0))

/-- The launch of what a core would pick. -/
def State.candLaunch (s : State) (k : Cand) : Nat :=
  match k.what with
  | .record r => r.launch
  | .image n => ((s.disp.images.find? (·.num == n)).bind (fun i => i.core.unit.map (·.launch))).getD 0

/-- What core c may pick now (R224, R272, R304): it is idle and not reserved. -/
def State.pickNow (s : State) (c : Nat) : Option Cand :=
  if !(s.coreFree c) || s.disp.reserved.contains c then none
  else (s.pickFor c).bind (fun k => if s.bedClear c k.asid (s.candLaunch k) then some k else none)

/-- TASK_PICK (R272): idle core c picks a record, or the image of a pre-empted task (R323). -/
def execTaskPick (c : Nat) (s : State) : Res :=
  match s.pickNow c with
    | none => .next s
    | some k =>
      let s := s.takePick k
      match k.what with
      | .record r =>
        let (s, r) := s.pickRecord r
        .next (s.startTask c r)
      | .image n => match s.disp.images.find? (·.num == n) with
        | none => .next s
        | some i => .next ((s.restoreOn c i).focus c).issueAgain

/-- RESUME (R44, R323): the k-th saved image on core c: a gang's with every gang of its launch, on the cores they left; a task's where R272
picks it. -/
def execResume (c k : Nat) (s : State) : Res :=
  match s.disp.images[k]? with
  | none => .next s
  | some i =>
    if i.gang then
      let is := s.imagesOf i.core.asid ((i.core.unit.map (·.launch)).getD 0)
      if i.core.id != c || !(s.canResume is) then .next s
      else
        let s := is.foldl (fun s i => s.restoreOn i.core.id i) s
        .next (is.foldl (fun s i => (s.focus i.core.id).issueAgain) s)
    else if (s.pickFor c).any (·.what == .image i.num) then execTaskPick c s
    else .next s

end Sys2Proof.Machine
end

