-- ==== Sys2Proof/Machine/Launches.lean ====
section
/-! DEFINITION. LAUNCH, GRAPH and SHAPE (R310 to R316, R321), and the acceptance of what they submit (R298, R301, R302, R376). -/

namespace Sys2Proof.Machine

/-! Reading through a context's tables. -/

/-- n bytes of a context's memory; none where they cannot be read. -/
def State.readVa (s : State) (asid va n : Nat) : Option (List Byte) :=
  match s.span asid va n .read with
  | .error _ => none
  | .ok rs => some (rs.flatMap (fun r => (s.memAs (s.keyOf asid)).read r.1 r.2))

/-- Words of a run of bytes. -/
def wordsOf (n : Nat) (bs : List Byte) : List Word := (List.range n).map (fun i => wordOfBytes ((bs.drop (8 * i)).take 8))

/-- n doublewords of a context's memory. -/
def State.readWords (s : State) (asid va n : Nat) : Option (List Word) := (s.readVa asid va (8 * n)).map (wordsOf n)

/-! The instructions. -/

/-- A launch word that keeps R310. -/
def launchWordOk (b : Word) : Bool :=
  field b 10 6 == 0 && field b 33 31 == 0 && (!(bitAt b 32) || desigOk (zextW (field b 16 16)))

/-- A pending result another agent brings, for a core of a gang that has yet to issue the bundle (R312). -/
def Core.reserve (c : Core) (seq : Nat) (d : RegNo) : Core :=
  let r : Request := ⟨c.pipe.nextReq, seq, slotM, [.x d], false, none, .master, none⟩
  { c with pipe := { c.pipe with reqs := c.pipe.reqs ++ [r], nextReq := c.pipe.nextReq + 1024 } }

/-- What member 0 sends to the package master (R311, R312): the 64 bytes as they stand now, and who waits for the result. -/
def State.submitted (s : State) (kind : Nat) (o : MDAB) : Submit :=
  let c := s.core
  let b := c.x o.b
  let va := (c.x o.a).toNat
  { kind := kind, asid := c.asid, queue := (field b 0 10).toNat, addr := va, desc := s.readWords c.asid va 8,
    notify := if bitAt b 32 then some (zextW (field b 16 16)) else none,
    issuer := some (c.id, (s.agentOf c).fam), answer := some (c.id, c.pipe.nextReq),
    also := (c.team.filter (· != c.id)).map (fun n => (n, (s.coreOf n).pipe.nextReq)), host := none }

/-- LAUNCH's and GRAPH's act (R311, R312, R321): a release at PACKAGE scope, the submission, x[D] pending in every member. -/
def State.sendSubmit (s : State) (kind : Nat) (o : MDAB) : State :=
  let s := s.unitRelease scopePackage
  let m := s.submitted kind o
  let s := m.also.foldl (fun s e => s.modCore e.1 (fun c => c.reserve s.core.pipe.seq o.d)) s
  { s with disp := { s.disp with submits := s.disp.submits ++ [m] } }

/-- The common rules of LAUNCH and GRAPH (R310, R312, R321). -/
def submitOp (kind : Nat) (o : MDAB) (s : State) : Res :=
  beginClosing o.qp [.x o.a, .x o.b, .x o.d] s fun s =>
    let c := s.core
    let a := c.x o.a
    if c.isGang && c.member != 0 then closing s .next
    else if c.xp o.a || c.xp o.b then fault poisonConsumed s
    else if field a 0 6 != 0 || field a 56 8 != 0 || !(launchWordOk (c.x o.b)) then fault illegalOperand s
    else closingConfirmed s fun s => pendX o.d none .master (s.sendSubmit kind o)

/-- LAUNCH (R310, R311). -/
def execLaunch (o : MDAB) (s : State) : Res := submitOp 1 o s

/-- GRAPH (R321). -/
def execGraph (o : MDAB) (s : State) : Res := submitOp 2 o s

/-- A post on its way to the package master (R316). -/
def State.sendShape (s : State) (m : ShapeMsg) : State := { s with disp := { s.disp with shapes := s.disp.shapes ++ [m] } }

/-- SHAPE (R316): the cell is translated at issue; a provisional unit defers the post (R315). -/
def shapeOp (final : Bool) (o : MAB) (s : State) : Res :=
  beginClosing o.qp [.x o.a, .x o.b] s fun s =>
    let c := s.core
    let a := c.x o.a
    let b := c.x o.b
    if c.isGang && c.member != 0 then closing s .next
    else if c.xp o.a || c.xp o.b then fault poisonConsumed s
    else if field a 0 4 != 0 || field a 56 8 != 0 || field b 32 32 != 0 then fault illegalOperand s
    else match s.translate c.asid a.toNat .write with
      | .error (code, cause) => faultAt code cause a.toNat true false s
      | .ok pa => closingDefer s fun s =>
        .next (s.deferOr (.shape final a.toNat pa b.toNat) (fun s =>
          (s.unitRelease scopePackage).sendShape ⟨final, s.core.asid, a.toNat, pa, b.toNat⟩))

def execShapeFinal (o : MAB) (s : State) : Res := shapeOp true o s
def execShapeFloor (o : MAB) (s : State) : Res := shapeOp false o s

/-- A result that the package master, or a block's commit, brings to the request that waits for it (R311, R315). -/
def Request.answered (r : Request) (w : Word) : Request :=
  { r with kind := .lands (r.dests.filterMap (fun d => match d with
      | .x n => some (.x n w false)
      | _ => none)) }

/-- The answer to a request by its number, on running and saved cores. -/
def State.answer (s : State) (n : Nat) (w : Word) : State :=
  s.mapAllCores (fun c => { c with pipe := { c.pipe with reqs := c.pipe.reqs.map (fun r =>
    if r.num == n && r.kind == .master then r.answered w else r) } })

/-! Statuses (R307). -/
def stDescInvalid : Nat := 1
def stDescFault : Nat := 2
def stFeatureMissing : Nat := 3
def stProfileUnsupported : Nat := 4
def stSignalInvalid : Nat := 5
def stPlaceImpossible : Nat := 6
def stQueueFull : Nat := 7
def stQueueDenied : Nat := 8
def stCellBusy : Nat := 9
def stGraphInvalid : Nat := 10
def stUnitFault : Nat := 0x10
def stDieLost : Nat := 0x11
def stVfReset : Nat := 0x12

/-! The image record (R375). -/

/-- What a dispatcher reads of a module (R376): the feature mask, the stage map, the signal records with their primes, TICKBUDGET. -/
structure ImageRec where
  features : Nat
  map : List Nat
  sigs : List (List Word × List Byte)
  tickBudget : BitVec 32
  deriving DecidableEq, Repr

/-- The primes of some signal records, one after another in record order (R373, R375): the offset of each; the total size. -/
def primeOffs (o : Nat) : List (List Word) → List (Option (Nat × Nat)) × Nat
  | [] => ([], o)
  | r :: rs =>
    if bitAt (dWord r 1) 12 then
      let n := 8 * 2 ^ min 12 (dField r 1 0 4)
      let (t, e) := primeOffs (o + n) rs
      (some (o, n) :: t, e)
    else
      let (t, e) := primeOffs o rs
      (none :: t, e)

/-- The image record at an address of a context (R375); none where any of it cannot be read. -/
def State.readImage (s : State) (asid va : Nat) : Option ImageRec :=
  (s.readVa asid va 64).bind fun h =>
    let num := fun (o n : Nat) => natOfBytes ((h.drop o).take n)
    let nsig := num 0x24 2
    let nstage := num 0x26 2
    let at_ := fun (o n : Nat) => if n == 0 then some [] else s.readVa asid ((va + o) % 2 ^ 56) n
    (at_ (num 0x28 4) (2 * nstage)).bind fun mb =>
      (at_ (num 0x20 4) (32 * nsig)).bind fun sb =>
        let recs := (List.range nsig).map (fun i => wordsOf 4 ((sb.drop (32 * i)).take 32))
        let (offs, len) := primeOffs 0 recs
        (at_ (num 0x2C 4) len).map fun pb =>
          { features := num 0 16, tickBudget := BitVec.ofNat 32 (num 0x30 4),
            map := (List.range nstage).map (fun i => natOfBytes ((mb.drop (2 * i)).take 2)),
            sigs := (recs.zip offs).map (fun e => (e.1, (e.2.map (fun p => (pb.drop p.1).take p.2)).getD [])) }

/-- A signal record's attributes (R372); the table of an archive by its pool (R359). -/
def sigDecl (pools : Nat → Option Pool) (r : List Word) (prime : List Byte) : SigDecl :=
  let arch := bitAt (dWord r 1) 11
  let size := 8 * 2 ^ dField r 1 0 4
  let per := if arch then ((pools (dField r 1 18 6)).map (fun p => p.bytes / size)).getD 0 else 0
  let ad := if arch then dField r 1 32 24 + 1 else 0
  { kind := dField r 1 8 2, div := dField r 0 0 16, phase := dField r 0 16 16, depth := dField r 0 32 16, lag := dField r 0 48 16,
    sizek := dField r 1 0 4, tag := BitVec.ofNat 4 (dField r 1 4 4), fault := bitAt (dWord r 1) 10, arch := arch, adepth := ad,
    slots := dField r 1 24 8 + 1, pool := dField r 1 18 6, queue := dField r 1 16 2, home := dField r 2 0 21, owner := dField r 2 24 8,
    prime := prime, ext := bitAt (dWord r 3) 20, pmember := dField r 3 16 4, psig := dField r 3 8 8, pstage := dField r 3 0 8,
    btLen := ceilDiv ad per, perBlk := per }

/-- The line-store bytes of a signal in each member (R153). -/
def SigDecl.footprint (d : SigDecl) : Nat := d.ring * d.size * (if d.arch then d.slots else 1)

/-- Whether a signal record breaks R152, R153 or R372 by itself. -/
def sigRecordBad (r : List Word) (d : SigDecl) (lineBytes : Nat) : Bool :=
  dField r 1 56 8 != 0 || dField r 1 13 3 != 0 || dField r 2 32 32 != 0 || dField r 2 21 3 != 0 || dField r 3 21 43 != 0 ||
    d.div == 0 || d.phase ≥ d.div || d.depth == 0 || d.sizek > 12 || (d.sizek == 0) != (d.tag == 0) || d.tag.toNat > 12 ||
    (d.lag != 0 && (d.written || d.lag ≥ d.depth)) ||
    (d.arch && (d.kind != 0 || d.adepth ≤ d.depth)) || (!d.arch && dField r 1 24 32 != 0) ||
    d.home % (if d.sizek == 0 then 8 else 512) != 0 || d.home + d.footprint > lineBytes

/-- Whether two footprints of one stage's signals overlap (R153). -/
def footprintsOverlap : List SigDecl → Bool
  | [] => false
  | d :: ds => ds.any (fun e => d.owner == e.owner && overlap (d.home, d.footprint) (e.home, e.footprint)) || footprintsOverlap ds

/-- Whether a MIRROR names an OWN or EGRESS signal of a gang of some launch (R153). -/
def mirrorMeets (d : SigDecl) (sigs : List SigDecl) (stages members : Nat) : Bool :=
  d.pstage < stages && d.pmember < members &&
    ((sigs[d.psig]?).map (fun p => p.written && p.owner == d.pstage)).getD false

/-- The block-table entries that a launch's archived signals take: of each member's share of each slot (R359). -/
def tableNeed (members : Nat) (sigs : List SigDecl) : Nat := ((sigs.filter (fun x => x.arch && x.kind == 0)).map (fun x => members * x.slots * x.btLen)).sum

/-- Whether the tables of a launch cannot be reserved beside those of the launches accepted before it (R298, R359, log 75). -/
def State.tablesLack (s : State) (members : Nat) (sigs : List SigDecl) : Bool :=
  let need := tableNeed members sigs
  need != 0 && decide (Config.tableEntries < need + (s.disp.launches.map (fun l => tableNeed (dMembers l.desc) l.sigs)).sum)

/-- SIGNAL_INVALID (R298, R153, R359). -/
def State.signalsBad (s : State) (asid : Nat) (d : List Word) (recs : List (List Word × List Byte)) (sigs : List SigDecl) : Bool :=
  let ext := s.disp.launches.find? (fun l => l.asid == asid && l.id == dField d 5 0 32 && l.st == .started && dGang l.desc)
  (!(dGang d) && !sigs.isEmpty) || sigs.length > 256 ||
    (recs.zip sigs).any (fun e => sigRecordBad e.1.1 e.2 (16384 * dLine d)) || footprintsOverlap sigs ||
    sigs.any (fun x => x.arch && ((s.pool asid x.pool).isNone || x.perBlk == 0)) ||
    sigs.any (fun x => x.kind == 1 &&
      !(if x.ext then (ext.map (fun l => mirrorMeets x l.sigs (dStages l.desc) (dMembers l.desc))).getD false
        else mirrorMeets x sigs (dStages d) (dMembers d))) ||
    s.tablesLack (dMembers d) sigs

/-! Placement (R301, R302). -/

/-- The first cores a stage-map entry admits, in ascending order of die, cluster and core, stage 0 standing at a core or still to
come. -/
def stageCores (e members : Nat) (stage0 : Option Nat) : List Nat :=
  let all := (List.range plinthId).filter (fun n => placeOf n + members ≤ 16)
  match e / 16384, stage0 with
  | 1, none => all.filter (fun n => placeOf n == e % 16)
  | 1, some z => all.filter (fun n => clusterOf n == clusterOf z && placeOf n == e % 16)
  | 2, some z => all.filter (fun n => dieOf n == dieOf z)
  | _, _ => all

/-- The first placement that meets a stage map on the cores a test admits (R302). -/
def placeStages (free : Nat → Bool) (members : Nat) (stage0 : Option Nat) (used : List Nat) : List Nat → Option (List Nat)
  | [] => some []
  | e :: es => (stageCores e members stage0).findSome? (fun n =>
    let mine := (List.range members).map (n + ·)
    if mine.all (fun c => free c && !(used.contains c)) then
      (placeStages free members (some (stage0.getD n)) (mine ++ used) es).map (n :: ·)
    else none)

/-- A stage map's entries for a launch; entries the module lacks are zero. -/
def stageMapOf (d : List Word) (m : List Nat) : List Nat := if dGang d then (m ++ List.replicate 256 0).take (dStages d) else []

/-- Whether KIND 1 entries run past core 15 or overlap (R301). -/
def kind1Bad (members : Nat) (m : List Nat) : Bool :=
  let ks := m.filter (fun e => e / 16384 == 1)
  let rec clash : List Nat → Bool
    | [] => false
    | e :: es => es.any (fun f => overlap (e % 16, members) (f % 16, members)) || clash es
  ks.any (fun e => e % 16 + members > 16) || clash ks

/-- PLACE_IMPOSSIBLE (R301). -/
def placeImpossible (d : List Word) (m : List Nat) : Bool :=
  dGang d && (kind1Bad (dMembers d) m || (placeStages (fun _ => true) (dMembers d) none [] m).isNone)

/-! Acceptance (R298). -/

/-- DESC_INVALID: what R298 and R301 ask of a descriptor, its stage map and its frame word. -/
def descInvalid (d : List Word) (m : List Nat) (frame : Nat) : Bool :=
  let gang := dGang d
  dField d 0 60 4 != 0 || dField d 3 54 10 != 0 || dField d 3 17 3 != 0 || dField d 4 56 8 != 0 || dEntry d % 32 != 0 ||
    dPrio d > 7 || dPlace d > 2 || dVbud d == 0 || dVbud d > 4 || dLine d + dScratch d > 96 || dCell d % 16 != 0 ||
    (gang && (dPlace d != 0 || dPrio d != 0 || dStages d * dMembers d > 896)) ||
    (!gang && (dMembers d != 1 || dStages d != 1 || dLine d != 0 || (frameWord frame).isNone)) ||
    (!(dPredicted d) && (dFloor d != 0 || dSite d != 0 || dPsite d || dQuota d != 0 || dRpool d != 0)) ||
    m.any (fun e => e / 16384 == 3 || natBits e 4 10 != 0)

/-- PROFILE_UNSUPPORTED: an entry that is neither empty nor published (R66). -/
def profilesBad (d : List Word) : Bool :=
  [6, 7].any (fun i => [0, 16, 32, 48].any (fun lo => dField d i lo 16 != 0 && (profileOf (dField d i lo 16)).isNone))

/-- The dispatchers' state of a new launch, its context and queue given. -/
def newLaunch (key asid id queue : Nat) (d : List Word) (m : List Nat) (i : ImageRec) (sigs : List SigDecl) (frame : Nat) : Launch :=
  { key := key, asid := asid, id := id, queue := queue, desc := d, sigs := sigs, stageMap := m, tickBudget := i.tickBudget,
    frameSize := frame, st := .queued, waits := dPredicted d, final := if dPredicted d then none else some (dShape d),
    floor := dFloor d, pred := max (dShape d) (dFloor d), low := false, cursor := 0, rotation := 0, blocks := [], placed := [], again := [],
    toStart := [], unitsLeft := 0, status := 0, prov := [], defer_ := [], notify := none, issuer := none, host := none, graph := none,
    entries := [] }

/-- Word 0 of a cell; none where it cannot be read (R308). -/
def State.cellWord (s : State) (asid cell : Nat) : Option Word := ((s.readWords asid cell 1).bind (·.head?))

/-- A launch accepted, or the first status that refuses it (R298, R313); its key and identifier are still to be given. -/
def State.acceptLaunch (s : State) (asid queue : Nat) (desc : Option (List Word)) : Except Nat Launch :=
  match desc with
  | none => .error stDescFault
  | some d =>
    match s.readImage asid (dModule d), (if dGang d then some 128 else
        ((s.readWords asid ((dEntry d + 2 ^ 56 - 8) % 2 ^ 56) 1).bind (·.head?)).map (·.toNat)) with
    | some i, some frame =>
      let m := stageMapOf d i.map
      let sigs := i.sigs.map (fun e => sigDecl (s.pool asid) e.1 e.2)
      if descInvalid d m frame then .error stDescInvalid
      else if i.features &&& 0xFFF != i.features then .error stFeatureMissing
      else if profilesBad d then .error stProfileUnsupported
      else if s.signalsBad asid d i.sigs sigs then .error stSignalInvalid
      else if placeImpossible d m then .error stPlaceImpossible
      else if dPredicted d && dCell d != 0 && s.disp.launches.any (fun l => l.asid == asid && l.waits && dCell l.desc == dCell d) then
        .error stCellBusy
      else
        let l := newLaunch 0 asid 0 queue d m i sigs frame
        let w := if dPredicted d && dCell d != 0 then (s.cellWord asid (dCell d)).getD 0 else 0
        .ok (if bitAt w 63 then { l with waits := false, final := some (field w 0 32).toNat } else l)
    | _, _ => .error stDescFault

/-- A graph accepted (R321), or the status that refuses it. -/
def acceptGraph (key asid id queue addr : Nat) (desc : Option (List Word)) : Except Nat Graph :=
  match desc with
  | none => .error stDescFault
  | some h =>
    if dField h 0 12 4 != 0 || dField h 0 28 36 != 0 || dField h 0 0 12 == 4095 || dField h 1 56 8 != 0 ||
        (List.range 6).any (fun i => dWord h (i + 2) != 0) then .error stGraphInvalid
    else .ok { key := key, asid := asid, id := id, queue := queue, addr := addr, nodes := dField h 0 0 12, start := dField h 0 16 12,
               cell := dField h 1 0 56, st := .queued, visits := [], running := [], iters := [], arrivals := [], status := 0,
               failed := false, notify := none, issuer := none, host := none }

/-- A hardware queue. -/
def State.hwq (s : State) (n : Nat) : Option HwQueue := s.disp.hw.find? (·.n == n)

/-- An entry at the tail of a hardware queue. -/
def State.appendHw (s : State) (n : Nat) (e : HwEnt) : State :=
  { s with disp := { s.disp with hw := s.disp.hw.map (fun q => if q.n == n then { q with ents := q.ents ++ [e] } else q) } }

/-- A completion record on its way to the host (R391). -/
def State.completeHost (s : State) (h : Option (Nat × Nat × BitVec 32)) (status shape id : Nat) : State :=
  match h with
  | none => s
  | some (fn, cq, tag) => (s.arbitrate 0 fn).modFn fn (fun f => ({ f with comps := f.comps ++ [⟨cq, tag, status, shape, id⟩] } : Fn).deliver)

/-- The result of a unit's LAUNCH or GRAPH, in every member (R311, R312). -/
def State.answerSubmit (s : State) (m : Submit) (w : Word) : State :=
  (m.answer.toList ++ m.also).foldl (fun s e => s.answer e.2 w) s

/-- A submission refused: a unit reads the status (R311); the host's record completes, in its place in the queue unless the queue is not its
own or has no room (R390). -/
def State.refuseSubmit (s : State) (m : Submit) (status : Nat) : State :=
  let s := s.answerSubmit m (BitVec.ofNat 64 (status * 2 ^ 32))
  if m.host.isNone then s
  else if status == stQueueDenied || status == stQueueFull then s.completeHost m.host status 0 0
  else s.appendHw m.queue (.refused status m.host)

/-- Whether a context may submit now: a TRUSTED one only while its function is in RUN (R397). -/
def State.mayRun (s : State) (asid : Nat) : Bool :=
  match s.ctx asid with
  | none => false
  | some c => !c.trusted || ((s.fns.find? (·.n == c.fn)).map (·.tdisp == .run)).getD false

/-- The next launch identifier and key of a context taken. -/
def State.nextIds (s : State) (asid : Nat) : State × Nat × Nat :=
  let id := ((s.ctx asid).map (·.nextId)).getD 1
  let s := s.modCtx asid (fun c => { c with nextId := if c.nextId + 1 < 2 ^ 32 then c.nextId + 1 else 1 })
  ({ s with disp := { s.disp with nextKey := s.disp.nextKey + 1 } }, s.disp.nextKey, id)

/-- A submission judged (R298, R311, R321, R390). -/
def State.accept (s : State) (m : Submit) : State :=
  match s.hwq m.queue with
  | none => s.refuseSubmit m stQueueDenied
  | some q =>
    if q.owner != m.asid || !(s.mayRun m.asid) then s.refuseSubmit m stQueueDenied
    else if q.ents.length ≥ 64 then s.refuseSubmit m stQueueFull
    else if m.kind == 1 then
      match s.acceptLaunch m.asid m.queue m.desc with
      | .error st => s.refuseSubmit m st
      | .ok l =>
        let (s, key, id) := s.nextIds m.asid
        let l := { l with key := key, id := id, notify := m.notify, issuer := m.issuer, host := m.host }
        let s := ({ s with disp := { s.disp with launches := s.disp.launches ++ [l] } } : State).appendHw m.queue (.launch key)
        s.answerSubmit m (BitVec.ofNat 64 id)
    else if m.kind == 2 then
      match acceptGraph 0 m.asid 0 m.queue m.addr m.desc with
      | .error st => s.refuseSubmit m st
      | .ok g =>
        let (s, key, id) := s.nextIds m.asid
        let g := { g with key := key, id := id, notify := m.notify, issuer := m.issuer, host := m.host }
        let s := ({ s with disp := { s.disp with graphs := s.disp.graphs ++ [g] } } : State).appendHw m.queue (.graph key)
        s.answerSubmit m (BitVec.ofNat 64 id)
    else s.refuseSubmit m stDescInvalid

/-- LAUNCH_ACCEPT (R298): the oldest submission is judged; a host record's descriptor is read now (R390). -/
def execLaunchAccept (s : State) : Res :=
  match s.disp.submits with
  | [] => .next s
  | m :: ms =>
    let s := { s with disp := { s.disp with submits := ms } }
    let m := if m.host.isSome then { m with desc := s.readWords m.asid m.addr 8 } else m
    .next (s.accept m)

end Sys2Proof.Machine
end

