-- ==== Sys2Proof/Machine/Turns.lean ====
section
/-! DEFINITION. Which core issues in a cycle (R22, R118, R273, R318, R338), the bundle it issues next (R207, R348), and the weights of a cycle
(R40, R41, R427). -/

namespace Sys2Proof.Machine

/-! Who issues. -/

/-- Whether a unit's every core has it: a gang issues once all its members have started. -/
def State.whole (s : State) (u : UnitInfo) (n : Nat) : Bool :=
  (u.coreIds n).all (fun m => (s.coreOf m).unit.map (·.family) == some u.family)

/-- Whether the unit on a core stands at its end or its suspension (R122). -/
def Core.atEnd (c : Core) : Bool :=
  match c.ctl.after with
  | some (.ending _) => c.ctl.dly == 0 && c.seqr.run.isNone
  | _ => false

/-- Whether core n has bundles to issue: a unit, or plinth firmware, that is not halted (R118), not parked on a request (R338), not at its
end (R122), not of a block that commits (R318), and on no fenced die (R421). -/
def State.runs (s : State) (n : Nat) : Bool :=
  let c := s.coreOf n
  let has := match c.unit with
    | none => c.ctl.firmware
    | some u => s.whole u n && !(s.committing u)
  has && !(s.fenced.contains (dieOf n)) && !c.ctl.halted && c.ctl.parked.isNone && !c.atEnd

/-- The members of the unit in focus that issue in a cycle, higher ones first: those that have their place in the skew (R22, R273). -/
def State.inTurn (s : State) : List Nat := (s.core.team.filter (fun n => s.runs n && (s.coreOf n).ctl.lag == 0)).reverse

/-- The members that still wait for their place. -/
def State.lagging (s : State) : List Nat := s.core.team.filter (fun n => s.runs n && (s.coreOf n).ctl.lag != 0)

/-- The units with bundles to issue in a cycle, each by its lead's core, higher numbers first: every member of a gang has its turn in the
gang's (R22). -/
def State.runners (s : State) : List Nat :=
  ((((s.cores.filter (fun c => s.runs c.id)).map Core.lead).eraseDups)).foldl
    (fun l n => l.takeWhile (n < ·) ++ [n] ++ l.dropWhile (n < ·)) []

/-- The number of the bundle a core issues next, in its unit's order or its handler's. -/
def Core.nextIdx (c : Core) : Nat := if c.sys.intrap then c.ctl.handled else c.ctl.issued

/-- The bundle the lead of a gang has fetched that a member issues next (R273): none where the member stands elsewhere (log 68). -/
def State.fed (s : State) (c : Core) : Option BundleBits :=
  ((s.coreOf c.lead).ctl.stream.find? (fun e => e.trap == c.sys.intrap && e.idx == c.nextIdx && e.pc == c.ctl.pc)).map (·.bits)

/-- The bundle a core issues next: a template's, one its gang's lead has fetched, or the one at its pc (R207, R273, R348). -/
def State.nextBundle (s : State) (c : Core) : Except (BitVec 8 × Nat) BundleBits :=
  match c.template with
  | some b => .ok b
  | none => match if c.lead == c.id then none else s.fed c with
    | some b => .ok b
    | none => s.fetch c.asid c.ctl.pc.toNat

/-! Weights (R40). -/

/-- The weight of a bundle's slots: each that holds something, whatever its predicate reads. -/
def bundleWeight (b : Bundle) : Nat :=
  ((b.slots.zip [1, 2, 2, 3, 10, 10, 3]).map (fun e => if e.1 == .nop then 0 else e.2)).sum

/-- Whether the matrix unit computes an MMA or an ATTN tile. -/
def Core.computes (c : Core) : Bool :=
  match c.mx.queue with
  | [] => false
  | e :: _ => c.mx.fault.isNone && (match e.op with
    | .mma .. => true
    | .attn _ => true
    | _ => false)

/-- The matrix unit's weight in a cycle. -/
def Core.matrixWeight (c : Core) : Nat := if c.computes then 60 else 0

/-- The weights drawn in cycles lo to hi, with or without ballast. -/
def Weights.sum (p : Weights) (lo hi : Nat) (ballast : Bool) : Nat :=
  ((p.hist.filter (fun e => lo ≤ e.1 && e.1 ≤ hi)).map (fun e => if ballast then e.2.1 else e.2.1 - e.2.2)).sum

/-- What was drawn in a cycle that froze is none (R41). -/
def Weights.forget (p : Weights) (cycle : Nat) : Weights := { p with hist := p.hist.filter (·.1 != cycle) }

/-- A weight drawn in a cycle; what lies more than 128 cycles back is forgotten. -/
def Weights.draw (p : Weights) (cycle w b : Nat) : Weights :=
  { p with hist := (cycle, w, b) :: p.hist.filter (fun e => cycle < e.1 + 128) }

/-- Dies' power registers, and one's changed. -/
def State.die (s : State) (d : Nat) : DiePower := (s.power.dies[d]?).getD DiePower.reset
def State.modDie (s : State) (d : Nat) (f : DiePower → DiePower) : State :=
  { s with power := { s.power with dies := s.power.dies.mapIdx (fun i x => if i == d then f x else x) } }

/-- A core's effective limit (R428); the plinth's core is on no compute die. -/
def State.effLimit (s : State) (c : Core) : Nat := min c.sys.limit (s.die (dieOf c.id)).caplim

/-- Whether core n's cycle would freeze: issuing its next bundle would take the sum of 64 cycles above the limit (R41). What its matrix unit
draws has been drawn when the cycle began. -/
def State.wouldFreeze (s : State) (n : Nat) : Bool :=
  let c := s.coreOf n
  s.runs n && c.ctl.lag == 0 &&
    match s.nextBundle c with
    | .error _ => false
    | .ok b => decide (c.pw.sum (s.cycle - 63) s.cycle true + bundleWeight (decodeBundle b) > s.effLimit c)

/-- Whether core n runs a ballast cycle (R427, R428). -/
def State.ballastDue (s : State) (n : Nat) : Bool :=
  let c := s.coreOf n
  let before := if s.cycle < 64 then 0 else c.pw.sum (s.cycle - 127) (s.cycle - 64) false
  let quiet := (s.die (dieOf n)).suppressed
  !c.computes && !quiet && decide (before > c.pw.sum (s.cycle - 63) s.cycle false + c.sys.slope)

end Sys2Proof.Machine
end

