-- ==== Sys2Proof/Machine/Checks.lean ====
section
/-! DEFINITION. What a bundle is checked for at issue whatever its predicates read (R11, R24, R25, R86, R119, R127, R257), the stall of R19, and
the registers a region-closing instruction names. -/

namespace Sys2Proof.Machine

/-- The tap port of a source field. -/
def srcTap : Src → List (BitVec 3)
  | .reg _ => []
  | .tap q => [q]

/-- The tap ports an instruction's source fields name (R71, R127). -/
def tapsNamed : Instr → List (BitVec 3)
  | .vadd o => srcTap o.a ++ srcTap o.b
  | .vsub o => srcTap o.a ++ srcTap o.b
  | .vmul o => srcTap o.a ++ srcTap o.b
  | .vfma o => srcTap o.a ++ srcTap o.b
  | .vfms o => srcTap o.a ++ srcTap o.b
  | .vfnma o => srcTap o.a ++ srcTap o.b
  | .vdiv o => srcTap o.a ++ srcTap o.b
  | .vscl o => srcTap o.a ++ srcTap o.b
  | .vmin o => srcTap o.a ++ srcTap o.b
  | .vmax o => srcTap o.a ++ srcTap o.b
  | .viadd o => srcTap o.a ++ srcTap o.b
  | .visub o => srcTap o.a ++ srcTap o.b
  | .vimul o => srcTap o.a ++ srcTap o.b
  | .vimad o => srcTap o.a ++ srcTap o.b
  | .vshl o => srcTap o.a ++ srcTap o.b
  | .vimin o => srcTap o.a ++ srcTap o.b
  | .vimax o => srcTap o.a ++ srcTap o.b
  | .vshr o => srcTap o.a ++ srcTap o.b
  | .vsar o => srcTap o.a ++ srcTap o.b
  | .vand o => srcTap o.a ++ srcTap o.b
  | .vor o => srcTap o.a ++ srcTap o.b
  | .vxor o => srcTap o.a ++ srcTap o.b
  | .vandn o => srcTap o.a ++ srcTap o.b
  | .vperml o => srcTap o.a ++ srcTap o.b
  | .vpermlTwo o => srcTap o.a ++ srcTap o.b
  | .vdot4 o => srcTap o.a ++ srcTap o.b
  | .vselk o => srcTap o.a ++ srcTap o.b
  | .vpermb o => srcTap o.a ++ srcTap o.b
  | .vcmp o => srcTap o.a ++ srcTap o.b
  | .vabs o => srcTap o.a
  | .vneg o => srcTap o.a
  | .vrcp o => srcTap o.a
  | .vrsq o => srcTap o.a
  | .vexp2 o => srcTap o.a
  | .vlog2 o => srcTap o.a
  | .vtanh o => srcTap o.a
  | .vsqrt o => srcTap o.a
  | .viabs o => srcTap o.a
  | .vcvt o => srcTap o.a
  | .vredFsum o => srcTap o.a
  | .vredFmax o => srcTap o.a
  | .vredFmin o => srcTap o.a
  | .vredImax o => srcTap o.a
  | .vredImin o => srcTap o.a
  | .vredImaxz o => srcTap o.a
  | .vredIminz o => srcTap o.a
  | .vredIsum o => srcTap o.a
  | .vmov o => srcTap o.a
  | .vtag o => srcTap o.a
  | .kmovV2k o => srcTap o.a
  | .mscl o => srcTap o.a
  | _ => []

/-- A multiply-class vector instruction (R19). -/
def mulClass : Instr → Bool
  | .vmul _ | .vfma _ | .vfms _ | .vfnma _ | .vdiv _ | .vsqrt _ | .vrcp _ | .vrsq _ | .vexp2 _ | .vlog2 _ | .vtanh _ => true
  | _ => false

/-- The registers a region-closing instruction names. -/
def closerRegs : Instr → List PDest
  | .fork o => [.x o.a, .x o.b]
  | .waitc o => [.x o.a]
  | .qnotify o => [.x o.a]
  | .fpostr o => [.x o.a, .x o.b]
  | .launch o | .graph o | .btset o | .pcommit o => [.x o.a, .x o.b, .x o.d]
  | .shapeFinal o | .shapeFloor o => [.x o.a, .x o.b]
  | .qalloc o | .btapp o => [.x o.a, .x o.d]
  | .qfree o | .pdecommit o => [.x o.a, .x o.d]
  | _ => []

/-- An instruction its kind of unit does not have, whatever its predicate (R119, R257). -/
def Core.wrongUnit (c : Core) : Instr → Bool
  | .fork _ | .sync _ | .retf _ | .yield _ | .waitc _ => c.isGang
  | .phwait _ => c.isTask
  | _ => false

/-- A tap port whose samples do not have 512 bytes (R127). -/
def Core.portOff (c : Core) (q : BitVec 3) : Bool :=
  match (c.q q).bind (fun t => c.decl t.sig) with
  | some d => d.size != 512
  | none => false

/-- A register beyond the budget, a misaligned group, a port of another sample size (R11, R127). -/
def Core.wrongOperand (c : Core) (i : Instr) : Bool :=
  (c.vNamed i).any (fun r => r / 16 ≥ c.sys.budget) || (tapsNamed i).any c.portOff ||
    match i with
    | .taprd o => !o.x && (match c.portGroup o.q o.d with
      | r :: rest => r % (rest.length + 1) != 0
      | [] => false)
    | .tapwr o => !o.x && (match c.portGroup o.q o.a with
      | r :: rest => r % (rest.length + 1) != 0
      | [] => false)
    | _ => false

/-- A register of a cluster that is not awake (R17). -/
def Core.asleep (c : Core) (i : Instr) : Bool := (c.vNamed i).any (fun r => !(c.sys.awake.getLsbD (r / 16)))

/-- The lowest slot of a bundle whose instruction meets a condition. -/
def bundleLowest (b : Sys2Proof.Bundle) (p : Instr → Bool) : Option Nat := (b.instrs.find? (fun e => p e.2)).map (·.1)

/-- The lower of two slots. -/
def lowerSlot (a b : Option Nat) : Option Nat :=
  match a, b with
  | some a, some b => some (min a b)
  | some a, none => some a
  | none, b => b

/-- SQLD and SQGO, which no delay bundle may hold (R206, R207). -/
def loadsSeq : Instr → Bool
  | .sqld _ | .sqgo _ => true
  | _ => false

/-- The static fault of a bundle at issue, none where it has none (R86). -/
def Core.static (c : Core) (b : Sys2Proof.Bundle) : Option FaultRec :=
  let delayed := c.ctl.dly > 0 && c.template.isNone
  if b.illegal || (delayed && (b.rm || (bundleLowest b loadsSeq).isSome)) then some (precise illegalBundle 7)
  else match b.badSlot .illegalSlot with
    | some k => some (precise illegalSlot k)
    | none => match lowerSlot (b.badSlot .illegalOp) (bundleLowest b c.wrongUnit) with
      | some k => some (precise illegalOp k)
      | none => match lowerSlot (b.badSlot .illegalOperand) (bundleLowest b c.wrongOperand) with
        | some k => some (precise illegalOperand k)
        | none => match bundleLowest b c.asleep with
          | some k => some (precise regAsleep k)
          | none => (if delayed then bundleLowest b Instr.branchClass else none).map (precise delaySlotBranch)

/-- Whether both vector slots hold a multiply-class instruction (R19). -/
def bothMultiply (b : Sys2Proof.Bundle) : Bool := b.v0.holds mulClass && b.v1.holds mulClass

/-- Whether a bundle holds a branch-class instruction, whatever its predicate (R23). -/
def holdsBranch (b : Sys2Proof.Bundle) : Bool := b.s0.holds Instr.branchClass || b.s1.holds Instr.branchClass

end Sys2Proof.Machine
end

