-- ==== Sys2Proof/Machine/Graphs.lean ====
section
/-! DEFINITION. The walk of a graph (R320, R322). -/

namespace Sys2Proof.Machine

/-- A graph by its key, and one changed. -/
def State.graphOf (s : State) (key : Nat) : Option Graph := s.disp.graphs.find? (·.key == key)
def State.modGraph (s : State) (key : Nat) (f : Graph → Graph) : State :=
  { s with disp := { s.disp with graphs := s.disp.graphs.map (fun g => if g.key == key then f g else g) } }

/-- Index none (R320). -/
def noNode : Nat := 0xFFF

/-- Fields of a node (R320). -/
def nKind (w : List Word) : Nat := dField w 0 0 4
def nNext (w : List Word) : Nat := dField w 0 16 12
def nAlt (w : List Word) : Nat := dField w 0 28 12
def nJcount (w : List Word) : Nat := dField w 0 40 12
def nAddr (w : List Word) : Nat := dField w 1 0 56
def nMax (w : List Word) : Nat := dField w 2 0 32

/-- Whether a node breaks R320. -/
def nodeBad (w : List Word) : Bool :=
  let k := nKind w
  dField w 0 52 12 != 0 || dField w 0 4 12 != 0 || k > 3 || dField w 1 56 8 != 0 || dField w 2 32 32 != 0 ||
    (List.range 5).any (fun i => dWord w (i + 3) != 0) || (k == 3) != (nJcount w != 0) ||
    (k == 3 && (nAlt w != noNode || nAddr w != 0)) || (k == 0 && nAddr w % 64 != 0) || ((k == 1 || k == 2) && nAddr w % 8 != 0) ||
    (k != 2 && nMax w != 0)

/-- fail(s) of R322. -/
def Graph.fail (g : Graph) (status : Nat) : Graph :=
  { g with status := if g.failed then g.status else status, failed := true, visits := [] }

/-- A node to visit next on a path; index none ends the path. -/
def Graph.go (g : Graph) (n : Nat) : Graph := if g.failed || n == noNode then g else { g with visits := n :: g.visits }

/-- Paths that are active (R322). -/
def Graph.paths (g : Graph) : Nat := g.visits.length + g.running.length

/-- A kernel's launch ahead of its queue's later entries, behind the kernels already there (R322). -/
def State.insertKernel (s : State) (n : Nat) (key : Nat) : State :=
  let isKernel := fun (e : HwEnt) => match e with
    | .launch k => ((s.launch k).map (·.graph.isSome)).getD false
    | _ => false
  { s with disp := { s.disp with hw := s.disp.hw.map (fun q =>
      if q.n == n then { q with ents := q.ents.takeWhile isKernel ++ [.launch key] ++ q.ents.dropWhile isKernel } else q) } }

/-- A KERNEL node visited (R322). -/
def State.visitKernel (s : State) (g : Graph) (w : List Word) : State :=
  match s.acceptLaunch g.asid g.queue (s.readWords g.asid (nAddr w) 8) with
  | .error st => s.modGraph g.key (·.fail st)
  | .ok l =>
    let (s, key, id) := s.nextIds g.asid
    let l := { l with key := key, id := id, graph := some (g.key, nNext w) }
    let s := { s with disp := { s.disp with launches := s.disp.launches ++ [l] } }
    (s.insertKernel g.queue key).modGraph g.key (fun g => ({ g with running := g.running ++ [key] } : Graph).go (nAlt w))

/-- A predicate cell's value (R322). -/
def State.predicate (s : State) (asid a : Nat) : Option Word := (s.readWords asid a 1).bind (·.head?)

/-- A node's effect (R322), the node read and sound. -/
def State.visitNode (s : State) (g : Graph) (n : Nat) (w : List Word) : State :=
  match nKind w with
  | 0 => s.visitKernel g w
  | 1 => match s.predicate g.asid (nAddr w) with
    | none => s.modGraph g.key (·.fail stDescFault)
    | some v => s.modGraph g.key (·.go (if v != 0 then nNext w else nAlt w))
  | 2 => match s.predicate g.asid (nAddr w) with
    | none => s.modGraph g.key (·.fail stDescFault)
    | some v =>
      let it := (lookup g.iters n).getD 0
      if v != 0 && (nMax w == 0 || it < nMax w) then
        s.modGraph g.key (fun g => ({ g with iters := assocSet g.iters n (it + 1) } : Graph).go (nNext w))
      else s.modGraph g.key (fun g => ({ g with iters := assocSet g.iters n 0 } : Graph).go (nAlt w))
  | _ =>
    let arr := (lookup g.arrivals n).getD 0 + 1
    if arr == nJcount w then s.modGraph g.key (fun g => ({ g with arrivals := assocSet g.arrivals n 0 } : Graph).go (nNext w))
    else s.modGraph g.key (fun g => { g with arrivals := assocSet g.arrivals n arr })

/-- The node at an index (R320). -/
def State.node (s : State) (g : Graph) (n : Nat) : Option (List Word) := s.readWords g.asid ((g.addr + 64 * (n + 1)) % 2 ^ 56) 8

/-- Whether a visit would make a 65th path (R322). -/
def State.visitWaits (s : State) (g : Graph) (n : Nat) : Bool :=
  g.paths ≥ 64 && n ≤ g.nodes && ((s.node g n).map (fun w => !(nodeBad w) && nKind w == 0 && nAlt w != noNode)).getD false

/-- The first visit of a graph that need not wait, made (R322). -/
def State.visitGraph (s : State) (g : Graph) : State :=
  match g.visits.find? (fun n => !(s.visitWaits g n)) with
  | none => s
  | some n =>
    let g := { g with visits := g.visits.erase n }
    let s := s.modGraph g.key (fun _ => g)
    if n > g.nodes then s.modGraph g.key (·.fail stGraphInvalid)
    else match s.node g n with
      | none => s.modGraph g.key (·.fail stDescFault)
      | some w => if nodeBad w then s.modGraph g.key (·.fail stGraphInvalid) else s.visitNode g n w

/-- A graph started (R303): its first node is visited. -/
def State.startGraph (s : State) (g : Graph) : State :=
  let g := ({ g with st := .started } : Graph).go g.start
  (s.modGraph g.key (fun _ => g)).visitGraph g

/-- A kernel's completion counted in its graph (R309, R322). -/
def State.countKernel (s : State) (l : Launch) : State :=
  match l.graph with
  | none => s
  | some (g, next) => s.modGraph g (fun g =>
      let g := { g with running := g.running.filter (· != l.key) }
      if l.status != 0 then g.fail l.status else g.go next)

/-- GRAPH_VISIT (R322): the next visit of graph g. -/
def execGraphVisit (g : Nat) (s : State) : Res :=
  match s.graphOf g with
  | none => .next s
  | some g => if g.st == .started then .next (s.visitGraph g) else .next s

end Sys2Proof.Machine
end

