-- ==== Sys2Proof/Machine/Dispatchers.lean ====
section
/-! DEFINITION. The dispatchers (R299 to R309, R313, R323): starting launches, dealing blocks, starting gang members, completion. -/

namespace Sys2Proof.Machine

/-! Grids (R306). -/

/-- Whether work may be put on a cluster: in RUN, its die not fenced (R306, R421, R438). -/
def State.clusterOpen (s : State) (k : Nat) : Bool :=
  let c := s.cluster k
  c.state == 0 && c.target.isNone && !(s.fenced.contains (k / 7))

/-- The next place of a rotation: the first at or after a mark, else the first. -/
def nextOf (l : List Nat) (mark : Nat) : Option Nat :=
  match l.find? (· ≥ mark) with
  | some n => some n
  | none => l.head?

/-- Where a launch's next block goes, with the rotation's next mark (R306). -/
def State.dealPlace (s : State) (l : Launch) : Option (Domain × Nat) :=
  let ks := (List.range 56).filter s.clusterOpen
  match dPlace l.desc with
  | 0 => (nextOf ks l.rotation).map (fun k => (.cluster k, k + 1))
  | 1 => (nextOf ((ks.map (· / 7)).eraseDups) l.rotation).map (fun d => (.die d, d + 1))
  | _ => some (.package, 0)

/-- Whether a queued record is an unstarted block of a launch (R306). -/
def Launch.unstarted (l : Launch) (r : Ready) : Bool :=
  match r with
  | .record r => r.asid == l.asid && r.launch == l.id && (r.block.map (fun b => l.block b == some .waiting)).getD false
  | .image _ => false

/-- Unstarted records of a launch in one ready queue. -/
def State.unstartedIn (s : State) (l : Launch) (d : Domain) : Nat :=
  ((s.disp.ready.filter (fun q => q.dom == d && q.asid == l.asid)).flatMap (fun q => q.levels.flatMap (·.filter l.unstarted))).length

/-- One past the last block that may be dealt now (R306, R317). -/
def Launch.limit (l : Launch) : Nat := if l.waits then max l.pred l.floor else l.final.getD 0

/-- The next block dealt (R300, R306); none while it must wait. -/
def State.deal (s : State) (l : Launch) : Option State :=
  if l.cursor ≥ l.limit then none
  else match s.dealPlace l, s.ctx l.asid with
    | some (d, mark), some c =>
      if s.unstartedIn l d ≥ 256 then none
      else
        let carry := [BitVec.ofNat 64 l.cursor, dWord l.desc 5, 0, 0, 0, 0]
        (s.rootTask c (dEntry l.desc) l.frameSize (dPrio l.desc) (dPlace l.desc) l.id (dReissue l.desc) false carry
            (some l.cursor) none).map (fun (t, r) =>
          (t.modLaunch l.key (fun l => { l with cursor := l.cursor + 1, rotation := mark, unitsLeft := l.unitsLeft + 1,
                                                blocks := l.blocks ++ [(l.cursor, .waiting)] })).enqueue r d)
    | _, _ => none

/-- The first block of a launch that a fence has stopped started again, in its state, with a fresh frame, once its commit is complete (R423);
where no cluster is in RUN, its record waits on a die that stands. -/
def State.dealAgain (s : State) (l : Launch) : Option State :=
  match l.again, s.ctx l.asid with
  | b :: bs, some c =>
    let st := l.block b
    let carry := [BitVec.ofNat 64 b, dWord l.desc 5, 0, 0, 0, 0]
    let stands := ((List.range 56).find? (fun k => !(s.fenced.contains (k / 7)))).map (fun k =>
      ((match dPlace l.desc with
        | 0 => Domain.cluster k
        | 1 => .die (k / 7)
        | _ => .package), l.rotation))
    if st == some BlockSt.commit then none
    else match (s.dealPlace l).or stands,
        s.rootTask c (dEntry l.desc) l.frameSize (dPrio l.desc) (dPlace l.desc) l.id true (st == some BlockSt.runP) carry (some b) none with
      | some (d, mark), some (t, r) =>
        some ((t.modLaunch l.key (fun l => { l with again := bs, rotation := mark, unitsLeft := l.unitsLeft + 1 })).enqueue r d)
      | _, _ => none
  | _, _ => none

/-- BLOCK_DEAL (R306): launch l; a block to be started again comes first (R423). -/
def execBlockDeal (l : Nat) (s : State) : Res :=
  match s.launch l with
  | none => .next s
  | some l =>
    if l.st == .started && !(dGang l.desc) then
      .next (match s.dealAgain l with
        | some t => t
        | none => (s.deal l).getD s)
    else .next s

/-! Starts (R303, R304, R313). -/

/-- The largest observation of a launch's site by its own context (R313, R314). -/
def State.siteOf (s : State) (l : Launch) : Option Nat :=
  if !(dPsite l.desc) then none
  else (lookup s.disp.sites (dSite l.desc)).bind (fun e => if e.asid == l.asid then e.obs.max? else none)

/-- A launch as its start leaves it: P is taken (R313). -/
def State.started (s : State) (l : Launch) : Launch :=
  { l with st := .started, pred := if l.waits then max ((s.siteOf l).getD (dShape l.desc)) l.floor else l.pred }

/-- Whether a pre-empted gang of a launch of at least a priority left a core: it resumes there ahead of new launches (R323). -/
def State.awaited (s : State) (p n : Nat) : Bool :=
  s.disp.images.any (fun i => i.gang && i.core.id == n && (((i.core.unit.bind s.launchOf).map (fun l => decide (p ≤ s.prioOf l))).getD false))

/-- Whether a launch may place a gang on a core: free, and not reserved for another (R302, R304), nor awaited by a pre-empted gang (R323), nor
with a remote store on its way to it (R224). -/
def State.placeFree (s : State) (l : Launch) (n : Nat) : Bool :=
  s.coreFree n && (!(s.disp.reserved.contains n) || s.disp.reserving == some l.key) && !(s.awaited (s.prioOf l) n) && s.bedClear n l.asid l.id

/-- The queue priority of the unit on a core; none without one (R304). -/
def State.unitPrio (s : State) (n : Nat) : Option Nat := ((s.coreOf n).unit.bind s.launchOf).map s.prioOf

/-- Whether a reservation may cover a core: free, or running a unit from a queue of lower priority (R304), and not awaited (R323). -/
def State.reservable (s : State) (p n : Nat) : Bool :=
  !(s.awaited p n) && (s.coreFree n || (s.clusterOpen (clusterOf n) && ((s.unitPrio n).map (fun q => decide (q < p))).getD false))

/-- Whether a pre-empted gang of a queue of at least this priority could resume (R323). -/
def State.resumeFirst (s : State) (p : Nat) : Bool :=
  s.disp.launches.any (fun l =>
    let is := s.imagesOf l.asid l.id
    !is.isEmpty && s.prioOf l ≥ p && s.canResume is)

/-- A GRID head started: its first block is dealt (R303); with no block to deal it starts at once (R309). -/
def State.startGrid (s : State) (l : Launch) : Option State :=
  if s.resumeFirst (s.prioOf l) then none
  else
    let l := s.started l
    let t := s.modLaunch l.key (fun _ => l)
    if l.limit == 0 then some t else t.deal l

/-- A GANG head placed (R302, R303). -/
def State.startGang (s : State) (l : Launch) : Option State :=
  if s.resumeFirst (s.prioOf l) then none
  else (placeStages (s.placeFree l) (dMembers l.desc) none [] l.stageMap).map (fun firsts =>
    let l := s.started l
    let all := (List.range (dStages l.desc)).flatMap (fun k => (List.range (dMembers l.desc)).map (fun m => (k, m)))
    let s := if s.disp.reserving == some l.key then { s with disp := { s.disp with reserving := none, reserved := [] } } else s
    s.modLaunch l.key (fun _ => { l with placed := firsts, toStart := all, unitsLeft := dStages l.desc }))

/-- A GANG head that cannot be placed becomes the reserving head, unless one of its priority or higher is (R304). -/
def State.reserve (s : State) (l : Launch) : State :=
  let p := s.prioOf l
  let other := (s.disp.reserving.bind s.launch).map (fun r => r.key != l.key && s.prioOf r ≥ p)
  if other.getD false then s
  else match placeStages (s.reservable p) (dMembers l.desc) none [] l.stageMap with
    | none => s
    | some firsts =>
      let cores := firsts.flatMap (fun f => (List.range (dMembers l.desc)).map (f + ·))
      { s with disp := { s.disp with reserving := some l.key, reserved := cores } }

/-- A queue without its head. -/
def State.popHw (s : State) (n : Nat) : State :=
  { s with disp := { s.disp with hw := s.disp.hw.map (fun q => if q.n == n then { q with ents := q.ents.drop 1 } else q) } }

/-- The head of a queue started; where it cannot start, the state with what it reserves. -/
def State.startHead (s : State) (q : HwQueue) : State × Bool :=
  match q.ents.head? with
  | some (.launch k) => match s.launch k with
    | none => (s.popHw q.n, true)
    | some l =>
      if dGang l.desc then
        match s.startGang l with
        | some t => (t.popHw q.n, true)
        | none => (s.reserve l, false)
      else match s.startGrid l with
        | some t => (t.popHw q.n, true)
        | none => (s, false)
  | some (.graph k) => match s.graphOf k with
    | none => (s.popHw q.n, true)
    | some g => ((s.popHw q.n).startGraph g, true)
  | some (.refused st h) => ((s.completeHost h st 0 0).popHw q.n, true)
  | none => (s, false)

/-- The queue picked among those not yet tried (R304: R272 applied to queues), whether it was aged, and whether a lower level holds
anything. -/
def State.pickQueue (s : State) (tried : List Nat) : Option (HwQueue × Bool × Bool) :=
  let qs := s.disp.hw.filter (fun q => !q.ents.isEmpty && !(tried.contains q.n))
  match (qs.map (·.prio)).max? with
  | none => none
  | some top =>
    let low := ((qs.map (·.prio)).filter (· < top)).max?
    let (lv, aged) := match low with
      | some l => if s.disp.hwAge == 256 then (l, true) else (top, false)
      | none => (top, false)
    let at_ := qs.filter (·.prio == lv)
    let dist := fun (q : HwQueue) => if q.n > s.disp.hwLast then q.n else q.n + 1024
    let best := at_.foldl (fun b q => match b with
      | none => some q
      | some c => if dist q < dist c then some q else some c) none
    best.map (fun q => (q, aged, qs.any (fun x => x.prio < lv)))

/-- Queues tried in the order of R304 until a head starts. -/
def State.serveQueues (s : State) : Nat → List Nat → State
  | 0, _ => s
  | n + 1, tried =>
    match s.pickQueue tried with
    | none => s
    | some (q, aged, below) =>
      match s.startHead q with
      | (t, true) =>
        let age := if aged || !below then 0 else min 256 (t.disp.hwAge + 1)
        { t with disp := { t.disp with hwLast := q.n, hwAge := age } }
      | (t, false) => t.serveQueues n (q.n :: tried)

/-- Refused records at the heads of their queues complete and leave (R303, R390). -/
def State.clearRefused (s : State) : State :=
  s.disp.hw.foldl (fun s q => (List.range q.ents.length).foldl (fun s _ =>
    match (s.hwq q.n).bind (·.ents.head?) with
    | some (.refused st h) => (s.completeHost h st 0 0).popHw q.n
    | _ => s) s) s

/-- The gang launches that the reserving head pre-empts: two priorities below or lower (R305). -/
def State.preemptReserved (s : State) : State :=
  match s.disp.reserving.bind s.launch with
  | none => s
  | some r => s.disp.launches.foldl (fun s l =>
      if dGang l.desc && s.prioOf l + 2 ≤ s.prioOf r && (s.gangCores l).any s.disp.reserved.contains then s.preemptLaunch l else s) s

/-- LAUNCH_START (R304): the next hardware queue served. -/
def execLaunchStart (s : State) : Res :=
  let s := s.clearRefused.preemptReserved
  .next (s.serveQueues s.disp.hw.length []).clearRefused.preemptReserved

/-! Gang members (R299, R300). -/

/-- The signals a stage's gang declares, as they stand at launch (R152, R154, R171). -/
def startSignals (l : Launch) (stage : Nat) : SigUnit :=
  let decls := l.sigs.map (fun d => if d.owner == stage then some d else none)
  let st := decls.map (fun d => match d with
    | none => (⟨[], -1, 0⟩ : SigState)
    | some d => ⟨List.replicate d.slots ⟨d.startIdx, 0, true, 0, List.replicate d.btLen 0⟩, -1, 0⟩)
  let counts := st.map (fun g => g.slots.map (·.n))
  ⟨decls, st, [], [], [], if l.waits then [(0, counts)] else []⟩

/-- A member of a stream squashed at tick n (R176): TICK and the sample counts as at that tick's opening, what the squashed ticks left
undone discarded; it ends with tick n open. -/
def Core.cutStream (n : Nat) (c : Core) : Core :=
  let at_ := if c.sys.tick.toNat == n then none else c.sig.opened.find? (·.1 == n)
  let st := match at_ with
    | none => c.sig.st.map (fun g => { g with slots := g.slots.map (fun t => { t with written := 0 }) })
    | some e => (c.sig.st.zip e.2).map (fun (g, ns) => { g with slots := (g.slots.zip ns).map (fun (t, k) => { t with n := k, written := 0 }) })
  { c with
    sys := { c.sys with tick := BitVec.ofNat 64 n, tickCycles := 0 },
    sig := { c.sig with st := st, changes := [] },
    pipe := { c.pipe with flights := [], reqs := [], trapBuf := [] },
    mx := { c.mx with queue := [], fault := none, held := false }, seqr := { c.seqr with run := none },
    rg := { c.rg with gate := [], undo := [], undoCount := 0 },
    eng := c.eng.map (fun q => { q with ents := q.ents.filter (fun e => (e.prov.map (fun t => decide (t < n))).getD true) }),
    ctl := { c.ctl with after := some (.ending .stream), dly := 0, held := none, parked := none, begun := none, done_ := [] } }

/-- UNIT_START (R300): member m of a placed stage, on the core it was placed on. A stream whose true count is 0 is squashed in tick 0 (R176,
R319). -/
def execUnitStart (l stage m c : Nat) (s : State) : Res :=
  match s.launch l with
  | none => .next s
  | some l =>
    let first := l.placed.getD stage 0
    match s.ctx l.asid with
    | none => .next s
    | some x =>
      if !(l.toStart.contains (stage, m)) || first + m != c then .next s
      else
        let u : UnitInfo := ⟨true, l.asid, l.id, stage, m, dMembers l.desc, first, 0, 0, 0, false, false, none, none⟩
        let s := s.modLaunch l.key (fun l => { l with toStart := l.toStart.filter (· != (stage, m)) })
        let cut := dPredicted l.desc && l.final == some 0
        .next ((s.modCore c (fun c =>
          let c := c.start u x l.desc (BitVec.ofNat 64 (dEntry l.desc))
          let c := { c with r := c.r.setX 8 ⟨dWord l.desc 5, false⟩, sig := startSignals l stage, ctl := { c.ctl with lag := m },
                            sys := { c.sys with stage := BitVec.ofNat 8 stage, tickBudget := l.tickBudget } }
          if cut then c.cutStream 0 else c)).dropBedTags c)

/-! Completion (R309). -/

/-- Whether a launch has completed. -/
def Launch.done (l : Launch) : Bool :=
  l.st == .started && !l.waits && l.toStart.isEmpty && l.unitsLeft == 0 &&
    (dGang l.desc || (l.cursor ≥ l.limit && l.blocks.all (fun e => e.2 == .done || e.2 == .dropped || e.2 == .squashed)))

/-- The unit on a core that a post of a context's agent reaches: a gang of the context, running or pre-empted, or the agent's own task
(R242, R311). -/
def State.postTarget (s : State) (core asid : Nat) (fam : Family) : Option UnitInfo :=
  let units := (s.coreOf core).unit.toList ++ (s.disp.images.filter (fun i => i.gang && i.core.id == core)).filterMap (·.core.unit)
  units.find? (fun u => u.asid == asid && (u.gang || u.family == fam))

/-- The notice of a LAUNCH or GRAPH (R311). -/
def State.noticeLaunch (s : State) (asid : Nat) (d : Option Word) (issuer : Option (Nat × Family)) : State :=
  match d, issuer with
  | some d, some (here, fam) =>
    let core := desigCore d here
    match s.postTarget core asid fam with
    | some u => s.sendPost core (desigFlag d) 1 u.family
    | none => s
  | _, _ => s

/-- The three steps of R309 for a launch. -/
def State.completeLaunch (s : State) (l : Launch) : State :=
  let shape := l.final.getD 0
  let w := BitVec.ofNat 64 (shape * 2 ^ 32 + (if l.low then 512 else 0) + 256 + l.status)
  let s := if dCell l.desc == 0 then s else s.writeCell l.asid (dCell l.desc + 8) w
  let s := (s.noticeLaunch l.asid l.notify l.issuer).completeHost l.host l.status shape l.id
  let s := s.countKernel l
  { s with disp := { s.disp with launches := s.disp.launches.filter (·.key != l.key) } }

/-- The same for a graph: its identifier and shape read zero in the host's record (R322, R391). -/
def State.completeGraph (s : State) (g : Graph) : State :=
  let s := if g.cell == 0 then s else s.writeCell g.asid (g.cell + 8) (BitVec.ofNat 64 (256 + g.status))
  let s := (s.noticeLaunch g.asid g.notify g.issuer).completeHost g.host g.status 0 0
  { s with disp := { s.disp with graphs := s.disp.graphs.filter (·.key != g.key) } }

/-- LAUNCH_COMPLETE (R309): launch or graph l. -/
def execLaunchComplete (l : Nat) (s : State) : Res :=
  match s.launch l, s.graphOf l with
  | some l, _ => if l.done then .next (s.completeLaunch l) else .next s
  | none, some g => if g.st == .started && g.visits.isEmpty && g.running.isEmpty then .next (s.completeGraph g) else .next s
  | none, none => .next s

end Sys2Proof.Machine
end

