-- ==== Sys2Proof/Machine/Shapes.lean ====
section
/-! DEFINITION. Shape posts, floors and finals, the commit of provisional work and its squash (R176, R294, R314 to R319, R324). -/

namespace Sys2Proof.Machine

/-! Commit (R294, R318). -/

/-- A bed changed by a buffered write: of the unit of its launch that runs on the core, or has left it with its state saved (R324). -/
def State.commitBed (s : State) (asid launch core : Nat) (f : CoreMem → CoreMem) : State :=
  let mine := fun (c : Core) => c.asid == asid && (c.unit.map (·.launch == launch)).getD false
  if mine (s.coreOf core) then s.modCore core (fun c => { c with mem := f c.mem })
  else { s with disp := { s.disp with images := s.disp.images.map (fun i =>
      if i.core.id == core && mine i.core then { i with core := { i.core with mem := f i.core.mem } } else i) } }

/-- How a buffered write accesses its lines. -/
def ProvWrite.kind : ProvWrite → AccKind
  | .bytes .. => .write
  | .remote .. => .write
  | .accw .. => .acc
  | .accwBed .. => .acc

/-- Whether a buffered write must wait for a tile entry (R189). -/
def State.tileInWay (s : State) (w : ProvWrite) : Bool :=
  match w with
  | .remote g _ off bs => (s.coreOf g).tileHolds off bs.length true
  | .accwBed g _ off _ w64 _ => (s.coreOf g).tileHolds off (accBits w64 / 8) true
  | _ => false

/-- A buffered write reaching storage. -/
def State.performProv (s : State) (asid : Nat) (w : ProvWrite) : State :=
  match w with
  | .bytes va pa b => s.storeAt asid va pa b
  | .remote g l off b => s.commitBed asid l g (·.writeBed off b)
  | .accw va pa op w64 a =>
    let s := s.seal (s.keyAt asid va) pa (accBits w64 / 8)
    { s with mem := accMem s.mem pa op w64 a 0 }
  | .accwBed g l off op w64 a => s.commitBed asid l g (fun m => { m with bed := accMem m.bed off op w64 a 0 })

/-- A buffered write performed, its write tag taken now in a region that closes with it, or in its command's (R294). It waits for a tile entry,
and where it would conflict or a tag has no room: the unit that wrote has gone past its mark, and no rule gives the fault a taker (log 74). -/
def State.commitWrite (s : State) (e : ProvEnt) : Option State :=
  if s.tileInWay e.write then none
  else
    let (t, id) := s.regionAgain e.by_ e.unit e.region
    match t.tagAccess id e.write.lines e.write.kind with
    | .ok t => some ((t.performProv e.by_.fam.asid e.write).closeRegion id)
    | _ => none

/-- A deferred action taken (R294, R315). -/
def State.commitAct (s : State) (e : DeferEnt) : State :=
  let a := e.by_
  let post := fun (s : State) (core f n : Nat) (dest : Family) =>
    if n == 0 then s else if dest == a.fam then s.deliverPost core f n dest else s.sendPost core f n dest
  match e.act with
  | .post core f n dest scope => post (s.release a.fam scope) core f n dest
  | .shape final cell pa v => (s.release a.fam scopePackage).sendShape ⟨final, a.fam.asid, cell, pa, v⟩
  | .qfree addr ans =>
    let (t, w) := (s.release a.fam scopeQuarry).qfree a.fam.asid addr
    t.answer ans.2 w
  | .release scope => s.release a.fam scope
  | .finish => s.endFamily a.fam
  | .notice p rid =>
    let s := s.releaseRegion rid scopePackage
    match p with
    | some (core, f, dest) => post s core f 1 dest
    | none => s
  | .submit ch desc core dest => s.submitColl ⟨ch, a.fam.asid, desc, core, dest⟩

/-- The buffered writes of a block or tick performed in program order, as far as none must wait; whether none is left. -/
def State.commitWrites (s : State) (key : Nat) : List ProvEnt → State × Bool
  | [] => (s, true)
  | e :: es => match s.commitWrite e with
    | none => (s, false)
    | some t => (t.modLaunch key (fun l => { l with prov := delFirst (· == e) l.prov })).commitWrites key es

/-- A block or tick of a launch committed as far as nothing must wait: its buffered writes in program order, then its deferred actions (R318,
R319); whether all of it is done. -/
def State.commitUnit (s : State) (key b : Nat) : State × Bool :=
  match s.launch key with
  | none => (s, true)
  | some l => match s.commitWrites key (l.prov.filter (·.unit == b)) with
    | (t, false) => (t, false)
    | (t, true) =>
      let t := t.modLaunch key (fun l => { l with defer_ := l.defer_.filter (·.unit != b) })
      ((l.defer_.filter (·.unit == b)).foldl State.commitAct t, true)

/-- Ticks of a launch committed one after another (R319). -/
def State.commitTicks (s : State) (key : Nat) : List Nat → State
  | [] => s
  | b :: bs => match s.commitUnit key b with
    | (t, true) => t.commitTicks key bs
    | (t, false) => t

/-- The confirmed ticks of a stream that have something left to commit, in ascending order. -/
def Launch.dueTicks (l : Launch) : List Nat :=
  (((l.prov.map (·.unit) ++ l.defer_.map (·.unit)).eraseDups).filter (· < l.floor)).foldl
    (fun ts b => ts.takeWhile (· < b) ++ [b] ++ ts.dropWhile (· < b)) []

/-- Whether a task belongs to a block of a launch. -/
def Launch.owns (l : Launch) (b : Nat) (asid launch : Nat) (block : Option Nat) : Bool := asid == l.asid && launch == l.id && block == some b
def UnitInfo.ofBlock (u : UnitInfo) (l : Launch) (b : Nat) : Bool := !u.gang && l.owns b u.asid u.launch u.block
def Rec.ofBlock (r : Rec) (l : Launch) (b : Nat) : Bool := l.owns b r.asid r.launch r.block

/-- Every record changed: ready, parked, waiting. -/
def State.mapRecs (s : State) (f : Rec → Rec) : State :=
  let ready := fun (r : Ready) => match r with
    | .record r => Ready.record (f r)
    | .image k => .image k
  { s with disp := { s.disp with
      ready := s.disp.ready.map (fun q => { q with levels := q.levels.map (·.map ready) }),
      frames := s.disp.frames.map (fun g => { g with parked := g.parked.map f }),
      waits := s.disp.waits.map (fun w => { w with rec_ := w.rec_.map f }) } }

/-- PROV cleared in every record, and every running or saved unit, of a block (R318). -/
def State.confirmBlock (s : State) (l : Launch) (b : Nat) : State :=
  let unit := fun (u : UnitInfo) => if u.ofBlock l b then { u with prov := false } else u
  let s := (s.mapAllCores (fun c => { c with unit := c.unit.map unit })).mapRecs (fun r => if r.ofBlock l b then { r with prov := false } else r)
  (s.disp.frames.filter (fun f => (f.parked.map (·.ofBlock l b)).getD false)).foldl (fun s f => s.syncHeader f.asid f.ptr) s

/-- The retractable quarry blocks of a block of a launch. -/
def State.retractable (s : State) (l : Launch) (b : Nat) : List Nat :=
  ((s.pool l.asid (dRpool l.desc)).map (fun p => (p.blocks.filter (fun e => e.2 == .retractable l.key b)).map (·.1))).getD []

/-- They become ALLOCATED (R352). -/
def State.keepBlocks (s : State) (l : Launch) (b : Nat) : State :=
  (s.retractable l b).foldl (fun s i => s.modPool l.asid (dRpool l.desc) (·.setState i (some .allocated))) s

/-- BLOCK_COMMIT (R318, R319): block b of launch l in COMMIT goes on as RUN_C; one in END_P below the floor is DONE; of a stream, its confirmed
ticks commit. -/
def execBlockCommit (l b : Nat) (s : State) : Res :=
  match s.launch l with
  | none => .next s
  | some l =>
    let go := fun (dest : BlockSt) => match s.commitUnit l.key b with
      | (t, true) => (t.confirmBlock l b).modLaunch l.key (fun l => l.setBlock b (fun _ => dest))
      | (t, false) => t
    if dGang l.desc then .next (s.commitTicks l.key l.dueTicks)
    else match l.block b with
      | some .commit => .next (go .runC)
      | some .endP => if b < l.floor then .next (go .done) else .next s
      | _ => .next s

/-! Squash (R318, R324). -/

/-- A choice of tasks by context, launch and block. -/
abbrev TaskSel := Nat → Nat → Option Nat → Bool
def Rec.chosen (r : Rec) (p : TaskSel) : Bool := p r.asid r.launch r.block
def Core.chosen (c : Core) (p : TaskSel) : Bool := (c.unit.map (fun u => !u.gang && p u.asid u.launch u.block)).getD false

/-- The records of some tasks: ready, parked, waiting. -/
def State.recsOf (s : State) (p : TaskSel) : List Rec :=
  s.disp.ready.flatMap (fun q => q.levels.flatMap (·.filterMap (fun r => match r with
    | .record r => if r.chosen p then some r else none
    | .image _ => none))) ++
    (s.disp.frames.filterMap (·.parked) ++ s.disp.waits.filterMap (·.rec_)).filter (·.chosen p)

/-- The frames of some tasks, and the parents they name, by context and pointer. -/
def State.framesOf (s : State) (p : TaskSel) : List (Nat × Nat) :=
  let units := (s.cores ++ s.disp.images.map (·.core)).filterMap (fun c => if c.chosen p then c.unit.map (fun u => (u.asid, u.frame)) else none)
  let up := fun (fs : List (Nat × Nat)) =>
    (fs ++ fs.filterMap (fun e => (s.frame e.1 e.2).map (fun f => (e.1, f.parent)))).eraseDups.filter (·.2 != 0)
  (List.range s.disp.frames.length).foldl (fun fs _ => up fs) (units ++ (s.recsOf p).map (fun r => (r.asid, r.frame))).eraseDups

/-- How many tasks are live: running, saved, or held as a record. -/
def State.tasksOf (s : State) (p : TaskSel) : Nat :=
  ((s.cores ++ s.disp.images.map (·.core)).filter (·.chosen p)).length + (s.recsOf p).length

/-- Some tasks gone at a bundle boundary, with their frames, records, images, gates, queue entries and holds; their cores are free. -/
def State.discard (s : State) (p : TaskSel) : State :=
  let frames := s.framesOf p
  let cores := (s.cores.filter (·.chosen p)).map (·.id)
  let saved := s.disp.images.filter (·.core.chosen p)
  let s := s.dropReady (fun r => match r with
    | .record r => r.chosen p
    | .image k => saved.any (·.num == k))
  let s := { s with disp := { s.disp with
    waits := s.disp.waits.filter (fun w => !(frames.contains (w.asid, w.frame))),
    frames := s.disp.frames.filter (fun f => !(frames.contains (f.asid, f.ptr))),
    images := s.disp.images.filter (fun i => !(i.core.chosen p)) } }
  let s := { s with holds := s.holds.filter (fun h => !(saved.any (fun i => i.holder == h.core))) }
  cores.foldl State.vacate s

/-- The tables of every unit of a context without the entries that name a block (R352). -/
def State.clearEntries (s : State) (asid addr : Nat) : State :=
  let ended := fun (l : Launch) => if l.asid == asid then { l with entries := l.entries.filter (fun w => !(entryNames w addr)) } else l
  let s := { s with disp := { s.disp with launches := s.disp.launches.map ended } }
  s.mapAllCores (fun c => if c.asid != asid then c else
    { c with sig := { c.sig with st := c.sig.st.map (fun g => { g with
        slots := g.slots.map (fun t => { t with table := t.table.map (fun w => if entryNames w addr then 0 else w) }) }) } })

/-- The retractable quarry blocks of a squashed block returned (R352). -/
def State.returnBlocks (s : State) (l : Launch) (b : Nat) : State :=
  match s.pool l.asid (dRpool l.desc) with
  | none => s
  | some p => (s.retractable l b).foldl (fun s i => (s.clearEntries l.asid (p.addr i)).leaveBlock l.asid (dRpool l.desc) i) s

/-- A block squashed (R318). -/
def State.squash (s : State) (l : Launch) (b : Nat) : State :=
  let frames := s.framesOf (l.owns b)
  let gone := s.tasksOf (l.owns b)
  let ended := (l.prov.filter (·.unit == b)).map (·.by_.fam) ++ (l.defer_.filter (·.unit == b)).map (·.by_.fam)
  let s := (s.discard (l.owns b)).returnBlocks l b
  let s := (frames.map (fun f => (⟨f.1, f.2⟩ : Family)) ++ ended).foldl State.dropFamilyTags s
  s.modLaunch l.key (fun l => { (l.setBlock b (fun _ => .squashed)) with
    unitsLeft := l.unitsLeft - gone, prov := l.prov.filter (·.unit != b), defer_ := l.defer_.filter (·.unit != b) })

/-- A block still WAITING when the final shape leaves it out: its record and its frame are gone (R318). -/
def State.dropBlock (s : State) (l : Launch) (b : Nat) : State :=
  (s.discard (l.owns b)).modLaunch l.key (fun l => { (l.setBlock b (fun _ => .dropped)) with unitsLeft := l.unitsLeft - 1 })

/-- The events of R318 on the blocks of a started GRID launch whose floor, and perhaps final shape, have moved. -/
def State.blockEvents (s : State) (key : Nat) : State :=
  match s.launch key with
  | none => s
  | some l =>
    let gone := fun (b : Nat) => !l.waits && (l.final.map (fun n => decide (n ≤ b))).getD false
    l.blocks.foldl (fun s e => match s.launch key with
      | none => s
      | some l => match e.2 with
        | .waiting => if gone e.1 then s.dropBlock l e.1 else s
        | .runP => if gone e.1 then s.squash l e.1
          else if e.1 < l.floor then (s.keepBlocks l e.1).modLaunch key (fun l => l.setBlock e.1 (fun _ => .commit)) else s
        | .endP => if gone e.1 then s.squash l e.1 else if e.1 < l.floor then s.keepBlocks l e.1 else s
        | _ => s) s

/-! Streams (R176, R319). -/

/-- Whether a core runs a member of a launch at or past a tick. -/
def Core.pastTick (c : Core) (l : Launch) (n : Nat) : Bool :=
  (c.unit.map (fun u => u.gang && u.asid == l.asid && u.launch == l.id)).getD false && c.sys.tick.toNat ≥ n

/-- The blocks or ticks of a launch that hold retractable quarry blocks. -/
def Launch.retracts (l : Launch) (s : State) : List Nat :=
  ((s.pool l.asid (dRpool l.desc)).map (fun p => p.blocks.filterMap (fun e => match e.2 with
    | .retractable k b => if k == l.key then some b else none
    | _ => none))).getD [] |>.eraseDups

/-- The streams of a launch at or past its final tick squashed; a saved one leaves with its image (R176, R324). -/
def State.cutStreams (s : State) (l : Launch) (n : Nat) : State :=
  let cores := (s.cores.filter (·.pastTick l n)).map (·.id)
  let stages := ((s.disp.images.filter (fun i => i.gang && i.core.pastTick l n)).filterMap (·.core.unit)).map (·.stage)
  let lost := fun (i : Image) => i.gang && (i.core.unit.map (fun u => u.asid == l.asid && u.launch == l.id && stages.contains u.stage)).getD false
  let out := s.disp.images.filter lost
  let fams := (out.filterMap (·.core.unit)).map (·.family)
  let all := ((cores.map s.coreOf).filterMap (·.unit)).map (·.family) ++ fams
  let ticks := (l.retracts s).filter (n ≤ ·)
  let s := ticks.foldl (fun s t => s.returnBlocks l t) s
  let s := all.eraseDups.foldl (fun s f => s.dropTicks f n) s
  let s := cores.foldl (fun s c => s.modCore c (Core.cutStream n)) s
  let sent := fun (m : MirrorMsg) => (m.holds.map (fun h => !(h.1 == l.key && h.2 ≥ n))).getD true
  let s := { s with holds := s.holds.filter (fun h => !(out.any (fun i => i.holder == h.core))) }
  let s := { s with disp := { s.disp with images := s.disp.images.filter (fun i => !(lost i)), mirrors := s.disp.mirrors.filter sent } }
  let s := fams.foldl (fun s f => ((s.endFamily f).dropParties f).dropWaiters f) s
  let tables := out.flatMap (·.core.validEntries)
  s.modLaunch l.key (fun l => { l.keepEntries tables with
    unitsLeft := l.unitsLeft - stages.eraseDups.length, prov := l.prov.filter (·.unit < n), defer_ := l.defer_.filter (·.unit < n) })

/-! Posts (R314, R317). -/

/-- An observation recorded at a launch's site (R314). -/
def State.observe (s : State) (l : Launch) (n : Nat) : State :=
  let k := dSite l.desc
  let old := match lookup s.disp.sites k with
    | some e => if e.asid == l.asid then e.obs else []
    | none => []
  let obs := old ++ [n]
  { s with disp := { s.disp with sites := assocSet s.disp.sites k ⟨l.asid, obs.drop (obs.length - 4)⟩ } }

/-- What follows a moved floor or a final shape in a launch that has started (R317 to R319). -/
def State.shapeEvents (s : State) (key : Nat) : State :=
  match s.launch key with
  | none => s
  | some l =>
    if l.st != .started then s
    else if !(dGang l.desc) then s.blockEvents key
    else
      let s := ((l.retracts s).filter (· < l.floor)).foldl (fun s b => s.keepBlocks l b) s
      match l.final with
      | some n => if l.waits then s else s.cutStreams l n
      | none => s

/-- A post on the launch that waits on its cell (R317). -/
def State.postShape (s : State) (l : Launch) (m : ShapeMsg) : State :=
  if m.final then
    let n := max m.v l.floor
    ((s.modLaunch l.key (fun l => { l with floor := n, low := decide (m.v < l.floor), final := some n, waits := false })).observe l n).shapeEvents l.key
  else if m.v > l.floor then
    (s.modLaunch l.key (fun l => { l with floor := m.v, pred := max l.pred m.v })).shapeEvents l.key
  else s

/-- SHAPE_POST (R317): the oldest post. A cell whose page is lost is neither read nor written (R316). -/
def execShapePost (s : State) : Res :=
  match s.disp.shapes with
  | [] => .next s
  | m :: ms =>
    let s := { s with disp := { s.disp with shapes := ms } }
    let there := match s.translate m.asid m.cell .write with
      | .ok pa => pa == m.pa
      | .error _ => false
    if m.final && there && bitAt ((s.memAs (s.keyOf m.asid)).readW m.pa) 63 then .next s
    else
      let s := if m.final && there then s.storeAt m.asid m.cell m.pa (bytesOf (BitVec.ofNat 64 (2 ^ 63 + m.v)) 8) else s
      match s.disp.launches.find? (fun l => l.asid == m.asid && l.waits && dCell l.desc != 0 && dCell l.desc == m.cell) with
      | none => .next s
      | some l => .next (s.postShape l m)

end Sys2Proof.Machine
end

