-- ==== Sys2Proof/Machine/HostQueues.lean ====
section
/-! DEFINITION. The host's queues and the mailbox (R388 to R394, R441): doorbells, submission records, replies, the commands, contexts. -/

namespace Sys2Proof.Machine

/-- A function. -/
def State.fn (s : State) (n : Nat) : Option Fn := s.fns.find? (·.n == n)

/-! Doorbells (R389). -/

/-- A submission queue's TAIL written: beyond the ring, or past 2^n − 1 outstanding records, it is an ERROR, which discards what the queue
held. -/
def Ring.tailWrite (r : Ring) (v : Nat) : Ring :=
  if r.st == 2 then r
  else if v ≥ r.size || r.out + (v + r.size - r.tail) % r.size ≥ r.size then { r with st := 2, head := r.tail }
  else ({ r with tail := v } : Ring).settle

/-- HEAD of a ring the device writes: beyond the ring, or past the records written, it is an ERROR. -/
def Ring.headWrite (r : Ring) (v : Nat) : Ring :=
  if r.st == 2 then r
  else if v ≥ r.size || (v + r.size - r.head) % r.size > r.out then { r with st := 2, head := r.tail }
  else ({ r with head := v } : Ring).settle

/-- SQ_TAIL (R389, R393). -/
def execSqTail (fn q : Nat) (v : BitVec 32) (s : State) : Res :=
  .next (s.modFn fn (fun f => match f.sqOf q with
    | none => f
    | some r => f.setSq (r.tailWrite v.toNat)))

/-- CQ_HEAD (R389): room for completions that wait (R391). -/
def execCqHead (fn q : Nat) (v : BitVec 32) (s : State) : Res :=
  .next (s.modFn fn (fun f => match f.cqOf q with
    | none => f
    | some r => (f.setCq (r.headWrite v.toNat)).deliver))

/-- FQ_HEAD (R389, R392). -/
def execFqHead (fn : Nat) (v : BitVec 32) (s : State) : Res :=
  .next (s.modFn fn (fun f => match f.fq with
    | none => f
    | some r => ({ f with fq := some (r.headWrite v.toNat) } : Fn).deliver))

/-- SUBMISSION_RECORD (R390): the next record of a queue, read after the TAIL that covers it (R393). -/
def execSubmissionRecord (fn q : Nat) (s : State) : Res :=
  match (s.fn fn).bind (fun f => (f.sqOf q).map (fun r => (f, r))) with
  | none => .next s
  | some (f, r) =>
    if r.st == 2 || r.out == 0 then .next s
    else
      let w := wordsOf 8 (f.mem.read (r.base + 64 * r.head) 64)
      let m : Submit := { kind := dField w 0 0 8, asid := r.owner, queue := r.hw, addr := dField w 1 0 56, desc := none, notify := none,
                          issuer := none, answer := none, also := [], host := some (fn, r.cq, field (dWord w 0) 32 32) }
      let s := s.modFn fn (·.setSq ({ r with head := (r.head + 1) % r.size } : Ring).settle)
      .next { s with disp := { s.disp with submits := s.disp.submits ++ [m] } }

/-! Replies (R392). -/

/-- The open paging request of a function that a number names. -/
def State.pagingOf (s : State) (fn req : Nat) : Option FaultReq :=
  s.disp.reqs.find? (fun q => q.paging && q.pool == req && s.fnOf q.asid == fn)

/-- FAULT_REPLY_RESUME (R392): the units parked on the request go on. -/
def execFaultReplyResume (fn : Nat) (req : BitVec 24) (s : State) : Res :=
  .next (((s.pagingOf fn req.toNat).map (fun q => s.resumeRequest q.num)).getD s)

/-- A core that a reply ends (R346, R392): a unit parked on the request ends by its fault; a command it holds faults its queue (R233). -/
def Core.replyEnd (q : FaultReq) (c : Core) : Core :=
  match q.fault with
  | none => c
  | some (n, f) =>
    let held := fun (k : Queue) => k.ents.any (fun e => e.held == some q.num)
    let c := { c with eng := c.eng.map (fun k => if held k then
      { k with ents := k.ents.filter (fun e => e.held != some q.num), faulted := some f } else k) }
    if c.ctl.parked == some q.num then
      let m := ((c.unit.map (fun u => if u.gang then n - u.first else 0))).getD 0
      let k := c.record f c.sys.replay (n != c.id) m
      Core.endNow false { k with sys := { k.sys with trapPc := addr48 c.ctl.pc }, ctl := { k.ctl with parked := none } }
    else c

/-- The queues whose head a request holds, by the name under which their holds are kept, with the head's region. -/
def State.heldQueues (s : State) (n : Nat) : List (Nat × Nat × Nat) :=
  let of := fun (name : Nat) (c : Core) => (List.range 4).filterMap (fun q =>
    ((c.queue q).ents.find? (fun e => e.held == some n)).map (fun e => (name, q, e.region)))
  s.cores.flatMap (fun c => of c.id c) ++ s.disp.images.flatMap (fun i => of i.holder i.core)

/-- The commands that a request holds stop where they stand (R233): their regions close, their holds end. -/
def State.dropHeld (s : State) (n : Nat) : State :=
  let qs := s.heldQueues n
  let s := qs.foldl (fun s e => if e.2.2 == 0 then s else s.closeRegion e.2.2) s
  { s with holds := s.holds.filter (fun h => !(qs.any (fun e => e.1 == h.core && e.2.1 == h.agent))) }

/-- FAULT_REPLY_END (R392). -/
def execFaultReplyEnd (fn : Nat) (req : BitVec 24) (s : State) : Res :=
  match s.pagingOf fn req.toNat with
  | none => .next s
  | some q =>
    let s := (s.dropHeld q.num).mapAllCores (Core.replyEnd q)
    .next { s with disp := { s.disp with reqs := s.disp.reqs.filter (·.num != q.num) } }

/-! The mailbox (R441). -/

/-- Statuses of commands. -/
def mbOk : Nat := 0
def mbInvalid : Nat := 1
def mbFault : Nat := 2
def mbContextInvalid : Nat := 3
def mbDenied : Nat := 4
def mbInUse : Nat := 5

/-- The codes of the commands. -/
def mbCodes : List Nat := [0x01, 0x02, 0x03, 0x04, 0x10, 0x11, 0x12, 0x13]

/-- A command's end: STATUS written, DONE counted, BUSY cleared. -/
def State.mailboxDone (s : State) (fn status : Nat) : State :=
  s.modFn fn (fun f => { f with status := BitVec.ofNat 8 status, done := f.done + 1, busy := none })

/-- Whether every bit of a record outside some fields is zero: fields as word, lowest bit, width. -/
def onlyFields (w : List Word) (fs : List (Nat × Nat × Nat)) : Bool :=
  (List.range 8).all (fun i =>
    let mask := ((0, 0, 8) :: fs).foldl (fun m f => if f.1 == i then m ||| ((2 ^ f.2.2 - 1) <<< f.2.1) else m) 0
    (dWord w i).toNat &&& mask == (dWord w i).toNat)

/-- Whether the device can read a range of the host's memory. -/
def Fn.readable (f : Fn) (a n : Nat) : Bool := f.holes.all (fun h => a + n ≤ h.1 || h.1 + h.2 ≤ a)

/-- Whether a word written to MBOX_CMD names a record. -/
def cmdAddrOk (addr : Word) : Bool := field addr 0 6 == 0 && field addr 56 8 == 0

/-- The command record at an IOVA. -/
def Fn.cmdRecord (f : Fn) (addr : Word) : List Word := wordsOf 8 (f.mem.read addr.toNat 64)

/-- A mailbox command (R441). A write of MBOX_CMD sets BUSY; while it is set the plinth performs the command at its ADDR, and a write of another
word is dropped. A record of another command's code is left to that command's event (log 40). -/
def mailbox (code fn : Nat) (addr : Word) (fs : List (Nat × Nat × Nat)) (k : Fn → List Word → State → State × Nat) (s : State) : Res :=
  match s.fn fn with
  | none => .next s
  | some f =>
    let done := fun (r : State × Nat) => .next (r.1.mailboxDone fn r.2)
    match f.busy with
    | none => .next (s.modFn fn (fun f => { f with busy := some addr }))
    | some a =>
      if a != addr then .next s
      else if !(cmdAddrOk addr) then done (s, mbInvalid)
      else if !(f.readable addr.toNat 64) then done (s, mbFault)
      else
        let w := f.cmdRecord addr
        let c := dField w 0 0 8
        if c != code && mbCodes.contains c then .next s
        else if c != code || !(onlyFields w fs) then done (s, mbInvalid)
        else done (k f w s)

/-- Whether TDISP locks a function's configuration (R397, R441). -/
def Fn.locked (f : Fn) : Bool := f.tdisp == .locked || f.tdisp == .run

/-- Whether a ring size exponent and an address are admitted for records of some bytes (R388, R441). -/
def ringOk (n base bytes : Nat) : Bool := n == 0 || (6 ≤ n && n ≤ 16 && base % (bytes * 2 ^ n) == 0)

/-- A list of rings with one under its index replaced or removed. -/
def setRing (rs : List Ring) (q : Nat) (r : Option Ring) : List Ring := rs.filter (·.q != q) ++ r.toList

/-- SQ_CONF (R388, R441). -/
def execSqConf (fn : Nat) (addr : Word) (s : State) : Res :=
  mailbox 0x01 fn addr [(1, 0, 6), (1, 16, 10), (1, 32, 3), (1, 40, 6), (1, 48, 16), (2, 0, 56), (3, 0, 5)] (fun f w s =>
    let q := dField w 1 0 6
    let hw := dField w 1 16 10
    let owner := dField w 1 48 16
    let base := dField w 2 0 56
    let n := dField w 3 0 5
    let old := f.sqOf q
    let bound := fun (h : HwQueue) => h.fn == fn && h.sq == q
    if f.locked then (s, mbDenied)
    else if !(ringOk n base 64) then (s, mbInvalid)
    else if n != 0 && (s.ctx owner).isNone then (s, mbInvalid)
    else if n != 0 && s.fnOf owner != fn then (s, mbDenied)
    else if (old.map (·.st != 0)).getD false || s.disp.hw.any (fun h => bound h && !h.ents.isEmpty) ||
        (n != 0 && s.disp.hw.any (fun h => h.n == hw && !(bound h))) then (s, mbInUse)
    else
      let new := if n == 0 then none else some (Ring.empty q base n (dField w 1 40 6) hw owner)
      let hws := s.disp.hw.filter (fun h => !(bound h)) ++
        (if n == 0 then [] else [⟨hw, owner, dField w 1 32 3, fn, q, []⟩])
      (({ s with disp := { s.disp with hw := hws } } : State).modFn fn (fun f => { f with sqs := setRing f.sqs q new }), mbOk)) s

/-- CQ_CONF (R441). -/
def execCqConf (fn : Nat) (addr : Word) (s : State) : Res :=
  mailbox 0x02 fn addr [(1, 0, 6), (2, 0, 56), (3, 0, 5)] (fun f w s =>
    let q := dField w 1 0 6
    let base := dField w 2 0 56
    let n := dField w 3 0 5
    let old := f.cqOf q
    if f.locked then (s, mbDenied)
    else if !(ringOk n base 32) then (s, mbInvalid)
    else if (old.map (·.st != 0)).getD false || (old.isSome && f.sqs.any (·.cq == q)) then (s, mbInUse)
    else
      let new := if n == 0 then none else some (Ring.empty q base n 0 0 0)
      (s.modFn fn (fun f => ({ f with cqs := setRing f.cqs q new } : Fn).deliver), mbOk)) s

/-- FQ_CONF (R441). -/
def execFqConf (fn : Nat) (addr : Word) (s : State) : Res :=
  mailbox 0x03 fn addr [(2, 0, 56), (3, 0, 5)] (fun f w s =>
    let base := dField w 2 0 56
    let n := dField w 3 0 5
    if f.locked then (s, mbDenied)
    else if !(ringOk n base 64) then (s, mbInvalid)
    else if (f.fq.map (·.st != 0)).getD false then (s, mbInUse)
    else
      let new := if n == 0 then none else some (Ring.empty 64 base n 0 0 0)
      (s.modFn fn (fun f => ({ f with fq := new } : Fn).deliver), mbOk)) s

/-- A ring reset (R441). -/
def Ring.reset (r : Ring) : Ring := Ring.empty r.q r.base r.n r.cq r.hw r.owner

/-- Q_RESET (R389, R441). -/
def execQReset (fn : Nat) (addr : Word) (s : State) : Res :=
  mailbox 0x04 fn addr [(1, 0, 8)] (fun f w s =>
    let q := dField w 1 0 6
    match dField w 1 6 2 with
    | 0 => match f.sqOf q with
      | none => (s, mbInvalid)
      | some r => (s.modFn fn (·.setSq r.reset), mbOk)
    | 1 => match f.cqOf q with
      | none => (s, mbInvalid)
      | some r => (s.modFn fn (fun f => (f.setCq r.reset).deliver), mbOk)
    | 2 => match f.fq with
      | none => (s, mbInvalid)
      | some r => if q != 0 then (s, mbInvalid) else (s.modFn fn (fun f => ({ f with fq := some r.reset } : Fn).deliver), mbOk)
    | _ => (s, mbInvalid)) s

/-! Contexts (R350, R394, R398). -/

/-- A pool descriptor that keeps R350. -/
def poolOk (w0 w1 : Word) : Bool :=
  field w0 56 8 == 0 && field w1 60 3 == 0 && field w1 4 28 == 0 &&
    (!(bitAt w1 63) || (decide ((field w1 56 4).toNat ≤ 11) && field w1 32 24 != 0 && decide ((field w1 0 4).toNat ≤ 7) &&
      (field w0 0 56).toNat % (16384 * 2 ^ (field w1 0 4).toNat) == 0))

/-- A pool from its descriptor, every block FREE (R350, R352). -/
def poolOf (w0 w1 : Word) : Pool :=
  ⟨bitAt w1 63, (field w0 0 56).toNat, (field w1 56 4).toNat, (field w1 32 24).toNat, (field w1 0 4).toNat, 0, [], []⟩

/-- A context record that keeps R394. -/
def contextOk (w : List Word) : Bool :=
  dField w 0 18 46 == 0 && dField w 0 0 16 != 0 && dField w 1 52 12 == 0 && dField w 1 0 12 == 0 && dField w 2 48 16 == 0 &&
    dField w 3 48 16 == 0 && [4, 5, 6, 7].all (fun i => dField w i 56 8 == 0 && dField w i 0 16 == 0) &&
    [8, 9].all (fun i => dField w i 56 8 == 0) && [10, 11, 12, 13, 14, 15].all (fun i => dWord w i == 0) &&
    (List.range 64).all (fun i => poolOk (dWord w (16 + 2 * i)) (dWord w (17 + 2 * i)))

/-- A context from its record (R394), its key slot filled (R398, log 5). -/
def contextOf (fn key : Nat) (w : List Word) : Ctx :=
  { asid := dField w 0 0 16, fn := fn, hpage := bitAt (dWord w 0) 17, trusted := bitAt (dWord w 0) 16, root := dField w 1 12 40 * 4096,
    trapVec := dWord w 2, commit := dWord w 3, frameBase := dField w 4 0 56, frameSize := dField w 5 0 56, saveBase := dField w 6 0 56,
    saveSize := dField w 7 0 56, bounceBase := dField w 8 0 56, bounceSize := dField w 9 0 56,
    pools := (List.range 64).map (fun i => poolOf (dWord w (16 + 2 * i)) (dWord w (17 + 2 * i))), nextId := 1, record := w, key := key }

/-- CTX_CREATE (R394, R395, R441): none in recovery. -/
def execCtxCreate (fn : Nat) (addr : Word) (s : State) : Res :=
  mailbox 0x10 fn addr [(1, 0, 56)] (fun f w s =>
    let c := wordsOf 144 (f.mem.read (dField w 1 0 56) 1152)
    if f.locked then (s, mbDenied)
    else if !(f.readable (dField w 1 0 56) 1152) then (s, mbFault)
    else if s.boot.recovery || !(contextOk c) || (s.ctx (dField c 0 0 16)).isSome then (s, mbContextInvalid)
    else ({ s with ctxs := s.ctxs ++ [contextOf fn (Config.fresh s.free) c], free := s.free + 1 }, mbOk)) s

/-- Whether a context has a queue entry or a unit live (R441). -/
def State.ctxBusy (s : State) (a : Nat) : Bool :=
  s.disp.hw.any (fun h => h.owner == a && !h.ents.isEmpty) || s.disp.launches.any (·.asid == a) || s.disp.graphs.any (·.asid == a) ||
    s.disp.submits.any (·.asid == a) || s.cores.any (fun c => c.unit.isSome && c.asid == a) || s.disp.images.any (·.core.asid == a) ||
    s.anyReady (fun r => match r with
      | .record r => r.asid == a
      | .image _ => false) || s.disp.waits.any (·.asid == a) || s.disp.frames.any (·.asid == a)

/-- A core's TLB without a context's entries. -/
def Core.forget (a : Nat) (c : Core) : Core := { c with mem := { c.mem with tlb := c.mem.tlb.filter (·.asid != a) } }

/-- A context withdrawn from every collective (R425): its bindings, its port and its collectives here are gone. -/
def State.withdraw (s : State) (asid : Nat) : State :=
  { s with fabric := { s.fabric with bindings := s.fabric.bindings.filter (·.asid != asid), ports := s.fabric.ports.filter (·.1 != asid),
                                     colls := s.fabric.colls.filter (·.asid != asid) } }

/-- A context gone (R398): its key slot, its translations, its phasers, its tags, its place in the dispatchers' lists. -/
def State.dropCtx (s : State) (a : Nat) : State :=
  let s := (s.mapAllCores (Core.forget a)).withdraw a
  let ids := (s.regions.filter (·.by_.fam.asid == a)).map (·.id)
  let tags := s.tags.map (fun e => (e.1, e.2.filter (fun t => !(ids.contains t.region))))
  let s := { s with
    ctxs := s.ctxs.filter (·.asid != a), holds := s.holds.filter (·.asid != a),
    regions := s.regions.filter (·.by_.fam.asid != a), tags := tags.filter (fun e => !e.2.isEmpty) }
  { s with disp := { s.disp with
      ready := s.disp.ready.filter (·.asid != a), phasers := s.disp.phasers.filter (·.asid != a),
      reqs := s.disp.reqs.filter (·.asid != a), shapes := s.disp.shapes.filter (·.asid != a) } }

/-- CTX_DESTROY (R398, R441). -/
def execCtxDestroy (fn : Nat) (addr : Word) (s : State) : Res :=
  mailbox 0x11 fn addr [(1, 0, 16)] (fun f w s =>
    let a := dField w 1 0 16
    match s.ctx a with
    | none => (s, mbInvalid)
    | some c =>
      if c.fn != fn || f.locked then (s, mbDenied)
      else if s.ctxBusy a then (s, mbInUse)
      else (s.dropCtx a, mbOk)) s

/-- INVALIDATE (R332, R441). -/
def execInvalidate (fn : Nat) (addr : Word) (s : State) : Res :=
  mailbox 0x12 fn addr [(1, 0, 16), (2, 0, 56), (3, 0, 4)] (fun _ w s =>
    let a := dField w 1 0 16
    let va := dField w 2 0 56
    let k := dField w 3 0 4
    match s.ctx a with
    | none => (s, mbInvalid)
    | some c =>
      if c.fn != fn then (s, mbDenied)
      else if k > 9 || va % pageBytes k != 0 then (s, mbInvalid)
      else (s.revoke a va (pageBytes k), mbOk)) s

/-- PRED_CLEAR (R314, R441). -/
def execPredClear (fn : Nat) (addr : Word) (s : State) : Res :=
  mailbox 0x13 fn addr [] (fun _ _ s => ({ s with disp := { s.disp with sites := [] } }, mbOk)) s

/-- The command that a function's mailbox holds performed (R441): the meaning of the event of its code. -/
def State.mailboxAct (s : State) (fn : Nat) : Res :=
  match (s.fn fn).bind (fun f => f.busy.map (fun a => (a, dField (f.cmdRecord a) 0 0 8))) with
  | none => .next s
  | some (a, 0x02) => execCqConf fn a s
  | some (a, 0x03) => execFqConf fn a s
  | some (a, 0x04) => execQReset fn a s
  | some (a, 0x10) => execCtxCreate fn a s
  | some (a, 0x11) => execCtxDestroy fn a s
  | some (a, 0x12) => execInvalidate fn a s
  | some (a, 0x13) => execPredClear fn a s
  | some (a, _) => execSqConf fn a s

/-- MBOX_STAT (R441). -/
def Fn.mboxStat (f : Fn) : Word := f.done ++ 0#16 ++ f.status ++ 0#7 ++ boolW 1 f.busy.isSome

/-- The doorbell block whose queue a Q_RESET in progress resets (R389, R441). -/
def Fn.resetting (f : Fn) : Option Nat :=
  match f.busy with
  | none => none
  | some a =>
    let w := f.cmdRecord a
    if cmdAddrOk a && f.readable a.toNat 64 && dField w 0 0 8 == 4 then
      some (if dField w 1 6 2 == 2 then 64 else dField w 1 0 6)
    else none

/-- STATE of doorbell block q of a function (R389, R395): 2 in recovery; 3 while its reset is in progress; of the two queues that share the
block, ERROR of either stands before running, running of either before idle (log 40). -/
def State.blockState (s : State) (fn q : Nat) : Nat :=
  match s.fn fn with
  | none => 0
  | some f =>
    let rings := if q == 64 then f.fq.toList else (f.sqOf q).toList ++ (f.cqOf q).toList
    if s.boot.recovery then 2
    else if f.resetting == some q then 3
    else if rings.any (·.st == 2) then 2
    else if rings.any (·.st == 1) then 1
    else 0

/-! Host accesses to memory (R398). -/

/-- Whether a host access of a context's function reaches its memory: under a binding in RUN, else only in the bounce window. -/
def Ctx.hostReaches (c : Ctx) (run : Bool) (va n : Nat) : Bool := run || (c.bounceBase ≤ va && va + n ≤ c.bounceBase + c.bounceSize)

/-- The physical runs of a host access through a context's tables; none where it does not reach (R398). -/
def State.hostRuns (s : State) (fn asid va n : Nat) (need : Need) : Option (List (Nat × Nat)) :=
  match s.fn fn, s.ctx asid with
  | some f, some c =>
    if c.fn == fn && c.hostReaches (f.tdisp == .run) va n then
      match s.span asid va n need with
      | .ok rs => some rs
      | .error _ => none
    else none
  | _, _ => none

/-- A host access of the host's own memory (log 40): a write places bytes at an IOVA; a read withdraws the range from the device. -/
def Fn.ownAccess (f : Fn) (va : Nat) (write : Bool) (bytes : List Byte) : Fn :=
  if write then { f with mem := f.mem.write va bytes, holes := f.holes.filter (fun h => va + bytes.length ≤ h.1 || h.1 + h.2 ≤ va) }
  else { f with holes := f.holes ++ [(va, bytes.length)] }

/-- HOST_MEMORY_ACCESS (R290, R398): a write that does not reach device memory is dropped and counted; a read of as many bytes as the event
carries leaves what it returns in lastRead, all ones where it does not reach. -/
def execHostMemoryAccess (fn asid : Nat) (va : Word) (write : Bool) (bytes : List Byte) (s : State) : Res :=
  let va := va.toNat
  let n := bytes.length
  .next (if asid == 0 then s.modFn fn (·.ownAccess va write bytes)
    else if write then match s.hostRuns fn asid va n .write with
      | some rs => s.storeRuns asid va (layRuns rs bytes)
      | none => s.modFn fn (fun f => { f with dropped := f.dropped + 1 })
    else
      let got := match s.hostRuns fn asid va n .read with
        | some rs => rs.flatMap (fun r => (s.memAs (s.keyAt asid va)).read r.1 r.2)
        | none => List.replicate n 0xFF
      s.modFn fn (fun f => { f with lastRead := got }))

end Sys2Proof.Machine
end

