-- ==== Sys2Proof/Machine/Sha.lean ====
section
/-! DEFINITION. SHA-384 (R395 to R397), as FIPS 180-4 defines it (log 5): the spec names the function and does not define it. -/

namespace Sys2Proof.Machine

/-- The round constants: the fractional bits of the cube roots of the first 80 primes. -/
def shaK : List Word :=
  [0x428A2F98D728AE22, 0x7137449123EF65CD, 0xB5C0FBCFEC4D3B2F, 0xE9B5DBA58189DBBC,
   0x3956C25BF348B538, 0x59F111F1B605D019, 0x923F82A4AF194F9B, 0xAB1C5ED5DA6D8118,
   0xD807AA98A3030242, 0x12835B0145706FBE, 0x243185BE4EE4B28C, 0x550C7DC3D5FFB4E2,
   0x72BE5D74F27B896F, 0x80DEB1FE3B1696B1, 0x9BDC06A725C71235, 0xC19BF174CF692694] ++
  [0xE49B69C19EF14AD2, 0xEFBE4786384F25E3, 0x0FC19DC68B8CD5B5, 0x240CA1CC77AC9C65,
   0x2DE92C6F592B0275, 0x4A7484AA6EA6E483, 0x5CB0A9DCBD41FBD4, 0x76F988DA831153B5,
   0x983E5152EE66DFAB, 0xA831C66D2DB43210, 0xB00327C898FB213F, 0xBF597FC7BEEF0EE4,
   0xC6E00BF33DA88FC2, 0xD5A79147930AA725, 0x06CA6351E003826F, 0x142929670A0E6E70] ++
  [0x27B70A8546D22FFC, 0x2E1B21385C26C926, 0x4D2C6DFC5AC42AED, 0x53380D139D95B3DF,
   0x650A73548BAF63DE, 0x766A0ABB3C77B2A8, 0x81C2C92E47EDAEE6, 0x92722C851482353B,
   0xA2BFE8A14CF10364, 0xA81A664BBC423001, 0xC24B8B70D0F89791, 0xC76C51A30654BE30,
   0xD192E819D6EF5218, 0xD69906245565A910, 0xF40E35855771202A, 0x106AA07032BBD1B8] ++
  [0x19A4C116B8D2D0C8, 0x1E376C085141AB53, 0x2748774CDF8EEB99, 0x34B0BCB5E19B48A8,
   0x391C0CB3C5C95A63, 0x4ED8AA4AE3418ACB, 0x5B9CCA4F7763E373, 0x682E6FF3D6B2B8A3,
   0x748F82EE5DEFB2FC, 0x78A5636F43172F60, 0x84C87814A1F0AB72, 0x8CC702081A6439EC,
   0x90BEFFFA23631E28, 0xA4506CEBDE82BDE9, 0xBEF9A3F7B2C67915, 0xC67178F2E372532B] ++
  [0xCA273ECEEA26619C, 0xD186B8C721C0C207, 0xEADA7DD6CDE0EB1E, 0xF57D4F7FEE6ED178,
   0x06F067AA72176FBA, 0x0A637DC5A2C898A6, 0x113F9804BEF90DAE, 0x1B710B35131C471B,
   0x28DB77F523047D84, 0x32CAAB7B40C72493, 0x3C9EBE0A15C9BEBC, 0x431D67C49C100D4C,
   0x4CC5D4BECB3E42B6, 0x597F299CFC657E2A, 0x5FCB6FAB3AD6FAEC, 0x6C44198C4A475817]

/-- The first hash value: the fractional bits of the square roots of the ninth to the sixteenth prime. -/
def shaStart : List Word :=
  [0xCBBB9D5DC1059ED8, 0x629A292A367CD507, 0x9159015A3070DD17, 0x152FECD8F70E5939,
   0x67332667FFC00B31, 0x8EB44A8768581511, 0xDB0C2E0D64F98FA7, 0x47B5481DBEFA4FA4]

/-- A word turned right. -/
def turnR (x : Word) (n : Nat) : Word := x >>> n ||| x <<< (64 - n)

/-- The functions of the schedule and of the rounds. -/
def shaS0 (x : Word) : Word := turnR x 1 ^^^ turnR x 8 ^^^ x >>> 7
def shaS1 (x : Word) : Word := turnR x 19 ^^^ turnR x 61 ^^^ x >>> 6
def shaB0 (x : Word) : Word := turnR x 28 ^^^ turnR x 34 ^^^ turnR x 39
def shaB1 (x : Word) : Word := turnR x 14 ^^^ turnR x 18 ^^^ turnR x 41

/-- The schedule: the words so far, the newest first, and as many more. -/
def shaSchedule : Nat → List Word → List Word
  | 0, w => w
  | n + 1, w => shaSchedule n ((shaS1 (w.getD 1 0) + w.getD 6 0 + shaS0 (w.getD 14 0) + w.getD 15 0) :: w)

/-- One round on the eight working words, with its constant and its word of the schedule. -/
def shaRound (h : List Word) (kw : Word × Word) : List Word :=
  match h with
  | [a, b, c, d, e, f, g, h] =>
    let t := h + shaB1 e + (e &&& f ^^^ ~~~e &&& g) + kw.1 + kw.2
    [t + shaB0 a + (a &&& b ^^^ a &&& c ^^^ b &&& c), a, b, c, d + t, e, f, g]
  | h => h

/-- A block of 16 words taken into the hash value. -/
def shaBlock (h w : List Word) : List Word :=
  List.zipWith (· + ·) h ((shaK.zip (shaSchedule 64 w.reverse).reverse).foldl shaRound h)

/-- Blocks of 16 words taken in one after another; fuel bounds them. -/
def shaBlocks : Nat → List Word → List Word → List Word
  | 0, h, _ => h
  | n + 1, h, w => if w.isEmpty then h else shaBlocks n (shaBlock h (w.take 16)) (w.drop 16)

/-- Words of bytes, the first byte highest. -/
def shaWords (n : Nat) (bs : List Byte) : List Word := (List.range n).map (fun i => wordOfBytes ((bs.drop (8 * i)).take 8).reverse)

/-- SHA-384 of a message: six words, the first the highest. -/
def sha384 (m : List Byte) : List Word :=
  let blocks := (m.length + 17 + 127) / 128
  let padded := m ++ 0x80 :: List.replicate (blocks * 128 - m.length - 17) 0 ++ (bytesOfNat (8 * m.length) 16).reverse
  (shaBlocks blocks shaStart (shaWords (16 * blocks) padded)).take 6

end Sys2Proof.Machine
end

