-- ==== Sys2Proof/Machine/Trust.lean ====
section
/-! DEFINITION. Boot, identity, SPDM, TDISP (R395 to R399), the fencing of a die and its repair (R421 to R424), a virtual function's reset
(R425). -/

namespace Sys2Proof.Machine

/-! Boot (R395, R396). -/

/-- COLD_RESET (R395): the fused count stays; a firmware image that fails a check leaves the plinth in recovery. The events still to come
and the number of the next free value are the model's own. -/
def execColdReset (img : BootImage) (s : State) : Res :=
  .next { State.reset with
    boot := Boot.of (!(img.sigOk && img.version ≥ s.boot.fused)) s.boot.fused img.version img.meas,
    refTime := s.refTime, free := s.free, agenda := s.agenda }

/-- ANTI_ROLLBACK_RAISE (R395): by a signed command of an image that has passed. -/
def execAntiRollbackRaise (v : Nat) (sigOk : Bool) (s : State) : Res :=
  .next (if !s.boot.recovery && sigOk && v > s.boot.fused then { s with boot := { s.boot with fused := v } } else s)

/-! SPDM (R397): the phase is how far the connection has come: 1 version, 2 capabilities, 3 algorithms. -/

/-- An answer of the responder; none to a request that does not fit its state (log 11). -/
def State.spdmAnswers (s : State) (ok : Bool) (f : Spdm → Spdm) (ws : List Word) : State :=
  if ok then { s with spdm := { f s.spdm with answer := ws }, free := s.free + 2 } else { s with spdm := { s.spdm with answer := [] } }

/-- The free words of an answer that no rule states (log 5). -/
def State.spdmFree (s : State) : List Word := [Config.spdmAnswer s.free, Config.spdmAnswer (s.free + 1)]

/-- GET_VERSION: SPDM 1.3; the connection starts again. -/
def execGetVersion (_r : SpdmReq) (s : State) : Res :=
  .next (s.spdmAnswers true (fun c => { c with phase := 1, session := none, finished := false }) [0x13])

/-- GET_CAPABILITIES. -/
def execGetCapabilities (_r : SpdmReq) (s : State) : Res :=
  .next (s.spdmAnswers (s.spdm.phase == 1) (fun c => { c with phase := 2 }) s.spdmFree)

/-- NEGOTIATE_ALGORITHMS. -/
def execNegotiateAlgorithms (_r : SpdmReq) (s : State) : Res :=
  .next (s.spdmAnswers (s.spdm.phase == 2) (fun c => { c with phase := 3 }) s.spdmFree)

/-- Words as bytes. -/
def bytesOfWords (ws : List Word) : List Byte := ws.flatMap (fun w => bytesOf w 8)

/-- GET_DIGESTS: of the identity and the alias certificate. -/
def execGetDigests (_r : SpdmReq) (s : State) : Res :=
  .next (s.spdmAnswers (s.spdm.phase == 3) id (sha384 (bytesOfWords s.boot.identityCert) ++ sha384 (bytesOfWords s.boot.aliasCert)))

/-- GET_CERTIFICATE (R396): the identity certificate, and the alias certificate that the identity key has signed. -/
def execGetCertificate (_r : SpdmReq) (s : State) : Res :=
  .next (s.spdmAnswers (s.spdm.phase == 3) id (s.boot.identityCert ++ s.boot.aliasCert))

/-- A message with its signature: the device signs with the alias key only (R396). -/
def State.signed (s : State) (m : List Word) : List Word := m ++ (List.range 12).map (Config.signature s.boot.aliasKey m)

/-- A nonce as words. -/
def nonceWords (n : BitVec 256) : List Word := (List.range 4).map (fun i => field n (64 * i) 64)

/-- CHALLENGE: the nonce, signed. -/
def execChallenge (r : SpdmReq) (s : State) : Res := .next (s.spdmAnswers (s.spdm.phase == 3) id (s.signed (nonceWords r.nonce)))

/-- A measurement register as words. -/
def measWords (m : BitVec 384) : List Word := (List.range 6).map (fun i => field m (64 * i) 64)

/-- The context measurement (R397): SHA-384 over the context record and the LOAD sections that the context maps, in the order given. -/
def State.contextMeasure (s : State) (asid : Nat) (loads : List (Nat × Nat)) : List Word :=
  match s.ctx asid with
  | none => []
  | some c => sha384 (bytesOfWords c.record ++ loads.flatMap (fun e => (s.readVa asid e.1 e.2).getD []))

/-- GET_MEASUREMENTS: a quote carries the nonce, the four measurement registers, the ASID and the context measurement, signed (R397). -/
def execGetMeasurements (r : SpdmReq) (s : State) : Res :=
  .next (s.spdmAnswers (s.spdm.phase == 3) id (s.signed
    (nonceWords r.nonce ++ (List.range 4).flatMap (fun i => measWords (s.boot.meas.getD i 0)) ++ [r.asid.setWidth 64] ++
      s.contextMeasure r.asid.toNat r.loads)))

/-- KEY_EXCHANGE: a session, not yet finished. -/
def execKeyExchange (_r : SpdmReq) (s : State) : Res :=
  .next (s.spdmAnswers (s.spdm.phase == 3 && s.spdm.session.isNone)
    (fun c => { c with session := some (Config.fresh s.free), finished := false }) s.spdmFree)

/-- FINISH: the requester's proof closes the handshake; a wrong one ends the session. -/
def execFinish (r : SpdmReq) (s : State) : Res :=
  .next (s.spdmAnswers (s.spdm.session.isSome && !s.spdm.finished)
    (fun c => if r.authOk then { c with finished := true } else { c with session := none }) s.spdmFree)

/-- END_SESSION. -/
def execEndSession (_r : SpdmReq) (s : State) : Res :=
  .next (s.spdmAnswers (s.spdm.session.isSome && s.spdm.finished) (fun c => { c with session := none, finished := false }) s.spdmFree)

/-! TDISP (R397): of the virtual functions. -/

/-- The selective IDE streams of a function (R397): one in RUN. -/
def Fn.ideStreams (f : Fn) : Nat := if f.tdisp == .run then 1 else 0

/-- A reservation whose head is gone from its queue given up (R304). -/
def State.dropReserve (s : State) : State :=
  if (s.disp.reserving.bind s.launch).isSome then s else { s with disp := { s.disp with reserving := none, reserved := [] } }

/-- The entries of a function's hardware queues completed with a status, unstarted as they are; what a head among them reserved is free. -/
def State.abortQueues (s : State) (fn status : Nat) : State :=
  State.dropReserve <| (s.disp.hw.filter (·.fn == fn)).foldl (fun s q =>
    let s := q.ents.foldl (fun s e => match e with
      | .launch k => match s.launch k with
        | none => s
        | some l => s.completeLaunch { l with status := status, final := some 0, low := false }
      | .graph k => match s.graphOf k with
        | none => s
        | some g => s.completeGraph { g with status := status }
      | .refused _ h => s.completeHost h status 0 0) s
    { s with disp := { s.disp with hw := s.disp.hw.map (fun h => if h.n == q.n then { h with ents := [] } else h) } }) s

/-- A function's TDISP state set where it stands in another. -/
def State.setTdisp (s : State) (fn : Nat) (old new : Tdisp) : Option State :=
  if fn == 0 then none
  else match s.fn fn with
    | none => none
    | some f => if f.tdisp == old then some (s.modFn fn (fun f => { f with tdisp := new })) else none

/-- TDISP_LOCK: CONFIG_UNLOCKED to CONFIG_LOCKED. -/
def execTdispLock (fn : Nat) (s : State) : Res := .next ((s.setTdisp fn .unlocked .locked).getD s)

/-- TDISP_ENTER_RUN: CONFIG_LOCKED to RUN. -/
def execTdispEnterRun (fn : Nat) (s : State) : Res := .next ((s.setTdisp fn .locked .run).getD s)

/-- TDISP_LEAVE_RUN: the hardware queue slots are aborted with VF_RESET. -/
def execTdispLeaveRun (fn : Nat) (err : Bool) (s : State) : Res :=
  .next (((s.setTdisp fn .run (if err then .error else .unlocked)).map (fun s => s.abortQueues fn stVfReset)).getD s)

/-! Units cut short. -/

/-- The gangs of some launches gone at a bundle boundary, running and saved, with what they own. -/
def State.discardGangs (s : State) (p : Nat → Nat → Bool) : State :=
  let mine := fun (c : Core) => (c.unit.map (fun u => u.gang && p u.asid u.launch)).getD false
  let fams := (((s.cores ++ s.disp.images.map (·.core)).filter mine).filterMap (·.unit)).map (·.family)
  let saved := s.disp.images.filter (fun i => mine i.core)
  let cores := (s.cores.filter mine).map (·.id)
  let s := { s with disp := { s.disp with images := s.disp.images.filter (fun i => !(mine i.core)) } }
  let s := { s with holds := s.holds.filter (fun h => !(saved.any (fun i => i.holder == h.core))) }
  let s := cores.foldl State.vacate s
  fams.eraseDups.foldl (fun s f => ((s.endFamily f).dropParties f).dropWaiters f) s

/-- A started launch all of whose units are gone, with what was provisional of it: the first failure's status stands (R309). -/
def Launch.cut (l : Launch) (status : Nat) : Launch :=
  let ended := fun (b : BlockSt) => if b == .done || b == .dropped then b else .squashed
  { l with status := if l.status == 0 then status else l.status, waits := false, toStart := [], unitsLeft := 0, prov := [], defer_ := [],
           final := if dGang l.desc then some (l.final.getD 0) else some l.cursor, blocks := l.blocks.map (fun e => (e.1, ended e.2)) }

/-- A launch ended at its units' next bundle boundary. -/
def State.cutLaunch (s : State) (l : Launch) (status : Nat) : State :=
  let fams := (s.framesOf (fun a i _ => a == l.asid && i == l.id)).map (fun e => (⟨e.1, e.2⟩ : Family))
  let s := s.discard (fun a i _ => a == l.asid && i == l.id)
  let s := s.discardGangs (fun a i => a == l.asid && i == l.id)
  let s := l.blocks.foldl (fun s e => s.returnBlocks l e.1) s
  let s := fams.foldl State.endFamily s
  let s := { s with disp := { s.disp with mirrors := s.disp.mirrors.filter (fun m => m.launch != l.key) } }
  s.modLaunch l.key (·.cut status)

/-! A virtual function's reset (R425). -/

/-- VF_RESET (R425): a virtual function's. -/
def execVfReset (fn : Nat) (s : State) : Res :=
  if fn == 0 then .next s
  else
    let mine := fun (a : Nat) => (s.ctx a).isSome && s.fnOf a == fn
    let s := (s.arbitrate 8 fn).abortQueues fn stVfReset
    let s : State := { s with disp := { s.disp with graphs := s.disp.graphs.map (fun g => if mine g.asid then g.fail stVfReset else g) } }
    let s := (s.disp.launches.filter (fun l => mine l.asid)).foldl (fun s l => s.cutLaunch l stVfReset) s
    let s := s.discard (fun a _ _ => mine a)
    let s : State := { s with disp := { s.disp with reqs := s.disp.reqs.filter (fun q => !(mine q.asid)) } }
    .next ((s.ctxs.filter (·.fn == fn)).foldl (fun s c => s.withdraw c.asid) s)

/-! Fencing (R421 to R424). -/

/-- A die's domains. -/
def Domain.onDie (d : Nat) : Domain → Bool
  | .cluster k => k / 7 == d
  | .die n => n == d
  | .package => false

/-- A task lost with a die: its context, frame, launch, block and the request it serves. -/
structure Lost where
  asid : Nat
  frame : Nat
  launch : Nat
  block : Option Nat
  serves : Option Nat
  deriving DecidableEq, Repr

/-- The tasks that ran, waited or stood ready on a die. -/
def State.lostTasks (s : State) (d : Nat) : List Lost :=
  let ofRec := fun (r : Rec) => (⟨r.asid, r.frame, r.launch, r.block, r.serves⟩ : Lost)
  let ofUnit := fun (u : UnitInfo) => if u.gang then none else some (⟨u.asid, u.frame, u.launch, u.block, u.serves⟩ : Lost)
  let queued := (s.disp.ready.filter (·.dom.onDie d)).flatMap (fun q => q.levels.flatMap id)
  (s.cores.filter (fun c => dieOf c.id == d)).filterMap (fun c => c.unit.bind ofUnit) ++
    queued.filterMap (fun r => match r with
      | .record r => some (ofRec r)
      | .image k => (s.disp.images.find? (·.num == k)).bind (fun i => i.core.unit.bind ofUnit)) ++
    s.disp.frames.filterMap (fun f => if dieOf f.at_ == d then f.parked.map ofRec else none) ++
    s.disp.waits.filterMap (fun w => if dieOf w.at_ == d then w.rec_.map ofRec else none)

/-- One lost task ended without a report: its core, its record, its frame (R424). -/
def State.loseTask (s : State) (t : Lost) : State :=
  let mine := fun (c : Core) => (c.unit.map (fun u => !u.gang && u.asid == t.asid && u.frame == t.frame)).getD false
  let saved := s.disp.images.filter (fun i => mine i.core)
  let s := s.dropReady (fun r => match r with
    | .record r => r.asid == t.asid && r.frame == t.frame
    | .image k => saved.any (·.num == k))
  let cores := (s.cores.filter mine).map (·.id)
  let s := { s with disp := { s.disp with
    waits := s.disp.waits.filter (fun w => !(w.asid == t.asid && w.frame == t.frame)),
    images := s.disp.images.filter (fun i => !(mine i.core)) } }
  let s := s.modFrame t.asid t.frame (fun f => { f with parked := none })
  let s := cores.foldl State.vacate s
  ((s.endFamily ⟨t.asid, t.frame⟩).taskGone t.asid t.frame t.launch t.block t.serves false)

/-- A block of a reissuable launch stopped, to be started again from ENTRY in the state it stands in: its surviving tasks are ended first, a
commit under way goes on (R423). -/
def State.reissue (s : State) (l : Launch) (b : Nat) : State :=
  let st := (l.block b).getD .waiting
  let dest := if st == .endP then .runP else st
  let gone := s.tasksOf (l.owns b)
  let fams := (s.framesOf (l.owns b)).map (fun e => (⟨e.1, e.2⟩ : Family))
  let s := (s.discard (l.owns b)).returnBlocks l b
  let s := fams.foldl State.endFamily s
  s.modLaunch l.key (fun l => { (l.setBlock b (fun _ => dest)) with
    unitsLeft := l.unitsLeft - gone, again := l.again ++ [b],
    prov := l.prov.filter (fun e => e.unit != b || st == .commit), defer_ := l.defer_.filter (fun e => e.unit != b || st == .commit) })

/-- A block whose root task is lost and not reissued (R424): it runs no more. -/
def BlockSt.rootLost : BlockSt → BlockSt
  | .waiting => .dropped
  | .commit => .endP
  | b => b

/-- A lost task of a launch that is not reissued ended (R424). -/
def State.loseOf (s : State) (t : Lost) : State :=
  let root := ((s.frame t.asid t.frame).map (·.parent == 0)).getD false
  let s := s.loseTask t
  match (if root then t.block else none), s.disp.launches.find? (fun l => l.asid == t.asid && l.id == t.launch) with
  | some b, some l => s.modLaunch l.key (·.setBlock b BlockSt.rootLost)
  | _, _ => s

/-- What the fence does to one launch (R421, R423, R424); lost is what stood on the die, gangLost whether a gang of it did. -/
def State.repair (s : State) (d : Nat) (lost : List Lost) (gangLost : Nat → Nat → Bool) (key : Nat) : State :=
  match s.launch key with
  | none => s
  | some l =>
    let mine := lost.filter (fun t => t.asid == l.asid && t.launch == l.id)
    if dGang l.desc then (if gangLost l.asid l.id then s.cutLaunch l stDieLost else s)
    else if mine.isEmpty then s
    else if dReissue l.desc then
      let bs := (mine.filterMap (·.block)).eraseDups
      bs.foldl (fun s b => match s.launch key with
        | none => s
        | some l => if [some BlockSt.done, some .dropped, some .squashed, none].contains (l.block b) then s else s.reissue l b) s
    else
      let s := s.modLaunch key (fun l => { l with
        status := if l.status == 0 then stDieLost else l.status,
        prov := l.prov.filter (fun e => dieOf e.by_.core != d), defer_ := l.defer_.filter (fun e => dieOf e.by_.core != d) })
      mine.foldl State.loseOf s

/-- The lowest compute die that is not fenced. -/
def State.lowestDie (s : State) : Nat := ((List.range 8).find? (fun d => !(s.fenced.contains d))).getD 0

/-- DIE_FENCE (R421 to R424): a fatal error in compute die d. -/
def execDieFence (d : Nat) (s : State) : Res :=
  if d ≥ 8 || s.fenced.contains d then .next s
  else
    let s := ({ s with fenced := s.fenced ++ [d] } : State).arbitrate 6 d
    let lost := s.lostTasks d
    let onDie := fun (c : Core) => dieOf c.id == d && c.id != plinthId
    let gangs := ((s.cores ++ s.disp.images.map (·.core)).filter onDie).filterMap (fun c => c.unit.bind (fun u =>
      if u.gang then some (u.asid, u.launch) else none))
    let toCome := s.disp.launches.filter (fun l => l.toStart.any (fun e => dieOf ((l.placed.getD e.1 0) + e.2) == d))
    let gangLost := fun (a i : Nat) => gangs.contains (a, i) || toCome.any (fun l => l.asid == a && l.id == i)
    let fams := lost.map (fun t => (⟨t.asid, t.frame⟩ : Family)) ++
      ((s.cores ++ s.disp.images.map (·.core)).filter onDie).filterMap (fun c => c.unit.map (·.family))
    let s := (s.disp.launches.map (·.key)).foldl (fun s k => s.repair d lost gangLost k) s
    let s := fams.eraseDups.foldl State.dropFamilyTags s
    let s := (lost.filter (fun t => s.disp.launches.all (fun l => !(l.asid == t.asid && l.id == t.launch)))).foldl State.loseTask s
    let s : State := { s with disp := { s.disp with
      ready := s.disp.ready.filter (fun q => !(q.dom.onDie d)),
      phasers := s.disp.phasers.filter (fun p => p.cluster / 7 != d),
      posts := s.disp.posts.filter (fun p => dieOf p.1 != d),
      reserved := [], reserving := none } }
    let s := ((s.cores.filter onDie).map (·.id)).foldl State.vacate s
    .next (if s.master == d then ({ s with master := s.lowestDie } : State).arbitrate 7 s.lowestDie else s)

/-- HUB_DIE_FATAL (R421): the package stops. -/
def execHubDieFatal (_h : Nat) (s : State) : Res := .next { s with stopped := true }

end Sys2Proof.Machine
end

