-- ==== Sys2Proof/Machine/Flags.lean ====
section
/-! DEFINITION. Conditions and predicates: the compares of scalars and elements (R100, R104, R136) and the combining types (R101). The
part keeps no flags register; a condition lands in predicates or in a lane mask. -/

namespace Sys2Proof.Machine

/-- An integer condition on w bits (R100, R136): EQ, NE, LT, LE, LTZ, LEZ, BSET, BCLR. -/
def icond (w : Nat) (cond : BitVec 3) (a b : Nat) : Bool :=
  match cond.toNat with
  | 0 => a == b
  | 1 => a != b
  | 2 => sNat w a < sNat w b
  | 3 => sNat w a ≤ sNat w b
  | 4 => a < b
  | 5 => a ≤ b
  | 6 => a.testBit (b % w)
  | _ => !(a.testBit (b % w))

/-- A floating-point condition (R73, R104): EQ, NE, LT, LE, UNORD, ORD, GT, GE. -/
def fcond (cond : BitVec 3) (a b : FV) : Bool :=
  let r := FV.cmp a b
  match cond.toNat with
  | 0 => r == .eq
  | 1 => r != .eq
  | 2 => r == .lt
  | 3 => r == .lt || r == .eq
  | 4 => r == .un
  | 5 => r != .un
  | 6 => r == .gt
  | _ => r == .gt || r == .eq

/-- The two predicates a compare writes, from their old values and the outcome (R101). -/
def combine (ct : BitVec 3) (p1 p2 c : Bool) : Bool × Bool :=
  match ct.toNat with
  | 0 => (c, !c)
  | 1 => (c, c)
  | 2 => (p1 && c, p2 && c)
  | 3 => (p1 || c, p2 || c)
  | 4 => (p1 && !c, p2 && !c)
  | 5 => (p1 || !c, p2 || !c)
  | 6 => (p1 && c, p2 || c)
  | _ => (xor p1 c, !(xor p1 c))

/-- A compare's write of both predicates (R101, R103). -/
def writeCompare (o : SC) (c : Bool) (lat : Nat) (s : State) : Res :=
  let (a, b) := combine o.ct (s.core.p o.p1) (s.core.p o.p2) c
  ok s (fun k => (k.push (.p o.p1 a) lat).push (.p o.p2 b) lat)

end Sys2Proof.Machine
end

