-- ==== Sys2Proof/Machine/Vector.lean ====
section
/-! DEFINITION. The vector slots' arithmetic, compares, masks, permutes, reductions and moves (R123 to R139, R143 to R151). -/

namespace Sys2Proof.Machine

/-! Floating point (R129 to R132). -/

/-- One source, a float result. -/
def vf1 (qp : PredNo) (km : BitVec 3) (d : RegNo) (a : Src) (fmt : BitVec 2) (lat : Nat) (f : Nat → Nat) (s : State) : Res :=
  begin qp (srcRegs a ++ [.v d]) s fun s => useSrc a s fun x =>
    if x.tag != vfmtTag fmt then fault formatMismatch s
    else writeMasked km d (mapElems (vfmt fmt).w f x.bits) (vfmtTag fmt) x.poison lat s

/-- Two sources, a float result; B carries a tag of its own in VSCL. -/
def vf2 (qp : PredNo) (km : BitVec 3) (d : RegNo) (a b : Src) (fmt : BitVec 2) (btag : Tag) (lat : Nat) (f : Nat → Nat → Nat)
    (s : State) : Res :=
  begin qp (srcRegs a ++ srcRegs b ++ [.v d]) s fun s => useSrc a s fun x => useSrc b s fun y =>
    if x.tag != vfmtTag fmt || y.tag != btag then fault formatMismatch s
    else writeMasked km d (zipElems (vfmt fmt).w f x.bits y.bits) (vfmtTag fmt) (x.poison || y.poison) lat s

/-- A two-source operation on values, rounded once (R52, R55). -/
def vfOp (o : VF) (lat : Nat) (f : Nat → FV → FV → FV) (s : State) : Res :=
  let g := vfmt o.fmt
  vf2 o.qp o.km o.d o.a o.b o.fmt (vfmtTag o.fmt) lat
    (fun a b => g.encode o.rnd.toNat 0 o.sat (f o.rnd.toNat (g.decode a) (g.decode b))) s

/-- An accumulating operation: the old destination is the third source (R129). -/
def vfAcc (o : VF) (f : Nat → FV → FV → FV → FV) (s : State) : Res :=
  begin o.qp (srcRegs o.a ++ srcRegs o.b ++ [.v o.d]) s fun s => useSrc o.a s fun x => useSrc o.b s fun y =>
    let g := vfmt o.fmt
    let t := vfmtTag o.fmt
    let z := s.core.v o.d
    if x.tag != t || y.tag != t || z.tag != t then fault formatMismatch s
    else
      let r := zip3Elems g.w (fun a b d => g.encode o.rnd.toNat 0 o.sat (f o.rnd.toNat (g.decode a) (g.decode b) (g.decode d)))
        x.bits y.bits z.bits
      writeMasked o.km o.d r t (x.poison || y.poison || z.poison) 4 s

def execVadd (o : VF) (s : State) : Res := vfOp o 4 FV.add s
def execVsub (o : VF) (s : State) : Res := vfOp o 4 (fun m a b => FV.add m a b.negate) s
def execVmul (o : VF) (s : State) : Res := vfOp o 4 (fun _ a b => FV.mul a b) s

/-- An element of VDIV: a nonzero number over zero gives an infinity whatever the saturate bit (R55, R107, R130, log 8). -/
def vdivElem (g : Fmt) (mode : Nat) (sat : Bool) (a b : Nat) : Nat :=
  match g.decode a, g.decode b with
  | .fin n m _, y => if m != 0 && y.isZero then g.signed (n != y.neg?) g.infCode else g.encode mode 0 sat (FV.div (g.decode a) y)
  | x, y => g.encode mode 0 sat (FV.div x y)

def execVdiv (o : VF) (s : State) : Res :=
  vf2 o.qp o.km o.d o.a o.b o.fmt (vfmtTag o.fmt) 8 (vdivElem (vfmt o.fmt) o.rnd.toNat o.sat) s

def execVfma (o : VF) (s : State) : Res := vfAcc o FV.fma s
def execVfms (o : VF) (s : State) : Res := vfAcc o (fun m a b d => FV.fma m a b d.negate) s
def execVfnma (o : VF) (s : State) : Res := vfAcc o (fun m a b d => FV.add m (FV.mul a b).negate d) s

/-- VMIN and VMAX (R130): no rounding, no saturation. -/
def vfMinMax (o : VFmm) (f : FV → FV → FV) (s : State) : Res :=
  let g := vfmt o.fmt
  vf2 o.qp o.km o.d o.a o.b o.fmt (vfmtTag o.fmt) 4 (fun a b => g.encode 0 0 false (f (g.decode a) (g.decode b))) s

def execVmin (o : VFmm) (s : State) : Res := vfMinMax o FV.min s
def execVmax (o : VFmm) (s : State) : Res := vfMinMax o FV.max s

/-- VABS (R129, R130). -/
def execVabs (o : VF1) (s : State) : Res :=
  let g := vfmt o.fmt
  vf1 o.qp o.km o.d o.a o.fmt 4 (fun a => g.encode 0 0 false (g.decode a).abs) s
/-- VNEG (R129, R130). -/
def execVneg (o : VF1) (s : State) : Res :=
  let g := vfmt o.fmt
  vf1 o.qp o.km o.d o.a o.fmt 4 (fun a => g.encode 0 0 false (g.decode a).negate) s
/-- VSQRT (R129). -/
def execVsqrt (o : VFr) (s : State) : Res :=
  let g := vfmt o.fmt
  vf1 o.qp o.km o.d o.a o.fmt 8 (fun a => g.encode o.rnd.toNat 0 o.sat (FV.sqrt (g.decode a))) s

/-- An approximation on an element: FP32 from the exactly widened source, rounded once to the element format by RNE (R131). -/
def approxElem (op : Nat) (g : Fmt) (sat : Bool) (a : Nat) : Nat :=
  let y := approx op (Fmt.fp32.encode 0 0 false (g.decode a)) sat
  if g == Fmt.fp32 then y
  else match f32 y with
    | .inf n => g.signed n g.infCode
    | v => g.encode 0 0 sat v

/-- A special function (R131). -/
def vfSpecial (op : Nat) (o : VFs) (s : State) : Res :=
  vf1 o.qp o.km o.d o.a o.fmt 8 (approxElem op (vfmt o.fmt) o.sat) s

def execVrcp (o : VFs) (s : State) : Res := vfSpecial 0 o s
def execVrsq (o : VFs) (s : State) : Res := vfSpecial 1 o s
def execVexp2 (o : VFs) (s : State) : Res := vfSpecial 2 o s
def execVlog2 (o : VFs) (s : State) : Res := vfSpecial 3 o s
def execVtanh (o : VFs) (s : State) : Res := vfSpecial 4 o s

/-- An element of VSCL: an infinity stays one but for the saturate bit (R55, R130, log 8). The power is cut where every format has long over-
or underflowed. -/
def vsclElem (g : Fmt) (mode : Nat) (sat : Bool) (a : Nat) (n : Int) : Nat :=
  g.encode mode 0 sat (FV.scale (satInt n (-1024) 1024) (g.decode a))

/-- VSCL: B holds signed integers of the element's width (R132). -/
def execVscl (o : VF) (s : State) : Res :=
  let g := vfmt o.fmt
  vf2 o.qp o.km o.d o.a o.b o.fmt (if g.w == 32 then tI32 else tI16) 4 (fun a b => vsclElem g o.rnd.toNat o.sat a (sNat g.w b)) s

/-! Integers (R133 to R135). -/

/-- An element read signed or unsigned. -/
def elemInt (sgn : Bool) (w v : Nat) : Int := if sgn then sNat w v else ((v % 2 ^ w : Nat) : Int)

/-- An exact result wrapped, or clamped to the range (R133). -/
def intResult (sgn sat : Bool) (w : Nat) (x : Int) : Nat := natWrap w (if sat then satInt x (loInt w sgn) (hiInt w sgn) else x)

/-- Two integer sources of the width's tag. -/
def vi2 (qp : PredNo) (km : BitVec 3) (d : RegNo) (a b : Src) (w : BitVec 2) (f : Nat → Nat → Nat) (s : State) : Res :=
  begin qp (srcRegs a ++ srcRegs b ++ [.v d]) s fun s => useSrc a s fun x => useSrc b s fun y =>
    if x.tag != viTag w || y.tag != viTag w then fault formatMismatch s
    else writeMasked km d (zipElems (viWidth w) f x.bits y.bits) (viTag w) (x.poison || y.poison) 4 s

/-- The exact operations (R133). -/
def viOp (o : VI) (f : Int → Int → Int) (s : State) : Res :=
  let w := viWidth o.w
  vi2 o.qp o.km o.d o.a o.b o.w (fun a b => intResult o.sgn o.sat w (f (elemInt o.sgn w a) (elemInt o.sgn w b))) s

def execViadd (o : VI) (s : State) : Res := viOp o (fun a b => a + b) s
def execVisub (o : VI) (s : State) : Res := viOp o (fun a b => a - b) s
def execVimul (o : VI) (s : State) : Res := viOp o (fun a b => a * b) s

/-- VIMAD: the old destination is added (R133). -/
def execVimad (o : VI) (s : State) : Res :=
  begin o.qp (srcRegs o.a ++ srcRegs o.b ++ [.v o.d]) s fun s => useSrc o.a s fun x => useSrc o.b s fun y =>
    let w := viWidth o.w
    let t := viTag o.w
    let z := s.core.v o.d
    if x.tag != t || y.tag != t || z.tag != t then fault formatMismatch s
    else
      let r := zip3Elems w (fun a b d => intResult o.sgn o.sat w (elemInt o.sgn w a * elemInt o.sgn w b + elemInt o.sgn w d))
        x.bits y.bits z.bits
      writeMasked o.km o.d r t (x.poison || y.poison || z.poison) 4 s

/-- VSHL: the amount is unsigned (R133). A shift beyond twice the width is exact at twice the width. -/
def execVshl (o : VI) (s : State) : Res :=
  let w := viWidth o.w
  vi2 o.qp o.km o.d o.a o.b o.w (fun a b => intResult o.sgn o.sat w (elemInt o.sgn w a * (2 ^ min b (2 * w) : Nat))) s
/-- VSHR (R133). -/
def execVshr (o : VIw) (s : State) : Res :=
  vi2 o.qp o.km o.d o.a o.b o.w (fun a b => if b ≥ viWidth o.w then 0 else a >>> b) s
/-- VSAR (R133). -/
def execVsar (o : VIw) (s : State) : Res :=
  let w := viWidth o.w
  vi2 o.qp o.km o.d o.a o.b o.w (fun a b => natWrap w (sNat w a / (2 ^ min b w : Nat))) s
def execVimin (o : VIs) (s : State) : Res :=
  let w := viWidth o.w
  vi2 o.qp o.km o.d o.a o.b o.w (fun a b => if elemInt o.sgn w a ≤ elemInt o.sgn w b then a else b) s
def execVimax (o : VIs) (s : State) : Res :=
  let w := viWidth o.w
  vi2 o.qp o.km o.d o.a o.b o.w (fun a b => if elemInt o.sgn w a ≥ elemInt o.sgn w b then a else b) s

/-- VIABS (R133). -/
def execViabs (o : VIabs) (s : State) : Res :=
  begin o.qp (srcRegs o.a ++ [.v o.d]) s fun s => useSrc o.a s fun x =>
    let w := viWidth o.w
    if x.tag != viTag o.w then fault formatMismatch s
    else writeMasked o.km o.d (mapElems w (fun a => intResult true o.sat w ((sNat w a).natAbs : Int)) x.bits) (viTag o.w) x.poison 4 s

/-- The tag of a bitwise or selected result: A's where A and B agree, else BITS (R134, R137). -/
def joinTag (a b : Tag) : Tag := if a == b then a else tBITS

/-- The bitwise operations (R134). -/
def vbit (o : V2) (f : VBits → VBits → VBits) (s : State) : Res :=
  begin o.qp (srcRegs o.a ++ srcRegs o.b ++ [.v o.d]) s fun s => useSrc o.a s fun x => useSrc o.b s fun y =>
    writeMasked o.km o.d (f x.bits y.bits) (joinTag x.tag y.tag) (x.poison || y.poison) 4 s

def execVand (o : V2) (s : State) : Res := vbit o (fun a b => a &&& b) s
def execVor (o : V2) (s : State) : Res := vbit o (fun a b => a ||| b) s
def execVxor (o : V2) (s : State) : Res := vbit o (fun a b => a ^^^ b) s
def execVandn (o : V2) (s : State) : Res := vbit o (fun a b => a &&& ~~~b) s

/-- The four byte products of a lane (R135). -/
def dot4 (sgn : Bool) (a b : Nat) : Int :=
  ((List.range 4).map (fun i => elemInt sgn 8 (a >>> (8 * i)) * elemInt sgn 8 (b >>> (8 * i)))).foldl (· + ·) 0

/-- VDOT4 (R135). -/
def execVdot4 (o : VDot) (s : State) : Res :=
  begin o.qp (srcRegs o.a ++ srcRegs o.b ++ [.v o.d]) s fun s => useSrc o.a s fun x => useSrc o.b s fun y =>
    let z := s.core.v o.d
    if x.tag != tI8 || y.tag != tI8 || z.tag != tI32 then fault formatMismatch s
    else
      let r := zip3Elems 32 (fun a b d => intResult o.sgn o.sat 32 (elemInt o.sgn 32 d + dot4 o.sgn a b)) x.bits y.bits z.bits
      writeMasked o.km o.d r tI32 (x.poison || y.poison || z.poison) 4 s

/-! Compares and masks (R136 to R139). -/

/-- A lane mask from a list of truth values, lane 0 first. -/
def maskOf (l : List Bool) : Mask := packElems 128 1 (l.map (fun b => if b then 1 else 0))

/-- A mask instruction's write under KM: bits outside keep their previous values (R124). -/
def writeK (km d : BitVec 3) (m : Mask) (lat : Nat) (s : State) : Res :=
  let keep := s.core.k km
  ok s (·.push (.k d ((m &&& keep) ||| (s.core.k d &&& ~~~keep))) lat)

/-- The element conditions of VCMP, per lane (R136). -/
def vcmpLanes (o : VCmp) (a b : VBits) : List Bool :=
  let w := if o.int then viWidth o.fw else (vfmt o.fw).w
  let f := fun (x y : Nat) => if o.int then icond w o.cond x y else fcond o.cond ((vfmt o.fw).decode x) ((vfmt o.fw).decode y)
  let es := ((elemsOf a w).zip (elemsOf b w)).map (fun p => f p.1 p.2)
  (chunks' (32 / w) es).map (fun l => if o.any then l.any id else l.all id)
where
  /-- The list cut into groups. -/
  chunks' (g : Nat) (l : List Bool) : List (List Bool) := (List.range 128).map (fun i => (l.drop (g * i)).take g)

/-- VCMP (R136): a poisoned source raises POISON_CONSUMED (R126). -/
def execVcmp (o : VCmp) (s : State) : Res :=
  begin o.qp (srcRegs o.a ++ srcRegs o.b) s fun s => useSrc o.a s fun x => useSrc o.b s fun y =>
    let t := if o.int then viTag o.fw else vfmtTag o.fw
    if x.poison || y.poison then fault poisonConsumed s
    else if x.tag != t || y.tag != t then fault formatMismatch s
    else writeK o.km o.d (maskOf (vcmpLanes o x.bits y.bits)) 4 s

/-- VSELK (R137). -/
def execVselk (o : VSelk) (s : State) : Res :=
  begin o.qp (srcRegs o.a ++ srcRegs o.b ++ [.v o.d]) s fun s => useSrc o.a s fun x => useSrc o.b s fun y =>
    writeMasked o.km o.d (blend (s.core.k o.kf) x.bits y.bits) (joinTag x.tag y.tag) (x.poison || y.poison) 4 s

/-- Two masks combined (R138). -/
def klog (o : KL) (f : Mask → Mask → Mask) (s : State) : Res :=
  begin o.qp [] s fun s => ok s (·.push (.k o.d (f (s.core.k o.a) (s.core.k o.b))) 1)

def execKand (o : KL) (s : State) : Res := klog o (fun a b => a &&& b) s
def execKor (o : KL) (s : State) : Res := klog o (fun a b => a ||| b) s
def execKxor (o : KL) (s : State) : Res := klog o (fun a b => a ^^^ b) s
def execKandn (o : KL) (s : State) : Res := klog o (fun a b => a &&& ~~~b) s
def execKnot (o : KL1) (s : State) : Res := begin o.qp [] s fun s => ok s (·.push (.k o.d (~~~(s.core.k o.a))) 1)
def execKmov (o : KL1) (s : State) : Res := begin o.qp [] s fun s => ok s (·.push (.k o.d (s.core.k o.a)) 1)

/-- KMOV.v2k: bit 31 of each lane (R139). -/
def execKmovV2k (o : KV) (s : State) : Res :=
  begin o.qp (srcRegs o.a) s fun s => useSrc o.a s fun x =>
    if x.poison then fault poisonConsumed s
    else ok s (·.push (.k o.d (maskOf ((elemsOf x.bits 32).map (fun e => e.testBit 31)))) 1)

/-- KMOV.k2v (R139). -/
def execKmovK2v (o : VK) (s : State) : Res :=
  begin o.qp [.v o.d] s fun s => writeV o.d (laneBits (s.core.k o.a)) tI32 false 1 s

/-! Permutes (R143, R144). -/

/-- VPERMB (R143). -/
def execVpermb (o : VPb) (s : State) : Res :=
  begin o.qp (srcRegs o.a ++ srcRegs o.b ++ [.v o.d]) s fun s => useSrc o.a s fun x => useSrc o.b s fun y =>
    if y.poison then fault poisonConsumed s
    else
      let a := (elemsOf x.bits 8).toArray
      let idx := (elemsOf y.bits 8).zip (List.range 512)
      let base := fun (i : Nat) => match o.half.toNat with
        | 0 => i / 256 * 256
        | 1 => 0
        | _ => 256
      let r := packElems 4096 8 (idx.map (fun p => a.getD (base p.2 + p.1) 0))
      let t := if tagWidth x.tag ≤ 8 then x.tag else tBITS
      writeMasked o.km o.d r t x.poison 2 s

/-- VPERML, one table (R144). -/
def execVperml (o : V2) (s : State) : Res :=
  begin o.qp (srcRegs o.a ++ srcRegs o.b ++ [.v o.d]) s fun s => useSrc o.a s fun x => useSrc o.b s fun y =>
    if y.poison then fault poisonConsumed s
    else
      let a := (elemsOf x.bits 32).toArray
      writeMasked o.km o.d (mapElems 32 (fun n => a.getD (n % 128) 0) y.bits) x.tag x.poison 2 s

/-- VPERML.two: a table of A and the old destination (R144). -/
def execVpermlTwo (o : V2) (s : State) : Res :=
  begin o.qp (srcRegs o.a ++ srcRegs o.b ++ [.v o.d]) s fun s => useSrc o.a s fun x => useSrc o.b s fun y =>
    let z := s.core.v o.d
    if y.poison then fault poisonConsumed s
    else
      let a := (elemsOf x.bits 32 ++ elemsOf z.bits 32).toArray
      let r := mapElems 32 (fun n => a.getD (n % 256) 0) y.bits
      writeMasked o.km o.d r (joinTag x.tag z.tag) (x.poison || z.poison) 2 s

/-! Reductions (R145). -/

/-- One level of the tree: neighbours combined. -/
def pairUp {α : Type} (f : α → α → α) : List α → List α
  | a :: b :: l => f a b :: pairUp f l
  | l => l

/-- The fixed tree of R145, n levels deep. -/
def treeReduce {α : Type} (f : α → α → α) : Nat → List α → List α
  | 0, l => l
  | n + 1, l => treeReduce f n (pairUp f l)

/-- A reduction's sources: the elements, those of inactive lanes replaced by the identity (R145). -/
def redElems (km : Mask) (w : Nat) (a : VBits) (ident : Nat) : List Nat :=
  ((elemsOf a w).zip (List.range (4096 / w))).map (fun p => if elemOn km w p.2 then p.1 else ident)

/-- A reduction's write: the result in element 0, zeros above (R145). -/
def writeRed (o : VRd) (t : Tag) (v : Nat) (poison : Bool) (s : State) : Res := writeV o.d (BitVec.ofNat 4096 v) t poison 8 s

/-- A float reduction: elements widened to FP32, combined in the tree (R145). -/
def redFloat (o : VRd) (ident : FV) (f : FV → FV → FV) (s : State) : Res :=
  begin o.qp (srcRegs o.a ++ [.v o.d]) s fun s => useSrc o.a s fun x =>
    let g := vfmt o.fw
    if x.tag != vfmtTag o.fw then fault formatMismatch s
    else
      let es := (redElems (s.core.k o.km) g.w x.bits (g.encode 0 0 false ident)).map g.decode
      let r := (treeReduce f 9 es).headD ident
      writeRed o tF32 (toF32 r) x.poison s

def execVredFsum (o : VRd) (s : State) : Res := redFloat o (FV.zero true) (fun a b => f32 (toF32 (FV.add 0 a b))) s
def execVredFmax (o : VRd) (s : State) : Res := redFloat o (.inf true) FV.max s
def execVredFmin (o : VRd) (s : State) : Res := redFloat o (.inf false) FV.min s

/-- An integer reduction over exact integers (R145). -/
def redInt (o : VRd) (sgn : Bool) (ident : Int) (f : Int → Int → Int) (fin : Int → Nat) (s : State) : Res :=
  begin o.qp (srcRegs o.a ++ [.v o.d]) s fun s => useSrc o.a s fun x =>
    let w := viWidth o.fw
    if x.tag != viTag o.fw then fault formatMismatch s
    else
      let es := (redElems (s.core.k o.km) w x.bits (natWrap w ident)).map (elemInt sgn w)
      writeRed o tI32 (fin (es.foldl f ident)) x.poison s

def execVredIsum (o : VRs) (s : State) : Res :=
  redInt ⟨o.qp, o.km, o.d, o.a, o.fw⟩ (!o.uns) 0 (fun a b => a + b) (fun r => intResult (!o.uns) o.sat 32 r) s
def execVredImax (o : VRd) (s : State) : Res := redInt o true (loInt (viWidth o.fw) true) max (natWrap 32) s
def execVredImin (o : VRd) (s : State) : Res := redInt o true (hiInt (viWidth o.fw) true) min (natWrap 32) s
def execVredImaxz (o : VRd) (s : State) : Res := redInt o false 0 max (natWrap 32) s
def execVredIminz (o : VRd) (s : State) : Res := redInt o false (hiInt (viWidth o.fw) false) min (natWrap 32) s

/-! Moves, immediates, tags (R146 to R148). -/

/-- VMOV (R146). -/
def execVmov (o : VMv) (s : State) : Res :=
  begin o.qp (srcRegs o.a ++ [.v o.d]) s fun s => useSrc o.a s fun x => writeMasked o.km o.d x.bits x.tag x.poison 4 s

/-- An element repeated over a register. -/
def splat (w v : Nat) : VBits := packElems 4096 w (List.replicate (4096 / w) v)

/-- VBCAST (R146). -/
def execVbcast (o : VBc) (s : State) : Res :=
  begin o.qp [.x o.a, .v o.d] s fun s =>
    writeMasked o.km o.d (splat (viWidth o.w) (s.core.x o.a).toNat) o.tag (s.core.xp o.a) 4 s

/-- VIMM (R147). -/
def execVimm (o : VIm) (s : State) : Res :=
  begin o.qp [.v o.d] s fun s => writeMasked o.km o.d (splat (viWidth o.w) (imm14 o.imm).toNat) (viTag o.w) false 4 s

/-- VTAG (R148). -/
def execVtag (o : VTg) (s : State) : Res :=
  begin o.qp (srcRegs o.a ++ [.v o.d]) s fun s => useSrc o.a s fun x => writeV o.d x.bits o.tag x.poison 4 s

/-! Register-file power (R17, R149, R150). -/

/-- Whether a destination keeps its place when clusters from n up are gated. -/
def PDest.below (n : Nat) : PDest → Bool
  | .v r => vCluster r < n
  | _ => true

/-- Results on their way to clusters from n up discarded: in flight, held for the return from a handler, or pending of the bundle at issue
(R17, rule 2; R149). -/
def Pipe.gateFrom (p : Pipe) (n : Nat) : Pipe :=
  let stays := fun (f : Flight) => (f.land.pdest.map (·.below n)).getD true
  { p with flights := p.flights.filter stays, trapBuf := p.trapBuf.filter stays,
           reqs := p.reqs.map (fun r => { r with dests := r.dests.filter (·.below n) }) }

/-- Clusters from n up gated: contents zero (R17, rule 2). -/
def Core.gateFrom (c : Core) (n : Nat) : Core :=
  { c with
    r := { c.r with v := Vector.ofFn (fun i => if n ≤ i.val / 16 then VReg.zero else c.r.v.get i) },
    pipe := c.pipe.gateFrom n,
    sys := { c.sys with rfN := n, awake := c.sys.awake &&& BitVec.ofNat 4 (2 ^ n - 1), wakes := c.sys.wakes.filter (·.1 < n) } }

/-- Clusters N to n − 1 power up: zero, usable at the 24th issue cycle after this one (R17, rule 4). -/
def Core.wakeTo (c : Core) (n : Nat) : Core :=
  { c with sys := { c.sys with
      rfN := n, wakes := c.sys.wakes ++ ((List.range n).filter (c.sys.rfN ≤ ·)).map (fun v => (v, 24)) } }

/-- The registers an RFMODE would gate. -/
def gatedRegs (n : Nat) : List PDest := ((List.range 64).filter (fun i => n ≤ i / 16)).map (fun i => .v (BitVec.ofNat 6 i))

/-- RFMODE (R149). -/
def execRfmode (o : VRfm) (s : State) : Res :=
  begin o.qp [] s fun s =>
    let n := o.n.toNat
    let c := s.core
    if n > c.sys.budget then fault illegalOperand s
    else if n < c.sys.rfN then
      (if (gatedRegs n).any (fun d => (c.pendOn d).isSome) then stall s else ok s (·.gateFrom n))
    else if n > c.sys.rfN then ok s (·.wakeTo n)
    else .next s

end Sys2Proof.Machine
end

