-- ==== Sys2Proof/Machine/Fabric.lean ====
section
/-! DEFINITION. Links and paths (R399, R407, R433), the group's bindings and collectives (R408 to R412, R418, R425). -/

namespace Sys2Proof.Machine

/-! Links. -/

/-- The fabric changed. -/
def State.mapFabric (s : State) (f : Fabric → Fabric) : State := { s with fabric := f s.fabric }

/-- A link down. -/
def Fabric.linkDown (f : Fabric) (l : Nat) : Fabric :=
  { f with links := f.links.filter (· != l), downLinks := f.downLinks.filter (· != l) ++ [l], retries := assocDel f.retries l }

/-- What a change of the paths does to accesses in flight of a core (R407): a load whose package it no longer reaches fails as its form fails,
and a gated store to it is walked again before it is performed. -/
def State.losePaths (s old : State) (c : Core) : Core :=
  let gone := fun (va n : Nat) (need : Need) => match old.span c.asid va n need, s.span c.asid va n need with
    | .ok _, .error e => some e
    | _, _ => none
  let load := fun (r : Request) => match r.kind, r.again with
    | .lands _, some (.mem i va n f spec) => (match gone va n .read with
      | some (code, cause, bad) => { r with kind := (Again.mem i va n f spec).failure code cause bad }
      | none => r)
    | _, _ => r
  let gate := fun (g : GateEnt) => match g.op with
    | .store va runs => if (gone va (runs.map (·.2.length)).sum .write).isSome then { g with stale := true } else g
    | _ => g
  { c with pipe := { c.pipe with reqs := c.pipe.reqs.map load }, rg := { c.rg with gate := c.rg.gate.map gate } }

/-- The links changed, with what that does to the accesses in flight (R407). -/
def State.relink (s : State) (f : Fabric → Fabric) : State :=
  let t := s.mapFabric f
  t.mapAllCores (t.losePaths s)

/-- LINK_BRING_UP (R399): the link is up where the alias certificates authenticate; the paths that run over it are live again. -/
def execLinkBringUp (l : Nat) (ok : Bool) (s : State) : Res :=
  .next (if ok then s.mapFabric (fun f =>
      { f with links := f.links.filter (· != l) ++ [l], downLinks := f.downLinks.filter (· != l),
               lost := f.lost.filter (fun p => !(Config.pathVia l p)), retries := assocDel f.retries l })
    else s.relink (·.linkDown l))

/-- LINK_AUTH_FAIL (R399): the flit is discarded, the link taken down. -/
def execLinkAuthFail (l : Nat) (s : State) : Res := .next (s.relink (·.linkDown l))

/-- LINK_PATH_LOST (R407): no live path reaches a package. -/
def execLinkPathLost (pkg : Nat) (s : State) : Res :=
  .next (s.relink (fun f => if f.lost.contains pkg then f else { f with lost := f.lost ++ [pkg] }))

/-! Bindings (R408). -/

/-- A collective ended in its channel with a status (R410). -/
def State.endColl (s : State) (c : Coll) (status : Nat) : State :=
  (s.mapFabric (fun f => { f with colls := f.colls.filter (·.ch != c.ch) })).finishColl c status

/-- The collectives of channels that their contexts are bound to no longer ended (R410). -/
def State.endUnbound (s : State) : State :=
  (s.fabric.colls.filter (fun c => !(s.fabric.bindings.any (fun b => b.ch == c.ch && b.asid == c.asid)))).foldl (·.endColl · 0x23) s

/-- GROUP_BINDING (R406, R408): this package's number, its group, the context bound on a channel (none where the ASID is zero);
system software has mapped the port for that context (R409). The lowest number leads; a new group's ceilings stand at 90, and what bound the package to
another group is gone, since a package belongs to at most one. -/
def execGroupBinding (pkg group ch asid : Nat) (members ranks : List Nat) (s : State) : Res :=
  let b : Binding := ⟨ch, asid, group, members, ranks, false⟩
  let same := s.lintel.group == group && s.fabric.pkg == pkg && members.all (fun m => s.lintel.members.any (·.1 == m))
  let ceil := fun (m : Nat) => if m == pkg then s.lintel.own else 90
  let lintel := if same then s.lintel else
    { s.lintel with group := group, leader := (members.min?).getD pkg, members := members.map (fun m => (m, ceil m)), notices := [],
                    changes := [], heard := members.map (fun m => (m, s.refTime)), silent := [], g := s.lintel.own, applied := s.lintel.own }
  let t := s.mapFabric (fun f => { f with
    pkg := pkg,
    bindings := f.bindings.filter (fun b => b.ch != ch && b.group == group) ++ (if asid == 0 then [] else [b]),
    ports := if asid == 0 || f.ports.any (·.1 == asid) then f.ports else f.ports ++ [(asid, Config.portPage asid)] })
  .next ({ t with lintel := lintel } : State).endUnbound

/-! Collectives (R409 to R412). -/

/-- COLLECTIVE_SUBMIT (R409, R410): the 64 bytes that a COPY of the core in focus has landed in channel ch of the port; the copy engine submits
the same way (Run.submit). -/
def execCollectiveSubmit (asid ch : Nat) (desc : List Word) (s : State) : Res :=
  if ch ≥ 64 then .next s else .next (s.submitColl ⟨ch, asid, desc, s.core.id, s.flagUnit asid s.core.id desc⟩)

/-- The bytes each participant's source and destination have (R412). -/
def cSrcLen (d : List Word) (p : Nat) : Nat := (if cOp d == 2 then p else if cOp d == 4 then 0 else 1) * cCount d * cSize (cType d)
def cDstLen (d : List Word) (p : Nat) : Nat := (if cOp d == 1 then p else if cOp d == 4 then 0 else 1) * cCount d * cSize (cType d)

/-- Whether a descriptor that keeps R409 is COLL_INVALID among p participants for rank r (R412). -/
def collRanksBad (d : List Word) (p r : Nat) : Bool :=
  let src := (cSrc d, cSrcLen d p)
  let dst := (cDst d, cDstLen d p)
  let inPlace := ((cOp d == 0 || cOp d == 3) && cSrc d == cDst d) || (cOp d == 1 && cSrc d == cDst d + r * cCount d * cSize (cType d))
  (cOp d == 3 && cRoot d ≥ p) || (cOp d == 4 && (cSrc d != 0 || cDst d != 0 || cCount d != 0)) ||
    (cOp d != 4 && (cOp d != 3 || r == cRoot d) && overlap src dst && !inPlace)

/-- The elements of a run of bytes, each as an unsigned number. -/
def elemsIn (e : Nat) (bs : List Byte) : List Nat := (List.range (bs.length / e)).map (fun i => natOfBytes ((bs.drop (e * i)).take e))

/-- One element of a reduction over the ranks in ascending order (R411, R145). -/
def reduceElem (ty red : Nat) (xs : List Nat) : Nat :=
  if ty ≤ 1 then
    let w := 8 * cSize ty
    match red with
    | 0 => natWrap w (xs.map (sNat w)).sum
    | 1 => natWrap w (((xs.map (sNat w)).min?).getD 0)
    | _ => natWrap w (((xs.map (sNat w)).max?).getD 0)
  else
    let f := if ty == 2 then Fmt.fp32 else Fmt.bf16
    let depth := bitLen (xs.length - 1)
    let ident : FV := match red with
      | 0 => .fin true 0 0
      | 1 => .inf false
      | _ => .inf true
    let op : FV → FV → FV := match red with
      | 0 => fun a b => f32 (toF32 (FV.add 0 a b))
      | 1 => FV.min
      | _ => FV.max
    let es := xs.map f.decode ++ List.replicate (2 ^ depth - xs.length) ident
    f.encode 0 0 false ((treeReduce op depth es).headD ident)

/-- The reduction of every rank's source (R411). -/
def reduceRanks (d : List Word) (srcs : List (List Byte)) : List Byte :=
  let e := cSize (cType d)
  let cols := srcs.map (elemsIn e)
  (List.range ((cols.headD []).length)).flatMap (fun i => bytesOfNat (reduceElem (cType d) (cRed d) (cols.map (fun c => c.getD i 0))) e)

/-- What a participant of rank r receives (R412); srcs by rank. -/
def collResult (d : List Word) (r : Nat) (srcs : List (List Byte)) : List Byte :=
  let n := cCount d * cSize (cType d)
  match cOp d with
  | 0 => reduceRanks d srcs
  | 1 => srcs.flatten
  | 2 => ((reduceRanks d srcs).drop (r * n)).take n
  | 3 => srcs.getD (cRoot d) []
  | _ => []

/-- The sources of every rank, own at its place; none where one that counts could not be read (R410, R412). -/
def collSrcs (d : List Word) (p r : Nat) (own : Option (List Byte)) (peers : List CollPeer) : Option (List (List Byte)) :=
  (List.range p).mapM (fun i =>
    if cOp d == 4 || (cOp d == 3 && i != cRoot d) then some []
    else if i == r then own
    else (peers.find? (·.rank == i)).bind (·.src))

/-- Whether two participants' descriptors disagree (R410): in OP, RED, TYPE, COUNT or ROOT. -/
def collDiffers (d e : List Word) : Bool :=
  cOp d != cOp e || cRed d != cRed e || cType d != cType e || cCount d != cCount e || cRoot d != cRoot e

/-- COLLECTIVE_COMPLETE (R410, R412): the engines have agreed; what the other ranks bring stands in peers, each matched by its SEQ. -/
def execCollectiveComplete (ch : Nat) (peers : List CollPeer) (s : State) : Res :=
  match s.fabric.colls.find? (·.ch == ch), s.fabric.bindings.find? (·.ch == ch) with
  | some c, some b =>
    let p := b.ranks.length
    let r := (b.ranks.filter (· < s.fabric.pkg)).length
    let d := c.desc
    let others := (List.range p).filter (· != r)
    let peers := peers.filter (fun x => cSeq x.desc == cSeq d)
    if !(others.all (fun i => peers.any (·.rank == i))) then .next s
    else if collRanksBad d p r || peers.any (fun x => collRanksBad x.desc p x.rank) then .next (s.endColl c 0x23)
    else if peers.any (fun x => collDiffers d x.desc) then .next (s.endColl c 0x22)
    else
      let own := if cOp d == 4 then some [] else s.readVa c.asid (cSrc d) (cSrcLen d p)
      match collSrcs d p r own peers with
      | none => .next (s.endColl c 0x24)
      | some srcs =>
        let out := collResult d r srcs
        let status := if peers.all (·.dstOk) then 0 else 0x24
        if out.isEmpty then .next (s.endColl c status)
        else match s.span c.asid (cDst d) out.length .write with
          | .error _ => .next (s.endColl c 0x24)
          | .ok rs => .next ((s.storeRuns c.asid (cDst d) (layRuns rs out)).endColl c status)
  | _, _ => .next s

/-- MEMBER_WITHDRAWN (R425): a participant of channel ch elsewhere was withdrawn: the collective there ends with that status, and so does one
submitted later. -/
def execMemberWithdrawn (ch : Nat) (s : State) : Res :=
  let s := s.mapFabric (fun f => { f with bindings := f.bindings.map (fun b => if b.ch == ch then { b with withdrawn := true } else b) })
  .next (((s.fabric.colls.find? (·.ch == ch)).map (fun c => s.endColl c 0x21)).getD s)

/-- The collectives that name a silent package ended (R418). -/
def State.silenceColls (s : State) : State := (s.fabric.colls.filter (fun c => s.namesSilent c.ch)).foldl (·.endColl · 0x20) s

end Sys2Proof.Machine
end

