-- ==== Sys2Proof/Machine/Errors.lean ====
section
/-! DEFINITION. Errors of the arrays (R433 to R436): what an uncorrectable one does, the logs, injection, CRC errors of links (R407). -/

namespace Sys2Proof.Machine

/-! Logs (R435). -/

/-- An array's log before any error. -/
def ErrLog.none (inst : Nat) : ErrLog := ⟨inst, 0, false, false, false, false, 0, 0, 0, 0⟩

/-- An array's log, and one put back. -/
def State.errLog (s : State) (inst : Nat) : ErrLog := (s.errs.find? (·.inst == inst)).getD (ErrLog.none inst)
def State.setErrLog (s : State) (e : ErrLog) : State := { s with errs := s.errs.filter (·.inst != e.inst) ++ [e] }

/-- ARM of an injection register (R436). -/
def ErrLog.armed (e : ErrLog) : Bool := bitAt e.injReg 16

/-- An error logged (R435, R436): on an armed array it is the injected flip that a read has found, and ARM clears; a second error replaces
the record only where it is uncorrectable and the record is not; INJ stays for a further error of the same word. -/
def ErrLog.log (e : ErrLog) (addr : Word) (asid synd : BitVec 16) (ue : Bool) : ErrLog :=
  let mine := e.armed
  let e := { e with injReg := if mine then putField e.injReg 16 0#1 else e.injReg }
  let stays := e.valid && e.inj && e.addr == addr
  if !e.valid then { e with count := 1, inj := mine, ovf := false, ue := ue, valid := true, addr := addr, asid := asid, synd := synd }
  else
    let n := min (e.count + 1) (2 ^ 32 - 1)
    if ue && !e.ue then { e with count := n, ovf := true, ue := true, inj := mine || stays, addr := addr, asid := asid, synd := synd }
    else { e with count := n, ovf := true, inj := e.inj || (mine && e.addr == addr) }

/-- ERR_STAT, ERR_ADDR, ERR_INFO and ERR_INJ as system software reads them (R435, R436). -/
def ErrLog.words (e : ErrLog) : List Word :=
  [BitVec.ofNat 64 (e.count * 2 ^ 32 + (if e.inj then 8 else 0) + (if e.ovf then 4 else 0) + (if e.ue then 2 else 0) +
      (if e.valid then 1 else 0)), e.addr, e.asid ++ 0#32 ++ e.synd, e.injReg]

/-- ERR_STAT_CLEAR (R435): 1 written to VALID. -/
def execErrStatClear (inst : Nat) (s : State) : Res :=
  .next (s.setErrLog { ErrLog.none inst with injReg := (s.errLog inst).injReg })

/-- ERR_INJ_WRITE (R436): bits above ARM read zero. -/
def execErrInjWrite (inst : Nat) (v : Word) (s : State) : Res := .next (s.setErrLog { s.errLog inst with injReg := zext v 17 })

/-! What an uncorrectable error does (R433, R434). -/

/-- A line marked poisoned. -/
def markLine (l : List Nat) (a : Nat) : List Nat := if l.contains (a / 64) then l else l ++ [a / 64]

/-- A register poisoned, by the number the log gives: an x register's, or 64 more than a v register's. A predicate or a mask has no poison
bit. -/
def Regs.poisonReg (r : Regs) (n : Nat) : Regs :=
  if n < 64 then
    let i : RegNo := BitVec.ofNat 6 n
    r.setX i { r.x.get i.toFin with poison := true }
  else if n < 128 then
    let i : RegNo := BitVec.ofNat 6 (n - 64)
    r.setV i { r.v.get i.toFin with poison := true }
  else r

/-- The array's loss, by class and unit. Soft errors of parity arrays lose nothing: the entry is fetched again. -/
def State.damage (s : State) (cls unit : Nat) (addr : Word) (ue : Bool) : State :=
  let a := addr.toNat
  match cls, ue with
  | 0, true => s.modCore unit (fun c => { c with mem := { c.mem with poisoned := markLine c.mem.poisoned a } })
  | 1, true => s.modCore unit (fun c => { c with r := c.r.poisonReg a })
  | 2, true => s.modCore unit (fun c => c.setTile a { c.tile a with poison := true })
  | 3, _ => s.modCore unit (fun c => { c with mem := { c.mem with tlb := c.mem.tlb.filter (fun t => !(t.pa ≤ a && a < t.pa + pageBytes t.size)) } })
  | 4, true => { s with poisoned := markLine s.poisoned a }
  | 5, true => { s with poisoned := markLine s.poisoned a }
  | 6, true => { s with poisoned := markLine s.poisoned a }
  | 7, true => s.relink (·.linkDown unit)
  | _, _ => s

/-- ERROR_DETECTED (R433, R435): of array instance inst. -/
def execErrorDetected (inst : Nat) (addr : Word) (asid synd : BitVec 16) (ue : Bool) (s : State) : Res :=
  .next ((s.damage (inst / 1024) (inst % 1024) addr ue).setErrLog ((s.errLog inst).log addr asid synd ue))

/-- LINK_CRC_ERROR (R433, R407): a flit of link l fails its check; after 8 retries the link is taken down. -/
def execLinkCrcError (l : Nat) (s : State) : Res :=
  let n := (lookup s.fabric.retries l).getD 0
  let down := decide (n ≥ 8)
  let s := if down then s.relink (·.linkDown l) else s.mapFabric (fun f => { f with retries := assocSet f.retries l (n + 1) })
  .next (s.setErrLog ((s.errLog (7 * 1024 + l)).log 0 0 0 down))

end Sys2Proof.Machine
end

