-- ==== Sys2Proof/Machine/Health.lean ====
section
/-! DEFINITION. The power states of the clusters (R437 to R439): requests as system software writes them, and the states reached. -/

namespace Sys2Proof.Machine

/-- A request on cluster k (R437, R438). -/
def State.clRequest (s : State) (k v : Nat) : State := if k ≥ 56 then s else s.setCluster k ((s.cluster k).request v)

/-- CL_REQ_RUN, CL_REQ_QUIESCED, CL_REQ_SAVED, CL_REQ_GATED (R438): REQ 0 to 3 written. -/
def execClReqRun (k : Nat) (s : State) : Res := .next (s.clRequest k 0)
def execClReqQuiesced (k : Nat) (s : State) : Res := .next (s.clRequest k 1)
def execClReqSaved (k : Nat) (s : State) : Res := .next (s.clRequest k 2)
def execClReqGated (k : Nat) (s : State) : Res := .next (s.clRequest k 3)

/-- CL_WAKE (R439). -/
def execClWake (k : Nat) (s : State) : Res := .next (if k ≥ 56 then s else s.clWakeWrite k)

/-- CL_START (R437, R118). -/
def execClStart (k : Nat) (v : Word) (s : State) : Res := .next (if k ≥ 56 then s else s.clStartWrite k v)

/-- The cores of a cluster. -/
def clCores (k : Nat) : List Nat := (List.range 16).map (16 * k + ·)

/-- Every unit of the cluster pre-empted, as far as there is room (R323, R438). -/
def State.quiesce (s : State) (k : Nat) : State :=
  (clCores k).foldl (fun s n => match execPreempt n s with
    | .next t => t
    | _ => s) s

/-- The base values of a cluster's cores copied into the retention latches; the phasers keep theirs in the model's phaser sets. -/
def State.retain (s : State) (k : Nat) : State :=
  s.setCluster k { s.cluster k with saved := (clCores k).map (fun n => ((s.coreOf n).sys.limitBase, (s.coreOf n).sys.slopeBase)) }

/-- A core whose rail is lowered: what it held is gone; its requests are numbered on. -/
def Core.gated (c : Core) : Core := { Core.reset c.id with pipe := ⟨[], [], [], c.pipe.nextReq, 0⟩ }

/-- The cluster's cores without their contents. -/
def State.gate (s : State) (k : Nat) : State := (clCores k).foldl (fun s n => (s.modCore n Core.gated).dropBedTags n) s

/-- A base value put back. -/
def Core.relimit (b : Nat × Nat) (c : Core) : Core :=
  { c with sys := { c.sys with limitBase := b.1, slopeBase := b.2, limit := b.1, slope := b.2 } }

/-- The latches restored; beds and tiles stand cleared (R438). -/
def State.restoreLatches (s : State) (k : Nat) : State :=
  let s := ((clCores k).zip (s.cluster k).saved).foldl (fun s e => s.modCore e.1 (Core.relimit e.2)) s
  s.setCluster k { s.cluster k with saved := [] }

/-- CL_STATE_REACHED (R438): cluster k wholly reaches the state it moves to; QUIESCED only once no unit is left on it. -/
def execClStateReached (k : Nat) (s : State) : Res :=
  let reach := fun (s : State) => s.setCluster k (s.cluster k).reached
  match (s.cluster k).target with
  | none => .next s
  | some 0 => .next (reach (s.restoreLatches k))
  | some 1 =>
    let t := s.quiesce k
    .next (if (clCores k).all (fun n => (t.coreOf n).unit.isNone) then reach t else t)
  | some 2 => .next (reach (s.retain k))
  | some _ => .next (reach (s.gate k))

end Sys2Proof.Machine
end

