-- ==== Sys2Proof/Machine/Lintel.lean ====
section
/-! DEFINITION. The lintel (R413 to R419): ceilings, notices and their times, epochs, heartbeats, silence, emergencies. Times are reference
time in nanoseconds; a frequency is its code, 20 to 90. -/

namespace Sys2Proof.Machine

/-- The lintel changed. -/
def State.mapLintel (s : State) (f : Lintel → Lintel) : State := { s with lintel := f s.lintel }

/-- 50 µs, 100 µs, 10 µs and 1 ms. -/
def noticeLead : Nat := 50000
def silenceBound : Nat := 100000
def heartbeatGap : Nat := 10000
def epochLength : Nat := 1000000

/-- Whether a frequency code is one (R413). -/
def freqOk (f : Nat) : Bool := decide (20 ≤ f) && decide (f ≤ 90)

/-- Whether a package is a live member. -/
def Lintel.has (l : Lintel) (p : Nat) : Bool := l.members.any (·.1 == p)

/-! Ceilings in force (R413, R414). -/

/-- Notices without those that a later one of the same package, itself in force at t, has replaced (R414). -/
def standing (t : Nat) : List Notice → List Notice
  | [] => []
  | n :: ns => if ns.any (fun m => m.pkg == n.pkg && m.t ≤ t) then standing t ns else n :: standing t ns

/-- A member's ceiling at t: that of its join or last raise, or of its notice in force where that is lower. -/
def Lintel.ceiling (l : Lintel) (t : Nat) (m : Nat × Nat) : Nat :=
  ((l.notices.filter (fun n => n.pkg == m.1 && n.t ≤ t)).map (·.ceiling)).foldl min m.2

/-- What stands at t (R413, R414): G, the minimum of the live members' ceilings, and the code in force, the minimum of G and the package's own
limit; outside a group the package runs at its own limit (R416). -/
def Lintel.settle (l : Lintel) (me t : Nat) : Lintel :=
  let l := { l with notices := standing t l.notices }
  let g := if l.has me then ((l.members.map (l.ceiling t)).min?).getD 90 else 90
  { l with g := g, applied := min g l.own }

/-- Time passes from one moment to another: a notice of this package's that falls due takes its limit down, and what stands then stands. -/
def Lintel.pass (l : Lintel) (me old t : Nat) : Lintel :=
  let mine := (standing t l.notices).filter (fun n => n.pkg == me && old < n.t && n.t ≤ t)
  ({ l with own := ((mine.getLast?).map (·.ceiling)).getD l.own } : Lintel).settle me t

/-- Something has come from a package (R416). -/
def Lintel.hears (l : Lintel) (p t : Nat) : Lintel := if l.has p then { l with heard := assocSet l.heard p t } else l

/-- The package outside its group: it runs at its own limit (R416); what it knows of the others stays for a new join. -/
def Lintel.alone (l : Lintel) (me t : Nat) : Lintel :=
  ({ l with members := l.members.filter (·.1 != me), leader := 0 } : Lintel).settle me t

/-! Epochs (R415, R418). -/

/-- One change of an epoch record, at the boundary t: a raise lifts the member's ceiling above its notices that were sent before it and are in
force; one that falls due with the record, or was sent after the raise, stands (R414, R415). -/
def Change.apply (t : Nat) (l : Lintel) (c : Change) : Lintel :=
  let past := fun (n : Notice) => n.pkg == c.pkg && n.t < t && n.sent ≤ c.at_
  match c.kind with
  | 0 => { l with members := l.members.map (fun m => if m.1 == c.pkg then (m.1, c.ceiling) else m), notices := l.notices.filter (fun n => !(past n)) }
  | 1 => { l with members := l.members.filter (·.1 != c.pkg) ++ [(c.pkg, c.ceiling)], silent := l.silent.filter (· != c.pkg),
                  heard := assocSet l.heard c.pkg c.at_, notices := l.notices.filter (fun n => !(past n)) }
  | _ => { l with members := l.members.filter (·.1 != c.pkg), notices := l.notices.filter (·.pkg != c.pkg) }

/-- The record of the boundary t: silent members no longer count, changes that reached the leader 50 µs before it do, notices due at it are
applied with it (R415, R418). -/
def Lintel.epochAt (l : Lintel) (me old t : Nat) : Lintel :=
  let was := l.has me
  let counted := fun (c : Change) => decide (c.at_ + noticeLead ≤ t)
  let out := { l with members := l.members.filter (fun m => !(l.silent.contains m.1)), changes := l.changes.filter (fun c => !(counted c)) }
  let k := ((l.changes.filter counted).foldl (Change.apply t) out).pass me old t
  if k.has me then { k with leader := ((k.members.map (·.1)).min?).getD me, epoch := k.epoch + 1 }
  else if was then { k.alone me t with epoch := k.epoch + 1 }
  else k

/-- Reference time moves on to t, over every epoch boundary on the way (R414, R415); fuel bounds the boundaries. -/
def State.passTo (t : Nat) : Nat → State → State
  | 0, s => s
  | fuel + 1, s =>
    let b := (s.refTime / epochLength + 1) * epochLength
    let me := s.fabric.pkg
    if b ≤ t then
      let was := s.lintel.has me
      let u := { s with refTime := b, lintel := s.lintel.epochAt me s.refTime b }
      State.passTo t fuel (if was || u.lintel.has me then u.arbitrate 3 me else u)
    else { s with refTime := max s.refTime t, lintel := s.lintel.pass me s.refTime (max s.refTime t) }

/-- Reference time moves on to t. -/
def State.advance (s : State) (t : Nat) : State := s.passTo t ((t - s.refTime) / epochLength + 2)

/-- EPOCH_BOUNDARY (R415, R418): the next one; its record comes from the leader. -/
def execEpochBoundary (s : State) : Res :=
  let t := s.advance ((s.refTime / epochLength + 1) * epochLength)
  .next (t.mapLintel (fun l => if l.leader == t.fabric.pkg then l else l.hears l.leader t.refTime))

/-! Notices, raises, heartbeats. -/

/-- LOWERING_NOTICE (R414): this package's, or one that reaches it; a notice of its own lies at least 50 µs ahead. One whose time has passed
counts at once. -/
def execLoweringNotice (pkg ceiling t : Nat) (s : State) : Res :=
  let mine := pkg == s.fabric.pkg
  if !(s.lintel.has pkg) || !(freqOk ceiling) || (mine && t < s.refTime + noticeLead) then .next s
  else
    let s := s.mapLintel (fun l =>
      let l := (if mine then l else l.hears pkg s.refTime)
      ({ l with notices := l.notices ++ [⟨pkg, ceiling, t, s.refTime⟩] } : Lintel).settle s.fabric.pkg s.refTime)
    .next (if mine then s else s.arbitrate 2 pkg)

/-- LOWERING_NOTICE_DUE (R414): reference time reaches the earliest T to come. -/
def execLoweringNoticeDue (s : State) : Res :=
  .next ((((s.lintel.notices.map (·.t)).filter (s.refTime < ·)).min?.map s.advance).getD s)

/-- RAISE_JOIN_LEAVE (R415): it reaches the leader now. A raise of this package lifts its own limit, which G still bounds. -/
def execRaiseJoinLeave (kind pkg ceiling : Nat) (s : State) : Res :=
  if kind > 2 || (kind != 2 && !(freqOk ceiling)) then .next s
  else .next (s.mapLintel (fun l =>
    let l := if pkg == s.fabric.pkg then l else l.hears pkg s.refTime
    let own := if kind == 0 && pkg == s.fabric.pkg then max l.own ceiling else l.own
    { l with changes := l.changes ++ [⟨kind, pkg, ceiling, s.refTime⟩], own := own, applied := min l.g own }))

/-- HEARTBEAT (R416): this package's, 10 µs after its last, or one that arrives. -/
def execHeartbeat (pkg : Nat) (s : State) : Res :=
  .next (if pkg == s.fabric.pkg then s.advance (s.refTime + heartbeatGap) else s.mapLintel (fun l => l.hears pkg s.refTime))

/-! Silence (R416, R418). -/

/-- Whether nothing has come from a package for 100 µs (R416). -/
def State.unheard (s : State) (p : Nat) : Bool := decide ((lookup s.lintel.heard p).getD 0 + silenceBound ≤ s.refTime)

/-- MEMBER_SILENT (R416, R418): the leader declares a member silent; where this package leads, it has heard nothing for 100 µs, and where it
does not, it has now heard from the leader. -/
def execMemberSilent (pkg : Nat) (s : State) : Res :=
  let l := s.lintel
  let leads := l.leader == s.fabric.pkg
  if !(l.has pkg) || l.silent.contains pkg || (leads && (pkg == s.fabric.pkg || !(s.unheard pkg))) then .next s
  else
    let s := s.mapLintel (fun l =>
      let l := if leads then l else l.hears l.leader s.refTime
      { l with silent := l.silent ++ [pkg], silenced := min (l.silenced + 1) 65535 })
    .next (s.silenceColls.arbitrate 4 pkg)

/-- The live member that follows the leader (R416). -/
def Lintel.successor (l : Lintel) : Option Nat :=
  (((l.members.map (·.1)).filter (fun m => l.leader < m && !(l.silent.contains m))).min?)

/-- LEADER_TIMEOUT (R416): nothing from the leader for 100 µs. -/
def execLeaderTimeout (s : State) : Res :=
  let l := s.lintel
  if !(l.has s.fabric.pkg) || l.leader == s.fabric.pkg || !(s.unheard l.leader) then .next s
  else match l.successor with
    | none => .next s
    | some n => .next (s.mapLintel (fun l => { l with leader := n }))

/-- MEMBER_ISOLATED (R416, R418): this package hears no leader and no successor. -/
def execMemberIsolated (s : State) : Res :=
  let l := s.lintel
  let me := s.fabric.pkg
  let quiet := fun (n : Nat) => n != me && s.unheard n
  if !(l.has me) || !(quiet l.leader) || !((l.successor.map quiet).getD true) then .next s
  else .next ((s.mapLintel (fun l => { l.alone me s.refTime with silent := l.silent.filter (· != me) ++ [me] })).silenceColls.arbitrate 4 me)

/-! Emergencies (R417). -/

/-- A notice whose time is now (R417): it replaces every earlier one of its package. -/
def Lintel.urgent (l : Lintel) (me pkg f t : Nat) : Lintel :=
  ({ l with notices := l.notices.filter (·.pkg != pkg) ++ [⟨pkg, f, t, t⟩] } : Lintel).settle me t

/-- A limit of this package that falls at once (R417). -/
def State.emergency (s : State) (f : Nat) : State :=
  s.mapLintel (fun l => ({ l with own := min l.own f } : Lintel).urgent s.fabric.pkg s.fabric.pkg (min l.own f) s.refTime)

/-- EMERGENCY_LIMIT (R417). -/
def execEmergencyLimit (f : Nat) (s : State) : Res := .next (if freqOk f then s.emergency f else s)

/-- URGENT_NOTICE (R417): another member's arrives: applied, recorded as a breach. -/
def execUrgentNotice (pkg f : Nat) (s : State) : Res :=
  if !(s.lintel.has pkg) || pkg == s.fabric.pkg || !(freqOk f) then .next s
  else
    let s := s.mapLintel (fun l =>
      { (l.hears pkg s.refTime).urgent s.fabric.pkg pkg f s.refTime with breach := min (l.breach + 1) 65535 })
    .next ((s.arbitrate 2 pkg).arbitrate 5 pkg)

/-! The registers (R419). -/

/-- LINTEL_STATE and LINTEL_LOG as system software reads them; outside a group there is no leader and no live member. -/
def State.lintelState (s : State) : Word :=
  let l := s.lintel
  let live := if l.has s.fabric.pkg then (l.members.filter (fun m => !(l.silent.contains m.1))).length else 0
  BitVec.ofNat 64 (l.group % 65536 * 2 ^ 48 + l.leader % 512 * 2 ^ 39 + live * 2 ^ 29 + l.applied * 2 ^ 14 + l.g * 2 ^ 7 + l.own)
def State.lintelLog (s : State) : Word := BitVec.ofNat 64 (s.lintel.epoch.toNat * 2 ^ 32 + s.lintel.breach * 65536 + s.lintel.silenced)

end Sys2Proof.Machine
end

