-- ==== Sys2Proof/Machine/Marks.lean ====
section
/-! DEFINITION. A core between bundles: restart marks (R29, R32), landings and arrivals (R18, R21), a waking cluster (R17), exceptions that
arrive as events (R33, R343), and page migration (R292). -/

namespace Sys2Proof.Machine

/-! Restart marks. -/

/-- The shadow of the core (R29, step 3). -/
def Core.shadow (c : Core) : Shadow :=
  { r := c.r, seqr := c.seqr, pc := c.ctl.pc, dly := c.ctl.dly, cont := c.ctl.cont, after := c.ctl.after,
    stochCtr := c.sys.ctr, rfN := c.sys.rfN, awake := c.sys.awake, wakes := c.sys.wakes, sigs := c.sig.st,
    sigPoison := c.sig.poison, changes := c.sig.changes, issued := c.ctl.issued, seq := c.pipe.seq }

/-- Every result lands, the shadow is taken, the undo log and the tile shadows begin anew, MARKV is set (R29, steps 2 to 6). -/
def Core.marked (c : Core) : Core :=
  let c := c.landAll maxCount
  { c with
    rg := { c.rg with shadow := some c.shadow, undo := [], undoCount := 0, tiles := [], since := 0 },
    sys := { c.sys with markv := true },
    ctl := { c.ctl with nextMarked := false } }

/-- The mark of the core in focus, before the slots of its bundle (R29): it waits for pending registers; a gated entry, or a load, that
fails is raised; then the shadow is taken and the gate released. -/
def State.mark (s : State) : GateRes :=
  match s.core.failedLoad with
  | some f => .fail f
  | none =>
    let s := s.freshGate
    if s.core.anyPend then .wait s
    else match s.checkEntries s.core.rg.gate with
      | .ok t => (t.mapCore Core.marked).performGate t.core.rg.gate
      | r => r

/-- Whether the bundle that comes next on a core is marked: a handler's are not (R29, R32, R343). -/
def Core.marks (c : Core) (b : Bundle) : Bool := !c.sys.intrap && (b.rm || c.ctl.nextMarked)

/-- RESTART_MARK (R29): the bundle core c issues next is marked. -/
def execRestartMark (c : Nat) (s : State) : Res :=
  let s := s.focus c
  match s.nextBundle s.core with
  | .error _ => .next s
  | .ok w =>
    if !(s.runs c) || !(s.core.marks (decodeBundle w)) then .next s
    else match s.mark with
      | .ok t => .next t
      | .wait t => .next t
      | .fail f => .next (enterFault f s)

/-! Results. -/

/-- RESULT_LANDING (R18): the results core c's next bundle may read land. -/
def execResultLanding (c : Nat) (s : State) : Res := .next (s.modCore c Core.land)

/-- Whether a request's result may arrive: it holds a value, its bundle has issued, and no handle waits for its walk (R21). -/
def Core.arrivable (c : Core) (r : Request) : Bool :=
  r.seq < c.pipe.seq && r.dests.all (fun d => match d with
    | .h _ => false
    | _ => true) && (match r.kind with
    | .lands _ => true
    | _ => false)

/-- RESULT_ARRIVAL (R21): request n of core c. -/
def execResultArrival (c n : Nat) (s : State) : Res :=
  .next (s.modCore c (fun c =>
    match c.pipe.reqs.find? (fun r => r.num == n && c.arrivable r) with
    | some r => match r.kind with
      | .lands ls => c.arrive r ls
      | _ => c
    | none => c))

/-- CLUSTER_WAKE_DONE (R17, rule 4): vector cluster v of core c, its issue cycles over, is usable. -/
def Core.wakeDone (v : Nat) (c : Core) : Core :=
  if c.sys.wakes.any (fun e => e.1 == v && e.2 == 0) then
    { c with sys := { c.sys with wakes := c.sys.wakes.filter (fun e => !(e.1 == v && e.2 == 0)),
                                 awake := c.sys.awake ||| BitVec.ofNat 4 (2 ^ v) } }
  else c
def execClusterWakeDone (c v : Nat) (s : State) : Res := .next (s.modCore c (Core.wakeDone v))

/-! Exceptions. -/

/-- Whether a core runs something an exception can meet. -/
def Core.occupied (c : Core) : Bool := c.unit.isSome || c.ctl.firmware

/-- ROLLBACK_FAULT (R33, R342): core c finds one. -/
def execRollbackFault (c : Nat) (f : FaultRec) (s : State) : Res :=
  let s := s.focus c
  .next (if s.core.occupied then enterFault (asRollback f) s else s)

/-- TRAP_ENTRY (R343): core c meets a precise fault. -/
def execTrapEntry (c : Nat) (f : FaultRec) (s : State) : Res :=
  let s := s.focus c
  .next (if s.core.occupied then enterFault { f with rb := false } s else s)

/-! Page migration (R292). -/

/-- A physical address as a move of n bytes leaves it. -/
def movePa (old new n pa : Nat) : Nat := if old ≤ pa && pa < old + n then pa - old + new else pa

/-- The table entries below a table of a level, leaves with their addresses (R327, R328). -/
def leavesBelow (m : Memory) : Nat → Nat → List (Nat × Nat)
  | 0, _ => []
  | lv + 1, tbl => (List.range (if lv == 4 then 255 else 512)).flatMap (fun i =>
      let e := m.readNat (tbl + 8 * i) 8
      if entReserved e || !(entBit e 0) then []
      else if entBit e 1 then [(tbl + 8 * i, e)]
      else leavesBelow m lv (entAddr e))

/-- A run of bytes copied to another place that it does not overlap. -/
def Memory.copyTo (m : Memory) (old new n : Nat) : Memory :=
  m.filter (fun c => c.1 < new) ++ (m.filter (fun c => old ≤ c.1 && c.1 < old + n)).map (fun c => (c.1 - old + new, c.2)) ++
    m.filter (fun c => new + n ≤ c.1)

/-- A gated store, a buffered write and a deferred action whose page has moved. -/
def GateEnt.move (f : Nat → Nat) (g : GateEnt) : GateEnt :=
  match g.op with
  | .store va runs => { g with op := .store va (runs.map (fun r => (f r.1, r.2))) }
  | _ => g
def ProvWrite.move (f : Nat → Nat) (w : ProvWrite) : ProvWrite :=
  match w with
  | .bytes va pa b => .bytes va (f pa) b
  | .accw va pa op w64 a => .accw va (f pa) op w64 a
  | w => w
def Deferred.move (f : Nat → Nat) (d : Deferred) : Deferred :=
  match d with
  | .shape final cell pa v => .shape final cell (f pa) v
  | d => d

/-- A core whose context's page has moved: its gate, its ATTN's mapping, its handles and TLB entries (R292, R330). -/
def Core.migrate (asid old new n : Nat) (c : Core) : Core :=
  let f := movePa old new n
  let hit := fun (pa size : Nat) => decide (pa < old + n) && decide (old < pa + pageBytes size)
  let stale := fun (h : Handle) => if h.st == .valid && hit h.pa h.size then { h with st := .stale, code := 0, cause := 0 } else h
  let fl := fun (l : Flight) => match l.land with
    | .h d h => { l with land := .h d (stale h) }
    | _ => l
  let c := { c with mem := { c.mem with tlb := c.mem.tlb.filter (fun e => !(e.asid == asid && hit e.pa e.size)) } }
  if c.asid == asid then
    { c with
      r := { c.r with h := c.r.h.map stale },
      pipe := { c.pipe with flights := c.pipe.flights.map fl, trapBuf := c.pipe.trapBuf.map fl },
      rg := { c.rg with gate := c.rg.gate.map (·.move f) },
      mx := { c.mx with queue := c.mx.queue.map (fun e => match e.op with
        | .attn o => { e with op := .attn { o with maps := o.maps.map (fun l => l.map (fun m => (m.1, m.2.1, f m.2.2))) } }
        | _ => e) } }
  else c

/-- The page at va of a context moves to pa: tables, bytes, tags, poison marks, and all that holds its physical address. -/
def State.migrate (s : State) (x : Ctx) (p : Page) (pa : Nat) : State :=
  let n := pageBytes p.size
  let f := movePa p.pa pa n
  let ents := (leavesBelow s.mem 5 x.root).filter (fun e => p.pa ≤ entAddr e.2 && entAddr e.2 < p.pa + n)
  let mem := ents.foldl (fun m e => m.write e.1 (bytesOfNat (e.2 - entAddr e.2 + f (entAddr e.2)) 8)) (s.mem.copyTo p.pa pa n)
  let away := fun (l : Nat) => !(pa / 64 ≤ l && l < (pa + n) / 64)
  let line := fun (l : Nat) => movePa (p.pa / 64) (pa / 64) (n / 64) l
  let s := s.mapAllCores (Core.migrate x.asid p.pa pa n)
  { s with
    mem := mem,
    sealed := ((s.sealed.filter (fun e => away e.1)).map (fun e => (line e.1, e.2))).foldl (fun l e => assocSet l e.1 e.2) [],
    poisoned := (s.poisoned.filter away).map line,
    tags := ((s.tags.filter (fun e => away e.1)).map (fun e => (line e.1, e.2))),
    disp := { s.disp with
      shapes := s.disp.shapes.map (fun m => if m.asid == x.asid then { m with pa := f m.pa } else m),
      launches := s.disp.launches.map (fun l => if l.asid == x.asid then
        { l with prov := l.prov.map (fun e => { e with write := e.write.move f }), defer_ := l.defer_.map (fun e => { e with act := e.act.move f }) }
        else l) } }

/-- PAGE_MIGRATION (R292): nothing moves where no page is mapped at va, or where pa is no place for one. -/
def execPageMigration (asid : Nat) (va : Word) (pa : Nat) (s : State) : Res :=
  match s.ctx asid, s.walkAny asid va.toNat with
  | some x, .page p =>
    let n := pageBytes p.size
    if pa % n != 0 || pa + n > 2 ^ 51 || p.pa ≥ 2 ^ 51 || (pa < p.pa + n && p.pa < pa + n) then .next s else .next (s.migrate x p pa)
  | _, _ => .next s

end Sys2Proof.Machine
end

