-- ==== Sys2Proof/Machine/Power.lean ====
section
/-! DEFINITION. Current limits, freezes, ballast (R41, R42, R426 to R428), the power ring (R429), voltage trim (R430), watchdogs (R431,
R432). -/

namespace Sys2Proof.Machine

/-! CUR_LIMIT (R426). -/

/-- CUR_LIMIT_BASE_SET: the plinth sets a core's base value; a value outside the map writes nothing. -/
def execCurLimitBaseSet (c : Nat) (v : Word) (s : State) : Res :=
  let lim := (field v 0 13).toNat
  let slope := (field v 16 13).toNat
  if field v 29 35 != 0 || field v 13 3 != 0 || lim > 5824 || slope > 5824 then .next s
  else .next (s.modCore c (fun c => { c with sys := { c.sys with limitBase := max 91 lim, slopeBase := slope } }))

/-! Freezes and ballast (R41, R42, R427). -/

/-- A freeze cycle: counted, and of weight zero. -/
def Core.freeze (cycle : Nat) (c : Core) : Core :=
  { c with sys := { c.sys with freeze := c.sys.freeze + 1 }, pw := c.pw.forget cycle }

/-- FREEZE_CYCLE (R41, R42): core c, and with it every member of its gang, does not issue in this cycle. -/
def execFreezeCycle (c : Nat) (s : State) : Res :=
  let team := (s.coreOf c).team
  if team.any s.wouldFreeze then
    .next (team.foldl (fun s n => s.modCore n (Core.freeze s.cycle)) { s with turn := s.turn.filter (fun n => !(team.contains n)) })
  else .next s

/-- A ballast cycle: weight 60 more in this cycle, counted. -/
def Core.ballast (cycle : Nat) (c : Core) : Core :=
  let hist := match c.pw.hist with
    | (n, w, b) :: rest => if n == cycle then (n, w + 60, b + 60) :: rest else (cycle, 60, 60) :: (n, w, b) :: rest
    | [] => [(cycle, 60, 60)]
  { c with pw := { c.pw with hist := hist }, sys := { c.sys with ballast := c.sys.ballast + 1 } }

/-- BALLAST_CYCLE (R427). -/
def execBallastCycle (c : Nat) (s : State) : Res :=
  if s.ballastDue c then .next (s.modCore c (Core.ballast s.cycle)) else .next s

/-! The ring (R428, R429). -/

/-- The dies not fenced, in ring order for a period. -/
def State.ringOrder (s : State) (p : Nat) : List Nat :=
  ((List.range 8).map (fun i => (p + i) % 8)).filter (fun d => !(s.fenced.contains d))

/-- The end of a period on a die that drew used units: DEBT, USED, CAPLIM, the over-cap episode (R428, R429). -/
def DiePower.close (d : DiePower) (used : Nat) : DiePower :=
  let overCap := decide (used > d.budget)
  { d with
    used := min used 65535, debt := min (d.debt + (used - d.budget)) 65535, overCap := overCap,
    overTicks := if overCap then d.overTicks + 100 else 0, suppressed := overCap && d.suppressed,
    caplim := max 91 (5824 * d.budget / max used 1) }

/-- A die's turn in the ring (R429): what it takes of spare. -/
def DiePower.take (d : DiePower) (demand spare : Nat) : DiePower × Nat :=
  let t := min (demand + d.debt - d.base) spare
  ({ d with taken := t, budget := d.base + t - d.debt, debt := d.debt - d.base - t }, spare - t)

/-- The ring passed through some dies. -/
def State.ring (demand : List Nat) : List Nat → Nat → State → State
  | [], _, s => s
  | d :: ds, spare, s =>
    let (x, rest) := (s.die d).take (demand.getD d 0) spare
    State.ring demand ds rest (s.modDie d (fun _ => x))

/-- POWER_RING_PERIOD (R428, R429): a period ends, with what each die drew; the next begins, with what each asks for. -/
def execPowerRingPeriod (demand used : List Nat) (s : State) : Res :=
  let p := s.power.period + 1
  let s := (s.ringOrder 0).foldl (fun s d => s.modDie d (fun x => x.close (used.getD d 0))) s
  let order := s.ringOrder p
  let spare := s.power.cap - s.power.hub - (order.map (fun d => (s.die d).base)).sum
  let s := State.ring demand order spare s
  .next { s with power := { s.power with period := p }, pticks := s.pticks + 100 }

/-- OVERCAP_BALLAST_LIMIT (R428): die d has been overCap its cap for 200 power ticks. -/
def execOvercapBallastLimit (d : Nat) (s : State) : Res :=
  let x := s.die d
  .next (if x.overCap && x.overTicks ≥ 200 then s.modDie d (fun x => { x with suppressed := true }) else s)

/-- Whether HUB and the BASEs exceed CAP (R429). -/
def Power.exceeds (p : Power) : Bool := decide (p.hub + (p.dies.map (·.base)).sum > p.cap)

/-- A write that would exceed the cap is refused (R429). -/
def State.tryPower (s : State) (p : Power) : Res := .next (if p.exceeds then s else { s with power := p })

/-- PKG_CAP_WRITE (R429). -/
def execPkgCapWrite (v : Word) (s : State) : Res :=
  s.tryPower { s.power with hub := (field v 16 16).toNat, cap := (field v 0 16).toNat }

/-- DIE_PWR_WRITE (R429): BASE alone is written. -/
def execDiePwrWrite (d : Nat) (v : Word) (s : State) : Res :=
  s.tryPower (s.modDie d (fun x => { x with base := (field v 48 16).toNat })).power

/-- PKG_CAP and DIE_PWR as system software reads them (R429). -/
def State.pkgCap (s : State) : Word := BitVec.ofNat 64 (s.power.hub * 65536 + s.power.cap)
def State.diePwr (s : State) (d : Nat) : Word :=
  let x := s.die d
  BitVec.ofNat 16 x.base ++ BitVec.ofNat 16 x.used ++ BitVec.ofNat 16 x.debt ++ BitVec.ofNat 16 x.taken

/-! Voltage (R430). -/

/-- VTRIM_WRITE (R430): the seven columns. -/
def execVtrimWrite (d : Nat) (v : Word) (s : State) : Res := .next (s.modDie d (fun x => { x with vtrim := zext v 56 }))

/-- VOLTAGE_LOW (R430): the die takes a lower frequency limit, the package sends an urgent notice (R417). -/
def execVoltageLow (d col f : Nat) (s : State) : Res :=
  if d ≥ 8 || col ≥ 7 || !(freqOk f) then .next s
  else .next ((s.modDie d (fun x => { x with freqLimit := min x.freqLimit f })).emergency f)

/-! Watchdogs (R431, R432). -/

/-- WDOG_CTL_WRITE (R431): EXP beyond 20 to 48 is stored as the nearer bound. -/
def execWdogCtlWrite (fn : Nat) (v : Word) (s : State) : Res :=
  .next (s.modFn fn (fun f => { f with wdogEn := bitAt v 6, wdogExp := min 48 (max 20 (field v 0 6).toNat) }))

/-- WDOG_CTL as it reads (R431). -/
def Fn.wdogCtl (f : Fn) : Word := BitVec.ofNat 64 (f.wdogExp + (if f.wdogEn then 64 else 0))

/-- Whether core n's watchdog has a report to make: enabled, at its limit, not reported in this stall (R431). -/
def State.watchdogDue (s : State) (n : Nat) : Bool :=
  let c := s.coreOf n
  c.unit.isSome && !c.pw.reported && ((s.fns.find? (·.n == s.fnOf c.asid)).map (fun f => f.wdogEn && decide (c.pw.stall ≥ 2 ^ f.wdogExp))).getD false

/-- WATCHDOG_EXPIRY (R432): the report; it waits while the function's store of fault records is full (R392). -/
def execWatchdogExpiry (c : Nat) (s : State) : Res :=
  let k := s.coreOf c
  let fn := s.fnOf k.asid
  if !(s.watchdogDue c) || s.faultsFull fn then .next s
  else
    let w := faultWords 3 0 k.asid (BitVec.ofNat 64 k.pw.stall) 0 k.ctl.pc ((k.unit.map (·.launch)).getD 0) c
    .next ((s.postFault fn w).modCore c (fun k => { k with pw := { k.pw with reported := true } }))

end Sys2Proof.Machine
end

