-- ==== Sys2Proof/Machine/Scalar.lean ====
section
/-! DEFINITION. The integer, predicate and move instructions of the S slots (R90 to R106). -/

namespace Sys2Proof.Machine

/-! The operations (R92 to R96). -/

/-- A signed value of a word compared. -/
def sMin (a b : Word) : Word := if a.slt b then a else b
def sMax (a b : Word) : Word := if a.slt b then b else a
def uMin (a b : Word) : Word := if a.ult b then a else b
def uMax (a b : Word) : Word := if a.ult b then b else a

/-- A word rotated right. -/
def rorW (a : Word) (n : Nat) : Word := a.rotateRight n

/-- The high half of a product (R94). -/
def mulHigh (a b : Word) : Word := BitVec.ofInt 64 (a.toInt * b.toInt / (2 ^ 64 : Nat))
def mulHighZ (a b : Word) : Word := BitVec.ofNat 64 (a.toNat * b.toNat / 2 ^ 64)

/-- Division with the corners of R94. -/
def divS (a b : Word) : Word := if b = 0 then BitVec.allOnes 64 else BitVec.ofInt 64 (a.toInt.tdiv b.toInt)
def divZ (a b : Word) : Word := if b = 0 then BitVec.allOnes 64 else BitVec.ofNat 64 (a.toNat / b.toNat)
def remS (a b : Word) : Word := if b = 0 then a else BitVec.ofInt 64 (a.toInt.tmod b.toInt)
def remZ (a b : Word) : Word := if b = 0 then a else BitVec.ofNat 64 (a.toNat % b.toNat)

/-- Counts (R95). -/
def clzW (a : Word) : Word := BitVec.ofNat 64 (64 - bitLen a.toNat)
def ctzW (a : Word) : Word := BitVec.ofNat 64 (((List.range 64).find? (fun i => bitAt a i)).getD 64)
def popcW (a : Word) : Word := BitVec.ofNat 64 ((List.range 64).countP (fun i => bitAt a i))
def brevW (a : Word) : Word := a.reverse
def bswapW (a : Word) : Word := wordOfBytes (bytesOf a 8).reverse
def absW (a : Word) : Word := if a.slt 0 then 0 - a else a

/-- A field deposited (R96). -/
def depW (old a : Word) (pos w : Nat) : Word :=
  let mask : Word := (BitVec.ofNat 64 (2 ^ w - 1)) <<< pos
  (old &&& ~~~mask) ||| ((a <<< pos) &&& mask)

/-! The shared forms. -/

/-- Two x sources and an x result (R91, R92). -/
def alu2 (o : SR) (lat : Nat) (f : Word → Word → Word) (s : State) : Res :=
  begin o.qp [.x o.a, .x o.b, .x o.d] s fun s =>
    writeX o.d (f (s.core.x o.a) (s.core.x o.b)) (s.core.xp o.a || s.core.xp o.b) lat s

/-- An x source and an immediate (R93). -/
def aluI (o : SI) (lat : Nat) (f : Word → Word → Word) (s : State) : Res :=
  begin o.qp [.x o.a, .x o.d] s fun s => writeX o.d (f (s.core.x o.a) (imm14 o.imm)) (s.core.xp o.a) lat s

/-- A shift by an immediate (R93). -/
def aluSh (o : SShI) (f : Word → Nat → Word) (s : State) : Res :=
  begin o.qp [.x o.a, .x o.d] s fun s => writeX o.d (f (s.core.x o.a) o.sh.toNat) (s.core.xp o.a) 1 s

/-- One x source (R95). -/
def alu1 (o : SU) (f : Word → Word) (s : State) : Res :=
  begin o.qp [.x o.a, .x o.d] s fun s => writeX o.d (f (s.core.x o.a)) (s.core.xp o.a) 1 s

/-- A compare of two values: a poisoned source raises POISON_CONSUMED (R100, R14). -/
def compare (o : SC) (poison : Bool) (c : Bool) (lat : Nat) (s : State) : Res :=
  if poison then fault poisonConsumed s else writeCompare o c lat s

/-- Two predicates combined (R105). -/
def plog (o : SP) (f : Bool → Bool → Bool) (s : State) : Res :=
  begin o.qp [] s fun s => writeP o.d (f (s.core.p o.a) (s.core.p o.b)) 1 s

/-! One meaning for each instruction. -/

def execIadd (o : SR) (s : State) : Res := alu2 o 1 (fun a b => a + b) s
def execIsub (o : SR) (s : State) : Res := alu2 o 1 (fun a b => a - b) s
def execAnd (o : SR) (s : State) : Res := alu2 o 1 (fun a b => a &&& b) s
def execOr (o : SR) (s : State) : Res := alu2 o 1 (fun a b => a ||| b) s
def execXor (o : SR) (s : State) : Res := alu2 o 1 (fun a b => a ^^^ b) s
def execAndn (o : SR) (s : State) : Res := alu2 o 1 (fun a b => a &&& ~~~b) s
def execOrn (o : SR) (s : State) : Res := alu2 o 1 (fun a b => a ||| ~~~b) s
def execShl (o : SR) (s : State) : Res := alu2 o 1 (fun a b => a <<< shiftOf b) s
def execShr (o : SR) (s : State) : Res := alu2 o 1 (fun a b => a >>> shiftOf b) s
def execSar (o : SR) (s : State) : Res := alu2 o 1 (fun a b => a.sshiftRight (shiftOf b)) s
def execRor (o : SR) (s : State) : Res := alu2 o 1 (fun a b => rorW a (shiftOf b)) s
def execImin (o : SR) (s : State) : Res := alu2 o 1 sMin s
def execImax (o : SR) (s : State) : Res := alu2 o 1 sMax s
def execIminz (o : SR) (s : State) : Res := alu2 o 1 uMin s
def execImaxz (o : SR) (s : State) : Res := alu2 o 1 uMax s

def execIaddi (o : SI) (s : State) : Res := aluI o 1 (fun a b => a + b) s
def execAndi (o : SI) (s : State) : Res := aluI o 1 (fun a b => a &&& b) s
def execOri (o : SI) (s : State) : Res := aluI o 1 (fun a b => a ||| b) s
def execXori (o : SI) (s : State) : Res := aluI o 1 (fun a b => a ^^^ b) s
def execShli (o : SShI) (s : State) : Res := aluSh o (fun a n => a <<< n) s
def execShri (o : SShI) (s : State) : Res := aluSh o (fun a n => a >>> n) s
def execSari (o : SShI) (s : State) : Res := aluSh o (fun a n => a.sshiftRight n) s
def execRori (o : SShI) (s : State) : Res := aluSh o rorW s

def execImul (o : SR) (s : State) : Res := alu2 o 3 (fun a b => a * b) s
def execImulh (o : SR) (s : State) : Res := alu2 o 3 mulHigh s
def execImulhz (o : SR) (s : State) : Res := alu2 o 3 mulHighZ s
def execIdiv (o : SR) (s : State) : Res := alu2 o 18 divS s
def execIdivz (o : SR) (s : State) : Res := alu2 o 18 divZ s
def execIrem (o : SR) (s : State) : Res := alu2 o 18 remS s
def execIremz (o : SR) (s : State) : Res := alu2 o 18 remZ s
def execImuli (o : SI) (s : State) : Res := aluI o 3 (fun a b => a * b) s

def execClz (o : SU) (s : State) : Res := alu1 o clzW s
def execCtz (o : SU) (s : State) : Res := alu1 o ctzW s
def execPopc (o : SU) (s : State) : Res := alu1 o popcW s
def execBrev (o : SU) (s : State) : Res := alu1 o brevW s
def execBswap (o : SU) (s : State) : Res := alu1 o bswapW s
def execIabs (o : SU) (s : State) : Res := alu1 o absW s
def execIneg (o : SU) (s : State) : Res := alu1 o (fun a => 0 - a) s

/-- EXTS (R96). -/
def execExts (o : SBits) (s : State) : Res :=
  begin o.qp [.x o.a, .x o.d] s fun s =>
    writeX o.d (sext (s.core.x o.a >>> o.pos.toNat) (o.wm1.toNat + 1)) (s.core.xp o.a) 1 s
/-- EXTZ (R96). -/
def execExtz (o : SBits) (s : State) : Res :=
  begin o.qp [.x o.a, .x o.d] s fun s =>
    writeX o.d (zext (s.core.x o.a >>> o.pos.toNat) (o.wm1.toNat + 1)) (s.core.xp o.a) 1 s
/-- DEP, which reads x[D] (R96). -/
def execDep (o : SBits) (s : State) : Res :=
  begin o.qp [.x o.a, .x o.d] s fun s =>
    writeX o.d (depW (s.core.x o.d) (s.core.x o.a) o.pos.toNat (o.wm1.toNat + 1)) (s.core.xp o.a || s.core.xp o.d) 1 s

/-- LEA (R97). -/
def execLea (o : SLea) (s : State) : Res :=
  begin o.qp [.x o.a, .x o.b, .x o.d] s fun s =>
    writeX o.d (s.core.x o.a + s.core.x o.b <<< o.sh.toNat) (s.core.xp o.a || s.core.xp o.b) 1 s
/-- SEL: the poison of the source it selects (R91, R97). -/
def execSel (o : SSel) (s : State) : Res :=
  begin o.qp [.x o.a, .x o.b, .x o.d] s fun s =>
    let r := s.core.xr (if s.core.p o.pn then o.a else o.b)
    writeX o.d r.val r.poison 1 s
/-- MOVI (R98). -/
def execMovi (o : SL) (s : State) : Res := begin o.qp [.x o.d] s fun s => writeX o.d (imm20 o.imm) false 1 s
/-- MOVK (R98). -/
def execMovk (o : SMovk) (s : State) : Res :=
  begin o.qp [.x o.d] s fun s => writeX o.d (putField (s.core.x o.d) (16 * o.h.toNat) o.imm) (s.core.xp o.d) 1 s

/-- The element width of VEXTR and VINS (R99). -/
def elemWidth (ew : BitVec 2) : Nat := 8 * 2 ^ ew.toNat

/-- VEXTR (R99). -/
def execVextr (o : SElem) (s : State) : Res :=
  begin o.qp [.v o.a, .x o.b, .x o.d] s fun s =>
    if s.core.xp o.b then fault poisonConsumed s
    else
      let ew := elemWidth o.ew
      let lane := (s.core.x o.b).toNat % (4096 / ew)
      let r := s.core.v o.a
      writeX o.d (BitVec.ofNat 64 ((r.bits.toNat >>> (ew * lane)) % 2 ^ ew)) r.poison 4 s
/-- VINS (R99). -/
def execVins (o : SElem) (s : State) : Res :=
  begin o.qp [.x o.a, .x o.b, .v o.d] s fun s =>
    if s.core.xp o.b then fault poisonConsumed s
    else
      let ew := elemWidth o.ew
      let lane := (s.core.x o.b).toNat % (4096 / ew)
      let r := s.core.v o.d
      let bits := putField r.bits (ew * lane) ((s.core.x o.a).setWidth ew)
      writeV o.d bits (if r.tag = tINVALID then tBITS else r.tag) (r.poison || s.core.xp o.a) 4 s

/-- ICMP (R100). -/
def execIcmp (o : SC) (s : State) : Res :=
  begin o.qp [.x o.a, .x o.b] s fun s =>
    compare o (s.core.xp o.a || s.core.xp o.b) (icond 64 o.cond (s.core.x o.a).toNat (s.core.x o.b).toNat) 1 s
/-- ICMPI: a signed immediate, or a bit number (R100). -/
def execIcmpi (o : SC) (s : State) : Res :=
  begin o.qp [.x o.a] s fun s =>
    let b := if o.cond < 6 then imm6 o.b else zextW o.b
    compare o (s.core.xp o.a) (icond 64 o.cond (s.core.x o.a).toNat b.toNat) 1 s
/-- FCMP (R104). -/
def execFcmp (o : SC) (s : State) : Res :=
  begin o.qp [.x o.a, .x o.b] s fun s =>
    compare o (s.core.xp o.a || s.core.xp o.b)
      (fcond o.cond (Fmt.fp64.decode (s.core.x o.a).toNat) (Fmt.fp64.decode (s.core.x o.b).toNat)) 4 s

def execPand (o : SP) (s : State) : Res := plog o (fun a b => a && b) s
def execPor (o : SP) (s : State) : Res := plog o (fun a b => a || b) s
def execPxor (o : SP) (s : State) : Res := plog o (fun a b => xor a b) s
def execPandn (o : SP) (s : State) : Res := plog o (fun a b => a && !b) s
/-- PNOT (R105). -/
def execPnot (o : SP1) (s : State) : Res := begin o.qp [] s fun s => writeP o.d (!(s.core.p o.a)) 1 s
/-- PGET (R106). -/
def execPget (o : SD) (s : State) : Res :=
  begin o.qp [.x o.d] s fun s => writeX o.d (zextW (s.core.r.p ||| 1#16)) false 1 s
/-- PSET (R106): p1 to p15 are written. -/
def execPset (o : SA) (s : State) : Res :=
  begin o.qp [.x o.a] s fun s =>
    if s.core.xp o.a then fault poisonConsumed s
    else ok s (fun c => (List.range 15).foldl (fun k i => k.push (.p (BitVec.ofNat 4 (i + 1)) (bitAt (c.x o.a) (i + 1))) 1) c)

end Sys2Proof.Machine
end

