-- ==== Sys2Proof/Machine/ScalarFp.lean ====
section
/-! DEFINITION. Scalar floating point (R107 to R109). -/

namespace Sys2Proof.Machine

/-- The format of a scalar float instruction (R107). -/
def sfmt (f64 : Bool) : Fmt := if f64 then Fmt.fp64 else Fmt.fp32

/-- An x register's float value: all 64 bits, or bits [31:0] (R107). -/
def Core.fx (c : Core) (f64 : Bool) (r : RegNo) : FV := (sfmt f64).decode (c.x r).toNat

/-- A float result, rounded once, the saturate bit clear (R107, R55). -/
def fpWord (f64 : Bool) (mode : Nat) (v : FV) : Word := BitVec.ofNat 64 ((sfmt f64).encode mode 0 false v)

/-- A float instruction with two sources (R107). -/
def fp2 (o : SFp) (lat : Nat) (f : Nat → FV → FV → FV) (s : State) : Res :=
  begin o.qp [.x o.a, .x o.b, .x o.d] s fun s =>
    writeX o.d (fpWord o.f64 o.rnd.toNat (f o.rnd.toNat (s.core.fx o.f64 o.a) (s.core.fx o.f64 o.b)))
      (s.core.xp o.a || s.core.xp o.b) lat s

def execFadd (o : SFp) (s : State) : Res := fp2 o 4 FV.add s
def execFsub (o : SFp) (s : State) : Res := fp2 o 4 (fun m a b => FV.add m a b.negate) s
def execFmul (o : SFp) (s : State) : Res := fp2 o 4 (fun _ a b => FV.mul a b) s
def execFdiv (o : SFp) (s : State) : Res := fp2 o 14 (fun _ a b => FV.div a b) s
def execFmin (o : SFp) (s : State) : Res := fp2 o 4 (fun _ a b => FV.min a b) s
def execFmax (o : SFp) (s : State) : Res := fp2 o 4 (fun _ a b => FV.max a b) s

/-- FSQRT (R107). -/
def execFsqrt (o : SFp1) (s : State) : Res :=
  begin o.qp [.x o.a, .x o.d] s fun s =>
    writeX o.d (fpWord o.f64 o.rnd.toNat (FV.sqrt (s.core.fx o.f64 o.a))) (s.core.xp o.a) 14 s

/-- FFMA: x[D] is the addend (R108). -/
def execFfma (o : SFp) (s : State) : Res :=
  begin o.qp [.x o.a, .x o.b, .x o.d] s fun s =>
    writeX o.d (fpWord o.f64 o.rnd.toNat (FV.fma o.rnd.toNat (s.core.fx o.f64 o.a) (s.core.fx o.f64 o.b) (s.core.fx o.f64 o.d)))
      (s.core.xp o.a || s.core.xp o.b || s.core.xp o.d) 4 s

/-- The register after an even one. -/
def oddOf (r : RegNo) : RegNo := r + 1

/-- FCVT's source as a value: FP32, FP64, INT64 or INT128, signed or not (R109). -/
def Core.cvtSource (c : Core) (o : SCvt) : FV :=
  match o.src.toNat with
  | 0 => Fmt.fp32.decode (c.x o.a).toNat
  | 1 => Fmt.fp64.decode (c.x o.a).toNat
  | 2 => FV.ofInt (intOf (!o.uns) (c.x o.a))
  | _ => FV.ofInt (intOf (!o.uns) (c.x (oddOf o.a) ++ c.x o.a))

/-- FCVT (R109): an integer result always saturates (R55); both registers of a pair land together. -/
def execFcvt (o : SCvt) (s : State) : Res :=
  let pairA := if o.src = 3 then [PDest.x (oddOf o.a)] else []
  let pairD := if o.dst = 3 then [PDest.x (oddOf o.d)] else []
  begin o.qp (pairA ++ pairD ++ [.x o.a, .x o.d]) s fun s =>
    let c := s.core
    let p := c.xp o.a || (o.src = 3 && c.xp (oddOf o.a))
    let v := c.cvtSource o
    let m := o.rnd.toNat
    match o.dst.toNat with
    | 0 => writeX o.d (fpWord false m v) p 4 s
    | 1 => writeX o.d (fpWord true m v) p 4 s
    | 2 => writeX o.d (wrapInt 64 (v.toInt m 0 (loInt 64 (!o.uns)) (hiInt 64 (!o.uns)))) p 4 s
    | _ =>
      let w : BitVec 128 := wrapInt 128 (v.toInt m 0 (loInt 128 (!o.uns)) (hiInt 128 (!o.uns)))
      ok s (fun k => (k.push (.x o.d (field w 0 64) p) 4).push (.x (oddOf o.d) (field w 64 64) p) 4)

end Sys2Proof.Machine
end

