-- ==== Sys2Proof/Machine/SysRegs.lean ====
section
/-! DEFINITION. System registers: MFS and MTS (R27, R28, R34, R66, R110 to R112, R163, R216, R240, R341, R367, R426). -/

namespace Sys2Proof.Machine

/-- CORE_ID (R28): the plinth's core reads DIE 0, CLUSTER 7, CORE 0, STAGE 0. -/
def Core.coreId (c : Core) : Word :=
  if c.id ≥ plinthId then 0x7000
  else BitVec.ofNat 64 (c.id / 112 * 2 ^ 15 + c.id % 112 / 16 * 2 ^ 12 + c.id % 16 * 2 ^ 8) + zextW c.sys.stage

/-- STATUS (R27). -/
def Sys.status (y : Sys) : Word :=
  0#56 ++ y.dly ++ boolW 1 y.replay ++ boolW 1 y.intrap ++ boolW 1 y.priv ++ boolW 1 y.markv ++ 0#1 ++ boolW 1 y.wconf

/-- RF_MODE (R16). -/
def Sys.rfMode (y : Sys) : Word := 0#52 ++ BitVec.ofNat 4 y.budget ++ y.awake ++ BitVec.ofNat 4 y.rfN

/-- CUR_LIMIT (R426). -/
def Sys.curLimit (y : Sys) : Word := BitVec.ofNat 64 (y.slope * 2 ^ 16 + y.limit)

/-- A system register as MFS reads it (R110). -/
def Core.sysRead (c : Core) (sel : BitVec 14) : Word :=
  let y := c.sys
  match sel.toNat with
  | 0 => c.coreId
  | 1 => y.status
  | 2 => y.tick
  | 3 => zextW y.tickBudget
  | 4 => y.slip
  | 8 => y.faultInfo
  | 9 => y.faultVa
  | 10 => y.trapPc
  | 11 => y.trapVec
  | 12 => y.trapTgt
  | 16 => 0xFFF
  | 17 => 0
  | 18 => y.profLo
  | 19 => y.profHi
  | 20 => y.spillBase
  | 21 => y.spillLimit
  | 22 => y.ovf
  | 23 => y.rfMode
  | 24 => y.freeze
  | 25 => y.curLimit
  | 26 => y.ballast
  | 40 => zextW y.margin
  | 41 => y.seed
  | 42 => y.ctr
  | n => if h : 32 ≤ n ∧ n ≤ 39 then zextW (y.dscale.get ⟨n - 32, by omega⟩) else 0

/-- The registers whose MTS is privileged (R110). -/
def mtsPrivileged (sel : BitVec 14) : Bool := let n := sel.toNat; (8 ≤ n && n ≤ 12) || n == 20 || n == 21 || n == 25

/-- Whether a bundle address keeps its map: bits [63:48] and [4:0] zero (R28, R341). -/
def addrOk (v : Word) : Bool := field v 48 16 == 0 && field v 0 5 == 0

/-- Whether a value keeps the register's map (R111): no reserved bit, no broken alignment, no value out of range. -/
def mtsValueOk (sel : BitVec 14) (v : Word) : Bool :=
  match sel.toNat with
  | 1 => field v 1 63 == 0
  | 3 => field v 32 32 == 0
  | 8 => field v 48 16 == 0 && field v 28 4 == 0
  | 9 => field v 56 8 == 0
  | 10 => addrOk v
  | 11 => addrOk v
  | 12 => addrOk v
  | 20 => field v 21 43 == 0 && field v 0 14 == 0
  | 21 => field v 21 43 == 0
  | 22 => field v 56 8 == 0 && field v 0 3 == 0
  | 25 => field v 29 35 == 0 && field v 13 3 == 0 && (field v 0 13).toNat ≤ 5824 && (field v 16 13).toNat ≤ 5824
  | 40 => v.toNat ≤ 0x7F800000
  | 41 => true
  | 42 => true
  | _ => field v 8 56 == 0

/-- MFS: the register as it stood at issue (R110). -/
def execMfs (o : SMfs) (s : State) : Res := begin o.qp [.x o.d] s fun s => writeX o.d (s.core.sysRead o.sel) false 1 s

/-- MTS: privilege, poison, then the value against the map (R110, R111); the write lands with scalar ALU latency. -/
def execMts (o : SMts) (s : State) : Res :=
  begin o.qp [.x o.a] s fun s =>
    if mtsPrivileged o.sel && !s.core.sys.priv then fault privilege s
    else if s.core.xp o.a then fault poisonConsumed s
    else if !(mtsValueOk o.sel (s.core.x o.a)) then fault illegalOperand s
    else ok s (·.push (.sys o.sel (s.core.x o.a)) 1)

end Sys2Proof.Machine
end

