-- ==== Sys2Proof/Machine/VConvert.lean ====
section
/-! DEFINITION. VCVT: conversions between element formats, part by part, with stochastic rounding (R54, R140 to R142). -/

namespace Sys2Proof.Machine

/-- Whether a tag names an integer format (R15). -/
def tagInt (t : Tag) : Bool := 8 ≤ t.toNat && t.toNat ≤ 11

/-- convert of R142 for an element: the random bits rb serve SR. -/
def convertElem (src dst : Tag) (us ud : Bool) (mode : Nat) (sat : Bool) (rb x : Nat) : Nat :=
  let ws := tagWidth src
  let wd := tagWidth dst
  if tagInt src && tagInt dst then
    let v : Int := if us then ((x % 2 ^ ws : Nat) : Int) else sNat ws x
    if sat then natWrap wd (satInt v (loInt wd (!ud)) (hiInt wd (!ud))) else natWrap wd v
  else
    let v : FV :=
      if tagInt src then FV.ofInt (if us then ((x % 2 ^ ws : Nat) : Int) else sNat ws x)
      else match tagFmt src with
        | some g => g.decode x
        | none => ofE8m0 x
    if tagInt dst then natWrap wd (v.toInt mode rb (loInt wd (!ud)) (hiInt wd (!ud)))
    else match tagFmt dst with
      | some g => g.encode mode rb sat v
      | none => toE8m0 mode rb v

/-- The destination elements of a VCVT of part p (R141): those of a narrowing's other parts keep their bits. -/
def convertBits (o : VCv) (src : Tag) (seed ctr : Word) (a old : VBits) : VBits :=
  let ws := tagWidth src
  let wd := tagWidth o.dst
  let n := 4096 / max ws wd
  let p := o.part.toNat
  let mode := o.rnd.toNat
  let es := (elemsOf a ws).toArray
  let conv := fun (si di : Nat) =>
    convertElem src o.dst o.us o.ud mode o.sat (if mode == 4 then srBits seed ctr di else 0) (es.getD si 0)
  if wd > ws then packElems 4096 wd ((List.range n).map (fun j => conv (p * n + j) j))
  else packElems 4096 wd (((elemsOf old wd).zip (List.range (4096 / wd))).map (fun e =>
    if p * n ≤ e.2 && e.2 < p * n + n then conv (e.2 - p * n) e.2 else e.1))

/-- STOCH_CTR after a stochastic VCVT (R54). -/
def Core.drawn (c : Core) : Core := { c with sys := { c.sys with ctr := c.sys.ctr + 1 } }

/-- VCVT (R140 to R142). -/
def execVcvt (o : VCv) (s : State) : Res :=
  begin o.qp (srcRegs o.a ++ [.v o.d]) s fun s => useSrc o.a s fun x =>
    let old := s.core.v o.d
    let ws := tagWidth x.tag
    let wd := tagWidth o.dst
    let narrow := ws > wd
    if x.tag == tINVALID || x.tag == tBITS then fault formatMismatch s
    else if o.us && !tagInt x.tag then fault illegalOperand s
    else if x.tag == o.dst && o.us == o.ud then fault illegalOperand s
    else if o.part.toNat ≥ max ws wd / min ws wd then fault illegalOperand s
    else if narrow && old.tag != tINVALID && old.tag != o.dst then fault formatMismatch s
    else
      let bits := convertBits o x.tag s.core.sys.seed s.core.sys.ctr x.bits old.bits
      let t := if o.rnd = 4 then s.mapCore Core.drawn else s
      writeMasked o.km o.d bits o.dst (x.poison || (narrow && old.poison)) 3 t

end Sys2Proof.Machine
end

