-- ==== Sys2Proof/Machine/Dispatch.lean ====
section
/-! DEFINITION. exec: one arm per constructor of Instr, each a direct call of its meaning. -/

namespace Sys2Proof.Machine

-- The meaning of an instruction or an event.
def exec (i : Instr) (s : State) : Host.Outcome State Fault Refusal :=
  match i with
  | .iadd o => Sys2Proof.Machine.execIadd o s
  | .isub o => Sys2Proof.Machine.execIsub o s
  | .andR o => Sys2Proof.Machine.execAnd o s
  | .orR o => Sys2Proof.Machine.execOr o s
  | .xor o => Sys2Proof.Machine.execXor o s
  | .andn o => Sys2Proof.Machine.execAndn o s
  | .orn o => Sys2Proof.Machine.execOrn o s
  | .shl o => Sys2Proof.Machine.execShl o s
  | .shr o => Sys2Proof.Machine.execShr o s
  | .sar o => Sys2Proof.Machine.execSar o s
  | .ror o => Sys2Proof.Machine.execRor o s
  | .imin o => Sys2Proof.Machine.execImin o s
  | .imax o => Sys2Proof.Machine.execImax o s
  | .iminz o => Sys2Proof.Machine.execIminz o s
  | .imaxz o => Sys2Proof.Machine.execImaxz o s
  | .iaddi o => Sys2Proof.Machine.execIaddi o s
  | .andi o => Sys2Proof.Machine.execAndi o s
  | .ori o => Sys2Proof.Machine.execOri o s
  | .xori o => Sys2Proof.Machine.execXori o s
  | .shli o => Sys2Proof.Machine.execShli o s
  | .shri o => Sys2Proof.Machine.execShri o s
  | .sari o => Sys2Proof.Machine.execSari o s
  | .rori o => Sys2Proof.Machine.execRori o s
  | .imul o => Sys2Proof.Machine.execImul o s
  | .imulh o => Sys2Proof.Machine.execImulh o s
  | .imulhz o => Sys2Proof.Machine.execImulhz o s
  | .idiv o => Sys2Proof.Machine.execIdiv o s
  | .idivz o => Sys2Proof.Machine.execIdivz o s
  | .irem o => Sys2Proof.Machine.execIrem o s
  | .iremz o => Sys2Proof.Machine.execIremz o s
  | .imuli o => Sys2Proof.Machine.execImuli o s
  | .clz o => Sys2Proof.Machine.execClz o s
  | .ctz o => Sys2Proof.Machine.execCtz o s
  | .popc o => Sys2Proof.Machine.execPopc o s
  | .brev o => Sys2Proof.Machine.execBrev o s
  | .bswap o => Sys2Proof.Machine.execBswap o s
  | .iabs o => Sys2Proof.Machine.execIabs o s
  | .ineg o => Sys2Proof.Machine.execIneg o s
  | .exts o => Sys2Proof.Machine.execExts o s
  | .extz o => Sys2Proof.Machine.execExtz o s
  | .dep o => Sys2Proof.Machine.execDep o s
  | .lea o => Sys2Proof.Machine.execLea o s
  | .sel o => Sys2Proof.Machine.execSel o s
  | .movi o => Sys2Proof.Machine.execMovi o s
  | .movk o => Sys2Proof.Machine.execMovk o s
  | .vextr o => Sys2Proof.Machine.execVextr o s
  | .vins o => Sys2Proof.Machine.execVins o s
  | .icmp o => Sys2Proof.Machine.execIcmp o s
  | .icmpi o => Sys2Proof.Machine.execIcmpi o s
  | .fcmp o => Sys2Proof.Machine.execFcmp o s
  | .pand o => Sys2Proof.Machine.execPand o s
  | .por o => Sys2Proof.Machine.execPor o s
  | .pxor o => Sys2Proof.Machine.execPxor o s
  | .pandn o => Sys2Proof.Machine.execPandn o s
  | .pnot o => Sys2Proof.Machine.execPnot o s
  | .pget o => Sys2Proof.Machine.execPget o s
  | .pset o => Sys2Proof.Machine.execPset o s
  | .fadd o => Sys2Proof.Machine.execFadd o s
  | .fsub o => Sys2Proof.Machine.execFsub o s
  | .fmul o => Sys2Proof.Machine.execFmul o s
  | .fdiv o => Sys2Proof.Machine.execFdiv o s
  | .fsqrt o => Sys2Proof.Machine.execFsqrt o s
  | .fmin o => Sys2Proof.Machine.execFmin o s
  | .fmax o => Sys2Proof.Machine.execFmax o s
  | .ffma o => Sys2Proof.Machine.execFfma o s
  | .fcvt o => Sys2Proof.Machine.execFcvt o s
  | .mfs o => Sys2Proof.Machine.execMfs o s
  | .mts o => Sys2Proof.Machine.execMts o s
  | .trap o => Sys2Proof.Machine.execTrap o s
  | .rft o => Sys2Proof.Machine.execRft o s
  | .halt o => Sys2Proof.Machine.execHalt o s
  | .br o => Sys2Proof.Machine.execBr o s
  | .call o => Sys2Proof.Machine.execCall o s
  | .brx o => Sys2Proof.Machine.execBrx o s
  | .ret o => Sys2Proof.Machine.execRet o s
  | .chk o => Sys2Proof.Machine.execChk o s
  | .chkv o => Sys2Proof.Machine.execChkv o s
  | .fork o => Sys2Proof.Machine.execFork o s
  | .sync o => Sys2Proof.Machine.execSync o s
  | .retf o => Sys2Proof.Machine.execRetf o s
  | .tend o => Sys2Proof.Machine.execTend o s
  | .yield o => Sys2Proof.Machine.execYield o s
  | .waitc o => Sys2Proof.Machine.execWaitc o s
  | .ldb o => Sys2Proof.Machine.execLdb o s
  | .ldbz o => Sys2Proof.Machine.execLdbz o s
  | .ldh o => Sys2Proof.Machine.execLdh o s
  | .ldhz o => Sys2Proof.Machine.execLdhz o s
  | .ldw o => Sys2Proof.Machine.execLdw o s
  | .ldwz o => Sys2Proof.Machine.execLdwz o s
  | .ldd o => Sys2Proof.Machine.execLdd o s
  | .stb o => Sys2Proof.Machine.execStb o s
  | .sth o => Sys2Proof.Machine.execSth o s
  | .stw o => Sys2Proof.Machine.execStw o s
  | .std o => Sys2Proof.Machine.execStd o s
  | .vld o => Sys2Proof.Machine.execVld o s
  | .vst o => Sys2Proof.Machine.execVst o s
  | .vgath o => Sys2Proof.Machine.execVgath o s
  | .vscat o => Sys2Proof.Machine.execVscat o s
  | .rld o => Sys2Proof.Machine.execRld o s
  | .rst o => Sys2Proof.Machine.execRst o s
  | .rvld o => Sys2Proof.Machine.execRvld o s
  | .rvst o => Sys2Proof.Machine.execRvst o s
  | .gldb o => Sys2Proof.Machine.execGldb o s
  | .gldh o => Sys2Proof.Machine.execGldh o s
  | .gldw o => Sys2Proof.Machine.execGldw o s
  | .gldd o => Sys2Proof.Machine.execGldd o s
  | .gstb o => Sys2Proof.Machine.execGstb o s
  | .gsth o => Sys2Proof.Machine.execGsth o s
  | .gstw o => Sys2Proof.Machine.execGstw o s
  | .gstd o => Sys2Proof.Machine.execGstd o s
  | .gvld o => Sys2Proof.Machine.execGvld o s
  | .gvst o => Sys2Proof.Machine.execGvst o s
  | .gldsW o => Sys2Proof.Machine.execGldsW o s
  | .gldsD o => Sys2Proof.Machine.execGldsD o s
  | .pref o => Sys2Proof.Machine.execPref o s
  | .copy o => Sys2Proof.Machine.execCopy o s
  | .copyIn o => Sys2Proof.Machine.execCopyIn o s
  | .copyOut o => Sys2Proof.Machine.execCopyOut o s
  | .copy2d o => Sys2Proof.Machine.execCopy2d o s
  | .accwAdd o => Sys2Proof.Machine.execAccwAdd o s
  | .accwMin o => Sys2Proof.Machine.execAccwMin o s
  | .accwMax o => Sys2Proof.Machine.execAccwMax o s
  | .accwMinz o => Sys2Proof.Machine.execAccwMinz o s
  | .accwMaxz o => Sys2Proof.Machine.execAccwMaxz o s
  | .accwAnd o => Sys2Proof.Machine.execAccwAnd o s
  | .accwOr o => Sys2Proof.Machine.execAccwOr o s
  | .accwXor o => Sys2Proof.Machine.execAccwXor o s
  | .accwSwap o => Sys2Proof.Machine.execAccwSwap o s
  | .accwCas o => Sys2Proof.Machine.execAccwCas o s
  | .accwFaddq o => Sys2Proof.Machine.execAccwFaddq o s
  | .ald o => Sys2Proof.Machine.execAld o s
  | .qnotify o => Sys2Proof.Machine.execQnotify o s
  | .qfence o => Sys2Proof.Machine.execQfence o s
  | .fpostr o => Sys2Proof.Machine.execFpostr o s
  | .fenceRel o => Sys2Proof.Machine.execFenceRel o s
  | .fenceAcq o => Sys2Proof.Machine.execFenceAcq o s
  | .fenceFull o => Sys2Proof.Machine.execFenceFull o s
  | .fenceFullq o => Sys2Proof.Machine.execFenceFullq o s
  | .xlat o => Sys2Proof.Machine.execXlat o s
  | .hrel o => Sys2Proof.Machine.execHrel o s
  | .hinfo o => Sys2Proof.Machine.execHinfo o s
  | .hinfoVa o => Sys2Proof.Machine.execHinfoVa o s
  | .pcommit o => Sys2Proof.Machine.execPcommit o s
  | .pdecommit o => Sys2Proof.Machine.execPdecommit o s
  | .qalloc o => Sys2Proof.Machine.execQalloc o s
  | .qfree o => Sys2Proof.Machine.execQfree o s
  | .btset o => Sys2Proof.Machine.execBtset o s
  | .btget o => Sys2Proof.Machine.execBtget o s
  | .btapp o => Sys2Proof.Machine.execBtapp o s
  | .launch o => Sys2Proof.Machine.execLaunch o s
  | .shapeFinal o => Sys2Proof.Machine.execShapeFinal o s
  | .shapeFloor o => Sys2Proof.Machine.execShapeFloor o s
  | .graph o => Sys2Proof.Machine.execGraph o s
  | .vadd o => Sys2Proof.Machine.execVadd o s
  | .vsub o => Sys2Proof.Machine.execVsub o s
  | .vmul o => Sys2Proof.Machine.execVmul o s
  | .vfma o => Sys2Proof.Machine.execVfma o s
  | .vfms o => Sys2Proof.Machine.execVfms o s
  | .vfnma o => Sys2Proof.Machine.execVfnma o s
  | .vmin o => Sys2Proof.Machine.execVmin o s
  | .vmax o => Sys2Proof.Machine.execVmax o s
  | .vabs o => Sys2Proof.Machine.execVabs o s
  | .vneg o => Sys2Proof.Machine.execVneg o s
  | .vdiv o => Sys2Proof.Machine.execVdiv o s
  | .vsqrt o => Sys2Proof.Machine.execVsqrt o s
  | .vrcp o => Sys2Proof.Machine.execVrcp o s
  | .vrsq o => Sys2Proof.Machine.execVrsq o s
  | .vexp2 o => Sys2Proof.Machine.execVexp2 o s
  | .vlog2 o => Sys2Proof.Machine.execVlog2 o s
  | .vtanh o => Sys2Proof.Machine.execVtanh o s
  | .vscl o => Sys2Proof.Machine.execVscl o s
  | .viadd o => Sys2Proof.Machine.execViadd o s
  | .visub o => Sys2Proof.Machine.execVisub o s
  | .vimul o => Sys2Proof.Machine.execVimul o s
  | .vimad o => Sys2Proof.Machine.execVimad o s
  | .vshl o => Sys2Proof.Machine.execVshl o s
  | .vshr o => Sys2Proof.Machine.execVshr o s
  | .vsar o => Sys2Proof.Machine.execVsar o s
  | .vand o => Sys2Proof.Machine.execVand o s
  | .vor o => Sys2Proof.Machine.execVor o s
  | .vxor o => Sys2Proof.Machine.execVxor o s
  | .vandn o => Sys2Proof.Machine.execVandn o s
  | .vimin o => Sys2Proof.Machine.execVimin o s
  | .vimax o => Sys2Proof.Machine.execVimax o s
  | .vdot4 o => Sys2Proof.Machine.execVdot4 o s
  | .viabs o => Sys2Proof.Machine.execViabs o s
  | .vcmp o => Sys2Proof.Machine.execVcmp o s
  | .vselk o => Sys2Proof.Machine.execVselk o s
  | .kand o => Sys2Proof.Machine.execKand o s
  | .kor o => Sys2Proof.Machine.execKor o s
  | .kxor o => Sys2Proof.Machine.execKxor o s
  | .kandn o => Sys2Proof.Machine.execKandn o s
  | .knot o => Sys2Proof.Machine.execKnot o s
  | .kmov o => Sys2Proof.Machine.execKmov o s
  | .kmovV2k o => Sys2Proof.Machine.execKmovV2k o s
  | .kmovK2v o => Sys2Proof.Machine.execKmovK2v o s
  | .vcvt o => Sys2Proof.Machine.execVcvt o s
  | .vpermb o => Sys2Proof.Machine.execVpermb o s
  | .vperml o => Sys2Proof.Machine.execVperml o s
  | .vpermlTwo o => Sys2Proof.Machine.execVpermlTwo o s
  | .vredFsum o => Sys2Proof.Machine.execVredFsum o s
  | .vredFmax o => Sys2Proof.Machine.execVredFmax o s
  | .vredFmin o => Sys2Proof.Machine.execVredFmin o s
  | .vredIsum o => Sys2Proof.Machine.execVredIsum o s
  | .vredImax o => Sys2Proof.Machine.execVredImax o s
  | .vredImin o => Sys2Proof.Machine.execVredImin o s
  | .vredImaxz o => Sys2Proof.Machine.execVredImaxz o s
  | .vredIminz o => Sys2Proof.Machine.execVredIminz o s
  | .vmov o => Sys2Proof.Machine.execVmov o s
  | .vbcast o => Sys2Proof.Machine.execVbcast o s
  | .vimm o => Sys2Proof.Machine.execVimm o s
  | .vtag o => Sys2Proof.Machine.execVtag o s
  | .rfmode o => Sys2Proof.Machine.execRfmode o s
  | .mma o => Sys2Proof.Machine.execMma o s
  | .mzero o => Sys2Proof.Machine.execMzero o s
  | .mld o => Sys2Proof.Machine.execMld o s
  | .mstBed o => Sys2Proof.Machine.execMstBed o s
  | .mstSignal o => Sys2Proof.Machine.execMstSignal o s
  | .mrow o => Sys2Proof.Machine.execMrow o s
  | .mrowW o => Sys2Proof.Machine.execMrowW o s
  | .mscl o => Sys2Proof.Machine.execMscl o s
  | .mgrp o => Sys2Proof.Machine.execMgrp o s
  | .sqld o => Sys2Proof.Machine.execSqld o s
  | .sqgo o => Sys2Proof.Machine.execSqgo o s
  | .sqst o => Sys2Proof.Machine.execSqst o s
  | .sqabt o => Sys2Proof.Machine.execSqabt o s
  | .attn o => Sys2Proof.Machine.execAttn o s
  | .tapset o => Sys2Proof.Machine.execTapset o s
  | .tapsetx o => Sys2Proof.Machine.execTapsetx o s
  | .taprd o => Sys2Proof.Machine.execTaprd o s
  | .tapwr o => Sys2Proof.Machine.execTapwr o s
  | .siginf o => Sys2Proof.Machine.execSiginf o s
  | .slotsSel o => Sys2Proof.Machine.execSlotsSel o s
  | .slotsClr o => Sys2Proof.Machine.execSlotsClr o s
  | .slotsOne o => Sys2Proof.Machine.execSlotsOne o s
  | .sigrst o => Sys2Proof.Machine.execSigrst o s
  | .tick => Sys2Proof.Machine.execTick s
  | .fwait o => Sys2Proof.Machine.execFwait o s
  | .fpost o => Sys2Proof.Machine.execFpost o s
  | .waitn o => Sys2Proof.Machine.execWaitn o s
  | .phreg o => Sys2Proof.Machine.execPhreg o s
  | .pharr o => Sys2Proof.Machine.execPharr o s
  | .phwait o => Sys2Proof.Machine.execPhwait o s
  | .phdrop o => Sys2Proof.Machine.execPhdrop o s
  | .restartMark c => Sys2Proof.Machine.execRestartMark c s
  | .resultLanding c => Sys2Proof.Machine.execResultLanding c s
  | .resultArrival c n => Sys2Proof.Machine.execResultArrival c n s
  | .clusterWakeDone c v => Sys2Proof.Machine.execClusterWakeDone c v s
  | .freezeCycle c => Sys2Proof.Machine.execFreezeCycle c s
  | .ballastCycle c => Sys2Proof.Machine.execBallastCycle c s
  | .rollbackFault c f => Sys2Proof.Machine.execRollbackFault c f s
  | .trapEntry c f => Sys2Proof.Machine.execTrapEntry c f s
  | .tileEntryComplete c => Sys2Proof.Machine.execTileEntryComplete c s
  | .tileFaultReport c => Sys2Proof.Machine.execTileFaultReport c s
  | .commandComplete c q => Sys2Proof.Machine.execCommandComplete c q s
  | .ingressSampleDelivery c q => Sys2Proof.Machine.execIngressSampleDelivery c q s
  | .egressSampleDrain c q => Sys2Proof.Machine.execEgressSampleDrain c q s
  | .mirrorSampleArrival c sig => Sys2Proof.Machine.execMirrorSampleArrival c sig s
  | .unitEnd c => Sys2Proof.Machine.execUnitEnd c s
  | .taskSuspend c => Sys2Proof.Machine.execTaskSuspend c s
  | .flagPostArrival c f n => Sys2Proof.Machine.execFlagPostArrival c f n s
  | .taskPick c => Sys2Proof.Machine.execTaskPick c s
  | .preempt c => Sys2Proof.Machine.execPreempt c s
  | .resume c k => Sys2Proof.Machine.execResume c k s
  | .launchAccept => Sys2Proof.Machine.execLaunchAccept s
  | .launchStart => Sys2Proof.Machine.execLaunchStart s
  | .blockDeal l => Sys2Proof.Machine.execBlockDeal l s
  | .unitStart l stage m c => Sys2Proof.Machine.execUnitStart l stage m c s
  | .launchComplete l => Sys2Proof.Machine.execLaunchComplete l s
  | .shapePost => Sys2Proof.Machine.execShapePost s
  | .blockCommit l b => Sys2Proof.Machine.execBlockCommit l b s
  | .graphVisit g => Sys2Proof.Machine.execGraphVisit g s
  | .translationWalkDone c h => Sys2Proof.Machine.execTranslationWalkDone c h s
  | .pageMigration asid va pa => Sys2Proof.Machine.execPageMigration asid va pa s
  | .blockDrainDone asid pool blk => Sys2Proof.Machine.execBlockDrainDone asid pool blk s
  | .sqTail fn q v => Sys2Proof.Machine.execSqTail fn q v s
  | .submissionRecord fn q => Sys2Proof.Machine.execSubmissionRecord fn q s
  | .cqHead fn q v => Sys2Proof.Machine.execCqHead fn q v s
  | .fqHead fn v => Sys2Proof.Machine.execFqHead fn v s
  | .faultReplyResume fn req => Sys2Proof.Machine.execFaultReplyResume fn req s
  | .faultReplyEnd fn req => Sys2Proof.Machine.execFaultReplyEnd fn req s
  | .sqConf fn addr => Sys2Proof.Machine.execSqConf fn addr s
  | .cqConf fn addr => Sys2Proof.Machine.execCqConf fn addr s
  | .fqConf fn addr => Sys2Proof.Machine.execFqConf fn addr s
  | .qReset fn addr => Sys2Proof.Machine.execQReset fn addr s
  | .ctxCreate fn addr => Sys2Proof.Machine.execCtxCreate fn addr s
  | .ctxDestroy fn addr => Sys2Proof.Machine.execCtxDestroy fn addr s
  | .invalidate fn addr => Sys2Proof.Machine.execInvalidate fn addr s
  | .predClear fn addr => Sys2Proof.Machine.execPredClear fn addr s
  | .hostMemoryAccess fn asid va write bytes => Sys2Proof.Machine.execHostMemoryAccess fn asid va write bytes s
  | .coldReset img => Sys2Proof.Machine.execColdReset img s
  | .getVersion r => Sys2Proof.Machine.execGetVersion r s
  | .getCapabilities r => Sys2Proof.Machine.execGetCapabilities r s
  | .negotiateAlgorithms r => Sys2Proof.Machine.execNegotiateAlgorithms r s
  | .getDigests r => Sys2Proof.Machine.execGetDigests r s
  | .getCertificate r => Sys2Proof.Machine.execGetCertificate r s
  | .challenge r => Sys2Proof.Machine.execChallenge r s
  | .getMeasurements r => Sys2Proof.Machine.execGetMeasurements r s
  | .keyExchange r => Sys2Proof.Machine.execKeyExchange r s
  | .finish r => Sys2Proof.Machine.execFinish r s
  | .endSession r => Sys2Proof.Machine.execEndSession r s
  | .tdispLeaveRun fn err => Sys2Proof.Machine.execTdispLeaveRun fn err s
  | .linkAuthFail l => Sys2Proof.Machine.execLinkAuthFail l s
  | .linkPathLost pkg => Sys2Proof.Machine.execLinkPathLost pkg s
  | .collectiveSubmit asid ch desc => Sys2Proof.Machine.execCollectiveSubmit asid ch desc s
  | .collectiveComplete ch peers => Sys2Proof.Machine.execCollectiveComplete ch peers s
  | .loweringNotice pkg ceiling t => Sys2Proof.Machine.execLoweringNotice pkg ceiling t s
  | .loweringNoticeDue => Sys2Proof.Machine.execLoweringNoticeDue s
  | .raiseJoinLeave kind pkg ceiling => Sys2Proof.Machine.execRaiseJoinLeave kind pkg ceiling s
  | .epochBoundary => Sys2Proof.Machine.execEpochBoundary s
  | .heartbeat pkg => Sys2Proof.Machine.execHeartbeat pkg s
  | .memberSilent pkg => Sys2Proof.Machine.execMemberSilent pkg s
  | .leaderTimeout => Sys2Proof.Machine.execLeaderTimeout s
  | .memberIsolated => Sys2Proof.Machine.execMemberIsolated s
  | .emergencyLimit f => Sys2Proof.Machine.execEmergencyLimit f s
  | .urgentNotice pkg f => Sys2Proof.Machine.execUrgentNotice pkg f s
  | .dieFence d => Sys2Proof.Machine.execDieFence d s
  | .hubDieFatal h => Sys2Proof.Machine.execHubDieFatal h s
  | .vfReset fn => Sys2Proof.Machine.execVfReset fn s
  | .memberWithdrawn ch => Sys2Proof.Machine.execMemberWithdrawn ch s
  | .powerRingPeriod demand used => Sys2Proof.Machine.execPowerRingPeriod demand used s
  | .overcapBallastLimit d => Sys2Proof.Machine.execOvercapBallastLimit d s
  | .pkgCapWrite v => Sys2Proof.Machine.execPkgCapWrite v s
  | .diePwrWrite d v => Sys2Proof.Machine.execDiePwrWrite d v s
  | .vtrimWrite d v => Sys2Proof.Machine.execVtrimWrite d v s
  | .voltageLow d col f => Sys2Proof.Machine.execVoltageLow d col f s
  | .wdogCtlWrite fn v => Sys2Proof.Machine.execWdogCtlWrite fn v s
  | .watchdogExpiry c => Sys2Proof.Machine.execWatchdogExpiry c s
  | .errorDetected inst addr asid synd ue => Sys2Proof.Machine.execErrorDetected inst addr asid synd ue s
  | .linkCrcError l => Sys2Proof.Machine.execLinkCrcError l s
  | .errStatClear inst => Sys2Proof.Machine.execErrStatClear inst s
  | .errInjWrite inst v => Sys2Proof.Machine.execErrInjWrite inst v s
  | .clReqRun k => Sys2Proof.Machine.execClReqRun k s
  | .clReqQuiesced k => Sys2Proof.Machine.execClReqQuiesced k s
  | .clReqSaved k => Sys2Proof.Machine.execClReqSaved k s
  | .clReqGated k => Sys2Proof.Machine.execClReqGated k s
  | .clStateReached k => Sys2Proof.Machine.execClStateReached k s
  | .clWake k => Sys2Proof.Machine.execClWake k s
  | .clStart k v => Sys2Proof.Machine.execClStart k v s
  | .linkBringUp l ok => Sys2Proof.Machine.execLinkBringUp l ok s
  | .tdispLock fn => Sys2Proof.Machine.execTdispLock fn s
  | .tdispEnterRun fn => Sys2Proof.Machine.execTdispEnterRun fn s
  | .antiRollbackRaise v sigOk => Sys2Proof.Machine.execAntiRollbackRaise v sigOk s
  | .groupBinding pkg group ch asid members ranks => Sys2Proof.Machine.execGroupBinding pkg group ch asid members ranks s
  | .curLimitBaseSet c v => Sys2Proof.Machine.execCurLimitBaseSet c v s

end Sys2Proof.Machine
end

