-- ==== Sys2Proof/Machine/Issue.lean ====
section
/-! DEFINITION. The issue of a bundle by the core in focus (R8 to R11, R19, R22 to R26, R29, R32, R86, R342 to R348): its checks, its mark, its
slots, and what follows it. exec gives each slot its effect. -/

namespace Sys2Proof.Machine

/-! Slots. -/

/-- A slot's effect on a state, as its meaning answers it: the state, whether it stalls, whether it closed its region before, the fault it
raises. -/
structure SlotRes where
  st : State
  stalls : Bool
  passed : Bool
  raised : Option FaultRec
  deriving DecidableEq, Repr

/-- The meaning of slot k's instruction run on a state. -/
def State.slot (s : State) (k : Nat) (i : Instr) : Host.Outcome SlotRes Fault Refusal :=
  match exec i (s.mapCore (fun c => { c with ctl := { c.ctl with slot := k, raised := none, stalled := false, passed := false } })) with
  | .next t => .next ⟨t.mapCore (fun c => { c with ctl := { c.ctl with raised := none, stalled := false, passed := false } }),
      t.core.ctl.stalled, t.core.ctl.passed, t.core.ctl.raised⟩
  | .fault f => .fault f
  | .refused r => .refused r

/-- What slots answer together: the state they leave, whether the bundle is held, the faults raised, each with its slot. -/
structure SlotsRes where
  st : State
  held : Bool
  raised : List (Nat × FaultRec)
  deriving DecidableEq, Repr

/-- Slots run one after another; one that stalls or raises has no effect on the state. holds tells of a stalled slot, by whether it closed
its region, and the slots behind it, whether the bundle is held with no effect at all. A refusal or a fault of the machine ends the run. -/
def State.slots (holds : Bool → List (Nat × Instr) → Bool) (s : State) : List (Nat × Instr) → Host.Outcome SlotsRes Fault Refusal
  | [] => .next ⟨s, false, []⟩
  | e :: es => match s.slot e.1 e.2 with
    | .fault f => .fault f
    | .refused r => .refused r
    | .next r => match (if r.stalls || r.raised.isSome then s else r.st).slots holds es with
      | .fault f => .fault f
      | .refused r => .refused r
      | .next q => .next ⟨q.st, (r.stalls && holds r.passed es) || q.held,
          (if r.stalls then [] else (r.raised.map (fun f => (e.1, f))).toList) ++ q.raised⟩

/-- The fault of the lowest-ranked slot that raises one (R86). -/
def lowestFault (l : List (Nat × FaultRec)) : Option FaultRec :=
  (l.find? (fun e => l.all (fun g => e.1 ≤ g.1))).map (·.2)

/-- Whether an instruction writes the bed when it issues, from the X slot (R181). -/
def xWrites : Instr → Bool
  | .tapwr _ => true
  | _ => false

/-- The slots that close no region, in an order in which none sees what another of the bundle has done (R9): the slots that read the bed
before the one that writes it, RFMODE last since it gates registers the others read (R17). -/
def openSlots (b : Sys2Proof.Bundle) : List (Nat × Instr) :=
  let l : List (Nat × Instr) := b.instrs.filter (fun e => !e.2.regionClosing)
  let isRf := fun (e : Nat × Instr) => match e.2 with
    | .rfmode _ => true
    | _ => false
  let m := l.filter (fun e => e.1 == slotM)
  let x := l.filter (fun e => e.1 == slotX)
  l.filter (fun e => e.1 != slotM && e.1 != slotX && !(isRf e)) ++ (if x.any (fun e => xWrites e.2) then m ++ x else x ++ m) ++ l.filter isRf

/-- The region-closing slots in the order S1, M, C. -/
def closeSlots (b : Sys2Proof.Bundle) : List (Nat × Instr) :=
  let l : List (Nat × Instr) := b.instrs.filter (fun e => e.2.regionClosing)
  l.filter (fun e => e.1 != slotC) ++ l.filter (fun e => e.1 == slotC)

/-- The state in which the region-closing instructions' own checks are judged: as after the gate's release, which itself is made, and
checked, later (R32, R265). -/
def State.foreseen (s : State) : State :=
  let t := match s.openGate with
    | .ok t => t
    | .wait t => t
    | .fail _ => s
  let failed := fun (r : Request) => match r.kind with
    | .failed _ => true
    | _ => false
  t.mapCore (fun c => { c with rg := { c.rg with gate := [] }, pipe := { c.pipe with reqs := c.pipe.reqs.filter (fun r => !(failed r)) } })

/-- A closing slot that stalls holds its whole bundle where it has not closed its region, or where a TICK, whose faults are precise, follows
(R32, R162). -/
def closerHolds (passed : Bool) (rest : List (Nat × Instr)) : Bool := !passed || rest.any (fun e => e.1 == slotC)

/-! After a bundle. -/

/-- How the turn of a core ends: its bundle has issued (with the TRAP whose delay bundles are over), it stalls, or it raises a fault, with no
effect of its slots. -/
inductive Turn where
  | issued (s : State) (trap : Option FaultRec)
  | stalls (s : State)
  | raises (f : FaultRec) (s : State)
  deriving DecidableEq, Repr

/-- What takes effect once the three delay bundles have issued (R116 to R118, R122): an end waits for UNIT_END or TASK_SUSPEND; a TRAP's
fault is taken when every member of its gang has had its turn. HALT lands every result in flight. -/
def State.afterDelay (s : State) : State × Option FaultRec :=
  let idle := fun (c : Core) => { c with ctl := { c.ctl with after := none } }
  match s.core.ctl.after with
  | some (.trap n _) => (s.mapCore idle, some { precise trapInsn slotS0 with detail := n })
  | some .rft => ((s.mapCore (fun c => idle c.land)).trapReturn, none)
  | some .halt => (s.mapCore (fun c =>
      let c := Core.landAll maxCount (idle c)
      { c with ctl := { c.ctl with halted := true } }), none)
  | _ => (s, none)

/-- The delay state after a bundle in a unit's own order (R23, R26): before is the core as the bundle issued. -/
def Core.advance (before c : Core) (b : Sys2Proof.Bundle) : Core :=
  let next := before.pcAfter 1
  if holdsBranch b then
    if c.ctl.dly == 0 then { c with ctl := { c.ctl with pc := next, dly := 3, cont := before.pcAfter 4 } }
    else { c with ctl := { c.ctl with pc := next } }
  else if c.ctl.dly == 0 then { c with ctl := { c.ctl with pc := next } }
  else if c.ctl.dly == 1 then { c with ctl := { c.ctl with pc := c.ctl.cont, dly := 0 } }
  else { c with ctl := { c.ctl with pc := next, dly := c.ctl.dly - 1 } }

/-- Waking clusters counted on by an issue cycle (R17, rule 4). -/
def Core.countWakes (c : Core) : Core :=
  let c : Core := { c with sys := { c.sys with wakes := c.sys.wakes.map (fun (e : Nat × Nat) => (e.1, e.2 - 1)) } }
  (c.sys.wakes.map (fun (e : Nat × Nat) => e.1)).foldl (fun c v => c.wakeDone v) c

/-- The counts of an issue cycle: results, bundles of the unit and of its region, the replay (R18, R22, R347), the watchdog (R431). A
handler's bundles count apart. -/
def Core.counted (c : Core) : Core :=
  let trap := c.sys.intrap
  { c with
    pipe := c.pipe.age,
    rg := if trap then c.rg else { c.rg with since := c.rg.since + 1, replayLeft := c.rg.replayLeft - 1 },
    sys := if trap then c.sys else { c.sys with replay := c.sys.replay && c.rg.replayLeft != 1 },
    ctl := { c.ctl with issued := if trap then c.ctl.issued else c.ctl.issued + 1, handled := if trap then c.ctl.handled + 1 else c.ctl.handled,
                        slot := 0, begun := none, done_ := [], paired := false },
    pw := { c.pw with stall := 0, reported := false } }

/-- A bundle's weight drawn in this cycle (R40). -/
def Core.drawWeight (cycle w : Nat) (c : Core) : Core := { c with pw := c.pw.draw cycle w 0 }

/-- A bundle the lead of a gang has fetched and issued is kept for the members behind it (R273). -/
def Core.feed (w : BundleBits) (c : Core) : Core :=
  if c.team.length ≤ 1 || c.lead != c.id || c.template.isSome then c
  else
    let e : Fed := ⟨c.sys.intrap, c.nextIdx, c.ctl.pc, w⟩
    { c with ctl := { c.ctl with stream := c.ctl.stream.filter (fun g => !(g.trap == e.trap && g.idx == e.idx)) ++ [e] } }

/-- The bundle has issued (R18, R23, R26, R207); what waited for its delay bundles follows. -/
def State.issued (s : State) (before : Core) (w : BundleBits) (template : Bool) : Turn :=
  let b := decodeBundle w
  let s := s.mapCore (fun c => Core.feed w (Core.drawWeight s.cycle (bundleWeight b) c))
  if template then .issued (s.mapCore (fun c => (c.seqAdvance.counted).countWakes)) none
  else
    let last := !(holdsBranch b) && s.core.ctl.dly == 1
    let s := s.mapCore (fun c => ((Core.advance before c b).counted).countWakes)
    if last then (let (t, f) := s.afterDelay; .issued t f) else .issued s none

/-- A cycle in which the core does not issue (R10, R22, R431). -/
def State.stallCycle (s : State) : State :=
  s.mapCore (fun c => { c with
    ctl := { c.ctl with slot := 0, raised := none, stalled := false }, pw := { c.pw with stall := c.pw.stall + 1 } })

/-! The region-closing slots (R32). -/

/-- The bundle at issue as begun: of its slots only the closing ones not yet named in done_ are still to act. -/
def State.asBegun (s : State) (w : BundleBits) : State := s.mapCore (fun c => { c with ctl := { c.ctl with begun := some w } })

/-- The region-closing slots that remain, one after another, then the end of the issue. One that waits leaves the bundle begun: what has had
its effect is not repeated. safe is the state before the bundle's slots, while none of them has closed: a fault, or a wait before the
region closes, goes back to it. -/
def State.close (safe : Option State) (before : Core) (w : BundleBits) (template : Bool) (s : State) :
    List (Nat × Instr) → Host.Outcome Turn Fault Refusal
  | [] => .next (s.issued before w template)
  | e :: es => match s.slot e.1 e.2 with
    | .fault f => .fault f
    | .refused r => .refused r
    | .next r => match r.raised with
      | some f => .next (.raises f (safe.getD (s.asBegun w)))
      | none =>
        if r.stalls then .next (.stalls (if r.passed then r.st.asBegun w else safe.getD (s.asBegun w)))
        else (r.st.mapCore (fun c => { c with ctl := { c.ctl with done_ := c.ctl.done_ ++ [e.1] } })).close none before w template es

/-! A bundle. -/

/-- The state a bundle's slots read (R9): results land, the header's PSEL is in force, a template's stream registers are written, and the
bundles that its SQLD takes are known. -/
def State.opened (s : State) (b : Sys2Proof.Bundle) : State :=
  let s := s.mapCore (fun c => { c.land with
    ctl := { c.ctl with psel := b.psel, skip := 0 },
    sys := if c.ctl.issued == 0 then { c.land.sys with tickCycles := 1 } else c.land.sys })
  let s := if s.core.template.isSome then s.mapCore (·.writeStreams) else s
  let n := s.sqldSkip b
  s.mapCore (fun c => { c with ctl := { c.ctl with skip := n } })

/-- A bundle's slots (R9, R32, R86): sm is the state its checks and its mark have left, in which an exception finds the core. So a template
bundle that faults shows the handler its stream registers as they stood before it, which the spec leaves open (log 69). -/
def State.perform (sm : State) (w : BundleBits) : Host.Outcome Turn Fault Refusal :=
  let b := decodeBundle w
  let template := sm.core.template.isSome
  let s1 := sm.opened b
  let regs := (closeSlots b).flatMap (fun e => closerRegs e.2)
  if template && (sm.mapCore (·.land)).core.streamPending then .next (.stalls sm)
  else match s1.core.failedOn regs with
    | some f => .next (.raises f sm)
    | none =>
      if regs.any (fun d => (s1.core.pendOn d).isSome) then .next (.stalls sm)
      else match s1.slots (fun _ _ => true) (openSlots b) with
        | .fault e => .fault e
        | .refused r => .refused r
        | .next q => match q.st.foreseen.slots closerHolds (closeSlots b) with
          | .fault e => .fault e
          | .refused r => .refused r
          | .next g =>
            if q.held || g.held then .next (.stalls sm)
            else match lowestFault (q.raised ++ g.raised) with
              | some f => .next (.raises f sm)
              | none =>
                if bothMultiply b && !(sm.core.ctl.paired) then
                  .next (.stalls (sm.mapCore (fun c => { c with ctl := { c.ctl with paired := true } })))
                else q.st.close (some sm) s1.core w template (closeSlots b)

/-- A bundle that the core in focus has fetched: its static checks (R86), its mark (R29), its slots. -/
def State.bundle (s : State) (w : BundleBits) : Host.Outcome Turn Fault Refusal :=
  let b := decodeBundle w
  match s.core.static b with
  | some f => .next (.raises f s)
  | none =>
    if s.core.marks b then
      match s.mark with
      | .ok t => t.perform w
      | .wait t => .next (.stalls t)
      | .fail f => .next (.raises f s)
    else s.perform w

/-- A bundle that has begun goes on with its closing slots (R32): it is no template bundle (R206). -/
def State.goOn (s : State) (w : BundleBits) : Host.Outcome Turn Fault Refusal :=
  s.close none s.core w false ((closeSlots (decodeBundle w)).filter (fun e => !(s.core.ctl.done_.contains e.1)))

/-- The exception of a bundle that cannot be fetched (R348). -/
def fetchFault (code : BitVec 8) (cause : Nat) (pc : Word) : FaultRec :=
  { accessFault code cause 7 pc.toNat false with origin := 3 }

/-- The turn of the core in focus in a cycle (R10, R192, R348). -/
def State.issue (s : State) : Host.Outcome Turn Fault Refusal :=
  match s.core.mx.fault with
  | some f => .next (.raises f (s.mapCore (·.tileReported)))
  | none => match s.core.ctl.begun with
    | some w => s.goOn w
    | none => match s.nextBundle s.core with
      | .error (code, cause) => .next (.raises (fetchFault (if code == uncommitted then pageFault else code)
          (if code == uncommitted then 1 else cause) s.core.ctl.pc) s)
      | .ok w => s.bundle w

/-! A unit's turn (R22, R273, R344). -/

/-- How a unit's turn ends: whether it has issued, and the state. -/
structure TeamRes where
  st : State
  issued : Bool
  deriving DecidableEq, Repr

/-- What the TRAPs that members' bundles have completed do, once all have had their turn (R116, R344). -/
def State.trapped (s : State) (ts : List (Nat × FaultRec)) : State := if ts.isEmpty then s else s.enterFaults ts

/-- Every running member held for a cycle, the effects of those that stall kept (R22). -/
def State.heldTeam (s : State) (ready : List Nat) : State :=
  let s := ready.foldl (fun s m => match (s.focus m).issue with
    | .next (.stalls t) => t
    | _ => s) s
  ready.foldl (fun s m => (s.focus m).stallCycle) s

/-- The members' bundles, higher members' first, each on the state those before it have left: a member that stalls or raises only then
leaves the cycle as it began. -/
def State.issueAll (start : State) (ready : List Nat) (s : State) (ts : List (Nat × FaultRec)) : List Nat → Host.Outcome TeamRes Fault Refusal
  | [] => .next ⟨s.trapped ts, true⟩
  | m :: ms => match (s.focus m).issue with
    | .fault f => .fault f
    | .refused r => .refused r
    | .next (.issued t f) => start.issueAll ready t ((f.map (fun f => (m, f))).toList ++ ts) ms
    | .next (.stalls _) => .next ⟨ready.foldl (fun s m => (s.focus m).stallCycle) start, false⟩
    | .next (.raises f _) => .next ⟨(start.focus m).enterFaults [(m, f)], false⟩

/-- What each member would do on the state of the cycle's start: whether one stalls, and the faults raised, lower members first. -/
def State.judged (s : State) : List Nat → Host.Outcome (Bool × List (Nat × FaultRec)) Fault Refusal
  | [] => .next (false, [])
  | m :: ms => match (s.focus m).issue, s.judged ms with
    | .fault f, _ => .fault f
    | .refused r, _ => .refused r
    | _, .fault f => .fault f
    | _, .refused r => .refused r
    | .next (.stalls _), .next (_, fs) => .next (true, fs)
    | .next (.raises f _), .next (st, fs) => .next (st, fs ++ [(m, f)])
    | .next (.issued _ _), .next (st, fs) => .next (st, fs)

/-- Faults of tile entries among those raised are reported now (R192). -/
def State.tilesReported (s : State) (fs : List (Nat × FaultRec)) : State :=
  fs.foldl (fun s e => s.modCore e.1 (fun c => if c.mx.fault == some e.2 then c.tileReported else c)) s

/-- The turn of a gang's members: a stall of one holds all, a fault of one stops all, else every one issues (R22, R273, R344). -/
def State.gangTurn (s : State) (ready : List Nat) : Host.Outcome TeamRes Fault Refusal :=
  match s.judged ready with
  | .fault f => .fault f
  | .refused r => .refused r
  | .next (true, _) => .next ⟨s.heldTeam ready, false⟩
  | .next (false, []) => s.issueAll ready s [] ready
  | .next (false, fs) => .next ⟨(s.tilesReported fs).enterFaults fs, false⟩

/-- The turn of the core in focus, which issues alone. -/
def State.soloTurn (s : State) : Host.Outcome TeamRes Fault Refusal :=
  match s.issue with
  | .fault f => .fault f
  | .refused r => .refused r
  | .next (.issued t f) => .next ⟨t.trapped ((f.map (fun f => (t.core.id, f))).toList), true⟩
  | .next (.stalls t) => .next ⟨t.stallCycle, false⟩
  | .next (.raises f t) => .next ⟨enterFault f t, false⟩

/-- What a gang's lead keeps for its members, without what none of them can need again: fetched bundles that all have issued past their
marks, stores performed before every member's place (R273, R288). -/
def State.pruned (s : State) : State :=
  if s.core.team.length ≤ 1 then s
  else
    let mark := s.teamLeast (fun c => (c.rg.shadow.map (·.issued)).getD c.ctl.issued)
    let step := s.teamLeast (fun c => if c.sys.intrap then c.ctl.handled else c.ctl.handled + 2 ^ 32)
    let again := fun (r : Request) => match r.again with
      | some (.mem i _ _ _ _) => i
      | some (.bed i _ _ _ _) => i
      | none => 2 ^ 64
    let seen := s.teamLeast (fun c =>
      ((c.ctl.issued :: c.mx.queue.map (·.idx)) ++ c.pipe.reqs.map again).min?.getD 0)
    s.modCore s.core.lead (fun c => { c with
      ctl := { c.ctl with stream := c.ctl.stream.filter (fun e => if e.trap then step ≤ e.idx else mark ≤ e.idx) },
      rg := { c.rg with log := c.rg.log.filter (fun t => seen ≤ t.idx) } })

end Sys2Proof.Machine
end

