-- ==== Sys2Proof/Machine/Agents.lean ====
section
/-! DEFINITION. Time: which agent acts next when no input is waiting. A cycle gives every core that has bundles one turn; between cycles one
agent of the package that has something to do does one thing. The order among agents is the model's (log 12). -/

namespace Sys2Proof.Machine

/-! Agents. -/

/-- What an agent of the package does of itself: the event of that name, with its arguments. -/
inductive Act where
  | resultArrival (c n : Nat)
  | walkDone (c h : Nat)
  | tileDone (c : Nat)
  | commandDone (c q : Nat)
  | ingress (c q : Nat)
  | egress (c q : Nat)
  | mirror (c sig : Nat)
  | unitEnd (c : Nat)
  | suspend (c : Nat)
  | watchdog (c : Nat)
  | post (c f n : Nat)
  | accept
  | start
  | deal (l : Nat)
  | unitStart (l stage m c : Nat)
  | complete (l : Nat)
  | shapePost
  | commit (l b : Nat)
  | visit (g : Nat)
  /-- A pick by the lowest idle core that has one (R272). -/
  | pick (c : Nat)
  | deadWait (t : Nat)
  | resume (c k : Nat)
  | drained (asid pool blk : Nat)
  | record (fn q : Nat)
  | mailbox (fn : Nat)
  | reached (k : Nat)
  | overcap (d : Nat)
  deriving DecidableEq, Repr

/-- An act done: the meaning of its event. -/
def Act.run (a : Act) (s : State) : Res :=
  match a with
  | .resultArrival c n => execResultArrival c n s
  | .walkDone c h => execTranslationWalkDone c h s
  | .tileDone c => execTileEntryComplete c s
  | .commandDone c q => execCommandComplete c q s
  | .ingress c q => execIngressSampleDelivery c q s
  | .egress c q => execEgressSampleDrain c q s
  | .mirror c g => execMirrorSampleArrival c g s
  | .unitEnd c => execUnitEnd c s
  | .suspend c => execTaskSuspend c s
  | .watchdog c => execWatchdogExpiry c s
  | .post c f n => execFlagPostArrival c f n s
  | .accept => execLaunchAccept s
  | .start => execLaunchStart s
  | .deal l => execBlockDeal l s
  | .unitStart l g m c => execUnitStart l g m c s
  | .complete l => execLaunchComplete l s
  | .shapePost => execShapePost s
  | .commit l b => execBlockCommit l b s
  | .visit g => execGraphVisit g s
  | .pick c => execTaskPick c s
  | .deadWait t => .next (s.endDead t)
  | .resume c k => execResume c k s
  | .drained a p b => execBlockDrainDone a p b s
  | .record f q => execSubmissionRecord f q s
  | .mailbox f => s.mailboxAct f
  | .reached k => execClStateReached k s
  | .overcap d => execOvercapBallastLimit d s

/-- What the agents about a core may do next: results, walks, tile entries, commands, samples, ends, the watchdog. -/
def State.coreActs (s : State) (c : Core) : List Act :=
  let n := c.id
  let qs := (List.range 4).filter (fun q => !(c.queue q).ents.isEmpty)
  c.pipe.reqs.flatMap (fun r => if c.arrivable r then [Act.resultArrival n r.num]
    else r.dests.filterMap (fun d => match d with
      | .h k => some (Act.walkDone n k.toNat)
      | _ => none)) ++
  (if c.mx.queue.isEmpty then [] else [Act.tileDone n]) ++
  qs.flatMap (fun q => [Act.commandDone n q, Act.ingress n q, Act.egress n q]) ++
  (if s.disp.mirrors.isEmpty then [] else (List.range c.sig.decls.length).map (Act.mirror n)) ++
  (if c.atEnd then [Act.unitEnd n, Act.suspend n] else []) ++
  (if s.watchdogDue n then [Act.watchdog n] else [])

/-- What the dispatchers may do next. -/
def State.dispatchActs (s : State) : List Act :=
  let d := s.disp
  d.posts.map (fun p => Act.post p.1 p.2.1 p.2.2.1) ++
  (if d.submits.isEmpty then [] else [Act.accept]) ++
  (if d.hw.any (fun q => !q.ents.isEmpty) then [Act.start] else []) ++
  d.launches.flatMap (fun l =>
    l.toStart.map (fun e => Act.unitStart l.key e.1 e.2 ((l.placed.getD e.1 0) + e.2)) ++
    [Act.deal l.key, Act.complete l.key] ++ (if dGang l.desc then [Act.commit l.key 0] else l.blocks.map (fun b => Act.commit l.key b.1))) ++
  (d.waits.filter (·.dead)).map (fun w => Act.deadWait w.ticket) ++
  d.graphs.flatMap (fun g => [Act.visit g.key, Act.complete g.key]) ++
  (if d.shapes.isEmpty then [] else [Act.shapePost]) ++
  (if d.ready.any (fun q => q.levels.any (fun l => !l.isEmpty)) then
    (((List.range plinthId).find? (fun c => (s.pickNow c).isSome)).map Act.pick).toList else []) ++
  (List.range d.images.length).filterMap (fun k => (d.images[k]?).bind (fun i => if i.gang then some (Act.resume i.core.id k) else none))

/-- What the quarry, the host queues and the power manager may do next. -/
def State.otherActs (s : State) : List Act :=
  s.ctxs.flatMap (fun c => (c.pools.zip (List.range c.pools.length)).flatMap (fun p => p.1.blocks.filterMap (fun b =>
    if b.2 == .draining then some (Act.drained c.asid p.2 b.1) else none))) ++
  s.fns.flatMap (fun f => (f.sqs.filter (fun r => r.out > 0)).map (fun r => Act.record f.n r.q) ++
    (if f.busy.isSome then [Act.mailbox f.n] else [])) ++
  (s.clusters.filter (fun c => c.2.target.isSome)).map (fun c => Act.reached c.1) ++
  (List.range 8).filterMap (fun d => if (s.die d).overCap && (s.die d).overTicks ≥ 200 then some (Act.overcap d) else none)

/-- Whether an act changes anything but the focus. -/
def State.changes (s : State) (a : Act) : Bool :=
  match a.run s with
  | .next t => decide (t.focus s.core.id ≠ s)
  | _ => true

/-- The act an agent has ready: the search begins one further in every cycle, so that none waits for ever. -/
def State.nextAct (s : State) : Option Act :=
  let l := s.cores.flatMap s.coreActs ++ s.dispatchActs ++ s.otherActs
  let k := s.cycle % max l.length 1
  (l.drop k ++ l.take k).find? s.changes

/-! Cycles. -/

/-- A core's counts of time at the end of a cycle: the cycles of its tick (R164), the stall of a unit that had no turn (R431), and what its
matrix unit draws in the cycle that begins (R40). -/
def Core.tickTime (next : Nat) (had : Bool) (c : Core) : Core :=
  let p := if c.unit.isSome && !had then { c.pw with stall := c.pw.stall + 1 } else c.pw
  { c with
    sys := if c.unit.isSome && c.ctl.issued > 0 then { c.sys with tickCycles := c.sys.tickCycles + 1 } else c.sys,
    pw := if c.matrixWeight == 0 then p else p.draw next c.matrixWeight 0 }

/-- The next cycle begins: the units that have bundles get their turns. -/
def State.nextCycle (s : State) : State :=
  let n := s.cycle + 1
  let s : State := { s with
    core := s.core.tickTime n (s.runs s.core.id),
    others := s.others.map (fun (e : Nat × Core) => (e.1, e.2.tickTime n (s.runs e.1))) }
  { s with cycle := n, turn := s.runners }

/-- Between cycles: an agent acts, then the next cycle begins. -/
def State.boundary (s : State) : Res :=
  match s.nextAct with
  | none => .next s.nextCycle
  | some a => match a.run s with
    | .next t => .next t.nextCycle
    | r => r

/-- A ballast cycle where a core's weights ask for one (R427). -/
def State.ballasted (n : Nat) (s : State) : Res :=
  if (s.coreOf n).unit.isSome && s.ballastDue n then execBallastCycle n s else .next s

/-- The members that waited for their place in the skew are one cycle nearer (R273). -/
def State.nearer (ns : List Nat) (s : State) : State :=
  ns.foldl (fun s n => s.modCore n (fun c => { c with ctl := { c.ctl with lag := c.ctl.lag - 1 } })) s

/-- What follows the members' turns: those that wait come nearer when the unit has issued, and each core may run ballast. -/
def State.afterTurn (lead : Nat) (lagging : List Nat) (r : TeamRes) : Res :=
  let s := (if r.issued then (r.st.nearer lagging).pruned else r.st).focus lead
  s.core.team.foldl (fun o n => match o with
    | .next t => t.ballasted n
    | o => o) (.next s)

/-- The turn of the unit on core n, a gang's members together (R22, R41, R42, R273). -/
def State.takeTurn (s : State) (n : Nat) : Res :=
  let s := s.focus n
  let ready := s.inTurn
  let lagging := s.lagging
  if ready.any s.wouldFreeze then execFreezeCycle n s
  else match ready with
    | [] => .next (s.nearer lagging)
    | m :: ms => match if ms.isEmpty then (s.focus m).soloTurn else s.gangTurn ready with
      | .next r => State.afterTurn n lagging r
      | .fault f => .fault f
      | .refused r => .refused r

/-- An input that waits: while the package stands stopped only a cold reset has an effect (R421). -/
def State.input (s : State) (i : Instr) : Res :=
  match s.stopped, i with
  | true, .coldReset img => execColdReset img s
  | true, _ => .fault .packageStopped
  | false, i => exec i s

/-! A word placed for the host's checks: a page at a fixed address of context 1, mapped R, W, X and identical, from which a task's next bundle
is fetched. -/

/-- Where the page stands, and its five tables. -/
def probePage : Nat := 0x6000
def probeTables : List (Nat × Nat) :=
  [(0x1000, 0x2001), (0x2000, 0x3001), (0x3000, 0x4001), (0x4000, 0x5001), (0x5030, 0x601F)]

/-- The context record of the probe. -/
def probeCtx : Ctx := ⟨1, 0, false, false, 0x1000, 0, 0, 0, 0, 0, 0, 0, 0, [], 1, [], 0⟩

/-- The task of the probe, on a core. -/
def probeUnit (n : Nat) : UnitInfo := ⟨false, 1, 0, 0, 0, 1, n, 0, 0, 0, false, false, none, none⟩

/-- A core about to issue the bundle at the probe's page. -/
def Core.probe (c : Core) : Core :=
  { c with
    unit := some (probeUnit c.id),
    ctl := { Ctl.idle with pc := BitVec.ofNat 64 probePage },
    seqr := { c.seqr with run := none }, mx := { c.mx with fault := none } }

/-- The state with a bundle's bytes where the next step fetches. -/
def State.probe (s : State) (b : BundleBits) : State :=
  let mem := probeTables.foldl (fun m e => m.write e.1 (bytesOfNat e.2 8)) (s.mem.write probePage (bytesOfNat b.toNat 32))
  { s with
    mem := mem, sealed := s.sealed.filter (fun e => e.1 / 64 != probePage / 4096),
    fabric := { s.fabric with ports := s.fabric.ports.filter (·.1 != 1) },
    ctxs := probeCtx :: s.ctxs.filter (·.asid != 1), core := s.core.probe, turn := [s.core.id], agenda := [], stopped := false }

end Sys2Proof.Machine
end

