-- ==== Sys2Proof/Machine/Step.lean ====
section
/-! DEFINITION. step: one action of the package: an input that waits, a core's turn in the current cycle, or what passes between two cycles. -/

namespace Sys2Proof.Machine

/-- One step. -/
def step (s : State) : Host.Outcome State Fault Refusal :=
  match s.agenda with
  | i :: is => { s with agenda := is }.input i
  | [] =>
    if s.stopped then .fault .packageStopped
    else match s.turn with
      | [] => s.boundary
      | n :: ns => { s with turn := ns }.takeTurn n

/-- The state in which the next step fetches a bundle of the given bits, every other bit of it zero. -/
def State.withFetchWord (s : State) (nbits w : Nat) : State := s.probe (BitVec.ofNat 256 (w % 2 ^ nbits))

end Sys2Proof.Machine
end

