-- ==== Sys2Proof/Safety.lean ====
section
/-! DEFINITION. The terms claims are stated in: when a slot takes effect (R9, R11, R22), what a result on its way is (R18), the state a slot
of a bundle is run at, and what a safe run is: one that no stop of the machine ends (R421). -/

namespace Sys2Proof.Machine

/-- A slot's instruction takes effect: its predicate reads true (R11) and no request stands on a register it names (R22). -/
abbrev Effective (qp : PredNo) (regs : List PDest) (s : State) : Prop := s.core.p qp = true ∧ ∀ d ∈ regs, s.core.pendOn d = none

/-- The state with one result more on its way, readable lat issue cycles on (R18). -/
def State.sends (s : State) (l : Landing) (lat : Nat) : State := s.mapCore (·.push l lat)

/-- The state with a value and its poison on their way to an x register. -/
def State.sendsX (s : State) (d : RegNo) (v : Word) (poison : Bool) (lat : Nat) : State := s.sends (.x d v poison) lat

/-- The state with bits, a tag and a poison bit on their way to a v register. -/
def State.sendsV (s : State) (d : RegNo) (b : VBits) (t : Tag) (poison : Bool) (lat : Nat) : State := s.sends (.v d b t poison) lat

/-- Whether a destination takes a masked write of a tag: its own is INVALID or the same, or no mask is named (R125). -/
abbrev Core.takesTag (c : Core) (km : BitVec 3) (d : RegNo) (t : Tag) : Prop := km = 0 ∨ (c.v d).tag = 0 ∨ (c.v d).tag = t

/-- The state with a vector result on its way under a mask KM: lanes outside keep the old bits, and its poison joins (R124, R126). -/
def State.sendsMasked (s : State) (km : BitVec 3) (d : RegNo) (b : VBits) (t : Tag) (poison : Bool) (lat : Nat) : State :=
  if km = 0 then s.sendsV d b t poison lat
  else s.sendsV d (blend (s.core.k km) b (s.core.v d).bits) t (poison || (s.core.v d).poison) lat

/-- The state on whose bundle it is noted that a slot has passed its own checks and closes its region: a wait from here on leaves the bundle
begun (R32). -/
def State.passing (s : State) : State := s.mapCore (fun c => { c with ctl := { c.ctl with passed := true } })

/-- A region-closing instruction gets as far as its own effect: no handler runs, no failed load waits to be reported, and the gate is released
(R32, R228, R343); t is the state then. -/
def State.Closes (s t : State) : Prop :=
  s.core.sys.intrap = false ∧ s.core.failedLoad = none ∧ ∃ u, s.passing.openGate = .ok u ∧ t = u.closed

/-- The state with a result that has been made and lands on arrival in an x register (R21). -/
def State.pendsX (s : State) (d : RegNo) (sig : Option Nat) (w : Word) : State :=
  s.mapCore (fun c => { c with pipe := c.pipe.pend c.ctl.slot [.x d] false sig (.lands [.x d w false]) })

/-- The state with a load's value on its way, counted among the loads out (R247), and the access kept with it that a resumption makes again
(R44). -/
def State.pendsLoad (s : State) (d : PDest) (k : ReqKind) (again : Option Again) : State :=
  s.mapCore (fun c => { c with pipe := c.pipe.pend c.ctl.slot [d] true none k again })

/-- The state with an entry more in the unit's store gate (R30). -/
def State.gates (s : State) (op : GateOp) : State := s.mapCore (·.gateAdd op none)

/-- The state with a copy-engine command of the bundle at issue in the gate, bound for a queue (R30, R233). -/
def State.queues (s : State) (q : BitVec 2) (cmd : Cmd) : State :=
  s.gates (.cmd q.toNat ⟨cmd, s.core.pipe.seq, true, none, none, none, 0, Progress.start⟩)

/-- The state with a tile operation of the bundle at issue at the tail of the tile queue (R185). -/
def State.tiles (s : State) (op : TileOp) : State := s.mapCore (·.enqueueTile op)

/-- Tile operations go on as long as fewer than eight stand in the queue (R185). -/
abbrev Core.tileRoom (c : Core) : Prop := c.mx.queue.length < 8

/-- The state with no fault raised, no stall and no closed region on record. -/
def State.settled (s : State) : State := s.mapCore (fun c => { c with ctl := { c.ctl with raised := none, stalled := false, passed := false } })

/-- The state that slot k's instruction is run at. -/
def State.atSlot (s : State) (k : Nat) : State :=
  s.mapCore (fun c => { c with ctl := { c.ctl with slot := k, raised := none, stalled := false, passed := false } })

/-- What the end of a core's turn leaves (R22, R344), and whether the unit has issued. -/
def Turn.done : Turn → TeamRes
  | .issued t f => ⟨t.trapped (f.map (fun f => (t.core.id, f))).toList, true⟩
  | .stalls t => ⟨t.stallCycle, false⟩
  | .raises f t => ⟨enterFault f t, false⟩

/-- The core n in focus alone has its turn and is about to issue a bundle of its own order, with nothing to hold it back: its issue would not
freeze, no tile entry has a fault to report, no sequence runs, and the bundle has been neither begun nor marked nor refused (R22, R41,
R86, R192). -/
abbrev State.AboutTo (s : State) (n : Nat) (b : Bundle) : Prop :=
  s.core.id = n ∧ s.inTurn = [n] ∧ s.wouldFreeze n = false ∧ s.core.mx.fault = none ∧ s.core.template = none ∧ s.core.lead = n ∧
  s.core.ctl.begun = none ∧ s.core.ctl.done_ = [] ∧ s.core.static b = none ∧ s.core.marks b = false

/-- Every core stands under its own number. -/
abbrev State.Numbered (s : State) : Prop := ∀ n, (s.coreOf n).id = n

/-- Whether a member of the gang in focus that has run ahead has written a byte of this core's bed in a newer bundle than the one at issue: that
byte stands (R288). -/
def State.newerAt (s : State) (a : Nat) : Bool :=
  decide (1 < s.core.team.length) && !s.core.sys.intrap &&
    s.teamLog.any (fun u => TeamStore.before ⟨s.core.ctl.issued, s.core.member, 0, [], []⟩ u && u.covers (bedPlace s.core.id a))

/-- What a bed store leaves: its bytes at the address, but for those a newer store of the gang has written; every other byte of the bed as
before; no other memory, register, flag, tile or special register of any core changed. The gang's record of its stores stands with its
lead. -/
def State.StoredBed (s t : State) (off : Nat) (bs : List Byte) : Prop :=
  (∀ i < bs.length, t.core.mem.bed.get (off + i) = if s.newerAt (off + i) = true then s.core.mem.bed.get (off + i) else bs.getD i 0) ∧
  (∀ a, a < off ∨ off + bs.length ≤ a → t.core.mem.bed.get a = s.core.mem.bed.get a) ∧
  t.mem = s.mem ∧ t.core.r = s.core.r ∧ t.core.f = s.core.f ∧ t.core.acc = s.core.acc ∧ t.core.sys = s.core.sys ∧
  t.core.ctl = s.core.ctl ∧ t.core.pipe = s.core.pipe ∧ t.core.rg.gate = s.core.rg.gate ∧ t.ctxs = s.ctxs ∧ t.disp = s.disp ∧
  ∀ n, n ≠ s.core.id → ∃ rg, t.coreOf n = { s.coreOf n with rg := rg } ∧ rg.gate = (s.coreOf n).rg.gate ∧ rg.undo = (s.coreOf n).rg.undo ∧
    (n ≠ s.core.lead → rg = (s.coreOf n).rg)

/-- No stop of the machine ends the steps from a state: only a package that has been stopped is one (R421). -/
abbrev State.Alive (s : State) : Prop := s.stopped = false

end Sys2Proof.Machine
end

