-- ==== Sys2Proof/Certificates/Slice0/Obligations.lean ====
section
/-! DEFINITION. The statements for the provers. A result statement gives the whole next state, so it is its instruction's frame too: nothing
but what it names has changed. -/

open Sys2Proof Sys2Proof.Machine

/-! Scalars (spec/04). -/

/-- R92: the fifteen three-register operations, each with its own function of x[A] and x[B], readable one issue cycle on, poisoned exactly
when a source is (R91); nothing else changes. A destination x0 discards (LandedResults).
R93: operations with an immediate; the 14-bit one is sign-extended, the shift amount is its low six bits, the bits above them are zero. The
words are those of the rules' tables: OP 01 with FN 0 to 14, OP 10 to 17. -/
def Obligations.IntegerArithmetic : Prop :=
  (∀ o : SR, [Instr.iadd o, .isub o, .andR o, .orR o, .xor o, .andn o, .orn o, .shl o, .shr o, .sar o, .ror o, .imin o, .imax o, .iminz o,
      .imaxz o].map encode =
    (List.range 15).map (fun fn => some (inS0 (0x01#6 ++ o.qp ++ o.d ++ o.a ++ o.b ++ BitVec.ofNat 8 fn)))) ∧
  (∀ o : SI, [Instr.iaddi o, .andi o, .ori o, .xori o].map encode =
    (List.range 4).map (fun k => some (inS0 (BitVec.ofNat 6 (0x10 + k) ++ o.qp ++ o.d ++ o.a ++ o.imm)))) ∧
  (∀ o : SShI, [Instr.shli o, .shri o, .sari o, .rori o].map encode =
    (List.range 4).map (fun k => some (inS0 (BitVec.ofNat 6 (0x14 + k) ++ o.qp ++ o.d ++ o.a ++ (0#8 ++ o.sh))))) ∧
  (∀ (s1 : Bool) (w : BitVec 36), w.extractLsb' 30 6 ∈ [0x14#6, 0x15, 0x16, 0x17] → w.extractLsb' 6 8 ≠ 0 →
    decodeS s1 w = .bad .illegalOperand) ∧
  (∀ (o : SR) (s : State), Effective o.qp [.x o.a, .x o.b, .x o.d] s →
     let a := s.core.x o.a
     let b := s.core.x o.b
     let n := b.toNat % 64
     let ans := fun (v : Word) => (Host.Outcome.next (s.sendsX o.d v (s.core.xp o.a || s.core.xp o.b) 1) : Res)
     exec (.iadd o) s = ans (a + b) ∧ exec (.isub o) s = ans (a - b) ∧
     exec (.andR o) s = ans (a &&& b) ∧ exec (.orR o) s = ans (a ||| b) ∧ exec (.xor o) s = ans (a ^^^ b) ∧
     exec (.andn o) s = ans (a &&& ~~~b) ∧ exec (.orn o) s = ans (a ||| ~~~b) ∧
     exec (.shl o) s = ans (a <<< n) ∧ exec (.shr o) s = ans (a >>> n) ∧ exec (.sar o) s = ans (a.sshiftRight n) ∧
     exec (.ror o) s = ans (a >>> n ||| a <<< (64 - n)) ∧
     exec (.imin o) s = ans (if a.toInt ≤ b.toInt then a else b) ∧ exec (.imax o) s = ans (if a.toInt ≤ b.toInt then b else a) ∧
     exec (.iminz o) s = ans (if a.toNat ≤ b.toNat then a else b) ∧ exec (.imaxz o) s = ans (if a.toNat ≤ b.toNat then b else a)) ∧
  (∀ (o : SI) (s : State), Effective o.qp [.x o.a, .x o.d] s →
    let a := s.core.x o.a
    let i := o.imm.signExtend 64
    let ans := fun (v : Word) => (Host.Outcome.next (s.sendsX o.d v (s.core.xp o.a) 1) : Res)
    exec (.iaddi o) s = ans (a + i) ∧ exec (.andi o) s = ans (a &&& i) ∧ exec (.ori o) s = ans (a ||| i) ∧ exec (.xori o) s = ans (a ^^^ i)) ∧
  ∀ (o : SShI) (s : State), Effective o.qp [.x o.a, .x o.d] s →
    let a := s.core.x o.a
    let n := o.sh.toNat
    let ans := fun (v : Word) => (Host.Outcome.next (s.sendsX o.d v (s.core.xp o.a) 1) : Res)
    exec (.shli o) s = ans (a <<< n) ∧ exec (.shri o) s = ans (a >>> n) ∧ exec (.sari o) s = ans (a.sshiftRight n) ∧
      exec (.rori o) s = ans (a >>> n ||| a <<< (64 - n))

/-- R94: products and quotients, the corners of a zero divisor and of the most negative dividend among them; IMULI's 14-bit operand is
sign-extended (R93). A multiply is readable 3 issue cycles on, a division 18 (R18). The words are OP 02 with FN 0 to 6, and OP 1A. -/
def Obligations.MultiplyDivide : Prop :=
  (∀ o : SR, [Instr.imul o, .imulh o, .imulhz o, .idiv o, .idivz o, .irem o, .iremz o].map encode =
    (List.range 7).map (fun fn => some (inS0 (0x02#6 ++ o.qp ++ o.d ++ o.a ++ o.b ++ BitVec.ofNat 8 fn)))) ∧
  (∀ o : SI, encode (.imuli o) = some (inS0 (0x1A#6 ++ o.qp ++ o.d ++ o.a ++ o.imm))) ∧
  (∀ (o : SR) (s : State), Effective o.qp [.x o.a, .x o.b, .x o.d] s →
    let a := s.core.x o.a
    let b := s.core.x o.b
    let ans := fun (v : Word) (lat : Nat) => (Host.Outcome.next (s.sendsX o.d v (s.core.xp o.a || s.core.xp o.b) lat) : Res)
    exec (.imul o) s = ans (a * b) 3 ∧
    exec (.imulh o) s = ans (BitVec.ofInt 64 (a.toInt * b.toInt / 2 ^ 64)) 3 ∧
    exec (.imulhz o) s = ans (BitVec.ofNat 64 (a.toNat * b.toNat / 2 ^ 64)) 3 ∧
    exec (.idiv o) s = ans (if b = 0 then BitVec.allOnes 64 else BitVec.ofInt 64 (a.toInt.tdiv b.toInt)) 18 ∧
    exec (.idivz o) s = ans (if b = 0 then BitVec.allOnes 64 else a / b) 18 ∧
    exec (.irem o) s = ans (if b = 0 then a else BitVec.ofInt 64 (a.toInt.tmod b.toInt)) 18 ∧
    exec (.iremz o) s = ans (if b = 0 then a else a % b) 18) ∧
  ∀ (o : SI) (s : State), Effective o.qp [.x o.a, .x o.d] s →
    exec (.imuli o) s = .next (s.sendsX o.d (s.core.x o.a * o.imm.signExtend 64) (s.core.xp o.a) 3)

/-- R95, R96: the unary operations and the bit fields. A count of zeros is stated by the bits it counts; EXTS and EXTZ take w bits from pos;
DEP keeps the other bits of x[D]. The unary words are OP 03 with FN 0 to 6 and B zero. -/
def Obligations.UnaryAndBitFields : Prop :=
  (∀ o : SU, [Instr.clz o, .ctz o, .popc o, .brev o, .bswap o, .iabs o, .ineg o].map encode =
    (List.range 7).map (fun fn => some (inS0 (0x03#6 ++ o.qp ++ o.d ++ o.a ++ 0#6 ++ BitVec.ofNat 8 fn)))) ∧
  (∀ (qp : PredNo) (d a b : RegNo) (fn : BitVec 8) (s1 : Bool), fn.toNat < 7 → b ≠ 0 →
    decodeS s1 (0x03#6 ++ qp ++ d ++ a ++ b ++ fn) = .bad .illegalOperand) ∧
  (∀ (o : SU) (s : State), Effective o.qp [.x o.a, .x o.d] s →
    let a := s.core.x o.a
    let ans := fun (v : Word) => (Host.Outcome.next (s.sendsX o.d v (s.core.xp o.a) 1) : Res)
    (∃ n ≤ 64, exec (.clz o) s = ans (BitVec.ofNat 64 n) ∧ (∀ i < n, a.getMsbD i = false) ∧ (n < 64 → a.getMsbD n = true)) ∧
    (∃ n ≤ 64, exec (.ctz o) s = ans (BitVec.ofNat 64 n) ∧ (∀ i < n, a.getLsbD i = false) ∧ (n < 64 → a.getLsbD n = true)) ∧
    exec (.popc o) s = ans (BitVec.ofNat 64 ((List.range 64).countP a.getLsbD)) ∧
    (∃ v : Word, exec (.brev o) s = ans v ∧ ∀ i < 64, v.getLsbD i = a.getLsbD (63 - i)) ∧
    (∃ v : Word, exec (.bswap o) s = ans v ∧ ∀ i < 8, v.extractLsb' (8 * i) 8 = a.extractLsb' (8 * (7 - i)) 8) ∧
    exec (.iabs o) s = ans (if a.toInt < 0 then -a else a) ∧ exec (.ineg o) s = ans (-a)) ∧
  ∀ (o : SBits) (s : State), (Instr.exts o).WellFormed → Effective o.qp [.x o.a, .x o.d] s →
    let a := s.core.x o.a
    let pos := o.pos.toNat
    let w := o.wm1.toNat + 1
    exec (.exts o) s = .next (s.sendsX o.d ((a.extractLsb' pos w).signExtend 64) (s.core.xp o.a) 1) ∧
    exec (.extz o) s = .next (s.sendsX o.d ((a.extractLsb' pos w).setWidth 64) (s.core.xp o.a) 1) ∧
    ∃ v : Word, exec (.dep o) s = .next (s.sendsX o.d v (s.core.xp o.a || s.core.xp o.d) 1) ∧
      ∀ i < 64, v.getLsbD i = if pos ≤ i ∧ i < pos + w then a.getLsbD (i - pos) else (s.core.x o.d).getLsbD i

/-- R97, R98, R99: LEA, SEL, MOVI, MOVK, and the moves of one element between an x and a v register. SEL takes the poison of the source it
selects; an element is numbered modulo the elements of a v register. The words of LEA, SEL, MOVI and MOVK are OP 05, 06, 18 and 19. -/
def Obligations.ScalarMoves : Prop :=
  (∀ o : SLea, encode (.lea o) = some (inS0 (0x05#6 ++ o.qp ++ o.d ++ o.a ++ o.b ++ (0#6 ++ o.sh)))) ∧
  (∀ o : SSel, encode (.sel o) = some (inS0 (0x06#6 ++ o.qp ++ o.d ++ o.a ++ o.b ++ (0#4 ++ o.pn)))) ∧
  (∀ o : SL, encode (.movi o) = some (inS0 (0x18#6 ++ o.qp ++ o.d ++ o.imm))) ∧
  (∀ o : SMovk, encode (.movk o) = some (inS0 (0x19#6 ++ o.qp ++ o.d ++ (0#2 ++ o.h ++ o.imm)))) ∧
  (∀ (qp : PredNo) (d a b : RegNo) (fn : BitVec 8) (s1 : Bool),
    (4 ≤ fn.toNat → decodeS s1 (0x05#6 ++ qp ++ d ++ a ++ b ++ fn) = .bad .illegalOperand) ∧
    (16 ≤ fn.toNat → decodeS s1 (0x06#6 ++ qp ++ d ++ a ++ b ++ fn) = .bad .illegalOperand)) ∧
  (∀ (o : SLea) (s : State), Effective o.qp [.x o.a, .x o.b, .x o.d] s →
    exec (.lea o) s = .next (s.sendsX o.d (s.core.x o.a + s.core.x o.b <<< o.sh.toNat) (s.core.xp o.a || s.core.xp o.b) 1)) ∧
  (∀ (o : SSel) (s : State), Effective o.qp [.x o.a, .x o.b, .x o.d] s →
    let r := if s.core.p o.pn = true then o.a else o.b
    exec (.sel o) s = .next (s.sendsX o.d (s.core.x r) (s.core.xp r) 1)) ∧
  (∀ (o : SL) (s : State), Effective o.qp [.x o.d] s →
    exec (.movi o) s = .next (s.sendsX o.d (o.imm.signExtend 64) false 1)) ∧
  (∀ (o : SMovk) (s : State), Effective o.qp [.x o.d] s →
    ∃ v : Word, exec (.movk o) s = .next (s.sendsX o.d v (s.core.xp o.d) 1) ∧
      ∀ j < 4, v.extractLsb' (16 * j) 16 = if j = o.h.toNat then o.imm else (s.core.x o.d).extractLsb' (16 * j) 16) ∧
  (∀ (o : SElem) (s : State), Effective o.qp [.v o.a, .x o.b, .x o.d] s → s.core.xp o.b = false →
    let w := 8 * 2 ^ o.ew.toNat
    exec (.vextr o) s = .next (s.sendsX o.d (((s.core.v o.a).bits.extractLsb' (w * ((s.core.x o.b).toNat % (4096 / w))) w).setWidth 64)
      (s.core.v o.a).poison 4)) ∧
  ∀ (o : SElem) (s : State), Effective o.qp [.x o.a, .x o.b, .v o.d] s → s.core.xp o.b = false →
    let w := 8 * 2 ^ o.ew.toNat
    let k := (s.core.x o.b).toNat % (4096 / w)
    let r := s.core.v o.d
    ∃ v : VBits, exec (.vins o) s = .next (s.sendsV o.d v (if r.tag = tINVALID then tBITS else r.tag) (r.poison || s.core.xp o.a) 4) ∧
      ∀ j < 4096 / w, v.extractLsb' (w * j) w = if j = k then (s.core.x o.a).setWidth w else r.bits.extractLsb' (w * j) w

/-- R100, R101, R103, R104: a compare with sound sources writes both predicates together: ICMP and ICMPI one issue cycle on, FCMP four; the
pair follows the combining type from the old predicates and the condition. A poisoned source raises POISON_CONSUMED.
R105, R106: predicate logic, PGET and PSET. PGET reads p0 as 1; PSET writes p1 to p15 from the bits of their numbers, and refuses a
poisoned source. The words of R105 and R106 are OP 28 with FN 0 to 4, the register fields below 16, and OP 29 with FN 0 and 1. -/
def Obligations.ComparesAndPredicates : Prop :=
  (∀ o : SP, [Instr.pand o, .por o, .pxor o, .pandn o].map encode =
    (List.range 4).map (fun fn => some (inS0 (0x28#6 ++ o.qp ++ (0#2 ++ o.d) ++ (0#2 ++ o.a) ++ (0#2 ++ o.b) ++ BitVec.ofNat 8 fn)))) ∧
  (∀ o : SP1, encode (.pnot o) = some (inS0 (0x28#6 ++ o.qp ++ (0#2 ++ o.d) ++ (0#2 ++ o.a) ++ 0#6 ++ 4#8))) ∧
  (∀ o : SD, encode (.pget o) = some (inS0 (0x29#6 ++ o.qp ++ o.d ++ 0#6 ++ 0#6 ++ 0#8))) ∧
  (∀ o : SA, encode (.pset o) = some (inS0 (0x29#6 ++ o.qp ++ 0#6 ++ o.a ++ 0#6 ++ 1#8))) ∧
  (∀ (qp : PredNo) (d a b : RegNo) (fn : BitVec 8) (s1 : Bool),
    (fn.toNat < 5 → (16 ≤ d.toNat ∨ 16 ≤ a.toNat ∨ 16 ≤ b.toNat ∨ fn = 4 ∧ b ≠ 0) →
      decodeS s1 (0x28#6 ++ qp ++ d ++ a ++ b ++ fn) = .bad .illegalOperand) ∧
    (fn = 0 ∧ (a ≠ 0 ∨ b ≠ 0) ∨ fn = 1 ∧ (d ≠ 0 ∨ b ≠ 0) → decodeS s1 (0x29#6 ++ qp ++ d ++ a ++ b ++ fn) = .bad .illegalOperand)) ∧
  ((∀ (ct : BitVec 3) (p q c : Bool), combine ct p q c =
     (match ct.toNat with
       | 0 => (c, !c)
       | 1 => (c, c)
       | 2 => (p && c, q && c)
       | 3 => (p || c, q || c)
       | 4 => (p && !c, q && !c)
       | 5 => (p || !c, q || !c)
       | 6 => (p && c, q || c)
       | _ => (p != c, !(p != c)))) ∧
   (∀ (a b : Word) (cond : BitVec 3), icond 64 cond a.toNat b.toNat =
     (match cond.toNat with
       | 0 => decide (a = b)
       | 1 => decide (a ≠ b)
       | 2 => decide (a.toInt < b.toInt)
       | 3 => decide (a.toInt ≤ b.toInt)
       | 4 => decide (a.toNat < b.toNat)
       | 5 => decide (a.toNat ≤ b.toNat)
       | 6 => a.getLsbD (b.toNat % 64)
       | _ => !(a.getLsbD (b.toNat % 64)))) ∧
   (∀ (o : SC) (s : State),
     let both := fun (c : Bool) (lat : Nat) =>
       let r := combine o.ct (s.core.p o.p1) (s.core.p o.p2) c
       (Host.Outcome.next ((s.sends (.p o.p1 r.1) lat).sends (.p o.p2 r.2) lat) : Res)
     let a := s.core.x o.a
     let b := s.core.x o.b
     (Effective o.qp [.x o.a, .x o.b] s →
       (s.core.xp o.a = false ∧ s.core.xp o.b = false →
         exec (.icmp o) s = both (icond 64 o.cond a.toNat b.toNat) 1 ∧
         exec (.fcmp o) s = both (fcond o.cond (Fmt.fp64.decode a.toNat) (Fmt.fp64.decode b.toNat)) 4) ∧
       (s.core.xp o.a = true ∨ s.core.xp o.b = true →
         exec (.icmp o) s = fault poisonConsumed s ∧ exec (.fcmp o) s = fault poisonConsumed s)) ∧
     (Effective o.qp [.x o.a] s →
       let i : Word := if o.cond.toNat < 6 then o.b.signExtend 64 else o.b.setWidth 64
       (s.core.xp o.a = false → exec (.icmpi o) s = both (icond 64 o.cond a.toNat i.toNat) 1) ∧
       (s.core.xp o.a = true → exec (.icmpi o) s = fault poisonConsumed s)))) ∧
  (∀ (o : SP) (s : State), Effective o.qp [] s →
    let a := s.core.p o.a
    let b := s.core.p o.b
    let ans := fun (v : Bool) => (Host.Outcome.next (s.sends (.p o.d v) 1) : Res)
    exec (.pand o) s = ans (a && b) ∧ exec (.por o) s = ans (a || b) ∧ exec (.pxor o) s = ans (a != b) ∧ exec (.pandn o) s = ans (a && !b)) ∧
  (∀ (o : SP1) (s : State), Effective o.qp [] s → exec (.pnot o) s = .next (s.sends (.p o.d (!(s.core.p o.a))) 1)) ∧
  (∀ (o : SD) (s : State), Effective o.qp [.x o.d] s →
    ∃ v : Word, exec (.pget o) s = .next (s.sendsX o.d v false 1) ∧
      ∀ i : PredNo, v.getLsbD i.toNat = s.core.p i ∧ ∀ j, 16 ≤ j → v.getLsbD j = false) ∧
  ∀ (o : SA) (s : State), Effective o.qp [.x o.a] s →
    (s.core.xp o.a = false → ∃ t, exec (.pset o) s = .next t ∧
      t = (List.range 15).foldl (fun u i => u.sends (.p (BitVec.ofNat 4 (i + 1)) ((s.core.x o.a).getLsbD (i + 1))) 1) s) ∧
    (s.core.xp o.a = true → exec (.pset o) s = fault poisonConsumed s)

/-- R107, R108, R109: scalar floating point: each operation's exact value, rounded once to its format with the saturate bit clear (R55);
an FP32 result stands zero-extended in x[D]. FFMA adds x[D]. FCVT converts among FP32, FP64, INT64 and INT128 (an even pair), an
integer result saturating. -/
def Obligations.ScalarFloat : Prop :=
  (∀ (o : SFp) (s : State), Effective o.qp [.x o.a, .x o.b, .x o.d] s →
    let f := sfmt o.f64
    let m := o.rnd.toNat
    let a := f.decode (s.core.x o.a).toNat
    let b := f.decode (s.core.x o.b).toNat
    let p := s.core.xp o.a || s.core.xp o.b
    let ans := fun (v : FV) (q : Bool) (lat : Nat) =>
      (Host.Outcome.next (s.sendsX o.d (BitVec.ofNat 64 (f.encode m 0 false v)) q lat) : Res)
    exec (.fadd o) s = ans (FV.add m a b) p 4 ∧ exec (.fsub o) s = ans (FV.add m a b.negate) p 4 ∧ exec (.fmul o) s = ans (FV.mul a b) p 4 ∧
    exec (.fdiv o) s = ans (FV.div a b) p 14 ∧ exec (.fmin o) s = ans (FV.min a b) p 4 ∧ exec (.fmax o) s = ans (FV.max a b) p 4 ∧
    exec (.ffma o) s = ans (FV.fma m a b (f.decode (s.core.x o.d).toNat)) (p || s.core.xp o.d) 4) ∧
  (∀ (o : SFp1) (s : State), Effective o.qp [.x o.a, .x o.d] s →
    let f := sfmt o.f64
    exec (.fsqrt o) s = .next (s.sendsX o.d (BitVec.ofNat 64 (f.encode o.rnd.toNat 0 false (FV.sqrt (f.decode (s.core.x o.a).toNat))))
      (s.core.xp o.a) 14)) ∧
  ∀ (o : SCvt) (s : State), (Instr.fcvt o).WellFormed →
    Effective o.qp ((if o.src = 3 then [.x (o.a + 1)] else []) ++ (if o.dst = 3 then [.x (o.d + 1)] else []) ++ [.x o.a, .x o.d]) s →
    let lo := s.core.x o.a
    let sg := !o.uns
    let v := match o.src.toNat with
      | 0 => Fmt.fp32.decode lo.toNat
      | 1 => Fmt.fp64.decode lo.toNat
      | 2 => FV.ofInt (intOf sg lo)
      | _ => FV.ofInt (intOf sg (s.core.x (o.a + 1) ++ lo))
    let p := s.core.xp o.a || (o.src = 3 && s.core.xp (o.a + 1))
    let m := o.rnd.toNat
    exec (.fcvt o) s = (match o.dst.toNat with
      | 0 => .next (s.sendsX o.d (BitVec.ofNat 64 (Fmt.fp32.encode m 0 false v)) p 4)
      | 1 => .next (s.sendsX o.d (BitVec.ofNat 64 (Fmt.fp64.encode m 0 false v)) p 4)
      | 2 => .next (s.sendsX o.d (BitVec.ofInt 64 (v.toInt m 0 (loInt 64 sg) (hiInt 64 sg))) p 4)
      | _ =>
        let w : BitVec 128 := BitVec.ofInt 128 (v.toInt m 0 (loInt 128 sg) (hiInt 128 sg))
        .next ((s.sendsX o.d (w.setWidth 64) p 4).sendsX (o.d + 1) ((w >>> 64).setWidth 64) p 4))

/-- R27, R110, R111: MFS answers the register as it stands at issue; MTS, its value having passed the register's map and, for a privileged
register, in privileged state, lands one issue cycle on; outside privileged state a privileged register raises PRIVILEGE, before poison
and the map are looked at. -/
def Obligations.SystemRegisters : Prop :=
  (∀ (o : SMfs) (s : State), Effective o.qp [.x o.d] s → exec (.mfs o) s = .next (s.sendsX o.d (s.core.sysRead o.sel) false 1)) ∧
  (∀ (o : SMts) (s : State), Effective o.qp [.x o.a] s →
    let open_ := mtsPrivileged o.sel = false ∨ s.core.sys.priv = true
    (open_ → s.core.xp o.a = false → mtsValueOk o.sel (s.core.x o.a) = true →
      exec (.mts o) s = .next (s.sends (.sys o.sel (s.core.x o.a)) 1)) ∧
    (open_ → s.core.xp o.a = true → exec (.mts o) s = fault poisonConsumed s) ∧
    (open_ → s.core.xp o.a = false → mtsValueOk o.sel (s.core.x o.a) = false → exec (.mts o) s = fault illegalOperand s) ∧
    (¬open_ → exec (.mts o) s = fault privilege s)) ∧
  (∀ (c : Core) (v : Word), mtsValueOk 0x8 v = true → ((Landing.sys 0x8 v).apply c).sysRead 0x8 = v) ∧
  (∀ (c : Core) (v : Word), mtsValueOk 0xA v = true → ((Landing.sys 0xA v).apply c).sysRead 0xA = v) ∧
  (∀ (c : Core) (v : Word), mtsValueOk 0x28 v = true → ((Landing.sys 0x28 v).apply c).sysRead 0x28 = v) ∧
  ∀ (c : Core) (sel : BitVec 14) (v : Word), 32 ≤ sel.toNat → sel.toNat ≤ 39 → mtsValueOk sel v = true →
    ((Landing.sys sel v).apply c).sysRead sel = v

/-- R113, R114, R115: a transfer is taken after three delay bundles. BR and CALL go disp bundles on; CALL leaves in x1 the address of the bundle
behind its third delay bundle, which stands behind the templates where its bundle holds an SQLD too (the field skip, R206); BRX, with its
link, and RET go to a register's value; CHK on poison and CHKV on poison go to their target, and CHK clears the poison bit; on a sound
register they change nothing. -/
def Obligations.Transfers : Prop :=
  (∀ (o : SBr) (s : State),
    let pc := s.core.ctl.pc
    let link := addr56 (pc + BitVec.ofNat 64 (128 + 32 * s.core.ctl.skip))
    let ans := fun (u : State) (target : Word) => (Host.Outcome.next (u.mapCore (·.transfer target)) : Res)
    (Effective o.qp [] s → exec (.br o) s = ans s (addr56 (pc + o.disp.signExtend 64 * 32))) ∧
    (Effective o.qp [.x 1] s → exec (.call o) s = ans (s.sendsX 1 link false 1) (addr56 (pc + o.disp.signExtend 64 * 32)))) ∧
  (∀ (o : SU) (s : State), Effective o.qp [.x o.a, .x o.d] s →
    let v := s.core.x o.a
    let link := addr56 (s.core.ctl.pc + BitVec.ofNat 64 (128 + 32 * s.core.ctl.skip))
    (s.core.xp o.a = false → v.toNat < 2 ^ 56 → v.toNat % 32 = 0 →
      exec (.brx o) s = .next (if o.d = 0 then s.mapCore (·.transfer v) else (s.sendsX o.d link false 1).mapCore (·.transfer v))) ∧
    (s.core.xp o.a = true → exec (.brx o) s = fault poisonConsumed s) ∧
    (s.core.xp o.a = false → ¬(v.toNat < 2 ^ 56 ∧ v.toNat % 32 = 0) → exec (.brx o) s = fault illegalOperand s)) ∧
  (∀ (o : SA) (s : State), Effective o.qp [.x o.a] s →
    let v := s.core.x o.a
    (s.core.xp o.a = false → v.toNat < 2 ^ 56 → v.toNat % 32 = 0 → exec (.ret o) s = .next (s.mapCore (·.transfer v))) ∧
    (s.core.xp o.a = true → exec (.ret o) s = fault poisonConsumed s) ∧
    (s.core.xp o.a = false → ¬(v.toNat < 2 ^ 56 ∧ v.toNat % 32 = 0) → exec (.ret o) s = fault illegalOperand s)) ∧
  ∀ (o : SI) (s : State),
    let target := addr56 (s.core.ctl.pc + o.imm.signExtend 64 * 32)
    let link := addr56 (s.core.ctl.pc + BitVec.ofNat 64 (128 + 32 * s.core.ctl.skip))
    let taken := fun (u : State) =>
      (Host.Outcome.next ((if o.d = 0 then u else u.sendsX o.d link false 1).mapCore (·.transfer target)) : Res)
    (Effective o.qp [.x o.a, .x o.d] s →
      exec (.chk o) s = if s.core.xp o.a = true then taken (s.sends (.unpoison o.a) 1) else .next s) ∧
    (Effective o.qp [.v o.a, .x o.d] s →
      exec (.chkv o) s = if (s.core.v o.a).poison = true then taken s else .next s)

/-- R23, R116, R117, R118: TRAP, RFT and HALT let three delay bundles issue; then the trap is taken with its number, once every member of its gang
has had its turn, the handler is left, or issue stops with every result in flight landed. RFT and HALT outside privileged state raise
PRIVILEGE, RFT outside a handler ILLEGAL_OPERAND. -/
def Obligations.TrapsAndHalt : Prop :=
  (∀ (o : STrap) (s : State), Effective o.qp [] s →
    exec (.trap o) s = .next (s.mapCore (·.later (.trap o.n (addr56 (s.core.ctl.pc + BitVec.ofNat 64 (128 + 32 * s.core.ctl.skip))))))) ∧
  (∀ (o : SQ) (s : State), Effective o.qp [] s →
    (s.core.sys.priv = true → exec (.halt o) s = .next (s.mapCore (·.later .halt))) ∧
    (s.core.sys.priv = true → s.core.sys.intrap = true → exec (.rft o) s = .next (s.mapCore (·.later .rft))) ∧
    (s.core.sys.priv = true → s.core.sys.intrap = false → exec (.rft o) s = fault illegalOperand s) ∧
    (s.core.sys.priv = false → exec (.halt o) s = fault privilege s ∧ exec (.rft o) s = fault privilege s)) ∧
  (∀ (c : Core) (p : Pending),
    c.later p = { c with ctl := { c.ctl with dly := 3, cont := addr56 (c.ctl.pc + BitVec.ofNat 64 (128 + 32 * c.ctl.skip)), after := some p } }) ∧
  (∀ (s : State) (n : BitVec 20) (r : Word), s.core.ctl.after = some (.trap n r) →
    s.afterDelay = (s.mapCore (fun c => { c with ctl := { c.ctl with after := none } }), some { precise trapInsn slotS0 with detail := n })) ∧
  (∀ (t : State) (f : FaultRec), (Turn.issued t (some f)).done = ⟨t.enterFaults [(t.core.id, f)], true⟩) ∧
  (∀ (s : State), s.core.ctl.after = some .rft →
    s.afterDelay = ((s.mapCore (fun c => { c.land with ctl := { c.land.ctl with after := none } })).trapReturn, none)) ∧
  ∀ (s : State), s.core.ctl.after = some .halt → (∀ f ∈ s.core.pipe.flights, f.count ≤ maxCount) →
    ∃ t, s.afterDelay = (t, none) ∧ t.core.ctl.halted = true ∧ t.core.ctl.after = none ∧ t.core.pipe.flights = [] ∧
      t.mem = s.mem ∧ t.others = s.others

/-- R26, R210, R343, R345, R346: a core's entry into its handler, outside one and with a vector: TRAP_PC, STATUS.DLY and TRAP_TGT take the place
the core stands at, DLY and TRAP_TGT zero in a sequence, INTRAP and PRIV are set, results in flight go to the trap result buffer, issue goes
on at TRAP_VEC; the registers, tiles, flags, bed, queues, gate and undo log stay, and a bundle that waits with its gate released is set
aside. With TRAP_VEC zero, or inside a handler, the unit ends. The return clears INTRAP and PRIV, the trap result buffer counts on ahead of
the handler's own results, issue goes on at TRAP_PC with the delay bundles STATUS.DLY counts and the target in TRAP_TGT, and a bundle set
aside goes on where TRAP_PC still names it; a core that enters its handler and returns at once stands where it stood, its results in flight
again. -/
def Obligations.TrapEntryAndReturn : Prop :=
  (∀ c : Core,
    let k := c.trapEntry
    let dly := if c.seqr.run.isSome = true then 0 else c.ctl.dly
    (k.sys.trapPc = addr48 c.ctl.pc ∧ k.sys.dly = BitVec.ofNat 2 dly ∧ k.sys.trapTgt = if dly = 0 then 0 else addr48 c.ctl.cont) ∧
    (k.r = c.r ∧ k.f = c.f ∧ k.acc = c.acc ∧ k.mem = c.mem ∧ k.eng = c.eng ∧ k.rg = c.rg ∧ k.mx = c.mx ∧ k.seqr = c.seqr ∧ k.sig = c.sig ∧
      k.unit = c.unit) ∧
    (c.sys.intrap = false → c.sys.trapVec ≠ 0 →
      k.sys.intrap = true ∧ k.sys.priv = true ∧ k.ctl.pc = c.sys.trapVec ∧ k.ctl.dly = 0 ∧ k.pipe.trapBuf = c.pipe.flights ∧
      k.pipe.flights = [] ∧ k.pipe.reqs.map (·.kind) = c.pipe.reqs.map (·.kind) ∧ k.pipe.reqs.map (·.dests) = c.pipe.reqs.map (·.dests) ∧
      k.ctl.held = c.ctl.after ∧ k.ctl.after = none ∧
      k.ctl.heldBegun = c.ctl.begun.map (fun b => (addr48 c.ctl.pc, b, c.ctl.done_)) ∧ k.ctl.begun = none) ∧
    (c.sys.intrap = true ∨ c.sys.trapVec = 0 →
      k.sys.intrap = c.sys.intrap ∧ k.sys.priv = c.sys.priv ∧ k.ctl.after = some (.ending .fault) ∧ k.ctl.dly = 0 ∧ k.ctl.pc = c.ctl.pc)) ∧
  (∀ (c : Core) (lag : Nat),
    let k := c.trapReturn lag
    k.sys.intrap = false ∧ k.sys.priv = false ∧ k.pipe.flights = c.pipe.trapBuf ++ c.pipe.flights ∧ k.pipe.trapBuf = [] ∧
    k.ctl.pc = c.sys.trapPc ∧ k.ctl.dly = c.sys.dly.toNat ∧ k.ctl.cont = c.sys.trapTgt ∧ k.ctl.after = c.ctl.held ∧ k.ctl.lag = lag ∧
    (∀ pc b done, c.ctl.heldBegun = some (pc, b, done) → pc = c.sys.trapPc → k.ctl.begun = some b ∧ k.ctl.done_ = done) ∧
    k.r = c.r ∧ k.f = c.f ∧ k.acc = c.acc ∧ k.mem = c.mem ∧ k.rg = c.rg) ∧
  ∀ (c : Core) (lag : Nat), c.sys.intrap = false → c.sys.trapVec ≠ 0 → c.pipe.trapBuf = [] → c.ctl.dly < 4 → c.ctl.pc.toNat < 2 ^ 48 →
    c.ctl.cont.toNat < 2 ^ 48 → (c.ctl.begun.isSome = true ∨ c.ctl.done_ = []) → c.seqr.run = none →
    let k := c.trapEntry.trapReturn lag
    k.ctl.pc = c.ctl.pc ∧ k.ctl.dly = c.ctl.dly ∧ (c.ctl.dly ≠ 0 → k.ctl.cont = c.ctl.cont) ∧ k.ctl.after = c.ctl.after ∧
      k.ctl.begun = c.ctl.begun ∧ k.ctl.done_ = c.ctl.done_ ∧ k.pipe.flights = c.pipe.flights ∧ k.r = c.r ∧ k.sys.intrap = false

/-- R119, R263 to R270: the instructions that fork, end and suspend a task, their region closed first. FORK makes the child and enqueues it, its
frame word read once the gate has been released; SYNC with no child goes on at once and else marks the frame as waiting; RETF, TEND and
YIELD end or suspend the unit after three delay bundles; WAITC records its wait on a flag or on a phaser. In a gang FORK, SYNC, RETF,
YIELD and WAITC raise ILLEGAL_OP, and TEND ends it. TEND in a handler ends the unit by its fault (R343, R346), the others of these
instructions are illegal there. A TEND of plinth firmware, which is no unit, is illegal by the model's choice (log 67). -/
def Obligations.TaskInstructions : Prop :=
  (∀ (o : SAB) (s t v : State) (u : UnitInfo) (c : Ctx) (w n : Nat), s.core.unit = some u → u.gang = false →
    Effective o.qp [.x o.a, .x o.b] s → s.core.xp o.a = false → s.core.xp o.b = false →
    (s.core.x o.a).toNat < 2 ^ 56 → (s.core.x o.a).toNat % 32 = 0 → s.Closes t →
    t.readFrameWord t.seenMem u.asid (s.core.x o.a).toNat = .ok w → frameWord w = some n → t.ctx u.asid = some c →
    t.fork u c (s.core.x o.a) (t.core.x o.b) n = some v → exec (.fork o) s = .next v) ∧
  (∀ (o : SQ) (s t : State) (u : UnitInfo), s.core.unit = some u → u.gang = false → Effective o.qp [] s → s.Closes t →
    (exec (.sync o) s = if t.children u = 0 then .next t
      else .next ((t.modFrame u.asid u.frame (fun f => { f with waiting := true })).mapCore (·.later (.ending .sync)))) ∧
    (s.children u = 0 → exec (.retf o) s = .next (t.mapCore (·.later (.ending .retf))) ∧
      exec (.tend o) s = .next (t.mapCore (·.later (.ending .tend)))) ∧
    (s.children u ≠ 0 → exec (.retf o) s = fault illegalOperand s ∧ exec (.tend o) s = fault illegalOperand s) ∧
    exec (.yield o) s = .next (t.mapCore (·.later (.ending .yield)))) ∧
  (∀ (o : SQ) (s t : State) (u : UnitInfo), s.core.unit = some u → u.gang = true → Effective o.qp [] s → s.Closes t →
    exec (.tend o) s = .next (t.mapCore (·.later (.ending .tend)))) ∧
  (∀ (o : SA) (s t : State) (u g : UnitInfo), s.core.unit = some u → u.gang = false → Effective o.qp [.x o.a] s →
    s.core.xp o.a = false →
    let d := s.core.x o.a
    let core := desigCore d s.core.id
    bitAt d 16 = false → desigOk d = true → bitAt d 15 = false → (s.coreOf core).unit = some g → g.gang = true → g.asid = u.asid →
    s.Closes t → exec (.waitc o) s = .next (t.recordWait u (.flag core (desigFlag d) g.family) d)) ∧
  (∀ (o : SA) (s t : State) (u : UnitInfo) (p : Party), s.core.unit = some u → u.gang = false → u.place = 0 → s.isProv = false →
    Effective o.qp [.x o.a] s → s.core.xp o.a = false →
    let d := s.core.x o.a
    let n := (field d 0 6).toNat
    let k := clusterOf s.core.id
    d.toNat < 2 ^ 17 → bitAt d 16 = true → field d 6 10 = 0 → (s.phasers k u.asid).party n u.family = some p → p.wait = true →
    (p.sig = true → phGt p.sp p.wp = true) → s.Closes t →
    exec (.waitc o) s = .next (t.recordWait u (.phaser k n) d)) ∧
  (∀ (s : State) (u : UnitInfo), s.core.unit = some u → u.gang = true →
    (∀ o, exec (.fork o) s = fault illegalOp s) ∧ (∀ o, exec (.sync o) s = fault illegalOp s) ∧ (∀ o, exec (.retf o) s = fault illegalOp s) ∧
    (∀ o, exec (.yield o) s = fault illegalOp s) ∧ ∀ o, exec (.waitc o) s = fault illegalOp s) ∧
  (∀ (s : State) (u : UnitInfo) (o : SQ), s.core.unit = some u → s.core.sys.intrap = true → Effective o.qp [] s →
    (u.gang = true ∨ s.children u = 0 → exec (.tend o) s = .next (s.mapCore (·.later (.ending .fault)))) ∧
    (u.gang = false → exec (.sync o) s = fault illegalOp s ∧ exec (.retf o) s = fault illegalOp s ∧ exec (.yield o) s = fault illegalOp s)) ∧
  ∀ (s : State) (o : SQ), s.core.unit = none → exec (.tend o) s = fault illegalOp s

/-! Vectors (spec/05). -/

/-- R123, R124, R45: what an elementwise operation computes, element i of the result from elements i of the sources, for the element widths 4, 8,
16 and 32; and a result under a mask: the lanes the mask selects take the new bits, the others keep the old ones. -/
def Obligations.Lanes : Prop :=
  (∀ w ∈ [4, 8, 16, 32], ∀ i < 4096 / w, ∀ a b d : VBits,
    let e := fun (v : VBits) => (v.extractLsb' (w * i) w).toNat
    (∀ f : Nat → Nat, (mapElems w f a).extractLsb' (w * i) w = BitVec.ofNat w (f (e a))) ∧
    (∀ f : Nat → Nat → Nat, (zipElems w f a b).extractLsb' (w * i) w = BitVec.ofNat w (f (e a) (e b))) ∧
    (∀ f : Nat → Nat → Nat → Nat, (zip3Elems w f a b d).extractLsb' (w * i) w = BitVec.ofNat w (f (e a) (e b) (e d)))) ∧
  ∀ (m : Mask) (new old : VBits) (i : Nat), i < 4096 →
    (blend m new old).getLsbD i = if m.getLsbD (i / 32) = true then new.getLsbD i else old.getLsbD i

/-- R129, R130, R132: the floating-point operations on two sources and, for the accumulating ones, the old destination: each element's exact
value rounded once to the format, but a nonzero number over zero is an infinity whatever the saturate bit (the model's, log 8); a source
whose tag is not the format's raises FORMAT_MISMATCH, and so does a masked write over another tag.
R129, R130, R131: the floating-point operations on one source. The special functions take the value the model's free approximation gives
(log 3): the statement holds for every one. -/
def Obligations.VectorFloat : Prop :=
  ((∀ (o : VF) (s : State) (x y : VReg), Effective o.qp (srcRegs o.a ++ srcRegs o.b ++ [.v o.d]) s → s.core.vsrc o.a = .val x →
     s.core.vsrc o.b = .val y →
     let g := vfmt o.fmt
     let t := vfmtTag o.fmt
     let m := o.rnd.toNat
     let z := s.core.v o.d
     let two := fun (f : FV → FV → FV) (lat : Nat) => (Host.Outcome.next (s.sendsMasked o.km o.d
       (zipElems g.w (fun a b => g.encode m 0 o.sat (f (g.decode a) (g.decode b))) x.bits y.bits) t (x.poison || y.poison) lat) : Res)
     let three := fun (f : FV → FV → FV → FV) => (Host.Outcome.next (s.sendsMasked o.km o.d
       (zip3Elems g.w (fun a b d => g.encode m 0 o.sat (f (g.decode a) (g.decode b) (g.decode d))) x.bits y.bits z.bits) t
       (x.poison || y.poison || z.poison) 4) : Res)
     (x.tag = t → y.tag = t → s.core.takesTag o.km o.d t →
       exec (.vadd o) s = two (FV.add m) 4 ∧ exec (.vsub o) s = two (fun a b => FV.add m a b.negate) 4 ∧
       exec (.vmul o) s = two FV.mul 4 ∧ ∃ quot : Nat → Nat → Nat, exec (.vdiv o) s = .next (s.sendsMasked o.km o.d
         (zipElems g.w quot x.bits y.bits) t (x.poison || y.poison) 8) ∧
         ∀ a b, let overZero := (∃ n k e, g.decode a = .fin n k e ∧ k ≠ 0) ∧ (g.decode b).isZero = true
           (overZero → quot a b = g.signed ((g.decode a).neg? != (g.decode b).neg?) g.infCode) ∧
           (¬overZero → quot a b = g.encode m 0 o.sat (FV.div (g.decode a) (g.decode b)))) ∧
     (x.tag = t → y.tag = t → z.tag = t →
       exec (.vfma o) s = three (FV.fma m) ∧ exec (.vfms o) s = three (fun a b d => FV.fma m a b d.negate) ∧
       exec (.vfnma o) s = three (fun a b d => FV.add m (FV.mul a b).negate d)) ∧
     (x.tag = t → y.tag = (if g.w = 32 then tI32 else tI16) → s.core.takesTag o.km o.d t →
       exec (.vscl o) s = .next (s.sendsMasked o.km o.d
         (zipElems g.w (fun a b => vsclElem g m o.sat a (sNat g.w b)) x.bits y.bits) t (x.poison || y.poison) 4)) ∧
     (x.tag ≠ t ∨ y.tag ≠ t →
       exec (.vadd o) s = fault formatMismatch s ∧ exec (.vsub o) s = fault formatMismatch s ∧ exec (.vmul o) s = fault formatMismatch s ∧
       exec (.vdiv o) s = fault formatMismatch s ∧ exec (.vfma o) s = fault formatMismatch s) ∧
     (x.tag = t → y.tag = t → ¬s.core.takesTag o.km o.d t → exec (.vadd o) s = fault formatMismatch s)) ∧
   ∀ (o : VFmm) (s : State) (x y : VReg), Effective o.qp (srcRegs o.a ++ srcRegs o.b ++ [.v o.d]) s → s.core.vsrc o.a = .val x →
     s.core.vsrc o.b = .val y → x.tag = vfmtTag o.fmt → y.tag = vfmtTag o.fmt → s.core.takesTag o.km o.d (vfmtTag o.fmt) →
     let g := vfmt o.fmt
     let two := fun (f : FV → FV → FV) => (Host.Outcome.next (s.sendsMasked o.km o.d
       (zipElems g.w (fun a b => g.encode 0 0 false (f (g.decode a) (g.decode b))) x.bits y.bits) (vfmtTag o.fmt) (x.poison || y.poison) 4) : Res)
     exec (.vmin o) s = two FV.min ∧ exec (.vmax o) s = two FV.max) ∧
  (∀ (o : VF1) (s : State) (x : VReg), Effective o.qp (srcRegs o.a ++ [.v o.d]) s → s.core.vsrc o.a = .val x →
    x.tag = vfmtTag o.fmt → s.core.takesTag o.km o.d (vfmtTag o.fmt) →
    let g := vfmt o.fmt
    let one := fun (f : FV → FV) => (Host.Outcome.next (s.sendsMasked o.km o.d (mapElems g.w (fun a => g.encode 0 0 false (f (g.decode a))) x.bits)
      (vfmtTag o.fmt) x.poison 4) : Res)
    exec (.vabs o) s = one FV.abs ∧ exec (.vneg o) s = one FV.negate) ∧
  (∀ (o : VFr) (s : State) (x : VReg), Effective o.qp (srcRegs o.a ++ [.v o.d]) s → s.core.vsrc o.a = .val x →
    x.tag = vfmtTag o.fmt → s.core.takesTag o.km o.d (vfmtTag o.fmt) →
    let g := vfmt o.fmt
    exec (.vsqrt o) s = .next (s.sendsMasked o.km o.d (mapElems g.w (fun a => g.encode o.rnd.toNat 0 o.sat (FV.sqrt (g.decode a))) x.bits)
      (vfmtTag o.fmt) x.poison 8)) ∧
  ∀ (o : VFs) (s : State) (x : VReg), Effective o.qp (srcRegs o.a ++ [.v o.d]) s → s.core.vsrc o.a = .val x →
    (x.tag = vfmtTag o.fmt → s.core.takesTag o.km o.d (vfmtTag o.fmt) →
      let one := fun (op : Nat) => (Host.Outcome.next (s.sendsMasked o.km o.d (mapElems (vfmt o.fmt).w (approxElem op (vfmt o.fmt) o.sat) x.bits)
        (vfmtTag o.fmt) x.poison 8) : Res)
      exec (.vrcp o) s = one 0 ∧ exec (.vrsq o) s = one 1 ∧ exec (.vexp2 o) s = one 2 ∧ exec (.vlog2 o) s = one 3 ∧
      exec (.vtanh o) s = one 4) ∧
    (x.tag ≠ vfmtTag o.fmt → exec (.vrcp o) s = fault formatMismatch s)

/-- R133, R135: the integer operations: each element's exact result wrapped or, saturating, clamped; shifts by an unsigned amount; VIMAD and
VDOT4 add the old destination. -/
def Obligations.VectorInteger : Prop :=
  (∀ (o : VI) (s : State) (x y : VReg), Effective o.qp (srcRegs o.a ++ srcRegs o.b ++ [.v o.d]) s → s.core.vsrc o.a = .val x →
    s.core.vsrc o.b = .val y → x.tag = viTag o.w → y.tag = viTag o.w →
    let w := viWidth o.w
    let v := elemInt o.sgn w
    let fin := intResult o.sgn o.sat w
    let z := s.core.v o.d
    let two := fun (f : Nat → Nat → Int) => (Host.Outcome.next (s.sendsMasked o.km o.d (zipElems w (fun a b => fin (f a b)) x.bits y.bits)
      (viTag o.w) (x.poison || y.poison) 4) : Res)
    (s.core.takesTag o.km o.d (viTag o.w) →
      exec (.viadd o) s = two (fun a b => v a + v b) ∧ exec (.visub o) s = two (fun a b => v a - v b) ∧
      exec (.vimul o) s = two (fun a b => v a * v b) ∧ exec (.vshl o) s = two (fun a b => v a * (2 ^ min b (2 * w) : Nat))) ∧
    (z.tag = viTag o.w → exec (.vimad o) s = .next (s.sendsMasked o.km o.d
      (zip3Elems w (fun a b d => fin (v a * v b + v d)) x.bits y.bits z.bits) (viTag o.w) (x.poison || y.poison || z.poison) 4))) ∧
  (∀ (o : VIw) (s : State) (x y : VReg), Effective o.qp (srcRegs o.a ++ srcRegs o.b ++ [.v o.d]) s → s.core.vsrc o.a = .val x →
    s.core.vsrc o.b = .val y → x.tag = viTag o.w → y.tag = viTag o.w → s.core.takesTag o.km o.d (viTag o.w) →
    let w := viWidth o.w
    let two := fun (f : Nat → Nat → Nat) => (Host.Outcome.next (s.sendsMasked o.km o.d (zipElems w f x.bits y.bits)
      (viTag o.w) (x.poison || y.poison) 4) : Res)
    exec (.vshr o) s = two (fun a b => if b < w then a >>> b else 0) ∧
    exec (.vsar o) s = two (fun a b => natWrap w (sNat w a / (2 ^ min b w : Nat)))) ∧
  (∀ (o : VIs) (s : State) (x y : VReg), Effective o.qp (srcRegs o.a ++ srcRegs o.b ++ [.v o.d]) s → s.core.vsrc o.a = .val x →
    s.core.vsrc o.b = .val y → x.tag = viTag o.w → y.tag = viTag o.w → s.core.takesTag o.km o.d (viTag o.w) →
    let w := viWidth o.w
    let v := elemInt o.sgn w
    let two := fun (f : Nat → Nat → Nat) => (Host.Outcome.next (s.sendsMasked o.km o.d (zipElems w f x.bits y.bits)
      (viTag o.w) (x.poison || y.poison) 4) : Res)
    exec (.vimin o) s = two (fun a b => if v a ≤ v b then a else b) ∧ exec (.vimax o) s = two (fun a b => if v a ≥ v b then a else b)) ∧
  (∀ (o : VDot) (s : State) (x y : VReg), Effective o.qp (srcRegs o.a ++ srcRegs o.b ++ [.v o.d]) s → s.core.vsrc o.a = .val x →
    s.core.vsrc o.b = .val y → x.tag = tI8 → y.tag = tI8 → (s.core.v o.d).tag = tI32 →
    exec (.vdot4 o) s = .next (s.sendsMasked o.km o.d
      (zip3Elems 32 (fun a b d => intResult o.sgn o.sat 32 (elemInt o.sgn 32 d + dot4 o.sgn a b)) x.bits y.bits (s.core.v o.d).bits) tI32
      (x.poison || y.poison || (s.core.v o.d).poison) 4)) ∧
  ∀ (o : VIabs) (s : State) (x : VReg), Effective o.qp (srcRegs o.a ++ [.v o.d]) s → s.core.vsrc o.a = .val x →
    x.tag = viTag o.w → s.core.takesTag o.km o.d (viTag o.w) →
    let w := viWidth o.w
    exec (.viabs o) s = .next (s.sendsMasked o.km o.d (mapElems w (fun a => intResult true o.sat w ((sNat w a).natAbs : Int)) x.bits)
      (viTag o.w) x.poison 4)

/-- R134, R137, R146, R147, R148: bitwise operations, selection by a mask, moves, broadcasts, immediates and tags. The tag of a bitwise or a
selected result is the sources' common one, else BITS. -/
def Obligations.VectorBitsAndMoves : Prop :=
  (∀ (o : V2) (s : State) (x y : VReg), Effective o.qp (srcRegs o.a ++ srcRegs o.b ++ [.v o.d]) s → s.core.vsrc o.a = .val x →
    s.core.vsrc o.b = .val y →
    let t := if x.tag = y.tag then x.tag else tBITS
    let two := fun (v : VBits) => (Host.Outcome.next (s.sendsMasked o.km o.d v t (x.poison || y.poison) 4) : Res)
    s.core.takesTag o.km o.d t →
      exec (.vand o) s = two (x.bits &&& y.bits) ∧ exec (.vor o) s = two (x.bits ||| y.bits) ∧ exec (.vxor o) s = two (x.bits ^^^ y.bits) ∧
      exec (.vandn o) s = two (x.bits &&& ~~~y.bits)) ∧
  (∀ (o : VSelk) (s : State) (x y : VReg), Effective o.qp (srcRegs o.a ++ srcRegs o.b ++ [.v o.d]) s → s.core.vsrc o.a = .val x →
    s.core.vsrc o.b = .val y →
    let t := if x.tag = y.tag then x.tag else tBITS
    s.core.takesTag o.km o.d t →
      exec (.vselk o) s = .next (s.sendsMasked o.km o.d (blend (s.core.k o.kf) x.bits y.bits) t (x.poison || y.poison) 4)) ∧
  (∀ (o : VMv) (s : State) (x : VReg), Effective o.qp (srcRegs o.a ++ [.v o.d]) s → s.core.vsrc o.a = .val x →
    s.core.takesTag o.km o.d x.tag → exec (.vmov o) s = .next (s.sendsMasked o.km o.d x.bits x.tag x.poison 4)) ∧
  (∀ (o : VBc) (s : State), Effective o.qp [.x o.a, .v o.d] s → s.core.takesTag o.km o.d o.tag →
    exec (.vbcast o) s = .next (s.sendsMasked o.km o.d (splat (viWidth o.w) (s.core.x o.a).toNat) o.tag (s.core.xp o.a) 4)) ∧
  (∀ (o : VIm) (s : State), Effective o.qp [.v o.d] s → s.core.takesTag o.km o.d (viTag o.w) →
    exec (.vimm o) s = .next (s.sendsMasked o.km o.d (splat (viWidth o.w) (o.imm.signExtend 64).toNat) (viTag o.w) false 4)) ∧
  ∀ (o : VTg) (s : State) (x : VReg), Effective o.qp (srcRegs o.a ++ [.v o.d]) s → s.core.vsrc o.a = .val x →
    exec (.vtag o) s = .next (s.sendsV o.d x.bits o.tag x.poison 4)

/-- R136, R138, R139: compares into a lane mask, masks combined and moved. Bits of the destination mask outside KM keep their values; a
poisoned source of VCMP or KMOV.v2k raises POISON_CONSUMED. -/
def Obligations.LaneMasks : Prop :=
  (∀ (o : VCmp) (s : State) (x y : VReg), Effective o.qp (srcRegs o.a ++ srcRegs o.b) s → s.core.vsrc o.a = .val x →
    s.core.vsrc o.b = .val y →
    let t := if o.int = true then viTag o.fw else vfmtTag o.fw
    let m := maskOf (vcmpLanes o x.bits y.bits)
    (x.poison = false → y.poison = false → x.tag = t → y.tag = t →
      ∃ r : Mask, exec (.vcmp o) s = .next (s.sends (.k o.d r) 4) ∧
        ∀ i < 128, r.getLsbD i = if (s.core.k o.km).getLsbD i = true then m.getLsbD i else (s.core.k o.d).getLsbD i) ∧
    (x.poison = true ∨ y.poison = true → exec (.vcmp o) s = fault poisonConsumed s)) ∧
  (∀ (o : KL) (s : State), Effective o.qp [] s →
    let a := s.core.k o.a
    let b := s.core.k o.b
    let ans := fun (m : Mask) => (Host.Outcome.next (s.sends (.k o.d m) 1) : Res)
    exec (.kand o) s = ans (a &&& b) ∧ exec (.kor o) s = ans (a ||| b) ∧ exec (.kxor o) s = ans (a ^^^ b) ∧ exec (.kandn o) s = ans (a &&& ~~~b)) ∧
  (∀ (o : KL1) (s : State), Effective o.qp [] s →
    exec (.knot o) s = .next (s.sends (.k o.d (~~~(s.core.k o.a))) 1) ∧ exec (.kmov o) s = .next (s.sends (.k o.d (s.core.k o.a)) 1)) ∧
  (∀ (o : KV) (s : State) (x : VReg), Effective o.qp (srcRegs o.a) s → s.core.vsrc o.a = .val x →
    (x.poison = false → ∃ m : Mask, exec (.kmovV2k o) s = .next (s.sends (.k o.d m) 1) ∧
      ∀ i < 128, m.getLsbD i = x.bits.getLsbD (32 * i + 31)) ∧
    (x.poison = true → exec (.kmovV2k o) s = fault poisonConsumed s)) ∧
  ∀ (o : VK) (s : State), Effective o.qp [.v o.d] s →
    ∃ b : VBits, exec (.kmovK2v o) s = .next (s.sendsV o.d b tI32 false 1) ∧ ∀ i < 4096, b.getLsbD i = (s.core.k o.a).getLsbD (i / 32)

/-- R143, R144, R145: permutes and reductions. VPERML picks whole lanes from A, VPERML.two from A with the old destination behind it, VPERMB
bytes from the half named; a poisoned index vector raises POISON_CONSUMED. A reduction leaves its value in element 0 and zeros above, the
lanes outside KM counting as the operation's identity; a float one combines by the fixed tree, each step rounded to FP32 where it adds. -/
def Obligations.PermutesAndReductions : Prop :=
  (∀ (o : V2) (s : State) (x y : VReg), Effective o.qp (srcRegs o.a ++ srcRegs o.b ++ [.v o.d]) s → s.core.vsrc o.a = .val x →
    s.core.vsrc o.b = .val y →
    let lane := fun (v : VBits) (i : Nat) => v.extractLsb' (32 * i) 32
    (y.poison = false → s.core.takesTag o.km o.d x.tag →
      ∃ b : VBits, exec (.vperml o) s = .next (s.sendsMasked o.km o.d b x.tag x.poison 2) ∧
        ∀ i < 128, lane b i = lane x.bits ((lane y.bits i).toNat % 128)) ∧
    (let z := s.core.v o.d
      let t := if x.tag = z.tag then x.tag else tBITS
      y.poison = false → s.core.takesTag o.km o.d t →
      ∃ b : VBits, exec (.vpermlTwo o) s = .next (s.sendsMasked o.km o.d b t (x.poison || z.poison) 2) ∧
        ∀ i < 128, lane b i = let n := (lane y.bits i).toNat % 256; if n < 128 then lane x.bits n else lane z.bits (n - 128)) ∧
    (y.poison = true → exec (.vperml o) s = fault poisonConsumed s ∧ exec (.vpermlTwo o) s = fault poisonConsumed s)) ∧
  (∀ (o : VPb) (s : State) (x y : VReg), (Instr.vpermb o).WellFormed → Effective o.qp (srcRegs o.a ++ srcRegs o.b ++ [.v o.d]) s →
    s.core.vsrc o.a = .val x → s.core.vsrc o.b = .val y →
    let t := if tagWidth x.tag ≤ 8 then x.tag else tBITS
    y.poison = false → s.core.takesTag o.km o.d t →
      ∃ b : VBits, exec (.vpermb o) s = .next (s.sendsMasked o.km o.d b t x.poison 2) ∧
        ∀ i < 512, b.extractLsb' (8 * i) 8 =
          let base := if o.half = 0 then i / 256 * 256 else if o.half = 1 then 0 else 256
          x.bits.extractLsb' (8 * (base + (y.bits.extractLsb' (8 * i) 8).toNat)) 8) ∧
  (∀ (o : VRd) (s : State) (x : VReg), Effective o.qp (srcRegs o.a ++ [.v o.d]) s → s.core.vsrc o.a = .val x →
    let g := vfmt o.fw
    let w := viWidth o.fw
    let tree := fun (f : FV → FV → FV) (id : FV) =>
      (treeReduce f 9 ((redElems (s.core.k o.km) g.w x.bits (g.encode 0 0 false id)).map g.decode)).headD id
    let toF := fun (v : FV) => (Host.Outcome.next (s.sendsV o.d (BitVec.ofNat 4096 (toF32 v)) tF32 x.poison 8) : Res)
    let fold := fun (sg : Bool) (f : Int → Int → Int) (id : Int) =>
      ((redElems (s.core.k o.km) w x.bits (natWrap w id)).map (elemInt sg w)).foldl f id
    let toI := fun (v : Int) => (Host.Outcome.next (s.sendsV o.d (BitVec.ofNat 4096 (natWrap 32 v)) tI32 x.poison 8) : Res)
    (x.tag = vfmtTag o.fw →
      exec (.vredFsum o) s = toF (tree (fun a b => f32 (toF32 (FV.add 0 a b))) (FV.zero true)) ∧
      exec (.vredFmax o) s = toF (tree FV.max (.inf true)) ∧ exec (.vredFmin o) s = toF (tree FV.min (.inf false))) ∧
    (x.tag = viTag o.fw →
      exec (.vredImax o) s = toI (fold true max (loInt w true)) ∧ exec (.vredImin o) s = toI (fold true min (hiInt w true)) ∧
      exec (.vredImaxz o) s = toI (fold false max 0) ∧ exec (.vredIminz o) s = toI (fold false min (hiInt w false))) ∧
    (x.tag ≠ vfmtTag o.fw → exec (.vredFsum o) s = fault formatMismatch s)) ∧
  ∀ (o : VRs) (s : State) (x : VReg), Effective o.qp (srcRegs o.a ++ [.v o.d]) s → s.core.vsrc o.a = .val x → x.tag = viTag o.fw →
    let w := viWidth o.fw
    let sum := ((redElems (s.core.k o.km) w x.bits 0).map (elemInt (!o.uns) w)).foldl (· + ·) 0
    exec (.vredIsum o) s = .next (s.sendsV o.d (BitVec.ofNat 4096 (intResult (!o.uns) o.sat 32 sum)) tI32 x.poison 8)

/-- R54, R140, R141, R142: VCVT on a source of a known tag: each destination element of the part converts its source element, a widening
conversion from the source's part, a narrowing or equal one into the destination's, whose other elements keep their bits; a stochastic one
draws by the element's index and counts STOCH_CTR on. A source tag of INVALID or BITS raises FORMAT_MISMATCH, and so does a narrowing over
another format; an unsigned bit for a source that is no integer, a conversion to the same format, and a part beyond the last raise
ILLEGAL_OPERAND. -/
def Obligations.Conversions : Prop :=
  ∀ (o : VCv) (s : State) (x : VReg), Effective o.qp (srcRegs o.a ++ [.v o.d]) s → s.core.vsrc o.a = .val x →
    let ws := tagWidth x.tag
    let wd := tagWidth o.dst
    let n := 4096 / max ws wd
    let p := o.part.toNat
    let old := s.core.v o.d
    let t := if o.rnd = 4 then s.mapCore (fun c => { c with sys := { c.sys with ctr := c.sys.ctr + 1 } }) else s
    let known := x.tag ≠ tINVALID ∧ x.tag ≠ tBITS
    let signs := (o.us = true → tagInt x.tag = true) ∧ (x.tag = o.dst → o.us ≠ o.ud)
    (wfCv o = true → known → signs → p < max ws wd / min ws wd → (ws > wd → old.tag = tINVALID ∨ old.tag = o.dst) →
      s.core.takesTag o.km o.d o.dst →
      ∃ b : VBits, exec (.vcvt o) s = .next (t.sendsMasked o.km o.d b o.dst (x.poison || (decide (ws > wd) && old.poison)) 3) ∧
        ∀ di < 4096 / wd, (b.extractLsb' (wd * di) wd).toNat =
          if wd ≤ ws ∧ ¬(p * n ≤ di ∧ di < p * n + n) then (old.bits.extractLsb' (wd * di) wd).toNat
          else
            let si := if wd > ws then p * n + di else di - p * n
            convertElem x.tag o.dst o.us o.ud o.rnd.toNat o.sat (if o.rnd = 4 then srBits s.core.sys.seed s.core.sys.ctr di else 0)
              (x.bits.extractLsb' (ws * si) ws).toNat % 2 ^ wd) ∧
    (¬known → exec (.vcvt o) s = fault formatMismatch s) ∧
    (known → ¬signs ∨ max ws wd / min ws wd ≤ p → exec (.vcvt o) s = fault illegalOperand s) ∧
    (known → signs → p < max ws wd / min ws wd → ws > wd → old.tag ≠ tINVALID → old.tag ≠ o.dst → exec (.vcvt o) s = fault formatMismatch s)

/-- R16, R17, R149: RFMODE N: fewer clusters are gated, their registers reading zero with tag INVALID and the results on their way to them
discarded, in flight, held for the return from a handler, or of the same bundle; every other result stays. More clusters are counted awake
24 issue cycles on; the same number changes nothing; N above the budget raises ILLEGAL_OPERAND, and a pending register among those to be
gated stalls. -/
def Obligations.RegisterFileMode : Prop :=
  ∀ (o : VRfm) (s : State), Effective o.qp [] s →
    let n := o.n.toNat
    let kept := fun (d : PDest) => ∀ r, d = .v r → vCluster r < n
    (n ≤ s.core.sys.budget → n < s.core.sys.rfN → (∀ d ∈ gatedRegs n, s.core.pendOn d = none) →
      ∃ t, exec (.rfmode o) s = .next t ∧ t.core.sys.rfN = n ∧
        (∀ r : RegNo, t.core.v r = if n ≤ vCluster r then VReg.zero else s.core.v r) ∧
        (∀ f, f ∈ t.core.pipe.flights ↔ f ∈ s.core.pipe.flights ∧ ∀ d, f.land.pdest = some d → kept d) ∧
        (∀ f, f ∈ t.core.pipe.trapBuf ↔ f ∈ s.core.pipe.trapBuf ∧ ∀ d, f.land.pdest = some d → kept d) ∧
        (∀ q ∈ t.core.pipe.reqs, ∀ d ∈ q.dests, kept d) ∧
        t.core.pipe.reqs.map (·.num) = s.core.pipe.reqs.map (·.num) ∧
        t.core.r.x = s.core.r.x ∧ t.core.mem = s.core.mem ∧ t.core.ctl = s.core.ctl ∧ t.mem = s.mem ∧ t.others = s.others) ∧
    (n ≤ s.core.sys.budget → n < s.core.sys.rfN → (∃ d ∈ gatedRegs n, (s.core.pendOn d).isSome = true) → exec (.rfmode o) s = stall s) ∧
    (n ≤ s.core.sys.budget → s.core.sys.rfN < n →
      exec (.rfmode o) s = .next (s.mapCore (fun c => { c with sys := { c.sys with
        rfN := n, wakes := c.sys.wakes ++ ((List.range n).filter (c.sys.rfN ≤ ·)).map (fun v => (v, 24)) } }))) ∧
    (n ≤ s.core.sys.budget → s.core.sys.rfN = n → exec (.rfmode o) s = .next s) ∧
    (s.core.sys.budget < n → exec (.rfmode o) s = fault illegalOperand s)

/-! Storage (spec/08, spec/14). -/

/-- R220, R37, R38: the address of a bed access: the sum of x[BASE] and the scaled offset, refused with ILLEGAL_OPERAND where it is no multiple of
the access, with HANDLE_BOUND outside the bed or, for a store, inside the line store. With base x2 an aligned access inside the bed and
below SPILL_BASE goes to the address OVF_PTR gives; one that ends beyond SPILL_LIMIT raises HANDLE_BOUND; between the two it is a bed
access like any other. -/
def Obligations.BedAddresses : Prop :=
  (∀ (c : Core) (base : RegNo) (add : Int) (n : Nat) (write : Bool), base ≠ 2 → 0 < n →
    let a := ((c.x base).toNat : Int) + add
    (a % (n : Int) ≠ 0 → bedAddr c base add n write = .bad illegalOperand) ∧
    (a % (n : Int) = 0 → a < 0 ∨ a + (n : Int) > 0x180000 → bedAddr c base add n write = .bad handleBound) ∧
    (a % (n : Int) = 0 → 0 ≤ a → a + (n : Int) ≤ 0x180000 →
      bedAddr c base add n write = if write = true ∧ a < (c.sys.lineEnd : Int) then .bad handleBound else .bed a.toNat)) ∧
  ∀ (c : Core) (add : Int) (n : Nat) (write : Bool), 0 < n →
    let a := ((c.x 2).toNat : Int) + add
    a % (n : Int) = 0 → 0 ≤ a → a + (n : Int) ≤ 0x180000 →
    (a < (c.sys.spillBase.toNat : Int) →
      bedAddr c 2 add n write = .redirect (((c.sys.ovf.toNat : Int) - ((c.sys.spillBase.toNat : Int) - a)) % 2 ^ 56).toNat) ∧
    ((c.sys.spillBase.toNat : Int) ≤ a → (c.sys.spillLimit.toNat : Int) < a + (n : Int) → bedAddr c 2 add n write = .bad handleBound) ∧
    ((c.sys.spillBase.toNat : Int) ≤ a → a + (n : Int) ≤ (c.sys.spillLimit.toNat : Int) → write = false →
      bedAddr c 2 add n write = .bed a.toNat)

/-- R37, R221, R222, R223, R231, R288: loads from the bed, readable 4 issue cycles on in an x register, 5 in a v register: the bytes at the
address as the unit sees its bed, lowest first, sign- or zero-extended, poisoned where a line read is. A load that x2 sends below
SPILL_BASE is a global load of the address OVF_PTR gives. A gather reads the lanes its mask selects, each checked in ascending order. No
memory changes. -/
def Obligations.BedLoads : Prop :=
  (∀ (o : ML) (s : State) (n : Nat) (sg : Bool), Effective o.qp [.x o.base, .x o.rg] s → s.core.xp o.base = false →
    let at_ := bedAddr s.core o.base (o.off.toInt * (n : Int)) n false
    let bytes := fun (bs : List Byte) => if sg = true then sext (wordOfBytes bs) (8 * n) else zext (wordOfBytes bs) (8 * n)
    let all := fun (r : Res) =>
      (n = 1 → sg = true → exec (.ldb o) s = r) ∧ (n = 1 → sg = false → exec (.ldbz o) s = r) ∧
      (n = 2 → sg = true → exec (.ldh o) s = r) ∧ (n = 2 → sg = false → exec (.ldhz o) s = r) ∧
      (n = 4 → sg = true → exec (.ldw o) s = r) ∧ (n = 4 → sg = false → exec (.ldwz o) s = r) ∧ (n = 8 → sg = false → exec (.ldd o) s = r)
    (∀ (off : Nat) (t : State), at_ = .bed off → s.core.tileHolds off n false = false →
      s.unitTag (if off < s.core.sys.lineEnd then [] else bedLines s.core.id off n) .read = .ok t →
      all (.next (t.sendsX o.rg (bytes ((s.seenBed s.core.id).read off n)) (linesPoisoned s.core.mem.poisoned off n) 4))) ∧
    (∀ (off : Nat), at_ = .bed off → s.core.tileHolds off n false = false →
      s.unitTag (if off < s.core.sys.lineEnd then [] else bedLines s.core.id off n) .read = .conflict →
      all (faultAt regionConflict 0 (bedVa s.core.id off) false true s)) ∧
    ∀ (va : Nat) (rs : List (Nat × Nat)) (t : State), at_ = .redirect va → s.span s.core.asid va n .read = .ok rs →
      s.touchesHeader s.core.asid va n = false → s.unitTag (rs.flatMap (fun r => memLines r.1 r.2)) .read = .ok t → t.core.ld < 32 →
      all (.next (t.pendsLoad (.x o.rg) (.lands [.x o.rg (bytes (rs.flatMap t.readRun)) (rs.any t.runPoisoned)])
        (some (.mem s.core.ctl.issued va n (.x o.rg n sg) false))))) ∧
  (∀ (o : MLTag) (s : State), Effective o.qp [.x o.base, .v o.rg] s → s.core.xp o.base = false →
    let at_ := bedAddr s.core o.base (o.off.toInt * 512) 512 false
    (∀ (off : Nat) (t : State), at_ = .bed off → s.core.tileHolds off 512 false = false →
      s.unitTag (if off < s.core.sys.lineEnd then [] else bedLines s.core.id off 512) .read = .ok t →
      exec (.vld o) s = .next (t.sendsV o.rg (BitVec.ofNat 4096 (natOfBytes ((s.seenBed s.core.id).read off 512))) o.tag
        (linesPoisoned s.core.mem.poisoned off 512) 5)) ∧
    ∀ (va : Nat) (rs : List (Nat × Nat)) (t : State), at_ = .redirect va → s.span s.core.asid va 512 .read = .ok rs →
      s.touchesHeader s.core.asid va 512 = false → s.unitTag (rs.flatMap (fun r => memLines r.1 r.2)) .read = .ok t → t.core.ld < 32 →
      exec (.vld o) s = .next (t.pendsLoad (.v o.rg)
        (.lands [.v o.rg (BitVec.ofNat 4096 (natOfBytes (rs.flatMap t.readRun))) o.tag (rs.any t.runPoisoned)])
        (some (.mem s.core.ctl.issued va 512 (.v o.rg o.tag) false)))) ∧
  (∀ (o : MGath) (s t : State) (ls : List (Nat × Nat)), Effective o.qp [.x o.base, .v o.idx, .v o.rg] s → s.core.xp o.base = false →
    (s.core.v o.idx).poison = false →
    let n := 2 ^ o.w.toNat
    let old := s.core.v o.rg
    checkLanes s.core n false (laneAddrs s.core o.km o.base o.idx) = .ok ls → ls.any (fun e => s.core.tileHolds e.2 n false) = false →
    s.tagRanges s.core.id .read (ls.map (fun e => (e.2, n))) = .ok t → (o.km = 0 ∨ old.tag = tINVALID ∨ old.tag = o.tag) →
    ∃ b : VBits, exec (.vgath o) s = .next (t.sendsV o.rg b o.tag
        (ls.any (fun e => linesPoisoned s.core.mem.poisoned e.2 n) || (o.km != 0 && old.poison)) 5) ∧
      ∀ i < 128, b.extractLsb' (32 * i) 32 = match lookup ls i with
        | some a => let v := wordOfBytes ((t.seenBed s.core.id).read a n)
          (if o.sx = true then sext v (8 * n) else zext v (8 * n)).setWidth 32
        | none => old.bits.extractLsb' (32 * i) 32) ∧
  (∀ (o : MGath) (s : State) (ls : List (Nat × Nat)) (off : Nat), Effective o.qp [.x o.base, .v o.idx, .v o.rg] s → s.core.xp o.base = false →
    (s.core.v o.idx).poison = false →
    let n := 2 ^ o.w.toNat
    checkLanes s.core n false (laneAddrs s.core o.km o.base o.idx) = .ok ls → ls.any (fun e => s.core.tileHolds e.2 n false) = false →
    s.tagRanges s.core.id .read (ls.map (fun e => (e.2, n))) = .error (some off) →
    exec (.vgath o) s = faultAt regionConflict 0 (bedVa s.core.id off) false true s) ∧
  ∀ (o : ML) (s : State), Effective o.qp [.x o.base, .x o.rg] s →
    (s.core.xp o.base = true → exec (.ldd o) s = fault poisonConsumed s) ∧
    ∀ code, s.core.xp o.base = false → bedAddr s.core o.base (o.off.toInt * 8) 8 false = .bad code → exec (.ldd o) s = fault code s

/-- R30, R37, R221, R222, R223, R288: stores to the bed write their bytes at once at the address the meaning computes, with one undo record
outside a handler, and nothing else; at the 97th record GATE_OVERFLOW is raised. A byte that a member of the gang has written in a newer
bundle stays. A store that x2 sends below SPILL_BASE goes into the gate as a global one. VSCAT writes its lanes in ascending order. -/
def Obligations.BedStores : Prop :=
  (∀ (o : ML) (s : State) (n : Nat), s.Numbered → Effective o.qp [.x o.base, .x o.rg] s → s.core.xp o.base = false → s.core.xp o.rg = false →
    let at_ := bedAddr s.core o.base (o.off.toInt * (n : Int)) n true
    let i := if n = 1 then Instr.stb o else if n = 2 then .sth o else if n = 4 then .stw o else .std o
    let bs := bytesOf (s.core.x o.rg) n
    (n = 1 ∨ n = 2 ∨ n = 4 ∨ n = 8) →
    (∀ (off : Nat) (t : State), at_ = .bed off → s.core.tileHolds off n true = false →
      s.unitTag (bedLines s.core.id off n) .write = .ok t →
      (s.core.sys.intrap = true ∨ s.core.rg.undoCount < 96 →
        ∃ u, exec i s = .next u ∧ State.StoredBed s u off bs ∧
          u.core.rg.undoCount = s.core.rg.undoCount + (if s.core.sys.intrap = true then 0 else 1)) ∧
      (s.core.sys.intrap = false → 96 ≤ s.core.rg.undoCount → exec i s = fault gateOverflow t)) ∧
    (∀ (off : Nat), at_ = .bed off → s.core.tileHolds off n true = false → s.unitTag (bedLines s.core.id off n) .write = .conflict →
      exec i s = faultAt regionConflict 0 (bedVa s.core.id off) true true s) ∧
    ∀ (va : Nat) (rs : List (Nat × Nat)), at_ = .redirect va → s.span s.core.asid va n .write = .ok rs →
      s.touchesHeader s.core.asid va n = false → s.core.sys.intrap = false →
      exec i s = if s.core.gateFull = true then fault gateOverflow s else .next (s.gates (.store va (layRuns rs bs)))) ∧
  (∀ (o : MLV) (s : State), s.Numbered → Effective o.qp [.x o.base, .v o.rg] s → s.core.xp o.base = false → (s.core.v o.rg).poison = false →
    let at_ := bedAddr s.core o.base (o.off.toInt * 512) 512 true
    let bs := bytesOf (s.core.v o.rg).bits 512
    (∀ (off : Nat) (t : State), at_ = .bed off → s.core.tileHolds off 512 true = false →
      s.unitTag (bedLines s.core.id off 512) .write = .ok t → s.core.sys.intrap = true ∨ s.core.rg.undoCount < 96 →
      ∃ u, exec (.vst o) s = .next u ∧ State.StoredBed s u off bs) ∧
    ∀ (va : Nat) (rs : List (Nat × Nat)), at_ = .redirect va → s.span s.core.asid va 512 .write = .ok rs →
      s.touchesHeader s.core.asid va 512 = false → s.core.sys.intrap = false →
      exec (.vst o) s = if s.core.gateFull = true then fault gateOverflow s else .next (s.gates (.store va (layRuns rs bs)))) ∧
  (∀ (o : MScat) (s t : State) (ls : List (Nat × Nat)), Effective o.qp [.x o.base, .v o.idx, .v o.rg] s → s.core.xp o.base = false →
    (s.core.v o.idx).poison = false → (s.core.v o.rg).poison = false →
    let n := 2 ^ o.w.toNat
    checkLanes s.core n true (laneAddrs s.core o.km o.base o.idx) = .ok ls → ls.any (fun e => s.core.tileHolds e.2 n true) = false →
    s.tagRanges s.core.id .write (ls.map (fun e => (e.2, n))) = .ok t → s.core.sys.intrap = true ∨ s.core.rg.undoCount < 96 →
    ∃ u, exec (.vscat o) s = .next u ∧ u.mem = s.mem ∧ u.core.r = s.core.r ∧ u.core.f = s.core.f ∧ u.core.acc = s.core.acc ∧
      u.core.sys = s.core.sys ∧
      ∀ a, u.core.mem.bed.get a = if s.newerAt a = true then s.core.mem.bed.get a
        else (ls.foldl (fun m e => m.write e.2 (bytesOf (elemAt (s.core.v o.rg).bits 32 e.1) n)) s.core.mem.bed).get a) ∧
  ∀ (o : ML) (s : State), Effective o.qp [.x o.base, .x o.rg] s → s.core.xp o.base = true ∨ s.core.xp o.rg = true →
    exec (.std o) s = fault poisonConsumed s

/-- R188, R224, R225, R231: accesses to another core's bed: a load reads that bed as the unit sees it and lands on arrival; a store goes into the
gate, which alone changes, or, in a handler, is performed at once; a load waits for the tile entries that hold the range, and an address
that is none of the unit's launch faults. -/
def Obligations.RemoteBed : Prop :=
  (∀ (o : ML) (s t : State) (g off : Nat), Effective o.qp [.x o.base, .x o.rg] s → s.core.xp o.base = false →
    s.remoteAddr o.base (o.off.toInt * 8) 8 false = .ok (g, off) → (s.coreOf g).tileHolds off 8 false = false →
    s.unitTag (if off < (s.coreOf g).sys.lineEnd then [] else bedLines g off 8) .read = .ok t → t.core.ld < 32 →
    exec (.rld o) s = .next (t.pendsLoad (.x o.rg) (.lands [.x o.rg (zext (wordOfBytes ((t.seenBed g).read off 8)) 64)
      (linesPoisoned (s.coreOf g).mem.poisoned off 8)]) (some (.bed s.core.ctl.issued g off 8 (.x o.rg 8 false))))) ∧
  (∀ (o : MLTag) (s t : State) (g off : Nat), Effective o.qp [.x o.base, .v o.rg] s → s.core.xp o.base = false →
    s.remoteAddr o.base (o.off.toInt * 512) 512 false = .ok (g, off) → (s.coreOf g).tileHolds off 512 false = false →
    s.unitTag (if off < (s.coreOf g).sys.lineEnd then [] else bedLines g off 512) .read = .ok t → t.core.ld < 32 →
    exec (.rvld o) s = .next (t.pendsLoad (.v o.rg) (.lands [.v o.rg (BitVec.ofNat 4096 (natOfBytes ((t.seenBed g).read off 512))) o.tag
      (linesPoisoned (s.coreOf g).mem.poisoned off 512)]) (some (.bed s.core.ctl.issued g off 512 (.v o.rg o.tag))))) ∧
  (∀ (o : ML) (s : State) (g off : Nat), Effective o.qp [.x o.base, .x o.rg] s → s.core.xp o.base = false → s.core.xp o.rg = false →
    s.remoteAddr o.base (o.off.toInt * 8) 8 true = .ok (g, off) →
    (s.core.sys.intrap = false → exec (.rst o) s = if s.core.gateFull = true then fault gateOverflow s
      else .next (s.gates (.remote g off (bytesOf (s.core.x o.rg) 8)))) ∧
    (s.core.sys.intrap = true → s.provOf s.core = none → (s.coreOf g).tileHolds off 8 true = false →
      exec (.rst o) s = .next (s.modCore g (fun c => { c with mem := c.mem.writeBed off (bytesOf (s.core.x o.rg) 8) })))) ∧
  (∀ (o : MLV) (s : State) (g off : Nat), Effective o.qp [.x o.base, .v o.rg] s → s.core.xp o.base = false → (s.core.v o.rg).poison = false →
    s.remoteAddr o.base (o.off.toInt * 512) 512 true = .ok (g, off) → s.core.sys.intrap = false →
    exec (.rvst o) s = if s.core.gateFull = true then fault gateOverflow s
      else .next (s.gates (.remote g off (bytesOf (s.core.v o.rg).bits 512)))) ∧
  ∀ (o : ML) (s : State) (code : BitVec 8) (cause va : Nat), Effective o.qp [.x o.base, .x o.rg] s → s.core.xp o.base = false →
    s.core.xp o.rg = false →
    (s.remoteAddr o.base (o.off.toInt * 8) 8 false = .error (code, cause, va) → exec (.rld o) s = faultAt code cause va false false s) ∧
    (s.remoteAddr o.base (o.off.toInt * 8) 8 true = .error (code, cause, va) → exec (.rst o) s = faultAt code cause va true false s)

/-- R226, R227, R228, R229, R230, R231, R330: loads through a handle read memory as the unit sees it and land on arrival, zero-extended; a failed
access is kept as the request's fault; a speculative load answers a poisoned reason word in its place. A VALID handle answers its own
page, a misaligned address or one outside the page faults at that address. PREF leaves all but a STALE handle and the translations
cached. -/
def Obligations.GlobalLoads : Prop :=
  (∀ (o : MG) (s t u : State) (n va pa : Nat), Effective o.qp [.x o.xi, .h o.h, .x o.rg] s → s.core.xp o.xi = false →
    s.throughHandle o.h o.xi o.off.toInt n false = (t, .at_ va pa) → t.touchesHeader t.core.asid va n = false →
    t.unitTag (memLines pa n) .read = .ok u → u.core.ld < 32 →
    let r := fun (spec : Bool) (issued : Nat) => (Host.Outcome.next (u.pendsLoad (.x o.rg)
      (.lands [.x o.rg (zext (wordOfBytes (u.readRun (pa, n))) (8 * n)) (u.runPoisoned (pa, n))])
      (some (.mem issued va n (.x o.rg n false) spec))) : Res)
    (n = 1 → exec (.gldb o) s = r false t.core.ctl.issued) ∧ (n = 2 → exec (.gldh o) s = r false t.core.ctl.issued) ∧
    (n = 4 → exec (.gldw o) s = r false t.core.ctl.issued ∧ exec (.gldsW o) s = r true s.core.ctl.issued) ∧
    (n = 8 → exec (.gldd o) s = r false t.core.ctl.issued ∧ exec (.gldsD o) s = r true s.core.ctl.issued)) ∧
  (∀ (o : MGTag) (s t u : State) (va pa : Nat), Effective o.qp [.x o.xi, .h o.h, .v o.rg] s → s.core.xp o.xi = false →
    s.throughHandle o.h o.xi o.off.toInt 512 false = (t, .at_ va pa) → t.touchesHeader t.core.asid va 512 = false →
    t.unitTag (memLines pa 512) .read = .ok u → u.core.ld < 32 →
    exec (.gvld o) s = .next (u.pendsLoad (.v o.rg) (.lands [.v o.rg (BitVec.ofNat 4096 (natOfBytes (u.readRun (pa, 512)))) o.tag
      (u.runPoisoned (pa, 512))]) (some (.mem t.core.ctl.issued va 512 (.v o.rg o.tag) false)))) ∧
  (∀ (o : MG) (s t : State) (code : BitVec 8) (cause va : Nat), Effective o.qp [.x o.xi, .h o.h, .x o.rg] s → s.core.xp o.xi = false →
    s.throughHandle o.h o.xi o.off.toInt 8 false = (t, .failed code cause va) → t.core.ld < 32 →
    exec (.gldd o) s = .next (t.pendsLoad (.x o.rg) (.failed (asRollback (accessFault code cause slotM va false))) none) ∧
    exec (.gldsD o) s = .next (t.pendsLoad (.x o.rg) (.lands [.x o.rg (BitVec.ofNat 64 (cause % 256 * 256 + code.toNat)) true]) none)) ∧
  (∀ (s : State) (hn : BitVec 4) (xi : RegNo) (off : Int) (n : Nat) (write : Bool), 0 < n →
    let h := s.core.h hn
    let va := ((h.ah + (s.core.x xi + BitVec.ofInt 64 off) * BitVec.ofNat 64 n).toNat) % 2 ^ 56
    (h.st = .none → s.throughHandle hn xi off n write = (s, .bad illegalOperand 0)) ∧
    (h.st ≠ .none → va % n ≠ 0 → s.throughHandle hn xi off n write = (s, .bad illegalOperand va)) ∧
    (h.st = .valid → va % n = 0 → va < h.base ∨ h.base + pageBytes h.size < va + n → s.throughHandle hn xi off n write = (s, .bad handleBound va)) ∧
    (h.st = .valid → va % n = 0 → h.base ≤ va → va + n ≤ h.base + pageBytes h.size → (if write = true then h.w else h.r) = true →
      s.fabricFail s.core.asid h.pa (if write = true then .write else .read) = none →
      s.throughHandle hn xi off n write = (s, .at_ va (h.pa + (va - h.base))))) ∧
  (∀ (o : MG) (s t : State) (code : BitVec 8) (va : Nat), Effective o.qp [.x o.xi, .h o.h, .x o.rg] s → s.core.xp o.xi = false →
    s.throughHandle o.h o.xi o.off.toInt 8 false = (t, .bad code va) → exec (.gldd o) s = faultAt code 0 va false false t) ∧
  ∀ (o : MPref) (s : State), Effective o.qp [.x o.xi, .h o.h] s → s.core.xp o.xi = false →
    ((s.core.h o.h).st = .valid → exec (.pref o) s = .next s) ∧
    ((s.core.h o.h).st = .none → exec (.pref o) s = fault illegalOperand s) ∧
    ((s.core.h o.h).st ≠ .valid → (s.core.h o.h).st ≠ .none → ∃ c, exec (.pref o) s = .next { s with core := c } ∧
      c.r.x = s.core.r.x ∧ c.r.v = s.core.r.v ∧ c.f = s.core.f ∧ c.acc = s.core.acc ∧ c.sys = s.core.sys ∧ c.ctl = s.core.ctl)

/-- R30, R227, R228, R343: stores through a handle go into the gate and change nothing else; a failed access goes in with its fault; a handler's
store is performed at once. -/
def Obligations.GlobalStores : Prop :=
  (∀ (o : MG) (s t : State) (n va pa : Nat), Effective o.qp [.x o.xi, .h o.h, .x o.rg] s → s.core.xp o.xi = false → s.core.xp o.rg = false →
    s.throughHandle o.h o.xi o.off.toInt n true = (t, .at_ va pa) → t.touchesHeader t.core.asid va n = false →
    let i := if n = 1 then Instr.gstb o else if n = 2 then .gsth o else if n = 4 then .gstw o else .gstd o
    let bs := bytesOf (s.core.x o.rg) n
    n = 1 ∨ n = 2 ∨ n = 4 ∨ n = 8 →
    t.mem = s.mem ∧
    (t.core.sys.intrap = false → exec i s = if t.core.gateFull = true then fault gateOverflow t else .next (t.gates (.store va [(pa, bs)]))) ∧
    (t.core.sys.intrap = true → pa < clPagePa → t.provOf t.core = none → exec i s = .next (t.storeAt t.core.asid va pa bs))) ∧
  (∀ (o : MGV) (s t : State) (va pa : Nat), Effective o.qp [.x o.xi, .h o.h, .v o.rg] s → s.core.xp o.xi = false →
    (s.core.v o.rg).poison = false →
    s.throughHandle o.h o.xi o.off.toInt 512 true = (t, .at_ va pa) → t.touchesHeader t.core.asid va 512 = false →
    t.core.sys.intrap = false →
    exec (.gvst o) s = if t.core.gateFull = true then fault gateOverflow t
      else .next (t.gates (.store va [(pa, bytesOf (s.core.v o.rg).bits 512)]))) ∧
  ∀ (o : MG) (s t : State) (code : BitVec 8) (cause va : Nat), Effective o.qp [.x o.xi, .h o.h, .x o.rg] s → s.core.xp o.xi = false →
    s.core.xp o.rg = false → s.throughHandle o.h o.xi o.off.toInt 8 true = (t, .failed code cause va) →
    t.core.sys.intrap = false → t.core.gateFull = false → t.touchesHeader t.core.asid va 8 = false →
    exec (.gstd o) s = .next (t.mapCore (·.gateAdd (.store va []) (some (asRollback (accessFault code cause slotM va true)))))

/-- R334, R335, R336: XLAT that hits lands its VALID handle 8 issue cycles on, one that misses leaves it PENDING with a walk under way; HREL
lets a handle go; HINFO reads its state word, HINFO.va the address recorded. -/
def Obligations.Handles : Prop :=
  (∀ (o : MXlat) (s : State), Effective o.qp [.x o.a, .h o.d] s → s.core.xp o.a = false →
    let a := s.core.x o.a
    (a.toNat < 2 ^ 56 → windowOf a.toNat = none →
      (∀ e c, s.core.tlbHit s.core.asid a.toNat = some (e, c) → exec (.xlat o) s = .next { s with core := c.push (.h o.d (e.handle a)) 8 }) ∧
      (s.core.tlbHit s.core.asid a.toNat = none → exec (.xlat o) s = .next (s.mapCore (fun c => { c with
        pipe := c.pipe.pend c.ctl.slot [.h o.d] false none (.lands [.h o.d ⟨.pending, a, 0, 0, 0, false, false, 0, 0⟩]) })))) ∧
    (2 ^ 56 ≤ a.toNat ∨ windowOf a.toNat ≠ none → exec (.xlat o) s = fault illegalOperand s)) ∧
  (∀ (o : MHrel) (s : State), Effective o.qp [.h o.d] s → exec (.hrel o) s = .next (s.sends (.h o.d Handle.none) 1)) ∧
  ∀ (o : MHinfo) (s : State), Effective o.qp [.h o.a, .x o.d] s →
    let h := s.core.h o.a
    exec (.hinfo o) s = .next (s.sendsX o.d (handleWord h) false 1) ∧ exec (.hinfoVa o) s = .next (s.sendsX o.d h.ah false 1) ∧
    (h.st = .none → handleWord h = 0) ∧ (h.st = .stale → handleWord h = 2#2 ++ 0#54 ++ h.code) ∧
    (h.st = .valid → (handleWord h).extractLsb' 62 2 = 1 ∧ (handleWord h).getLsbD 10 = h.r ∧ (handleWord h).getLsbD 11 = h.w)


/-! Engines, synchronization, the quarry, submissions (spec/08, spec/09, spec/13, spec/15). -/

/-- R233 to R240: outside a handler, with operands that keep their rules, each copy-engine instruction puts one command into the store gate and
changes nothing else; a poisoned operand raises POISON_CONSUMED, a full gate GATE_OVERFLOW. In a handler (R343) a command enters its queue at
once and carries no tags, or waits for a place there. FADDQ's addend is its operand scaled by the
exponent DSCALE gives, rounded to nearest even and saturated to 64 bits. -/
def Obligations.EngineCommands : Prop :=
  (∀ (o : MCQ) (s : State), Effective o.qp [.x o.d, .x o.a, .x o.b] s → s.core.sys.intrap = false →
    let d := s.core.x o.d
    let a := s.core.x o.a
    let b := s.core.x o.b
    let hi := s.core.x (o.b + 1)
    let sound := s.core.xp o.d = false ∧ s.core.xp o.a = false ∧ s.core.xp o.b = false
    (sound → s.core.gateFull = false →
      (d.toNat < 2 ^ 56 → a.toNat < 2 ^ 56 → b.toNat < 2 ^ 32 →
        exec (.copy o) s = .next (s.queues o.qu (.copy d.toNat a.toNat b.toNat))) ∧
      (∀ g, s.core.decl d.toNat = some g → d.toNat < 2 ^ 8 → a.toNat < 2 ^ 56 → 0 < b.toNat → b.toNat < 2 ^ 16 → g.kind = 2 →
        g.queue = o.qu.toNat → exec (.copyIn o) s = .next (s.queues o.qu (.copyIn d.toNat a.toNat b.toNat))) ∧
      (∀ g, s.core.decl a.toNat = some g → a.toNat < 2 ^ 8 → d.toNat < 2 ^ 56 → 0 < b.toNat → b.toNat < 2 ^ 16 → g.kind = 3 →
        exec (.copyOut o) s = .next (s.queues o.qu (.copyOut d.toNat a.toNat b.toNat))) ∧
      (d.toNat < 2 ^ 56 → a.toNat < 2 ^ 56 → s.core.pendOn (.x (o.b + 1)) = none → s.core.xp (o.b + 1) = false →
        exec (.copy2d o) s = .next (s.queues o.qu (.copy2d d.toNat a.toNat (b.toNat % 2 ^ 32) (b.toNat / 2 ^ 32)
          (hi.setWidth 32).toInt (hi.extractLsb' 32 32).toInt))) ∧
      (∀ g, let sig := a.toNat % 256
        let slot := a.toNat / 256
        let i0 : Nat := b.toNat % 2 ^ 24
        let n : Nat := b.toNat / 2 ^ 24
        let t := s.core.slotState sig slot
        s.core.decl sig = some g → a.toNat < 2 ^ 16 → b.toNat < 2 ^ 48 → 0 < n → g.arch = true → slot < g.slots → (i0 : Int) + n ≤ t.n →
        d.toNat % (if g.size = 8 then 8 else 512) = 0 → ¬(max (i0 : Int) t.floor < (i0 : Int) + n ∧ t.n - max (i0 : Int) t.floor ≥ (g.adepth : Int)) →
        s.core.sys.lineEnd ≤ d.toNat → d.toNat < 0x180000 → d.toNat + n * g.size ≤ 0x180000 → s.core.tablePending sig = false →
        exec (.ald o) s = .next (s.queues o.qu (.ald d.toNat sig slot i0 n)))) ∧
    (s.core.xp o.d = true ∨ s.core.xp o.a = true ∨ s.core.xp o.b = true → exec (.copy o) s = fault poisonConsumed s) ∧
    (sound → s.core.gateFull = true → d.toNat < 2 ^ 56 → a.toNat < 2 ^ 56 → b.toNat < 2 ^ 32 → exec (.copy o) s = fault gateOverflow s)) ∧
  (∀ (o : MCQ) (s : State), Effective o.qp [.x o.d, .x o.a, .x o.b] s → s.core.sys.intrap = true → s.core.xp o.d = false →
    s.core.xp o.a = false → s.core.xp o.b = false → (s.core.x o.d).toNat < 2 ^ 56 → (s.core.x o.a).toNat < 2 ^ 56 →
    (s.core.x o.b).toNat < 2 ^ 32 →
    ((s.core.queue o.qu.toNat).full = false → exec (.copy o) s = .next (s.mapCore (·.enqueueCmd o.qu.toNat
      ⟨.copy (s.core.x o.d).toNat (s.core.x o.a).toNat (s.core.x o.b).toNat, s.core.pipe.seq, false, (s.provOf s.core).map (·.2), none, none, 0,
        Progress.start⟩))) ∧
    ((s.core.queue o.qu.toNat).full = true → exec (.copy o) s = stall s)) ∧
  (∀ (o : MAcc) (s : State), Effective o.qp [.x o.d, .x o.a] s → s.core.sys.intrap = false → s.core.gateFull = false →
    s.core.xp o.d = false → s.core.xp o.a = false → (s.core.x o.d).toNat < 2 ^ 56 →
    (s.core.x o.d).toNat % (if o.w64 = true then 8 else 4) = 0 →
    let ans := fun (op : AccOp) => (Host.Outcome.next (s.queues o.qu (.accw op o.w64 (s.core.x o.d).toNat (s.core.x o.a) 0 0)) : Res)
    exec (.accwAdd o) s = ans .add ∧ exec (.accwMin o) s = ans .min ∧ exec (.accwMax o) s = ans .max ∧ exec (.accwMinz o) s = ans .minz ∧
    exec (.accwMaxz o) s = ans .maxz ∧ exec (.accwAnd o) s = ans .and ∧ exec (.accwOr o) s = ans .or ∧ exec (.accwXor o) s = ans .xor) ∧
  (∀ (o : MAccB) (s : State), Effective o.qp [.x o.d, .x o.a, .x o.b] s → s.core.sys.intrap = false → s.core.gateFull = false →
    s.core.xp o.d = false → s.core.xp o.a = false → s.core.xp o.b = false → (s.core.x o.d).toNat < 2 ^ 56 → s.isProv = false →
    let n := if o.w64 = true then 8 else 4
    let free := fun (r : RegNo) => let off := (s.core.x r).toNat
      off % n = 0 ∧ s.core.sys.lineEnd ≤ off ∧ off < 0x180000
    (s.core.x o.d).toNat % n = 0 →
    (free o.b → exec (.accwSwap o) s =
      .next (s.queues o.qu (.accw .swap o.w64 (s.core.x o.d).toNat (s.core.x o.a) 0 (s.core.x o.b).toNat))) ∧
    (s.core.pendOn (.x (o.b + 1)) = none → s.core.xp (o.b + 1) = false → free (o.b + 1) → exec (.accwCas o) s =
      .next (s.queues o.qu (.accw .cas o.w64 (s.core.x o.d).toNat (s.core.x o.a) (s.core.x o.b) (s.core.x (o.b + 1)).toNat)))) ∧
  ∀ (o : MFaddq) (s : State), Effective o.qp [.x o.d, .x o.a] s → s.core.sys.intrap = false → s.core.gateFull = false →
    s.core.xp o.d = false → s.core.xp o.a = false → (s.core.x o.d).toNat < 2 ^ 56 → (s.core.x o.d).toNat % 8 = 0 →
    let f := if o.f32 = true then Fmt.fp32 else Fmt.fp64
    let e := (s.core.sys.dscale.get o.dsc.toFin).toInt
    exec (.accwFaddq o) s = .next (s.queues o.qu (.accw .faddq true (s.core.x o.d).toNat
      (BitVec.ofInt 64 (((f.decode (s.core.x o.a).toNat).scale e).toInt 0 0 (-(2 ^ 63)) (2 ^ 63 - 1))) 0 0))

/-- R32: a region-closing instruction that gets as far as its own effect leaves an empty gate and no region of the unit open, and the bundle
behind it is treated as marked; with nothing in the gate it changes no register, no memory and no other core but for the region its unit
names.
R243 to R246: QNOTIFY, QFENCE, FPOSTR and FENCE close their region first. QNOTIFY's command goes into the gate with the unit its designator
names, QFENCE's entries into the queues its mask names; FPOSTR releases at its scope and posts, a provisional unit's is deferred (R315);
FENCE.rel and .full wait for the loads out, .fullq for the queues too, and release at their scope; FENCE.acq waits for nothing and
releases nothing. In a handler each of them raises ILLEGAL_OP (R343). -/
def Obligations.FencesAndPosts : Prop :=
  (∀ s t : State, s.Closes t → t.core.rg.gate = [] ∧ t.core.ctl.nextMarked = true ∧ t.core.sys.replay = false ∧
    (s.core.rg.gate = [] → t.core.r = s.core.r ∧ t.core.mem = s.core.mem ∧ t.mem = s.mem ∧ t.disp = s.disp ∧
      (s.Numbered → (t.coreOf t.core.lead).rg.id = 0 ∧
        ∀ n, n ≠ s.core.id → ∃ i, t.coreOf n = { s.coreOf n with rg := { (s.coreOf n).rg with id := i } }))) ∧
  (∀ u : State, u.Numbered → (u.closed.coreOf u.closed.core.lead).rg.id = 0) ∧
  (∀ (o : MNot) (s t : State), Effective o.qp [.x o.a] s → s.core.xp o.a = false → s.Closes t → t.core.sys.intrap = false →
    (s.core.x o.a = 0 ∨ s.desigFault (s.core.x o.a) (s.core.x o.a) = none) →
    exec (.qnotify o) s = .next (t.queues o.qu (.notify (s.core.x o.a) (t.desigUnit (s.core.x o.a))))) ∧
  (∀ (o : MQf) (s t : State), Effective o.qp [] s → s.Closes t →
    (∀ q < 4, o.mask.getLsbD q = true → (t.core.queue q).full = false) →
    ∃ u, exec (.qfence o) s = .next u ∧ ∀ q < 4, (u.core.queue q).ents = if o.mask.getLsbD q = true
      then (t.core.queue q).ents ++ [⟨.fence t.core.pipe.seq o.mask, t.core.pipe.seq, true, none, none, none, 0, Progress.start⟩]
      else (t.core.queue q).ents) ∧
  (∀ (o : MPost) (s t : State), Effective o.qp [.x o.a, .x o.b] s → s.core.xp o.a = false → s.core.xp o.b = false →
    s.canDefer = true → s.Closes t →
    let d := s.core.x o.a
    let n := (s.core.x o.b).toNat
    let k := s.coreOf (desigCore d s.core.id)
    n < 2 ^ 10 → s.desigFault d d = none → k.isTask = false → o.scope.toNat < 12 →
    scopeContains o.scope.toNat (s.agentOf s.core) (s.agentOf k) = true →
    (t.provOf t.core = none → exec (.fpostr o) s = .next ((t.unitRelease o.scope.toNat).post t.core.id d (t.desigUnit d) n)) ∧
    ∀ l u, t.provOf t.core = some (l, u) → exec (.fpostr o) s = .next (t.modLaunch l.key (fun l => { l with defer_ := l.defer_ ++
      [⟨u, t.agentOf t.core, .post (desigCore d t.core.id) (desigFlag d) n (t.desigUnit d) o.scope.toNat⟩] }))) ∧
  (∀ (o : MFence) (s t : State), Effective o.qp [] s → o.scope.toNat < 12 → s.Closes t →
    exec (.fenceAcq o) s = .next t ∧
    (t.core.loadsOut = false → exec (.fenceRel o) s = .next (t.releaseNow o.scope.toNat) ∧
      exec (.fenceFull o) s = .next (t.releaseNow o.scope.toNat)) ∧
    (t.core.loadsOut = false → (∀ q ∈ t.core.eng.toList, q.ents = []) → exec (.fenceFullq o) s = .next (t.releaseNow o.scope.toNat)) ∧
    (t.core.loadsOut = true → exec (.fenceRel o) s = stall t ∧ exec (.fenceFull o) s = stall t ∧ exec (.fenceFullq o) s = stall t) ∧
    ((∃ q ∈ t.core.eng.toList, q.ents ≠ []) → exec (.fenceFullq o) s = stall t)) ∧
  (∀ (o : MFence) (s : State), Effective o.qp [] s → s.core.sys.intrap = false → 12 ≤ o.scope.toNat →
    exec (.fenceRel o) s = fault scopeInvalid s ∧ exec (.fenceAcq o) s = fault scopeInvalid s ∧ exec (.fenceFull o) s = fault scopeInvalid s ∧
    exec (.fenceFullq o) s = fault scopeInvalid s) ∧
  ∀ s : State, s.core.sys.intrap = true →
    (∀ o : MNot, Effective o.qp [.x o.a] s → exec (.qnotify o) s = fault illegalOp s) ∧
    (∀ o : MQf, Effective o.qp [] s → exec (.qfence o) s = fault illegalOp s) ∧
    (∀ o : MPost, Effective o.qp [.x o.a, .x o.b] s → exec (.fpostr o) s = fault illegalOp s) ∧
    ∀ o : MFence, Effective o.qp [] s → exec (.fenceRel o) s = fault illegalOp s ∧ exec (.fenceAcq o) s = fault illegalOp s ∧
      exec (.fenceFull o) s = fault illegalOp s ∧ exec (.fenceFullq o) s = fault illegalOp s

/-- R248, R252: WAITN goes on once no more loads, commands and tile entries are out than it names and no queue is FAULTED; FPOST adds to a
flag of the core after a release at PACKAGE scope; FWAIT waits for a flag's count and takes it; in a handler both raise ILLEGAL_OP
(R343). -/
def Obligations.FlagsAndWaits : Prop :=
  (∀ (o : CW) (s : State), s.core.ld ≤ o.ld.toNat → s.core.cp ≤ o.cp.toNat → s.core.mx.queue.length ≤ o.tl.toNat →
    (s.core.faultedQueue = none → exec (.waitn o) s = .next s) ∧
    ∀ q f, s.core.faultedQueue = some (q, f) →
      exec (.waitn o) s = raise { f with slot := 0, queue := BitVec.ofNat 2 q, origin := 2, rb := false } s) ∧
  (∀ (o : CW) (s : State), o.ld.toNat < s.core.ld ∨ o.cp.toNat < s.core.cp ∨ o.tl.toNat < s.core.mx.queue.length →
    exec (.waitn o) s = stall s) ∧
  (∀ (o : CF) (s t : State), s.Closes t →
    exec (.fpost o) s = .next ((t.releaseNow scopePackage).applyPost t.core.id o.f.toNat o.n.toNat) ∧
    (o.n.toNat ≤ t.core.flag o.f.toNat →
      exec (.fwait o) s = .next (t.mapCore (fun c => c.setFlag o.f.toNat (c.flag o.f.toNat - o.n.toNat)))) ∧
    (t.core.flag o.f.toNat < o.n.toNat → exec (.fwait o) s = stall t)) ∧
  (∀ (o : CF) (s : State), s.core.sys.intrap = true → exec (.fpost o) s = fault illegalOp s ∧ exec (.fwait o) s = fault illegalOp s) ∧
  ∀ (c : Core) (f v : Nat), f < 32 → (c.setFlag f v).flag f = min v 65535 ∧ ∀ g, g ≠ f → (c.setFlag f v).flag g = c.flag g

/-- R255 to R260: the phaser instructions of a gang's member 0 or of a CLUSTER task: each closes its region, PHREG makes the party's record,
PHARR and PHDROP release at CLUSTER scope and count the arrival, PHWAIT waits for the phase to pass wp and counts wp on. Another member of a
gang only closes the region, and in a handler they raise ILLEGAL_OP (R343). -/
def Obligations.Phasers : Prop :=
  (∀ (s t : State) (u : UnitInfo), s.core.unit = some u → u.gang = true → u.member ≠ 0 → s.Closes t →
    (∀ o : CPr, exec (.phreg o) s = .next t) ∧
    ∀ o : CPh, exec (.pharr o) s = .next t ∧ exec (.phwait o) s = .next t ∧ exec (.phdrop o) s = .next t) ∧
  (∀ s : State, s.core.sys.intrap = true → (∀ o : CPr, exec (.phreg o) s = fault illegalOp s) ∧
    ∀ o : CPh, exec (.pharr o) s = fault illegalOp s ∧ exec (.phwait o) s = fault illegalOp s ∧ exec (.phdrop o) s = fault illegalOp s) ∧
  ∀ (s t : State) (u : UnitInfo), s.core.unit = some u → (u.gang = true ∧ u.member = 0 ∨ u.gang = false ∧ u.place = 0) → s.Closes t →
    let k := clusterOf s.core.id
    let before := s.phasers k u.asid
    let now := t.phasers k u.asid
    (∀ (o : CPr), s.isProv = false → before.party o.ph.toNat u.family = none → before.parties.length < 1024 → o.mode ≠ 3 →
      exec (.phreg o) s = .next ((t.setPhasers (now.register o.ph.toNat u.family (o.mode != 1) (o.mode != 0))).servePhaser k u.asid o.ph.toNat)) ∧
    (∀ (o : CPh) (r q : Party), before.party o.ph.toNat u.family = some r → now.party o.ph.toNat u.family = some q →
      (s.isProv = false → now.ahead o.ph.toNat q = false →
        (r.sig = true → exec (.pharr o) s =
          .next (((t.unitRelease scopeCluster).setPhasers (now.arrive o.ph.toNat q)).servePhaser k u.asid o.ph.toNat)) ∧
        exec (.phdrop o) s =
          .next (((t.unitRelease scopeCluster).setPhasers (now.drop o.ph.toNat q)).servePhaser k u.asid o.ph.toNat)) ∧
      (u.gang = true → r.wait = true → (r.sig = true → phGt r.sp r.wp = true) →
        (phGt (now.get o.ph.toNat).phase q.wp = true → exec (.phwait o) s = .next ((t.setPhasers
          (now.modParty o.ph.toNat u.family (fun p => { p with wp := p.wp + 1 }))).servePhaser k u.asid o.ph.toNat)) ∧
        (phGt (now.get o.ph.toNat).phase q.wp = false → exec (.phwait o) s = stall t)))

/-- R350 to R361, R337, R339: the quarry's instructions: each but BTGET closes its region, and is illegal in a handler (R343); the value each
brings lands in x[D]. A provisional unit allocates from its launch's retractable pool only, and its QFREE is deferred (R315). QALLOC answers 4
without such a pool, 2 where its free list is empty, else the address of the block at its head. -/
def Obligations.QuarryInstructions : Prop :=
  (∀ (o : MDAZ) (s t : State), Effective o.qp [.x o.a, .x o.d] s → s.core.xp o.a = false → s.Closes t →
    let a := s.core.x o.a
    (a.toNat < 64 → (s.isProv = false ∨ (s.retracts a.toNat).isSome = true) → exec (.qalloc o) s = .next ((t.qalloc t.core.asid a.toNat o.z).1.pendsX o.d none (t.qalloc t.core.asid a.toNat o.z).2)) ∧
    ∀ g sig slot e, a.toNat < 2 ^ 16 → s.core.selector a = some (g, sig, slot, e) →
      (s.isProv = false ∨ (s.retracts g.pool).isSome = true) →
      let tab := (t.core.slotState sig slot).table
      ((∀ i < tab.length, (tab.getD i 0).getLsbD 0 = true) → exec (.btapp o) s = .next (t.pendsX o.d (some sig) 7)) ∧
      ∀ i < tab.length, (tab.getD i 0).getLsbD 0 = false → (∀ j < i, (tab.getD j 0).getLsbD 0 = true) →
        let q := t.qalloc t.core.asid g.pool o.z
        (q.2.toNat % 256 ≠ 0 → exec (.btapp o) s = .next (q.1.pendsX o.d (some sig) q.2)) ∧
        (q.2.toNat % 256 = 0 → exec (.btapp o) s =
          .next ((q.1.mapCore (·.setEntry sig slot i (q.2 ||| 1))).pendsX o.d (some sig) q.2))) ∧
  (∀ (s : State) (asid pool : Nat) (z : Bool),
    (s.pool asid pool = none → s.qalloc asid pool z = (s, 4)) ∧
    ∀ p, s.pool asid pool = some p →
      (p.take = none → s.qalloc asid pool z = (s, 2)) ∧
      ∀ b q, p.take = some (b, q) → (s.qalloc asid pool z).2 = BitVec.ofNat 64 (p.arena + b * (16384 * 2 ^ p.bsize))) ∧
  (∀ (o : MDA) (s t : State), Effective o.qp [.x o.a, .x o.d] s → s.core.xp o.a = false → (s.core.x o.a).toNat < 2 ^ 56 → s.Closes t →
    let f := (t.unitRelease scopeQuarry).qfree t.core.asid (s.core.x o.a)
    let d := t.pdecommit t.core.asid (s.core.x o.a).toNat
    (s.canDefer = true → t.provOf t.core = none → exec (.qfree o) s = .next (f.1.pendsX o.d none f.2)) ∧
    (∀ l u, s.canDefer = true → t.provOf t.core = some (l, u) → exec (.qfree o) s = .next ((t.modLaunch l.key (fun l => { l with
      defer_ := l.defer_ ++ [⟨u, t.agentOf t.core, .qfree (s.core.x o.a) (t.core.id, t.core.pipe.nextReq)⟩] })).mapCore
        (fun c => { c with pipe := c.pipe.pend c.ctl.slot [.x o.d] false none .master }))) ∧
    (s.isProv = false → exec (.pdecommit o) s = .next (d.1.pendsX o.d none d.2))) ∧
  (∀ (o : MDA) (s : State) (g : SigDecl) (sig slot e : Nat), Effective o.qp [.x o.a, .x o.d] s → s.core.xp o.a = false →
    (s.core.x o.a).toNat < 2 ^ 40 → s.core.selector (s.core.x o.a) = some (g, sig, slot, e) →
    exec (.btget o) s = .next (s.pendsX o.d none (s.core.entry sig slot e))) ∧
  (∀ s : State, s.core.sys.intrap = true →
    (∀ o : MDAZ, Effective o.qp [.x o.a, .x o.d] s → exec (.qalloc o) s = fault illegalOp s ∧ exec (.btapp o) s = fault illegalOp s) ∧
    (∀ o : MDA, Effective o.qp [.x o.a, .x o.d] s → exec (.qfree o) s = fault illegalOp s ∧ exec (.pdecommit o) s = fault illegalOp s) ∧
    ∀ o : MDAB, Effective o.qp [.x o.a, .x o.b, .x o.d] s → exec (.btset o) s = fault illegalOp s ∧ exec (.pcommit o) s = fault illegalOp s) ∧
  ∀ (o : MDAB) (s t : State), Effective o.qp [.x o.a, .x o.b, .x o.d] s → s.core.xp o.a = false → s.core.xp o.b = false →
    s.isProv = false → s.Closes t →
    let a := s.core.x o.a
    let b := s.core.x o.b
    (∀ g sig slot e, a.toNat < 2 ^ 40 → s.core.selector a = some (g, sig, slot, e) → b.toNat < 2 ^ 56 → b.toNat / 2 % 2 ^ 13 = 0 →
      (b.getLsbD 0 = false ∨ t.namesBlock t.core.asid g.pool b = true →
        exec (.btset o) s = .next ((t.mapCore (·.setEntry sig slot e b)).pendsX o.d (some sig) 0)) ∧
      (b.getLsbD 0 = true → t.namesBlock t.core.asid g.pool b = false → exec (.btset o) s = .next (t.pendsX o.d (some sig) 6))) ∧
    (a.toNat < 2 ^ 56 → b.toNat % 2 ^ 4 ≤ 4 → b.toNat / 2 ^ 4 % 2 ^ 4 = 0 → b.toNat < 2 ^ 14 →
      let pool := b.toNat / 2 ^ 8
      (∀ p, s.pool s.core.asid pool = some p → pageBytes (b.toNat % 2 ^ 4) ≤ p.bytes ∧ a.toNat % p.bytes = 0) →
      let r := t.pcommit t.core.asid a.toNat (b.toNat % 2 ^ 4) pool
      exec (.pcommit o) s = .next (r.1.pendsX o.d none r.2))

/-- R310 to R312, R316, R321: LAUNCH and GRAPH by a task or a gang's member 0 release at PACKAGE scope and send the 64 bytes as they stand to
the package master, x[D] pending until it answers, in every member of a gang; SHAPE translates its cell, releases at PACKAGE scope and sends
its post, or has a provisional unit defer it (R315). Another member only closes its region, and in a handler all of them raise
ILLEGAL_OP (R343). -/
def Obligations.Submissions : Prop :=
  (∀ (o : MDAB) (s t : State) (graph : Bool), Effective o.qp [.x o.a, .x o.b, .x o.d] s → s.Closes t →
    let i := if graph = true then Instr.graph o else .launch o
    let a := s.core.x o.a
    let b := s.core.x o.b
    (s.core.isGang = true ∧ s.core.member ≠ 0 → exec i s = .next t) ∧
    ((s.core.isGang = false ∨ s.core.member = 0) → s.core.xp o.a = false → s.core.xp o.b = false → a.toNat % 64 = 0 → a.toNat < 2 ^ 56 →
      launchWordOk b = true → s.isProv = false →
      let rel := t.unitRelease scopePackage
      rel.core.r = s.core.r →
      (t.core.team.length ≤ 1 → rel.mem = t.mem ∧ rel.disp = t.disp) ∧
      ∃ u m, exec i s = .next u ∧ u.disp.submits = rel.disp.submits ++ [m] ∧ u.mem = rel.mem ∧
        (rel.core.team = [rel.core.id] → u.core.r = rel.core.r ∧ u.others = rel.others) ∧
        m.kind = (if graph = true then 2 else 1) ∧ m.asid = rel.core.asid ∧ m.queue = b.toNat % 2 ^ 10 ∧ m.addr = a.toNat ∧
        m.desc = rel.readWords rel.core.asid a.toNat 8 ∧
        m.notify = (if b.getLsbD 32 = true then some ((b.extractLsb' 16 16).setWidth 64) else none) ∧
        m.answer = some (rel.core.id, rel.core.pipe.nextReq) ∧
        ∀ n ∈ rel.core.team, n ≠ rel.core.id → (n, (rel.coreOf n).pipe.nextReq) ∈ m.also)) ∧
  (∀ (o : MAB) (s t : State), Effective o.qp [.x o.a, .x o.b] s → s.Closes t →
    let a := s.core.x o.a
    let b := s.core.x o.b
    (s.core.isGang = true ∧ s.core.member ≠ 0 → exec (.shapeFinal o) s = .next t ∧ exec (.shapeFloor o) s = .next t) ∧
    ∀ pa, (s.core.isGang = false ∨ s.core.member = 0) → s.core.xp o.a = false → s.core.xp o.b = false → a.toNat % 16 = 0 → a.toNat < 2 ^ 56 →
      b.toNat < 2 ^ 32 → s.translate s.core.asid a.toNat .write = .ok pa → s.canDefer = true →
      let ans := fun (final : Bool) => (Host.Outcome.next ((t.unitRelease scopePackage).sendShape
        ⟨final, (t.unitRelease scopePackage).core.asid, a.toNat, pa, b.toNat⟩) : Res)
      (t.provOf t.core = none → exec (.shapeFinal o) s = ans true ∧ exec (.shapeFloor o) s = ans false) ∧
      ∀ l u, t.provOf t.core = some (l, u) →
        let put := fun (final : Bool) => (Host.Outcome.next (t.modLaunch l.key (fun l => { l with
          defer_ := l.defer_ ++ [⟨u, t.agentOf t.core, .shape final a.toNat pa b.toNat⟩] })) : Res)
        exec (.shapeFinal o) s = put true ∧ exec (.shapeFloor o) s = put false) ∧
  ∀ s : State, s.core.sys.intrap = true →
    (∀ o : MDAB, Effective o.qp [.x o.a, .x o.b, .x o.d] s → exec (.launch o) s = fault illegalOp s ∧ exec (.graph o) s = fault illegalOp s) ∧
    ∀ o : MAB, Effective o.qp [.x o.a, .x o.b] s → exec (.shapeFinal o) s = fault illegalOp s ∧ exec (.shapeFloor o) s = fault illegalOp s

/-! Tiles, the sequencer, signals (spec/06, spec/07). -/

/-- R185 to R203, R211: tile operations enter the tile queue with what they capture at issue: the profile of PSEL and the scale set for MMA, the
sample for a port. Bed ranges are checked (a multiple of 512 bytes, inside the bed) and tagged, ATTN's archived keys and values too; one that
another agent has in use raises REGION_CONFLICT at the range that meets it (R278). An operation waits while eight stand in the queue. -/
def Obligations.TileOperations : Prop :=
  (∀ (o : XMma) (s t : State) (prof : Nat) (a : Opnd), Effective o.qp (aRegs o.a ++ [.x o.b]) s → s.core.tileRoom →
    s.core.aPoison o.a = false → s.core.xp o.b = false → s.core.profile = some prof →
    let mx := o.mode = 5
    let an := if mx then 17408 else 16384
    let bn := if mx then 8704 else 8192
    let b := (s.core.x o.b).toNat
    let tile := s.core.tile o.acc.toNat
    let op := fun (off : Nat) (remote : Option Nat) =>
      TileOp.mma o.acc.toNat a off remote o.mode.toNat o.af o.bf o.ovw o.mc prof tile.sA tile.sB tile.sPoison
    s.core.aOperand o.a an (if mx then 32768 else 16384) an (modeTag o.mode.toNat o.af) = .at_ a →
    (o.rb = false → b % 512 = 0 → b + bn ≤ 0x180000 →
      (s.tagRanges s.core.id .read (a.tagged an ++ [(b, bn)]) = .ok t → exec (.mma o) s = .next (t.tiles (op b none))) ∧
      ∀ at_, s.tagRanges s.core.id .read (a.tagged an ++ [(b, bn)]) = .error (some at_) →
        exec (.mma o) s = faultAt regionConflict 0 (bedVa s.core.id at_) false true s) ∧
    (o.rb = true → b < 2 ^ 25 →
      let off := b % 2 ^ 21
      let g := clusterOf s.core.id * 16 + b / 2 ^ 21
      off % 512 = 0 → off + bn ≤ 0x180000 →
      s.tagRanges s.core.id .read (a.tagged an) = .ok t →
      (t.reaches g = false → exec (.mma o) s = .next (t.tiles (op off (some g)))) ∧
      ∀ v, t.reaches g = true → t.tagRanges g .read [(off, bn)] = .ok v →
        exec (.mma o) s = .next (v.tiles (op off (some g))))) ∧
  (∀ (o : XAcc) (s : State), Effective o.qp [] s →
    (s.core.tileRoom → exec (.mzero o) s = .next (s.tiles (.mzero o.acc.toNat))) ∧ (¬s.core.tileRoom → exec (.mzero o) s = stall s)) ∧
  (∀ (o : XMld) (s t : State), Effective o.qp [.x o.b] s → s.core.tileRoom → s.core.xp o.b = false →
    let a := (s.core.x o.b).toNat
    let n := if o.img = 0 then 32768 else 16384
    (a % 512 = 0 → a + n ≤ 0x180000 → s.tagRanges s.core.id .read [(a, n)] = .ok t →
      exec (.mld o) s = .next (t.tiles (.mld o.acc.toNat a o.img.toNat))) ∧
    (a % 512 ≠ 0 → exec (.mld o) s = fault illegalOperand s) ∧
    (a % 512 = 0 → 0x180000 < a + n → exec (.mld o) s = fault handleBound s)) ∧
  (∀ (o : XMst) (s t : State), Effective o.qp [.x o.b] s → s.core.tileRoom → s.core.xp o.b = false →
    let a := (s.core.x o.b).toNat
    let n := if o.img = 0 then 32768 else 16384
    a % 512 = 0 → a + n ≤ 0x180000 → s.core.sys.lineEnd ≤ a → (s.core.busy o.acc.toNat = true ∨ (s.core.tile o.acc.toNat).poison = false) →
    s.tagRanges s.core.id .write [(a, n)] = .ok t → t.core.sys.intrap = false → t.core.rg.undoCount + n / 512 ≤ 96 →
    exec (.mstBed o) s = .next ((t.mapCore (fun c => { c with rg := { c.rg with undoCount := c.rg.undoCount + n / 512 } })).tiles
      (.mstBed o.acc.toNat a o.img.toNat o.sat))) ∧
  (∀ (o : XMss) (s : State) (p : Tap) (d : SigDecl), Effective o.qp [] s → s.core.tileRoom → s.core.q o.q = some p →
    s.core.decl p.sig = some d → p.lag = 0 → p.off = 0 → d.written = true → d.size = (if o.img = 0 then 32768 else 16384) →
    (s.core.pendingNow d p.sig p.slot = false → exec (.mstSignal o) s = fault offRateWrite s) ∧
    (s.core.pendingNow d p.sig p.slot = true → (d.tag = tBITS ∨ d.tag = imgTag o.img.toNat) →
      (s.core.busy o.acc.toNat = true ∨ (s.core.tile o.acc.toNat).poison = false ∨ d.kind ≠ 3) →
      exec (.mstSignal o) s = .next ((s.tiles (.mstSig o.acc.toNat p.sig p.slot (s.core.slotState p.sig p.slot).n o.img.toNat o.sat)).mapCore
        (·.setWritten d p.sig p.slot)))) ∧
  (∀ (o : XMroww) (s : State), Effective o.qp [.v o.a] s → s.core.tileRoom →
    let v := s.core.v o.a
    (v.tag = tF32 ∨ v.tag = tI32 → exec (.mrowW o) s = .next (s.tiles (.mrowW o.acc.toNat o.row.toNat v.bits v.poison))) ∧
    (v.tag ≠ tF32 → v.tag ≠ tI32 → exec (.mrowW o) s = fault formatMismatch s)) ∧
  ∀ (o : XAttn) (s t u v : State) (prof : Nat) (q : Opnd), Effective o.qp (aRegs o.a ++ [.x o.b]) s → s.core.tileRoom →
    s.core.aPoison o.a = false → s.core.xp o.b = false → s.core.profile = some prof →
    let c := s.core
    let da := (c.x o.b).toNat
    da % 64 = 0 → da + 64 ≤ 0x180000 → c.tileHolds da 64 false = false →
    let w := s.bedWords da 8
    let op := attnOf o q prof c.sys.margin ((c.slotState ((w.getD 0 0).extractLsb' 0 8).toNat ((w.getD 0 0).extractLsb' 16 8).toNat).n + 1).toNat w
    c.tablePending op.ksig = false → c.tablePending op.vsig = false → c.attnFault o.a op w = none →
    c.aOperand o.a (128 * op.d * op.esize) (128 * op.d * op.esize) (128 * op.d * op.esize) (attnTag op.fmt) = .at_ q →
    c.attnAddrFault op = none →
    let norms := if op.normBytes = 0 then [] else [(op.norms, op.normBytes)]
    s.tagRanges c.id .read ((da, 64) :: (q.tagged (128 * op.d * op.esize) ++ norms ++ [(op.state, 1024)])) = .ok t →
    t.tagSamples op.slot ((List.range (op.khi - op.klo)).flatMap (fun i => [(op.ksig, op.klo + i), (op.vsig, op.klo + i)])) = .ok u →
    u.tagRanges u.core.id .write [(op.state, 1024)] = .ok v → v.core.sys.intrap = false → v.core.rg.undoCount + 2 ≤ 96 →
    exec (.attn o) s = .next ((v.mapCore (fun c => { c with rg := { c.rg with undoCount := c.rg.undoCount + 2 } })).tiles (.attn op))

/-- R199, R200, R204: MROW brings a row of a tile that is not busy into a v register, its 64 words in the low half, 5 issue cycles on; MSCL
writes a scale set at issue, MGRP the group register, refusing a group without the core's own bit. -/
def Obligations.TileRegisters : Prop :=
  (∀ (o : XMrow) (s : State), Effective o.qp [.v o.d] s →
    (s.core.busy o.acc.toNat = false → ∃ b : VBits,
      exec (.mrow o) s = .next (s.sendsV o.d b (if o.int = true then tI32 else tF32) (s.core.tile o.acc.toNat).poison 5) ∧
      ∀ i < 4096, b.getLsbD i = (decide (i < 2048) && (s.core.tile o.acc.toNat).bits.getLsbD (2048 * o.row.toNat + i))) ∧
    (s.core.busy o.acc.toNat = true → exec (.mrow o) s = stall s)) ∧
  (∀ (o : XMscl) (s : State) (v : VReg), Effective o.qp (srcRegs o.a ++ [.x o.b]) s → s.core.busy o.acc.toNat = false →
    s.core.vsrc o.a = .val v → (s.core.x o.b).toNat < 2 ^ 32 →
    (v.tag = tF32 → ∃ u, exec (.mscl o) s = .next u ∧
      u.core.tile o.acc.toNat = { s.core.tile o.acc.toNat with
        sA := v.bits, sB := (s.core.x o.b).setWidth 32, sPoison := v.poison || s.core.xp o.b } ∧
      (∀ n, n ≠ o.acc.toNat → u.core.tile n = s.core.tile n) ∧ u.core.r = s.core.r ∧ u.core.mem = s.core.mem ∧ u.mem = s.mem) ∧
    (v.tag ≠ tF32 → exec (.mscl o) s = fault formatMismatch s)) ∧
  ∀ (o : SA) (s : State), Effective o.qp [.x o.a] s →
    let x := s.core.x o.a
    (x.toNat < 2 ^ 16 → (x = 0 ∨ x.getLsbD (placeOf s.core.id) = true) →
      exec (.mgrp o) s = .next (s.mapCore (fun c => { c with mx := { c.mx with mgrp := x.setWidth 16 } }))) ∧
    (2 ^ 16 ≤ x.toNat ∨ x ≠ 0 ∧ x.getLsbD (placeOf s.core.id) = false → exec (.mgrp o) s = fault illegalOperand s)

/-- R205 to R210: SQLD takes the program that the descriptor at an aligned bed offset and the bundles behind it make, SQGO fixes the trips and
starts the nest, SQABT ends an active sequence or drops the program, SQST reads an index, the state or a trip count, 1 issue cycle on: the
count of a level that the last SQGO has not set is a value the spec leaves open (log 77). SQGO without a program raises ILLEGAL_OPERAND; a
template bundle that cannot be fetched raises its fetch's fault, one on an uncommitted page a PAGE_FAULT (R348). -/
def Obligations.Sequencer : Prop :=
  (∀ (o : SA) (s t : State) (bs : List BundleBits) (p : SeqProg), Effective o.qp [.x o.a] s → s.core.xp o.a = false →
    let c := s.core
    let a := (c.x o.a).toNat
    let w0 := (s.seenBed c.id).readW a
    let w1 := (s.seenBed c.id).readW (a + 8)
    let n := seqWords w0
    a % 64 = 0 → a + 64 ≤ 0x180000 → seqHeadOk w0 w1 = true → c.tileHolds a (8 * n) false = false → a + 8 * n ≤ 0x180000 →
    s.tagRanges c.id .read [(a, 8 * n)] = .ok t →
    (t.fetchRun c.asid (seqTotal w1) (c.ctl.pc.toNat + 32) = .ok bs → c.seqProgram (t.bedWords a n) bs = some p →
      exec (.sqld o) s = .next (t.mapCore (fun c => { c with seqr := { c.seqr with prog := some p, run := none } }))) ∧
    ∀ code cause pc, t.fetchRun c.asid (seqTotal w1) (c.ctl.pc.toNat + 32) = .error (code, cause, pc) →
      ∃ u f, exec (.sqld o) s = .next u ∧ u.core.ctl.raised = some f ∧ f.va = BitVec.ofNat 64 pc ∧ f.origin = 3 ∧
        f.code = (if code = uncommitted then pageFault else code)) ∧
  (∀ (o : SA) (s : State), Effective o.qp [.x o.a] s →
    let a := (s.core.x o.a).toNat
    (s.core.xp o.a = true → exec (.sqld o) s = fault poisonConsumed s) ∧
    (s.core.xp o.a = false → a % 64 ≠ 0 → exec (.sqld o) s = fault illegalOperand s) ∧
    (s.core.xp o.a = false → a % 64 = 0 → 0x180000 < a + 64 → exec (.sqld o) s = fault handleBound s)) ∧
  (∀ (o : SQ) (s : State), Effective o.qp [] s →
    (∀ p, s.core.seqr.prog = some p → ∃ u, exec (.sqgo o) s = .next u ∧ u.core.seqr.prog = some p ∧ u.core.seqr.run = p.start u.core.seqr.trips ∧
      u.core.r = s.core.r ∧ u.mem = s.mem ∧ u.core.seqr.idx.length = p.levels.length ∧ (∀ i ∈ u.core.seqr.idx, i = 0) ∧
      ∀ (i : Nat) (l : Level), p.levels[i]? = some l → u.core.seqr.trips[i]? = some (if l.sl = true
        then ((((s.core.slotState p.sig p.slot).n + 1).toNat + 2 ^ l.sh - 1) / 2 ^ l.sh) else l.trip)) ∧
    (s.core.seqr.prog = none → exec (.sqgo o) s = fault illegalOperand s) ∧
    exec (.sqabt o) s = .next (s.mapCore (fun c => { c with seqr := if s.core.seqr.run = none
      then { c.seqr with prog := none } else { c.seqr with run := none } }))) ∧
  ∀ (o : XSqst) (s : State), Effective o.qp [.x o.d] s → (Instr.sqst o).WellFormed →
    let q := s.core.seqr
    let n := o.item.toNat
    exec (.sqst o) s = .next (s.sendsX o.d (if n < 6 then BitVec.ofNat 64 (q.idx.getD n 0)
      else if n = 6 then BitVec.ofNat 64 ((if q.prog = none then 0 else 1) + (if q.run = none then 0 else 2) +
        4 * (match q.prog with | some p => p.inner | none => 0))
      else match q.trips[n - 8]? with
        | some k => BitVec.ofNat 64 k
        | none => Config.noTrip (n - 8)) false 1)

/-- R177 to R184, R440: ports, tap reads and writes, SIGINF, SLOTS and SIGRST. A port is set 1 issue cycle on; TAPRD of a sample that is there
lands 4 on, of another member's share or of the archive on arrival, the prime value where it lies below the reader's floor (the model's
choice for another member's share, log 72); an absent block-table entry is a PAGE_FAULT; TAPWR writes a part of the pending sample into the line store with
one undo record and sets its written bit; SLOTS asks for a change of the next TICK; SIGRST is privileged. -/
def Obligations.Signals : Prop :=
  (∀ (o : XTs) (s : State) (d : SigDecl), Effective o.qp [] s → s.core.decl o.sig.toNat = some d →
    (o.lag.toNat < d.lagLimit → exec (.tapset o) s = .next (s.sends (.q o.q ⟨o.sig.toNat, o.lag.toNat, 0, 0⟩) 1)) ∧
    (d.lagLimit ≤ o.lag.toNat → exec (.tapset o) s = fault lagOverrun s)) ∧
  (∀ (o : XTx) (s : State) (d : SigDecl), Effective o.qp [.x o.a] s → s.core.xp o.a = false → s.core.decl o.sig.toNat = some d →
    let a := (s.core.x o.a).toNat
    let lag := a % 2 ^ 24
    let slot := a / 2 ^ 24 % 2 ^ 8
    let off := ((s.core.x o.a).extractLsb' 32 5).toInt
    let g := match s.core.unit with | some u => u.members | none => 1
    a < 2 ^ 37 → slot < d.slots → (off = 0 ∨ d.written = true ∧ off.natAbs < g) →
    (lag < d.lagLimit → (off = 0 ∨ lag ≠ 0) → exec (.tapsetx o) s = .next (s.sends (.q o.q ⟨o.sig.toNat, lag, off, slot⟩) 1)) ∧
    (d.lagLimit ≤ lag → exec (.tapsetx o) s = fault lagOverrun s) ∧
    (lag < d.lagLimit → off ≠ 0 → lag = 0 → exec (.tapsetx o) s = fault lagZero s)) ∧
  (∀ (o : XTap) (s : State) (t : Tap) (d : SigDecl), s.core.q o.q = some t → s.core.decl t.sig = some d →
    Effective o.qp (tapRegs (some d) o.x o.d) s → tapFits d o.x o.part.toNat o.d = true →
    let off := o.part.toNat * d.partBytes
    (∀ bs p, s.core.tapRead t off d.partBytes = .bytes bs p →
      exec (.taprd o) s = .next (s.mapCore (fun c => (pieces d o.x o.d bs p).foldl (fun c l => c.push l 4) c))) ∧
    (s.core.tapRead t off d.partBytes = .wait → exec (.taprd o) s = stall s) ∧
    (∀ n i, s.core.tapRead t off d.partBytes = .remote n i → i < (s.core.slotState t.sig t.slot).floor →
      exec (.taprd o) s = pendTap d o.x o.d (.lands (pieces d o.x o.d ((d.primeBytes.drop off).take d.partBytes) false)) s) ∧
    (∀ n i, s.core.tapRead t off d.partBytes = .remote n i → (s.core.slotState t.sig t.slot).floor ≤ i →
      (d.arch = false ∨ t.lag < d.depth ∨ ((s.coreOf n).slotState t.sig t.slot).n - (d.depth : Int) < i) →
      (i ≤ (s.coreOf n).sealedIdx d t.sig t.slot → exec (.taprd o) s = pendTap d o.x o.d (.lands (pieces d o.x o.d
        ((s.coreOf n).shareBytes d t.sig t.slot i off d.partBytes).1 ((s.coreOf n).shareBytes d t.sig t.slot i off d.partBytes).2)) s) ∧
      ((s.coreOf n).sealedIdx d t.sig t.slot < i →
        exec (.taprd o) s = pendTap d o.x o.d (.remoteTap n t.sig t.slot i o.part.toNat o.x o.d) s)) ∧
    ∀ n i, (s.core.tapRead t off d.partBytes = .archive i ∧ n = s.core.id ∨
        s.core.tapRead t off d.partBytes = .remote n i ∧ d.arch = true ∧ d.depth ≤ t.lag ∧
          i ≤ ((s.coreOf n).slotState t.sig t.slot).n - (d.depth : Int)) →
      (s.core.slotState t.sig t.slot).floor ≤ i → (s.coreOf n).tablePending t.sig = false →
      (∀ sel, (s.coreOf n).archiveVa d t.sig t.slot i.toNat = .error sel →
        exec (.taprd o) s = raise { accessFault pageFault 10 s.core.ctl.slot 0 false with va := sel } s) ∧
      ∀ va rs, (s.coreOf n).archiveVa d t.sig t.slot i.toNat = .ok va → s.span (s.coreOf n).asid va d.size .read = .ok rs →
        exec (.taprd o) s = pendTap d o.x o.d (.lands (pieces d o.x o.d
          (((rs.flatMap (fun e => (s.memAs (s.keyOf (s.coreOf n).asid)).read e.1 e.2)).drop off).take d.partBytes)
          ((s.coreOf n).sig.poisoned t.sig t.slot i o.part.toNat || rs.any s.runPoisoned))) s) ∧
  (∀ (o : XTw) (s : State) (t : Tap) (d : SigDecl), s.core.q o.q = some t → s.core.decl t.sig = some d →
    Effective o.qp (tapRegs (some d) o.x o.a) s → tapFits d o.x o.part.toNat o.a = true → t.lag = 0 → t.off = 0 → d.written = true →
    let c := s.core
    let n := (c.slotState t.sig t.slot).n
    let pos := d.pos t.slot n + o.part.toNat * d.partBytes
    let src := c.tapSource d o.x o.a
    (c.pendingNow d t.sig t.slot = false → exec (.tapwr o) s = fault offRateWrite s) ∧
    (c.pendingNow d t.sig t.slot = true → src.2.2 = true → (src.2.1 = false ∨ d.kind ≠ 3) → c.tileHolds pos d.partBytes true = false →
      c.sys.intrap = true ∨ c.rg.undoCount < 96 → ∃ u, exec (.tapwr o) s = .next u ∧ u.core.mem.bed = c.mem.bed.write pos src.1 ∧
        u.core.r = c.r ∧ u.core.sys = c.sys ∧ u.mem = s.mem ∧ u.others = s.others ∧
        u.core.rg.undoCount = c.rg.undoCount + (if c.sys.intrap = true then 0 else 1))) ∧
  (∀ (o : XSi) (s : State) (d : SigDecl), Effective o.qp [.x o.a, .x o.d] s → s.core.xp o.a = false → s.core.decl o.sig.toNat = some d →
    let slot := (s.core.x o.a).toNat
    (slot < d.slots → exec (.siginf o) s = .next (s.sendsX o.d (s.core.sigItem d o.sig.toNat slot o.item.toNat) false 4)) ∧
    (d.slots ≤ slot → exec (.siginf o) s = fault illegalOperand s)) ∧
  (∀ (o : XSl) (s : State) (d : SigDecl), Effective o.qp [.x o.a] s → s.core.xp o.a = false → s.core.decl o.sig.toNat = some d → d.kind = 0 →
    d.arch = true →
    let a := (s.core.x o.a).toNat
    let asks := fun (ch : SlotChange) => (Host.Outcome.next (s.mapCore (fun c => { c with sig := { c.sig with changes := c.sig.changes ++ [ch] } })) : Res)
    (a < d.slots → exec (.slotsClr o) s = asks (.clr o.sig.toNat a) ∧ exec (.slotsOne o) s = asks (.one o.sig.toNat a)) ∧
    (a % 32 = 0 → a + 32 ≤ 0x180000 → s.core.tileHolds a 32 false = false → (s.seenBed s.core.id).readNat a 32 < 2 ^ d.slots →
      d.slots ≤ 256 →
      exec (.slotsSel o) s = asks (.sel o.sig.toNat (BitVec.ofNat 256 ((s.seenBed s.core.id).readNat a 32))))) ∧
  ∀ (o : XSr) (s : State) (d : SigDecl), Effective o.qp [] s →
    (s.core.sys.priv = false → exec (.sigrst o) s = fault privilege s) ∧
    (s.core.sys.priv = true → s.core.decl o.sig.toNat = some d → d.written = true → exec (.sigrst o) s = .next (s.mapCore (·.resetFloor d o.sig.toNat)))

/-- R162 to R167, R319: TICK waits for the tile entries of earlier bundles that use samples and for tables that have not settled; then it is
precise: a part of a FAULT signal left unwritten raises UNWRITTEN_SAMPLE, a block that the write-backs after it would miss a PAGE_FAULT,
with its bundle suppressed whole. One that nothing holds back seals the open tick, counts it and opens the next: TICK rises by one,
TICK_CYCLES starts again; one that ends the launch's last tick ends the stream instead. Until a flow window has room and the launch's
prediction covers it, it stalls. In a handler it raises ILLEGAL_OP (R343). -/
def Obligations.Ticks : Prop :=
  (∀ s : State, s.core.sys.intrap = true → exec .tick s = fault illegalOp s) ∧
  (∀ s : State, s.core.sys.intrap = false → s.core.ctl.begun = none →
    let last := s.lastTick = some (s.core.sys.tick.toNat + 1)
    (s.core.tickEarly = true → exec .tick s = stall s) ∧
    (s.core.tickEarly = false → s.core.unwritten = true → exec .tick s = fault unwrittenSample s) ∧
    ∀ sel, s.core.tickEarly = false → s.core.unwritten = false → ¬last → s.core.missingBlock = some sel →
      exec .tick s = raise { accessFault pageFault 10 s.core.ctl.slot 0 false with va := sel } s) ∧
  (∀ s t : State, s.Closes t →
    let last := s.lastTick = some (s.core.sys.tick.toNat + 1)
    (s.core.ctl.begun ≠ none ∨ s.core.tickEarly = false ∧ s.core.unwritten = false ∧ (last ∨ s.core.missingBlock = none)) →
    let counted := t.sealTick.mapCore Core.countTick
    (t.core.mx.queue.any (·.op.usesSample) = true → exec .tick s = stall t) ∧
    (t.core.mx.queue.any (·.op.usesSample) = false →
      (last → exec .tick s = .next (counted.mapCore (fun c => { c with ctl := { c.ctl with after := some (.ending .stream), dly := 0 } }))) ∧
      (¬last → t.tickWaits = false → t.windowsOpen = true → exec .tick s = .next counted.openTick.countTicks) ∧
      (¬last → (t.tickWaits = true ∨ t.windowsOpen = false) → exec .tick s = stall t))) ∧
  ∀ c : Core, c.countTick.sys.tick = c.sys.tick + 1 ∧ c.countTick.sys.tickCycles = 0

/-! Events of a core (spec/01, spec/14, spec/22). -/

/-- R17, R18, R21, R29, R41, R42, R427: the events of a core. A mark lands every result, copies the registers and the place into the shadow,
begins the undo log and the tile shadows anew and sets MARKV; an entry of the gate reaches memory at it. Results land and arrive, a cluster
whose issue cycles are over is awake. In a freeze cycle every member of the team counts one in FREEZE, draws nothing and has no turn; a ballast cycle
draws 60 more. -/
def Obligations.CoreEvents : Prop :=
  (∀ (n : Nat) (s : State) (w : BundleBits),
    let f := s.focus n
    f.nextBundle f.core = .ok w → f.runs n = true → f.core.marks (decodeBundle w) = true →
    (f.core.failedLoad = none → f.core.anyPend = false → f.core.rg.gate = [] → ∃ t h, exec (.restartMark n) s = .next t ∧
      t.core.rg.shadow = some h ∧ h.r = t.core.r ∧ h.pc = f.core.ctl.pc ∧ h.dly = f.core.ctl.dly ∧ h.cont = f.core.ctl.cont ∧
      h.seqr = f.core.seqr ∧ h.sigs = f.core.sig.st ∧ t.core.r = (f.core.landAll maxCount).r ∧ t.core.rg.undo = [] ∧
      t.core.rg.undoCount = 0 ∧ t.core.rg.tiles = [] ∧ t.core.rg.gate = [] ∧ t.core.sys.markv = true ∧ t.core.ctl.nextMarked = false ∧
      t.core.mem = f.core.mem ∧ t.core.acc = f.core.acc ∧ t.mem = s.mem ∧ t.disp = s.disp ∧
      ((∀ g ∈ f.core.pipe.flights, g.count ≤ maxCount) → t.core.pipe.flights = [])) ∧
    (∀ t, f.mark = .ok t → exec (.restartMark n) s = .next t ∧ t.core.rg.gate = []) ∧
    ∀ r, f.mark = .fail r → exec (.restartMark n) s = .next (enterFault r f)) ∧
  (∀ (n : Nat) (s : State), exec (.resultLanding n) s = .next (s.modCore n Core.land)) ∧
  (∀ (n k : Nat) (s : State) (r : Request) (ls : List Landing),
    (s.coreOf n).pipe.reqs.find? (fun r => r.num == k && (s.coreOf n).arrivable r) = some r → r.kind = .lands ls →
    exec (.resultArrival n k) s = .next (s.modCore n (·.arrive r ls))) ∧
  (∀ (n v : Nat) (s : State), (v, 0) ∈ (s.coreOf n).sys.wakes →
    exec (.clusterWakeDone n v) s = .next (s.modCore n (fun c => { c with sys := { c.sys with
      wakes := c.sys.wakes.filter (fun e => e.1 != v || e.2 != 0), awake := c.sys.awake ||| BitVec.ofNat 4 (2 ^ v) } }))) ∧
  (∀ (n : Nat) (s : State),
    let team := (s.coreOf n).team
    (∃ m ∈ team, s.wouldFreeze m = true) → team.Nodup → s.Numbered →
    ∃ t, exec (.freezeCycle n) s = .next t ∧ t.turn = s.turn.filter (fun m => !(team.contains m)) ∧ t.mem = s.mem ∧
      ∀ m, t.coreOf m = if m ∈ team then (s.coreOf m).freeze s.cycle else s.coreOf m) ∧
  (∀ (c : Core) (cycle : Nat), (c.freeze cycle).sys.freeze = c.sys.freeze + 1 ∧ (c.freeze cycle).pw.sum cycle cycle true = 0 ∧
    (c.freeze cycle).r = c.r ∧ (c.freeze cycle).mem = c.mem ∧ (c.freeze cycle).ctl = c.ctl ∧ (c.freeze cycle).pipe = c.pipe) ∧
  (∀ (n : Nat) (s : State), s.ballastDue n = true → exec (.ballastCycle n) s = .next (s.modCore n (Core.ballast s.cycle))) ∧
  ∀ (c : Core) (cycle : Nat), (c.ballast cycle).sys.ballast = c.sys.ballast + 1 ∧ (c.ballast cycle).r = c.r ∧ (c.ballast cycle).mem = c.mem ∧
    ∀ lo hi, lo ≤ cycle → cycle ≤ hi → (c.ballast cycle).pw.sum lo hi true = c.pw.sum lo hi true + 60 ∧
      (c.ballast cycle).pw.sum lo hi false = c.pw.sum lo hi false

/-- R33, R342, R343, R344: a rollback fault declined by the fault service, on a unit all of whose cores hold a mark, rolls each back and takes
each into its handler; with a core that holds none the unit ends. A precise fault takes each member into its handler as it stands. The
fault registers tell code, slot, whether the member raised the fault itself, and the address: a member that faults in the same cycle
records its own.
R33: a rollback gives the core back what its shadow holds: registers, place, tiles, sequencer, the bed as the undo log has it; results in
flight and the gate are discarded, requests and tile entries after the mark abandoned, REPLAY set for the bundles up to the faulting one
(R347); the flags and STATUS.WCONF stay, and a handle VALID at the mark is STALE (R330). An undo record takes its write back, newest
record first. -/
def Obligations.Exceptions : Prop :=
  ((∀ (n : Nat) (s : State) (r : FaultRec),
     let f := s.focus n
     let rb := asRollback r
     f.core.unit ≠ none → r.origin ≠ 2 → r.code ≠ gateOverflow → f.core.sys.intrap = false →
     ((∀ m ∈ f.core.team, (f.coreOf m).sys.markv = true) → f.serviceOf rb = .declined →
       exec (.rollbackFault n r) s = .next
         (((f.rollTeam (f.core.rg.since + 1)).trapTeam [(f.core.id, rb)] f.core.sys.replay).focus f.core.id)) ∧
     ((∃ m ∈ f.core.team, (f.coreOf m).sys.markv = false) → exec (.rollbackFault n r) s = .next ((f.endTeam rb true).focus f.core.id)) ∧
     exec (.trapEntry n r) s = .next (f.trapTeam [(f.core.id, { r with rb := false })] f.core.sys.replay)) ∧
   (∀ (s : State) (n : Nat) (r : FaultRec) (fs : List (Nat × FaultRec)) (replay : Bool), s.core.team.Nodup → s.Numbered →
     let t := s.trapTeam ((n, r) :: fs) replay
     ∀ m, t.coreOf m = if m ∈ s.core.team
       then (match lookup ((n, r) :: fs) m with
         | some g => (s.coreOf m).record g replay false (s.coreOf m).member
         | none => (s.coreOf m).record r replay true (s.coreOf n).member).trapEntry
       else s.coreOf m) ∧
   (∀ (s : State) (k : Nat), s.core.team.Nodup → s.Numbered →
     (∀ m, (s.onTeam (Core.rollback k)).coreOf m = if m ∈ s.core.team then (s.coreOf m).rollback k else s.coreOf m) ∧
     ∀ m, m ∈ s.core.team → ∃ lag log, (s.rollTeam k).coreOf m =
       let c := (s.coreOf m).rollback k
       { c with ctl := { c.ctl with lag := lag }, rg := { c.rg with log := log } }) ∧
   ∀ (c : Core) (r : FaultRec) (replay sib : Bool) (member : Nat),
     let i := (c.record r replay sib member).sys.faultInfo
     (c.record r replay sib member).sys.faultVa = r.va ∧ i.extractLsb' 0 8 = r.code ∧ i.extractLsb' 8 20 = r.detail ∧
     i.extractLsb' 28 4 = 0 ∧ i.extractLsb' 32 4 = BitVec.ofNat 4 member ∧ i.extractLsb' 36 2 = r.queue ∧ i.getLsbD 38 = c.sys.intrap ∧
     i.getLsbD 39 = sib ∧ i.getLsbD 40 = replay ∧ i.getLsbD 41 = r.wr ∧ i.getLsbD 42 = r.rb ∧ i.extractLsb' 43 2 = r.origin ∧
     i.extractLsb' 45 3 = r.slot ∧ i.extractLsb' 48 16 = 0) ∧
  (∀ (c : Core) (h : Shadow) (n : Nat), c.rg.shadow = some h → c.pastMark = false →
    let k := c.rollback n
    k.pipe.flights = [] ∧ k.rg.gate = [] ∧ k.rg.undo = [] ∧ k.sys.replay = true ∧ k.rg.replayLeft = n ∧
    k.mem.bed = undoBed c.mem.bed c.rg.undo ∧
    (∀ r, r ∈ k.pipe.reqs ↔ r ∈ c.pipe.reqs ∧ (r.seq < h.seq ∨ c.toCome r = true)) ∧
    (∀ e, e ∈ k.mx.queue ↔ e ∈ c.mx.queue ∧ e.seq < h.seq) ∧
    k.r.x = h.r.x ∧ k.r.p = h.r.p ∧ k.r.v = h.r.v ∧ k.r.k = h.r.k ∧ k.r.q = h.r.q ∧
    (∀ d : BitVec 4, k.h d = if (h.r.h.get d.toFin).st = .valid
      then { h.r.h.get d.toFin with st := .stale, code := 0, cause := 0 } else h.r.h.get d.toFin) ∧
    k.ctl.pc = h.pc ∧ k.ctl.dly = h.dly ∧ k.ctl.cont = h.cont ∧ k.ctl.nextMarked = true ∧ k.seqr = h.seqr ∧ k.sys.ctr = h.stochCtr ∧
    k.sys.rfN = h.rfN ∧ k.sys.awake = h.awake ∧
    ((c.rg.tiles.map (·.1)).Nodup → ∀ i < 8, (∀ t, (i, t) ∈ c.rg.tiles → k.tile i = t) ∧
      (i ∉ c.rg.tiles.map (·.1) → k.tile i = c.tile i)) ∧
    k.f = c.f ∧ k.sys.wconf = c.sys.wconf ∧ k.mem.tlb = c.mem.tlb ∧ k.eng = c.eng) ∧
  ∀ (m : Memory) (a : Nat) (bs : List Byte) (us : List UndoEnt), m.wf →
    undoBed (m.write a bs) (⟨a, m.read a bs.length⟩ :: us) = undoBed m us

/-! Events of the tile queue and the engines (spec/07, spec/08). -/

/-- R185, R192, R193, R197, R202, R203, R204: the entry at the head of the tile queue, no fault waiting, is performed and leaves: MZERO,
MLD, MROW and MMA write their tile, MST its image; an MST of a poisoned tile leaves a fault to report and stays. An ATTN stays until its last
key tile is done. Operands are seen with the unit's stores of bundles before the entry's own (R231, R288). A fault found is reported as an
exception; the queue then stands still until RFT.
R61, R62, R63, R194, R197: an MMA's element (i, j): in INT8 mode the old word and the 128 products of row i of A and row j of B, summed
exactly and wrapped to 32 bits, each byte signed as its mode bit says; in a floating-point mode the profile's sum over the products, from
zero where the tile is overwritten. -/
def Obligations.TileEntries : Prop :=
  ((∀ (n : Nat) (s : State) (e : TileEnt) (es : List TileEnt),
     let f := s.focus n
     let c := f.core
     let bed := f.bedBefore e.idx c.id
     c.mx.queue = e :: es → (c.mx.held = true → exec (.tileEntryComplete n) s = .next f) ∧ (c.mx.fault = none → c.mx.held = false →
     let writes := fun (k : Nat) (v : Tile) => ∃ t, exec (.tileEntryComplete n) s = .next t ∧ t.core.tile k = v ∧
       (∀ j, j ≠ k → t.core.tile j = c.tile j) ∧ t.core.mx.queue = es ∧ t.core.r = c.r ∧ t.core.mem = c.mem ∧ t.core.sys = c.sys ∧ t.mem = s.mem
     (∀ k < 8, e.op = .mzero k → writes k { c.tile k with bits := 0, poison := false }) ∧
     (∀ k < 8, ∀ a, e.op = .mld k a 0 → writes k { c.tile k with
       bits := BitVec.ofNat 262144 (natOfBytes (bed.read a 32768)), poison := linesPoisoned c.mem.poisoned a 32768 }) ∧
     (∀ k < 8, ∀ row < 128, ∀ (b : VBits) (p : Bool), e.op = .mrowW k row b p → ∃ w : TileBits,
       writes k { c.tile k with bits := w, poison := (c.tile k).poison || p } ∧ ∀ i < 262144,
         w.getLsbD i = if 2048 * row ≤ i ∧ i < 2048 * (row + 1) then b.getLsbD (i - 2048 * row) else (c.tile k).bits.getLsbD i) ∧
     (∀ k < 8, ∀ (a b mode : Nat) (af bf ovw mc : Bool) (prof : Nat) (sA : VBits) (sB : BitVec 32) (sp : Bool), mode < 5 →
       e.op = .mma k (.bed a) b none mode af bf ovw mc prof sA sB sp → writes k { c.tile k with
         bits := packElems 262144 32 (mmaWords mode af bf ovw prof sA sB (c.tile k).bits (bed.read a 16384) (bed.read b 8192)),
         poison := linesPoisoned c.mem.poisoned a 16384 || linesPoisoned c.mem.poisoned b 8192 || (!ovw && (c.tile k).poison) ||
           ((mode == 1 || !ovw) && sp) }) ∧
     (∀ k a sat, e.op = .mstBed k a 0 sat →
       ((c.tile k).poison = false → ∃ t, exec (.tileEntryComplete n) s = .next t ∧
         t.core.mem.bed = c.mem.bed.write a (bytesOf (c.tile k).bits 32768) ∧ t.core.acc = c.acc ∧ t.core.mx.queue = es ∧ t.core.r = c.r ∧
         t.mem = s.mem) ∧
       ((c.tile k).poison = true → ∃ t r, exec (.tileEntryComplete n) s = .next t ∧ t.core.mx.fault = some r ∧ r.code = poisonConsumed ∧
         r.origin = 1 ∧ t.core.mx.queue = e :: es ∧ t.core.mem = c.mem ∧ t.core.acc = c.acc)) ∧
     (∀ o : AttnOp, e.op = .attn o →
       (o.next = none → exec (.tileEntryComplete n) s = .next (f.mapCore (·.attnBegin bed e o))) ∧
       ∀ j, o.next = some j →
         (o.khi ≤ o.klo ∨ o.khi ≤ 64 * j → ∃ t, exec (.tileEntryComplete n) s = .next t ∧ t.core.mx.queue = es) ∧
         (o.klo < o.khi → 64 * j < o.khi → ∀ l p, o.maps = some l → profileOf o.prof = some p →
           exec (.tileEntryComplete n) s = .next (f.attnTile e o p j))))) ∧
   ∀ (n : Nat) (s : State) (r : FaultRec),
     let f := s.focus n
     f.core.mx.fault = some r → exec (.tileFaultReport n) s =
       .next (enterFault r (f.mapCore (fun c => { c with mx := { c.mx with fault := none, held := true } })))) ∧
  (∀ (af bf ovw : Bool) (prof : Nat) (sA : VBits) (sB : BitVec 32) (old : TileBits) (a b : List Byte), a.length = 16384 → b.length = 8192 →
    ∀ i < 128, ∀ j < 64,
      let val := fun (sgn : Bool) (x : Byte) => if sgn = true then x.toInt else (x.toNat : Int)
      let acc : BitVec 32 := if ovw = true then 0 else old.extractLsb' (32 * (64 * i + j)) 32
      BitVec.ofNat 32 ((mmaWords 2 af bf ovw prof sA sB old a b).getD (64 * i + j) 0) =
        acc + BitVec.ofInt 32 (((List.range 128).map (fun k => val af (a.getD (128 * i + k) 0) * val bf (b.getD (128 * j + k) 0))).sum)) ∧
  ∀ (mode : Nat) (af bf ovw : Bool) (prof : Nat) (p : Profile) (sA : VBits) (sB : BitVec 32) (old : TileBits) (a b : List Byte),
    profileOf prof = some p → mode < 5 → mode ≠ 2 → a.length = 16384 → b.length = 8192 → ∀ i < 128, ∀ j < 64,
    let ra := (operandRows p mode af 128 a).getD i []
    let rb := (operandRows p mode bf 64 b).getD j []
    let prods := (ra.zip rb).map (fun x => FV.mul x.1 x.2)
    let acc := flushSub p.din Fmt.fp32 (Fmt.fp32.decode (if ovw = true then 0 else (old.extractLsb' (32 * (64 * i + j)) 32).toNat))
    let w := (mmaWords mode af bf ovw prof sA sB old a b).getD (64 * i + j) 0
    (mode ≠ 1 → w = Fmt.fp32.encode 0 0 false (dotChain p (p.g mode) acc prods)) ∧
    (mode = 1 →
      let sc := Fmt.fp32.decode (Fmt.fp32.encode 0 0 false
        (FV.mul (Fmt.fp32.decode (sA.extractLsb' (32 * i) 32).toNat) (Fmt.fp32.decode sB.toNat)))
      let t := Fmt.fp32.decode (Fmt.fp32.encode 0 0 false (FV.mul sc (dotChain p (p.g 1) (.fin false 0 0) prods)))
      w = Fmt.fp32.encode 0 0 false (groupSum p [acc, t]))

/-- R232, R233, R234, R237, R238, R243, R244: the command at the head of a queue, no request holding it, completes: one in a FAULTED queue is
discarded, a notice target takes effect, a fence leaves every queue it names once it heads them all, a COPY of at most a line writes what it
has read, an accumulating write reaches its port. A good completion posts to the unit its notice target names; a provisional command's post to another unit waits for its confirmation (R294).
A handler's commands carry no tags. The end of a unit drops what a COPY.in has left (R295).
R166, R169, R170: samples that move. One of an INGRESS signal enters its ring when its window admits the next index, one of an EGRESS
signal leaves once it is sealed, one on its way to a mirror arrives in order; each counts its index as arrived or drained, and a sample
that is not admitted changes nothing. -/
def Obligations.CommandEvents : Prop :=
  ((∀ (n q : Nat) (s : State) (e : QEnt) (es : List QEnt),
     let f := s.focus n
     let c := f.core
     q < 4 → (c.queue q).ents = e :: es → e.held = none → c.unit ≠ none →
     let ans := fun (p : State → Prop) => ∃ t, exec (.commandComplete n q) s = .next t ∧ (t.core.queue q).ents = es ∧ t.core.r = c.r ∧ p t
     ((∀ i m, e.cmd ≠ .fence i m) → (c.queue q).faulted ≠ none →
       ans (fun t => (t.core.queue q).faulted = (c.queue q).faulted ∧ t.core.mem = c.mem ∧ t.mem = f.mem)) ∧
     (∀ d dest, e.cmd = .notify d dest → (c.queue q).faulted = none →
       ans (fun t => (t.core.queue q).target = (if d = 0 then none else some (d, dest)) ∧ t.mem = f.mem)) ∧
     (∀ sig src k, e.cmd = .copyIn sig src k → c.endWait = true → (c.queue q).target = none → ans (fun t => t.core.mem = c.mem ∧ t.mem = f.mem)) ∧
     (∀ i m, e.cmd = .fence i m →
       let named := fun (j : Nat) => j < 4 ∧ m.getLsbD j = true
       ((∀ j, named j → ∃ h hs, (c.queue j).ents = h :: hs ∧ h.cmd = .fence i m) → ∃ t, exec (.commandComplete n q) s = .next t ∧
         (∀ j, named j → (t.core.queue j).ents = (c.queue j).ents.drop 1) ∧ ∀ j, ¬named j → t.core.queue j = c.queue j) ∧
       ∀ j, named j → (∀ h ∈ (c.queue j).ents.head?, h.cmd ≠ .fence i m) → exec (.commandComplete n q) s = .next f) ∧
     (e.region = 0 → e.tagged = false → e.pr = Progress.start → f.region 0 = none → f.entryProv e = none → f.ownProv c = [] → (c.queue q).faulted = none →
       (c.queue q).target = none →
       (∀ (dst src len : Nat) (l : Loc) (pa : Nat), e.cmd = .copy dst src len → src < 2 ^ 56 → dst < 2 ^ 56 → 0 < len →
         len ≤ 64 - src % 64 → len ≤ 64 - dst % 64 → pa < portPa → (len ≠ 64 ∨ f.portChannel c.asid dst = none) →
         let r : Run := ⟨f, 0, none, q, Progress.start⟩
         r.locate src len .read = .ok l → r.locate dst len .write = .ok (.mem pa) →
         (∀ b, l = .mem b → ans (fun t => t.mem = (f.storeAt c.asid dst pa ((f.memAs (f.keyOf c.asid)).read b len)).mem)) ∧
         ∀ g off, l = .bed g off → (f.coreOf g).tileHolds off len false = false →
           ans (fun t => t.mem = (f.storeAt c.asid dst pa ((f.coreOf g).mem.bed.read off len)).mem)) ∧
       ∀ (op : AccOp) (w64 : Bool) (va pa old : Nat) (a cmp : Word), e.cmd = .accw op w64 va a cmp old → op ≠ .swap → op ≠ .cas →
         let n := if w64 = true then 8 else 4
         (⟨f, 0, none, q, Progress.start⟩ : Run).locate va n .both = .ok (.mem pa) → pa < portPa → linesPoisoned f.poisoned pa n = false →
         ans (fun t => t.mem = (f.seal (f.keyAt c.asid va) pa n).mem.write pa
           (bytesOfNat (accNew op (8 * n) (natOfBytes ((f.memAs (f.keyOf c.asid)).read pa n)) a.toNat cmp.toNat) n) ∧ t.core.mem = c.mem))) ∧
   ∀ (r : Run) (e : QEnt) (d : Word) (dest : Family), (r.s.core.queue r.q).target = some (d, dest) → r.q < 4 → e.cmd.noticed = true →
     (r.prov = none → r.complete e true = ((r.complete e false).releaseRegion r.region scopePackage).post r.s.core.id d dest 1) ∧
     ∀ l b u, r.prov = some (l, b) → r.s.core.unit = some u → u.family ≠ dest →
       r.complete e true = (r.complete e false).modLaunch l.key (fun l => { l with defer_ := l.defer_ ++
         [⟨b, (r.complete e false).agentOf (r.complete e false).core, .notice (some (desigCore d r.s.core.id, desigFlag d, dest)) r.region⟩] })) ∧
  (∀ (n q : Nat) (s : State) (e : QEnt) (es : List QEnt) (sig : Nat) (d : SigDecl),
    let f := s.focus n
    let c := f.core
    let arr := fun (t : State) => (t.core.sig.st[sig]?).map (·.arr)
    let j := ((c.sig.st[sig]?).map (·.arr)).getD (-1) + 1
    q < 4 → (c.queue q).ents = e :: es → e.held = none → (c.queue q).faulted = none → c.decl sig = some d →
    (∀ src k, e.cmd = .copyIn sig src (k + 1) → c.endWait = false →
      (j - (c.slotState sig 0).n < (d.depth : Int) - (d.lag : Int) → c.tileHolds (d.pos 0 j) d.size true = false →
        ∀ r, (f.beginRun q e).readLines false (rangeFrom src d.size e.pr.got.length) = (r, none) →
        ∃ t x, exec (.ingressSampleDelivery n q) s = .next t ∧ t.core.mem.bed = r.s.core.mem.bed.write (d.pos 0 j) (r.pr.got.map (·.1)) ∧
          arr t = (r.s.core.sig.st[sig]?).map (fun _ => j) ∧ (t.core.queue r.q).ents = x :: (r.s.core.queue r.q).ents.drop 1 ∧
          x.cmd = .copyIn sig ((src + d.size) % 2 ^ 56) k ∧ t.mem = r.s.mem) ∧
      ((d.depth : Int) - (d.lag : Int) ≤ j - (c.slotState sig 0).n → exec (.ingressSampleDelivery n q) s = .next f)) ∧
    ∀ dst k, e.cmd = .copyOut dst sig (k + 1) →
      (j ≤ f.drainable d sig → c.tileHolds (d.pos 0 j) d.size false = false →
        ∀ r, ((f.beginRun q e).have_ (c.ringMarked d sig 0 j)).writeLines (rangeFrom dst d.size e.pr.put) = (r, none) →
        ∃ t x, exec (.egressSampleDrain n q) s = .next t ∧ arr t = (r.s.core.sig.st[sig]?).map (fun _ => j) ∧
          (t.core.queue r.q).ents = x :: (r.s.core.queue r.q).ents.drop 1 ∧ x.cmd = .copyOut ((dst + d.size) % 2 ^ 56) sig k ∧
          t.mem = r.s.mem) ∧
      (f.drainable d sig < j → exec (.egressSampleDrain n q) s = .next f)) ∧
  ∀ (n sig : Nat) (s : State) (u : UnitInfo) (l : Launch) (d : SigDecl) (m : MirrorMsg),
    let k := s.coreOf n
    k.id = n → k.unit = some u → s.launchOf u = some l → k.decl sig = some d → d.kind = 1 →
    s.disp.mirrors.find? (fun m => m.launch == l.key && m.stage == u.stage && m.member == u.member && m.sig == sig) = some m →
    ((k.sig.st[sig]?).map (·.arr)).getD (-1) < m.idx → s.confirmed m.holds = true → k.tileHolds (d.pos 0 m.idx) d.size true = false →
    m.bytes.length = d.size →
    ∃ t, exec (.mirrorSampleArrival n sig) s = .next t ∧ (t.coreOf n).mem.bed = k.mem.bed.write (d.pos 0 m.idx) m.bytes ∧
      ((t.coreOf n).sig.st[sig]?).map (·.arr) = (k.sig.st[sig]?).map (fun _ => m.idx) ∧
      t.disp.mirrors.length + 1 = s.disp.mirrors.length ∧ t.mem = s.mem ∧ (t.coreOf n).r = k.r

/-! Events of units and of the storage behind them (spec/09, spec/13, spec/14, spec/15). -/

/-- R12, R121, R250, R253, R262, R272, R300, R323, R346: units begin, suspend and end. A unit at its end, its cores settled, leaves them: a core
left keeps its TLB and its base limit and loses registers, flags, tiles and bed. A task that yields is enqueued with a record that holds its
place and x8 to x13. A pick starts a task from its record, UNIT_START a gang's member from its launch, one whose stream's true count is 0 at its
end (R176, R319); a pre-empted unit's image brings it back as it stood, its handles STALE, FREEZE_CNT and BALLAST_CNT at zero, the base limit
the core's (R426), and its loads are issued again (R44). -/
def Obligations.UnitEvents : Prop :=
  (∀ (n : Nat) (s t : State) (u : UnitInfo),
    let f := s.focus n
    let ends := f.core.team.any (fun m => (t.coreOf m).ctl.after == some (.ending .fault))
    f.core.unit = some u → (∀ m ∈ f.core.team, (f.coreOf m).endWait = true) → f.settleAll n f.core.team = .go t →
    t.committing u = false → t.dropWaits u.family = false → t.canDefer = true → t.faultedQueues t.core.team = [] →
    (ends = false → t.faultRoom (t.fnOf u.asid) 0 = true → exec (.unitEnd n) s = .next (t.leave u false)) ∧
    (ends = true → t.faultRoom (t.fnOf u.asid) 1 = true →
      let y := (t.coreOf (t.faultCore u)).sys
      exec (.unitEnd n) s = .next ((t.unitRecord (t.faultCore u) 0 y.faultInfo y.faultVa y.trapPc).leave u true))) ∧
  (∀ (n : Nat) (s : State), (s.coreOf n).id = n →
    let k := (s.vacate n).coreOf n
    k.unit = none ∧ k.r = Regs.launch ∧ k.f = Vector.replicate 32 0 ∧ k.acc = Vector.replicate 8 Tile.launch ∧ k.mem.bed = [] ∧
      k.mem.tlb = (s.coreOf n).mem.tlb ∧ k.sys.limit = (s.coreOf n).sys.limitBase ∧ (s.vacate n).mem = s.mem ∧
      ∀ m, m ≠ n → (s.vacate n).coreOf m = s.coreOf m) ∧
  (∀ (n : Nat) (s t : State) (u : UnitInfo),
    let f := s.focus n
    f.core.unit = some u → u.gang = false → f.core.ctl.after = some (.ending .yield) → f.core.ctl.dly = 0 → f.settle n = .go t →
    t.committing u = false → t.faultedQueues [t.core.id] = [] → (∀ i < 6, t.core.xp (BitVec.ofNat 6 (8 + i)) = false) →
    let r := t.core.toRec u
    r.resume = (t.core.ctl.cont.setWidth 48).setWidth 64 ∧ (∀ i < 6, r.carry.getD i 0 = t.core.x (BitVec.ofNat 6 (8 + i))) ∧
    exec (.taskSuspend n) s = .next ((((t.modFrame u.asid u.frame (fun g => { g with spd := t.core.spd })).releaseNow
      (placeScope u.place)).enqueue r (domainAt u.place t.core.id)).vacate t.core.id)) ∧
  (∀ (n k c : Nat) (s : State) (p : Nat × Nat × Nat × Family), k < 32 → (s.coreOf n).id = n → s.disp.waits = [] →
    s.disp.posts.find? (fun p => p.1 == n && p.2.1 == k && p.2.2.1 == c) = some p →
    (s.coreOf n).unit.map (·.family) = some p.2.2.2 →
    ∃ t, exec (.flagPostArrival n k c) s = .next t ∧ (t.coreOf n).flag k = min ((s.coreOf n).flag k + c) 65535 ∧
      (∀ j, j ≠ k → (t.coreOf n).flag j = (s.coreOf n).flag j) ∧ t.disp.posts.length + 1 = s.disp.posts.length ∧
      (t.coreOf n).r = (s.coreOf n).r ∧ t.mem = s.mem) ∧
  (∀ (n : Nat) (s : State) (k : Cand) (r : Rec), s.pickNow n = some k → k.what = .record r →
    exec (.taskPick n) s = .next (((s.takePick k).pickRecord r).1.startTask n ((s.takePick k).pickRecord r).2)) ∧
  (∀ (n : Nat) (s : State) (r : Rec) (x : Ctx) (f : Frame), (s.coreOf n).id = n → s.ctx r.asid = some x →
    s.frame r.asid r.frame = some f → r.carry.length = 6 →
    let k := (s.startTask n r).coreOf n
    (∃ u, k.unit = some u ∧ u.asid = r.asid ∧ u.frame = r.frame ∧ u.gang = false ∧ u.launch = r.launch) ∧ k.ctl.pc = r.resume ∧
    (∀ i < 6, k.x (BitVec.ofNat 6 (8 + i)) = r.carry.getD i 0) ∧ k.x 2 = k.sys.spillBase - BitVec.ofNat 64 f.spd ∧
    (∀ d : RegNo, d ≠ 2 → (d.toNat < 8 ∨ 14 ≤ d.toNat) → k.x d = 0) ∧ k.mem.bed = [] ∧ k.sys.trapVec = x.trapVec ∧ k.sys.priv = false) ∧
  (∀ (l g m n : Nat) (s : State) (la : Launch) (x : Ctx), s.launch l = some la → s.ctx la.asid = some x → (g, m) ∈ la.toStart →
    la.placed.getD g 0 + m = n → (s.coreOf n).id = n →
    (dPredicted la.desc = true → la.final = some 0 → ∃ t, exec (.unitStart l g m n) s = .next t ∧
      (t.coreOf n).ctl.after = some (.ending .stream) ∧ (t.coreOf n).sys.tick = 0) ∧
    (¬(dPredicted la.desc = true ∧ la.final = some 0) → ∃ t u, exec (.unitStart l g m n) s = .next t ∧
      let k := t.coreOf n
      k.unit = some u ∧ u.gang = true ∧ u.asid = la.asid ∧ u.stage = g ∧ u.member = m ∧ k.ctl.pc = BitVec.ofNat 64 (dEntry la.desc) ∧
        k.x 8 = la.desc.getD 5 0 ∧ k.x 2 = 0x180000 ∧ k.sys.stage = BitVec.ofNat 8 g ∧ k.sys.tickBudget = la.tickBudget ∧ k.sys.tick = 0 ∧
        k.sys.trapVec = x.trapVec ∧ k.mem.bed = [] ∧ k.sig = startSignals la g ∧ k.ctl.lag = m)) ∧
  (∀ (n : Nat) (s : State) (u : UnitInfo), (s.coreOf n).unit = some u → u.gang = false → s.committing u = false → s.saveRoom u.asid 1 = true →
    s.bedStill n u = true → (s.coreOf n).id = n →
    ∃ t, exec (.preempt n) s = .next t ∧ (t.coreOf n).unit = none ∧ t.disp.images = s.disp.images ++
      [⟨s.disp.nextKey, (s.coreOf n).attnRestart, false, u.prio, Config.imageBytes⟩]) ∧
  (∀ (n k : Nat) (s : State) (i : Image), s.disp.images[k]? = some i → i.gang = true → i.core.id = n →
    let is := s.imagesOf i.core.asid ((i.core.unit.map (·.launch)).getD 0)
    s.canResume is = true → exec (.resume n k) s = .next (is.foldl (fun s i => (s.focus i.core.id).issueAgain)
      (is.foldl (fun s i => s.restoreOn i.core.id i) s))) ∧
  ∀ (n : Nat) (s : State) (i : Image), s.disp.waits = [] →
    let k := (s.restoreOn n i).coreOf n
    k.r.x = i.core.r.x ∧ k.r.v = i.core.r.v ∧ k.f = i.core.f ∧ k.acc = i.core.acc ∧ k.ctl = i.core.ctl ∧ k.mem.bed = i.core.mem.bed ∧
      k.mem.tlb = (s.coreOf n).mem.tlb ∧ k.sys.freeze = 0 ∧ k.sys.ballast = 0 ∧ k.sys.limitBase = (s.coreOf n).sys.limitBase ∧
      k.sys.slopeBase = (s.coreOf n).sys.slopeBase ∧ ∀ d : BitVec 4, (k.h d).st ≠ .valid

/-- R292, R330, R331, R334, R352: a walk that is done makes the handle VALID and fills the TLB, or leaves it STALE with the code of its failure; a
DRAINING block that nothing holds becomes FREE; a migrated page's bytes stand at the new place, and no VALID handle of the context names the
old one. -/
def Obligations.StorageEvents : Prop :=
  (∀ (n : Nat) (m : BitVec 4) (s : State) (r : Request) (d : BitVec 4) (p : Handle),
    let k := s.coreOf n
    k.id = n → k.pipe.reqs.find? (fun r => r.dests.contains (.h m) && r.seq < k.pipe.seq) = some r → r.kind = .lands [.h d p] →
    .h d ∈ r.dests → (s.cores.all (fun c => c.id == n || clusterOf c.id != clusterOf n || !(c.mem.tlb.any (·.covers k.asid p.ah.toNat)))) = true →
    k.mem.tlb.length < 64 → ∃ t, exec (.translationWalkDone n m.toNat) s = .next t ∧ t.mem = s.mem ∧ (t.coreOf n).r.x = k.r.x ∧
      (∀ g, s.walkAny k.asid p.ah.toNat = .page g → (t.coreOf n).h d = ⟨.valid, p.ah, g.base, g.size, g.pa, g.r, g.w, 0, 0⟩ ∧
        g.tlb k.asid ∈ (t.coreOf n).mem.tlb) ∧
      ∀ code cause, s.walkAny k.asid p.ah.toNat = .fail code cause → ((t.coreOf n).h d).st = .stale ∧ ((t.coreOf n).h d).code = code ∧
        (t.coreOf n).mem.tlb = k.mem.tlb) ∧
  (∀ (asid pool blk : Nat) (s : State), (s.pool asid pool).bind (·.state blk) = some .draining →
    (s.held asid pool blk = false → exec (.blockDrainDone asid pool blk) s = .next (s.modPool asid pool (·.free blk))) ∧
    (s.held asid pool blk = true → exec (.blockDrainDone asid pool blk) s = .next s)) ∧
  (∀ (asid : Nat) (va : Word) (pa : Nat) (s : State) (x : Ctx) (p : Page), s.ctx asid = some x → s.walkAny asid va.toNat = .page p →
    pa % pageBytes p.size = 0 → pa + pageBytes p.size ≤ 2 ^ 51 → p.pa < 2 ^ 51 → (pa + pageBytes p.size ≤ p.pa ∨ p.pa + pageBytes p.size ≤ pa) →
    exec (.pageMigration asid va pa) s = .next (s.migrate x p pa)) ∧
  (∀ (m : Memory) (old new n : Nat), m.wf → (new + n ≤ old ∨ old + n ≤ new) →
    (m.copyTo old new n).wf ∧ (∀ i < n, (m.copyTo old new n).get (new + i) = m.get (old + i)) ∧
      ∀ a, a < new ∨ new + n ≤ a → (m.copyTo old new n).get a = m.get a) ∧
  ∀ (c : Core) (old new n : Nat) (d : BitVec 4), ((c.migrate c.asid old new n).h d).st = .valid →
    old + n ≤ ((c.migrate c.asid old new n).h d).pa ∨
      ((c.migrate c.asid old new n).h d).pa + pageBytes ((c.migrate c.asid old new n).h d).size ≤ old

/-! Events of launches (spec/13). -/

/-- R294, R298, R302, R303, R306, R309, R311, R317, R318: a launch from its submission to its completion. A submission is accepted with the
context's next identifier and joins its queue, or refused with a status the issuer reads; a gang head starts placed; a block is dealt; a
final post fixes shape and floor once, a floor post only raises; a committed block's buffered writes reach memory in program order, a
stream's confirmed ticks one after another; a complete launch writes its completion word and is gone.
R320, R322: a visit to a node of a graph: a branch goes on by its cell's value, a loop counts its turns up to MAX, a join waits for its
count of arrivals; an index past the last node ends the graph with GRAPH_INVALID. -/
def Obligations.LaunchEvents : Prop :=
  ((∀ (s : State) (m : Submit) (ms : List Submit),
     let v : State := { s with disp := { s.disp with submits := ms } }
     s.disp.submits = m :: ms → m.host = none →
     let refused := fun (st : Nat) => exec .launchAccept s = .next (v.answerSubmit m (BitVec.ofNat 64 (st * 2 ^ 32)))
     (s.hwq m.queue = none → refused 8) ∧
     ∀ q, s.hwq m.queue = some q →
       (q.owner ≠ m.asid ∨ s.mayRun m.asid = false → refused 8) ∧
       (q.owner = m.asid → s.mayRun m.asid = true → (64 ≤ q.ents.length → refused 7) ∧ (q.ents.length < 64 →
         let id := ((s.ctx m.asid).map (·.nextId)).getD 1
         (m.kind = 1 → (∀ st, v.acceptLaunch m.asid m.queue m.desc = .error st → refused st) ∧
           ∀ l, v.acceptLaunch m.asid m.queue m.desc = .ok l → ∃ t la, exec .launchAccept s = .next t ∧ t.disp.launches = s.disp.launches ++ [la] ∧
             la.desc = l.desc ∧ la.id = id ∧ la.asid = l.asid ∧ la.notify = m.notify ∧ t.disp.submits = ms ∧ t.mem = s.mem ∧
             (t.hwq m.queue).map (·.ents) = some (q.ents ++ [.launch la.key])) ∧
         (m.kind = 2 → ∀ g, acceptGraph 0 m.asid 0 m.queue m.addr m.desc = .ok g → ∃ t gr, exec .launchAccept s = .next t ∧
           t.disp.graphs = s.disp.graphs ++ [gr] ∧ gr.addr = m.addr ∧ gr.id = id ∧ gr.start = g.start ∧
           (t.hwq m.queue).map (·.ents) = some (q.ents ++ [.graph gr.key]))))) ∧
   (∀ (s : State) (q : HwQueue) (k : Nat) (l : Launch) (firsts : List Nat), s.disp.hw = [q] → q.ents = [.launch k] → s.launch k = some l →
     dGang l.desc = true → s.disp.reserving = none → s.resumeFirst (s.prioOf l) = false →
     placeStages (s.placeFree l) (dMembers l.desc) none [] l.stageMap = some firsts →
     ∃ t la, exec .launchStart s = .next t ∧ t.launch k = some la ∧ la.st = .started ∧ la.placed = firsts ∧
       (∀ g m, (g, m) ∈ la.toStart ↔ g < dStages l.desc ∧ m < dMembers l.desc) ∧ la.unitsLeft = dStages l.desc ∧ t.disp.hwLast = q.n ∧
       (t.hwq q.n).map (·.ents) = some []) ∧
   (∀ (k : Nat) (s : State) (l : Launch), s.launch k = some l → l.st = .started → dGang l.desc = false → l.again = [] →
     (l.limit ≤ l.cursor → exec (.blockDeal k) s = .next s) ∧
     ∀ u, s.deal l = some u → exec (.blockDeal k) s = .next u ∧ ∃ la, u.launch k = some la ∧ la.cursor = l.cursor + 1 ∧
       la.blocks = l.blocks ++ [(l.cursor, .waiting)] ∧ la.unitsLeft = l.unitsLeft + 1) ∧
   (∀ (k : Nat) (s : State) (l : Launch), s.launch k = some l →
     (l.done = false → exec (.launchComplete k) s = .next s) ∧
     (l.done = true → ∃ t, exec (.launchComplete k) s = .next t ∧ t.launch k = none ∧ (dCell l.desc = 0 → t.mem = s.mem) ∧
       ∀ pa, dCell l.desc ≠ 0 → s.translate l.asid (dCell l.desc + 8) .write = .ok pa →
         t.mem = (s.storeAt l.asid (dCell l.desc + 8) pa (bytesOf
           (BitVec.ofNat 64 (l.final.getD 0 * 2 ^ 32 + (if l.low = true then 512 else 0) + 256 + l.status)) 8)).mem)) ∧
   (∀ (s : State) (m : ShapeMsg) (ms : List ShapeMsg), s.disp.shapes = m :: ms → s.translate m.asid m.cell .write = .ok m.pa →
     let v : State := { s with disp := { s.disp with shapes := ms } }
     let word := (s.memAs (s.keyOf m.asid)).readW m.pa
     (m.final = true → word.getLsbD 63 = true → exec .shapePost s = .next v) ∧
     (m.final = true → word.getLsbD 63 = false → ∃ t, exec .shapePost s = .next t ∧
       (s.disp.launches = [] → t.mem = (s.storeAt m.asid m.cell m.pa (bytesOf (BitVec.ofNat 64 (2 ^ 63 + m.v)) 8)).mem) ∧
       ∀ l, s.disp.launches.find? (fun l => l.asid == m.asid && l.waits && dCell l.desc != 0 && dCell l.desc == m.cell) = some l →
         s.launch l.key = some l → l.st = .queued → ∃ la, t.launch l.key = some la ∧ la.final = some (max m.v l.floor) ∧
           la.floor = max m.v l.floor ∧ la.low = decide (m.v < l.floor) ∧ la.waits = false) ∧
     (m.final = false → ∀ l, s.disp.launches.find? (fun l => l.asid == m.asid && l.waits && dCell l.desc != 0 && dCell l.desc == m.cell) = some l →
       s.launch l.key = some l → l.st = .queued → ∃ t la, exec .shapePost s = .next t ∧ t.launch l.key = some la ∧
         la.floor = max m.v l.floor ∧ la.final = l.final ∧ la.waits = l.waits ∧ t.mem = s.mem)) ∧
   (∀ (k b : Nat) (s : State) (l : Launch), s.launch k = some l →
     let go := fun (st : BlockSt) => ∀ t,
       (s.commitUnit l.key b = (t, true) →
         exec (.blockCommit k b) s = .next ((t.confirmBlock l b).modLaunch l.key (·.setBlock b (fun _ => st)))) ∧
       (s.commitUnit l.key b = (t, false) → exec (.blockCommit k b) s = .next t)
     (dGang l.desc = true → exec (.blockCommit k b) s = .next (s.commitTicks l.key l.dueTicks)) ∧
     (dGang l.desc = false → (l.block b = some .commit → go .runC) ∧ (l.block b = some .endP → b < l.floor → go .done) ∧
       (l.block b = some .endP → l.floor ≤ b → exec (.blockCommit k b) s = .next s))) ∧
   (∀ (s : State) (key : Nat) (e : ProvEnt) (es : List ProvEnt),
     (s.commitWrite e = none → s.commitWrites key (e :: es) = (s, false)) ∧
     ∀ t, s.commitWrite e = some t →
       s.commitWrites key (e :: es) = (t.modLaunch key (fun l => { l with prov := delFirst (· == e) l.prov })).commitWrites key es) ∧
   (∀ (s t v : State) (e : ProvEnt) (id : Nat), s.tileInWay e.write = false → s.regionAgain e.by_ e.unit e.region = (t, id) →
     t.tagAccess id e.write.lines e.write.kind = .ok v → ∃ u, s.commitWrite e = some u ∧
       (∀ va pa b, e.write = .bytes va pa b → u.mem = (v.storeAt e.by_.fam.asid va pa b).mem) ∧
       ∀ va pa op w64 a, e.write = .accw va pa op w64 a →
         u.mem = accMem (v.seal (v.keyAt e.by_.fam.asid va) pa (if w64 = true then 8 else 4)).mem pa op w64 a 0)) ∧
  ∀ (s : State) (g : Graph) (n : Nat), s.graphOf g.key = some g → g.st = .started → g.visits = [n] → g.running.length < 63 →
    g.failed = false →
    let onward := fun (h : Graph) (k : Nat) => h.visits = (if k = 0xFFF then [] else [k]) ∧ h.running = g.running ∧ h.failed = false
    let ans := fun (p : Graph → Prop) => ∃ t h, exec (.graphVisit g.key) s = .next t ∧ t.graphOf g.key = some h ∧ p h ∧ t.mem = s.mem ∧
      t.disp.launches = s.disp.launches
    (g.nodes < n → ans (fun h => h.failed = true ∧ h.status = 10 ∧ h.visits = [])) ∧
    ∀ w, n ≤ g.nodes → s.node g n = some w → nodeBad w = false →
      let nx := ((w.getD 0 0).extractLsb' 16 12).toNat
      let alt := ((w.getD 0 0).extractLsb' 28 12).toNat
      let kind := (w.getD 0 0).extractLsb' 0 4
      (∀ v, s.predicate g.asid ((w.getD 1 0).extractLsb' 0 56).toNat = some v →
        (kind = 1 → ans (fun h => onward h (if v = 0 then alt else nx))) ∧
        (kind = 2 →
          let turns := (lookup g.iters n).getD 0
          let max := ((w.getD 2 0).extractLsb' 0 32).toNat
          (v ≠ 0 → max = 0 ∨ turns < max → ans (fun h => onward h nx ∧ lookup h.iters n = some (turns + 1))) ∧
          (v = 0 ∨ max ≠ 0 ∧ max ≤ turns → ans (fun h => onward h alt ∧ lookup h.iters n = some 0)))) ∧
      (kind = 3 →
        let arr := (lookup g.arrivals n).getD 0 + 1
        (arr = ((w.getD 0 0).extractLsb' 40 12).toNat → ans (fun h => onward h nx ∧ lookup h.arrivals n = some 0)) ∧
        (arr ≠ ((w.getD 0 0).extractLsb' 40 12).toNat → ans (fun h => h.visits = [] ∧ lookup h.arrivals n = some arr)))

/-! Events of the host (spec/17). -/

/-- R388 to R392, R398: doorbells, records and replies. A TAIL or HEAD within the ring and within what is outstanding moves it, any other puts the
queue in ERROR; a submission record's fields reach the package master; a waiting completion is written with its phase once HEAD makes room.
A reply resumes the units parked on its request, or ends them. A host access of device memory goes through its context's tables, in RUN or
within the bounce window; outside a read gives all ones and a write is dropped and counted. What the event does with ASID 0, which stands for
the host's own memory, is the model's (log 40). -/
def Obligations.HostEvents : Prop :=
  ∀ (fn q : Nat) (s : State) (f : Fn), s.fn fn = some f →
    let ans := fun (e : Instr) (p : Fn → Prop) => ∃ t g, exec e s = .next t ∧ t.fn fn = some g ∧ p g ∧ t.mem = s.mem ∧ t.core = s.core
    (∀ (r : Ring) (v : BitVec 32), f.sqOf q = some r → r.st ≠ 2 →
      let size := 2 ^ r.n
      let held := (r.tail + size - r.head) % size
      let new := (v.toNat + size - r.tail) % size
      (v.toNat < size → held + new < size → ans (.sqTail fn q v) (fun g => ∃ x, g.sqOf q = some x ∧ x.tail = v.toNat ∧ x.head = r.head ∧
        x.st = if (v.toNat + size - r.head) % size = 0 then 0 else 1)) ∧
      (size ≤ v.toNat ∨ size ≤ held + new → ans (.sqTail fn q v) (fun g => ∃ x, g.sqOf q = some x ∧ x.st = 2 ∧ x.tail = r.tail)) ∧
      (held ≠ 0 →
        let bs := f.mem.read (r.base + 64 * r.head) 64
        ∃ t g x m, exec (.submissionRecord fn q) s = .next t ∧ t.fn fn = some g ∧ g.sqOf q = some x ∧ x.head = (r.head + 1) % size ∧
          x.tail = r.tail ∧ t.disp.submits = s.disp.submits ++ [m] ∧ m.kind = (bs.getD 0 0).toNat ∧
          m.addr = natOfBytes ((bs.drop 8).take 7) ∧ m.asid = r.owner ∧ m.queue = r.hw ∧
          m.host = some (fn, r.cq, BitVec.ofNat 32 (natOfBytes ((bs.drop 4).take 4))) ∧ t.mem = s.mem)) ∧
    (∀ (r : Ring) (v : BitVec 32), f.cqOf q = some r → r.st ≠ 2 → f.faults = [] →
      let size := 2 ^ r.n
      let held := (r.tail + size - r.head) % size
      let read := (v.toNat + size - r.head) % size
      (v.toNat < size → read ≤ held → f.comps = [] → ans (.cqHead fn q v) (fun g => ∃ x, g.cqOf q = some x ∧ x.head = v.toNat ∧ x.tail = r.tail ∧
        g.mem = f.mem)) ∧
      (size ≤ v.toNat ∨ held < read → f.comps = [] → ans (.cqHead fn q v) (fun g => ∃ x, g.cqOf q = some x ∧ x.st = 2 ∧ g.mem = f.mem)) ∧
      (∀ c : CompOut, v.toNat < size → read ≤ held → f.comps = [c] → c.cq = q → r.tail < size →
        (r.tail + size - v.toNat) % size + 1 < size →
        ans (.cqHead fn q v) (fun g => g.comps = [] ∧ g.mem = f.mem.write (r.base + 32 * r.tail)
          ([(if r.phase = true then 1#1 else 0#1) ++ 0#23 ++ BitVec.ofNat 8 c.status ++ c.tag, BitVec.ofNat 32 c.shape ++ BitVec.ofNat 32 c.id,
            0#64, 0#64].flatMap (fun w => bytesOf w 8)) ∧
          ∃ x, g.cqOf q = some x ∧ x.tail = (r.tail + 1) % size))) ∧
    (∀ (r : Ring) (v : BitVec 32), f.fq = some r → r.st ≠ 2 → f.comps = [] → f.faults = [] →
      let size := 2 ^ r.n
      v.toNat < size → (v.toNat + size - r.head) % size ≤ (r.tail + size - r.head) % size →
      ans (.fqHead fn v) (fun g => ∃ x, g.fq = some x ∧ x.head = v.toNat ∧ x.tail = r.tail)) ∧
    (∀ (req : BitVec 24) (z : FaultReq) (n : Nat) (r : FaultRec), s.pagingOf fn req.toNat = some z → z.fault = some (n, r) →
      s.disp.reqs.find? (·.num == z.num) = some z →
      (∃ t, exec (.faultReplyResume fn req) s = .next t ∧ t.mem = s.mem ∧ (∀ y ∈ t.disp.reqs, y.num ≠ z.num) ∧
        ∀ m, (t.coreOf m).ctl.parked = (if (s.coreOf m).ctl.parked = some z.num then none else (s.coreOf m).ctl.parked) ∧
          (t.coreOf m).ctl.after = (s.coreOf m).ctl.after) ∧
      ∃ t, exec (.faultReplyEnd fn req) s = .next t ∧ t.mem = s.mem ∧ (∀ y ∈ t.disp.reqs, y.num ≠ z.num) ∧
        ∀ m, (s.coreOf m).ctl.parked = some z.num → (t.coreOf m).ctl.parked = none ∧ (t.coreOf m).ctl.after = some (.ending .fault) ∧
          (t.coreOf m).sys.faultVa = r.va) ∧
    (∀ req : BitVec 24, s.pagingOf fn req.toNat = none → exec (.faultReplyResume fn req) s = .next s ∧ exec (.faultReplyEnd fn req) s = .next s) ∧
    ∀ (a : Nat) (va : Word) (bs : List Byte),
      let read := Instr.hostMemoryAccess fn a va false bs
      let write := Instr.hostMemoryAccess fn a va true bs
      (a = 0 → ans write (fun g => g.mem = f.mem.write va.toNat bs ∧
          ∀ h, h ∈ g.holes ↔ h ∈ f.holes ∧ (va.toNat + bs.length ≤ h.1 ∨ h.1 + h.2 ≤ va.toNat)) ∧
        ans read (fun g => g.mem = f.mem ∧ g.holes = f.holes ++ [(va.toNat, bs.length)])) ∧
      ∀ c : Ctx, a ≠ 0 → s.ctx a = some c → c.fn = fn →
        let inside := f.tdisp = .run ∨ c.bounceBase ≤ va.toNat ∧ va.toNat + bs.length ≤ c.bounceBase + c.bounceSize
        (∀ pa, inside → s.span a va.toNat bs.length .write = .ok [(pa, bs.length)] →
          ∃ t, exec write s = .next t ∧ t.mem = (s.storeAt a va.toNat pa bs).mem ∧ t.core = s.core) ∧
        (∀ pa, inside → s.span a va.toNat bs.length .read = .ok [(pa, bs.length)] →
          ans read (fun g => g.lastRead = (s.memAs (s.keyAt a va.toNat)).read pa bs.length)) ∧
        (¬inside → ans write (fun g => g.dropped = f.dropped + 1) ∧ ans read (fun g => g.lastRead = List.replicate bs.length 255))

/-- R388, R394, R398, R441: the mailbox. A write of MBOX_CMD sets BUSY, and while it is set a write of another word is dropped; the command is
performed or refused with its status and counted in DONE: CMD_INVALID for an address or a code that is none, CMD_FAULT for a record that
cannot be read. A configured queue is empty and bound, a reset queue is empty, a context comes from a sound record and goes when nothing of it
is live, an invalidated page leaves every TLB, the site predictor is emptied; a locked function is refused. That a record of another command
is left to that command's event is the model's (log 40). -/
def Obligations.MailboxCommands : Prop :=
  ∀ (fn : Nat) (addr : Word) (s : State) (f : Fn), s.fn fn = some f →
    let w := wordsOf 8 (f.mem.read addr.toNat 64)
    let bits := fun (i lo n : Nat) => ((w.getD i 0).extractLsb' lo n).toNat
    let placed := addr.toNat % 64 = 0 ∧ addr.toNat < 2 ^ 56
    let sound := placed ∧ f.readable addr.toNat 64 = true
    let codes := [1, 2, 3, 4, 0x10, 0x11, 0x12, 0x13]
    let cmd := fun (code : Nat) (fs : List (Nat × Nat × Nat)) =>
      sound ∧ bits 0 0 8 = code ∧ onlyFields w fs = true
    let done := fun (e : Instr) (status : BitVec 8) (p : State → Fn → Prop) =>
      ∃ t g, exec e s = .next t ∧ t.fn fn = some g ∧ g.status = status ∧ g.done = f.done + 1 ∧ g.busy = none ∧ p t g ∧ t.mem = s.mem
    let q := bits 1 0 6
    let base := bits 2 0 56
    let n := bits 3 0 5
    (∀ c e, (c, e) ∈ List.zip codes [Instr.sqConf fn addr, .cqConf fn addr, .fqConf fn addr, .qReset fn addr, .ctxCreate fn addr, .ctxDestroy fn addr,
        .invalidate fn addr, .predClear fn addr] →
      let nothing := fun (t : State) (_ : Fn) => t.disp = s.disp ∧ t.ctxs = s.ctxs ∧ t.core = s.core
      (f.busy = none → exec e s = .next (s.modFn fn (fun g => { g with busy := some addr }))) ∧
      (∀ a, f.busy = some a → a ≠ addr → exec e s = .next s) ∧
      (f.busy = some addr →
        (¬placed → done e 1 nothing) ∧ (placed → ¬sound → done e 2 nothing) ∧ (sound → bits 0 0 8 ∉ codes → done e 1 nothing) ∧
        (sound → bits 0 0 8 ∈ codes → bits 0 0 8 ≠ c → exec e s = .next s))) ∧
    (f.busy = some addr →
    (cmd 1 [(1, 0, 6), (1, 16, 10), (1, 32, 3), (1, 40, 6), (1, 48, 16), (2, 0, 56), (3, 0, 5)] →
      let hw := bits 1 16 10
      let owner := bits 1 48 16
      (f.locked = true → done (.sqConf fn addr) 4 (fun _ g => g.sqs = f.sqs)) ∧
      (f.locked = false → n ≠ 0 → n < 6 ∨ 16 < n → done (.sqConf fn addr) 1 (fun _ g => g.sqs = f.sqs)) ∧
      (f.locked = false → 6 ≤ n → n ≤ 16 → base % (64 * 2 ^ n) = 0 → (∃ c, s.ctx owner = some c ∧ c.fn = fn) → f.sqOf q = none →
        (∀ h ∈ s.disp.hw, h.n ≠ hw ∧ ¬(h.fn = fn ∧ h.sq = q)) →
        done (.sqConf fn addr) 0 (fun t g => g.sqOf q = some ⟨q, base, n, 0, 0, 0, true, bits 1 40 6, hw, owner⟩ ∧
          t.hwq hw = some ⟨hw, owner, bits 1 32 3, fn, q, []⟩))) ∧
    (cmd 2 [(1, 0, 6), (2, 0, 56), (3, 0, 5)] → f.locked = false → 6 ≤ n → n ≤ 16 → base % (32 * 2 ^ n) = 0 → f.cqOf q = none → f.comps = [] →
      done (.cqConf fn addr) 0 (fun _ g => g.cqOf q = some ⟨q, base, n, 0, 0, 0, true, 0, 0, 0⟩)) ∧
    (cmd 3 [(2, 0, 56), (3, 0, 5)] → f.locked = false → 6 ≤ n → n ≤ 16 → base % (64 * 2 ^ n) = 0 → f.fq = none → f.faults = [] → f.comps = [] →
      done (.fqConf fn addr) 0 (fun _ g => g.fq = some ⟨64, base, n, 0, 0, 0, true, 0, 0, 0⟩)) ∧
    (cmd 4 [(1, 0, 8)] → bits 1 6 2 = 0 → ∀ r, f.sqOf q = some r →
      done (.qReset fn addr) 0 (fun _ g => ∃ x, g.sqOf q = some x ∧ x.tail = 0 ∧ x.head = 0 ∧ x.st = 0 ∧ x.base = r.base ∧ x.hw = r.hw)) ∧
    (cmd 0x10 [(1, 0, 56)] → f.locked = false →
      let c := wordsOf 144 (f.mem.read (bits 1 0 56) 1152)
      let a := ((c.getD 0 0).extractLsb' 0 16).toNat
      let held := f.readable (bits 1 0 56) 1152
      (held = false → done (.ctxCreate fn addr) 2 (fun t _ => t.ctxs = s.ctxs)) ∧
      (held = true → s.boot.recovery = true ∨ contextOk c = false ∨ s.ctx a ≠ none → done (.ctxCreate fn addr) 3 (fun t _ => t.ctxs = s.ctxs)) ∧
      (held = true → s.boot.recovery = false → contextOk c = true → s.ctx a = none → done (.ctxCreate fn addr) 0 (fun t _ => ∃ x, t.ctx a = some x ∧
        x.fn = fn ∧ x.root = ((c.getD 1 0).extractLsb' 12 40).toNat * 4096 ∧ x.trapVec = c.getD 2 0 ∧ x.commit = c.getD 3 0 ∧ x.nextId = 1 ∧
        x.record = c ∧ x.key = Config.fresh s.free))) ∧
    (cmd 0x11 [(1, 0, 16)] → f.locked = false → ∀ c, s.ctx (bits 1 0 16) = some c → c.fn = fn →
      (s.ctxBusy (bits 1 0 16) = true → done (.ctxDestroy fn addr) 5 (fun t _ => t.ctxs = s.ctxs)) ∧
      (s.ctxBusy (bits 1 0 16) = false → done (.ctxDestroy fn addr) 0 (fun t _ => t.ctx (bits 1 0 16) = none))) ∧
    (cmd 0x12 [(1, 0, 16), (2, 0, 56), (3, 0, 4)] → ∀ c, s.ctx (bits 1 0 16) = some c →
      (c.fn ≠ fn → done (.invalidate fn addr) 4 (fun t _ => t.core = s.core)) ∧
      (c.fn = fn → bits 3 0 4 ≤ 9 → base % (4096 * 4 ^ bits 3 0 4) = 0 → done (.invalidate fn addr) 0 (fun t _ => ∀ e ∈ t.core.mem.tlb,
        e.asid = bits 1 0 16 → e.base + 4096 * 4 ^ e.size ≤ base ∨ base + 4096 * 4 ^ bits 3 0 4 ≤ e.base))) ∧
    (cmd 0x13 [] → done (.predClear fn addr) 0 (fun t _ => t.disp.sites = [])))

/-! Boot, identity, trust, fencing (spec/17, spec/21). -/

/-- R395, R396, R397, R421, R425: a cold reset leaves the reset state but for the fused count, and recovery where the image fails a check, with
an alias key made from the firmware measurement and an alias certificate signed by the identity key; the count rises by a signed command.
The SPDM requests answer in the order of a connection, each answer that is signed by the alias key: a quote carries the nonce, the measurements,
the ASID and the context measurement, a digest of the context record and the LOAD sections. Keys and signatures are free values (log 5).
TDISP moves through its states, leaving RUN empties the function's queues. A fenced die is noted and a new master elected; a fatal
hub die stops the package. -/
def Obligations.TrustEvents : Prop :=
  (∀ (img : BootImage) (s : State), ∃ t, exec (.coldReset img) s = .next t ∧ t.core = Core.reset 0 ∧ t.others = [] ∧ t.mem = [] ∧ t.ctxs = [] ∧
    t.stopped = false ∧ t.fenced = [] ∧ t.boot.fused = s.boot.fused ∧ t.boot.version = img.version ∧ t.boot.meas = img.meas ∧
    (t.boot.recovery = false ↔ img.sigOk = true ∧ s.boot.fused ≤ img.version) ∧ t.boot.aliasKey = Config.aliasKey (img.meas.getD 1 0) ∧
    t.boot.identityCert = Config.identityCert ∧ t.boot.aliasCert.length = 24 ∧
    t.boot.aliasCert.drop 12 = (List.range 12).map (Config.signature Config.identityKey (t.boot.aliasCert.take 12)) ∧ t.disp = State.reset.disp ∧ t.fns = State.reset.fns) ∧
  (∀ (v : Nat) (s : State),
    (s.boot.recovery = false → s.boot.fused < v → exec (.antiRollbackRaise v true) s = .next { s with boot := { s.boot with fused := v } }) ∧
    (s.boot.recovery = true ∨ v ≤ s.boot.fused → exec (.antiRollbackRaise v true) s = .next s) ∧
    exec (.antiRollbackRaise v false) s = .next s) ∧
  (∀ (r : SpdmReq) (s : State),
    let c := s.spdm
    let ans := fun (e : Instr) (d : Spdm) => exec e s = .next { s with spdm := d, free := s.free + 2 }
    let nonce : List Word := (List.range 4).map (fun i => r.nonce.extractLsb' (64 * i) 64)
    let meas : List Word := (List.range 24).map (fun i => (s.boot.meas.getD (i / 6) 0).extractLsb' (64 * (i % 6)) 64)
    let signed := fun (m : List Word) => m ++ (List.range 12).map (Config.signature s.boot.aliasKey m)
    let digest := fun (ws : List Word) => sha384 (ws.flatMap (fun w => bytesOf w 8))
    ans (.getVersion r) { c with phase := 1, session := none, finished := false, answer := [0x13] } ∧
    (c.phase = 1 → ans (.getCapabilities r) { c with phase := 2, answer := s.spdmFree }) ∧
    (c.phase = 2 → ans (.negotiateAlgorithms r) { c with phase := 3, answer := s.spdmFree }) ∧
    (c.phase = 3 → ans (.getDigests r) { c with answer := digest s.boot.identityCert ++ digest s.boot.aliasCert } ∧
      ans (.getCertificate r) { c with answer := s.boot.identityCert ++ s.boot.aliasCert } ∧
      ans (.challenge r) { c with answer := signed nonce } ∧
      (s.ctx r.asid.toNat = none → ans (.getMeasurements r) { c with answer := signed (nonce ++ meas ++ [r.asid.setWidth 64]) }) ∧
      (∀ x, s.ctx r.asid.toNat = some x → ans (.getMeasurements r) { c with answer := signed (nonce ++ meas ++ [r.asid.setWidth 64] ++
        sha384 (x.record.flatMap (fun w => bytesOf w 8) ++
          r.loads.flatMap (fun e => (s.readVa r.asid.toNat e.1 e.2).getD []))) }) ∧
      (c.session = none → ans (.keyExchange r) { c with session := some (Config.fresh s.free), finished := false, answer := s.spdmFree })) ∧
    (∀ k, c.session = some k → c.finished = false → ans (.finish r) { c with
      session := (if r.authOk = true then some k else none), finished := r.authOk, answer := s.spdmFree }) ∧
    (∀ k, c.session = some k → c.finished = true → ans (.endSession r) { c with session := none, finished := false, answer := s.spdmFree }) ∧
    (c.phase ≠ 3 → exec (.challenge r) s = .next { s with spdm := { c with answer := [] } } ∧
      exec (.getMeasurements r) s = .next { s with spdm := { c with answer := [] } })) ∧
  (∀ (fn : Nat) (s : State) (f : Fn), fn ≠ 0 → s.fn fn = some f →
    (f.tdisp = .unlocked → exec (.tdispLock fn) s = .next (s.modFn fn (fun g => { g with tdisp := .locked }))) ∧
    (f.tdisp = .locked → exec (.tdispEnterRun fn) s = .next (s.modFn fn (fun g => { g with tdisp := .run }))) ∧
    (f.tdisp = .run → ∀ err, ∃ t g, exec (.tdispLeaveRun fn err) s = .next t ∧ t.fn fn = some g ∧
      g.tdisp = (if err = true then .error else .unlocked) ∧ ∀ h ∈ t.disp.hw, h.fn = fn → h.ents = []) ∧
    (f.tdisp ≠ .locked → exec (.tdispEnterRun fn) s = .next s)) ∧
  (∀ (fn : Nat) (s : State), fn ≠ 0 → s.disp.hw = [] → s.disp.launches = [] → s.disp.graphs = [] →
    (∀ c ∈ s.cores, c.unit = none) → ∃ t, exec (.vfReset fn) s = .next t ∧ t.mem = s.mem ∧ t.core = s.core ∧ t.ctxs = s.ctxs ∧ t.arb = s.arb + 1 ∧
      (∀ b ∈ t.fabric.bindings, b ∈ s.fabric.bindings ∧ ∀ c ∈ s.ctxs, c.fn = fn → c.asid ≠ b.asid) ∧
      ∀ k ∈ t.fabric.colls, k ∈ s.fabric.colls ∧ ∀ c ∈ s.ctxs, c.fn = fn → c.asid ≠ k.asid) ∧
  (∀ (l : Launch) (status : Nat), (l.cut status).status = (if l.status = 0 then status else l.status) ∧ (l.cut status).prov = [] ∧
    (l.st = .started → (l.cut status).done = true)) ∧
  (∀ (d : Nat) (s : State),
    (d < 8 → d ∉ s.fenced → s.disp.launches = [] → s.lostTasks d = [] → ∃ t, exec (.dieFence d) s = .next t ∧ t.fenced = s.fenced ++ [d] ∧
      t.mem = s.mem ∧ (dieOf s.core.id ≠ d → t.core = s.core) ∧ (∀ m, dieOf m = d → (s.coreOf m).id = m → (t.coreOf m).unit = none) ∧ (s.master ≠ d → t.master = s.master ∧ t.arb = s.arb + 1) ∧
      ∀ m < 8, s.master = d → m ∉ t.fenced → (∀ j < m, j ∈ t.fenced) → t.master = m ∧ t.arb = s.arb + 2) ∧
    (8 ≤ d ∨ d ∈ s.fenced → exec (.dieFence d) s = .next s)) ∧
  ∀ (h : Nat) (s : State), exec (.hubDieFatal h) s = .next { s with stopped := true }

/-! The fabric and the lintel (spec/21). -/

/-- R399, R407 to R412, R418, R425: links come up and go down, a package is lost, and an access in flight that no longer reaches its package is
lost with it. A binding makes a channel's context, group and ranks, the package in one group at a time. A collective is submitted to its channel,
or refused with COLL_INVALID, MEMBER_SILENT or MEMBER_WITHDRAWN; it ends with what the participants' descriptors and ranges give, its result
written, its status at CELL, its post sent. An INT32 sum is the sum of the ranks' elements modulo 2^32. Which paths run over a link and how a
withdrawal is remembered are the model's (log 41). -/
def Obligations.FabricEvents : Prop :=
  (∀ (l : Nat) (s : State),
    let lose := fun (t : State) => ∀ n, t.coreOf n = State.losePaths { s with fabric := t.fabric } s (s.coreOf n)
    let down := fun (e : Instr) => ∃ t, exec e s = .next t ∧ l ∈ t.fabric.downLinks ∧ l ∉ t.fabric.links ∧
      (∀ k, k ≠ l → (k ∈ t.fabric.links ↔ k ∈ s.fabric.links)) ∧ t.fabric.lost = s.fabric.lost ∧ t.mem = s.mem ∧ lose t
    down (.linkAuthFail l) ∧ down (.linkBringUp l false) ∧
    (∃ f, exec (.linkBringUp l true) s = .next { s with fabric := f } ∧ l ∈ f.links ∧ l ∉ f.downLinks ∧
      (∀ k, k ≠ l → (k ∈ f.downLinks ↔ k ∈ s.fabric.downLinks)) ∧ ∀ p, p ∈ f.lost ↔ p ∈ s.fabric.lost ∧ Config.pathVia l p = false) ∧
    ∃ t, exec (.linkPathLost l) s = .next t ∧ (∀ k, k ∈ t.fabric.lost ↔ k = l ∨ k ∈ s.fabric.lost) ∧ t.fabric.links = s.fabric.links ∧
      t.mem = s.mem ∧ lose t) ∧
  (∀ (pkg group ch asid : Nat) (members ranks : List Nat) (s : State), members ≠ [] →
    ∃ t, exec (.groupBinding pkg group ch asid members ranks) s = .next t ∧ t.fabric.pkg = pkg ∧
      (∀ b, b ∈ t.fabric.bindings ↔ asid ≠ 0 ∧ b = ⟨ch, asid, group, members, ranks, false⟩ ∨
        b ∈ s.fabric.bindings ∧ b.ch ≠ ch ∧ b.group = group) ∧
      (∀ k ∈ t.fabric.colls, k ∈ s.fabric.colls ∧ ∃ b ∈ t.fabric.bindings, b.ch = k.ch ∧ b.asid = k.asid) ∧
      (asid = 0 → t.fabric.ports = s.fabric.ports) ∧
      (asid ≠ 0 → (∀ e ∈ s.fabric.ports, e.1 ≠ asid) →
        ∀ e, e ∈ t.fabric.ports ↔ e = (asid, Config.portPage asid) ∨ e ∈ s.fabric.ports) ∧
      (s.lintel.group ≠ group → t.lintel.group = group ∧ t.lintel.leader ∈ members ∧ (∀ m ∈ members, t.lintel.leader ≤ m) ∧
        t.lintel.members = members.map (fun m => (m, if m = pkg then s.lintel.own else 90))) ∧
      (s.lintel.group = group → s.fabric.pkg = pkg → (∀ m ∈ members, s.lintel.has m = true) → t.lintel = s.lintel) ∧
      (s.fabric.colls = [] → t.core = s.core ∧ t.mem = s.mem)) ∧
  (∀ (asid ch : Nat) (d : List Word) (s : State), ch < 64 →
    let c : Coll := ⟨ch, asid, d, s.core.id, s.flagUnit asid s.core.id d⟩
    let ends := fun (status : Nat) => exec (.collectiveSubmit asid ch d) s = .next (s.finishColl c status)
    let found := s.fabric.bindings.find? (fun b => b.ch == ch && b.asid == asid)
    let silent := ∃ b ∈ s.fabric.bindings, b.ch = ch ∧ ∃ r ∈ b.ranks, r ∈ s.lintel.silent
    let free := ∀ k ∈ s.fabric.colls, k.ch ≠ ch
    (found = none ∨ ¬free ∨ collBad d = true → ends 0x23) ∧
    ∀ b, found = some b → free → collBad d = false →
      (silent → ends 0x20) ∧ (¬silent → b.withdrawn = true → ends 0x21) ∧
      (¬silent → b.withdrawn = false → exec (.collectiveSubmit asid ch d) s =
        .next { s with fabric := { s.fabric with colls := s.fabric.colls ++ [c] } })) ∧
  (∀ (s : State) (c : Coll) (status pa : Nat),
    let cell := ((c.desc.getD 4 0).extractLsb' 0 56).toNat
    let flag := ((c.desc.getD 5 0).extractLsb' 0 16).setWidth 64
    let t := s.storeAt c.asid cell pa (bytesOf (BitVec.ofNat 64 (((c.desc.getD 0 0).extractLsb' 32 32).toNat * 2 ^ 32 + 256 + status)) 8)
    s.translate c.asid cell .write = .ok pa → cell % 8 = 0 →
      (c.dest = none → s.finishColl c status = t) ∧
      ∀ f, c.dest = some f → s.finishColl c status = t.sendPost (desigCore flag c.core) (desigFlag flag) 1 f) ∧
  (∀ (ch : Nat) (peers : List CollPeer) (s : State) (c : Coll) (b : Binding),
    s.fabric.colls.find? (·.ch == ch) = some c → s.fabric.bindings.find? (·.ch == ch) = some b →
    let d := c.desc
    let p := b.ranks.length
    let r := (b.ranks.filter (· < s.fabric.pkg)).length
    let mates := peers.filter (fun x => cSeq x.desc == cSeq d)
    let differs := fun (e : List Word) => cOp d ≠ cOp e ∨ cRed d ≠ cRed e ∨ cType d ≠ cType e ∨ cCount d ≠ cCount e ∨ cRoot d ≠ cRoot e
    let bad := collRanksBad d p r = true ∨ ∃ x ∈ mates, collRanksBad x.desc p x.rank = true
    let all := ∀ i < p, i ≠ r → ∃ x ∈ mates, x.rank = i
    let ends := fun (t : State) (status : Nat) => exec (.collectiveComplete ch peers) s =
      .next (State.finishColl { t with fabric := { t.fabric with colls := t.fabric.colls.filter (·.ch != ch) } } c status)
    (¬all → exec (.collectiveComplete ch peers) s = .next s) ∧
    (all → bad → ends s 0x23) ∧
    (all → ¬bad → (∃ x ∈ mates, differs x.desc) → ends s 0x22) ∧
    (all → ¬bad → (∀ x ∈ mates, ¬differs x.desc) →
      let srcs := collSrcs d p r (if cOp d = 4 then some [] else s.readVa c.asid (cSrc d) (cSrcLen d p)) mates
      (srcs = none → ends s 0x24) ∧
      ∀ l, srcs = some l →
        let out := collResult d r l
        let status := if (∀ x ∈ mates, x.dstOk = true) then 0 else 0x24
        (out = [] → ends s status) ∧
        (∀ e, out ≠ [] → s.span c.asid (cDst d) out.length .write = .error e → ends s 0x24) ∧
        ∀ pa, out ≠ [] → s.span c.asid (cDst d) out.length .write = .ok [(pa, out.length)] →
          ends (s.storeAt c.asid (cDst d) pa out) status)) ∧
  (∀ (ch : Nat) (s : State),
    let bs := s.fabric.bindings.map (fun b => if b.ch == ch then { b with withdrawn := true } else b)
    let w : State := { s with fabric := { s.fabric with bindings := bs } }
    (s.fabric.colls.find? (·.ch == ch) = none → exec (.memberWithdrawn ch) s = .next w) ∧
    ∀ c, s.fabric.colls.find? (·.ch == ch) = some c → exec (.memberWithdrawn ch) s =
      .next (State.finishColl { w with fabric := { w.fabric with colls := w.fabric.colls.filter (·.ch != ch) } } c 0x21)) ∧
  ∀ xs : List Nat, BitVec.ofNat 32 (reduceElem 0 0 xs) = xs.foldl (fun (a : BitVec 32) x => a + BitVec.ofNat 32 x) 0

/-- R413 to R419: the lintel. At each moment G is the minimum of the live members' ceilings and the package runs at the minimum of G and its own
limit, outside a group at its own. Notices lower a ceiling when reference time reaches them, an own notice lies at least 50 µs ahead; raises,
joins and leaves wait for the epoch boundary, whose record counts what reached the leader 50 µs before it and leaves the silent out; heartbeats,
silence and the succession follow their bounds, and a silent member's collectives end; an emergency lowers at once, another member's urgent
notice is a breach. -/
def Obligations.LintelEvents : Prop :=
  ∀ s : State,
    let l := s.lintel
    let me := s.fabric.pkg
    let now := s.refTime
    let ans := fun (e : Instr) (p : State → Prop) => ∃ t, exec e s = .next t ∧ t.core = s.core ∧ p t
    let stands := fun (k : Lintel) (t : Nat) => k.applied = min k.g k.own ∧ (k.has me = false → k.g = 90) ∧
      (k.has me = true → (∃ m ∈ k.members, k.g = k.ceiling t m) ∧ ∀ m ∈ k.members, k.g ≤ k.ceiling t m)
    let lowered := fun (k : Lintel) (t p c : Nat) => stands k t ∧ k.members = l.members ∧ ∀ x, k.ceiling t (p, x) = min x c
    let next := (now / 1000000 + 1) * 1000000
    let quiet := fun (p : Nat) => p ≠ me ∧ (lookup l.heard p).getD 0 + 100000 ≤ now
    (∀ p c t, l.has p = true → 20 ≤ c → c ≤ 90 →
      let noted := fun (u : State) => u.lintel.members = l.members ∧ u.lintel.own = l.own ∧ stands u.lintel now ∧
        u.lintel.notices = standing now (l.notices ++ [⟨p, c, t, now⟩]) ∧ (t ≤ now → lowered u.lintel now p c)
      (p ≠ me → ans (.loweringNotice p c t) (fun u => noted u ∧ lookup u.lintel.heard p = some now ∧ u.arb = s.arb + 1)) ∧
      (p = me → now + 50000 ≤ t → ans (.loweringNotice p c t) (fun u => noted u ∧ u.arb = s.arb)) ∧
      (p = me → t < now + 50000 → exec (.loweringNotice p c t) s = .next s)) ∧
    ((∀ n ∈ l.notices, n.t ≤ now) → exec .loweringNoticeDue s = .next s) ∧
    (∀ p c t r, l.notices = [⟨p, c, t, r⟩] → now < t → t < next → ans .loweringNoticeDue (fun u => lowered u.lintel t p c ∧
      u.lintel.own = (if p = me then c else l.own) ∧ u.refTime = t)) ∧
    (∀ kind p c, kind = 2 ∨ kind < 2 ∧ 20 ≤ c ∧ c ≤ 90 → ans (.raiseJoinLeave kind p c) (fun u =>
      u.lintel.changes = l.changes ++ [⟨kind, p, c, now⟩] ∧ u.lintel.members = l.members ∧ u.lintel.applied = min l.g u.lintel.own ∧
      u.lintel.own = (if kind = 0 ∧ p = me then max l.own c else l.own))) ∧
    (l.has me = true → me ∉ l.silent →
      let live := l.members.filter (fun m => !(l.silent.contains m.1))
      let record := fun (ms : List (Nat × Nat)) => ans .epochBoundary (fun u => u.refTime = next ∧ u.lintel.epoch = l.epoch + 1 ∧
        u.lintel.members = ms ∧ stands u.lintel next ∧ u.lintel.changes = [] ∧ u.arb = s.arb + 1 ∧ ∀ m ∈ ms, u.lintel.leader ≤ m.1)
      (l.notices = [] → l.changes = [] → record live) ∧
      (∀ p c t r, l.notices = [⟨p, c, t, r⟩] → t ≤ next → l.changes = [] →
        ans .epochBoundary (fun u => stands u.lintel next ∧ u.lintel.members = live ∧ ∀ x, u.lintel.ceiling next (p, x) = min x c)) ∧
      (∀ p c r, l.notices = [] → r + 50000 ≤ next →
        (l.changes = [⟨0, p, c, r⟩] → record (live.map (fun m => if m.1 = p then (m.1, c) else m))) ∧
        (p ≠ me → l.changes = [⟨1, p, c, r⟩] → record (live.filter (·.1 != p) ++ [(p, c)])) ∧
        (p ≠ me → l.changes = [⟨2, p, c, r⟩] → record (live.filter (·.1 != p)))) ∧
      ∀ kind p c r, l.notices = [] → next < r + 50000 → l.changes = [⟨kind, p, c, r⟩] →
        ans .epochBoundary (fun u => u.lintel.changes = l.changes ∧ u.lintel.members = live)) ∧
    (∀ p, (p = me → ans (.heartbeat p) (fun u => u.refTime = now + 10000)) ∧
      (p ≠ me → l.has p = true → ans (.heartbeat p) (fun u => lookup u.lintel.heard p = some now ∧ u.refTime = now))) ∧
    (∀ p, l.has p = true → p ∉ l.silent → l.leader ≠ me ∨ quiet p →
      let k := if l.leader = me then l else l.hears l.leader now
      let v : State := { s with lintel := { k with silent := l.silent ++ [p], silenced := min (l.silenced + 1) 65535 } }
      let named := fun (c : Coll) => s.fabric.bindings.any (fun b => b.ch == c.ch && b.ranks.any (l.silent ++ [p]).contains)
      ans (.memberSilent p) (fun u => u.lintel = v.lintel ∧ u.arb = s.arb + 1 ∧ u.fabric.colls = s.fabric.colls.filter (fun c => !(named c))) ∧
      ∀ c, s.fabric.colls = [c] → named c = true → exec (.memberSilent p) s = .next ((v.endColl c 0x20).arbitrate 4 p)) ∧
    (∀ n, l.has me = true → quiet l.leader → l.successor = some n →
      exec .leaderTimeout s = .next { s with lintel := { l with leader := n } }) ∧
    (l.has me = true → quiet l.leader → (∀ n, l.successor = some n → quiet n) →
      ans .memberIsolated (fun u => u.lintel.members = l.members.filter (·.1 != me) ∧ u.lintel.applied = min 90 l.own ∧ u.lintel.own = l.own ∧
        me ∈ u.lintel.silent ∧ u.arb = s.arb + 1)) ∧
    (∀ f, 20 ≤ f → f ≤ 90 → ans (.emergencyLimit f) (fun u => lowered u.lintel now me (min l.own f) ∧ u.lintel.own = min l.own f ∧
      u.lintel.applied ≤ f ∧ u.mem = s.mem)) ∧
    ∀ p f, l.has p = true → p ≠ me → 20 ≤ f → f ≤ 90 → ans (.urgentNotice p f) (fun u => lowered u.lintel now p f ∧
      (l.has me = true → u.lintel.applied ≤ f) ∧ u.lintel.breach = min (l.breach + 1) 65535 ∧ u.lintel.own = l.own ∧ u.arb = s.arb + 2)

/-! Power, errors, clusters (spec/22). -/

/-- R426, R428 to R432: the power ring gives each unfenced die what it asks for beyond its base, as far as the spare goes, and repays its debt;
writes that would exceed the cap are refused; a low voltage lowers the die's limit and the package's; a watchdog reports once in a stall;
the plinth sets a core's base limit and a die's trim. -/
def Obligations.PowerEvents : Prop :=
  (∀ (demand used : List Nat) (s : State), s.power.dies.length = 8 →
    let dies := (List.range 8).filter (fun d => !(s.fenced.contains d))
    let spare := s.power.cap - s.power.hub - (dies.map (fun d => (s.die d).base)).sum
    let owed := fun (d : Nat) => min ((s.die d).debt + (used.getD d 0 - (s.die d).budget)) 65535
    let wants := fun (d : Nat) => demand.getD d 0 + owed d - (s.die d).base
    ∃ t, exec (.powerRingPeriod demand used) s = .next t ∧ t.power.period = s.power.period + 1 ∧ t.pticks = s.pticks + 100 ∧ t.core = s.core ∧
      (∀ d ∈ dies, let x := s.die d
        let y := t.die d
        y.base = x.base ∧ y.taken ≤ wants d ∧ y.budget = x.base + y.taken - owed d ∧ y.debt = owed d - x.base - y.taken ∧
          y.used = min (used.getD d 0) 65535 ∧ y.caplim = max 91 (5824 * x.budget / max (used.getD d 0) 1)) ∧
      (dies.map (fun d => (t.die d).taken)).sum ≤ spare ∧
      ((s.power.period + 1) % 8 ∈ dies → (t.die ((s.power.period + 1) % 8)).taken = min (wants ((s.power.period + 1) % 8)) spare)) ∧
  (∀ (d : Nat) (s : State),
    ((s.die d).overCap = true → 200 ≤ (s.die d).overTicks → exec (.overcapBallastLimit d) s = .next (s.modDie d (fun x => { x with suppressed := true }))) ∧
    ((s.die d).overCap = false ∨ (s.die d).overTicks < 200 → exec (.overcapBallastLimit d) s = .next s)) ∧
  (∀ (d : Nat) (v : Word) (s : State),
    let cap := (v.extractLsb' 0 16).toNat
    let hub := (v.extractLsb' 16 16).toNat
    let bases := (s.power.dies.map (·.base)).sum
    let u := s.modDie d (fun x => { x with base := (v.extractLsb' 48 16).toNat })
    (hub + bases ≤ cap → exec (.pkgCapWrite v) s = .next { s with power := { s.power with hub := hub, cap := cap } }) ∧
    (cap < hub + bases → exec (.pkgCapWrite v) s = .next s) ∧
    (s.power.hub + (u.power.dies.map (·.base)).sum ≤ s.power.cap → exec (.diePwrWrite d v) s = .next u) ∧
    (s.power.cap < s.power.hub + (u.power.dies.map (·.base)).sum → exec (.diePwrWrite d v) s = .next s) ∧
    exec (.vtrimWrite d v) s = .next (s.modDie d (fun x => { x with vtrim := (v.setWidth 56).setWidth 64 }))) ∧
  (∀ (d col f : Nat) (s : State), d < 8 → col < 7 → 20 ≤ f → f ≤ 90 → s.power.dies.length = 8 → ∃ t, exec (.voltageLow d col f) s = .next t ∧
    (t.die d).freqLimit = min (s.die d).freqLimit f ∧ t.lintel.own = min s.lintel.own f ∧ t.lintel.applied ≤ f ∧ t.core = s.core) ∧
  (∀ (fn : Nat) (v : Word) (s : State) (f : Fn), s.fn fn = some f → ∃ t g, exec (.wdogCtlWrite fn v) s = .next t ∧ t.fn fn = some g ∧
    g.wdogEn = v.getLsbD 6 ∧ g.wdogExp = (if (v.extractLsb' 0 6).toNat < 20 then 20 else if 48 < (v.extractLsb' 0 6).toNat then 48
      else (v.extractLsb' 0 6).toNat)) ∧
  (∀ (n : Nat) (s : State) (f : Fn) (u : UnitInfo),
    let k := s.coreOf n
    k.id = n → n < 896 → k.unit = some u → s.fn (s.fnOf u.asid) = some f → f.fq = none → f.faults.length < 256 → s.watchdogDue n = true →
    ∃ t g, exec (.watchdogExpiry n) s = .next t ∧ t.coreOf n = { k with pw := { k.pw with reported := true } } ∧ t.mem = s.mem ∧
      t.fn (s.fnOf u.asid) = some g ∧ g.faults = f.faults ++ [⟨[BitVec.ofNat 64 (3 * 2 ^ 48 + u.asid), BitVec.ofNat 64 k.pw.stall, 0, k.ctl.pc,
        BitVec.ofNat 64 (u.launch % 2 ^ 32 * 2 ^ 32 + n), 0, 0, 0]⟩] ∧ t.watchdogDue n = false) ∧
  ∀ (n : Nat) (v : Word) (s : State),
    let limit := (v.extractLsb' 0 13).toNat
    let slope := (v.extractLsb' 16 13).toNat
    (v.toNat < 2 ^ 29 → v.extractLsb' 13 3 = 0 → limit ≤ 5824 → slope ≤ 5824 → exec (.curLimitBaseSet n v) s =
      .next (s.modCore n (fun c => { c with sys := { c.sys with limitBase := (if limit < 91 then 91 else limit), slopeBase := slope } }))) ∧
    (2 ^ 29 ≤ v.toNat ∨ v.extractLsb' 13 3 ≠ 0 ∨ 5824 < limit ∨ 5824 < slope → exec (.curLimitBaseSet n v) s = .next s)

/-- R407, R433 to R436: an error found is logged, a second one counted with OVF; an uncorrectable one poisons the bed line, the register, the
tile or the memory line it stands in; the ninth CRC error of a flit takes its link down. VALID written clears a log but for its injection
register. -/
def Obligations.ErrorEvents : Prop :=
  (∀ (inst : Nat) (addr : Word) (asid synd : BitVec 16) (ue : Bool) (s : State),
    let e := s.errLog inst
    ∃ t, exec (.errorDetected inst addr asid synd ue) s = .next t ∧
      (e.valid = false → t.errLog inst = ⟨inst, 1, e.injReg.getLsbD 16, false, ue, true, addr, asid, synd, e.injReg &&& ~~~0x10000⟩) ∧
      (e.valid = true → e.count < 2 ^ 32 - 1 → (t.errLog inst).count = e.count + 1 ∧ (t.errLog inst).ovf = true ∧
        (ue = true → e.ue = false → (t.errLog inst).addr = addr ∧ (t.errLog inst).ue = true) ∧
        (ue = false ∨ e.ue = true → (t.errLog inst).addr = e.addr ∧ (t.errLog inst).synd = e.synd)) ∧
      (ue = true →
        let k := s.coreOf (inst % 1024)
        let m := t.coreOf (inst % 1024)
        (k.id = inst % 1024 →
          (inst / 1024 = 0 → addr.toNat / 64 ∈ m.mem.poisoned ∧ m.mem.bed = k.mem.bed) ∧
          (inst / 1024 = 1 → ∀ d : RegNo, d ≠ 0 → addr.toNat = d.toNat → m.xp d = true ∧ m.x d = k.x d) ∧
          (inst / 1024 = 1 → ∀ d : RegNo, addr.toNat = 64 + d.toNat → (m.v d).poison = true ∧ (m.v d).bits = (k.v d).bits) ∧
          (inst / 1024 = 2 → ∀ i < 8, addr.toNat = i → (m.tile i).poison = true ∧ (m.tile i).bits = (k.tile i).bits)) ∧
        (4 ≤ inst / 1024 → inst / 1024 ≤ 6 → addr.toNat / 64 ∈ t.poisoned ∧ t.mem = s.mem ∧ t.core = s.core))) ∧
  (∀ (l : Nat) (s : State),
    let n := (lookup s.fabric.retries l).getD 0
    ∃ t, exec (.linkCrcError l) s = .next t ∧ t.mem = s.mem ∧ (t.errLog (7168 + l)).valid = true ∧
      (n < 8 → lookup t.fabric.retries l = some (n + 1) ∧ t.fabric.links = s.fabric.links ∧ t.core = s.core) ∧
      (8 ≤ n → l ∉ t.fabric.links ∧ l ∈ t.fabric.downLinks ∧
        ∀ m, t.coreOf m = State.losePaths { s with fabric := t.fabric } s (s.coreOf m))) ∧
  ∀ (inst : Nat) (v : Word) (s : State),
    (∃ t, exec (.errStatClear inst) s = .next t ∧ t.core = s.core ∧
      t.errLog inst = ⟨inst, 0, false, false, false, false, 0, 0, 0, (s.errLog inst).injReg⟩ ∧ ∀ i, i ≠ inst → t.errLog i = s.errLog i) ∧
    ∃ t, exec (.errInjWrite inst v) s = .next t ∧ t.core = s.core ∧
      t.errLog inst = { s.errLog inst with injReg := (v.setWidth 17).setWidth 64 } ∧ ∀ i, i ≠ inst → t.errLog i = s.errLog i

/-- R118, R437, R438, R439: a cluster's requests, judged against the state reached: the next state is entered upon, RUN from any other, any
other sets BADREQ, and a request on the way waits. The state is reached whole: SAVED keeps the base limits, GATED loses beds, a return to RUN
restores the limits. A wake sets WPEND and posts to f0 of the plinth's core; a start lets a halted core issue in privileged state. -/
def Obligations.ClusterEvents : Prop :=
  (∀ (k v : Nat) (e : Instr) (s : State), k < 56 → (v, e) ∈ [(0, .clReqRun k), (1, .clReqQuiesced k), (2, .clReqSaved k), (3, .clReqGated k)] →
    let c := s.cluster k
    ∃ d, exec e s = .next (s.setCluster k d) ∧ d.req = v ∧ d.state = c.state ∧ d.saved = c.saved ∧ d.wpend = (c.wpend && decide (v ≠ 0)) ∧
      (c.target = none →
        (v = c.state → d.target = none ∧ d.badreq = false) ∧
        (v ≠ c.state → v = 0 ∨ v = c.state + 1 → d.target = some v ∧ d.badreq = false) ∧
        (v ≠ c.state → v ≠ 0 → v ≠ c.state + 1 → d.target = none ∧ d.badreq = true)) ∧
      (c.target ≠ none → d.target = c.target ∧ d.badreq = c.badreq)) ∧
  (∀ (k : Nat) (s : State),
    let c := s.cluster k
    let cores := (List.range 16).map (16 * k + ·)
    (∀ n ∈ cores, (s.coreOf n).id = n) →
    (c.target = none → exec (.clStateReached k) s = .next s) ∧
    (c.target = some c.req → ∃ t, exec (.clStateReached k) s = .next t ∧
      let d := t.cluster k
      (c.req ≠ 1 → d.state = c.req ∧ d.target = none ∧ d.badreq = false) ∧
      (c.req = 1 → (∀ n ∈ cores, (s.coreOf n).unit = none) → d.state = 1 ∧ d.target = none ∧ ∀ n, t.coreOf n = s.coreOf n) ∧
      (c.req = 2 → d.saved = cores.map (fun n => ((s.coreOf n).sys.limitBase, (s.coreOf n).sys.slopeBase))) ∧
      (c.req = 3 → ∀ n ∈ cores, (t.coreOf n).mem.bed = [] ∧ (t.coreOf n).mem.tlb = [] ∧ (t.coreOf n).acc = Vector.replicate 8 Tile.launch) ∧
      (c.req = 0 → c.saved.length = 16 → ∀ i < 16, ∀ b, c.saved[i]? = some b →
        (t.coreOf (16 * k + i)).sys.limitBase = b.1 ∧ (t.coreOf (16 * k + i)).sys.slopeBase = b.2))) ∧
  (∀ (k : Nat) (s : State), k < 56 → (s.coreOf 896).id = 896 → ∃ t, exec (.clWake k) s = .next t ∧ (t.cluster k).wpend = true ∧
    (t.cluster k).state = (s.cluster k).state ∧ (t.coreOf 896).flag 0 = min ((s.coreOf 896).flag 0 + 1) 65535 ∧ t.mem = s.mem) ∧
  ∀ (k : Nat) (v : Word) (s : State), k < 56 → v.toNat < 2 ^ 52 → v.toNat % 32 = 0 →
    let n := k * 16 + (v.extractLsb' 48 4).toNat
    ((s.coreOf n).ctl.halted = true → (s.coreOf n).id = n → ∃ t, exec (.clStart k v) s = .next t ∧
      let m := t.coreOf n
      m.ctl.halted = false ∧ m.ctl.pc = (v.setWidth 48).setWidth 64 ∧ m.sys.priv = true ∧ m.ctl.dly = 0 ∧ m.r = (s.coreOf n).r) ∧
    ((s.coreOf n).ctl.halted = false → exec (.clStart k v) s = .next s)

/-! The machine. -/

/-- R9, R22, R32, R118, R273, R331, R344, R421: a step runs what has been decoded. A waiting input is run first; then the unit whose turn it is
issues. A core that issues alone takes the bundle whose 32 bytes stand at its pc: one instruction alone in a bundle has the effect exec
gives it on the registers the bundle reads, and the issue follows it; an instruction that stalls holds the bundle with no effect, one that
raises a fault has it suppressed; a region-closing instruction whose region has closed leaves the bundle begun where it then waits.
Members of a gang that issue together are judged on one state: a stall of one holds all, the faults raised are taken together, else every
one issues. A stopped package does nothing but a cold reset. The order among inputs, units and agents is the model's (log 12), and so is that
among a gang's members in one cycle (log 78). -/
def Obligations.StepRunsDecoded : Prop :=
  (∀ (i : Instr) (is : List Instr) (s : State), s.agenda = i :: is → s.stopped = false → step s = exec i { s with agenda := is }) ∧
  (∀ (n pa : Nat) (ns : List Nat) (s : State), s.agenda = [] → s.stopped = false → s.turn = n :: ns →
    let f := State.focus { s with turn := ns } n
    f.translate f.core.asid f.core.ctl.pc.toNat .fetch = .ok pa →
    let w := bundleOfBytes ((f.memAs (f.keyOf f.core.asid)).read pa 32)
    let b := decodeBundle w
    let r := f.opened b
    let ends := fun (t : Turn) => step s = State.afterTurn n f.lagging t.done
    f.AboutTo n b →
    (b.instrs = [] → ends (r.issued r.core w false)) ∧
    ∀ (k : Nat) (i : Instr) (t : State), b.instrs = [(k, i)] → exec i (r.atSlot k) = .next t →
      (i.regionClosing = false →
        (t.core.ctl.stalled = true → ends (.stalls f)) ∧
        (∀ e, t.core.ctl.stalled = false → t.core.ctl.raised = some e → ends (.raises e f)) ∧
        (t.core.ctl.stalled = false → t.core.ctl.raised = none → ends (t.settled.issued r.core w false))) ∧
      ∀ v, i.regionClosing = true → (∀ d ∈ closerRegs i, r.core.pendOn d = none) → exec i (r.foreseen.atSlot k) = .next v →
        (v.core.ctl.stalled = true → v.core.ctl.passed = false → ends (.stalls f)) ∧
        (∀ e, v.core.ctl.stalled = false → v.core.ctl.raised = some e → ends (.raises e f)) ∧
        (v.core.ctl.stalled = true ∧ v.core.ctl.passed = true ∨ v.core.ctl.stalled = false ∧ v.core.ctl.raised = none →
          (∀ e, t.core.ctl.raised = some e → ends (.raises e f)) ∧
          (t.core.ctl.raised = none → t.core.ctl.stalled = true →
            ends (.stalls (if t.core.ctl.passed = true then t.settled.asBegun w else f))) ∧
          (t.core.ctl.raised = none → t.core.ctl.stalled = false →
            ends ((t.settled.mapCore (fun c => { c with ctl := { c.ctl with done_ := c.ctl.done_ ++ [k] } })).issued r.core w false)))) ∧
  (∀ (n : Nat) (ns ready : List Nat) (stalls : Bool) (faults : List (Nat × FaultRec)) (s : State),
    s.agenda = [] → s.stopped = false → s.turn = n :: ns →
    let f := State.focus { s with turn := ns } n
    f.inTurn = ready → 2 ≤ ready.length → (∀ m ∈ ready, f.wouldFreeze m = false) → f.judged ready = .next (stalls, faults) →
    (stalls = true → step s = State.afterTurn n f.lagging ⟨f.heldTeam ready, false⟩) ∧
    (stalls = false → faults ≠ [] → step s = State.afterTurn n f.lagging ⟨(f.tilesReported faults).enterFaults faults, false⟩) ∧
    ∀ r, stalls = false → faults = [] → f.issueAll ready f [] ready = .next r → step s = State.afterTurn n f.lagging r) ∧
  ∀ (s : State), s.stopped = true →
    (s.agenda = [] → step s = .fault .packageStopped) ∧
    (∀ img is, s.agenda = .coldReset img :: is → step s = execColdReset img { s with agenda := is }) ∧
    ∀ i is, s.agenda = i :: is → (∀ img, i ≠ .coldReset img) → step s = .fault .packageStopped

/-- R68 to R85: the worked bundle of spec/03, and a few words of each slot, written out bit by bit, decode to what they stand for. A header with
a high bit set, two branch-class instructions, TICK beside SIGRST make an illegal bundle, whatever the slots' other bits; an opcode of one S slot in the other, a reserved
opcode and a nonzero unused field are refused by name. -/
def Obligations.DecodedWords : Prop :=
  (∀ b, b = decodeBundle (0x6008280030000000#64 ++ 0x0000401020481140#64 ++ 0x608000480C492105#64 ++ 0x04041090018C0105#64) →
    b.rm = true ∧ b.psel = 2 ∧ b.hdrOk = true ∧ b.c = .ok (.fpost ⟨3, 1⟩) ∧ b.s0 = .ok (.iadd ⟨0, 4, 4, 9⟩) ∧
    b.s1 = .ok (.icmp ⟨3, 1, 2, 2, 2, 4, 5⟩) ∧ b.m = .ok (.ldw ⟨0, 6, 2, 4⟩) ∧ b.v0 = .ok (.vadd ⟨0, 0, 8, .reg 8, .reg 9, 1, 0, false⟩) ∧
    b.v1 = .nop ∧ b.x = .ok (.tapset ⟨0, 1, 5, 3⟩)) ∧
  (decodeS true 0x840481100 = .ok (.icmpi ⟨0, 1, 2, 0, 1, 4, 0⟩) ∧ decodeS true 0xE07FFFFFE = .ok (.br ⟨1, 0x3FFFFFE⟩) ∧
    decodeX 0x680400008 = .ok (.taprd ⟨0, 4, 0, 0, true⟩) ∧ decodeX 0x6C4210008 = .ok (.tapwr ⟨1, 2, 4, 0, true⟩) ∧
    decodeM 0x5C06114000 = .ok (.gstd ⟨0, 6, 1, 5, 0⟩) ∧ decodeM 0x4C07114001 = .ok (.gldd ⟨0, 7, 1, 5, 1⟩) ∧
    decodeC 0x10001 = .ok (.fwait ⟨0, 1⟩)) ∧
  (∀ w : BundleBits, w.extractLsb' 4 4 ≠ 0 → (decodeBundle w).illegal = true) ∧
  (∀ w : BundleBits, w.extractLsb' 58 6 ∈ [0x32#6, 0x33, 0x34] → (w.extractLsb' 94 6 ∈ [0x38#6, 0x39, 0x3A, 0x3B, 0x3C, 0x3D, 0x3E] ∨
    w.extractLsb' 94 6 = 0x3F#6 ∧ (w.extractLsb' 64 8).toNat ≤ 4) → (decodeBundle w).illegal = true) ∧
  (∀ (w : BundleBits) (i j : Instr), (decodeBundle w).s0 = .ok i → (decodeBundle w).s1 = .ok j → i.branchClass = true → j.branchClass = true →
    (decodeBundle w).illegal = true) ∧
  (∀ w : BundleBits, w.extractLsb' 23 5 = 1#5 → w.extractLsb' 250 6 = 0x1E#6 → (decodeBundle w).illegal = true) ∧
  (∀ w : BitVec 36, w.extractLsb' 30 6 ∈ [0x30#6, 0x31, 0x32, 0x33, 0x34] → decodeS true w = .bad .illegalSlot) ∧
  (∀ w : BitVec 36, w.extractLsb' 30 6 ∈ [0x38#6, 0x39, 0x3A, 0x3B, 0x3C, 0x3D, 0x3E, 0x3F] → decodeS false w = .bad .illegalSlot) ∧
  (∀ w : BitVec 40, w.extractLsb' 34 6 = 0x3E#6 → decodeV true w = .bad .illegalSlot) ∧
  (∀ (s1 : Bool) (w : BitVec 36), 0x08 ≤ (w.extractLsb' 30 6).toNat → (w.extractLsb' 30 6).toNat ≤ 0x0F → decodeS s1 w = .bad .illegalOp) ∧
  ∀ (qp : PredNo) (d a : RegNo) (b : RegNo) (s1 : Bool), b ≠ 0 → decodeS s1 (3#6 ++ qp ++ d ++ a ++ b ++ 0#8) = .bad .illegalOperand

/-- R68 to R84: encoding and decoding agree. The bundle that holds a well-formed instruction alone decodes to it, with every operand; and every
word that a slot reads as an instruction is the word the encoder gives for that instruction: no bit of it is left unread. -/
def Obligations.EncodeDecode : Prop :=
  (∀ (i : Instr), i.wellFormed = true → ∀ w, encode i = some w → decodeTableWord 256 w.toNat = some i) ∧
  (∀ (w : BitVec 36) (i : Instr), decodeS false w = .ok i → encode i = some (inS0 w)) ∧
  (∀ (w : BitVec 36) (i : Instr), decodeS true w = .ok i → encode i = some (inS0 w) ∨ encode i = some (inS1 w)) ∧
  (∀ (w : BitVec 40) (i : Instr), decodeM w = .ok i → encode i = some (inM w)) ∧
  (∀ (v1 : Bool) (w : BitVec 40) (i : Instr), decodeV v1 w = .ok i → encode i = some (inV0 w)) ∧
  (∀ (w : BitVec 36) (i : Instr), decodeX w = .ok i → encode i = some (inX w)) ∧
  ∀ (w : BitVec 20) (i : Instr), decodeC w = .ok i → encode i = some (inC w)

/-- R13, R18, R20: x0, p0 and k0 read as constants and discard what is written to them; any other register reads what was written to it, and no other
register changes. A result of latency L is read by the bundle L issue cycles on, and by none before. Of two slots of one bundle the
higher-ranked one's write stays and WCONF is set; of two results that land in one cycle the later bundle's stays. -/
def Obligations.LandedResults : Prop :=
  (∀ c : Core, c.x 0 = 0 ∧ c.xp 0 = false ∧ c.p 0 = true ∧ c.k 0 = BitVec.allOnes 128) ∧
  (∀ (c : Core) (w : Word) (b : Bool) (m : Mask),
    (Landing.x 0 w b).apply c = c ∧ (Landing.p 0 b).apply c = c ∧ (Landing.k 0 m).apply c = c) ∧
  (∀ (c : Core) (d : RegNo) (w : Word) (b : Bool), d ≠ 0 →
    let k := (Landing.x d w b).apply c
    k.x d = w ∧ k.xp d = b ∧ (∀ e, e ≠ d → k.xr e = c.xr e) ∧ k.r.v = c.r.v ∧ k.r.p = c.r.p ∧ k.r.k = c.r.k) ∧
  (∀ (c : Core) (d : PredNo) (b : Bool), d ≠ 0 →
    let k := (Landing.p d b).apply c
    k.p d = b ∧ (∀ e, e ≠ d → k.p e = c.p e) ∧ k.r.x = c.r.x ∧ k.r.v = c.r.v) ∧
  (∀ (c : Core) (d : BitVec 3) (m : Mask), d ≠ 0 →
    let k := (Landing.k d m).apply c
    k.k d = m ∧ (∀ e, e ≠ d → k.k e = c.k e) ∧ k.r.x = c.r.x ∧ k.r.v = c.r.v) ∧
  (∀ (c : Core) (d : RegNo) (w : VBits) (t : Tag) (b : Bool),
    let k := (Landing.v d w t b).apply c
    k.v d = ⟨w, t, b⟩ ∧ (∀ e, e ≠ d → k.v e = c.v e) ∧ k.r.x = c.r.x) ∧
  (∀ (c : Core) (d : BitVec 4) (h : Handle),
    let k := (Landing.h d h).apply c
    k.h d = h ∧ (∀ e, e ≠ d → k.h e = c.h e) ∧ k.r.x = c.r.x) ∧
  (∀ (c : Core) (l : Landing) (lat j : Nat), c.pipe.flights = [] → c.pipe.reqs = [] → 1 ≤ lat →
    let next := fun (k : Core) => { k.land with pipe := k.land.pipe.age }
    let sent := c.push l lat
    let k := (Nat.repeat next j { sent with pipe := sent.pipe.age }).land
    (j + 1 < lat → k.r = c.r ∧ k.sys = c.sys) ∧ (j + 1 = lat → k.r = (l.apply c).r ∧ k.sys = (l.apply c).sys)) ∧
  (∀ (p : Pipe) (l m : Landing) (la lb a b : Nat), p.flights = [] → p.reqs = [] → a < b → l.same m = true →
    ((p.push a l la).push b m lb).flights = [⟨m, lb - 1, p.seq, b⟩, ⟨.wconf, 0, p.seq, b⟩] ∧
    ((p.push b m lb).push a l la).flights = [⟨m, lb - 1, p.seq, b⟩, ⟨.wconf, 0, p.seq, a⟩]) ∧
  (∀ (c : Core) (f g : Flight), c.pipe.flights = [f, g] → f.count = 0 → g.count = 0 → f.land.isWconf = false → g.land.isWconf = false →
    c.land.r = (g.land.apply (f.land.apply c)).r ∧ c.land.pipe.flights = []) ∧
  ∀ c : Core, (Landing.wconf.apply c).sys = { c.sys with wconf := true } ∧ (Landing.wconf.apply c).r = c.r

/-- R39, R238, R239: memory. What is read back is what was written, byte by byte, and no other byte changes; equal memories are equal data. An
accumulating write stores, at its width, what its operation makes of the old value and the operand: sums wrap, minima and maxima are
signed or unsigned, swap takes the operand, cas takes it only where the old value is the comparand. That an unlisted byte reads as zero is
the spec's for a bed (R39), the model's for device memory (log 1). -/
def Obligations.MemoryLaws : Prop :=
  (∀ a : Nat, Memory.get [] a = 0) ∧
  (∀ (m : Memory) (a : Nat) (bs : List Byte), m.wf →
    (∀ i < bs.length, (m.write a bs).get (a + i) = bs.getD i 0) ∧
    ∀ b, b < a ∨ a + bs.length ≤ b → (m.write a bs).get b = m.get b) ∧
  (∀ (m : Memory) (a n : Nat), m.wf → (∀ b, (m.clear a n).get b = if a ≤ b ∧ b < a + n then 0 else m.get b) ∧
    m.read a n = (List.range n).map (fun i => m.get (a + i))) ∧
  (∀ m n : Memory, m.wf → n.wf → (∀ a, m.get a = n.get a) → m = n) ∧
  ∀ (w64 : Bool) (m : Memory) (pa : Nat) (op : AccOp) (a cmp : Word), m.wf →
    let n := if w64 = true then 8 else 4
    let w := 8 * n
    let old := BitVec.ofNat w (natOfBytes (m.read pa n))
    let x := a.setWidth w
    let new : BitVec w := match op with
      | .add => old + x
      | .faddq => old + x
      | .min => if old.toInt ≤ x.toInt then old else x
      | .max => if x.toInt ≤ old.toInt then old else x
      | .minz => if old.toNat ≤ x.toNat then old else x
      | .maxz => if x.toNat ≤ old.toNat then old else x
      | .and => old &&& x
      | .or => old ||| x
      | .xor => old ^^^ x
      | .swap => x
      | .cas => if old = cmp.setWidth w then x else old
    natOfBytes ((accMem m pa op w64 a cmp).read pa n) = new.toNat ∧
      ∀ b, b < pa ∨ pa + n ≤ b → (accMem m pa op w64 a cmp).get b = m.get b

/-- R27, R28, R30, R34, R41, R66, R110, R216, R426, R429, R437, R439: what a cold reset leaves, as the register maps give it. That registers without a
reset value hold the values of a unit's launch, and that device memory is zero, is the model's (logs 1 and 2). -/
def Obligations.ResetState : Prop :=
  let s := State.reset
  s.mem.wf ∧ s.agenda = [] ∧ s.turn = [] ∧ s.ctxs = [] ∧ s.stopped = false ∧ s.fenced = [] ∧ s.disp.launches = [] ∧
  (∀ n, (s.coreOf n).id = n ∧ (s.coreOf n).unit = none ∧ s.runs n = false) ∧
  (∀ n, let y := (s.coreOf n).sys
    y.wconf = false ∧ y.replay = false ∧ y.intrap = false ∧ y.priv = false ∧ y.markv = false ∧ y.spillLimit = 0x180000 ∧ y.freeze = 0 ∧
    y.limit = 5824 ∧ y.slope = 1920 ∧ y.ballast = 0 ∧ y.margin = 0x7F800000) ∧
  (∀ n d, let c := s.coreOf n
    c.x d = (if d = 2 then 0x180000 else 0) ∧ c.xp d = false ∧ (c.v d).bits = 0 ∧ (c.v d).tag = 0) ∧
  (∀ n f, (s.coreOf n).flag f = 0) ∧
  (∀ n q, ((s.coreOf n).queue q).ents = [] ∧ ((s.coreOf n).queue q).faulted = none) ∧
  (∀ k, (s.cluster k).state = 0 ∧ (s.cluster k).req = 0 ∧ (s.cluster k).badreq = false ∧ (s.cluster k).wpend = false) ∧
  s.power.exceeds = false ∧ (∀ d < 8, (s.die d).base = 450 ∧ (s.die d).debt = 0) ∧
  ∀ fn, ∀ f ∈ s.fn fn, f.wdogEn = true ∧ f.wdogExp = 32 ∧ f.sqs = [] ∧ f.cqs = [] ∧ f.fq = none

/-- R39 and log 1: device memory keeps its canonical form in every step. -/
def Obligations.CanonicalMemory : Prop := ∀ s t : State, s.mem.wf → step s = .next t → t.mem.wf

/-- R421: every step of a package that has not been stopped answers a next state: no instruction and no event ends a run. -/
def Obligations.Progress : Prop := ∀ s : State, s.Alive → ∃ t, step s = .next t
end

