-- ==== Sys2Proof/Laws/State.lean ====
section
/-! SUPPORT. What each of the plain updates of a state and of a core leaves: one lemma per field per update. -/

namespace Sys2Proof.Machine

@[simp] theorem State.mapCore_core (s : State) (f : Core → Core) : (s.mapCore f).core = f s.core := rfl
@[simp] theorem State.mapCore_others (s : State) (f : Core → Core) : (s.mapCore f).others = s.others := rfl
@[simp] theorem State.mapCore_agenda (s : State) (f : Core → Core) : (s.mapCore f).agenda = s.agenda := rfl
@[simp] theorem State.mapCore_turn (s : State) (f : Core → Core) : (s.mapCore f).turn = s.turn := rfl
@[simp] theorem State.mapCore_mem (s : State) (f : Core → Core) : (s.mapCore f).mem = s.mem := rfl
@[simp] theorem State.mapCore_sealed (s : State) (f : Core → Core) : (s.mapCore f).sealed = s.sealed := rfl
@[simp] theorem State.mapCore_poisoned (s : State) (f : Core → Core) : (s.mapCore f).poisoned = s.poisoned := rfl
@[simp] theorem State.mapCore_tags (s : State) (f : Core → Core) : (s.mapCore f).tags = s.tags := rfl
@[simp] theorem State.mapCore_regions (s : State) (f : Core → Core) : (s.mapCore f).regions = s.regions := rfl
@[simp] theorem State.mapCore_nextRegion (s : State) (f : Core → Core) : (s.mapCore f).nextRegion = s.nextRegion := rfl
@[simp] theorem State.mapCore_ctxs (s : State) (f : Core → Core) : (s.mapCore f).ctxs = s.ctxs := rfl
@[simp] theorem State.mapCore_holds (s : State) (f : Core → Core) : (s.mapCore f).holds = s.holds := rfl
@[simp] theorem State.mapCore_disp (s : State) (f : Core → Core) : (s.mapCore f).disp = s.disp := rfl
@[simp] theorem State.mapCore_clusters (s : State) (f : Core → Core) : (s.mapCore f).clusters = s.clusters := rfl
@[simp] theorem State.mapCore_fns (s : State) (f : Core → Core) : (s.mapCore f).fns = s.fns := rfl
@[simp] theorem State.mapCore_boot (s : State) (f : Core → Core) : (s.mapCore f).boot = s.boot := rfl
@[simp] theorem State.mapCore_spdm (s : State) (f : Core → Core) : (s.mapCore f).spdm = s.spdm := rfl
@[simp] theorem State.mapCore_fabric (s : State) (f : Core → Core) : (s.mapCore f).fabric = s.fabric := rfl
@[simp] theorem State.mapCore_lintel (s : State) (f : Core → Core) : (s.mapCore f).lintel = s.lintel := rfl
@[simp] theorem State.mapCore_arb (s : State) (f : Core → Core) : (s.mapCore f).arb = s.arb := rfl
@[simp] theorem State.mapCore_arbLog (s : State) (f : Core → Core) : (s.mapCore f).arbLog = s.arbLog := rfl
@[simp] theorem State.mapCore_fenced (s : State) (f : Core → Core) : (s.mapCore f).fenced = s.fenced := rfl
@[simp] theorem State.mapCore_master (s : State) (f : Core → Core) : (s.mapCore f).master = s.master := rfl
@[simp] theorem State.mapCore_stopped (s : State) (f : Core → Core) : (s.mapCore f).stopped = s.stopped := rfl
@[simp] theorem State.mapCore_power (s : State) (f : Core → Core) : (s.mapCore f).power = s.power := rfl
@[simp] theorem State.mapCore_errs (s : State) (f : Core → Core) : (s.mapCore f).errs = s.errs := rfl
@[simp] theorem State.mapCore_cycle (s : State) (f : Core → Core) : (s.mapCore f).cycle = s.cycle := rfl
@[simp] theorem State.mapCore_refTime (s : State) (f : Core → Core) : (s.mapCore f).refTime = s.refTime := rfl
@[simp] theorem State.mapCore_pticks (s : State) (f : Core → Core) : (s.mapCore f).pticks = s.pticks := rfl
@[simp] theorem State.mapCore_free (s : State) (f : Core → Core) : (s.mapCore f).free = s.free := rfl

@[simp] theorem State.setCluster_core (s : State) (k : Nat) (c : Cluster) : (s.setCluster k c).core = s.core := rfl
@[simp] theorem State.setCluster_others (s : State) (k : Nat) (c : Cluster) : (s.setCluster k c).others = s.others := rfl
@[simp] theorem State.setCluster_agenda (s : State) (k : Nat) (c : Cluster) : (s.setCluster k c).agenda = s.agenda := rfl
@[simp] theorem State.setCluster_turn (s : State) (k : Nat) (c : Cluster) : (s.setCluster k c).turn = s.turn := rfl
@[simp] theorem State.setCluster_mem (s : State) (k : Nat) (c : Cluster) : (s.setCluster k c).mem = s.mem := rfl
@[simp] theorem State.setCluster_sealed (s : State) (k : Nat) (c : Cluster) : (s.setCluster k c).sealed = s.sealed := rfl
@[simp] theorem State.setCluster_poisoned (s : State) (k : Nat) (c : Cluster) : (s.setCluster k c).poisoned = s.poisoned := rfl
@[simp] theorem State.setCluster_tags (s : State) (k : Nat) (c : Cluster) : (s.setCluster k c).tags = s.tags := rfl
@[simp] theorem State.setCluster_regions (s : State) (k : Nat) (c : Cluster) : (s.setCluster k c).regions = s.regions := rfl
@[simp] theorem State.setCluster_nextRegion (s : State) (k : Nat) (c : Cluster) : (s.setCluster k c).nextRegion = s.nextRegion := rfl
@[simp] theorem State.setCluster_ctxs (s : State) (k : Nat) (c : Cluster) : (s.setCluster k c).ctxs = s.ctxs := rfl
@[simp] theorem State.setCluster_holds (s : State) (k : Nat) (c : Cluster) : (s.setCluster k c).holds = s.holds := rfl
@[simp] theorem State.setCluster_disp (s : State) (k : Nat) (c : Cluster) : (s.setCluster k c).disp = s.disp := rfl
@[simp] theorem State.setCluster_clusters (s : State) (k : Nat) (c : Cluster) : (s.setCluster k c).clusters = assocSet s.clusters k c := rfl
@[simp] theorem State.setCluster_fns (s : State) (k : Nat) (c : Cluster) : (s.setCluster k c).fns = s.fns := rfl
@[simp] theorem State.setCluster_boot (s : State) (k : Nat) (c : Cluster) : (s.setCluster k c).boot = s.boot := rfl
@[simp] theorem State.setCluster_spdm (s : State) (k : Nat) (c : Cluster) : (s.setCluster k c).spdm = s.spdm := rfl
@[simp] theorem State.setCluster_fabric (s : State) (k : Nat) (c : Cluster) : (s.setCluster k c).fabric = s.fabric := rfl
@[simp] theorem State.setCluster_lintel (s : State) (k : Nat) (c : Cluster) : (s.setCluster k c).lintel = s.lintel := rfl
@[simp] theorem State.setCluster_arb (s : State) (k : Nat) (c : Cluster) : (s.setCluster k c).arb = s.arb := rfl
@[simp] theorem State.setCluster_arbLog (s : State) (k : Nat) (c : Cluster) : (s.setCluster k c).arbLog = s.arbLog := rfl
@[simp] theorem State.setCluster_fenced (s : State) (k : Nat) (c : Cluster) : (s.setCluster k c).fenced = s.fenced := rfl
@[simp] theorem State.setCluster_master (s : State) (k : Nat) (c : Cluster) : (s.setCluster k c).master = s.master := rfl
@[simp] theorem State.setCluster_stopped (s : State) (k : Nat) (c : Cluster) : (s.setCluster k c).stopped = s.stopped := rfl
@[simp] theorem State.setCluster_power (s : State) (k : Nat) (c : Cluster) : (s.setCluster k c).power = s.power := rfl
@[simp] theorem State.setCluster_errs (s : State) (k : Nat) (c : Cluster) : (s.setCluster k c).errs = s.errs := rfl
@[simp] theorem State.setCluster_cycle (s : State) (k : Nat) (c : Cluster) : (s.setCluster k c).cycle = s.cycle := rfl
@[simp] theorem State.setCluster_refTime (s : State) (k : Nat) (c : Cluster) : (s.setCluster k c).refTime = s.refTime := rfl
@[simp] theorem State.setCluster_pticks (s : State) (k : Nat) (c : Cluster) : (s.setCluster k c).pticks = s.pticks := rfl
@[simp] theorem State.setCluster_free (s : State) (k : Nat) (c : Cluster) : (s.setCluster k c).free = s.free := rfl

@[simp] theorem State.setErrLog_core (s : State) (e : ErrLog) : (s.setErrLog e).core = s.core := rfl
@[simp] theorem State.setErrLog_others (s : State) (e : ErrLog) : (s.setErrLog e).others = s.others := rfl
@[simp] theorem State.setErrLog_agenda (s : State) (e : ErrLog) : (s.setErrLog e).agenda = s.agenda := rfl
@[simp] theorem State.setErrLog_turn (s : State) (e : ErrLog) : (s.setErrLog e).turn = s.turn := rfl
@[simp] theorem State.setErrLog_mem (s : State) (e : ErrLog) : (s.setErrLog e).mem = s.mem := rfl
@[simp] theorem State.setErrLog_sealed (s : State) (e : ErrLog) : (s.setErrLog e).sealed = s.sealed := rfl
@[simp] theorem State.setErrLog_poisoned (s : State) (e : ErrLog) : (s.setErrLog e).poisoned = s.poisoned := rfl
@[simp] theorem State.setErrLog_tags (s : State) (e : ErrLog) : (s.setErrLog e).tags = s.tags := rfl
@[simp] theorem State.setErrLog_regions (s : State) (e : ErrLog) : (s.setErrLog e).regions = s.regions := rfl
@[simp] theorem State.setErrLog_nextRegion (s : State) (e : ErrLog) : (s.setErrLog e).nextRegion = s.nextRegion := rfl
@[simp] theorem State.setErrLog_ctxs (s : State) (e : ErrLog) : (s.setErrLog e).ctxs = s.ctxs := rfl
@[simp] theorem State.setErrLog_holds (s : State) (e : ErrLog) : (s.setErrLog e).holds = s.holds := rfl
@[simp] theorem State.setErrLog_disp (s : State) (e : ErrLog) : (s.setErrLog e).disp = s.disp := rfl
@[simp] theorem State.setErrLog_clusters (s : State) (e : ErrLog) : (s.setErrLog e).clusters = s.clusters := rfl
@[simp] theorem State.setErrLog_fns (s : State) (e : ErrLog) : (s.setErrLog e).fns = s.fns := rfl
@[simp] theorem State.setErrLog_boot (s : State) (e : ErrLog) : (s.setErrLog e).boot = s.boot := rfl
@[simp] theorem State.setErrLog_spdm (s : State) (e : ErrLog) : (s.setErrLog e).spdm = s.spdm := rfl
@[simp] theorem State.setErrLog_fabric (s : State) (e : ErrLog) : (s.setErrLog e).fabric = s.fabric := rfl
@[simp] theorem State.setErrLog_lintel (s : State) (e : ErrLog) : (s.setErrLog e).lintel = s.lintel := rfl
@[simp] theorem State.setErrLog_arb (s : State) (e : ErrLog) : (s.setErrLog e).arb = s.arb := rfl
@[simp] theorem State.setErrLog_arbLog (s : State) (e : ErrLog) : (s.setErrLog e).arbLog = s.arbLog := rfl
@[simp] theorem State.setErrLog_fenced (s : State) (e : ErrLog) : (s.setErrLog e).fenced = s.fenced := rfl
@[simp] theorem State.setErrLog_master (s : State) (e : ErrLog) : (s.setErrLog e).master = s.master := rfl
@[simp] theorem State.setErrLog_stopped (s : State) (e : ErrLog) : (s.setErrLog e).stopped = s.stopped := rfl
@[simp] theorem State.setErrLog_power (s : State) (e : ErrLog) : (s.setErrLog e).power = s.power := rfl
@[simp] theorem State.setErrLog_errs (s : State) (e : ErrLog) : (s.setErrLog e).errs = s.errs.filter (·.inst != e.inst) ++ [e] := rfl
@[simp] theorem State.setErrLog_cycle (s : State) (e : ErrLog) : (s.setErrLog e).cycle = s.cycle := rfl
@[simp] theorem State.setErrLog_refTime (s : State) (e : ErrLog) : (s.setErrLog e).refTime = s.refTime := rfl
@[simp] theorem State.setErrLog_pticks (s : State) (e : ErrLog) : (s.setErrLog e).pticks = s.pticks := rfl
@[simp] theorem State.setErrLog_free (s : State) (e : ErrLog) : (s.setErrLog e).free = s.free := rfl

@[simp] theorem State.mapFabric_core (s : State) (f : Fabric → Fabric) : (s.mapFabric f).core = s.core := rfl
@[simp] theorem State.mapFabric_others (s : State) (f : Fabric → Fabric) : (s.mapFabric f).others = s.others := rfl
@[simp] theorem State.mapFabric_agenda (s : State) (f : Fabric → Fabric) : (s.mapFabric f).agenda = s.agenda := rfl
@[simp] theorem State.mapFabric_turn (s : State) (f : Fabric → Fabric) : (s.mapFabric f).turn = s.turn := rfl
@[simp] theorem State.mapFabric_mem (s : State) (f : Fabric → Fabric) : (s.mapFabric f).mem = s.mem := rfl
@[simp] theorem State.mapFabric_sealed (s : State) (f : Fabric → Fabric) : (s.mapFabric f).sealed = s.sealed := rfl
@[simp] theorem State.mapFabric_poisoned (s : State) (f : Fabric → Fabric) : (s.mapFabric f).poisoned = s.poisoned := rfl
@[simp] theorem State.mapFabric_tags (s : State) (f : Fabric → Fabric) : (s.mapFabric f).tags = s.tags := rfl
@[simp] theorem State.mapFabric_regions (s : State) (f : Fabric → Fabric) : (s.mapFabric f).regions = s.regions := rfl
@[simp] theorem State.mapFabric_nextRegion (s : State) (f : Fabric → Fabric) : (s.mapFabric f).nextRegion = s.nextRegion := rfl
@[simp] theorem State.mapFabric_ctxs (s : State) (f : Fabric → Fabric) : (s.mapFabric f).ctxs = s.ctxs := rfl
@[simp] theorem State.mapFabric_holds (s : State) (f : Fabric → Fabric) : (s.mapFabric f).holds = s.holds := rfl
@[simp] theorem State.mapFabric_disp (s : State) (f : Fabric → Fabric) : (s.mapFabric f).disp = s.disp := rfl
@[simp] theorem State.mapFabric_clusters (s : State) (f : Fabric → Fabric) : (s.mapFabric f).clusters = s.clusters := rfl
@[simp] theorem State.mapFabric_fns (s : State) (f : Fabric → Fabric) : (s.mapFabric f).fns = s.fns := rfl
@[simp] theorem State.mapFabric_boot (s : State) (f : Fabric → Fabric) : (s.mapFabric f).boot = s.boot := rfl
@[simp] theorem State.mapFabric_spdm (s : State) (f : Fabric → Fabric) : (s.mapFabric f).spdm = s.spdm := rfl
@[simp] theorem State.mapFabric_fabric (s : State) (f : Fabric → Fabric) : (s.mapFabric f).fabric = f s.fabric := rfl
@[simp] theorem State.mapFabric_lintel (s : State) (f : Fabric → Fabric) : (s.mapFabric f).lintel = s.lintel := rfl
@[simp] theorem State.mapFabric_arb (s : State) (f : Fabric → Fabric) : (s.mapFabric f).arb = s.arb := rfl
@[simp] theorem State.mapFabric_arbLog (s : State) (f : Fabric → Fabric) : (s.mapFabric f).arbLog = s.arbLog := rfl
@[simp] theorem State.mapFabric_fenced (s : State) (f : Fabric → Fabric) : (s.mapFabric f).fenced = s.fenced := rfl
@[simp] theorem State.mapFabric_master (s : State) (f : Fabric → Fabric) : (s.mapFabric f).master = s.master := rfl
@[simp] theorem State.mapFabric_stopped (s : State) (f : Fabric → Fabric) : (s.mapFabric f).stopped = s.stopped := rfl
@[simp] theorem State.mapFabric_power (s : State) (f : Fabric → Fabric) : (s.mapFabric f).power = s.power := rfl
@[simp] theorem State.mapFabric_errs (s : State) (f : Fabric → Fabric) : (s.mapFabric f).errs = s.errs := rfl
@[simp] theorem State.mapFabric_cycle (s : State) (f : Fabric → Fabric) : (s.mapFabric f).cycle = s.cycle := rfl
@[simp] theorem State.mapFabric_refTime (s : State) (f : Fabric → Fabric) : (s.mapFabric f).refTime = s.refTime := rfl
@[simp] theorem State.mapFabric_pticks (s : State) (f : Fabric → Fabric) : (s.mapFabric f).pticks = s.pticks := rfl
@[simp] theorem State.mapFabric_free (s : State) (f : Fabric → Fabric) : (s.mapFabric f).free = s.free := rfl

@[simp] theorem State.mapLintel_core (s : State) (f : Lintel → Lintel) : (s.mapLintel f).core = s.core := rfl
@[simp] theorem State.mapLintel_others (s : State) (f : Lintel → Lintel) : (s.mapLintel f).others = s.others := rfl
@[simp] theorem State.mapLintel_agenda (s : State) (f : Lintel → Lintel) : (s.mapLintel f).agenda = s.agenda := rfl
@[simp] theorem State.mapLintel_turn (s : State) (f : Lintel → Lintel) : (s.mapLintel f).turn = s.turn := rfl
@[simp] theorem State.mapLintel_mem (s : State) (f : Lintel → Lintel) : (s.mapLintel f).mem = s.mem := rfl
@[simp] theorem State.mapLintel_sealed (s : State) (f : Lintel → Lintel) : (s.mapLintel f).sealed = s.sealed := rfl
@[simp] theorem State.mapLintel_poisoned (s : State) (f : Lintel → Lintel) : (s.mapLintel f).poisoned = s.poisoned := rfl
@[simp] theorem State.mapLintel_tags (s : State) (f : Lintel → Lintel) : (s.mapLintel f).tags = s.tags := rfl
@[simp] theorem State.mapLintel_regions (s : State) (f : Lintel → Lintel) : (s.mapLintel f).regions = s.regions := rfl
@[simp] theorem State.mapLintel_nextRegion (s : State) (f : Lintel → Lintel) : (s.mapLintel f).nextRegion = s.nextRegion := rfl
@[simp] theorem State.mapLintel_ctxs (s : State) (f : Lintel → Lintel) : (s.mapLintel f).ctxs = s.ctxs := rfl
@[simp] theorem State.mapLintel_holds (s : State) (f : Lintel → Lintel) : (s.mapLintel f).holds = s.holds := rfl
@[simp] theorem State.mapLintel_disp (s : State) (f : Lintel → Lintel) : (s.mapLintel f).disp = s.disp := rfl
@[simp] theorem State.mapLintel_clusters (s : State) (f : Lintel → Lintel) : (s.mapLintel f).clusters = s.clusters := rfl
@[simp] theorem State.mapLintel_fns (s : State) (f : Lintel → Lintel) : (s.mapLintel f).fns = s.fns := rfl
@[simp] theorem State.mapLintel_boot (s : State) (f : Lintel → Lintel) : (s.mapLintel f).boot = s.boot := rfl
@[simp] theorem State.mapLintel_spdm (s : State) (f : Lintel → Lintel) : (s.mapLintel f).spdm = s.spdm := rfl
@[simp] theorem State.mapLintel_fabric (s : State) (f : Lintel → Lintel) : (s.mapLintel f).fabric = s.fabric := rfl
@[simp] theorem State.mapLintel_lintel (s : State) (f : Lintel → Lintel) : (s.mapLintel f).lintel = f s.lintel := rfl
@[simp] theorem State.mapLintel_arb (s : State) (f : Lintel → Lintel) : (s.mapLintel f).arb = s.arb := rfl
@[simp] theorem State.mapLintel_arbLog (s : State) (f : Lintel → Lintel) : (s.mapLintel f).arbLog = s.arbLog := rfl
@[simp] theorem State.mapLintel_fenced (s : State) (f : Lintel → Lintel) : (s.mapLintel f).fenced = s.fenced := rfl
@[simp] theorem State.mapLintel_master (s : State) (f : Lintel → Lintel) : (s.mapLintel f).master = s.master := rfl
@[simp] theorem State.mapLintel_stopped (s : State) (f : Lintel → Lintel) : (s.mapLintel f).stopped = s.stopped := rfl
@[simp] theorem State.mapLintel_power (s : State) (f : Lintel → Lintel) : (s.mapLintel f).power = s.power := rfl
@[simp] theorem State.mapLintel_errs (s : State) (f : Lintel → Lintel) : (s.mapLintel f).errs = s.errs := rfl
@[simp] theorem State.mapLintel_cycle (s : State) (f : Lintel → Lintel) : (s.mapLintel f).cycle = s.cycle := rfl
@[simp] theorem State.mapLintel_refTime (s : State) (f : Lintel → Lintel) : (s.mapLintel f).refTime = s.refTime := rfl
@[simp] theorem State.mapLintel_pticks (s : State) (f : Lintel → Lintel) : (s.mapLintel f).pticks = s.pticks := rfl
@[simp] theorem State.mapLintel_free (s : State) (f : Lintel → Lintel) : (s.mapLintel f).free = s.free := rfl

@[simp] theorem State.modFn_core (s : State) (n : Nat) (g : Fn → Fn) : (s.modFn n g).core = s.core := rfl
@[simp] theorem State.modFn_others (s : State) (n : Nat) (g : Fn → Fn) : (s.modFn n g).others = s.others := rfl
@[simp] theorem State.modFn_agenda (s : State) (n : Nat) (g : Fn → Fn) : (s.modFn n g).agenda = s.agenda := rfl
@[simp] theorem State.modFn_turn (s : State) (n : Nat) (g : Fn → Fn) : (s.modFn n g).turn = s.turn := rfl
@[simp] theorem State.modFn_mem (s : State) (n : Nat) (g : Fn → Fn) : (s.modFn n g).mem = s.mem := rfl
@[simp] theorem State.modFn_sealed (s : State) (n : Nat) (g : Fn → Fn) : (s.modFn n g).sealed = s.sealed := rfl
@[simp] theorem State.modFn_poisoned (s : State) (n : Nat) (g : Fn → Fn) : (s.modFn n g).poisoned = s.poisoned := rfl
@[simp] theorem State.modFn_tags (s : State) (n : Nat) (g : Fn → Fn) : (s.modFn n g).tags = s.tags := rfl
@[simp] theorem State.modFn_regions (s : State) (n : Nat) (g : Fn → Fn) : (s.modFn n g).regions = s.regions := rfl
@[simp] theorem State.modFn_nextRegion (s : State) (n : Nat) (g : Fn → Fn) : (s.modFn n g).nextRegion = s.nextRegion := rfl
@[simp] theorem State.modFn_ctxs (s : State) (n : Nat) (g : Fn → Fn) : (s.modFn n g).ctxs = s.ctxs := rfl
@[simp] theorem State.modFn_holds (s : State) (n : Nat) (g : Fn → Fn) : (s.modFn n g).holds = s.holds := rfl
@[simp] theorem State.modFn_disp (s : State) (n : Nat) (g : Fn → Fn) : (s.modFn n g).disp = s.disp := rfl
@[simp] theorem State.modFn_clusters (s : State) (n : Nat) (g : Fn → Fn) : (s.modFn n g).clusters = s.clusters := rfl
@[simp] theorem State.modFn_fns (s : State) (n : Nat) (g : Fn → Fn) : (s.modFn n g).fns = s.fns.map (fun f => if f.n == n then g f else f) := rfl
@[simp] theorem State.modFn_boot (s : State) (n : Nat) (g : Fn → Fn) : (s.modFn n g).boot = s.boot := rfl
@[simp] theorem State.modFn_spdm (s : State) (n : Nat) (g : Fn → Fn) : (s.modFn n g).spdm = s.spdm := rfl
@[simp] theorem State.modFn_fabric (s : State) (n : Nat) (g : Fn → Fn) : (s.modFn n g).fabric = s.fabric := rfl
@[simp] theorem State.modFn_lintel (s : State) (n : Nat) (g : Fn → Fn) : (s.modFn n g).lintel = s.lintel := rfl
@[simp] theorem State.modFn_arb (s : State) (n : Nat) (g : Fn → Fn) : (s.modFn n g).arb = s.arb := rfl
@[simp] theorem State.modFn_arbLog (s : State) (n : Nat) (g : Fn → Fn) : (s.modFn n g).arbLog = s.arbLog := rfl
@[simp] theorem State.modFn_fenced (s : State) (n : Nat) (g : Fn → Fn) : (s.modFn n g).fenced = s.fenced := rfl
@[simp] theorem State.modFn_master (s : State) (n : Nat) (g : Fn → Fn) : (s.modFn n g).master = s.master := rfl
@[simp] theorem State.modFn_stopped (s : State) (n : Nat) (g : Fn → Fn) : (s.modFn n g).stopped = s.stopped := rfl
@[simp] theorem State.modFn_power (s : State) (n : Nat) (g : Fn → Fn) : (s.modFn n g).power = s.power := rfl
@[simp] theorem State.modFn_errs (s : State) (n : Nat) (g : Fn → Fn) : (s.modFn n g).errs = s.errs := rfl
@[simp] theorem State.modFn_cycle (s : State) (n : Nat) (g : Fn → Fn) : (s.modFn n g).cycle = s.cycle := rfl
@[simp] theorem State.modFn_refTime (s : State) (n : Nat) (g : Fn → Fn) : (s.modFn n g).refTime = s.refTime := rfl
@[simp] theorem State.modFn_pticks (s : State) (n : Nat) (g : Fn → Fn) : (s.modFn n g).pticks = s.pticks := rfl
@[simp] theorem State.modFn_free (s : State) (n : Nat) (g : Fn → Fn) : (s.modFn n g).free = s.free := rfl

@[simp] theorem State.modDie_core (s : State) (d : Nat) (f : DiePower → DiePower) : (s.modDie d f).core = s.core := rfl
@[simp] theorem State.modDie_others (s : State) (d : Nat) (f : DiePower → DiePower) : (s.modDie d f).others = s.others := rfl
@[simp] theorem State.modDie_agenda (s : State) (d : Nat) (f : DiePower → DiePower) : (s.modDie d f).agenda = s.agenda := rfl
@[simp] theorem State.modDie_turn (s : State) (d : Nat) (f : DiePower → DiePower) : (s.modDie d f).turn = s.turn := rfl
@[simp] theorem State.modDie_mem (s : State) (d : Nat) (f : DiePower → DiePower) : (s.modDie d f).mem = s.mem := rfl
@[simp] theorem State.modDie_sealed (s : State) (d : Nat) (f : DiePower → DiePower) : (s.modDie d f).sealed = s.sealed := rfl
@[simp] theorem State.modDie_poisoned (s : State) (d : Nat) (f : DiePower → DiePower) : (s.modDie d f).poisoned = s.poisoned := rfl
@[simp] theorem State.modDie_tags (s : State) (d : Nat) (f : DiePower → DiePower) : (s.modDie d f).tags = s.tags := rfl
@[simp] theorem State.modDie_regions (s : State) (d : Nat) (f : DiePower → DiePower) : (s.modDie d f).regions = s.regions := rfl
@[simp] theorem State.modDie_nextRegion (s : State) (d : Nat) (f : DiePower → DiePower) : (s.modDie d f).nextRegion = s.nextRegion := rfl
@[simp] theorem State.modDie_ctxs (s : State) (d : Nat) (f : DiePower → DiePower) : (s.modDie d f).ctxs = s.ctxs := rfl
@[simp] theorem State.modDie_holds (s : State) (d : Nat) (f : DiePower → DiePower) : (s.modDie d f).holds = s.holds := rfl
@[simp] theorem State.modDie_disp (s : State) (d : Nat) (f : DiePower → DiePower) : (s.modDie d f).disp = s.disp := rfl
@[simp] theorem State.modDie_clusters (s : State) (d : Nat) (f : DiePower → DiePower) : (s.modDie d f).clusters = s.clusters := rfl
@[simp] theorem State.modDie_fns (s : State) (d : Nat) (f : DiePower → DiePower) : (s.modDie d f).fns = s.fns := rfl
@[simp] theorem State.modDie_boot (s : State) (d : Nat) (f : DiePower → DiePower) : (s.modDie d f).boot = s.boot := rfl
@[simp] theorem State.modDie_spdm (s : State) (d : Nat) (f : DiePower → DiePower) : (s.modDie d f).spdm = s.spdm := rfl
@[simp] theorem State.modDie_fabric (s : State) (d : Nat) (f : DiePower → DiePower) : (s.modDie d f).fabric = s.fabric := rfl
@[simp] theorem State.modDie_lintel (s : State) (d : Nat) (f : DiePower → DiePower) : (s.modDie d f).lintel = s.lintel := rfl
@[simp] theorem State.modDie_arb (s : State) (d : Nat) (f : DiePower → DiePower) : (s.modDie d f).arb = s.arb := rfl
@[simp] theorem State.modDie_arbLog (s : State) (d : Nat) (f : DiePower → DiePower) : (s.modDie d f).arbLog = s.arbLog := rfl
@[simp] theorem State.modDie_fenced (s : State) (d : Nat) (f : DiePower → DiePower) : (s.modDie d f).fenced = s.fenced := rfl
@[simp] theorem State.modDie_master (s : State) (d : Nat) (f : DiePower → DiePower) : (s.modDie d f).master = s.master := rfl
@[simp] theorem State.modDie_stopped (s : State) (d : Nat) (f : DiePower → DiePower) : (s.modDie d f).stopped = s.stopped := rfl
@[simp] theorem State.modDie_errs (s : State) (d : Nat) (f : DiePower → DiePower) : (s.modDie d f).errs = s.errs := rfl
@[simp] theorem State.modDie_cycle (s : State) (d : Nat) (f : DiePower → DiePower) : (s.modDie d f).cycle = s.cycle := rfl
@[simp] theorem State.modDie_refTime (s : State) (d : Nat) (f : DiePower → DiePower) : (s.modDie d f).refTime = s.refTime := rfl
@[simp] theorem State.modDie_pticks (s : State) (d : Nat) (f : DiePower → DiePower) : (s.modDie d f).pticks = s.pticks := rfl
@[simp] theorem State.modDie_free (s : State) (d : Nat) (f : DiePower → DiePower) : (s.modDie d f).free = s.free := rfl

@[simp] theorem State.arbitrate_core (s : State) (w a : Nat) : (s.arbitrate w a).core = s.core := rfl
@[simp] theorem State.arbitrate_others (s : State) (w a : Nat) : (s.arbitrate w a).others = s.others := rfl
@[simp] theorem State.arbitrate_agenda (s : State) (w a : Nat) : (s.arbitrate w a).agenda = s.agenda := rfl
@[simp] theorem State.arbitrate_turn (s : State) (w a : Nat) : (s.arbitrate w a).turn = s.turn := rfl
@[simp] theorem State.arbitrate_mem (s : State) (w a : Nat) : (s.arbitrate w a).mem = s.mem := rfl
@[simp] theorem State.arbitrate_sealed (s : State) (w a : Nat) : (s.arbitrate w a).sealed = s.sealed := rfl
@[simp] theorem State.arbitrate_poisoned (s : State) (w a : Nat) : (s.arbitrate w a).poisoned = s.poisoned := rfl
@[simp] theorem State.arbitrate_tags (s : State) (w a : Nat) : (s.arbitrate w a).tags = s.tags := rfl
@[simp] theorem State.arbitrate_regions (s : State) (w a : Nat) : (s.arbitrate w a).regions = s.regions := rfl
@[simp] theorem State.arbitrate_nextRegion (s : State) (w a : Nat) : (s.arbitrate w a).nextRegion = s.nextRegion := rfl
@[simp] theorem State.arbitrate_ctxs (s : State) (w a : Nat) : (s.arbitrate w a).ctxs = s.ctxs := rfl
@[simp] theorem State.arbitrate_holds (s : State) (w a : Nat) : (s.arbitrate w a).holds = s.holds := rfl
@[simp] theorem State.arbitrate_disp (s : State) (w a : Nat) : (s.arbitrate w a).disp = s.disp := rfl
@[simp] theorem State.arbitrate_clusters (s : State) (w a : Nat) : (s.arbitrate w a).clusters = s.clusters := rfl
@[simp] theorem State.arbitrate_fns (s : State) (w a : Nat) : (s.arbitrate w a).fns = s.fns := rfl
@[simp] theorem State.arbitrate_boot (s : State) (w a : Nat) : (s.arbitrate w a).boot = s.boot := rfl
@[simp] theorem State.arbitrate_spdm (s : State) (w a : Nat) : (s.arbitrate w a).spdm = s.spdm := rfl
@[simp] theorem State.arbitrate_fabric (s : State) (w a : Nat) : (s.arbitrate w a).fabric = s.fabric := rfl
@[simp] theorem State.arbitrate_lintel (s : State) (w a : Nat) : (s.arbitrate w a).lintel = s.lintel := rfl
@[simp] theorem State.arbitrate_arb (s : State) (w a : Nat) : (s.arbitrate w a).arb = s.arb + 1 := rfl
@[simp] theorem State.arbitrate_arbLog (s : State) (w a : Nat) : (s.arbitrate w a).arbLog = s.arbLog ++ [⟨s.arb, w, a⟩] := rfl
@[simp] theorem State.arbitrate_fenced (s : State) (w a : Nat) : (s.arbitrate w a).fenced = s.fenced := rfl
@[simp] theorem State.arbitrate_master (s : State) (w a : Nat) : (s.arbitrate w a).master = s.master := rfl
@[simp] theorem State.arbitrate_stopped (s : State) (w a : Nat) : (s.arbitrate w a).stopped = s.stopped := rfl
@[simp] theorem State.arbitrate_power (s : State) (w a : Nat) : (s.arbitrate w a).power = s.power := rfl
@[simp] theorem State.arbitrate_errs (s : State) (w a : Nat) : (s.arbitrate w a).errs = s.errs := rfl
@[simp] theorem State.arbitrate_cycle (s : State) (w a : Nat) : (s.arbitrate w a).cycle = s.cycle := rfl
@[simp] theorem State.arbitrate_refTime (s : State) (w a : Nat) : (s.arbitrate w a).refTime = s.refTime := rfl
@[simp] theorem State.arbitrate_pticks (s : State) (w a : Nat) : (s.arbitrate w a).pticks = s.pticks := rfl
@[simp] theorem State.arbitrate_free (s : State) (w a : Nat) : (s.arbitrate w a).free = s.free := rfl

@[simp] theorem State.modCtx_core (s : State) (a : Nat) (f : Ctx → Ctx) : (s.modCtx a f).core = s.core := rfl
@[simp] theorem State.modCtx_others (s : State) (a : Nat) (f : Ctx → Ctx) : (s.modCtx a f).others = s.others := rfl
@[simp] theorem State.modCtx_agenda (s : State) (a : Nat) (f : Ctx → Ctx) : (s.modCtx a f).agenda = s.agenda := rfl
@[simp] theorem State.modCtx_turn (s : State) (a : Nat) (f : Ctx → Ctx) : (s.modCtx a f).turn = s.turn := rfl
@[simp] theorem State.modCtx_mem (s : State) (a : Nat) (f : Ctx → Ctx) : (s.modCtx a f).mem = s.mem := rfl
@[simp] theorem State.modCtx_sealed (s : State) (a : Nat) (f : Ctx → Ctx) : (s.modCtx a f).sealed = s.sealed := rfl
@[simp] theorem State.modCtx_poisoned (s : State) (a : Nat) (f : Ctx → Ctx) : (s.modCtx a f).poisoned = s.poisoned := rfl
@[simp] theorem State.modCtx_tags (s : State) (a : Nat) (f : Ctx → Ctx) : (s.modCtx a f).tags = s.tags := rfl
@[simp] theorem State.modCtx_regions (s : State) (a : Nat) (f : Ctx → Ctx) : (s.modCtx a f).regions = s.regions := rfl
@[simp] theorem State.modCtx_nextRegion (s : State) (a : Nat) (f : Ctx → Ctx) : (s.modCtx a f).nextRegion = s.nextRegion := rfl
@[simp] theorem State.modCtx_holds (s : State) (a : Nat) (f : Ctx → Ctx) : (s.modCtx a f).holds = s.holds := rfl
@[simp] theorem State.modCtx_disp (s : State) (a : Nat) (f : Ctx → Ctx) : (s.modCtx a f).disp = s.disp := rfl
@[simp] theorem State.modCtx_clusters (s : State) (a : Nat) (f : Ctx → Ctx) : (s.modCtx a f).clusters = s.clusters := rfl
@[simp] theorem State.modCtx_fns (s : State) (a : Nat) (f : Ctx → Ctx) : (s.modCtx a f).fns = s.fns := rfl
@[simp] theorem State.modCtx_boot (s : State) (a : Nat) (f : Ctx → Ctx) : (s.modCtx a f).boot = s.boot := rfl
@[simp] theorem State.modCtx_spdm (s : State) (a : Nat) (f : Ctx → Ctx) : (s.modCtx a f).spdm = s.spdm := rfl
@[simp] theorem State.modCtx_fabric (s : State) (a : Nat) (f : Ctx → Ctx) : (s.modCtx a f).fabric = s.fabric := rfl
@[simp] theorem State.modCtx_lintel (s : State) (a : Nat) (f : Ctx → Ctx) : (s.modCtx a f).lintel = s.lintel := rfl
@[simp] theorem State.modCtx_arb (s : State) (a : Nat) (f : Ctx → Ctx) : (s.modCtx a f).arb = s.arb := rfl
@[simp] theorem State.modCtx_arbLog (s : State) (a : Nat) (f : Ctx → Ctx) : (s.modCtx a f).arbLog = s.arbLog := rfl
@[simp] theorem State.modCtx_fenced (s : State) (a : Nat) (f : Ctx → Ctx) : (s.modCtx a f).fenced = s.fenced := rfl
@[simp] theorem State.modCtx_master (s : State) (a : Nat) (f : Ctx → Ctx) : (s.modCtx a f).master = s.master := rfl
@[simp] theorem State.modCtx_stopped (s : State) (a : Nat) (f : Ctx → Ctx) : (s.modCtx a f).stopped = s.stopped := rfl
@[simp] theorem State.modCtx_power (s : State) (a : Nat) (f : Ctx → Ctx) : (s.modCtx a f).power = s.power := rfl
@[simp] theorem State.modCtx_errs (s : State) (a : Nat) (f : Ctx → Ctx) : (s.modCtx a f).errs = s.errs := rfl
@[simp] theorem State.modCtx_cycle (s : State) (a : Nat) (f : Ctx → Ctx) : (s.modCtx a f).cycle = s.cycle := rfl
@[simp] theorem State.modCtx_refTime (s : State) (a : Nat) (f : Ctx → Ctx) : (s.modCtx a f).refTime = s.refTime := rfl
@[simp] theorem State.modCtx_pticks (s : State) (a : Nat) (f : Ctx → Ctx) : (s.modCtx a f).pticks = s.pticks := rfl
@[simp] theorem State.modCtx_free (s : State) (a : Nat) (f : Ctx → Ctx) : (s.modCtx a f).free = s.free := rfl

@[simp] theorem State.modLaunch_core (s : State) (k : Nat) (f : Launch → Launch) : (s.modLaunch k f).core = s.core := rfl
@[simp] theorem State.modLaunch_others (s : State) (k : Nat) (f : Launch → Launch) : (s.modLaunch k f).others = s.others := rfl
@[simp] theorem State.modLaunch_agenda (s : State) (k : Nat) (f : Launch → Launch) : (s.modLaunch k f).agenda = s.agenda := rfl
@[simp] theorem State.modLaunch_turn (s : State) (k : Nat) (f : Launch → Launch) : (s.modLaunch k f).turn = s.turn := rfl
@[simp] theorem State.modLaunch_mem (s : State) (k : Nat) (f : Launch → Launch) : (s.modLaunch k f).mem = s.mem := rfl
@[simp] theorem State.modLaunch_sealed (s : State) (k : Nat) (f : Launch → Launch) : (s.modLaunch k f).sealed = s.sealed := rfl
@[simp] theorem State.modLaunch_poisoned (s : State) (k : Nat) (f : Launch → Launch) : (s.modLaunch k f).poisoned = s.poisoned := rfl
@[simp] theorem State.modLaunch_tags (s : State) (k : Nat) (f : Launch → Launch) : (s.modLaunch k f).tags = s.tags := rfl
@[simp] theorem State.modLaunch_regions (s : State) (k : Nat) (f : Launch → Launch) : (s.modLaunch k f).regions = s.regions := rfl
@[simp] theorem State.modLaunch_nextRegion (s : State) (k : Nat) (f : Launch → Launch) : (s.modLaunch k f).nextRegion = s.nextRegion := rfl
@[simp] theorem State.modLaunch_ctxs (s : State) (k : Nat) (f : Launch → Launch) : (s.modLaunch k f).ctxs = s.ctxs := rfl
@[simp] theorem State.modLaunch_holds (s : State) (k : Nat) (f : Launch → Launch) : (s.modLaunch k f).holds = s.holds := rfl
@[simp] theorem State.modLaunch_clusters (s : State) (k : Nat) (f : Launch → Launch) : (s.modLaunch k f).clusters = s.clusters := rfl
@[simp] theorem State.modLaunch_fns (s : State) (k : Nat) (f : Launch → Launch) : (s.modLaunch k f).fns = s.fns := rfl
@[simp] theorem State.modLaunch_boot (s : State) (k : Nat) (f : Launch → Launch) : (s.modLaunch k f).boot = s.boot := rfl
@[simp] theorem State.modLaunch_spdm (s : State) (k : Nat) (f : Launch → Launch) : (s.modLaunch k f).spdm = s.spdm := rfl
@[simp] theorem State.modLaunch_fabric (s : State) (k : Nat) (f : Launch → Launch) : (s.modLaunch k f).fabric = s.fabric := rfl
@[simp] theorem State.modLaunch_lintel (s : State) (k : Nat) (f : Launch → Launch) : (s.modLaunch k f).lintel = s.lintel := rfl
@[simp] theorem State.modLaunch_arb (s : State) (k : Nat) (f : Launch → Launch) : (s.modLaunch k f).arb = s.arb := rfl
@[simp] theorem State.modLaunch_arbLog (s : State) (k : Nat) (f : Launch → Launch) : (s.modLaunch k f).arbLog = s.arbLog := rfl
@[simp] theorem State.modLaunch_fenced (s : State) (k : Nat) (f : Launch → Launch) : (s.modLaunch k f).fenced = s.fenced := rfl
@[simp] theorem State.modLaunch_master (s : State) (k : Nat) (f : Launch → Launch) : (s.modLaunch k f).master = s.master := rfl
@[simp] theorem State.modLaunch_stopped (s : State) (k : Nat) (f : Launch → Launch) : (s.modLaunch k f).stopped = s.stopped := rfl
@[simp] theorem State.modLaunch_power (s : State) (k : Nat) (f : Launch → Launch) : (s.modLaunch k f).power = s.power := rfl
@[simp] theorem State.modLaunch_errs (s : State) (k : Nat) (f : Launch → Launch) : (s.modLaunch k f).errs = s.errs := rfl
@[simp] theorem State.modLaunch_cycle (s : State) (k : Nat) (f : Launch → Launch) : (s.modLaunch k f).cycle = s.cycle := rfl
@[simp] theorem State.modLaunch_refTime (s : State) (k : Nat) (f : Launch → Launch) : (s.modLaunch k f).refTime = s.refTime := rfl
@[simp] theorem State.modLaunch_pticks (s : State) (k : Nat) (f : Launch → Launch) : (s.modLaunch k f).pticks = s.pticks := rfl
@[simp] theorem State.modLaunch_free (s : State) (k : Nat) (f : Launch → Launch) : (s.modLaunch k f).free = s.free := rfl

@[simp] theorem State.modGraph_core (s : State) (k : Nat) (f : Graph → Graph) : (s.modGraph k f).core = s.core := rfl
@[simp] theorem State.modGraph_others (s : State) (k : Nat) (f : Graph → Graph) : (s.modGraph k f).others = s.others := rfl
@[simp] theorem State.modGraph_agenda (s : State) (k : Nat) (f : Graph → Graph) : (s.modGraph k f).agenda = s.agenda := rfl
@[simp] theorem State.modGraph_turn (s : State) (k : Nat) (f : Graph → Graph) : (s.modGraph k f).turn = s.turn := rfl
@[simp] theorem State.modGraph_mem (s : State) (k : Nat) (f : Graph → Graph) : (s.modGraph k f).mem = s.mem := rfl
@[simp] theorem State.modGraph_sealed (s : State) (k : Nat) (f : Graph → Graph) : (s.modGraph k f).sealed = s.sealed := rfl
@[simp] theorem State.modGraph_poisoned (s : State) (k : Nat) (f : Graph → Graph) : (s.modGraph k f).poisoned = s.poisoned := rfl
@[simp] theorem State.modGraph_tags (s : State) (k : Nat) (f : Graph → Graph) : (s.modGraph k f).tags = s.tags := rfl
@[simp] theorem State.modGraph_regions (s : State) (k : Nat) (f : Graph → Graph) : (s.modGraph k f).regions = s.regions := rfl
@[simp] theorem State.modGraph_nextRegion (s : State) (k : Nat) (f : Graph → Graph) : (s.modGraph k f).nextRegion = s.nextRegion := rfl
@[simp] theorem State.modGraph_ctxs (s : State) (k : Nat) (f : Graph → Graph) : (s.modGraph k f).ctxs = s.ctxs := rfl
@[simp] theorem State.modGraph_holds (s : State) (k : Nat) (f : Graph → Graph) : (s.modGraph k f).holds = s.holds := rfl
@[simp] theorem State.modGraph_clusters (s : State) (k : Nat) (f : Graph → Graph) : (s.modGraph k f).clusters = s.clusters := rfl
@[simp] theorem State.modGraph_fns (s : State) (k : Nat) (f : Graph → Graph) : (s.modGraph k f).fns = s.fns := rfl
@[simp] theorem State.modGraph_boot (s : State) (k : Nat) (f : Graph → Graph) : (s.modGraph k f).boot = s.boot := rfl
@[simp] theorem State.modGraph_spdm (s : State) (k : Nat) (f : Graph → Graph) : (s.modGraph k f).spdm = s.spdm := rfl
@[simp] theorem State.modGraph_fabric (s : State) (k : Nat) (f : Graph → Graph) : (s.modGraph k f).fabric = s.fabric := rfl
@[simp] theorem State.modGraph_lintel (s : State) (k : Nat) (f : Graph → Graph) : (s.modGraph k f).lintel = s.lintel := rfl
@[simp] theorem State.modGraph_arb (s : State) (k : Nat) (f : Graph → Graph) : (s.modGraph k f).arb = s.arb := rfl
@[simp] theorem State.modGraph_arbLog (s : State) (k : Nat) (f : Graph → Graph) : (s.modGraph k f).arbLog = s.arbLog := rfl
@[simp] theorem State.modGraph_fenced (s : State) (k : Nat) (f : Graph → Graph) : (s.modGraph k f).fenced = s.fenced := rfl
@[simp] theorem State.modGraph_master (s : State) (k : Nat) (f : Graph → Graph) : (s.modGraph k f).master = s.master := rfl
@[simp] theorem State.modGraph_stopped (s : State) (k : Nat) (f : Graph → Graph) : (s.modGraph k f).stopped = s.stopped := rfl
@[simp] theorem State.modGraph_power (s : State) (k : Nat) (f : Graph → Graph) : (s.modGraph k f).power = s.power := rfl
@[simp] theorem State.modGraph_errs (s : State) (k : Nat) (f : Graph → Graph) : (s.modGraph k f).errs = s.errs := rfl
@[simp] theorem State.modGraph_cycle (s : State) (k : Nat) (f : Graph → Graph) : (s.modGraph k f).cycle = s.cycle := rfl
@[simp] theorem State.modGraph_refTime (s : State) (k : Nat) (f : Graph → Graph) : (s.modGraph k f).refTime = s.refTime := rfl
@[simp] theorem State.modGraph_pticks (s : State) (k : Nat) (f : Graph → Graph) : (s.modGraph k f).pticks = s.pticks := rfl
@[simp] theorem State.modGraph_free (s : State) (k : Nat) (f : Graph → Graph) : (s.modGraph k f).free = s.free := rfl

@[simp] theorem State.sendPost_core (s : State) (core f n : Nat) (dest : Family) : (s.sendPost core f n dest).core = s.core := rfl
@[simp] theorem State.sendPost_others (s : State) (core f n : Nat) (dest : Family) : (s.sendPost core f n dest).others = s.others := rfl
@[simp] theorem State.sendPost_agenda (s : State) (core f n : Nat) (dest : Family) : (s.sendPost core f n dest).agenda = s.agenda := rfl
@[simp] theorem State.sendPost_turn (s : State) (core f n : Nat) (dest : Family) : (s.sendPost core f n dest).turn = s.turn := rfl
@[simp] theorem State.sendPost_mem (s : State) (core f n : Nat) (dest : Family) : (s.sendPost core f n dest).mem = s.mem := rfl
@[simp] theorem State.sendPost_sealed (s : State) (core f n : Nat) (dest : Family) : (s.sendPost core f n dest).sealed = s.sealed := rfl
@[simp] theorem State.sendPost_poisoned (s : State) (core f n : Nat) (dest : Family) : (s.sendPost core f n dest).poisoned = s.poisoned := rfl
@[simp] theorem State.sendPost_tags (s : State) (core f n : Nat) (dest : Family) : (s.sendPost core f n dest).tags = s.tags := rfl
@[simp] theorem State.sendPost_regions (s : State) (core f n : Nat) (dest : Family) : (s.sendPost core f n dest).regions = s.regions := rfl
@[simp] theorem State.sendPost_nextRegion (s : State) (core f n : Nat) (dest : Family) : (s.sendPost core f n dest).nextRegion = s.nextRegion := rfl
@[simp] theorem State.sendPost_ctxs (s : State) (core f n : Nat) (dest : Family) : (s.sendPost core f n dest).ctxs = s.ctxs := rfl
@[simp] theorem State.sendPost_holds (s : State) (core f n : Nat) (dest : Family) : (s.sendPost core f n dest).holds = s.holds := rfl
@[simp] theorem State.sendPost_clusters (s : State) (core f n : Nat) (dest : Family) : (s.sendPost core f n dest).clusters = s.clusters := rfl
@[simp] theorem State.sendPost_fns (s : State) (core f n : Nat) (dest : Family) : (s.sendPost core f n dest).fns = s.fns := rfl
@[simp] theorem State.sendPost_boot (s : State) (core f n : Nat) (dest : Family) : (s.sendPost core f n dest).boot = s.boot := rfl
@[simp] theorem State.sendPost_spdm (s : State) (core f n : Nat) (dest : Family) : (s.sendPost core f n dest).spdm = s.spdm := rfl
@[simp] theorem State.sendPost_fabric (s : State) (core f n : Nat) (dest : Family) : (s.sendPost core f n dest).fabric = s.fabric := rfl
@[simp] theorem State.sendPost_lintel (s : State) (core f n : Nat) (dest : Family) : (s.sendPost core f n dest).lintel = s.lintel := rfl
@[simp] theorem State.sendPost_arb (s : State) (core f n : Nat) (dest : Family) : (s.sendPost core f n dest).arb = s.arb := rfl
@[simp] theorem State.sendPost_arbLog (s : State) (core f n : Nat) (dest : Family) : (s.sendPost core f n dest).arbLog = s.arbLog := rfl
@[simp] theorem State.sendPost_fenced (s : State) (core f n : Nat) (dest : Family) : (s.sendPost core f n dest).fenced = s.fenced := rfl
@[simp] theorem State.sendPost_master (s : State) (core f n : Nat) (dest : Family) : (s.sendPost core f n dest).master = s.master := rfl
@[simp] theorem State.sendPost_stopped (s : State) (core f n : Nat) (dest : Family) : (s.sendPost core f n dest).stopped = s.stopped := rfl
@[simp] theorem State.sendPost_power (s : State) (core f n : Nat) (dest : Family) : (s.sendPost core f n dest).power = s.power := rfl
@[simp] theorem State.sendPost_errs (s : State) (core f n : Nat) (dest : Family) : (s.sendPost core f n dest).errs = s.errs := rfl
@[simp] theorem State.sendPost_cycle (s : State) (core f n : Nat) (dest : Family) : (s.sendPost core f n dest).cycle = s.cycle := rfl
@[simp] theorem State.sendPost_refTime (s : State) (core f n : Nat) (dest : Family) : (s.sendPost core f n dest).refTime = s.refTime := rfl
@[simp] theorem State.sendPost_pticks (s : State) (core f n : Nat) (dest : Family) : (s.sendPost core f n dest).pticks = s.pticks := rfl
@[simp] theorem State.sendPost_free (s : State) (core f n : Nat) (dest : Family) : (s.sendPost core f n dest).free = s.free := rfl

@[simp] theorem State.sendShape_core (s : State) (m : ShapeMsg) : (s.sendShape m).core = s.core := rfl
@[simp] theorem State.sendShape_others (s : State) (m : ShapeMsg) : (s.sendShape m).others = s.others := rfl
@[simp] theorem State.sendShape_agenda (s : State) (m : ShapeMsg) : (s.sendShape m).agenda = s.agenda := rfl
@[simp] theorem State.sendShape_turn (s : State) (m : ShapeMsg) : (s.sendShape m).turn = s.turn := rfl
@[simp] theorem State.sendShape_mem (s : State) (m : ShapeMsg) : (s.sendShape m).mem = s.mem := rfl
@[simp] theorem State.sendShape_sealed (s : State) (m : ShapeMsg) : (s.sendShape m).sealed = s.sealed := rfl
@[simp] theorem State.sendShape_poisoned (s : State) (m : ShapeMsg) : (s.sendShape m).poisoned = s.poisoned := rfl
@[simp] theorem State.sendShape_tags (s : State) (m : ShapeMsg) : (s.sendShape m).tags = s.tags := rfl
@[simp] theorem State.sendShape_regions (s : State) (m : ShapeMsg) : (s.sendShape m).regions = s.regions := rfl
@[simp] theorem State.sendShape_nextRegion (s : State) (m : ShapeMsg) : (s.sendShape m).nextRegion = s.nextRegion := rfl
@[simp] theorem State.sendShape_ctxs (s : State) (m : ShapeMsg) : (s.sendShape m).ctxs = s.ctxs := rfl
@[simp] theorem State.sendShape_holds (s : State) (m : ShapeMsg) : (s.sendShape m).holds = s.holds := rfl
@[simp] theorem State.sendShape_clusters (s : State) (m : ShapeMsg) : (s.sendShape m).clusters = s.clusters := rfl
@[simp] theorem State.sendShape_fns (s : State) (m : ShapeMsg) : (s.sendShape m).fns = s.fns := rfl
@[simp] theorem State.sendShape_boot (s : State) (m : ShapeMsg) : (s.sendShape m).boot = s.boot := rfl
@[simp] theorem State.sendShape_spdm (s : State) (m : ShapeMsg) : (s.sendShape m).spdm = s.spdm := rfl
@[simp] theorem State.sendShape_fabric (s : State) (m : ShapeMsg) : (s.sendShape m).fabric = s.fabric := rfl
@[simp] theorem State.sendShape_lintel (s : State) (m : ShapeMsg) : (s.sendShape m).lintel = s.lintel := rfl
@[simp] theorem State.sendShape_arb (s : State) (m : ShapeMsg) : (s.sendShape m).arb = s.arb := rfl
@[simp] theorem State.sendShape_arbLog (s : State) (m : ShapeMsg) : (s.sendShape m).arbLog = s.arbLog := rfl
@[simp] theorem State.sendShape_fenced (s : State) (m : ShapeMsg) : (s.sendShape m).fenced = s.fenced := rfl
@[simp] theorem State.sendShape_master (s : State) (m : ShapeMsg) : (s.sendShape m).master = s.master := rfl
@[simp] theorem State.sendShape_stopped (s : State) (m : ShapeMsg) : (s.sendShape m).stopped = s.stopped := rfl
@[simp] theorem State.sendShape_power (s : State) (m : ShapeMsg) : (s.sendShape m).power = s.power := rfl
@[simp] theorem State.sendShape_errs (s : State) (m : ShapeMsg) : (s.sendShape m).errs = s.errs := rfl
@[simp] theorem State.sendShape_cycle (s : State) (m : ShapeMsg) : (s.sendShape m).cycle = s.cycle := rfl
@[simp] theorem State.sendShape_refTime (s : State) (m : ShapeMsg) : (s.sendShape m).refTime = s.refTime := rfl
@[simp] theorem State.sendShape_pticks (s : State) (m : ShapeMsg) : (s.sendShape m).pticks = s.pticks := rfl
@[simp] theorem State.sendShape_free (s : State) (m : ShapeMsg) : (s.sendShape m).free = s.free := rfl

@[simp] theorem State.setPhasers_core (s : State) (p : PhaserSet) : (s.setPhasers p).core = s.core := rfl
@[simp] theorem State.setPhasers_others (s : State) (p : PhaserSet) : (s.setPhasers p).others = s.others := rfl
@[simp] theorem State.setPhasers_agenda (s : State) (p : PhaserSet) : (s.setPhasers p).agenda = s.agenda := rfl
@[simp] theorem State.setPhasers_turn (s : State) (p : PhaserSet) : (s.setPhasers p).turn = s.turn := rfl
@[simp] theorem State.setPhasers_mem (s : State) (p : PhaserSet) : (s.setPhasers p).mem = s.mem := rfl
@[simp] theorem State.setPhasers_sealed (s : State) (p : PhaserSet) : (s.setPhasers p).sealed = s.sealed := rfl
@[simp] theorem State.setPhasers_poisoned (s : State) (p : PhaserSet) : (s.setPhasers p).poisoned = s.poisoned := rfl
@[simp] theorem State.setPhasers_tags (s : State) (p : PhaserSet) : (s.setPhasers p).tags = s.tags := rfl
@[simp] theorem State.setPhasers_regions (s : State) (p : PhaserSet) : (s.setPhasers p).regions = s.regions := rfl
@[simp] theorem State.setPhasers_nextRegion (s : State) (p : PhaserSet) : (s.setPhasers p).nextRegion = s.nextRegion := rfl
@[simp] theorem State.setPhasers_ctxs (s : State) (p : PhaserSet) : (s.setPhasers p).ctxs = s.ctxs := rfl
@[simp] theorem State.setPhasers_holds (s : State) (p : PhaserSet) : (s.setPhasers p).holds = s.holds := rfl
@[simp] theorem State.setPhasers_clusters (s : State) (p : PhaserSet) : (s.setPhasers p).clusters = s.clusters := rfl
@[simp] theorem State.setPhasers_fns (s : State) (p : PhaserSet) : (s.setPhasers p).fns = s.fns := rfl
@[simp] theorem State.setPhasers_boot (s : State) (p : PhaserSet) : (s.setPhasers p).boot = s.boot := rfl
@[simp] theorem State.setPhasers_spdm (s : State) (p : PhaserSet) : (s.setPhasers p).spdm = s.spdm := rfl
@[simp] theorem State.setPhasers_fabric (s : State) (p : PhaserSet) : (s.setPhasers p).fabric = s.fabric := rfl
@[simp] theorem State.setPhasers_lintel (s : State) (p : PhaserSet) : (s.setPhasers p).lintel = s.lintel := rfl
@[simp] theorem State.setPhasers_arb (s : State) (p : PhaserSet) : (s.setPhasers p).arb = s.arb := rfl
@[simp] theorem State.setPhasers_arbLog (s : State) (p : PhaserSet) : (s.setPhasers p).arbLog = s.arbLog := rfl
@[simp] theorem State.setPhasers_fenced (s : State) (p : PhaserSet) : (s.setPhasers p).fenced = s.fenced := rfl
@[simp] theorem State.setPhasers_master (s : State) (p : PhaserSet) : (s.setPhasers p).master = s.master := rfl
@[simp] theorem State.setPhasers_stopped (s : State) (p : PhaserSet) : (s.setPhasers p).stopped = s.stopped := rfl
@[simp] theorem State.setPhasers_power (s : State) (p : PhaserSet) : (s.setPhasers p).power = s.power := rfl
@[simp] theorem State.setPhasers_errs (s : State) (p : PhaserSet) : (s.setPhasers p).errs = s.errs := rfl
@[simp] theorem State.setPhasers_cycle (s : State) (p : PhaserSet) : (s.setPhasers p).cycle = s.cycle := rfl
@[simp] theorem State.setPhasers_refTime (s : State) (p : PhaserSet) : (s.setPhasers p).refTime = s.refTime := rfl
@[simp] theorem State.setPhasers_pticks (s : State) (p : PhaserSet) : (s.setPhasers p).pticks = s.pticks := rfl
@[simp] theorem State.setPhasers_free (s : State) (p : PhaserSet) : (s.setPhasers p).free = s.free := rfl

@[simp] theorem State.writeMem_core (s : State) (pa : Nat) (bs : List Byte) : (s.writeMem pa bs).core = s.core := rfl
@[simp] theorem State.writeMem_others (s : State) (pa : Nat) (bs : List Byte) : (s.writeMem pa bs).others = s.others := rfl
@[simp] theorem State.writeMem_agenda (s : State) (pa : Nat) (bs : List Byte) : (s.writeMem pa bs).agenda = s.agenda := rfl
@[simp] theorem State.writeMem_turn (s : State) (pa : Nat) (bs : List Byte) : (s.writeMem pa bs).turn = s.turn := rfl
@[simp] theorem State.writeMem_mem (s : State) (pa : Nat) (bs : List Byte) : (s.writeMem pa bs).mem = s.mem.write pa bs := rfl
@[simp] theorem State.writeMem_sealed (s : State) (pa : Nat) (bs : List Byte) : (s.writeMem pa bs).sealed = s.sealed := rfl
@[simp] theorem State.writeMem_tags (s : State) (pa : Nat) (bs : List Byte) : (s.writeMem pa bs).tags = s.tags := rfl
@[simp] theorem State.writeMem_regions (s : State) (pa : Nat) (bs : List Byte) : (s.writeMem pa bs).regions = s.regions := rfl
@[simp] theorem State.writeMem_nextRegion (s : State) (pa : Nat) (bs : List Byte) : (s.writeMem pa bs).nextRegion = s.nextRegion := rfl
@[simp] theorem State.writeMem_ctxs (s : State) (pa : Nat) (bs : List Byte) : (s.writeMem pa bs).ctxs = s.ctxs := rfl
@[simp] theorem State.writeMem_holds (s : State) (pa : Nat) (bs : List Byte) : (s.writeMem pa bs).holds = s.holds := rfl
@[simp] theorem State.writeMem_disp (s : State) (pa : Nat) (bs : List Byte) : (s.writeMem pa bs).disp = s.disp := rfl
@[simp] theorem State.writeMem_clusters (s : State) (pa : Nat) (bs : List Byte) : (s.writeMem pa bs).clusters = s.clusters := rfl
@[simp] theorem State.writeMem_fns (s : State) (pa : Nat) (bs : List Byte) : (s.writeMem pa bs).fns = s.fns := rfl
@[simp] theorem State.writeMem_boot (s : State) (pa : Nat) (bs : List Byte) : (s.writeMem pa bs).boot = s.boot := rfl
@[simp] theorem State.writeMem_spdm (s : State) (pa : Nat) (bs : List Byte) : (s.writeMem pa bs).spdm = s.spdm := rfl
@[simp] theorem State.writeMem_fabric (s : State) (pa : Nat) (bs : List Byte) : (s.writeMem pa bs).fabric = s.fabric := rfl
@[simp] theorem State.writeMem_lintel (s : State) (pa : Nat) (bs : List Byte) : (s.writeMem pa bs).lintel = s.lintel := rfl
@[simp] theorem State.writeMem_arb (s : State) (pa : Nat) (bs : List Byte) : (s.writeMem pa bs).arb = s.arb := rfl
@[simp] theorem State.writeMem_arbLog (s : State) (pa : Nat) (bs : List Byte) : (s.writeMem pa bs).arbLog = s.arbLog := rfl
@[simp] theorem State.writeMem_fenced (s : State) (pa : Nat) (bs : List Byte) : (s.writeMem pa bs).fenced = s.fenced := rfl
@[simp] theorem State.writeMem_master (s : State) (pa : Nat) (bs : List Byte) : (s.writeMem pa bs).master = s.master := rfl
@[simp] theorem State.writeMem_stopped (s : State) (pa : Nat) (bs : List Byte) : (s.writeMem pa bs).stopped = s.stopped := rfl
@[simp] theorem State.writeMem_power (s : State) (pa : Nat) (bs : List Byte) : (s.writeMem pa bs).power = s.power := rfl
@[simp] theorem State.writeMem_errs (s : State) (pa : Nat) (bs : List Byte) : (s.writeMem pa bs).errs = s.errs := rfl
@[simp] theorem State.writeMem_cycle (s : State) (pa : Nat) (bs : List Byte) : (s.writeMem pa bs).cycle = s.cycle := rfl
@[simp] theorem State.writeMem_refTime (s : State) (pa : Nat) (bs : List Byte) : (s.writeMem pa bs).refTime = s.refTime := rfl
@[simp] theorem State.writeMem_pticks (s : State) (pa : Nat) (bs : List Byte) : (s.writeMem pa bs).pticks = s.pticks := rfl
@[simp] theorem State.writeMem_free (s : State) (pa : Nat) (bs : List Byte) : (s.writeMem pa bs).free = s.free := rfl

@[simp] theorem State.stallCycle_others (s : State) : (s.stallCycle).others = s.others := rfl
@[simp] theorem State.stallCycle_agenda (s : State) : (s.stallCycle).agenda = s.agenda := rfl
@[simp] theorem State.stallCycle_turn (s : State) : (s.stallCycle).turn = s.turn := rfl
@[simp] theorem State.stallCycle_mem (s : State) : (s.stallCycle).mem = s.mem := rfl
@[simp] theorem State.stallCycle_sealed (s : State) : (s.stallCycle).sealed = s.sealed := rfl
@[simp] theorem State.stallCycle_poisoned (s : State) : (s.stallCycle).poisoned = s.poisoned := rfl
@[simp] theorem State.stallCycle_tags (s : State) : (s.stallCycle).tags = s.tags := rfl
@[simp] theorem State.stallCycle_regions (s : State) : (s.stallCycle).regions = s.regions := rfl
@[simp] theorem State.stallCycle_nextRegion (s : State) : (s.stallCycle).nextRegion = s.nextRegion := rfl
@[simp] theorem State.stallCycle_ctxs (s : State) : (s.stallCycle).ctxs = s.ctxs := rfl
@[simp] theorem State.stallCycle_holds (s : State) : (s.stallCycle).holds = s.holds := rfl
@[simp] theorem State.stallCycle_disp (s : State) : (s.stallCycle).disp = s.disp := rfl
@[simp] theorem State.stallCycle_clusters (s : State) : (s.stallCycle).clusters = s.clusters := rfl
@[simp] theorem State.stallCycle_fns (s : State) : (s.stallCycle).fns = s.fns := rfl
@[simp] theorem State.stallCycle_boot (s : State) : (s.stallCycle).boot = s.boot := rfl
@[simp] theorem State.stallCycle_spdm (s : State) : (s.stallCycle).spdm = s.spdm := rfl
@[simp] theorem State.stallCycle_fabric (s : State) : (s.stallCycle).fabric = s.fabric := rfl
@[simp] theorem State.stallCycle_lintel (s : State) : (s.stallCycle).lintel = s.lintel := rfl
@[simp] theorem State.stallCycle_arb (s : State) : (s.stallCycle).arb = s.arb := rfl
@[simp] theorem State.stallCycle_arbLog (s : State) : (s.stallCycle).arbLog = s.arbLog := rfl
@[simp] theorem State.stallCycle_fenced (s : State) : (s.stallCycle).fenced = s.fenced := rfl
@[simp] theorem State.stallCycle_master (s : State) : (s.stallCycle).master = s.master := rfl
@[simp] theorem State.stallCycle_stopped (s : State) : (s.stallCycle).stopped = s.stopped := rfl
@[simp] theorem State.stallCycle_power (s : State) : (s.stallCycle).power = s.power := rfl
@[simp] theorem State.stallCycle_errs (s : State) : (s.stallCycle).errs = s.errs := rfl
@[simp] theorem State.stallCycle_cycle (s : State) : (s.stallCycle).cycle = s.cycle := rfl
@[simp] theorem State.stallCycle_refTime (s : State) : (s.stallCycle).refTime = s.refTime := rfl
@[simp] theorem State.stallCycle_pticks (s : State) : (s.stallCycle).pticks = s.pticks := rfl
@[simp] theorem State.stallCycle_free (s : State) : (s.stallCycle).free = s.free := rfl

@[simp] theorem State.settled_others (s : State) : (s.settled).others = s.others := rfl
@[simp] theorem State.settled_agenda (s : State) : (s.settled).agenda = s.agenda := rfl
@[simp] theorem State.settled_turn (s : State) : (s.settled).turn = s.turn := rfl
@[simp] theorem State.settled_mem (s : State) : (s.settled).mem = s.mem := rfl
@[simp] theorem State.settled_sealed (s : State) : (s.settled).sealed = s.sealed := rfl
@[simp] theorem State.settled_poisoned (s : State) : (s.settled).poisoned = s.poisoned := rfl
@[simp] theorem State.settled_tags (s : State) : (s.settled).tags = s.tags := rfl
@[simp] theorem State.settled_regions (s : State) : (s.settled).regions = s.regions := rfl
@[simp] theorem State.settled_nextRegion (s : State) : (s.settled).nextRegion = s.nextRegion := rfl
@[simp] theorem State.settled_ctxs (s : State) : (s.settled).ctxs = s.ctxs := rfl
@[simp] theorem State.settled_holds (s : State) : (s.settled).holds = s.holds := rfl
@[simp] theorem State.settled_disp (s : State) : (s.settled).disp = s.disp := rfl
@[simp] theorem State.settled_clusters (s : State) : (s.settled).clusters = s.clusters := rfl
@[simp] theorem State.settled_fns (s : State) : (s.settled).fns = s.fns := rfl
@[simp] theorem State.settled_boot (s : State) : (s.settled).boot = s.boot := rfl
@[simp] theorem State.settled_spdm (s : State) : (s.settled).spdm = s.spdm := rfl
@[simp] theorem State.settled_fabric (s : State) : (s.settled).fabric = s.fabric := rfl
@[simp] theorem State.settled_lintel (s : State) : (s.settled).lintel = s.lintel := rfl
@[simp] theorem State.settled_arb (s : State) : (s.settled).arb = s.arb := rfl
@[simp] theorem State.settled_arbLog (s : State) : (s.settled).arbLog = s.arbLog := rfl
@[simp] theorem State.settled_fenced (s : State) : (s.settled).fenced = s.fenced := rfl
@[simp] theorem State.settled_master (s : State) : (s.settled).master = s.master := rfl
@[simp] theorem State.settled_stopped (s : State) : (s.settled).stopped = s.stopped := rfl
@[simp] theorem State.settled_power (s : State) : (s.settled).power = s.power := rfl
@[simp] theorem State.settled_errs (s : State) : (s.settled).errs = s.errs := rfl
@[simp] theorem State.settled_cycle (s : State) : (s.settled).cycle = s.cycle := rfl
@[simp] theorem State.settled_refTime (s : State) : (s.settled).refTime = s.refTime := rfl
@[simp] theorem State.settled_pticks (s : State) : (s.settled).pticks = s.pticks := rfl
@[simp] theorem State.settled_free (s : State) : (s.settled).free = s.free := rfl

@[simp] theorem State.passing_others (s : State) : (s.passing).others = s.others := rfl
@[simp] theorem State.passing_agenda (s : State) : (s.passing).agenda = s.agenda := rfl
@[simp] theorem State.passing_turn (s : State) : (s.passing).turn = s.turn := rfl
@[simp] theorem State.passing_mem (s : State) : (s.passing).mem = s.mem := rfl
@[simp] theorem State.passing_sealed (s : State) : (s.passing).sealed = s.sealed := rfl
@[simp] theorem State.passing_poisoned (s : State) : (s.passing).poisoned = s.poisoned := rfl
@[simp] theorem State.passing_tags (s : State) : (s.passing).tags = s.tags := rfl
@[simp] theorem State.passing_regions (s : State) : (s.passing).regions = s.regions := rfl
@[simp] theorem State.passing_nextRegion (s : State) : (s.passing).nextRegion = s.nextRegion := rfl
@[simp] theorem State.passing_ctxs (s : State) : (s.passing).ctxs = s.ctxs := rfl
@[simp] theorem State.passing_holds (s : State) : (s.passing).holds = s.holds := rfl
@[simp] theorem State.passing_disp (s : State) : (s.passing).disp = s.disp := rfl
@[simp] theorem State.passing_clusters (s : State) : (s.passing).clusters = s.clusters := rfl
@[simp] theorem State.passing_fns (s : State) : (s.passing).fns = s.fns := rfl
@[simp] theorem State.passing_boot (s : State) : (s.passing).boot = s.boot := rfl
@[simp] theorem State.passing_spdm (s : State) : (s.passing).spdm = s.spdm := rfl
@[simp] theorem State.passing_fabric (s : State) : (s.passing).fabric = s.fabric := rfl
@[simp] theorem State.passing_lintel (s : State) : (s.passing).lintel = s.lintel := rfl
@[simp] theorem State.passing_arb (s : State) : (s.passing).arb = s.arb := rfl
@[simp] theorem State.passing_arbLog (s : State) : (s.passing).arbLog = s.arbLog := rfl
@[simp] theorem State.passing_fenced (s : State) : (s.passing).fenced = s.fenced := rfl
@[simp] theorem State.passing_master (s : State) : (s.passing).master = s.master := rfl
@[simp] theorem State.passing_stopped (s : State) : (s.passing).stopped = s.stopped := rfl
@[simp] theorem State.passing_power (s : State) : (s.passing).power = s.power := rfl
@[simp] theorem State.passing_errs (s : State) : (s.passing).errs = s.errs := rfl
@[simp] theorem State.passing_cycle (s : State) : (s.passing).cycle = s.cycle := rfl
@[simp] theorem State.passing_refTime (s : State) : (s.passing).refTime = s.refTime := rfl
@[simp] theorem State.passing_pticks (s : State) : (s.passing).pticks = s.pticks := rfl
@[simp] theorem State.passing_free (s : State) : (s.passing).free = s.free := rfl

@[simp] theorem State.atSlot_others (s : State) (k : Nat) : (s.atSlot k).others = s.others := rfl
@[simp] theorem State.atSlot_agenda (s : State) (k : Nat) : (s.atSlot k).agenda = s.agenda := rfl
@[simp] theorem State.atSlot_turn (s : State) (k : Nat) : (s.atSlot k).turn = s.turn := rfl
@[simp] theorem State.atSlot_mem (s : State) (k : Nat) : (s.atSlot k).mem = s.mem := rfl
@[simp] theorem State.atSlot_sealed (s : State) (k : Nat) : (s.atSlot k).sealed = s.sealed := rfl
@[simp] theorem State.atSlot_poisoned (s : State) (k : Nat) : (s.atSlot k).poisoned = s.poisoned := rfl
@[simp] theorem State.atSlot_tags (s : State) (k : Nat) : (s.atSlot k).tags = s.tags := rfl
@[simp] theorem State.atSlot_regions (s : State) (k : Nat) : (s.atSlot k).regions = s.regions := rfl
@[simp] theorem State.atSlot_nextRegion (s : State) (k : Nat) : (s.atSlot k).nextRegion = s.nextRegion := rfl
@[simp] theorem State.atSlot_ctxs (s : State) (k : Nat) : (s.atSlot k).ctxs = s.ctxs := rfl
@[simp] theorem State.atSlot_holds (s : State) (k : Nat) : (s.atSlot k).holds = s.holds := rfl
@[simp] theorem State.atSlot_disp (s : State) (k : Nat) : (s.atSlot k).disp = s.disp := rfl
@[simp] theorem State.atSlot_clusters (s : State) (k : Nat) : (s.atSlot k).clusters = s.clusters := rfl
@[simp] theorem State.atSlot_fns (s : State) (k : Nat) : (s.atSlot k).fns = s.fns := rfl
@[simp] theorem State.atSlot_boot (s : State) (k : Nat) : (s.atSlot k).boot = s.boot := rfl
@[simp] theorem State.atSlot_spdm (s : State) (k : Nat) : (s.atSlot k).spdm = s.spdm := rfl
@[simp] theorem State.atSlot_fabric (s : State) (k : Nat) : (s.atSlot k).fabric = s.fabric := rfl
@[simp] theorem State.atSlot_lintel (s : State) (k : Nat) : (s.atSlot k).lintel = s.lintel := rfl
@[simp] theorem State.atSlot_arb (s : State) (k : Nat) : (s.atSlot k).arb = s.arb := rfl
@[simp] theorem State.atSlot_arbLog (s : State) (k : Nat) : (s.atSlot k).arbLog = s.arbLog := rfl
@[simp] theorem State.atSlot_fenced (s : State) (k : Nat) : (s.atSlot k).fenced = s.fenced := rfl
@[simp] theorem State.atSlot_master (s : State) (k : Nat) : (s.atSlot k).master = s.master := rfl
@[simp] theorem State.atSlot_stopped (s : State) (k : Nat) : (s.atSlot k).stopped = s.stopped := rfl
@[simp] theorem State.atSlot_power (s : State) (k : Nat) : (s.atSlot k).power = s.power := rfl
@[simp] theorem State.atSlot_errs (s : State) (k : Nat) : (s.atSlot k).errs = s.errs := rfl
@[simp] theorem State.atSlot_cycle (s : State) (k : Nat) : (s.atSlot k).cycle = s.cycle := rfl
@[simp] theorem State.atSlot_refTime (s : State) (k : Nat) : (s.atSlot k).refTime = s.refTime := rfl
@[simp] theorem State.atSlot_pticks (s : State) (k : Nat) : (s.atSlot k).pticks = s.pticks := rfl
@[simp] theorem State.atSlot_free (s : State) (k : Nat) : (s.atSlot k).free = s.free := rfl

@[simp] theorem Core.push_id (c : Core) (l : Landing) (lat : Nat) : (c.push l lat).id = c.id := rfl
@[simp] theorem Core.push_r (c : Core) (l : Landing) (lat : Nat) : (c.push l lat).r = c.r := rfl
@[simp] theorem Core.push_f (c : Core) (l : Landing) (lat : Nat) : (c.push l lat).f = c.f := rfl
@[simp] theorem Core.push_acc (c : Core) (l : Landing) (lat : Nat) : (c.push l lat).acc = c.acc := rfl
@[simp] theorem Core.push_sys (c : Core) (l : Landing) (lat : Nat) : (c.push l lat).sys = c.sys := rfl
@[simp] theorem Core.push_ctl (c : Core) (l : Landing) (lat : Nat) : (c.push l lat).ctl = c.ctl := rfl
@[simp] theorem Core.push_pipe (c : Core) (l : Landing) (lat : Nat) : (c.push l lat).pipe = c.pipe.push c.ctl.slot l lat := rfl
@[simp] theorem Core.push_rg (c : Core) (l : Landing) (lat : Nat) : (c.push l lat).rg = c.rg := rfl
@[simp] theorem Core.push_mx (c : Core) (l : Landing) (lat : Nat) : (c.push l lat).mx = c.mx := rfl
@[simp] theorem Core.push_seqr (c : Core) (l : Landing) (lat : Nat) : (c.push l lat).seqr = c.seqr := rfl
@[simp] theorem Core.push_eng (c : Core) (l : Landing) (lat : Nat) : (c.push l lat).eng = c.eng := rfl
@[simp] theorem Core.push_mem (c : Core) (l : Landing) (lat : Nat) : (c.push l lat).mem = c.mem := rfl
@[simp] theorem Core.push_sig (c : Core) (l : Landing) (lat : Nat) : (c.push l lat).sig = c.sig := rfl
@[simp] theorem Core.push_unit (c : Core) (l : Landing) (lat : Nat) : (c.push l lat).unit = c.unit := rfl
@[simp] theorem Core.push_pw (c : Core) (l : Landing) (lat : Nat) : (c.push l lat).pw = c.pw := rfl
@[simp] theorem Core.push_lastPick (c : Core) (l : Landing) (lat : Nat) : (c.push l lat).lastPick = c.lastPick := rfl

@[simp] theorem Core.transfer_id (c : Core) (t : Word) : (c.transfer t).id = c.id := rfl
@[simp] theorem Core.transfer_r (c : Core) (t : Word) : (c.transfer t).r = c.r := rfl
@[simp] theorem Core.transfer_f (c : Core) (t : Word) : (c.transfer t).f = c.f := rfl
@[simp] theorem Core.transfer_acc (c : Core) (t : Word) : (c.transfer t).acc = c.acc := rfl
@[simp] theorem Core.transfer_sys (c : Core) (t : Word) : (c.transfer t).sys = c.sys := rfl
@[simp] theorem Core.transfer_ctl (c : Core) (t : Word) : (c.transfer t).ctl = { c.ctl with dly := 3, cont := t } := rfl
@[simp] theorem Core.transfer_pipe (c : Core) (t : Word) : (c.transfer t).pipe = c.pipe := rfl
@[simp] theorem Core.transfer_rg (c : Core) (t : Word) : (c.transfer t).rg = c.rg := rfl
@[simp] theorem Core.transfer_mx (c : Core) (t : Word) : (c.transfer t).mx = c.mx := rfl
@[simp] theorem Core.transfer_seqr (c : Core) (t : Word) : (c.transfer t).seqr = c.seqr := rfl
@[simp] theorem Core.transfer_eng (c : Core) (t : Word) : (c.transfer t).eng = c.eng := rfl
@[simp] theorem Core.transfer_mem (c : Core) (t : Word) : (c.transfer t).mem = c.mem := rfl
@[simp] theorem Core.transfer_sig (c : Core) (t : Word) : (c.transfer t).sig = c.sig := rfl
@[simp] theorem Core.transfer_unit (c : Core) (t : Word) : (c.transfer t).unit = c.unit := rfl
@[simp] theorem Core.transfer_pw (c : Core) (t : Word) : (c.transfer t).pw = c.pw := rfl
@[simp] theorem Core.transfer_lastPick (c : Core) (t : Word) : (c.transfer t).lastPick = c.lastPick := rfl

@[simp] theorem Core.later_id (c : Core) (p : Pending) : (c.later p).id = c.id := rfl
@[simp] theorem Core.later_r (c : Core) (p : Pending) : (c.later p).r = c.r := rfl
@[simp] theorem Core.later_f (c : Core) (p : Pending) : (c.later p).f = c.f := rfl
@[simp] theorem Core.later_acc (c : Core) (p : Pending) : (c.later p).acc = c.acc := rfl
@[simp] theorem Core.later_sys (c : Core) (p : Pending) : (c.later p).sys = c.sys := rfl
@[simp] theorem Core.later_pipe (c : Core) (p : Pending) : (c.later p).pipe = c.pipe := rfl
@[simp] theorem Core.later_rg (c : Core) (p : Pending) : (c.later p).rg = c.rg := rfl
@[simp] theorem Core.later_mx (c : Core) (p : Pending) : (c.later p).mx = c.mx := rfl
@[simp] theorem Core.later_seqr (c : Core) (p : Pending) : (c.later p).seqr = c.seqr := rfl
@[simp] theorem Core.later_eng (c : Core) (p : Pending) : (c.later p).eng = c.eng := rfl
@[simp] theorem Core.later_mem (c : Core) (p : Pending) : (c.later p).mem = c.mem := rfl
@[simp] theorem Core.later_sig (c : Core) (p : Pending) : (c.later p).sig = c.sig := rfl
@[simp] theorem Core.later_unit (c : Core) (p : Pending) : (c.later p).unit = c.unit := rfl
@[simp] theorem Core.later_pw (c : Core) (p : Pending) : (c.later p).pw = c.pw := rfl
@[simp] theorem Core.later_lastPick (c : Core) (p : Pending) : (c.later p).lastPick = c.lastPick := rfl

@[simp] theorem Core.enqueueTile_id (c : Core) (op : TileOp) : (c.enqueueTile op).id = c.id := rfl
@[simp] theorem Core.enqueueTile_r (c : Core) (op : TileOp) : (c.enqueueTile op).r = c.r := rfl
@[simp] theorem Core.enqueueTile_f (c : Core) (op : TileOp) : (c.enqueueTile op).f = c.f := rfl
@[simp] theorem Core.enqueueTile_acc (c : Core) (op : TileOp) : (c.enqueueTile op).acc = c.acc := rfl
@[simp] theorem Core.enqueueTile_sys (c : Core) (op : TileOp) : (c.enqueueTile op).sys = c.sys := rfl
@[simp] theorem Core.enqueueTile_ctl (c : Core) (op : TileOp) : (c.enqueueTile op).ctl = c.ctl := rfl
@[simp] theorem Core.enqueueTile_pipe (c : Core) (op : TileOp) : (c.enqueueTile op).pipe = c.pipe := rfl
@[simp] theorem Core.enqueueTile_rg (c : Core) (op : TileOp) : (c.enqueueTile op).rg = c.rg := rfl
@[simp] theorem Core.enqueueTile_seqr (c : Core) (op : TileOp) : (c.enqueueTile op).seqr = c.seqr := rfl
@[simp] theorem Core.enqueueTile_eng (c : Core) (op : TileOp) : (c.enqueueTile op).eng = c.eng := rfl
@[simp] theorem Core.enqueueTile_mem (c : Core) (op : TileOp) : (c.enqueueTile op).mem = c.mem := rfl
@[simp] theorem Core.enqueueTile_sig (c : Core) (op : TileOp) : (c.enqueueTile op).sig = c.sig := rfl
@[simp] theorem Core.enqueueTile_unit (c : Core) (op : TileOp) : (c.enqueueTile op).unit = c.unit := rfl
@[simp] theorem Core.enqueueTile_pw (c : Core) (op : TileOp) : (c.enqueueTile op).pw = c.pw := rfl
@[simp] theorem Core.enqueueTile_lastPick (c : Core) (op : TileOp) : (c.enqueueTile op).lastPick = c.lastPick := rfl

@[simp] theorem Core.popTile_id (c : Core) : (c.popTile).id = c.id := rfl
@[simp] theorem Core.popTile_r (c : Core) : (c.popTile).r = c.r := rfl
@[simp] theorem Core.popTile_f (c : Core) : (c.popTile).f = c.f := rfl
@[simp] theorem Core.popTile_acc (c : Core) : (c.popTile).acc = c.acc := rfl
@[simp] theorem Core.popTile_sys (c : Core) : (c.popTile).sys = c.sys := rfl
@[simp] theorem Core.popTile_ctl (c : Core) : (c.popTile).ctl = c.ctl := rfl
@[simp] theorem Core.popTile_pipe (c : Core) : (c.popTile).pipe = c.pipe := rfl
@[simp] theorem Core.popTile_rg (c : Core) : (c.popTile).rg = c.rg := rfl
@[simp] theorem Core.popTile_seqr (c : Core) : (c.popTile).seqr = c.seqr := rfl
@[simp] theorem Core.popTile_eng (c : Core) : (c.popTile).eng = c.eng := rfl
@[simp] theorem Core.popTile_mem (c : Core) : (c.popTile).mem = c.mem := rfl
@[simp] theorem Core.popTile_sig (c : Core) : (c.popTile).sig = c.sig := rfl
@[simp] theorem Core.popTile_unit (c : Core) : (c.popTile).unit = c.unit := rfl
@[simp] theorem Core.popTile_pw (c : Core) : (c.popTile).pw = c.pw := rfl
@[simp] theorem Core.popTile_lastPick (c : Core) : (c.popTile).lastPick = c.lastPick := rfl

@[simp] theorem Core.gateAdd_id (c : Core) (op : GateOp) (e : Option FaultRec) : (c.gateAdd op e).id = c.id := rfl
@[simp] theorem Core.gateAdd_r (c : Core) (op : GateOp) (e : Option FaultRec) : (c.gateAdd op e).r = c.r := rfl
@[simp] theorem Core.gateAdd_f (c : Core) (op : GateOp) (e : Option FaultRec) : (c.gateAdd op e).f = c.f := rfl
@[simp] theorem Core.gateAdd_acc (c : Core) (op : GateOp) (e : Option FaultRec) : (c.gateAdd op e).acc = c.acc := rfl
@[simp] theorem Core.gateAdd_sys (c : Core) (op : GateOp) (e : Option FaultRec) : (c.gateAdd op e).sys = c.sys := rfl
@[simp] theorem Core.gateAdd_ctl (c : Core) (op : GateOp) (e : Option FaultRec) : (c.gateAdd op e).ctl = c.ctl := rfl
@[simp] theorem Core.gateAdd_pipe (c : Core) (op : GateOp) (e : Option FaultRec) : (c.gateAdd op e).pipe = c.pipe := rfl
@[simp] theorem Core.gateAdd_mx (c : Core) (op : GateOp) (e : Option FaultRec) : (c.gateAdd op e).mx = c.mx := rfl
@[simp] theorem Core.gateAdd_seqr (c : Core) (op : GateOp) (e : Option FaultRec) : (c.gateAdd op e).seqr = c.seqr := rfl
@[simp] theorem Core.gateAdd_eng (c : Core) (op : GateOp) (e : Option FaultRec) : (c.gateAdd op e).eng = c.eng := rfl
@[simp] theorem Core.gateAdd_mem (c : Core) (op : GateOp) (e : Option FaultRec) : (c.gateAdd op e).mem = c.mem := rfl
@[simp] theorem Core.gateAdd_sig (c : Core) (op : GateOp) (e : Option FaultRec) : (c.gateAdd op e).sig = c.sig := rfl
@[simp] theorem Core.gateAdd_unit (c : Core) (op : GateOp) (e : Option FaultRec) : (c.gateAdd op e).unit = c.unit := rfl
@[simp] theorem Core.gateAdd_pw (c : Core) (op : GateOp) (e : Option FaultRec) : (c.gateAdd op e).pw = c.pw := rfl
@[simp] theorem Core.gateAdd_lastPick (c : Core) (op : GateOp) (e : Option FaultRec) : (c.gateAdd op e).lastPick = c.lastPick := rfl

@[simp] theorem Core.storeBed_id (c : Core) (off : Nat) (bs : List Byte) : (c.storeBed off bs).id = c.id := rfl
@[simp] theorem Core.storeBed_r (c : Core) (off : Nat) (bs : List Byte) : (c.storeBed off bs).r = c.r := rfl
@[simp] theorem Core.storeBed_f (c : Core) (off : Nat) (bs : List Byte) : (c.storeBed off bs).f = c.f := rfl
@[simp] theorem Core.storeBed_acc (c : Core) (off : Nat) (bs : List Byte) : (c.storeBed off bs).acc = c.acc := rfl
@[simp] theorem Core.storeBed_sys (c : Core) (off : Nat) (bs : List Byte) : (c.storeBed off bs).sys = c.sys := rfl
@[simp] theorem Core.storeBed_ctl (c : Core) (off : Nat) (bs : List Byte) : (c.storeBed off bs).ctl = c.ctl := rfl
@[simp] theorem Core.storeBed_pipe (c : Core) (off : Nat) (bs : List Byte) : (c.storeBed off bs).pipe = c.pipe := rfl
@[simp] theorem Core.storeBed_mx (c : Core) (off : Nat) (bs : List Byte) : (c.storeBed off bs).mx = c.mx := rfl
@[simp] theorem Core.storeBed_seqr (c : Core) (off : Nat) (bs : List Byte) : (c.storeBed off bs).seqr = c.seqr := rfl
@[simp] theorem Core.storeBed_eng (c : Core) (off : Nat) (bs : List Byte) : (c.storeBed off bs).eng = c.eng := rfl
@[simp] theorem Core.storeBed_sig (c : Core) (off : Nat) (bs : List Byte) : (c.storeBed off bs).sig = c.sig := rfl
@[simp] theorem Core.storeBed_unit (c : Core) (off : Nat) (bs : List Byte) : (c.storeBed off bs).unit = c.unit := rfl
@[simp] theorem Core.storeBed_pw (c : Core) (off : Nat) (bs : List Byte) : (c.storeBed off bs).pw = c.pw := rfl
@[simp] theorem Core.storeBed_lastPick (c : Core) (off : Nat) (bs : List Byte) : (c.storeBed off bs).lastPick = c.lastPick := rfl

@[simp] theorem Core.setFlag_id (c : Core) (n v : Nat) : (c.setFlag n v).id = c.id := by unfold Core.setFlag; split <;> rfl
@[simp] theorem Core.setFlag_r (c : Core) (n v : Nat) : (c.setFlag n v).r = c.r := by unfold Core.setFlag; split <;> rfl
@[simp] theorem Core.setFlag_acc (c : Core) (n v : Nat) : (c.setFlag n v).acc = c.acc := by unfold Core.setFlag; split <;> rfl
@[simp] theorem Core.setFlag_sys (c : Core) (n v : Nat) : (c.setFlag n v).sys = c.sys := by unfold Core.setFlag; split <;> rfl
@[simp] theorem Core.setFlag_ctl (c : Core) (n v : Nat) : (c.setFlag n v).ctl = c.ctl := by unfold Core.setFlag; split <;> rfl
@[simp] theorem Core.setFlag_pipe (c : Core) (n v : Nat) : (c.setFlag n v).pipe = c.pipe := by unfold Core.setFlag; split <;> rfl
@[simp] theorem Core.setFlag_rg (c : Core) (n v : Nat) : (c.setFlag n v).rg = c.rg := by unfold Core.setFlag; split <;> rfl
@[simp] theorem Core.setFlag_mx (c : Core) (n v : Nat) : (c.setFlag n v).mx = c.mx := by unfold Core.setFlag; split <;> rfl
@[simp] theorem Core.setFlag_seqr (c : Core) (n v : Nat) : (c.setFlag n v).seqr = c.seqr := by unfold Core.setFlag; split <;> rfl
@[simp] theorem Core.setFlag_eng (c : Core) (n v : Nat) : (c.setFlag n v).eng = c.eng := by unfold Core.setFlag; split <;> rfl
@[simp] theorem Core.setFlag_mem (c : Core) (n v : Nat) : (c.setFlag n v).mem = c.mem := by unfold Core.setFlag; split <;> rfl
@[simp] theorem Core.setFlag_sig (c : Core) (n v : Nat) : (c.setFlag n v).sig = c.sig := by unfold Core.setFlag; split <;> rfl
@[simp] theorem Core.setFlag_unit (c : Core) (n v : Nat) : (c.setFlag n v).unit = c.unit := by unfold Core.setFlag; split <;> rfl
@[simp] theorem Core.setFlag_pw (c : Core) (n v : Nat) : (c.setFlag n v).pw = c.pw := by unfold Core.setFlag; split <;> rfl
@[simp] theorem Core.setFlag_lastPick (c : Core) (n v : Nat) : (c.setFlag n v).lastPick = c.lastPick := by unfold Core.setFlag; split <;> rfl

@[simp] theorem Core.setTile_id (c : Core) (n : Nat) (t : Tile) : (c.setTile n t).id = c.id := by unfold Core.setTile; split <;> rfl
@[simp] theorem Core.setTile_r (c : Core) (n : Nat) (t : Tile) : (c.setTile n t).r = c.r := by unfold Core.setTile; split <;> rfl
@[simp] theorem Core.setTile_f (c : Core) (n : Nat) (t : Tile) : (c.setTile n t).f = c.f := by unfold Core.setTile; split <;> rfl
@[simp] theorem Core.setTile_sys (c : Core) (n : Nat) (t : Tile) : (c.setTile n t).sys = c.sys := by unfold Core.setTile; split <;> rfl
@[simp] theorem Core.setTile_ctl (c : Core) (n : Nat) (t : Tile) : (c.setTile n t).ctl = c.ctl := by unfold Core.setTile; split <;> rfl
@[simp] theorem Core.setTile_pipe (c : Core) (n : Nat) (t : Tile) : (c.setTile n t).pipe = c.pipe := by unfold Core.setTile; split <;> rfl
@[simp] theorem Core.setTile_rg (c : Core) (n : Nat) (t : Tile) : (c.setTile n t).rg = c.rg := by unfold Core.setTile; split <;> rfl
@[simp] theorem Core.setTile_mx (c : Core) (n : Nat) (t : Tile) : (c.setTile n t).mx = c.mx := by unfold Core.setTile; split <;> rfl
@[simp] theorem Core.setTile_seqr (c : Core) (n : Nat) (t : Tile) : (c.setTile n t).seqr = c.seqr := by unfold Core.setTile; split <;> rfl
@[simp] theorem Core.setTile_eng (c : Core) (n : Nat) (t : Tile) : (c.setTile n t).eng = c.eng := by unfold Core.setTile; split <;> rfl
@[simp] theorem Core.setTile_mem (c : Core) (n : Nat) (t : Tile) : (c.setTile n t).mem = c.mem := by unfold Core.setTile; split <;> rfl
@[simp] theorem Core.setTile_sig (c : Core) (n : Nat) (t : Tile) : (c.setTile n t).sig = c.sig := by unfold Core.setTile; split <;> rfl
@[simp] theorem Core.setTile_unit (c : Core) (n : Nat) (t : Tile) : (c.setTile n t).unit = c.unit := by unfold Core.setTile; split <;> rfl
@[simp] theorem Core.setTile_pw (c : Core) (n : Nat) (t : Tile) : (c.setTile n t).pw = c.pw := by unfold Core.setTile; split <;> rfl
@[simp] theorem Core.setTile_lastPick (c : Core) (n : Nat) (t : Tile) : (c.setTile n t).lastPick = c.lastPick := by unfold Core.setTile; split <;> rfl

@[simp] theorem Core.setQueue_id (c : Core) (n : Nat) (q : Queue) : (c.setQueue n q).id = c.id := by unfold Core.setQueue; split <;> rfl
@[simp] theorem Core.setQueue_r (c : Core) (n : Nat) (q : Queue) : (c.setQueue n q).r = c.r := by unfold Core.setQueue; split <;> rfl
@[simp] theorem Core.setQueue_f (c : Core) (n : Nat) (q : Queue) : (c.setQueue n q).f = c.f := by unfold Core.setQueue; split <;> rfl
@[simp] theorem Core.setQueue_acc (c : Core) (n : Nat) (q : Queue) : (c.setQueue n q).acc = c.acc := by unfold Core.setQueue; split <;> rfl
@[simp] theorem Core.setQueue_sys (c : Core) (n : Nat) (q : Queue) : (c.setQueue n q).sys = c.sys := by unfold Core.setQueue; split <;> rfl
@[simp] theorem Core.setQueue_ctl (c : Core) (n : Nat) (q : Queue) : (c.setQueue n q).ctl = c.ctl := by unfold Core.setQueue; split <;> rfl
@[simp] theorem Core.setQueue_pipe (c : Core) (n : Nat) (q : Queue) : (c.setQueue n q).pipe = c.pipe := by unfold Core.setQueue; split <;> rfl
@[simp] theorem Core.setQueue_rg (c : Core) (n : Nat) (q : Queue) : (c.setQueue n q).rg = c.rg := by unfold Core.setQueue; split <;> rfl
@[simp] theorem Core.setQueue_mx (c : Core) (n : Nat) (q : Queue) : (c.setQueue n q).mx = c.mx := by unfold Core.setQueue; split <;> rfl
@[simp] theorem Core.setQueue_seqr (c : Core) (n : Nat) (q : Queue) : (c.setQueue n q).seqr = c.seqr := by unfold Core.setQueue; split <;> rfl
@[simp] theorem Core.setQueue_mem (c : Core) (n : Nat) (q : Queue) : (c.setQueue n q).mem = c.mem := by unfold Core.setQueue; split <;> rfl
@[simp] theorem Core.setQueue_sig (c : Core) (n : Nat) (q : Queue) : (c.setQueue n q).sig = c.sig := by unfold Core.setQueue; split <;> rfl
@[simp] theorem Core.setQueue_unit (c : Core) (n : Nat) (q : Queue) : (c.setQueue n q).unit = c.unit := by unfold Core.setQueue; split <;> rfl
@[simp] theorem Core.setQueue_pw (c : Core) (n : Nat) (q : Queue) : (c.setQueue n q).pw = c.pw := by unfold Core.setQueue; split <;> rfl
@[simp] theorem Core.setQueue_lastPick (c : Core) (n : Nat) (q : Queue) : (c.setQueue n q).lastPick = c.lastPick := by unfold Core.setQueue; split <;> rfl

@[simp] theorem Core.drawn_id (c : Core) : (c.drawn).id = c.id := rfl
@[simp] theorem Core.drawn_r (c : Core) : (c.drawn).r = c.r := rfl
@[simp] theorem Core.drawn_f (c : Core) : (c.drawn).f = c.f := rfl
@[simp] theorem Core.drawn_acc (c : Core) : (c.drawn).acc = c.acc := rfl
@[simp] theorem Core.drawn_ctl (c : Core) : (c.drawn).ctl = c.ctl := rfl
@[simp] theorem Core.drawn_pipe (c : Core) : (c.drawn).pipe = c.pipe := rfl
@[simp] theorem Core.drawn_rg (c : Core) : (c.drawn).rg = c.rg := rfl
@[simp] theorem Core.drawn_mx (c : Core) : (c.drawn).mx = c.mx := rfl
@[simp] theorem Core.drawn_seqr (c : Core) : (c.drawn).seqr = c.seqr := rfl
@[simp] theorem Core.drawn_eng (c : Core) : (c.drawn).eng = c.eng := rfl
@[simp] theorem Core.drawn_mem (c : Core) : (c.drawn).mem = c.mem := rfl
@[simp] theorem Core.drawn_sig (c : Core) : (c.drawn).sig = c.sig := rfl
@[simp] theorem Core.drawn_unit (c : Core) : (c.drawn).unit = c.unit := rfl
@[simp] theorem Core.drawn_pw (c : Core) : (c.drawn).pw = c.pw := rfl
@[simp] theorem Core.drawn_lastPick (c : Core) : (c.drawn).lastPick = c.lastPick := rfl

@[simp] theorem Core.freeze_id (c : Core) (n : Nat) : (c.freeze n).id = c.id := rfl
@[simp] theorem Core.freeze_r (c : Core) (n : Nat) : (c.freeze n).r = c.r := rfl
@[simp] theorem Core.freeze_f (c : Core) (n : Nat) : (c.freeze n).f = c.f := rfl
@[simp] theorem Core.freeze_acc (c : Core) (n : Nat) : (c.freeze n).acc = c.acc := rfl
@[simp] theorem Core.freeze_sys (c : Core) (n : Nat) : (c.freeze n).sys = { c.sys with freeze := c.sys.freeze + 1 } := rfl
@[simp] theorem Core.freeze_ctl (c : Core) (n : Nat) : (c.freeze n).ctl = c.ctl := rfl
@[simp] theorem Core.freeze_pipe (c : Core) (n : Nat) : (c.freeze n).pipe = c.pipe := rfl
@[simp] theorem Core.freeze_rg (c : Core) (n : Nat) : (c.freeze n).rg = c.rg := rfl
@[simp] theorem Core.freeze_mx (c : Core) (n : Nat) : (c.freeze n).mx = c.mx := rfl
@[simp] theorem Core.freeze_seqr (c : Core) (n : Nat) : (c.freeze n).seqr = c.seqr := rfl
@[simp] theorem Core.freeze_eng (c : Core) (n : Nat) : (c.freeze n).eng = c.eng := rfl
@[simp] theorem Core.freeze_mem (c : Core) (n : Nat) : (c.freeze n).mem = c.mem := rfl
@[simp] theorem Core.freeze_sig (c : Core) (n : Nat) : (c.freeze n).sig = c.sig := rfl
@[simp] theorem Core.freeze_unit (c : Core) (n : Nat) : (c.freeze n).unit = c.unit := rfl
@[simp] theorem Core.freeze_pw (c : Core) (n : Nat) : (c.freeze n).pw = c.pw.forget n := rfl
@[simp] theorem Core.freeze_lastPick (c : Core) (n : Nat) : (c.freeze n).lastPick = c.lastPick := rfl

@[simp] theorem Core.trapEntry_id (c : Core) : (c.trapEntry).id = c.id := by unfold Core.trapEntry; dsimp only; split <;> rfl
@[simp] theorem Core.trapEntry_r (c : Core) : (c.trapEntry).r = c.r := by unfold Core.trapEntry; dsimp only; split <;> rfl
@[simp] theorem Core.trapEntry_f (c : Core) : (c.trapEntry).f = c.f := by unfold Core.trapEntry; dsimp only; split <;> rfl
@[simp] theorem Core.trapEntry_acc (c : Core) : (c.trapEntry).acc = c.acc := by unfold Core.trapEntry; dsimp only; split <;> rfl
@[simp] theorem Core.trapEntry_rg (c : Core) : (c.trapEntry).rg = c.rg := by unfold Core.trapEntry; dsimp only; split <;> rfl
@[simp] theorem Core.trapEntry_mx (c : Core) : (c.trapEntry).mx = c.mx := by unfold Core.trapEntry; dsimp only; split <;> rfl
@[simp] theorem Core.trapEntry_seqr (c : Core) : (c.trapEntry).seqr = c.seqr := by unfold Core.trapEntry; dsimp only; split <;> rfl
@[simp] theorem Core.trapEntry_eng (c : Core) : (c.trapEntry).eng = c.eng := by unfold Core.trapEntry; dsimp only; split <;> rfl
@[simp] theorem Core.trapEntry_mem (c : Core) : (c.trapEntry).mem = c.mem := by unfold Core.trapEntry; dsimp only; split <;> rfl
@[simp] theorem Core.trapEntry_sig (c : Core) : (c.trapEntry).sig = c.sig := by unfold Core.trapEntry; dsimp only; split <;> rfl
@[simp] theorem Core.trapEntry_unit (c : Core) : (c.trapEntry).unit = c.unit := by unfold Core.trapEntry; dsimp only; split <;> rfl
@[simp] theorem Core.trapEntry_pw (c : Core) : (c.trapEntry).pw = c.pw := by unfold Core.trapEntry; dsimp only; split <;> rfl
@[simp] theorem Core.trapEntry_lastPick (c : Core) : (c.trapEntry).lastPick = c.lastPick := by unfold Core.trapEntry; dsimp only; split <;> rfl

@[simp] theorem Core.trapReturn_id (c : Core) (lag : Nat) : (c.trapReturn lag).id = c.id := rfl
@[simp] theorem Core.trapReturn_r (c : Core) (lag : Nat) : (c.trapReturn lag).r = c.r := rfl
@[simp] theorem Core.trapReturn_f (c : Core) (lag : Nat) : (c.trapReturn lag).f = c.f := rfl
@[simp] theorem Core.trapReturn_acc (c : Core) (lag : Nat) : (c.trapReturn lag).acc = c.acc := rfl
@[simp] theorem Core.trapReturn_rg (c : Core) (lag : Nat) : (c.trapReturn lag).rg = c.rg := rfl
@[simp] theorem Core.trapReturn_seqr (c : Core) (lag : Nat) : (c.trapReturn lag).seqr = c.seqr := rfl
@[simp] theorem Core.trapReturn_eng (c : Core) (lag : Nat) : (c.trapReturn lag).eng = c.eng := rfl
@[simp] theorem Core.trapReturn_mem (c : Core) (lag : Nat) : (c.trapReturn lag).mem = c.mem := rfl
@[simp] theorem Core.trapReturn_sig (c : Core) (lag : Nat) : (c.trapReturn lag).sig = c.sig := rfl
@[simp] theorem Core.trapReturn_unit (c : Core) (lag : Nat) : (c.trapReturn lag).unit = c.unit := rfl
@[simp] theorem Core.trapReturn_pw (c : Core) (lag : Nat) : (c.trapReturn lag).pw = c.pw := rfl
@[simp] theorem Core.trapReturn_lastPick (c : Core) (lag : Nat) : (c.trapReturn lag).lastPick = c.lastPick := rfl

end Sys2Proof.Machine
end

