-- ==== Sys2Proof/Laws/Cores.lean ====
section
/-! SUPPORT. Association lists, and the cores of a state: what is read back after one of them has been changed. -/

namespace Sys2Proof.Machine

set_option Elab.async false

/-! Association lists. -/

theorem lookup_cons {α : Type} (e : Nat × α) (l : List (Nat × α)) (k : Nat) :
    lookup (e :: l) k = if e.1 = k then some e.2 else lookup l k := by
  by_cases h : e.1 = k <;> simp [lookup, h, beq_eq_false_iff_ne.mpr]

theorem lookup_assocSet {α : Type} (l : List (Nat × α)) (k j : Nat) (a : α) :
    lookup (assocSet l k a) j = if j = k then some a else lookup l j := by
  induction l with
  | nil => rw [assocSet, lookup_cons]; by_cases h : j = k <;> simp [h, Ne.symm]
  | cons e es ih =>
    unfold assocSet
    split
    · rename_i h
      by_cases hj : j = k
      · subst hj; rw [lookup_cons, if_neg (by omega), ih, if_pos rfl, if_pos rfl]
      · rw [lookup_cons, ih, lookup_cons, if_neg hj, if_neg hj]
    · split
      · rename_i h
        rw [lookup_cons, lookup_cons]
        by_cases hj : j = k
        · simp [hj]
        · rw [if_neg (by simpa [eq_comm] using hj), if_neg hj, if_neg (by omega)]
      · rw [lookup_cons]
        by_cases hj : j = k
        · simp [hj]
        · rw [if_neg (by simpa [eq_comm] using hj), if_neg hj]

@[simp] theorem lookup_assocSet_self {α : Type} (l : List (Nat × α)) (k : Nat) (a : α) : lookup (assocSet l k a) k = some a := by
  rw [lookup_assocSet, if_pos rfl]

theorem lookup_assocSet_ne {α : Type} (l : List (Nat × α)) {k j : Nat} (a : α) (h : j ≠ k) :
    lookup (assocSet l k a) j = lookup l j := by rw [lookup_assocSet, if_neg h]

/-! Cores. -/

theorem coreOf_focus (s : State) : s.coreOf s.core.id = s.core := by simp [State.coreOf]

theorem coreOf_putCore (s : State) (c : Core) : (s.putCore c).coreOf c.id = c := by
  unfold State.putCore State.coreOf
  split
  · simp
  · rename_i h; simp [Ne.symm h]

theorem coreOf_putCore_ne (s : State) (c : Core) {n : Nat} (h : n ≠ c.id) : (s.putCore c).coreOf n = s.coreOf n := by
  unfold State.putCore State.coreOf
  split
  · rename_i g; simp [Ne.symm h, ← g]
  · simp [lookup_assocSet_ne _ _ h]

/-- A core changed, its number kept, reads as changed; no other core does. -/
theorem coreOf_modCore (s : State) (n m : Nat) (f : Core → Core) (h : (f (s.coreOf n)).id = n) :
    (s.modCore n f).coreOf m = if m = n then f (s.coreOf n) else s.coreOf m := by
  unfold State.modCore
  split
  · rename_i g; subst g
    have := coreOf_putCore s (f (s.coreOf m))
    rwa [h] at this
  · exact coreOf_putCore_ne _ _ (by rwa [h])

/-- The package but for its cores is untouched when a core changes. -/
theorem modCore_rest (s : State) (n : Nat) (f : Core → Core) :
    s.modCore n f = { s with core := (s.modCore n f).core, others := (s.modCore n f).others } := by
  unfold State.modCore State.putCore; split <;> rfl

@[simp] theorem State.modCore_agenda (s : State) (n : Nat) (f : Core → Core) : (s.modCore n f).agenda = s.agenda := by rw [modCore_rest]
@[simp] theorem State.modCore_turn (s : State) (n : Nat) (f : Core → Core) : (s.modCore n f).turn = s.turn := by rw [modCore_rest]
@[simp] theorem State.modCore_mem (s : State) (n : Nat) (f : Core → Core) : (s.modCore n f).mem = s.mem := by rw [modCore_rest]
@[simp] theorem State.modCore_poisoned (s : State) (n : Nat) (f : Core → Core) : (s.modCore n f).poisoned = s.poisoned := by rw [modCore_rest]
@[simp] theorem State.modCore_tags (s : State) (n : Nat) (f : Core → Core) : (s.modCore n f).tags = s.tags := by rw [modCore_rest]
@[simp] theorem State.modCore_regions (s : State) (n : Nat) (f : Core → Core) : (s.modCore n f).regions = s.regions := by rw [modCore_rest]
@[simp] theorem State.modCore_nextRegion (s : State) (n : Nat) (f : Core → Core) : (s.modCore n f).nextRegion = s.nextRegion := by rw [modCore_rest]
@[simp] theorem State.modCore_ctxs (s : State) (n : Nat) (f : Core → Core) : (s.modCore n f).ctxs = s.ctxs := by rw [modCore_rest]
@[simp] theorem State.modCore_holds (s : State) (n : Nat) (f : Core → Core) : (s.modCore n f).holds = s.holds := by rw [modCore_rest]
@[simp] theorem State.modCore_disp (s : State) (n : Nat) (f : Core → Core) : (s.modCore n f).disp = s.disp := by rw [modCore_rest]
@[simp] theorem State.modCore_clusters (s : State) (n : Nat) (f : Core → Core) : (s.modCore n f).clusters = s.clusters := by rw [modCore_rest]
@[simp] theorem State.modCore_fns (s : State) (n : Nat) (f : Core → Core) : (s.modCore n f).fns = s.fns := by rw [modCore_rest]
@[simp] theorem State.modCore_fabric (s : State) (n : Nat) (f : Core → Core) : (s.modCore n f).fabric = s.fabric := by rw [modCore_rest]
@[simp] theorem State.modCore_lintel (s : State) (n : Nat) (f : Core → Core) : (s.modCore n f).lintel = s.lintel := by rw [modCore_rest]
@[simp] theorem State.modCore_fenced (s : State) (n : Nat) (f : Core → Core) : (s.modCore n f).fenced = s.fenced := by rw [modCore_rest]
@[simp] theorem State.modCore_stopped (s : State) (n : Nat) (f : Core → Core) : (s.modCore n f).stopped = s.stopped := by rw [modCore_rest]
@[simp] theorem State.modCore_power (s : State) (n : Nat) (f : Core → Core) : (s.modCore n f).power = s.power := by rw [modCore_rest]
@[simp] theorem State.modCore_errs (s : State) (n : Nat) (f : Core → Core) : (s.modCore n f).errs = s.errs := by rw [modCore_rest]
@[simp] theorem State.modCore_cycle (s : State) (n : Nat) (f : Core → Core) : (s.modCore n f).cycle = s.cycle := by rw [modCore_rest]
@[simp] theorem State.modCore_free (s : State) (n : Nat) (f : Core → Core) : (s.modCore n f).free = s.free := by rw [modCore_rest]
@[simp] theorem State.modCore_sealed (s : State) (n : Nat) (f : Core → Core) : (s.modCore n f).sealed = s.sealed := by rw [modCore_rest]
@[simp] theorem State.modCore_boot (s : State) (n : Nat) (f : Core → Core) : (s.modCore n f).boot = s.boot := by rw [modCore_rest]
@[simp] theorem State.modCore_spdm (s : State) (n : Nat) (f : Core → Core) : (s.modCore n f).spdm = s.spdm := by rw [modCore_rest]
@[simp] theorem State.modCore_arb (s : State) (n : Nat) (f : Core → Core) : (s.modCore n f).arb = s.arb := by rw [modCore_rest]
@[simp] theorem State.modCore_arbLog (s : State) (n : Nat) (f : Core → Core) : (s.modCore n f).arbLog = s.arbLog := by rw [modCore_rest]
@[simp] theorem State.modCore_master (s : State) (n : Nat) (f : Core → Core) : (s.modCore n f).master = s.master := by rw [modCore_rest]
@[simp] theorem State.modCore_refTime (s : State) (n : Nat) (f : Core → Core) : (s.modCore n f).refTime = s.refTime := by rw [modCore_rest]
@[simp] theorem State.modCore_pticks (s : State) (n : Nat) (f : Core → Core) : (s.modCore n f).pticks = s.pticks := by rw [modCore_rest]

/-- Focus moves no core's contents. -/
@[simp] theorem State.focus_agenda (s : State) (n : Nat) : (s.focus n).agenda = s.agenda := by unfold State.focus; split <;> rfl
@[simp] theorem State.focus_turn (s : State) (n : Nat) : (s.focus n).turn = s.turn := by unfold State.focus; split <;> rfl
@[simp] theorem State.focus_mem (s : State) (n : Nat) : (s.focus n).mem = s.mem := by unfold State.focus; split <;> rfl
@[simp] theorem State.focus_poisoned (s : State) (n : Nat) : (s.focus n).poisoned = s.poisoned := by unfold State.focus; split <;> rfl
@[simp] theorem State.focus_tags (s : State) (n : Nat) : (s.focus n).tags = s.tags := by unfold State.focus; split <;> rfl
@[simp] theorem State.focus_regions (s : State) (n : Nat) : (s.focus n).regions = s.regions := by unfold State.focus; split <;> rfl
@[simp] theorem State.focus_nextRegion (s : State) (n : Nat) : (s.focus n).nextRegion = s.nextRegion := by unfold State.focus; split <;> rfl
@[simp] theorem State.focus_ctxs (s : State) (n : Nat) : (s.focus n).ctxs = s.ctxs := by unfold State.focus; split <;> rfl
@[simp] theorem State.focus_holds (s : State) (n : Nat) : (s.focus n).holds = s.holds := by unfold State.focus; split <;> rfl
@[simp] theorem State.focus_disp (s : State) (n : Nat) : (s.focus n).disp = s.disp := by unfold State.focus; split <;> rfl
@[simp] theorem State.focus_clusters (s : State) (n : Nat) : (s.focus n).clusters = s.clusters := by unfold State.focus; split <;> rfl
@[simp] theorem State.focus_fns (s : State) (n : Nat) : (s.focus n).fns = s.fns := by unfold State.focus; split <;> rfl
@[simp] theorem State.focus_fabric (s : State) (n : Nat) : (s.focus n).fabric = s.fabric := by unfold State.focus; split <;> rfl
@[simp] theorem State.focus_lintel (s : State) (n : Nat) : (s.focus n).lintel = s.lintel := by unfold State.focus; split <;> rfl
@[simp] theorem State.focus_fenced (s : State) (n : Nat) : (s.focus n).fenced = s.fenced := by unfold State.focus; split <;> rfl
@[simp] theorem State.focus_stopped (s : State) (n : Nat) : (s.focus n).stopped = s.stopped := by unfold State.focus; split <;> rfl
@[simp] theorem State.focus_power (s : State) (n : Nat) : (s.focus n).power = s.power := by unfold State.focus; split <;> rfl
@[simp] theorem State.focus_errs (s : State) (n : Nat) : (s.focus n).errs = s.errs := by unfold State.focus; split <;> rfl
@[simp] theorem State.focus_cycle (s : State) (n : Nat) : (s.focus n).cycle = s.cycle := by unfold State.focus; split <;> rfl
@[simp] theorem State.focus_free (s : State) (n : Nat) : (s.focus n).free = s.free := by unfold State.focus; split <;> rfl
@[simp] theorem State.focus_sealed (s : State) (n : Nat) : (s.focus n).sealed = s.sealed := by unfold State.focus; split <;> rfl
@[simp] theorem State.focus_boot (s : State) (n : Nat) : (s.focus n).boot = s.boot := by unfold State.focus; split <;> rfl
@[simp] theorem State.focus_spdm (s : State) (n : Nat) : (s.focus n).spdm = s.spdm := by unfold State.focus; split <;> rfl
@[simp] theorem State.focus_arb (s : State) (n : Nat) : (s.focus n).arb = s.arb := by unfold State.focus; split <;> rfl
@[simp] theorem State.focus_arbLog (s : State) (n : Nat) : (s.focus n).arbLog = s.arbLog := by unfold State.focus; split <;> rfl
@[simp] theorem State.focus_master (s : State) (n : Nat) : (s.focus n).master = s.master := by unfold State.focus; split <;> rfl
@[simp] theorem State.focus_refTime (s : State) (n : Nat) : (s.focus n).refTime = s.refTime := by unfold State.focus; split <;> rfl
@[simp] theorem State.focus_pticks (s : State) (n : Nat) : (s.focus n).pticks = s.pticks := by unfold State.focus; split <;> rfl

end Sys2Proof.Machine
end

