-- ==== Sys2Proof/Laws/Encoding.lean ====
section
/-! SUPPORT. Laws of the encoding: the fields of the words of each format (R72 to R77), and what the bundle that holds one instruction
decodes to (R68). -/

namespace Sys2Proof.Laws

set_option Elab.async false

open Sys2Proof Sys2Proof.Machine

/-! Fields of a concatenation. -/

theorem field_hi {v w : Nat} (x : BitVec v) (y : BitVec w) (lo n : Nat) (h : w ≤ lo) : field (x ++ y) lo n = field x (lo - w) n :=
  BitVec.extractLsb'_append_eq_of_le h

theorem field_lo {v w : Nat} (x : BitVec v) (y : BitVec w) (lo n : Nat) (h : lo + n ≤ w) : field (x ++ y) lo n = field y lo n :=
  BitVec.extractLsb'_append_eq_of_add_le h

theorem field_all {w : Nat} (x : BitVec w) : field x 0 w = x := by simp [field]

theorem field_zero {w lo n : Nat} : field (0#w) lo n = 0#n := by simp [field]

theorem bit_hi {v w : Nat} (x : BitVec v) (y : BitVec w) (i : Nat) (h : w ≤ i) : bitAt (x ++ y) i = bitAt x (i - w) := by
  simp [bitAt, BitVec.getLsbD_append, Nat.not_lt.mpr h]

theorem bit_lo {v w : Nat} (x : BitVec v) (y : BitVec w) (i : Nat) (h : i < w) : bitAt (x ++ y) i = bitAt y i := by
  simp [bitAt, BitVec.getLsbD_append, h]

theorem bit_bit (b : Bool) : bitAt (bit b) 0 = b := by cases b <;> rfl

theorem bit_zero (n i : Nat) : bitAt (0#n) i = false := by simp [bitAt]

theorem field_bit (b : Bool) : field (bit b) 0 1 = bit b := field_all _

/-- A word with a field that is not zero is not zero. -/
theorem nonzero {w : Nat} {x : BitVec w} (lo n : Nat) {f : BitVec n} (h : field x lo n = f) (g : f ≠ 0) : x ≠ 0 := by
  rintro rfl; exact g (h ▸ field_zero)

/-! Sources (R71). -/

theorem srcOf_bits (a : Src) : srcOf a.bits = a := by
  cases a with
  | reg r => simp (disch := decide) only [srcOf, Src.bits, bit_hi, field_lo, field_all, Nat.reduceSub]; rfl
  | tap q => simp (disch := decide) only [srcOf, Src.bits, bit_hi, field_lo, field_all, Nat.reduceSub]; rfl

theorem srcOk_bits (a : Src) : srcOk a.bits = true := by
  cases a with
  | reg r => simp (disch := decide) only [srcOk, Src.bits, bit_hi, Nat.reduceSub]; rfl
  | tap q => simp (disch := decide) only [srcOk, Src.bits, bit_hi, field_lo, field_hi, field_all, Nat.reduceSub]; rfl

/-! A word standing in its slot. -/

theorem field_shift {n : Nat} (w : BitVec n) (k lo m : Nat) (h : lo + m ≤ k) : field (w.setWidth 256 <<< k) lo m = 0#m := by
  apply BitVec.eq_of_getLsbD_eq; intro i hi
  simp [field, BitVec.getLsbD_shiftLeft]; omega

theorem field_shift_hi {n : Nat} (w : BitVec n) (k lo m : Nat) (h : k + n ≤ lo) : field (w.setWidth 256 <<< k) lo m = 0#m := by
  apply BitVec.eq_of_getLsbD_eq; intro i hi
  simp [field, BitVec.getLsbD_shiftLeft]
  intros
  exact BitVec.getLsbD_of_ge _ _ (by omega)

theorem field_shift_eq {n : Nat} (w : BitVec n) (k : Nat) (h : k + n ≤ 256) : field (w.setWidth 256 <<< k) k n = w := by
  apply BitVec.eq_of_getLsbD_eq; intro i hi
  simp [field, hi, show k + i < 256 by omega, show k + i - k = i by omega]

theorem bit_shift {n : Nat} (w : BitVec n) (k i : Nat) (h : i < k) : bitAt (w.setWidth 256 <<< k) i = false := by
  simp [bitAt, BitVec.getLsbD_shiftLeft, h]

theorem table_of (b : BundleBits) : decodeTableWord 256 b.toNat =
    if (decodeBundle b).clean then ((decodeBundle b).instrs.head?).map (·.2) else none := by
  have : BitVec.ofNat 256 (b.toNat % 2 ^ 256) = b := by rw [Nat.mod_eq_of_lt b.isLt, BitVec.ofNat_toNat, BitVec.setWidth_eq]
  rw [decodeTableWord, this]

/-! The formats (R72 to R77). -/


theorem wSR_op (op : BitVec 6) (qp : PredNo) (d a b : RegNo) (fn : BitVec 8) : field (wSR op qp d a b fn) 30 6 = op := by
  simp (disch := decide) only [wSR, field_hi]; exact field_all _

theorem wSR_qp (op : BitVec 6) (qp : PredNo) (d a b : RegNo) (fn : BitVec 8) : field (wSR op qp d a b fn) 26 4 = qp := by
  simp (disch := decide) only [wSR, field_hi, field_lo]; exact field_all _

theorem wSR_d (op : BitVec 6) (qp : PredNo) (d a b : RegNo) (fn : BitVec 8) : field (wSR op qp d a b fn) 20 6 = d := by
  simp (disch := decide) only [wSR, field_hi, field_lo]; exact field_all _

theorem wSR_a (op : BitVec 6) (qp : PredNo) (d a b : RegNo) (fn : BitVec 8) : field (wSR op qp d a b fn) 14 6 = a := by
  simp (disch := decide) only [wSR, field_hi, field_lo]; exact field_all _

theorem wSR_b (op : BitVec 6) (qp : PredNo) (d a b : RegNo) (fn : BitVec 8) : field (wSR op qp d a b fn) 8 6 = b := by
  simp (disch := decide) only [wSR, field_hi, field_lo]; exact field_all _

theorem wSR_low (op : BitVec 6) (qp : PredNo) (d a b : RegNo) (fn : BitVec 8) (lo n : Nat) (k : lo + n ≤ 8) : field (wSR op qp d a b fn) lo n = field fn lo n :=
  field_lo _ _ _ _ k

theorem wSR_bit (op : BitVec 6) (qp : PredNo) (d a b : RegNo) (fn : BitVec 8) (i : Nat) (k : i < 8) : bitAt (wSR op qp d a b fn) i = bitAt fn i :=
  bit_lo _ _ _ k

theorem wSI_op (op : BitVec 6) (qp : PredNo) (d a : RegNo) (imm : BitVec 14) : field (wSI op qp d a imm) 30 6 = op := by
  simp (disch := decide) only [wSI, field_hi]; exact field_all _

theorem wSI_qp (op : BitVec 6) (qp : PredNo) (d a : RegNo) (imm : BitVec 14) : field (wSI op qp d a imm) 26 4 = qp := by
  simp (disch := decide) only [wSI, field_hi, field_lo]; exact field_all _

theorem wSI_d (op : BitVec 6) (qp : PredNo) (d a : RegNo) (imm : BitVec 14) : field (wSI op qp d a imm) 20 6 = d := by
  simp (disch := decide) only [wSI, field_hi, field_lo]; exact field_all _

theorem wSI_a (op : BitVec 6) (qp : PredNo) (d a : RegNo) (imm : BitVec 14) : field (wSI op qp d a imm) 14 6 = a := by
  simp (disch := decide) only [wSI, field_hi, field_lo]; exact field_all _

theorem wSI_low (op : BitVec 6) (qp : PredNo) (d a : RegNo) (imm : BitVec 14) (lo n : Nat) (k : lo + n ≤ 14) : field (wSI op qp d a imm) lo n = field imm lo n :=
  field_lo _ _ _ _ k

theorem wSI_bit (op : BitVec 6) (qp : PredNo) (d a : RegNo) (imm : BitVec 14) (i : Nat) (k : i < 14) : bitAt (wSI op qp d a imm) i = bitAt imm i :=
  bit_lo _ _ _ k

theorem wSL_op (op : BitVec 6) (qp : PredNo) (d : RegNo) (imm : BitVec 20) : field (wSL op qp d imm) 30 6 = op := by
  simp (disch := decide) only [wSL, field_hi]; exact field_all _

theorem wSL_qp (op : BitVec 6) (qp : PredNo) (d : RegNo) (imm : BitVec 20) : field (wSL op qp d imm) 26 4 = qp := by
  simp (disch := decide) only [wSL, field_hi, field_lo]; exact field_all _

theorem wSL_d (op : BitVec 6) (qp : PredNo) (d : RegNo) (imm : BitVec 20) : field (wSL op qp d imm) 20 6 = d := by
  simp (disch := decide) only [wSL, field_hi, field_lo]; exact field_all _

theorem wSL_low (op : BitVec 6) (qp : PredNo) (d : RegNo) (imm : BitVec 20) (lo n : Nat) (k : lo + n ≤ 20) : field (wSL op qp d imm) lo n = field imm lo n :=
  field_lo _ _ _ _ k

theorem wSL_bit (op : BitVec 6) (qp : PredNo) (d : RegNo) (imm : BitVec 20) (i : Nat) (k : i < 20) : bitAt (wSL op qp d imm) i = bitAt imm i :=
  bit_lo _ _ _ k

theorem wSC_op (op : BitVec 6) (o : SC) : field (wSC op o) 30 6 = op := by
  simp (disch := decide) only [wSC, field_hi]; exact field_all _

theorem wSC_qp (op : BitVec 6) (o : SC) : field (wSC op o) 26 4 = o.qp := by
  simp (disch := decide) only [wSC, field_hi, field_lo]; exact field_all _

theorem wSC_p1 (op : BitVec 6) (o : SC) : field (wSC op o) 22 4 = o.p1 := by
  simp (disch := decide) only [wSC, field_hi, field_lo]; exact field_all _

theorem wSC_p2 (op : BitVec 6) (o : SC) : field (wSC op o) 18 4 = o.p2 := by
  simp (disch := decide) only [wSC, field_hi, field_lo]; exact field_all _

theorem wSC_ct (op : BitVec 6) (o : SC) : field (wSC op o) 15 3 = o.ct := by
  simp (disch := decide) only [wSC, field_hi, field_lo]; exact field_all _

theorem wSC_cond (op : BitVec 6) (o : SC) : field (wSC op o) 12 3 = o.cond := by
  simp (disch := decide) only [wSC, field_hi, field_lo]; exact field_all _

theorem wSC_a (op : BitVec 6) (o : SC) : field (wSC op o) 6 6 = o.a := by
  simp (disch := decide) only [wSC, field_hi, field_lo]; exact field_all _

theorem wSC_low (op : BitVec 6) (o : SC) (lo n : Nat) (k : lo + n ≤ 6) : field (wSC op o) lo n = field o.b lo n :=
  field_lo _ _ _ _ k

theorem wSC_bit (op : BitVec 6) (o : SC) (i : Nat) (k : i < 6) : bitAt (wSC op o) i = bitAt o.b i :=
  bit_lo _ _ _ k

theorem wSB_op (op : BitVec 6) (o : SBr) : field (wSB op o) 30 6 = op := by
  simp (disch := decide) only [wSB, field_hi]; exact field_all _

theorem wSB_qp (op : BitVec 6) (o : SBr) : field (wSB op o) 26 4 = o.qp := by
  simp (disch := decide) only [wSB, field_hi, field_lo]; exact field_all _

theorem wSB_low (op : BitVec 6) (o : SBr) (lo n : Nat) (k : lo + n ≤ 26) : field (wSB op o) lo n = field o.disp lo n :=
  field_lo _ _ _ _ k

theorem wSB_bit (op : BitVec 6) (o : SBr) (i : Nat) (k : i < 26) : bitAt (wSB op o) i = bitAt o.disp i :=
  bit_lo _ _ _ k

theorem wVR_op (op : BitVec 6) (qp : PredNo) (km : BitVec 3) (d : RegNo) (a b fn : BitVec 7) : field (wVR op qp km d a b fn) 34 6 = op := by
  simp (disch := decide) only [wVR, field_hi]; exact field_all _

theorem wVR_qp (op : BitVec 6) (qp : PredNo) (km : BitVec 3) (d : RegNo) (a b fn : BitVec 7) : field (wVR op qp km d a b fn) 30 4 = qp := by
  simp (disch := decide) only [wVR, field_hi, field_lo]; exact field_all _

theorem wVR_km (op : BitVec 6) (qp : PredNo) (km : BitVec 3) (d : RegNo) (a b fn : BitVec 7) : field (wVR op qp km d a b fn) 27 3 = km := by
  simp (disch := decide) only [wVR, field_hi, field_lo]; exact field_all _

theorem wVR_d (op : BitVec 6) (qp : PredNo) (km : BitVec 3) (d : RegNo) (a b fn : BitVec 7) : field (wVR op qp km d a b fn) 21 6 = d := by
  simp (disch := decide) only [wVR, field_hi, field_lo]; exact field_all _

theorem wVR_a (op : BitVec 6) (qp : PredNo) (km : BitVec 3) (d : RegNo) (a b fn : BitVec 7) : field (wVR op qp km d a b fn) 14 7 = a := by
  simp (disch := decide) only [wVR, field_hi, field_lo]; exact field_all _

theorem wVR_b (op : BitVec 6) (qp : PredNo) (km : BitVec 3) (d : RegNo) (a b fn : BitVec 7) : field (wVR op qp km d a b fn) 7 7 = b := by
  simp (disch := decide) only [wVR, field_hi, field_lo]; exact field_all _

theorem wVR_low (op : BitVec 6) (qp : PredNo) (km : BitVec 3) (d : RegNo) (a b fn : BitVec 7) (lo n : Nat) (k : lo + n ≤ 7) : field (wVR op qp km d a b fn) lo n = field fn lo n :=
  field_lo _ _ _ _ k

theorem wVR_bit (op : BitVec 6) (qp : PredNo) (km : BitVec 3) (d : RegNo) (a b fn : BitVec 7) (i : Nat) (k : i < 7) : bitAt (wVR op qp km d a b fn) i = bitAt fn i :=
  bit_lo _ _ _ k

theorem wVI_op (op : BitVec 6) (qp : PredNo) (km : BitVec 3) (d : RegNo) (a : BitVec 7) (imm : BitVec 14) : field (wVI op qp km d a imm) 34 6 = op := by
  simp (disch := decide) only [wVI, field_hi]; exact field_all _

theorem wVI_qp (op : BitVec 6) (qp : PredNo) (km : BitVec 3) (d : RegNo) (a : BitVec 7) (imm : BitVec 14) : field (wVI op qp km d a imm) 30 4 = qp := by
  simp (disch := decide) only [wVI, field_hi, field_lo]; exact field_all _

theorem wVI_km (op : BitVec 6) (qp : PredNo) (km : BitVec 3) (d : RegNo) (a : BitVec 7) (imm : BitVec 14) : field (wVI op qp km d a imm) 27 3 = km := by
  simp (disch := decide) only [wVI, field_hi, field_lo]; exact field_all _

theorem wVI_d (op : BitVec 6) (qp : PredNo) (km : BitVec 3) (d : RegNo) (a : BitVec 7) (imm : BitVec 14) : field (wVI op qp km d a imm) 21 6 = d := by
  simp (disch := decide) only [wVI, field_hi, field_lo]; exact field_all _

theorem wVI_a (op : BitVec 6) (qp : PredNo) (km : BitVec 3) (d : RegNo) (a : BitVec 7) (imm : BitVec 14) : field (wVI op qp km d a imm) 14 7 = a := by
  simp (disch := decide) only [wVI, field_hi, field_lo]; exact field_all _

theorem wVI_low (op : BitVec 6) (qp : PredNo) (km : BitVec 3) (d : RegNo) (a : BitVec 7) (imm : BitVec 14) (lo n : Nat) (k : lo + n ≤ 14) : field (wVI op qp km d a imm) lo n = field imm lo n :=
  field_lo _ _ _ _ k

theorem wVI_bit (op : BitVec 6) (qp : PredNo) (km : BitVec 3) (d : RegNo) (a : BitVec 7) (imm : BitVec 14) (i : Nat) (k : i < 14) : bitAt (wVI op qp km d a imm) i = bitAt imm i :=
  bit_lo _ _ _ k

theorem wML_op (op : BitVec 6) (o : ML) : field (wML op o) 34 6 = op := by
  simp (disch := decide) only [wML, field_hi]; exact field_all _

theorem wML_qp (op : BitVec 6) (o : ML) : field (wML op o) 30 4 = o.qp := by
  simp (disch := decide) only [wML, field_hi, field_lo]; exact field_all _

theorem wML_rg (op : BitVec 6) (o : ML) : field (wML op o) 24 6 = o.rg := by
  simp (disch := decide) only [wML, field_hi, field_lo]; exact field_all _

theorem wML_base (op : BitVec 6) (o : ML) : field (wML op o) 18 6 = o.base := by
  simp (disch := decide) only [wML, field_hi, field_lo]; exact field_all _

theorem wML_low (op : BitVec 6) (o : ML) (lo n : Nat) (k : lo + n ≤ 18) : field (wML op o) lo n = field o.off lo n :=
  field_lo _ _ _ _ k

theorem wML_bit (op : BitVec 6) (o : ML) (i : Nat) (k : i < 18) : bitAt (wML op o) i = bitAt o.off i :=
  bit_lo _ _ _ k

theorem wMG_op (op : BitVec 6) (qp : PredNo) (rg : RegNo) (h : BitVec 4) (xi : RegNo) (off : BitVec 14) : field (wMG op qp rg h xi off) 34 6 = op := by
  simp (disch := decide) only [wMG, field_hi]; exact field_all _

theorem wMG_qp (op : BitVec 6) (qp : PredNo) (rg : RegNo) (h : BitVec 4) (xi : RegNo) (off : BitVec 14) : field (wMG op qp rg h xi off) 30 4 = qp := by
  simp (disch := decide) only [wMG, field_hi, field_lo]; exact field_all _

theorem wMG_rg (op : BitVec 6) (qp : PredNo) (rg : RegNo) (h : BitVec 4) (xi : RegNo) (off : BitVec 14) : field (wMG op qp rg h xi off) 24 6 = rg := by
  simp (disch := decide) only [wMG, field_hi, field_lo]; exact field_all _

theorem wMG_h (op : BitVec 6) (qp : PredNo) (rg : RegNo) (h : BitVec 4) (xi : RegNo) (off : BitVec 14) : field (wMG op qp rg h xi off) 20 4 = h := by
  simp (disch := decide) only [wMG, field_hi, field_lo]; exact field_all _

theorem wMG_xi (op : BitVec 6) (qp : PredNo) (rg : RegNo) (h : BitVec 4) (xi : RegNo) (off : BitVec 14) : field (wMG op qp rg h xi off) 14 6 = xi := by
  simp (disch := decide) only [wMG, field_hi, field_lo]; exact field_all _

theorem wMG_low (op : BitVec 6) (qp : PredNo) (rg : RegNo) (h : BitVec 4) (xi : RegNo) (off : BitVec 14) (lo n : Nat) (k : lo + n ≤ 14) : field (wMG op qp rg h xi off) lo n = field off lo n :=
  field_lo _ _ _ _ k

theorem wMG_bit (op : BitVec 6) (qp : PredNo) (rg : RegNo) (h : BitVec 4) (xi : RegNo) (off : BitVec 14) (i : Nat) (k : i < 14) : bitAt (wMG op qp rg h xi off) i = bitAt off i :=
  bit_lo _ _ _ k

theorem wMC_op (op : BitVec 6) (qp : PredNo) (qu : BitVec 2) (d a b fn : BitVec 6) : field (wMC op qp qu d a b fn) 34 6 = op := by
  simp (disch := decide) only [wMC, field_hi]; exact field_all _

theorem wMC_qp (op : BitVec 6) (qp : PredNo) (qu : BitVec 2) (d a b fn : BitVec 6) : field (wMC op qp qu d a b fn) 30 4 = qp := by
  simp (disch := decide) only [wMC, field_hi, field_lo]; exact field_all _

theorem wMC_qu (op : BitVec 6) (qp : PredNo) (qu : BitVec 2) (d a b fn : BitVec 6) : field (wMC op qp qu d a b fn) 28 2 = qu := by
  simp (disch := decide) only [wMC, field_hi, field_lo]; exact field_all _

theorem wMC_d (op : BitVec 6) (qp : PredNo) (qu : BitVec 2) (d a b fn : BitVec 6) : field (wMC op qp qu d a b fn) 22 6 = d := by
  simp (disch := decide) only [wMC, field_hi, field_lo]; exact field_all _

theorem wMC_a (op : BitVec 6) (qp : PredNo) (qu : BitVec 2) (d a b fn : BitVec 6) : field (wMC op qp qu d a b fn) 16 6 = a := by
  simp (disch := decide) only [wMC, field_hi, field_lo]; exact field_all _

theorem wMC_b (op : BitVec 6) (qp : PredNo) (qu : BitVec 2) (d a b fn : BitVec 6) : field (wMC op qp qu d a b fn) 10 6 = b := by
  simp (disch := decide) only [wMC, field_hi, field_lo]; exact field_all _

theorem wMC_fn (op : BitVec 6) (qp : PredNo) (qu : BitVec 2) (d a b fn : BitVec 6) : field (wMC op qp qu d a b fn) 4 6 = fn := by
  simp (disch := decide) only [wMC, field_hi, field_lo]; exact field_all _

theorem wMC_low (op : BitVec 6) (qp : PredNo) (qu : BitVec 2) (d a b fn : BitVec 6) (lo n : Nat) (k : lo + n ≤ 4) : field (wMC op qp qu d a b fn) lo n = field (0#4) lo n :=
  field_lo _ _ _ _ k

theorem wMC_bit (op : BitVec 6) (qp : PredNo) (qu : BitVec 2) (d a b fn : BitVec 6) (i : Nat) (k : i < 4) : bitAt (wMC op qp qu d a b fn) i = bitAt (0#4) i :=
  bit_lo _ _ _ k

theorem wXM_op (op : BitVec 6) (qp : PredNo) (acc : BitVec 3) (asel : BitVec 7) (b : RegNo) (fn : BitVec 10) : field (wXM op qp acc asel b fn) 30 6 = op := by
  simp (disch := decide) only [wXM, field_hi]; exact field_all _

theorem wXM_qp (op : BitVec 6) (qp : PredNo) (acc : BitVec 3) (asel : BitVec 7) (b : RegNo) (fn : BitVec 10) : field (wXM op qp acc asel b fn) 26 4 = qp := by
  simp (disch := decide) only [wXM, field_hi, field_lo]; exact field_all _

theorem wXM_acc (op : BitVec 6) (qp : PredNo) (acc : BitVec 3) (asel : BitVec 7) (b : RegNo) (fn : BitVec 10) : field (wXM op qp acc asel b fn) 23 3 = acc := by
  simp (disch := decide) only [wXM, field_hi, field_lo]; exact field_all _

theorem wXM_asel (op : BitVec 6) (qp : PredNo) (acc : BitVec 3) (asel : BitVec 7) (b : RegNo) (fn : BitVec 10) : field (wXM op qp acc asel b fn) 16 7 = asel := by
  simp (disch := decide) only [wXM, field_hi, field_lo]; exact field_all _

theorem wXM_b (op : BitVec 6) (qp : PredNo) (acc : BitVec 3) (asel : BitVec 7) (b : RegNo) (fn : BitVec 10) : field (wXM op qp acc asel b fn) 10 6 = b := by
  simp (disch := decide) only [wXM, field_hi, field_lo]; exact field_all _

theorem wXM_low (op : BitVec 6) (qp : PredNo) (acc : BitVec 3) (asel : BitVec 7) (b : RegNo) (fn : BitVec 10) (lo n : Nat) (k : lo + n ≤ 10) : field (wXM op qp acc asel b fn) lo n = field fn lo n :=
  field_lo _ _ _ _ k

theorem wXM_bit (op : BitVec 6) (qp : PredNo) (acc : BitVec 3) (asel : BitVec 7) (b : RegNo) (fn : BitVec 10) (i : Nat) (k : i < 10) : bitAt (wXM op qp acc asel b fn) i = bitAt fn i :=
  bit_lo _ _ _ k

theorem wXS_op (op : BitVec 6) (qp : PredNo) (q : BitVec 3) (sig : BitVec 8) (lag : BitVec 15) : field (wXS op qp q sig lag) 30 6 = op := by
  simp (disch := decide) only [wXS, field_hi]; exact field_all _

theorem wXS_qp (op : BitVec 6) (qp : PredNo) (q : BitVec 3) (sig : BitVec 8) (lag : BitVec 15) : field (wXS op qp q sig lag) 26 4 = qp := by
  simp (disch := decide) only [wXS, field_hi, field_lo]; exact field_all _

theorem wXS_q (op : BitVec 6) (qp : PredNo) (q : BitVec 3) (sig : BitVec 8) (lag : BitVec 15) : field (wXS op qp q sig lag) 23 3 = q := by
  simp (disch := decide) only [wXS, field_hi, field_lo]; exact field_all _

theorem wXS_sig (op : BitVec 6) (qp : PredNo) (q : BitVec 3) (sig : BitVec 8) (lag : BitVec 15) : field (wXS op qp q sig lag) 15 8 = sig := by
  simp (disch := decide) only [wXS, field_hi, field_lo]; exact field_all _

theorem wXS_low (op : BitVec 6) (qp : PredNo) (q : BitVec 3) (sig : BitVec 8) (lag : BitVec 15) (lo n : Nat) (k : lo + n ≤ 15) : field (wXS op qp q sig lag) lo n = field lag lo n :=
  field_lo _ _ _ _ k

theorem wXS_bit (op : BitVec 6) (qp : PredNo) (q : BitVec 3) (sig : BitVec 8) (lag : BitVec 15) (i : Nat) (k : i < 15) : bitAt (wXS op qp q sig lag) i = bitAt lag i :=
  bit_lo _ _ _ k

theorem wXR_op (op : BitVec 6) (qp : PredNo) (d a : RegNo) (fn : BitVec 14) : field (wXR op qp d a fn) 30 6 = op := by
  simp (disch := decide) only [wXR, field_hi]; exact field_all _

theorem wXR_qp (op : BitVec 6) (qp : PredNo) (d a : RegNo) (fn : BitVec 14) : field (wXR op qp d a fn) 26 4 = qp := by
  simp (disch := decide) only [wXR, field_hi, field_lo]; exact field_all _

theorem wXR_d (op : BitVec 6) (qp : PredNo) (d a : RegNo) (fn : BitVec 14) : field (wXR op qp d a fn) 20 6 = d := by
  simp (disch := decide) only [wXR, field_hi, field_lo]; exact field_all _

theorem wXR_a (op : BitVec 6) (qp : PredNo) (d a : RegNo) (fn : BitVec 14) : field (wXR op qp d a fn) 14 6 = a := by
  simp (disch := decide) only [wXR, field_hi, field_lo]; exact field_all _

theorem wXR_low (op : BitVec 6) (qp : PredNo) (d a : RegNo) (fn : BitVec 14) (lo n : Nat) (k : lo + n ≤ 14) : field (wXR op qp d a fn) lo n = field fn lo n :=
  field_lo _ _ _ _ k

theorem wXR_bit (op : BitVec 6) (qp : PredNo) (d a : RegNo) (fn : BitVec 14) (i : Nat) (k : i < 14) : bitAt (wXR op qp d a fn) i = bitAt fn i :=
  bit_lo _ _ _ k

theorem wC_op (op : BitVec 5) (arg : BitVec 15) : field (wC op arg) 15 5 = op := by
  simp (disch := decide) only [wC, field_hi]; exact field_all _

theorem wC_low (op : BitVec 5) (arg : BitVec 15) (lo n : Nat) (k : lo + n ≤ 15) : field (wC op arg) lo n = field arg lo n :=
  field_lo _ _ _ _ k

theorem wC_bit (op : BitVec 5) (arg : BitVec 15) (i : Nat) (k : i < 15) : bitAt (wC op arg) i = bitAt arg i :=
  bit_lo _ _ _ k

theorem wSL_zero (op : BitVec 6) (qp : PredNo) : field (wSL op qp 0#6 0#20) 0 26 = 0#26 := by
  rw [wSL, BitVec.append_assoc]; exact field_lo (op ++ qp) (0#6 ++ 0#20) 0 26 (by decide)

theorem wXR_zero (op : BitVec 6) (qp : PredNo) : field (wXR op qp 0#6 0#6 0#14) 0 26 = 0#26 := by
  rw [wXR, BitVec.append_assoc, BitVec.append_assoc]; exact field_lo (op ++ qp) (0#6 ++ (0#6 ++ 0#14)) 0 26 (by decide)

theorem decodeV_vf {v1 : Bool} {w : BitVec 40} {op : BitVec 6} (h : field w 34 6 = op) (h0 : 0 < op.toNat) (h1 : op.toNat ≤ 0x1F) :
    decodeV v1 w = decVF op.toNat w := by
  rw [decodeV, if_neg (nonzero 34 6 h (by rintro rfl; simp at h0)), h]
  dsimp only
  rw [if_neg (by omega), if_pos h1]

theorem decodeV_vi {v1 : Bool} {w : BitVec 40} {op : BitVec 6} (h : field w 34 6 = op) (h0 : 0x1F < op.toNat) (h1 : op.toNat ≤ 0x2F) :
    decodeV v1 w = decVI op.toNat w := by
  rw [decodeV, if_neg (nonzero 34 6 h (by rintro rfl; simp at h0)), h]
  dsimp only
  rw [if_neg (by omega), if_neg (by omega), if_pos h1]

theorem decodeV_k {v1 : Bool} {w : BitVec 40} {op : BitVec 6} (h : field w 34 6 = op) (h0 : op = 0x32#6 ∨ op = 0x33#6) :
    decodeV v1 w = decK op.toNat w := by
  rcases h0 with rfl | rfl <;> rw [decodeV, if_neg (nonzero 34 6 h (by decide)), h] <;> rfl

theorem table_s0 {w : BitVec 36} {i : Instr} (h : decodeS false w = .ok i) : decodeTableWord 256 (inS0 w).toNat = some i := by
  have : decodeBundle (inS0 w) = ⟨false, 0, true, brCode0 w, false, false, false, .nop, .ok i, .nop, .nop, .nop, .nop, .nop⟩ := by
    simp only [decodeBundle, inS0, bit_shift w 28 0 (by omega), field_shift w 28 1 3 (by omega), field_shift w 28 4 4 (by omega),
      field_shift w 28 8 20 (by omega), field_shift_eq w 28 (by omega), field_shift_hi w 28 64 36 (by omega), field_shift_hi w 28 100 40 (by omega), 
      field_shift_hi w 28 140 40 (by omega), field_shift_hi w 28 180 40 (by omega), field_shift_hi w 28 220 36 (by omega), field_shift w 28 23 5 (by omega), field_shift_hi w 28 250 6 (by omega), h]
    rfl
  rw [table_of, this]
  simp [Bundle.clean, Bundle.illegal, Bundle.slots, Bundle.instrs, List.zipIdx]

theorem table_s1 {w : BitVec 36} {i : Instr} (h : decodeS true w = .ok i) : decodeTableWord 256 (inS1 w).toNat = some i := by
  have : decodeBundle (inS1 w) = ⟨false, 0, true, false, brCode1 w, false, false, .nop, .nop, .ok i, .nop, .nop, .nop, .nop⟩ := by
    simp only [decodeBundle, inS1, bit_shift w 64 0 (by omega), field_shift w 64 1 3 (by omega), field_shift w 64 4 4 (by omega),
      field_shift w 64 8 20 (by omega), field_shift w 64 28 36 (by omega), field_shift_eq w 64 (by omega), field_shift_hi w 64 100 40 (by omega), 
      field_shift_hi w 64 140 40 (by omega), field_shift_hi w 64 180 40 (by omega), field_shift_hi w 64 220 36 (by omega), field_shift w 64 23 5 (by omega), field_shift_hi w 64 250 6 (by omega), h]
    rfl
  rw [table_of, this]
  simp [Bundle.clean, Bundle.illegal, Bundle.slots, Bundle.instrs, List.zipIdx]

theorem table_m {w : BitVec 40} {i : Instr} (h : decodeM w = .ok i) : decodeTableWord 256 (inM w).toNat = some i := by
  have : decodeBundle (inM w) = ⟨false, 0, true, false, false, false, false, .nop, .nop, .nop, .ok i, .nop, .nop, .nop⟩ := by
    simp only [decodeBundle, inM, bit_shift w 100 0 (by omega), field_shift w 100 1 3 (by omega), field_shift w 100 4 4 (by omega),
      field_shift w 100 8 20 (by omega), field_shift w 100 28 36 (by omega), field_shift w 100 64 36 (by omega), field_shift_eq w 100 (by omega), 
      field_shift_hi w 100 140 40 (by omega), field_shift_hi w 100 180 40 (by omega), field_shift_hi w 100 220 36 (by omega), field_shift w 100 23 5 (by omega), field_shift_hi w 100 250 6 (by omega), h]
    rfl
  rw [table_of, this]
  simp [Bundle.clean, Bundle.illegal, Bundle.slots, Bundle.instrs, List.zipIdx]

theorem table_v0 {w : BitVec 40} {i : Instr} (h : decodeV false w = .ok i) : decodeTableWord 256 (inV0 w).toNat = some i := by
  have : decodeBundle (inV0 w) = ⟨false, 0, true, false, false, false, false, .nop, .nop, .nop, .nop, .ok i, .nop, .nop⟩ := by
    simp only [decodeBundle, inV0, bit_shift w 140 0 (by omega), field_shift w 140 1 3 (by omega), field_shift w 140 4 4 (by omega),
      field_shift w 140 8 20 (by omega), field_shift w 140 28 36 (by omega), field_shift w 140 64 36 (by omega), field_shift w 140 100 40 (by omega), 
      field_shift_eq w 140 (by omega), field_shift_hi w 140 180 40 (by omega), field_shift_hi w 140 220 36 (by omega), field_shift w 140 23 5 (by omega), field_shift_hi w 140 250 6 (by omega), h]
    rfl
  rw [table_of, this]
  simp [Bundle.clean, Bundle.illegal, Bundle.slots, Bundle.instrs, List.zipIdx]

theorem table_x {w : BitVec 36} {i : Instr} (h : decodeX w = .ok i) : decodeTableWord 256 (inX w).toNat = some i := by
  have : decodeBundle (inX w) = ⟨false, 0, true, false, false, false, (field (inX w) 250 6).toNat == 0x1E, .nop, .nop, .nop, .nop, .nop, .nop, .ok i⟩ := by
    simp only [decodeBundle, inX, bit_shift w 220 0 (by omega), field_shift w 220 1 3 (by omega), field_shift w 220 4 4 (by omega),
      field_shift w 220 8 20 (by omega), field_shift w 220 28 36 (by omega), field_shift w 220 64 36 (by omega), field_shift w 220 100 40 (by omega), 
      field_shift w 220 140 40 (by omega), field_shift w 220 180 40 (by omega), field_shift_eq w 220 (by omega), field_shift w 220 23 5 (by omega), h]
    rfl
  rw [table_of, this]
  simp [Bundle.clean, Bundle.illegal, Bundle.slots, Bundle.instrs, List.zipIdx]

theorem table_c {w : BitVec 20} {i : Instr} (h : decodeC w = .ok i) : decodeTableWord 256 (inC w).toNat = some i := by
  have : decodeBundle (inC w) = ⟨false, 0, true, false, false, (field (inC w) 23 5).toNat == 1, false, .ok i, .nop, .nop, .nop, .nop, .nop, .nop⟩ := by
    simp only [decodeBundle, inC, bit_shift w 8 0 (by omega), field_shift w 8 1 3 (by omega), field_shift w 8 4 4 (by omega),
      field_shift_eq w 8 (by omega), field_shift_hi w 8 28 36 (by omega), field_shift_hi w 8 64 36 (by omega), field_shift_hi w 8 100 40 (by omega), 
      field_shift_hi w 8 140 40 (by omega), field_shift_hi w 8 180 40 (by omega), field_shift_hi w 8 220 36 (by omega), field_shift_hi w 8 250 6 (by omega), h]
    rfl
  rw [table_of, this]
  simp [Bundle.clean, Bundle.illegal, Bundle.slots, Bundle.instrs, List.zipIdx]

end Sys2Proof.Laws
end

