-- ==== Sys2Proof/Laws/Memory.lean ====
section
/-! SUPPORT. Memory: every operation keeps the canonical form (log 1). -/

namespace Sys2Proof.Machine

set_option Elab.async false

theorem Memory.wf_nil : Memory.wf [] := ⟨List.Pairwise.nil, by simp⟩

theorem Memory.wf_filter {m : Memory} (p : Host.Cell → Bool) (h : m.wf) : Memory.wf (m.filter p) :=
  ⟨h.1.filter _, fun c hc => h.2 c (List.mem_of_mem_filter hc)⟩

/-- A canonical list stands before another whose addresses are all higher. -/
theorem Memory.wf_append {m n : Memory} (h : m.wf) (g : n.wf) (l : ∀ a ∈ m, ∀ b ∈ n, a.1 < b.1) : Memory.wf (m ++ n) :=
  ⟨List.pairwise_append.mpr ⟨h.1, g.1, l⟩, fun c hc => (List.mem_append.mp hc).elim (h.2 c) (g.2 c)⟩

theorem Memory.mem_cells {c : Nat × Byte} (bs : List Byte) : ∀ a, c ∈ Memory.cells a bs → a ≤ c.1 ∧ c.1 < a + bs.length ∧ c.2 ≠ 0 := by
  induction bs with
  | nil => intro a h; simp [Memory.cells] at h
  | cons b bs ih =>
    intro a h
    unfold Memory.cells at h
    split at h
    · obtain ⟨h1, h2, h3⟩ := ih _ h
      exact ⟨by omega, by simp only [List.length_cons]; omega, h3⟩
    · rename_i hb
      obtain rfl | h := List.mem_cons.mp h
      · exact ⟨Nat.le_refl _, by simp, hb⟩
      · obtain ⟨h1, h2, h3⟩ := ih _ h
        exact ⟨by omega, by simp only [List.length_cons]; omega, h3⟩

theorem Memory.wf_cells (bs : List Byte) : ∀ a, Memory.wf (Memory.cells a bs) := by
  induction bs with
  | nil => exact fun _ => Memory.wf_nil
  | cons b bs ih =>
    intro a
    unfold Memory.cells
    split
    · exact ih _
    · rename_i hb
      refine ⟨List.pairwise_cons.mpr ⟨fun c hc => ?_, (ih _).1⟩, fun c hc => ?_⟩
      · have := (Memory.mem_cells bs _ hc).1; simp only; omega
      · obtain rfl | hc := List.mem_cons.mp hc
        · exact hb
        · exact (Memory.mem_cells bs _ hc).2.2

/-- A write keeps the canonical form. -/
theorem Memory.wf_write {m : Memory} (h : m.wf) (a : Nat) (bs : List Byte) : (m.write a bs).wf := by
  unfold Memory.write
  refine Memory.wf_append (Memory.wf_append (Memory.wf_filter _ h) (Memory.wf_cells _ _) ?_) (Memory.wf_filter _ h) ?_
  · intro x hx y hy
    have := (Memory.mem_cells bs a hy).1
    simp at hx; omega
  · intro x hx y hy
    have hy : a + bs.length ≤ y.1 := by simpa using (List.mem_filter.mp hy).2
    obtain hx | hx := List.mem_append.mp hx
    · have : x.1 < a := by simpa using (List.mem_filter.mp hx).2
      omega
    · have := (Memory.mem_cells bs a hx).2.1; omega

/-- So does clearing a run of bytes. -/
theorem Memory.wf_clear {m : Memory} (h : m.wf) (a n : Nat) : (m.clear a n).wf := Memory.wf_filter _ h

/-- So does an accumulating write. -/
theorem Memory.wf_accMem {m : Memory} (h : m.wf) (pa : Nat) (op : AccOp) (w64 : Bool) (a cmp : Word) : (accMem m pa op w64 a cmp).wf :=
  Memory.wf_write h _ _

/-- So does moving a page's bytes. -/
theorem Memory.wf_copyTo {m : Memory} (h : m.wf) (old new n : Nat) : (m.copyTo old new n).wf := by
  unfold Memory.copyTo
  have hm : Memory.wf ((m.filter (fun c => old ≤ c.1 && c.1 < old + n)).map (fun c => (c.1 - old + new, c.2))) := by
    refine ⟨List.pairwise_map.mpr ((Memory.wf_filter _ h).1.imp_of_mem fun {x y} hx hy l => ?_), fun c hc => ?_⟩
    · have := (List.mem_filter.mp hx).2; have := (List.mem_filter.mp hy).2; simp at *; omega
    · obtain ⟨x, hx, rfl⟩ := List.mem_map.mp hc
      exact h.2 x (List.mem_of_mem_filter hx)
  refine Memory.wf_append (Memory.wf_append (Memory.wf_filter _ h) hm ?_) (Memory.wf_filter _ h) ?_
  · intro x hx y hy
    obtain ⟨z, -, rfl⟩ := List.mem_map.mp hy
    have : x.1 < new := by simpa using (List.mem_filter.mp hx).2
    simp only; omega
  · intro x hx y hy
    have hy : new + n ≤ y.1 := by simpa using (List.mem_filter.mp hy).2
    obtain hx | hx := List.mem_append.mp hx
    · have : x.1 < new := by simpa using (List.mem_filter.mp hx).2
      omega
    · obtain ⟨z, hz, rfl⟩ := List.mem_map.mp hx
      have := (List.mem_filter.mp hz).2; simp at *; omega

/-- So does a line taken over by a write under another key, and a write of device memory with it (R398). -/
theorem State.wf_sealLine {s : State} (h : s.mem.wf) (key : Option Nat) (line : Nat) : (s.sealLine key line).mem.wf := by
  unfold State.sealLine
  dsimp only
  split
  · split
    · exact h
    · exact Memory.wf_write h _ _
  · split <;> exact h

theorem State.wf_seal {s : State} (h : s.mem.wf) (key : Option Nat) (pa n : Nat) : (s.seal key pa n).mem.wf := by
  unfold State.seal
  induction memLines pa n generalizing s with
  | nil => exact h
  | cons l ls ih => exact ih (State.wf_sealLine h key l)

theorem State.wf_storeAt {s : State} (h : s.mem.wf) (asid va pa : Nat) (bs : List Byte) : (s.storeAt asid va pa bs).mem.wf :=
  Memory.wf_write (State.wf_seal h _ _ _) _ _

/-- The memory a cold reset leaves is canonical. -/
theorem Memory.wf_reset : State.reset.mem.wf := Memory.wf_nil

end Sys2Proof.Machine
end

