-- ==== Sys2Proof/Laws/Ops.lean ====
section
/-! SUPPORT. The shared operations: what each of them can do, said once. -/

namespace Sys2Proof.Machine

set_option Elab.async false

/-! A slot's start (R9, R11, R22). -/

theorem failedOn_none {c : Core} {ds : List PDest} (h : ∀ d ∈ ds, c.pendOn d = none) : c.failedOn ds = none := by
  rw [Core.failedOn, List.findSome?_eq_none_iff]
  intro d hd; simp [h d hd]

/-- An effective slot has its effect. -/
theorem begin_effective {qp : PredNo} {regs : List PDest} {s : State} {k : State → Res} (h : Effective qp regs s) :
    begin qp regs s k = k s := by
  have g : regs.any (fun d => (s.core.pendOn d).isSome) = false := by
    rw [List.any_eq_false]; intro d hd; simp [h.2 d hd]
  simp [begin, failedOn_none h.2, h.1, g]

/-- A false predicate: nothing happens. -/
theorem begin_false {qp : PredNo} {regs : List PDest} {s : State} {k : State → Res} (h : s.core.p qp = false)
    (g : ∀ d ∈ regs, s.core.pendOn d = none) : begin qp regs s k = .next s := by
  have e : regs.any (fun d => (s.core.pendOn d).isSome) = false := by
    rw [List.any_eq_false]; intro d hd; simp [g d hd]
  simp [begin, failedOn_none g, h, e]

/-- A register that is pending, none of them for a failed load: the slot stalls, whatever its predicate. -/
theorem begin_pending {qp : PredNo} {regs : List PDest} {s : State} {k : State → Res} (f : s.core.failedOn regs = none)
    (h : ∃ d ∈ regs, (s.core.pendOn d).isSome) : begin qp regs s k = stall s := by
  have e : regs.any (fun d => (s.core.pendOn d).isSome) = true := by simpa using h
  simp [begin, f, e]

/-- A failed load is reported by the slot that names its destination. -/
theorem begin_failed {qp : PredNo} {regs : List PDest} {s : State} {k : State → Res} {f : FaultRec} (h : s.core.failedOn regs = some f) :
    begin qp regs s k = raise f s := by simp [begin, h]

/-- A start answers a next state if its continuation does. -/
theorem begin_answers {qp : PredNo} {regs : List PDest} {s : State} {k : State → Res} (h : ∃ t, k s = .next t) :
    ∃ t, begin qp regs s k = .next t := by
  unfold begin
  split
  · exact ⟨_, rfl⟩
  · split
    · exact ⟨_, rfl⟩
    · split
      · exact h
      · exact ⟨_, rfl⟩

theorem fault_answers (code : BitVec 8) (s : State) : ∃ t, fault code s = .next t := ⟨_, rfl⟩
theorem faultAt_answers (code : BitVec 8) (cause va : Nat) (wr rb : Bool) (s : State) : ∃ t, faultAt code cause va wr rb s = .next t :=
  ⟨_, rfl⟩
theorem stall_answers (s : State) : ∃ t, stall s = .next t := ⟨_, rfl⟩

theorem check_answers {ok : Bool} {code : BitVec 8} {s : State} {k : Res} (h : ∃ t, k = .next t) : ∃ t, check ok code s k = .next t := by
  unfold check; split
  · exact h
  · exact ⟨_, rfl⟩

/-! Vector sources and masked writes (R14, R124 to R126, R157). -/

theorem useSrc_val {a : Src} {s : State} {v : VReg} {k : VReg → Res} (h : s.core.vsrc a = .val v) : useSrc a s k = k v := by
  simp [useSrc, h]

theorem useSrc_answers {a : Src} {s : State} {k : VReg → Res} (h : ∀ v, ∃ t, k v = .next t) : ∃ t, useSrc a s k = .next t := by
  unfold useSrc; split
  · exact h _
  · exact ⟨_, rfl⟩
  · exact ⟨_, rfl⟩

/-- A masked write whose tag is taken sends its blend. -/
theorem writeMasked_takes {km : BitVec 3} {d : RegNo} {b : VBits} {t : Tag} {p : Bool} {lat : Nat} {s : State}
    (h : s.core.takesTag km d t) : writeMasked km d b t p lat s = .next (s.sendsMasked km d b t p lat) := by
  unfold writeMasked State.sendsMasked
  obtain h | h | h := h
  · simp [h, writeV, ok, State.sendsV, State.sends]
  · simp only [h]; split <;> simp [writeV, ok, State.sendsV, State.sends]
  · simp only [h]; split <;> simp [writeV, ok, State.sendsV, State.sends]

theorem writeMasked_answers {km : BitVec 3} {d : RegNo} {b : VBits} {t : Tag} {p : Bool} {lat : Nat} {s : State} :
    ∃ u, writeMasked km d b t p lat s = .next u := by
  unfold writeMasked; dsimp only; split
  · exact ⟨_, rfl⟩
  · split <;> exact ⟨_, rfl⟩

/-! Closing a region (R32). -/

theorem closing_closes {s t : State} {k : State → Res} (h : s.Closes t) : closing s k = k t := by
  obtain ⟨h1, h2, u, h3, rfl⟩ := h
  have g : (s.mapCore (fun c => { c with ctl := { c.ctl with passed := true } })).openGate = .ok u := h3
  have e : (s.mapCore (fun c => { c with ctl := { c.ctl with passed := true } })).core.failedLoad = none := h2
  unfold closing
  rw [if_neg (by simp [h1])]
  dsimp only
  rw [e]; dsimp only; rw [g]

/-- In a handler a region-closing instruction is illegal (R343). -/
theorem notInHandler_outside {s : State} {k : State → Res} (h : s.core.sys.intrap = false) : notInHandler s k = k s := by
  simp [notInHandler, h]

theorem beginClosing_effective {qp : PredNo} {regs : List PDest} {s : State} {k : State → Res} (h : Effective qp regs s)
    (g : s.core.sys.intrap = false) : beginClosing qp regs s k = k s := by
  rw [beginClosing, begin_effective h, notInHandler_outside g]

theorem State.Closes.outside {s t : State} (h : s.Closes t) : s.core.sys.intrap = false := h.1

theorem closing_answers {s : State} {k : State → Res} (h : ∀ u, ∃ t, k u = .next t) : ∃ t, closing s k = .next t := by
  unfold closing
  split
  · exact ⟨_, rfl⟩
  · dsimp only
    split
    · exact ⟨_, rfl⟩
    · split
      · exact ⟨_, rfl⟩
      · exact ⟨_, rfl⟩
      · exact h _

theorem performGate_gate (gs : List GateEnt) : ∀ s t : State, s.performGate gs = .ok t → t.core.rg.gate = [] := by
  induction gs with
  | nil => intro s t h; cases h; rfl
  | cons g gs ih =>
    intro s t h
    simp only [State.performGate] at h
    split at h
    · exact ih _ _ h
    · cases h

/-- A gate that is released is empty. -/
theorem openGate_gate {s t : State} (h : s.openGate = .ok t) : t.core.rg.gate = [] := by
  unfold State.openGate at h
  dsimp only at h
  split at h
  · exact performGate_gate _ _ _ h
  · rename_i h2; exact absurd h (h2 _)

/-! Access tags (R278, R280): they touch no register and no memory. -/

/-- What the tagging of accesses leaves of a package: all but the tags. -/
structure State.SameButTags (s t : State) : Prop where
  core : t.core = s.core
  mem : t.mem = s.mem
  sealed : t.sealed = s.sealed
  others : t.others = s.others
  ctxs : t.ctxs = s.ctxs
  disp : t.disp = s.disp

theorem State.SameButTags.refl (s : State) : s.SameButTags s := ⟨rfl, rfl, rfl, rfl, rfl, rfl⟩

theorem State.SameButTags.trans {s t u : State} (h : s.SameButTags t) (g : t.SameButTags u) : s.SameButTags u :=
  ⟨g.core.trans h.core, g.mem.trans h.mem, g.sealed.trans h.sealed, g.others.trans h.others, g.ctxs.trans h.ctxs, g.disp.trans h.disp⟩

theorem tagLine_frame (s : State) (rid l : Nat) (k : AccKind) : s.SameButTags (s.tagLine rid l k) := by
  unfold State.tagLine; dsimp only; split <;> exact ⟨rfl, rfl, rfl, rfl, rfl, rfl⟩

theorem tagLines_frame (ls : List Nat) (rid : Nat) (k : AccKind) : ∀ s : State,
    s.SameButTags (ls.foldl (fun s l => s.tagLine rid l k) s) := by
  induction ls with
  | nil => exact .refl
  | cons a l ih => exact fun s => (tagLine_frame s rid a k).trans (ih _)

theorem tagAccess_frame {s t : State} {rid : Nat} {l : List Nat} {k : AccKind} (h : s.tagAccess rid l k = .ok t) : s.SameButTags t := by
  unfold State.tagAccess at h
  split at h
  · cases h; exact .refl s
  · split at h
    · cases h
    · split at h
      · cases h
      · cases h; exact tagLines_frame l rid k s

/-- An access tagged for the unit may open its region, which its lead's core names: nothing else of any core changes. -/
theorem unitTag_frame {s t : State} {l : List Nat} {k : AccKind} (h : s.unitTag l k = .ok t) :
    s.SameButTags t ∨ ∃ i, (s.modCore s.core.lead (fun c => { c with rg := { c.rg with id := i } })).SameButTags t := by
  unfold State.unitTag State.unitRegion at h
  split at h
  rename_i u id heq
  split at heq
  · cases heq; exact .inl (tagAccess_frame h)
  · dsimp only at heq
    split at heq
    · cases heq; exact .inl (tagAccess_frame h)
    · cases heq
      refine .inr ⟨s.nextRegion, .trans ?_ (tagAccess_frame h)⟩
      unfold State.openRegion
      dsimp only
      unfold State.modCore State.putCore
      refine ⟨?_, ?_, ?_, ?_, ?_, ?_⟩ <;> (dsimp only; split <;> split <;> simp_all [State.coreOf])

/-! Undo records (R31). -/

/-- With room for a record the store goes on, one record more counted outside a handler. -/
theorem withUndo_room {s : State} {k : State → Res} (h : s.core.sys.intrap = true ∨ s.core.rg.undoCount < 96) :
    withUndo s k = k (if s.core.sys.intrap = true then s
      else s.mapCore (fun c => { c with rg := { c.rg with undoCount := c.rg.undoCount + 1 } })) := by
  unfold withUndo
  obtain h | h := h
  · simp [h]
  · split
    · rfl
    · rw [if_neg (by omega)]

/-- Without room the unit overflows. -/
theorem withUndo_full {s : State} {k : State → Res} (h : s.core.sys.intrap = false) (g : 96 ≤ s.core.rg.undoCount) :
    withUndo s k = fault gateOverflow s := by simp [withUndo, h, g]

/-! Engine commands (R233). -/

theorem engineOp_effective {qp : PredNo} {xs : List RegNo} {s : State} {k : State → Res} (h : Effective qp (xs.map .x) s)
    (p : ∀ x ∈ xs, s.core.xp x = false) : engineOp qp xs s k = k s := by
  have g : xs.any s.core.xp = false := by rw [List.any_eq_false]; intro x hx; simp [p x hx]
  rw [engineOp, begin_effective h, g]; rfl

/-! Bytes (R6). -/

theorem length_bytesOfNat (n : Nat) : ∀ x, (bytesOfNat x n).length = n := by
  induction n with
  | zero => intro x; rfl
  | succ n ih => intro x; simp [bytesOfNat, ih]

@[simp] theorem length_bytesOf {w : Nat} (v : BitVec w) (n : Nat) : (bytesOf v n).length = n := length_bytesOfNat n _

/-! Addresses of bed accesses (R220). -/

/-- Only accesses by way of x2 are subject to the stack's rules. -/
theorem bedAddr_plain {c : Core} {base : RegNo} {add : Int} {n : Nat} {w : Bool} (h : base ≠ 2) :
    bedAddr c base add n w = bedPlain c (((c.x base).toNat : Int) + add) n w := by
  unfold bedAddr; dsimp only; rw [if_neg]; simp only [Bool.and_eq_true, decide_eq_true_eq]; exact fun g => h g.1.1.1

end Sys2Proof.Machine
end

