-- ==== Sys2Proof/Laws/PerInstr.lean ====
section
/-! SUPPORT. EncodeDecode, instruction by instruction: the bundle that holds a well-formed instruction decodes to it (R68 to R84). An event has
no encoding. -/

set_option linter.unusedSimpArgs false
set_option linter.unreachableTactic false
set_option linter.unusedTactic false

namespace Sys2Proof.Laws.EncodeDecode

set_option Elab.async false

open Sys2Proof Sys2Proof.Machine Sys2Proof.Laws

/-- The bundle that holds the instruction alone decodes to it. -/
def Statement (i : Instr) : Prop := i.wellFormed = true → ∀ w, encode i = some w → decodeTableWord 256 w.toNat = some i

theorem iadd (o : SR) : Statement (.iadd o) := by
  intro h w e
  obtain rfl := Option.some.inj e
  refine table_s0 ?_
  rw [decodeS, if_neg (nonzero 30 6 (wSR_op ..) (by decide)), wSR_op]
  refine Eq.trans (b := decAlu _ _ ) rfl ?_
  simp (disch := decide) only [decAlu, need, decAccw, fnVF, fnVI, fnAcc, wSR_op, wSR_qp, wSR_d, wSR_a, wSR_b, wSR_low, wSR_bit,
    field_hi, field_lo, field_all, bit_hi, bit_lo, bit_bit, bit_zero, field_bit, Nat.reduceSub, srcOf_bits, srcOk_bits]
  first | rfl | simp_all [need, Instr.wellFormed]

theorem isub (o : SR) : Statement (.isub o) := by
  intro h w e
  obtain rfl := Option.some.inj e
  refine table_s0 ?_
  rw [decodeS, if_neg (nonzero 30 6 (wSR_op ..) (by decide)), wSR_op]
  refine Eq.trans (b := decAlu _ _ ) rfl ?_
  simp (disch := decide) only [decAlu, need, decAccw, fnVF, fnVI, fnAcc, wSR_op, wSR_qp, wSR_d, wSR_a, wSR_b, wSR_low, wSR_bit,
    field_hi, field_lo, field_all, bit_hi, bit_lo, bit_bit, bit_zero, field_bit, Nat.reduceSub, srcOf_bits, srcOk_bits]
  first | rfl | simp_all [need, Instr.wellFormed]

theorem andR (o : SR) : Statement (.andR o) := by
  intro h w e
  obtain rfl := Option.some.inj e
  refine table_s0 ?_
  rw [decodeS, if_neg (nonzero 30 6 (wSR_op ..) (by decide)), wSR_op]
  refine Eq.trans (b := decAlu _ _ ) rfl ?_
  simp (disch := decide) only [decAlu, need, decAccw, fnVF, fnVI, fnAcc, wSR_op, wSR_qp, wSR_d, wSR_a, wSR_b, wSR_low, wSR_bit,
    field_hi, field_lo, field_all, bit_hi, bit_lo, bit_bit, bit_zero, field_bit, Nat.reduceSub, srcOf_bits, srcOk_bits]
  first | rfl | simp_all [need, Instr.wellFormed]

theorem orR (o : SR) : Statement (.orR o) := by
  intro h w e
  obtain rfl := Option.some.inj e
  refine table_s0 ?_
  rw [decodeS, if_neg (nonzero 30 6 (wSR_op ..) (by decide)), wSR_op]
  refine Eq.trans (b := decAlu _ _ ) rfl ?_
  simp (disch := decide) only [decAlu, need, decAccw, fnVF, fnVI, fnAcc, wSR_op, wSR_qp, wSR_d, wSR_a, wSR_b, wSR_low, wSR_bit,
    field_hi, field_lo, field_all, bit_hi, bit_lo, bit_bit, bit_zero, field_bit, Nat.reduceSub, srcOf_bits, srcOk_bits]
  first | rfl | simp_all [need, Instr.wellFormed]

theorem xor (o : SR) : Statement (.xor o) := by
  intro h w e
  obtain rfl := Option.some.inj e
  refine table_s0 ?_
  rw [decodeS, if_neg (nonzero 30 6 (wSR_op ..) (by decide)), wSR_op]
  refine Eq.trans (b := decAlu _ _ ) rfl ?_
  simp (disch := decide) only [decAlu, need, decAccw, fnVF, fnVI, fnAcc, wSR_op, wSR_qp, wSR_d, wSR_a, wSR_b, wSR_low, wSR_bit,
    field_hi, field_lo, field_all, bit_hi, bit_lo, bit_bit, bit_zero, field_bit, Nat.reduceSub, srcOf_bits, srcOk_bits]
  first | rfl | simp_all [need, Instr.wellFormed]

theorem andn (o : SR) : Statement (.andn o) := by
  intro h w e
  obtain rfl := Option.some.inj e
  refine table_s0 ?_
  rw [decodeS, if_neg (nonzero 30 6 (wSR_op ..) (by decide)), wSR_op]
  refine Eq.trans (b := decAlu _ _ ) rfl ?_
  simp (disch := decide) only [decAlu, need, decAccw, fnVF, fnVI, fnAcc, wSR_op, wSR_qp, wSR_d, wSR_a, wSR_b, wSR_low, wSR_bit,
    field_hi, field_lo, field_all, bit_hi, bit_lo, bit_bit, bit_zero, field_bit, Nat.reduceSub, srcOf_bits, srcOk_bits]
  first | rfl | simp_all [need, Instr.wellFormed]

theorem orn (o : SR) : Statement (.orn o) := by
  intro h w e
  obtain rfl := Option.some.inj e
  refine table_s0 ?_
  rw [decodeS, if_neg (nonzero 30 6 (wSR_op ..) (by decide)), wSR_op]
  refine Eq.trans (b := decAlu _ _ ) rfl ?_
  simp (disch := decide) only [decAlu, need, decAccw, fnVF, fnVI, fnAcc, wSR_op, wSR_qp, wSR_d, wSR_a, wSR_b, wSR_low, wSR_bit,
    field_hi, field_lo, field_all, bit_hi, bit_lo, bit_bit, bit_zero, field_bit, Nat.reduceSub, srcOf_bits, srcOk_bits]
  first | rfl | simp_all [need, Instr.wellFormed]

theorem shl (o : SR) : Statement (.shl o) := by
  intro h w e
  obtain rfl := Option.some.inj e
  refine table_s0 ?_
  rw [decodeS, if_neg (nonzero 30 6 (wSR_op ..) (by decide)), wSR_op]
  refine Eq.trans (b := decAlu _ _ ) rfl ?_
  simp (disch := decide) only [decAlu, need, decAccw, fnVF, fnVI, fnAcc, wSR_op, wSR_qp, wSR_d, wSR_a, wSR_b, wSR_low, wSR_bit,
    field_hi, field_lo, field_all, bit_hi, bit_lo, bit_bit, bit_zero, field_bit, Nat.reduceSub, srcOf_bits, srcOk_bits]
  first | rfl | simp_all [need, Instr.wellFormed]

theorem shr (o : SR) : Statement (.shr o) := by
  intro h w e
  obtain rfl := Option.some.inj e
  refine table_s0 ?_
  rw [decodeS, if_neg (nonzero 30 6 (wSR_op ..) (by decide)), wSR_op]
  refine Eq.trans (b := decAlu _ _ ) rfl ?_
  simp (disch := decide) only [decAlu, need, decAccw, fnVF, fnVI, fnAcc, wSR_op, wSR_qp, wSR_d, wSR_a, wSR_b, wSR_low, wSR_bit,
    field_hi, field_lo, field_all, bit_hi, bit_lo, bit_bit, bit_zero, field_bit, Nat.reduceSub, srcOf_bits, srcOk_bits]
  first | rfl | simp_all [need, Instr.wellFormed]

theorem sar (o : SR) : Statement (.sar o) := by
  intro h w e
  obtain rfl := Option.some.inj e
  refine table_s0 ?_
  rw [decodeS, if_neg (nonzero 30 6 (wSR_op ..) (by decide)), wSR_op]
  refine Eq.trans (b := decAlu _ _ ) rfl ?_
  simp (disch := decide) only [decAlu, need, decAccw, fnVF, fnVI, fnAcc, wSR_op, wSR_qp, wSR_d, wSR_a, wSR_b, wSR_low, wSR_bit,
    field_hi, field_lo, field_all, bit_hi, bit_lo, bit_bit, bit_zero, field_bit, Nat.reduceSub, srcOf_bits, srcOk_bits]
  first | rfl | simp_all [need, Instr.wellFormed]

theorem ror (o : SR) : Statement (.ror o) := by
  intro h w e
  obtain rfl := Option.some.inj e
  refine table_s0 ?_
  rw [decodeS, if_neg (nonzero 30 6 (wSR_op ..) (by decide)), wSR_op]
  refine Eq.trans (b := decAlu _ _ ) rfl ?_
  simp (disch := decide) only [decAlu, need, decAccw, fnVF, fnVI, fnAcc, wSR_op, wSR_qp, wSR_d, wSR_a, wSR_b, wSR_low, wSR_bit,
    field_hi, field_lo, field_all, bit_hi, bit_lo, bit_bit, bit_zero, field_bit, Nat.reduceSub, srcOf_bits, srcOk_bits]
  first | rfl | simp_all [need, Instr.wellFormed]

theorem imin (o : SR) : Statement (.imin o) := by
  intro h w e
  obtain rfl := Option.some.inj e
  refine table_s0 ?_
  rw [decodeS, if_neg (nonzero 30 6 (wSR_op ..) (by decide)), wSR_op]
  refine Eq.trans (b := decAlu _ _ ) rfl ?_
  simp (disch := decide) only [decAlu, need, decAccw, fnVF, fnVI, fnAcc, wSR_op, wSR_qp, wSR_d, wSR_a, wSR_b, wSR_low, wSR_bit,
    field_hi, field_lo, field_all, bit_hi, bit_lo, bit_bit, bit_zero, field_bit, Nat.reduceSub, srcOf_bits, srcOk_bits]
  first | rfl | simp_all [need, Instr.wellFormed]

theorem imax (o : SR) : Statement (.imax o) := by
  intro h w e
  obtain rfl := Option.some.inj e
  refine table_s0 ?_
  rw [decodeS, if_neg (nonzero 30 6 (wSR_op ..) (by decide)), wSR_op]
  refine Eq.trans (b := decAlu _ _ ) rfl ?_
  simp (disch := decide) only [decAlu, need, decAccw, fnVF, fnVI, fnAcc, wSR_op, wSR_qp, wSR_d, wSR_a, wSR_b, wSR_low, wSR_bit,
    field_hi, field_lo, field_all, bit_hi, bit_lo, bit_bit, bit_zero, field_bit, Nat.reduceSub, srcOf_bits, srcOk_bits]
  first | rfl | simp_all [need, Instr.wellFormed]

theorem iminz (o : SR) : Statement (.iminz o) := by
  intro h w e
  obtain rfl := Option.some.inj e
  refine table_s0 ?_
  rw [decodeS, if_neg (nonzero 30 6 (wSR_op ..) (by decide)), wSR_op]
  refine Eq.trans (b := decAlu _ _ ) rfl ?_
  simp (disch := decide) only [decAlu, need, decAccw, fnVF, fnVI, fnAcc, wSR_op, wSR_qp, wSR_d, wSR_a, wSR_b, wSR_low, wSR_bit,
    field_hi, field_lo, field_all, bit_hi, bit_lo, bit_bit, bit_zero, field_bit, Nat.reduceSub, srcOf_bits, srcOk_bits]
  first | rfl | simp_all [need, Instr.wellFormed]

theorem imaxz (o : SR) : Statement (.imaxz o) := by
  intro h w e
  obtain rfl := Option.some.inj e
  refine table_s0 ?_
  rw [decodeS, if_neg (nonzero 30 6 (wSR_op ..) (by decide)), wSR_op]
  refine Eq.trans (b := decAlu _ _ ) rfl ?_
  simp (disch := decide) only [decAlu, need, decAccw, fnVF, fnVI, fnAcc, wSR_op, wSR_qp, wSR_d, wSR_a, wSR_b, wSR_low, wSR_bit,
    field_hi, field_lo, field_all, bit_hi, bit_lo, bit_bit, bit_zero, field_bit, Nat.reduceSub, srcOf_bits, srcOk_bits]
  first | rfl | simp_all [need, Instr.wellFormed]

theorem iaddi (o : SI) : Statement (.iaddi o) := by
  intro h w e
  obtain rfl := Option.some.inj e
  refine table_s0 ?_
  rw [decodeS, if_neg (nonzero 30 6 (wSI_op ..) (by decide)), wSI_op]
  refine Eq.trans (b := SlotDec.ok (Instr.iaddi _)) rfl ?_
  simp (disch := decide) only [wSI_op, wSI_qp, wSI_d, wSI_a, wSI_low, wSI_bit, field_hi, field_lo, field_all, bit_hi, bit_lo,
    bit_bit, bit_zero, field_bit, Nat.reduceSub, srcOf_bits, srcOk_bits]

theorem andi (o : SI) : Statement (.andi o) := by
  intro h w e
  obtain rfl := Option.some.inj e
  refine table_s0 ?_
  rw [decodeS, if_neg (nonzero 30 6 (wSI_op ..) (by decide)), wSI_op]
  refine Eq.trans (b := SlotDec.ok (Instr.andi _)) rfl ?_
  simp (disch := decide) only [wSI_op, wSI_qp, wSI_d, wSI_a, wSI_low, wSI_bit, field_hi, field_lo, field_all, bit_hi, bit_lo,
    bit_bit, bit_zero, field_bit, Nat.reduceSub, srcOf_bits, srcOk_bits]

theorem ori (o : SI) : Statement (.ori o) := by
  intro h w e
  obtain rfl := Option.some.inj e
  refine table_s0 ?_
  rw [decodeS, if_neg (nonzero 30 6 (wSI_op ..) (by decide)), wSI_op]
  refine Eq.trans (b := SlotDec.ok (Instr.ori _)) rfl ?_
  simp (disch := decide) only [wSI_op, wSI_qp, wSI_d, wSI_a, wSI_low, wSI_bit, field_hi, field_lo, field_all, bit_hi, bit_lo,
    bit_bit, bit_zero, field_bit, Nat.reduceSub, srcOf_bits, srcOk_bits]

theorem xori (o : SI) : Statement (.xori o) := by
  intro h w e
  obtain rfl := Option.some.inj e
  refine table_s0 ?_
  rw [decodeS, if_neg (nonzero 30 6 (wSI_op ..) (by decide)), wSI_op]
  refine Eq.trans (b := SlotDec.ok (Instr.xori _)) rfl ?_
  simp (disch := decide) only [wSI_op, wSI_qp, wSI_d, wSI_a, wSI_low, wSI_bit, field_hi, field_lo, field_all, bit_hi, bit_lo,
    bit_bit, bit_zero, field_bit, Nat.reduceSub, srcOf_bits, srcOk_bits]

theorem shli (o : SShI) : Statement (.shli o) := by
  intro h w e
  obtain rfl := Option.some.inj e
  refine table_s0 ?_
  rw [decodeS, if_neg (nonzero 30 6 (wSI_op ..) (by decide)), wSI_op]
  refine Eq.trans (b := need _ (Instr.shli _)) rfl ?_
  simp (disch := decide) only [wSI_op, wSI_qp, wSI_d, wSI_a, wSI_low, wSI_bit, field_hi, field_lo, field_all, bit_hi, bit_lo,
    bit_bit, bit_zero, field_bit, Nat.reduceSub, srcOf_bits, srcOk_bits]
  first | exact if_pos h | exact if_pos rfl | simp_all [need, Instr.wellFormed]

theorem shri (o : SShI) : Statement (.shri o) := by
  intro h w e
  obtain rfl := Option.some.inj e
  refine table_s0 ?_
  rw [decodeS, if_neg (nonzero 30 6 (wSI_op ..) (by decide)), wSI_op]
  refine Eq.trans (b := need _ (Instr.shri _)) rfl ?_
  simp (disch := decide) only [wSI_op, wSI_qp, wSI_d, wSI_a, wSI_low, wSI_bit, field_hi, field_lo, field_all, bit_hi, bit_lo,
    bit_bit, bit_zero, field_bit, Nat.reduceSub, srcOf_bits, srcOk_bits]
  first | exact if_pos h | exact if_pos rfl | simp_all [need, Instr.wellFormed]

theorem sari (o : SShI) : Statement (.sari o) := by
  intro h w e
  obtain rfl := Option.some.inj e
  refine table_s0 ?_
  rw [decodeS, if_neg (nonzero 30 6 (wSI_op ..) (by decide)), wSI_op]
  refine Eq.trans (b := need _ (Instr.sari _)) rfl ?_
  simp (disch := decide) only [wSI_op, wSI_qp, wSI_d, wSI_a, wSI_low, wSI_bit, field_hi, field_lo, field_all, bit_hi, bit_lo,
    bit_bit, bit_zero, field_bit, Nat.reduceSub, srcOf_bits, srcOk_bits]
  first | exact if_pos h | exact if_pos rfl | simp_all [need, Instr.wellFormed]

theorem rori (o : SShI) : Statement (.rori o) := by
  intro h w e
  obtain rfl := Option.some.inj e
  refine table_s0 ?_
  rw [decodeS, if_neg (nonzero 30 6 (wSI_op ..) (by decide)), wSI_op]
  refine Eq.trans (b := need _ (Instr.rori _)) rfl ?_
  simp (disch := decide) only [wSI_op, wSI_qp, wSI_d, wSI_a, wSI_low, wSI_bit, field_hi, field_lo, field_all, bit_hi, bit_lo,
    bit_bit, bit_zero, field_bit, Nat.reduceSub, srcOf_bits, srcOk_bits]
  first | exact if_pos h | exact if_pos rfl | simp_all [need, Instr.wellFormed]

theorem imul (o : SR) : Statement (.imul o) := by
  intro h w e
  obtain rfl := Option.some.inj e
  refine table_s0 ?_
  rw [decodeS, if_neg (nonzero 30 6 (wSR_op ..) (by decide)), wSR_op]
  refine Eq.trans (b := decMul _ _ ) rfl ?_
  simp (disch := decide) only [decMul, need, decAccw, fnVF, fnVI, fnAcc, wSR_op, wSR_qp, wSR_d, wSR_a, wSR_b, wSR_low, wSR_bit,
    field_hi, field_lo, field_all, bit_hi, bit_lo, bit_bit, bit_zero, field_bit, Nat.reduceSub, srcOf_bits, srcOk_bits]
  first | rfl | simp_all [need, Instr.wellFormed]

theorem imulh (o : SR) : Statement (.imulh o) := by
  intro h w e
  obtain rfl := Option.some.inj e
  refine table_s0 ?_
  rw [decodeS, if_neg (nonzero 30 6 (wSR_op ..) (by decide)), wSR_op]
  refine Eq.trans (b := decMul _ _ ) rfl ?_
  simp (disch := decide) only [decMul, need, decAccw, fnVF, fnVI, fnAcc, wSR_op, wSR_qp, wSR_d, wSR_a, wSR_b, wSR_low, wSR_bit,
    field_hi, field_lo, field_all, bit_hi, bit_lo, bit_bit, bit_zero, field_bit, Nat.reduceSub, srcOf_bits, srcOk_bits]
  first | rfl | simp_all [need, Instr.wellFormed]

theorem imulhz (o : SR) : Statement (.imulhz o) := by
  intro h w e
  obtain rfl := Option.some.inj e
  refine table_s0 ?_
  rw [decodeS, if_neg (nonzero 30 6 (wSR_op ..) (by decide)), wSR_op]
  refine Eq.trans (b := decMul _ _ ) rfl ?_
  simp (disch := decide) only [decMul, need, decAccw, fnVF, fnVI, fnAcc, wSR_op, wSR_qp, wSR_d, wSR_a, wSR_b, wSR_low, wSR_bit,
    field_hi, field_lo, field_all, bit_hi, bit_lo, bit_bit, bit_zero, field_bit, Nat.reduceSub, srcOf_bits, srcOk_bits]
  first | rfl | simp_all [need, Instr.wellFormed]

theorem idiv (o : SR) : Statement (.idiv o) := by
  intro h w e
  obtain rfl := Option.some.inj e
  refine table_s0 ?_
  rw [decodeS, if_neg (nonzero 30 6 (wSR_op ..) (by decide)), wSR_op]
  refine Eq.trans (b := decMul _ _ ) rfl ?_
  simp (disch := decide) only [decMul, need, decAccw, fnVF, fnVI, fnAcc, wSR_op, wSR_qp, wSR_d, wSR_a, wSR_b, wSR_low, wSR_bit,
    field_hi, field_lo, field_all, bit_hi, bit_lo, bit_bit, bit_zero, field_bit, Nat.reduceSub, srcOf_bits, srcOk_bits]
  first | rfl | simp_all [need, Instr.wellFormed]

theorem idivz (o : SR) : Statement (.idivz o) := by
  intro h w e
  obtain rfl := Option.some.inj e
  refine table_s0 ?_
  rw [decodeS, if_neg (nonzero 30 6 (wSR_op ..) (by decide)), wSR_op]
  refine Eq.trans (b := decMul _ _ ) rfl ?_
  simp (disch := decide) only [decMul, need, decAccw, fnVF, fnVI, fnAcc, wSR_op, wSR_qp, wSR_d, wSR_a, wSR_b, wSR_low, wSR_bit,
    field_hi, field_lo, field_all, bit_hi, bit_lo, bit_bit, bit_zero, field_bit, Nat.reduceSub, srcOf_bits, srcOk_bits]
  first | rfl | simp_all [need, Instr.wellFormed]

theorem irem (o : SR) : Statement (.irem o) := by
  intro h w e
  obtain rfl := Option.some.inj e
  refine table_s0 ?_
  rw [decodeS, if_neg (nonzero 30 6 (wSR_op ..) (by decide)), wSR_op]
  refine Eq.trans (b := decMul _ _ ) rfl ?_
  simp (disch := decide) only [decMul, need, decAccw, fnVF, fnVI, fnAcc, wSR_op, wSR_qp, wSR_d, wSR_a, wSR_b, wSR_low, wSR_bit,
    field_hi, field_lo, field_all, bit_hi, bit_lo, bit_bit, bit_zero, field_bit, Nat.reduceSub, srcOf_bits, srcOk_bits]
  first | rfl | simp_all [need, Instr.wellFormed]

theorem iremz (o : SR) : Statement (.iremz o) := by
  intro h w e
  obtain rfl := Option.some.inj e
  refine table_s0 ?_
  rw [decodeS, if_neg (nonzero 30 6 (wSR_op ..) (by decide)), wSR_op]
  refine Eq.trans (b := decMul _ _ ) rfl ?_
  simp (disch := decide) only [decMul, need, decAccw, fnVF, fnVI, fnAcc, wSR_op, wSR_qp, wSR_d, wSR_a, wSR_b, wSR_low, wSR_bit,
    field_hi, field_lo, field_all, bit_hi, bit_lo, bit_bit, bit_zero, field_bit, Nat.reduceSub, srcOf_bits, srcOk_bits]
  first | rfl | simp_all [need, Instr.wellFormed]

theorem imuli (o : SI) : Statement (.imuli o) := by
  intro h w e
  obtain rfl := Option.some.inj e
  refine table_s0 ?_
  rw [decodeS, if_neg (nonzero 30 6 (wSI_op ..) (by decide)), wSI_op]
  refine Eq.trans (b := SlotDec.ok (Instr.imuli _)) rfl ?_
  simp (disch := decide) only [wSI_op, wSI_qp, wSI_d, wSI_a, wSI_low, wSI_bit, field_hi, field_lo, field_all, bit_hi, bit_lo,
    bit_bit, bit_zero, field_bit, Nat.reduceSub, srcOf_bits, srcOk_bits]

theorem clz (o : SU) : Statement (.clz o) := by
  intro h w e
  obtain rfl := Option.some.inj e
  refine table_s0 ?_
  rw [decodeS, if_neg (nonzero 30 6 (wSR_op ..) (by decide)), wSR_op]
  refine Eq.trans (b := decUnary _ _ _ ) rfl ?_
  simp (disch := decide) only [decUnary, need, decAccw, fnVF, fnVI, fnAcc, wSR_op, wSR_qp, wSR_d, wSR_a, wSR_b, wSR_low, wSR_bit,
    field_hi, field_lo, field_all, bit_hi, bit_lo, bit_bit, bit_zero, field_bit, Nat.reduceSub, srcOf_bits, srcOk_bits]
  first | rfl | simp_all [need, Instr.wellFormed]

theorem ctz (o : SU) : Statement (.ctz o) := by
  intro h w e
  obtain rfl := Option.some.inj e
  refine table_s0 ?_
  rw [decodeS, if_neg (nonzero 30 6 (wSR_op ..) (by decide)), wSR_op]
  refine Eq.trans (b := decUnary _ _ _ ) rfl ?_
  simp (disch := decide) only [decUnary, need, decAccw, fnVF, fnVI, fnAcc, wSR_op, wSR_qp, wSR_d, wSR_a, wSR_b, wSR_low, wSR_bit,
    field_hi, field_lo, field_all, bit_hi, bit_lo, bit_bit, bit_zero, field_bit, Nat.reduceSub, srcOf_bits, srcOk_bits]
  first | rfl | simp_all [need, Instr.wellFormed]

theorem popc (o : SU) : Statement (.popc o) := by
  intro h w e
  obtain rfl := Option.some.inj e
  refine table_s0 ?_
  rw [decodeS, if_neg (nonzero 30 6 (wSR_op ..) (by decide)), wSR_op]
  refine Eq.trans (b := decUnary _ _ _ ) rfl ?_
  simp (disch := decide) only [decUnary, need, decAccw, fnVF, fnVI, fnAcc, wSR_op, wSR_qp, wSR_d, wSR_a, wSR_b, wSR_low, wSR_bit,
    field_hi, field_lo, field_all, bit_hi, bit_lo, bit_bit, bit_zero, field_bit, Nat.reduceSub, srcOf_bits, srcOk_bits]
  first | rfl | simp_all [need, Instr.wellFormed]

theorem brev (o : SU) : Statement (.brev o) := by
  intro h w e
  obtain rfl := Option.some.inj e
  refine table_s0 ?_
  rw [decodeS, if_neg (nonzero 30 6 (wSR_op ..) (by decide)), wSR_op]
  refine Eq.trans (b := decUnary _ _ _ ) rfl ?_
  simp (disch := decide) only [decUnary, need, decAccw, fnVF, fnVI, fnAcc, wSR_op, wSR_qp, wSR_d, wSR_a, wSR_b, wSR_low, wSR_bit,
    field_hi, field_lo, field_all, bit_hi, bit_lo, bit_bit, bit_zero, field_bit, Nat.reduceSub, srcOf_bits, srcOk_bits]
  first | rfl | simp_all [need, Instr.wellFormed]

theorem bswap (o : SU) : Statement (.bswap o) := by
  intro h w e
  obtain rfl := Option.some.inj e
  refine table_s0 ?_
  rw [decodeS, if_neg (nonzero 30 6 (wSR_op ..) (by decide)), wSR_op]
  refine Eq.trans (b := decUnary _ _ _ ) rfl ?_
  simp (disch := decide) only [decUnary, need, decAccw, fnVF, fnVI, fnAcc, wSR_op, wSR_qp, wSR_d, wSR_a, wSR_b, wSR_low, wSR_bit,
    field_hi, field_lo, field_all, bit_hi, bit_lo, bit_bit, bit_zero, field_bit, Nat.reduceSub, srcOf_bits, srcOk_bits]
  first | rfl | simp_all [need, Instr.wellFormed]

theorem iabs (o : SU) : Statement (.iabs o) := by
  intro h w e
  obtain rfl := Option.some.inj e
  refine table_s0 ?_
  rw [decodeS, if_neg (nonzero 30 6 (wSR_op ..) (by decide)), wSR_op]
  refine Eq.trans (b := decUnary _ _ _ ) rfl ?_
  simp (disch := decide) only [decUnary, need, decAccw, fnVF, fnVI, fnAcc, wSR_op, wSR_qp, wSR_d, wSR_a, wSR_b, wSR_low, wSR_bit,
    field_hi, field_lo, field_all, bit_hi, bit_lo, bit_bit, bit_zero, field_bit, Nat.reduceSub, srcOf_bits, srcOk_bits]
  first | rfl | simp_all [need, Instr.wellFormed]

theorem ineg (o : SU) : Statement (.ineg o) := by
  intro h w e
  obtain rfl := Option.some.inj e
  refine table_s0 ?_
  rw [decodeS, if_neg (nonzero 30 6 (wSR_op ..) (by decide)), wSR_op]
  refine Eq.trans (b := decUnary _ _ _ ) rfl ?_
  simp (disch := decide) only [decUnary, need, decAccw, fnVF, fnVI, fnAcc, wSR_op, wSR_qp, wSR_d, wSR_a, wSR_b, wSR_low, wSR_bit,
    field_hi, field_lo, field_all, bit_hi, bit_lo, bit_bit, bit_zero, field_bit, Nat.reduceSub, srcOf_bits, srcOk_bits]
  first | rfl | simp_all [need, Instr.wellFormed]

theorem exts (o : SBits) : Statement (.exts o) := by
  intro h w e
  obtain rfl := Option.some.inj e
  refine table_s0 ?_
  rw [decodeS, if_neg (nonzero 30 6 (wSR_op ..) (by decide)), wSR_op]
  refine Eq.trans (b := decBits _ _ ) rfl ?_
  simp (disch := decide) only [decBits, need, decAccw, fnVF, fnVI, fnAcc, wSR_op, wSR_qp, wSR_d, wSR_a, wSR_b, wSR_low, wSR_bit,
    field_hi, field_lo, field_all, bit_hi, bit_lo, bit_bit, bit_zero, field_bit, Nat.reduceSub, srcOf_bits, srcOk_bits]
  first | rfl | simp_all [need, Instr.wellFormed]

theorem extz (o : SBits) : Statement (.extz o) := by
  intro h w e
  obtain rfl := Option.some.inj e
  refine table_s0 ?_
  rw [decodeS, if_neg (nonzero 30 6 (wSR_op ..) (by decide)), wSR_op]
  refine Eq.trans (b := decBits _ _ ) rfl ?_
  simp (disch := decide) only [decBits, need, decAccw, fnVF, fnVI, fnAcc, wSR_op, wSR_qp, wSR_d, wSR_a, wSR_b, wSR_low, wSR_bit,
    field_hi, field_lo, field_all, bit_hi, bit_lo, bit_bit, bit_zero, field_bit, Nat.reduceSub, srcOf_bits, srcOk_bits]
  first | rfl | simp_all [need, Instr.wellFormed]

theorem dep (o : SBits) : Statement (.dep o) := by
  intro h w e
  obtain rfl := Option.some.inj e
  refine table_s0 ?_
  rw [decodeS, if_neg (nonzero 30 6 (wSR_op ..) (by decide)), wSR_op]
  refine Eq.trans (b := decBits _ _ ) rfl ?_
  simp (disch := decide) only [decBits, need, decAccw, fnVF, fnVI, fnAcc, wSR_op, wSR_qp, wSR_d, wSR_a, wSR_b, wSR_low, wSR_bit,
    field_hi, field_lo, field_all, bit_hi, bit_lo, bit_bit, bit_zero, field_bit, Nat.reduceSub, srcOf_bits, srcOk_bits]
  first | rfl | simp_all [need, Instr.wellFormed]

theorem lea (o : SLea) : Statement (.lea o) := by
  intro h w e
  obtain rfl := Option.some.inj e
  refine table_s0 ?_
  rw [decodeS, if_neg (nonzero 30 6 (wSR_op ..) (by decide)), wSR_op]
  refine Eq.trans (b := need _ (Instr.lea _)) rfl ?_
  simp (disch := decide) only [wSR_op, wSR_qp, wSR_d, wSR_a, wSR_b, wSR_low, wSR_bit, field_hi, field_lo, field_all, bit_hi, bit_lo,
    bit_bit, bit_zero, field_bit, Nat.reduceSub, srcOf_bits, srcOk_bits]
  first | exact if_pos h | exact if_pos rfl | simp_all [need, Instr.wellFormed]

theorem sel (o : SSel) : Statement (.sel o) := by
  intro h w e
  obtain rfl := Option.some.inj e
  refine table_s0 ?_
  rw [decodeS, if_neg (nonzero 30 6 (wSR_op ..) (by decide)), wSR_op]
  refine Eq.trans (b := need _ (Instr.sel _)) rfl ?_
  simp (disch := decide) only [wSR_op, wSR_qp, wSR_d, wSR_a, wSR_b, wSR_low, wSR_bit, field_hi, field_lo, field_all, bit_hi, bit_lo,
    bit_bit, bit_zero, field_bit, Nat.reduceSub, srcOf_bits, srcOk_bits]
  first | exact if_pos h | exact if_pos rfl | simp_all [need, Instr.wellFormed]

theorem movi (o : SL) : Statement (.movi o) := by
  intro h w e
  obtain rfl := Option.some.inj e
  refine table_s0 ?_
  rw [decodeS, if_neg (nonzero 30 6 (wSL_op ..) (by decide)), wSL_op]
  refine Eq.trans (b := SlotDec.ok (Instr.movi _)) rfl ?_
  simp (disch := decide) only [wSL_op, wSL_qp, wSL_d, wSL_low, wSL_bit, wSL_zero, field_hi, field_lo, field_all, bit_hi, bit_lo,
    bit_bit, bit_zero, field_bit, Nat.reduceSub, srcOf_bits, srcOk_bits]

theorem movk (o : SMovk) : Statement (.movk o) := by
  intro h w e
  obtain rfl := Option.some.inj e
  refine table_s0 ?_
  rw [decodeS, if_neg (nonzero 30 6 (wSL_op ..) (by decide)), wSL_op]
  refine Eq.trans (b := need _ (Instr.movk _)) rfl ?_
  simp (disch := decide) only [wSL_op, wSL_qp, wSL_d, wSL_low, wSL_bit, wSL_zero, field_hi, field_lo, field_all, bit_hi, bit_lo,
    bit_bit, bit_zero, field_bit, Nat.reduceSub, srcOf_bits, srcOk_bits]
  first | exact if_pos h | exact if_pos rfl | simp_all [need, Instr.wellFormed]

theorem vextr (o : SElem) : Statement (.vextr o) := by
  intro h w e
  obtain rfl := Option.some.inj e
  refine table_s0 ?_
  rw [decodeS, if_neg (nonzero 30 6 (wSR_op ..) (by decide))]
  simp (disch := decide) only [wSR_op, wSR_qp, wSR_d, wSR_a, wSR_b, wSR_low, wSR_bit, field_hi, field_lo, field_all, bit_hi, bit_lo,
    bit_bit, bit_zero, field_bit, Nat.reduceSub, srcOf_bits, srcOk_bits]
  first | rfl | exact if_pos h | simp_all [need, Instr.wellFormed]

theorem vins (o : SElem) : Statement (.vins o) := by
  intro h w e
  obtain rfl := Option.some.inj e
  refine table_s0 ?_
  rw [decodeS, if_neg (nonzero 30 6 (wSR_op ..) (by decide))]
  simp (disch := decide) only [wSR_op, wSR_qp, wSR_d, wSR_a, wSR_b, wSR_low, wSR_bit, field_hi, field_lo, field_all, bit_hi, bit_lo,
    bit_bit, bit_zero, field_bit, Nat.reduceSub, srcOf_bits, srcOk_bits]
  first | rfl | exact if_pos h | simp_all [need, Instr.wellFormed]

theorem icmp (o : SC) : Statement (.icmp o) := by
  intro h w e
  obtain rfl := Option.some.inj e
  refine table_s0 ?_
  rw [decodeS, if_neg (nonzero 30 6 (wSC_op ..) (by decide)), wSC_op]
  refine Eq.trans (b := need _ (Instr.icmp _)) rfl ?_
  simp (disch := decide) only [wSC_op, wSC_qp, wSC_p1, wSC_p2, wSC_ct, wSC_cond, wSC_a, wSC_low, wSC_bit, field_hi, field_lo, field_all, bit_hi, bit_lo,
    bit_bit, bit_zero, field_bit, Nat.reduceSub, srcOf_bits, srcOk_bits]
  first | exact if_pos h | exact if_pos rfl | simp_all [need, Instr.wellFormed]

theorem icmpi (o : SC) : Statement (.icmpi o) := by
  intro h w e
  obtain rfl := Option.some.inj e
  refine table_s0 ?_
  rw [decodeS, if_neg (nonzero 30 6 (wSC_op ..) (by decide)), wSC_op]
  refine Eq.trans (b := need _ (Instr.icmpi _)) rfl ?_
  simp (disch := decide) only [wSC_op, wSC_qp, wSC_p1, wSC_p2, wSC_ct, wSC_cond, wSC_a, wSC_low, wSC_bit, field_hi, field_lo, field_all, bit_hi, bit_lo,
    bit_bit, bit_zero, field_bit, Nat.reduceSub, srcOf_bits, srcOk_bits]
  first | exact if_pos h | exact if_pos rfl | simp_all [need, Instr.wellFormed]

theorem fcmp (o : SC) : Statement (.fcmp o) := by
  intro h w e
  obtain rfl := Option.some.inj e
  refine table_s0 ?_
  rw [decodeS, if_neg (nonzero 30 6 (wSC_op ..) (by decide)), wSC_op]
  refine Eq.trans (b := need _ (Instr.fcmp _)) rfl ?_
  simp (disch := decide) only [wSC_op, wSC_qp, wSC_p1, wSC_p2, wSC_ct, wSC_cond, wSC_a, wSC_low, wSC_bit, field_hi, field_lo, field_all, bit_hi, bit_lo,
    bit_bit, bit_zero, field_bit, Nat.reduceSub, srcOf_bits, srcOk_bits]
  first | exact if_pos h | exact if_pos rfl | simp_all [need, Instr.wellFormed]

theorem pand (o : SP) : Statement (.pand o) := by
  intro h w e
  obtain rfl := Option.some.inj e
  refine table_s0 ?_
  rw [decodeS, if_neg (nonzero 30 6 (wSR_op ..) (by decide)), wSR_op]
  refine Eq.trans (b := decPlog _ _ _ _ _ ) rfl ?_
  simp (disch := decide) only [decPlog, need, decAccw, fnVF, fnVI, fnAcc, wSR_op, wSR_qp, wSR_d, wSR_a, wSR_b, wSR_low, wSR_bit,
    field_hi, field_lo, field_all, bit_hi, bit_lo, bit_bit, bit_zero, field_bit, Nat.reduceSub, srcOf_bits, srcOk_bits]
  first | rfl | simp_all [need, Instr.wellFormed]

theorem por (o : SP) : Statement (.por o) := by
  intro h w e
  obtain rfl := Option.some.inj e
  refine table_s0 ?_
  rw [decodeS, if_neg (nonzero 30 6 (wSR_op ..) (by decide)), wSR_op]
  refine Eq.trans (b := decPlog _ _ _ _ _ ) rfl ?_
  simp (disch := decide) only [decPlog, need, decAccw, fnVF, fnVI, fnAcc, wSR_op, wSR_qp, wSR_d, wSR_a, wSR_b, wSR_low, wSR_bit,
    field_hi, field_lo, field_all, bit_hi, bit_lo, bit_bit, bit_zero, field_bit, Nat.reduceSub, srcOf_bits, srcOk_bits]
  first | rfl | simp_all [need, Instr.wellFormed]

theorem pxor (o : SP) : Statement (.pxor o) := by
  intro h w e
  obtain rfl := Option.some.inj e
  refine table_s0 ?_
  rw [decodeS, if_neg (nonzero 30 6 (wSR_op ..) (by decide)), wSR_op]
  refine Eq.trans (b := decPlog _ _ _ _ _ ) rfl ?_
  simp (disch := decide) only [decPlog, need, decAccw, fnVF, fnVI, fnAcc, wSR_op, wSR_qp, wSR_d, wSR_a, wSR_b, wSR_low, wSR_bit,
    field_hi, field_lo, field_all, bit_hi, bit_lo, bit_bit, bit_zero, field_bit, Nat.reduceSub, srcOf_bits, srcOk_bits]
  first | rfl | simp_all [need, Instr.wellFormed]

theorem pandn (o : SP) : Statement (.pandn o) := by
  intro h w e
  obtain rfl := Option.some.inj e
  refine table_s0 ?_
  rw [decodeS, if_neg (nonzero 30 6 (wSR_op ..) (by decide)), wSR_op]
  refine Eq.trans (b := decPlog _ _ _ _ _ ) rfl ?_
  simp (disch := decide) only [decPlog, need, decAccw, fnVF, fnVI, fnAcc, wSR_op, wSR_qp, wSR_d, wSR_a, wSR_b, wSR_low, wSR_bit,
    field_hi, field_lo, field_all, bit_hi, bit_lo, bit_bit, bit_zero, field_bit, Nat.reduceSub, srcOf_bits, srcOk_bits]
  first | rfl | simp_all [need, Instr.wellFormed]

theorem pnot (o : SP1) : Statement (.pnot o) := by
  intro h w e
  obtain rfl := Option.some.inj e
  refine table_s0 ?_
  rw [decodeS, if_neg (nonzero 30 6 (wSR_op ..) (by decide)), wSR_op]
  refine Eq.trans (b := decPlog _ _ _ _ _ ) rfl ?_
  simp (disch := decide) only [decPlog, need, decAccw, fnVF, fnVI, fnAcc, wSR_op, wSR_qp, wSR_d, wSR_a, wSR_b, wSR_low, wSR_bit,
    field_hi, field_lo, field_all, bit_hi, bit_lo, bit_bit, bit_zero, field_bit, Nat.reduceSub, srcOf_bits, srcOk_bits]
  first | rfl | simp_all [need, Instr.wellFormed]

theorem pget (o : SD) : Statement (.pget o) := by
  intro h w e
  obtain rfl := Option.some.inj e
  refine table_s0 ?_
  rw [decodeS, if_neg (nonzero 30 6 (wSR_op ..) (by decide))]
  simp (disch := decide) only [wSR_op, wSR_qp, wSR_d, wSR_a, wSR_b, wSR_low, wSR_bit, field_hi, field_lo, field_all, bit_hi, bit_lo,
    bit_bit, bit_zero, field_bit, Nat.reduceSub, srcOf_bits, srcOk_bits]
  first | rfl | exact if_pos h | simp_all [need, Instr.wellFormed]

theorem pset (o : SA) : Statement (.pset o) := by
  intro h w e
  obtain rfl := Option.some.inj e
  refine table_s0 ?_
  rw [decodeS, if_neg (nonzero 30 6 (wSR_op ..) (by decide))]
  simp (disch := decide) only [wSR_op, wSR_qp, wSR_d, wSR_a, wSR_b, wSR_low, wSR_bit, field_hi, field_lo, field_all, bit_hi, bit_lo,
    bit_bit, bit_zero, field_bit, Nat.reduceSub, srcOf_bits, srcOk_bits]
  first | rfl | exact if_pos h | simp_all [need, Instr.wellFormed]

theorem fadd (o : SFp) : Statement (.fadd o) := by
  intro h w e
  obtain rfl := Option.some.inj e
  refine table_s0 ?_
  rw [decodeS, if_neg (nonzero 30 6 (wSR_op ..) (by decide)), wSR_op]
  refine Eq.trans (b := decFp _ _ _ ) rfl ?_
  simp (disch := decide) only [decFp, need, decAccw, fnVF, fnVI, fnAcc, wSR_op, wSR_qp, wSR_d, wSR_a, wSR_b, wSR_low, wSR_bit,
    field_hi, field_lo, field_all, bit_hi, bit_lo, bit_bit, bit_zero, field_bit, Nat.reduceSub, srcOf_bits, srcOk_bits]
  first | rfl | simp_all [need, Instr.wellFormed]

theorem fsub (o : SFp) : Statement (.fsub o) := by
  intro h w e
  obtain rfl := Option.some.inj e
  refine table_s0 ?_
  rw [decodeS, if_neg (nonzero 30 6 (wSR_op ..) (by decide)), wSR_op]
  refine Eq.trans (b := decFp _ _ _ ) rfl ?_
  simp (disch := decide) only [decFp, need, decAccw, fnVF, fnVI, fnAcc, wSR_op, wSR_qp, wSR_d, wSR_a, wSR_b, wSR_low, wSR_bit,
    field_hi, field_lo, field_all, bit_hi, bit_lo, bit_bit, bit_zero, field_bit, Nat.reduceSub, srcOf_bits, srcOk_bits]
  first | rfl | simp_all [need, Instr.wellFormed]

theorem fmul (o : SFp) : Statement (.fmul o) := by
  intro h w e
  obtain rfl := Option.some.inj e
  refine table_s0 ?_
  rw [decodeS, if_neg (nonzero 30 6 (wSR_op ..) (by decide)), wSR_op]
  refine Eq.trans (b := decFp _ _ _ ) rfl ?_
  simp (disch := decide) only [decFp, need, decAccw, fnVF, fnVI, fnAcc, wSR_op, wSR_qp, wSR_d, wSR_a, wSR_b, wSR_low, wSR_bit,
    field_hi, field_lo, field_all, bit_hi, bit_lo, bit_bit, bit_zero, field_bit, Nat.reduceSub, srcOf_bits, srcOk_bits]
  first | rfl | simp_all [need, Instr.wellFormed]

theorem fdiv (o : SFp) : Statement (.fdiv o) := by
  intro h w e
  obtain rfl := Option.some.inj e
  refine table_s0 ?_
  rw [decodeS, if_neg (nonzero 30 6 (wSR_op ..) (by decide)), wSR_op]
  refine Eq.trans (b := decFp _ _ _ ) rfl ?_
  simp (disch := decide) only [decFp, need, decAccw, fnVF, fnVI, fnAcc, wSR_op, wSR_qp, wSR_d, wSR_a, wSR_b, wSR_low, wSR_bit,
    field_hi, field_lo, field_all, bit_hi, bit_lo, bit_bit, bit_zero, field_bit, Nat.reduceSub, srcOf_bits, srcOk_bits]
  first | rfl | simp_all [need, Instr.wellFormed]

theorem fsqrt (o : SFp1) : Statement (.fsqrt o) := by
  intro h w e
  obtain rfl := Option.some.inj e
  refine table_s0 ?_
  rw [decodeS, if_neg (nonzero 30 6 (wSR_op ..) (by decide)), wSR_op]
  refine Eq.trans (b := decFp _ _ _ ) rfl ?_
  simp (disch := decide) only [decFp, need, decAccw, fnVF, fnVI, fnAcc, wSR_op, wSR_qp, wSR_d, wSR_a, wSR_b, wSR_low, wSR_bit,
    field_hi, field_lo, field_all, bit_hi, bit_lo, bit_bit, bit_zero, field_bit, Nat.reduceSub, srcOf_bits, srcOk_bits]
  first | rfl | simp_all [need, Instr.wellFormed]

theorem fmin (o : SFp) : Statement (.fmin o) := by
  intro h w e
  obtain rfl := Option.some.inj e
  refine table_s0 ?_
  rw [decodeS, if_neg (nonzero 30 6 (wSR_op ..) (by decide)), wSR_op]
  refine Eq.trans (b := decFp _ _ _ ) rfl ?_
  simp (disch := decide) only [decFp, need, decAccw, fnVF, fnVI, fnAcc, wSR_op, wSR_qp, wSR_d, wSR_a, wSR_b, wSR_low, wSR_bit,
    field_hi, field_lo, field_all, bit_hi, bit_lo, bit_bit, bit_zero, field_bit, Nat.reduceSub, srcOf_bits, srcOk_bits]
  first | rfl | simp_all [need, Instr.wellFormed]

theorem fmax (o : SFp) : Statement (.fmax o) := by
  intro h w e
  obtain rfl := Option.some.inj e
  refine table_s0 ?_
  rw [decodeS, if_neg (nonzero 30 6 (wSR_op ..) (by decide)), wSR_op]
  refine Eq.trans (b := decFp _ _ _ ) rfl ?_
  simp (disch := decide) only [decFp, need, decAccw, fnVF, fnVI, fnAcc, wSR_op, wSR_qp, wSR_d, wSR_a, wSR_b, wSR_low, wSR_bit,
    field_hi, field_lo, field_all, bit_hi, bit_lo, bit_bit, bit_zero, field_bit, Nat.reduceSub, srcOf_bits, srcOk_bits]
  first | rfl | simp_all [need, Instr.wellFormed]

theorem ffma (o : SFp) : Statement (.ffma o) := by
  intro h w e
  obtain rfl := Option.some.inj e
  refine table_s0 ?_
  rw [decodeS, if_neg (nonzero 30 6 (wSR_op ..) (by decide)), wSR_op]
  refine Eq.trans (b := need _ (Instr.ffma _)) rfl ?_
  simp (disch := decide) only [wSR_op, wSR_qp, wSR_d, wSR_a, wSR_b, wSR_low, wSR_bit, field_hi, field_lo, field_all, bit_hi, bit_lo,
    bit_bit, bit_zero, field_bit, Nat.reduceSub, srcOf_bits, srcOk_bits]
  first | exact if_pos h | exact if_pos rfl | simp_all [need, Instr.wellFormed]

theorem fcvt (o : SCvt) : Statement (.fcvt o) := by
  intro h w e
  obtain rfl := Option.some.inj e
  refine table_s0 ?_
  rw [decodeS, if_neg (nonzero 30 6 (wSR_op ..) (by decide)), wSR_op]
  simp (disch := decide) only [wSR_op, wSR_qp, wSR_d, wSR_a, wSR_b, wSR_low, wSR_bit, field_hi, field_lo, field_all, bit_hi, bit_lo, bit_bit, bit_zero, field_bit, Nat.reduceSub]
  have k : cvtKinds o = true := by
    simp only [Instr.wellFormed, wfCvt, Bool.and_eq_true] at h; exact h.1.1.1
  have z : wfCvt o = true := h
  simp [need, k, z]

theorem mfs (o : SMfs) : Statement (.mfs o) := by
  intro h w e
  obtain rfl := Option.some.inj e
  refine table_s0 ?_
  rw [decodeS, if_neg (nonzero 30 6 (wSI_op ..) (by decide)), wSI_op]
  refine Eq.trans (b := need _ (Instr.mfs _)) rfl ?_
  simp (disch := decide) only [wSI_op, wSI_qp, wSI_d, wSI_a, wSI_low, wSI_bit, field_hi, field_lo, field_all, bit_hi, bit_lo,
    bit_bit, bit_zero, field_bit, Nat.reduceSub, srcOf_bits, srcOk_bits]
  first | exact if_pos h | exact if_pos rfl | simp_all [need, Instr.wellFormed]

theorem mts (o : SMts) : Statement (.mts o) := by
  intro h w e
  obtain rfl := Option.some.inj e
  refine table_s0 ?_
  rw [decodeS, if_neg (nonzero 30 6 (wSI_op ..) (by decide)), wSI_op]
  refine Eq.trans (b := need _ (Instr.mts _)) rfl ?_
  simp (disch := decide) only [wSI_op, wSI_qp, wSI_d, wSI_a, wSI_low, wSI_bit, field_hi, field_lo, field_all, bit_hi, bit_lo,
    bit_bit, bit_zero, field_bit, Nat.reduceSub, srcOf_bits, srcOk_bits]
  first | exact if_pos h | exact if_pos rfl | simp_all [need, Instr.wellFormed]

theorem trap (o : STrap) : Statement (.trap o) := by
  intro h w e
  obtain rfl := Option.some.inj e
  refine table_s0 ?_
  rw [decodeS, if_neg (nonzero 30 6 (wSL_op ..) (by decide)), wSL_op]
  refine Eq.trans (b := need _ (Instr.trap _)) rfl ?_
  simp (disch := decide) only [wSL_op, wSL_qp, wSL_d, wSL_low, wSL_bit, wSL_zero, field_hi, field_lo, field_all, bit_hi, bit_lo,
    bit_bit, bit_zero, field_bit, Nat.reduceSub, srcOf_bits, srcOk_bits]
  first | exact if_pos h | exact if_pos rfl | simp_all [need, Instr.wellFormed]

theorem rft (o : SQ) : Statement (.rft o) := by
  intro h w e
  obtain rfl := Option.some.inj e
  refine table_s0 ?_
  rw [decodeS, if_neg (nonzero 30 6 (wSL_op ..) (by decide)), wSL_op]
  refine Eq.trans (b := need (field (wSL _ _ _ _) 0 26 == 0) (Instr.rft ⟨field (wSL _ _ _ _) 26 4⟩)) rfl ?_
  rw [wSL_zero, wSL_qp]; rfl

theorem halt (o : SQ) : Statement (.halt o) := by
  intro h w e
  obtain rfl := Option.some.inj e
  refine table_s0 ?_
  rw [decodeS, if_neg (nonzero 30 6 (wSL_op ..) (by decide)), wSL_op]
  refine Eq.trans (b := need (field (wSL _ _ _ _) 0 26 == 0) (Instr.halt ⟨field (wSL _ _ _ _) 26 4⟩)) rfl ?_
  rw [wSL_zero, wSL_qp]; rfl

theorem br (o : SBr) : Statement (.br o) := by
  intro h w e
  obtain rfl := Option.some.inj e
  refine table_s1 ?_
  rw [decodeS, if_neg (nonzero 30 6 (wSB_op ..) (by decide)), wSB_op]
  refine Eq.trans (b := SlotDec.ok (Instr.br _)) rfl ?_
  simp (disch := decide) only [wSB_op, wSB_qp, wSB_low, wSB_bit, field_hi, field_lo, field_all, bit_hi, bit_lo,
    bit_bit, bit_zero, field_bit, Nat.reduceSub, srcOf_bits, srcOk_bits]

theorem call (o : SBr) : Statement (.call o) := by
  intro h w e
  obtain rfl := Option.some.inj e
  refine table_s1 ?_
  rw [decodeS, if_neg (nonzero 30 6 (wSB_op ..) (by decide)), wSB_op]
  refine Eq.trans (b := SlotDec.ok (Instr.call _)) rfl ?_
  simp (disch := decide) only [wSB_op, wSB_qp, wSB_low, wSB_bit, field_hi, field_lo, field_all, bit_hi, bit_lo,
    bit_bit, bit_zero, field_bit, Nat.reduceSub, srcOf_bits, srcOk_bits]

theorem brx (o : SU) : Statement (.brx o) := by
  intro h w e
  obtain rfl := Option.some.inj e
  refine table_s1 ?_
  rw [decodeS, if_neg (nonzero 30 6 (wSR_op ..) (by decide)), wSR_op]
  refine Eq.trans (b := need _ (Instr.brx _)) rfl ?_
  simp (disch := decide) only [wSR_op, wSR_qp, wSR_d, wSR_a, wSR_b, wSR_low, wSR_bit, field_hi, field_lo, field_all, bit_hi, bit_lo,
    bit_bit, bit_zero, field_bit, Nat.reduceSub, srcOf_bits, srcOk_bits]
  first | exact if_pos h | exact if_pos rfl | simp_all [need, Instr.wellFormed]

theorem ret (o : SA) : Statement (.ret o) := by
  intro h w e
  obtain rfl := Option.some.inj e
  refine table_s1 ?_
  rw [decodeS, if_neg (nonzero 30 6 (wSR_op ..) (by decide)), wSR_op]
  refine Eq.trans (b := need _ (Instr.ret _)) rfl ?_
  simp (disch := decide) only [wSR_op, wSR_qp, wSR_d, wSR_a, wSR_b, wSR_low, wSR_bit, field_hi, field_lo, field_all, bit_hi, bit_lo,
    bit_bit, bit_zero, field_bit, Nat.reduceSub, srcOf_bits, srcOk_bits]
  first | exact if_pos h | exact if_pos rfl | simp_all [need, Instr.wellFormed]

theorem chk (o : SI) : Statement (.chk o) := by
  intro h w e
  obtain rfl := Option.some.inj e
  refine table_s1 ?_
  rw [decodeS, if_neg (nonzero 30 6 (wSI_op ..) (by decide)), wSI_op]
  refine Eq.trans (b := need _ (Instr.chk _)) rfl ?_
  simp (disch := decide) only [wSI_op, wSI_qp, wSI_d, wSI_a, wSI_low, wSI_bit, field_hi, field_lo, field_all, bit_hi, bit_lo,
    bit_bit, bit_zero, field_bit, Nat.reduceSub, srcOf_bits, srcOk_bits]
  first | exact if_pos h | exact if_pos rfl | simp_all [need, Instr.wellFormed]

theorem chkv (o : SI) : Statement (.chkv o) := by
  intro h w e
  obtain rfl := Option.some.inj e
  refine table_s1 ?_
  rw [decodeS, if_neg (nonzero 30 6 (wSI_op ..) (by decide)), wSI_op]
  refine Eq.trans (b := SlotDec.ok (Instr.chkv _)) rfl ?_
  simp (disch := decide) only [wSI_op, wSI_qp, wSI_d, wSI_a, wSI_low, wSI_bit, field_hi, field_lo, field_all, bit_hi, bit_lo,
    bit_bit, bit_zero, field_bit, Nat.reduceSub, srcOf_bits, srcOk_bits]

theorem fork (o : SAB) : Statement (.fork o) := by
  intro h w e
  obtain rfl := Option.some.inj e
  refine table_s1 ?_
  rw [decodeS, if_neg (nonzero 30 6 (wSR_op ..) (by decide)), wSR_op]
  refine Eq.trans (b := need _ (Instr.fork _)) rfl ?_
  simp (disch := decide) only [wSR_op, wSR_qp, wSR_d, wSR_a, wSR_b, wSR_low, wSR_bit, field_hi, field_lo, field_all, bit_hi, bit_lo,
    bit_bit, bit_zero, field_bit, Nat.reduceSub, srcOf_bits, srcOk_bits]
  first | exact if_pos h | exact if_pos rfl | simp_all [need, Instr.wellFormed]

theorem sync (o : SQ) : Statement (.sync o) := by
  intro h w e
  obtain rfl := Option.some.inj e
  refine table_s1 ?_
  rw [decodeS, if_neg (nonzero 30 6 (wSR_op ..) (by decide)), wSR_op]
  refine Eq.trans (b := decEnd _ _ _ _ ) rfl ?_
  simp (disch := decide) only [decEnd, need, decAccw, fnVF, fnVI, fnAcc, wSR_op, wSR_qp, wSR_d, wSR_a, wSR_b, wSR_low, wSR_bit,
    field_hi, field_lo, field_all, bit_hi, bit_lo, bit_bit, bit_zero, field_bit, Nat.reduceSub, srcOf_bits, srcOk_bits]
  first | rfl | simp_all [need, Instr.wellFormed]

theorem retf (o : SQ) : Statement (.retf o) := by
  intro h w e
  obtain rfl := Option.some.inj e
  refine table_s1 ?_
  rw [decodeS, if_neg (nonzero 30 6 (wSR_op ..) (by decide)), wSR_op]
  refine Eq.trans (b := decEnd _ _ _ _ ) rfl ?_
  simp (disch := decide) only [decEnd, need, decAccw, fnVF, fnVI, fnAcc, wSR_op, wSR_qp, wSR_d, wSR_a, wSR_b, wSR_low, wSR_bit,
    field_hi, field_lo, field_all, bit_hi, bit_lo, bit_bit, bit_zero, field_bit, Nat.reduceSub, srcOf_bits, srcOk_bits]
  first | rfl | simp_all [need, Instr.wellFormed]

theorem tend (o : SQ) : Statement (.tend o) := by
  intro h w e
  obtain rfl := Option.some.inj e
  refine table_s1 ?_
  rw [decodeS, if_neg (nonzero 30 6 (wSR_op ..) (by decide)), wSR_op]
  refine Eq.trans (b := decEnd _ _ _ _ ) rfl ?_
  simp (disch := decide) only [decEnd, need, decAccw, fnVF, fnVI, fnAcc, wSR_op, wSR_qp, wSR_d, wSR_a, wSR_b, wSR_low, wSR_bit,
    field_hi, field_lo, field_all, bit_hi, bit_lo, bit_bit, bit_zero, field_bit, Nat.reduceSub, srcOf_bits, srcOk_bits]
  first | rfl | simp_all [need, Instr.wellFormed]

theorem yield (o : SQ) : Statement (.yield o) := by
  intro h w e
  obtain rfl := Option.some.inj e
  refine table_s1 ?_
  rw [decodeS, if_neg (nonzero 30 6 (wSR_op ..) (by decide)), wSR_op]
  refine Eq.trans (b := decEnd _ _ _ _ ) rfl ?_
  simp (disch := decide) only [decEnd, need, decAccw, fnVF, fnVI, fnAcc, wSR_op, wSR_qp, wSR_d, wSR_a, wSR_b, wSR_low, wSR_bit,
    field_hi, field_lo, field_all, bit_hi, bit_lo, bit_bit, bit_zero, field_bit, Nat.reduceSub, srcOf_bits, srcOk_bits]
  first | rfl | simp_all [need, Instr.wellFormed]

theorem waitc (o : SA) : Statement (.waitc o) := by
  intro h w e
  obtain rfl := Option.some.inj e
  refine table_s1 ?_
  rw [decodeS, if_neg (nonzero 30 6 (wSR_op ..) (by decide)), wSR_op]
  refine Eq.trans (b := decEnd _ _ _ _ ) rfl ?_
  simp (disch := decide) only [decEnd, need, decAccw, fnVF, fnVI, fnAcc, wSR_op, wSR_qp, wSR_d, wSR_a, wSR_b, wSR_low, wSR_bit,
    field_hi, field_lo, field_all, bit_hi, bit_lo, bit_bit, bit_zero, field_bit, Nat.reduceSub, srcOf_bits, srcOk_bits]
  first | rfl | simp_all [need, Instr.wellFormed]

theorem ldb (o : ML) : Statement (.ldb o) := by
  intro h w e
  obtain rfl := Option.some.inj e
  refine table_m ?_
  rw [decodeM, if_neg (nonzero 34 6 (wML_op ..) (by decide)), wML_op]
  refine Eq.trans (b := SlotDec.ok (Instr.ldb _)) rfl ?_
  simp (disch := decide) only [wML_op, wML_qp, wML_rg, wML_base, wML_low, wML_bit, field_hi, field_lo, field_all, bit_hi, bit_lo,
    bit_bit, bit_zero, field_bit, Nat.reduceSub, srcOf_bits, srcOk_bits]

theorem ldbz (o : ML) : Statement (.ldbz o) := by
  intro h w e
  obtain rfl := Option.some.inj e
  refine table_m ?_
  rw [decodeM, if_neg (nonzero 34 6 (wML_op ..) (by decide)), wML_op]
  refine Eq.trans (b := SlotDec.ok (Instr.ldbz _)) rfl ?_
  simp (disch := decide) only [wML_op, wML_qp, wML_rg, wML_base, wML_low, wML_bit, field_hi, field_lo, field_all, bit_hi, bit_lo,
    bit_bit, bit_zero, field_bit, Nat.reduceSub, srcOf_bits, srcOk_bits]

theorem ldh (o : ML) : Statement (.ldh o) := by
  intro h w e
  obtain rfl := Option.some.inj e
  refine table_m ?_
  rw [decodeM, if_neg (nonzero 34 6 (wML_op ..) (by decide)), wML_op]
  refine Eq.trans (b := SlotDec.ok (Instr.ldh _)) rfl ?_
  simp (disch := decide) only [wML_op, wML_qp, wML_rg, wML_base, wML_low, wML_bit, field_hi, field_lo, field_all, bit_hi, bit_lo,
    bit_bit, bit_zero, field_bit, Nat.reduceSub, srcOf_bits, srcOk_bits]

theorem ldhz (o : ML) : Statement (.ldhz o) := by
  intro h w e
  obtain rfl := Option.some.inj e
  refine table_m ?_
  rw [decodeM, if_neg (nonzero 34 6 (wML_op ..) (by decide)), wML_op]
  refine Eq.trans (b := SlotDec.ok (Instr.ldhz _)) rfl ?_
  simp (disch := decide) only [wML_op, wML_qp, wML_rg, wML_base, wML_low, wML_bit, field_hi, field_lo, field_all, bit_hi, bit_lo,
    bit_bit, bit_zero, field_bit, Nat.reduceSub, srcOf_bits, srcOk_bits]

theorem ldw (o : ML) : Statement (.ldw o) := by
  intro h w e
  obtain rfl := Option.some.inj e
  refine table_m ?_
  rw [decodeM, if_neg (nonzero 34 6 (wML_op ..) (by decide)), wML_op]
  refine Eq.trans (b := SlotDec.ok (Instr.ldw _)) rfl ?_
  simp (disch := decide) only [wML_op, wML_qp, wML_rg, wML_base, wML_low, wML_bit, field_hi, field_lo, field_all, bit_hi, bit_lo,
    bit_bit, bit_zero, field_bit, Nat.reduceSub, srcOf_bits, srcOk_bits]

theorem ldwz (o : ML) : Statement (.ldwz o) := by
  intro h w e
  obtain rfl := Option.some.inj e
  refine table_m ?_
  rw [decodeM, if_neg (nonzero 34 6 (wML_op ..) (by decide)), wML_op]
  refine Eq.trans (b := SlotDec.ok (Instr.ldwz _)) rfl ?_
  simp (disch := decide) only [wML_op, wML_qp, wML_rg, wML_base, wML_low, wML_bit, field_hi, field_lo, field_all, bit_hi, bit_lo,
    bit_bit, bit_zero, field_bit, Nat.reduceSub, srcOf_bits, srcOk_bits]

theorem ldd (o : ML) : Statement (.ldd o) := by
  intro h w e
  obtain rfl := Option.some.inj e
  refine table_m ?_
  rw [decodeM, if_neg (nonzero 34 6 (wML_op ..) (by decide)), wML_op]
  refine Eq.trans (b := SlotDec.ok (Instr.ldd _)) rfl ?_
  simp (disch := decide) only [wML_op, wML_qp, wML_rg, wML_base, wML_low, wML_bit, field_hi, field_lo, field_all, bit_hi, bit_lo,
    bit_bit, bit_zero, field_bit, Nat.reduceSub, srcOf_bits, srcOk_bits]

theorem stb (o : ML) : Statement (.stb o) := by
  intro h w e
  obtain rfl := Option.some.inj e
  refine table_m ?_
  rw [decodeM, if_neg (nonzero 34 6 (wML_op ..) (by decide)), wML_op]
  refine Eq.trans (b := SlotDec.ok (Instr.stb _)) rfl ?_
  simp (disch := decide) only [wML_op, wML_qp, wML_rg, wML_base, wML_low, wML_bit, field_hi, field_lo, field_all, bit_hi, bit_lo,
    bit_bit, bit_zero, field_bit, Nat.reduceSub, srcOf_bits, srcOk_bits]

theorem sth (o : ML) : Statement (.sth o) := by
  intro h w e
  obtain rfl := Option.some.inj e
  refine table_m ?_
  rw [decodeM, if_neg (nonzero 34 6 (wML_op ..) (by decide)), wML_op]
  refine Eq.trans (b := SlotDec.ok (Instr.sth _)) rfl ?_
  simp (disch := decide) only [wML_op, wML_qp, wML_rg, wML_base, wML_low, wML_bit, field_hi, field_lo, field_all, bit_hi, bit_lo,
    bit_bit, bit_zero, field_bit, Nat.reduceSub, srcOf_bits, srcOk_bits]

theorem stw (o : ML) : Statement (.stw o) := by
  intro h w e
  obtain rfl := Option.some.inj e
  refine table_m ?_
  rw [decodeM, if_neg (nonzero 34 6 (wML_op ..) (by decide)), wML_op]
  refine Eq.trans (b := SlotDec.ok (Instr.stw _)) rfl ?_
  simp (disch := decide) only [wML_op, wML_qp, wML_rg, wML_base, wML_low, wML_bit, field_hi, field_lo, field_all, bit_hi, bit_lo,
    bit_bit, bit_zero, field_bit, Nat.reduceSub, srcOf_bits, srcOk_bits]

theorem std (o : ML) : Statement (.std o) := by
  intro h w e
  obtain rfl := Option.some.inj e
  refine table_m ?_
  rw [decodeM, if_neg (nonzero 34 6 (wML_op ..) (by decide)), wML_op]
  refine Eq.trans (b := SlotDec.ok (Instr.std _)) rfl ?_
  simp (disch := decide) only [wML_op, wML_qp, wML_rg, wML_base, wML_low, wML_bit, field_hi, field_lo, field_all, bit_hi, bit_lo,
    bit_bit, bit_zero, field_bit, Nat.reduceSub, srcOf_bits, srcOk_bits]

theorem vld (o : MLTag) : Statement (.vld o) := by
  intro h w e
  obtain rfl := Option.some.inj e
  refine table_m ?_
  rw [decodeM, if_neg (nonzero 34 6 (wML_op ..) (by decide)), wML_op]
  refine Eq.trans (b := need _ (Instr.vld _)) rfl ?_
  simp (disch := decide) only [wML_op, wML_qp, wML_rg, wML_base, wML_low, wML_bit, field_hi, field_lo, field_all, bit_hi, bit_lo,
    bit_bit, bit_zero, field_bit, Nat.reduceSub, srcOf_bits, srcOk_bits]
  first | exact if_pos h | exact if_pos rfl | simp_all [need, Instr.wellFormed]

theorem vst (o : MLV) : Statement (.vst o) := by
  intro h w e
  obtain rfl := Option.some.inj e
  refine table_m ?_
  rw [decodeM, if_neg (nonzero 34 6 (wML_op ..) (by decide)), wML_op]
  refine Eq.trans (b := need _ (Instr.vst _)) rfl ?_
  simp (disch := decide) only [wML_op, wML_qp, wML_rg, wML_base, wML_low, wML_bit, field_hi, field_lo, field_all, bit_hi, bit_lo,
    bit_bit, bit_zero, field_bit, Nat.reduceSub, srcOf_bits, srcOk_bits]
  first | exact if_pos h | exact if_pos rfl | simp_all [need, Instr.wellFormed]

theorem vgath (o : MGath) : Statement (.vgath o) := by
  intro h w e
  obtain rfl := Option.some.inj e
  refine table_m ?_
  rw [decodeM, if_neg (nonzero 34 6 (wML_op ..) (by decide)), wML_op]
  refine Eq.trans (b := need _ (Instr.vgath _)) rfl ?_
  simp (disch := decide) only [wML_op, wML_qp, wML_rg, wML_base, wML_low, wML_bit, field_hi, field_lo, field_all, bit_hi, bit_lo,
    bit_bit, bit_zero, field_bit, Nat.reduceSub, srcOf_bits, srcOk_bits]
  first | exact if_pos h | exact if_pos rfl | simp_all [need, Instr.wellFormed]

theorem vscat (o : MScat) : Statement (.vscat o) := by
  intro h w e
  obtain rfl := Option.some.inj e
  refine table_m ?_
  rw [decodeM, if_neg (nonzero 34 6 (wML_op ..) (by decide)), wML_op]
  refine Eq.trans (b := need _ (Instr.vscat _)) rfl ?_
  simp (disch := decide) only [wML_op, wML_qp, wML_rg, wML_base, wML_low, wML_bit, field_hi, field_lo, field_all, bit_hi, bit_lo,
    bit_bit, bit_zero, field_bit, Nat.reduceSub, srcOf_bits, srcOk_bits]
  first | exact if_pos h | exact if_pos rfl | simp_all [need, Instr.wellFormed]

theorem rld (o : ML) : Statement (.rld o) := by
  intro h w e
  obtain rfl := Option.some.inj e
  refine table_m ?_
  rw [decodeM, if_neg (nonzero 34 6 (wML_op ..) (by decide)), wML_op]
  refine Eq.trans (b := SlotDec.ok (Instr.rld _)) rfl ?_
  simp (disch := decide) only [wML_op, wML_qp, wML_rg, wML_base, wML_low, wML_bit, field_hi, field_lo, field_all, bit_hi, bit_lo,
    bit_bit, bit_zero, field_bit, Nat.reduceSub, srcOf_bits, srcOk_bits]

theorem rst (o : ML) : Statement (.rst o) := by
  intro h w e
  obtain rfl := Option.some.inj e
  refine table_m ?_
  rw [decodeM, if_neg (nonzero 34 6 (wML_op ..) (by decide)), wML_op]
  refine Eq.trans (b := SlotDec.ok (Instr.rst _)) rfl ?_
  simp (disch := decide) only [wML_op, wML_qp, wML_rg, wML_base, wML_low, wML_bit, field_hi, field_lo, field_all, bit_hi, bit_lo,
    bit_bit, bit_zero, field_bit, Nat.reduceSub, srcOf_bits, srcOk_bits]

theorem rvld (o : MLTag) : Statement (.rvld o) := by
  intro h w e
  obtain rfl := Option.some.inj e
  refine table_m ?_
  rw [decodeM, if_neg (nonzero 34 6 (wML_op ..) (by decide)), wML_op]
  refine Eq.trans (b := need _ (Instr.rvld _)) rfl ?_
  simp (disch := decide) only [wML_op, wML_qp, wML_rg, wML_base, wML_low, wML_bit, field_hi, field_lo, field_all, bit_hi, bit_lo,
    bit_bit, bit_zero, field_bit, Nat.reduceSub, srcOf_bits, srcOk_bits]
  first | exact if_pos h | exact if_pos rfl | simp_all [need, Instr.wellFormed]

theorem rvst (o : MLV) : Statement (.rvst o) := by
  intro h w e
  obtain rfl := Option.some.inj e
  refine table_m ?_
  rw [decodeM, if_neg (nonzero 34 6 (wML_op ..) (by decide)), wML_op]
  refine Eq.trans (b := need _ (Instr.rvst _)) rfl ?_
  simp (disch := decide) only [wML_op, wML_qp, wML_rg, wML_base, wML_low, wML_bit, field_hi, field_lo, field_all, bit_hi, bit_lo,
    bit_bit, bit_zero, field_bit, Nat.reduceSub, srcOf_bits, srcOk_bits]
  first | exact if_pos h | exact if_pos rfl | simp_all [need, Instr.wellFormed]

theorem gldb (o : MG) : Statement (.gldb o) := by
  intro h w e
  obtain rfl := Option.some.inj e
  refine table_m ?_
  rw [decodeM, if_neg (nonzero 34 6 (wMG_op ..) (by decide)), wMG_op]
  refine Eq.trans (b := SlotDec.ok (Instr.gldb _)) rfl ?_
  simp (disch := decide) only [wMG_op, wMG_qp, wMG_rg, wMG_h, wMG_xi, wMG_low, wMG_bit, field_hi, field_lo, field_all, bit_hi, bit_lo,
    bit_bit, bit_zero, field_bit, Nat.reduceSub, srcOf_bits, srcOk_bits]

theorem gldh (o : MG) : Statement (.gldh o) := by
  intro h w e
  obtain rfl := Option.some.inj e
  refine table_m ?_
  rw [decodeM, if_neg (nonzero 34 6 (wMG_op ..) (by decide)), wMG_op]
  refine Eq.trans (b := SlotDec.ok (Instr.gldh _)) rfl ?_
  simp (disch := decide) only [wMG_op, wMG_qp, wMG_rg, wMG_h, wMG_xi, wMG_low, wMG_bit, field_hi, field_lo, field_all, bit_hi, bit_lo,
    bit_bit, bit_zero, field_bit, Nat.reduceSub, srcOf_bits, srcOk_bits]

theorem gldw (o : MG) : Statement (.gldw o) := by
  intro h w e
  obtain rfl := Option.some.inj e
  refine table_m ?_
  rw [decodeM, if_neg (nonzero 34 6 (wMG_op ..) (by decide)), wMG_op]
  refine Eq.trans (b := SlotDec.ok (Instr.gldw _)) rfl ?_
  simp (disch := decide) only [wMG_op, wMG_qp, wMG_rg, wMG_h, wMG_xi, wMG_low, wMG_bit, field_hi, field_lo, field_all, bit_hi, bit_lo,
    bit_bit, bit_zero, field_bit, Nat.reduceSub, srcOf_bits, srcOk_bits]

theorem gldd (o : MG) : Statement (.gldd o) := by
  intro h w e
  obtain rfl := Option.some.inj e
  refine table_m ?_
  rw [decodeM, if_neg (nonzero 34 6 (wMG_op ..) (by decide)), wMG_op]
  refine Eq.trans (b := SlotDec.ok (Instr.gldd _)) rfl ?_
  simp (disch := decide) only [wMG_op, wMG_qp, wMG_rg, wMG_h, wMG_xi, wMG_low, wMG_bit, field_hi, field_lo, field_all, bit_hi, bit_lo,
    bit_bit, bit_zero, field_bit, Nat.reduceSub, srcOf_bits, srcOk_bits]

theorem gstb (o : MG) : Statement (.gstb o) := by
  intro h w e
  obtain rfl := Option.some.inj e
  refine table_m ?_
  rw [decodeM, if_neg (nonzero 34 6 (wMG_op ..) (by decide)), wMG_op]
  refine Eq.trans (b := SlotDec.ok (Instr.gstb _)) rfl ?_
  simp (disch := decide) only [wMG_op, wMG_qp, wMG_rg, wMG_h, wMG_xi, wMG_low, wMG_bit, field_hi, field_lo, field_all, bit_hi, bit_lo,
    bit_bit, bit_zero, field_bit, Nat.reduceSub, srcOf_bits, srcOk_bits]

theorem gsth (o : MG) : Statement (.gsth o) := by
  intro h w e
  obtain rfl := Option.some.inj e
  refine table_m ?_
  rw [decodeM, if_neg (nonzero 34 6 (wMG_op ..) (by decide)), wMG_op]
  refine Eq.trans (b := SlotDec.ok (Instr.gsth _)) rfl ?_
  simp (disch := decide) only [wMG_op, wMG_qp, wMG_rg, wMG_h, wMG_xi, wMG_low, wMG_bit, field_hi, field_lo, field_all, bit_hi, bit_lo,
    bit_bit, bit_zero, field_bit, Nat.reduceSub, srcOf_bits, srcOk_bits]

theorem gstw (o : MG) : Statement (.gstw o) := by
  intro h w e
  obtain rfl := Option.some.inj e
  refine table_m ?_
  rw [decodeM, if_neg (nonzero 34 6 (wMG_op ..) (by decide)), wMG_op]
  refine Eq.trans (b := SlotDec.ok (Instr.gstw _)) rfl ?_
  simp (disch := decide) only [wMG_op, wMG_qp, wMG_rg, wMG_h, wMG_xi, wMG_low, wMG_bit, field_hi, field_lo, field_all, bit_hi, bit_lo,
    bit_bit, bit_zero, field_bit, Nat.reduceSub, srcOf_bits, srcOk_bits]

theorem gstd (o : MG) : Statement (.gstd o) := by
  intro h w e
  obtain rfl := Option.some.inj e
  refine table_m ?_
  rw [decodeM, if_neg (nonzero 34 6 (wMG_op ..) (by decide)), wMG_op]
  refine Eq.trans (b := SlotDec.ok (Instr.gstd _)) rfl ?_
  simp (disch := decide) only [wMG_op, wMG_qp, wMG_rg, wMG_h, wMG_xi, wMG_low, wMG_bit, field_hi, field_lo, field_all, bit_hi, bit_lo,
    bit_bit, bit_zero, field_bit, Nat.reduceSub, srcOf_bits, srcOk_bits]

theorem gvld (o : MGTag) : Statement (.gvld o) := by
  intro h w e
  obtain rfl := Option.some.inj e
  refine table_m ?_
  rw [decodeM, if_neg (nonzero 34 6 (wMG_op ..) (by decide)), wMG_op]
  refine Eq.trans (b := need _ (Instr.gvld _)) rfl ?_
  simp (disch := decide) only [wMG_op, wMG_qp, wMG_rg, wMG_h, wMG_xi, wMG_low, wMG_bit, field_hi, field_lo, field_all, bit_hi, bit_lo,
    bit_bit, bit_zero, field_bit, Nat.reduceSub, srcOf_bits, srcOk_bits]
  first | exact if_pos h | exact if_pos rfl | simp_all [need, Instr.wellFormed]

theorem gvst (o : MGV) : Statement (.gvst o) := by
  intro h w e
  obtain rfl := Option.some.inj e
  refine table_m ?_
  rw [decodeM, if_neg (nonzero 34 6 (wMG_op ..) (by decide)), wMG_op]
  refine Eq.trans (b := need _ (Instr.gvst _)) rfl ?_
  simp (disch := decide) only [wMG_op, wMG_qp, wMG_rg, wMG_h, wMG_xi, wMG_low, wMG_bit, field_hi, field_lo, field_all, bit_hi, bit_lo,
    bit_bit, bit_zero, field_bit, Nat.reduceSub, srcOf_bits, srcOk_bits]
  first | exact if_pos h | exact if_pos rfl | simp_all [need, Instr.wellFormed]

theorem gldsW (o : MG) : Statement (.gldsW o) := by
  intro h w e
  obtain rfl := Option.some.inj e
  refine table_m ?_
  rw [decodeM, if_neg (nonzero 34 6 (wMG_op ..) (by decide)), wMG_op]
  refine Eq.trans (b := SlotDec.ok (Instr.gldsW _)) rfl ?_
  simp (disch := decide) only [wMG_op, wMG_qp, wMG_rg, wMG_h, wMG_xi, wMG_low, wMG_bit, field_hi, field_lo, field_all, bit_hi, bit_lo,
    bit_bit, bit_zero, field_bit, Nat.reduceSub, srcOf_bits, srcOk_bits]

theorem gldsD (o : MG) : Statement (.gldsD o) := by
  intro h w e
  obtain rfl := Option.some.inj e
  refine table_m ?_
  rw [decodeM, if_neg (nonzero 34 6 (wMG_op ..) (by decide)), wMG_op]
  refine Eq.trans (b := SlotDec.ok (Instr.gldsD _)) rfl ?_
  simp (disch := decide) only [wMG_op, wMG_qp, wMG_rg, wMG_h, wMG_xi, wMG_low, wMG_bit, field_hi, field_lo, field_all, bit_hi, bit_lo,
    bit_bit, bit_zero, field_bit, Nat.reduceSub, srcOf_bits, srcOk_bits]

theorem pref (o : MPref) : Statement (.pref o) := by
  intro h w e
  obtain rfl := Option.some.inj e
  refine table_m ?_
  rw [decodeM, if_neg (nonzero 34 6 (wMG_op ..) (by decide)), wMG_op]
  refine Eq.trans (b := need _ (Instr.pref _)) rfl ?_
  simp (disch := decide) only [wMG_op, wMG_qp, wMG_rg, wMG_h, wMG_xi, wMG_low, wMG_bit, field_hi, field_lo, field_all, bit_hi, bit_lo,
    bit_bit, bit_zero, field_bit, Nat.reduceSub, srcOf_bits, srcOk_bits]
  first | exact if_pos h | exact if_pos rfl | simp_all [need, Instr.wellFormed]

theorem copy (o : MCQ) : Statement (.copy o) := by
  intro h w e
  obtain rfl := Option.some.inj e
  refine table_m ?_
  rw [decodeM, if_neg (nonzero 34 6 (wMC_op ..) (by decide)), wMC_op]
  refine Eq.trans (b := decMC _ _ ) rfl ?_
  simp (disch := decide) only [decMC, need, decAccw, fnVF, fnVI, fnAcc, wMC_op, wMC_qp, wMC_qu, wMC_d, wMC_a, wMC_b, wMC_fn, wMC_low, wMC_bit,
    field_hi, field_lo, field_all, bit_hi, bit_lo, bit_bit, bit_zero, field_bit, Nat.reduceSub, srcOf_bits, srcOk_bits]
  first | rfl | simp_all [need, Instr.wellFormed]

theorem copyIn (o : MCQ) : Statement (.copyIn o) := by
  intro h w e
  obtain rfl := Option.some.inj e
  refine table_m ?_
  rw [decodeM, if_neg (nonzero 34 6 (wMC_op ..) (by decide)), wMC_op]
  refine Eq.trans (b := decMC _ _ ) rfl ?_
  simp (disch := decide) only [decMC, need, decAccw, fnVF, fnVI, fnAcc, wMC_op, wMC_qp, wMC_qu, wMC_d, wMC_a, wMC_b, wMC_fn, wMC_low, wMC_bit,
    field_hi, field_lo, field_all, bit_hi, bit_lo, bit_bit, bit_zero, field_bit, Nat.reduceSub, srcOf_bits, srcOk_bits]
  first | rfl | simp_all [need, Instr.wellFormed]

theorem copyOut (o : MCQ) : Statement (.copyOut o) := by
  intro h w e
  obtain rfl := Option.some.inj e
  refine table_m ?_
  rw [decodeM, if_neg (nonzero 34 6 (wMC_op ..) (by decide)), wMC_op]
  refine Eq.trans (b := decMC _ _ ) rfl ?_
  simp (disch := decide) only [decMC, need, decAccw, fnVF, fnVI, fnAcc, wMC_op, wMC_qp, wMC_qu, wMC_d, wMC_a, wMC_b, wMC_fn, wMC_low, wMC_bit,
    field_hi, field_lo, field_all, bit_hi, bit_lo, bit_bit, bit_zero, field_bit, Nat.reduceSub, srcOf_bits, srcOk_bits]
  first | rfl | simp_all [need, Instr.wellFormed]

theorem copy2d (o : MCQ) : Statement (.copy2d o) := by
  intro h w e
  obtain rfl := Option.some.inj e
  refine table_m ?_
  rw [decodeM, if_neg (nonzero 34 6 (wMC_op ..) (by decide)), wMC_op]
  refine Eq.trans (b := need _ (Instr.copy2d _)) rfl ?_
  simp (disch := decide) only [wMC_op, wMC_qp, wMC_qu, wMC_d, wMC_a, wMC_b, wMC_fn, wMC_low, wMC_bit, field_hi, field_lo, field_all, bit_hi, bit_lo,
    bit_bit, bit_zero, field_bit, Nat.reduceSub, srcOf_bits, srcOk_bits]
  first | exact if_pos h | exact if_pos rfl | simp_all [need, Instr.wellFormed]

theorem accwAdd (o : MAcc) : Statement (.accwAdd o) := by
  intro h w e
  obtain rfl := Option.some.inj e
  refine table_m ?_
  rw [decodeM, if_neg (nonzero 34 6 (wMC_op ..) (by decide)), wMC_op]
  refine Eq.trans (b := decMC _ _ ) rfl ?_
  simp (disch := decide) only [decMC, need, decAccw, fnVF, fnVI, fnAcc, wMC_op, wMC_qp, wMC_qu, wMC_d, wMC_a, wMC_b, wMC_fn, wMC_low, wMC_bit,
    field_hi, field_lo, field_all, bit_hi, bit_lo, bit_bit, bit_zero, field_bit, Nat.reduceSub, srcOf_bits, srcOk_bits]
  first | rfl | simp_all [need, Instr.wellFormed]

theorem accwMin (o : MAcc) : Statement (.accwMin o) := by
  intro h w e
  obtain rfl := Option.some.inj e
  refine table_m ?_
  rw [decodeM, if_neg (nonzero 34 6 (wMC_op ..) (by decide)), wMC_op]
  refine Eq.trans (b := decMC _ _ ) rfl ?_
  simp (disch := decide) only [decMC, need, decAccw, fnVF, fnVI, fnAcc, wMC_op, wMC_qp, wMC_qu, wMC_d, wMC_a, wMC_b, wMC_fn, wMC_low, wMC_bit,
    field_hi, field_lo, field_all, bit_hi, bit_lo, bit_bit, bit_zero, field_bit, Nat.reduceSub, srcOf_bits, srcOk_bits]
  first | rfl | simp_all [need, Instr.wellFormed]

theorem accwMax (o : MAcc) : Statement (.accwMax o) := by
  intro h w e
  obtain rfl := Option.some.inj e
  refine table_m ?_
  rw [decodeM, if_neg (nonzero 34 6 (wMC_op ..) (by decide)), wMC_op]
  refine Eq.trans (b := decMC _ _ ) rfl ?_
  simp (disch := decide) only [decMC, need, decAccw, fnVF, fnVI, fnAcc, wMC_op, wMC_qp, wMC_qu, wMC_d, wMC_a, wMC_b, wMC_fn, wMC_low, wMC_bit,
    field_hi, field_lo, field_all, bit_hi, bit_lo, bit_bit, bit_zero, field_bit, Nat.reduceSub, srcOf_bits, srcOk_bits]
  first | rfl | simp_all [need, Instr.wellFormed]

theorem accwMinz (o : MAcc) : Statement (.accwMinz o) := by
  intro h w e
  obtain rfl := Option.some.inj e
  refine table_m ?_
  rw [decodeM, if_neg (nonzero 34 6 (wMC_op ..) (by decide)), wMC_op]
  refine Eq.trans (b := decMC _ _ ) rfl ?_
  simp (disch := decide) only [decMC, need, decAccw, fnVF, fnVI, fnAcc, wMC_op, wMC_qp, wMC_qu, wMC_d, wMC_a, wMC_b, wMC_fn, wMC_low, wMC_bit,
    field_hi, field_lo, field_all, bit_hi, bit_lo, bit_bit, bit_zero, field_bit, Nat.reduceSub, srcOf_bits, srcOk_bits]
  first | rfl | simp_all [need, Instr.wellFormed]

theorem accwMaxz (o : MAcc) : Statement (.accwMaxz o) := by
  intro h w e
  obtain rfl := Option.some.inj e
  refine table_m ?_
  rw [decodeM, if_neg (nonzero 34 6 (wMC_op ..) (by decide)), wMC_op]
  refine Eq.trans (b := decMC _ _ ) rfl ?_
  simp (disch := decide) only [decMC, need, decAccw, fnVF, fnVI, fnAcc, wMC_op, wMC_qp, wMC_qu, wMC_d, wMC_a, wMC_b, wMC_fn, wMC_low, wMC_bit,
    field_hi, field_lo, field_all, bit_hi, bit_lo, bit_bit, bit_zero, field_bit, Nat.reduceSub, srcOf_bits, srcOk_bits]
  first | rfl | simp_all [need, Instr.wellFormed]

theorem accwAnd (o : MAcc) : Statement (.accwAnd o) := by
  intro h w e
  obtain rfl := Option.some.inj e
  refine table_m ?_
  rw [decodeM, if_neg (nonzero 34 6 (wMC_op ..) (by decide)), wMC_op]
  refine Eq.trans (b := decMC _ _ ) rfl ?_
  simp (disch := decide) only [decMC, need, decAccw, fnVF, fnVI, fnAcc, wMC_op, wMC_qp, wMC_qu, wMC_d, wMC_a, wMC_b, wMC_fn, wMC_low, wMC_bit,
    field_hi, field_lo, field_all, bit_hi, bit_lo, bit_bit, bit_zero, field_bit, Nat.reduceSub, srcOf_bits, srcOk_bits]
  first | rfl | simp_all [need, Instr.wellFormed]

theorem accwOr (o : MAcc) : Statement (.accwOr o) := by
  intro h w e
  obtain rfl := Option.some.inj e
  refine table_m ?_
  rw [decodeM, if_neg (nonzero 34 6 (wMC_op ..) (by decide)), wMC_op]
  refine Eq.trans (b := decMC _ _ ) rfl ?_
  simp (disch := decide) only [decMC, need, decAccw, fnVF, fnVI, fnAcc, wMC_op, wMC_qp, wMC_qu, wMC_d, wMC_a, wMC_b, wMC_fn, wMC_low, wMC_bit,
    field_hi, field_lo, field_all, bit_hi, bit_lo, bit_bit, bit_zero, field_bit, Nat.reduceSub, srcOf_bits, srcOk_bits]
  first | rfl | simp_all [need, Instr.wellFormed]

theorem accwXor (o : MAcc) : Statement (.accwXor o) := by
  intro h w e
  obtain rfl := Option.some.inj e
  refine table_m ?_
  rw [decodeM, if_neg (nonzero 34 6 (wMC_op ..) (by decide)), wMC_op]
  refine Eq.trans (b := decMC _ _ ) rfl ?_
  simp (disch := decide) only [decMC, need, decAccw, fnVF, fnVI, fnAcc, wMC_op, wMC_qp, wMC_qu, wMC_d, wMC_a, wMC_b, wMC_fn, wMC_low, wMC_bit,
    field_hi, field_lo, field_all, bit_hi, bit_lo, bit_bit, bit_zero, field_bit, Nat.reduceSub, srcOf_bits, srcOk_bits]
  first | rfl | simp_all [need, Instr.wellFormed]

theorem accwSwap (o : MAccB) : Statement (.accwSwap o) := by
  intro h w e
  obtain rfl := Option.some.inj e
  refine table_m ?_
  rw [decodeM, if_neg (nonzero 34 6 (wMC_op ..) (by decide)), wMC_op]
  refine Eq.trans (b := decMC _ _ ) rfl ?_
  simp (disch := decide) only [decMC, need, decAccw, fnVF, fnVI, fnAcc, wMC_op, wMC_qp, wMC_qu, wMC_d, wMC_a, wMC_b, wMC_fn, wMC_low, wMC_bit,
    field_hi, field_lo, field_all, bit_hi, bit_lo, bit_bit, bit_zero, field_bit, Nat.reduceSub, srcOf_bits, srcOk_bits]
  first | rfl | simp_all [need, Instr.wellFormed]

theorem accwCas (o : MAccB) : Statement (.accwCas o) := by
  intro h w e
  obtain rfl := Option.some.inj e
  refine table_m ?_
  rw [decodeM, if_neg (nonzero 34 6 (wMC_op ..) (by decide)), wMC_op]
  refine Eq.trans (b := decMC _ _ ) rfl ?_
  simp (disch := decide) only [decMC, need, decAccw, fnVF, fnVI, fnAcc, wMC_op, wMC_qp, wMC_qu, wMC_d, wMC_a, wMC_b, wMC_fn, wMC_low, wMC_bit,
    field_hi, field_lo, field_all, bit_hi, bit_lo, bit_bit, bit_zero, field_bit, Nat.reduceSub, srcOf_bits, srcOk_bits]
  first | rfl | simp_all [need, Instr.wellFormed]

theorem accwFaddq (o : MFaddq) : Statement (.accwFaddq o) := by
  intro h w e
  obtain rfl := Option.some.inj e
  refine table_m ?_
  rw [decodeM, if_neg (nonzero 34 6 (wMC_op ..) (by decide)), wMC_op]
  refine Eq.trans (b := decMC _ _ ) rfl ?_
  simp (disch := decide) only [decMC, need, decAccw, fnVF, fnVI, fnAcc, wMC_op, wMC_qp, wMC_qu, wMC_d, wMC_a, wMC_b, wMC_fn, wMC_low, wMC_bit,
    field_hi, field_lo, field_all, bit_hi, bit_lo, bit_bit, bit_zero, field_bit, Nat.reduceSub, srcOf_bits, srcOk_bits]
  first | rfl | simp_all [need, Instr.wellFormed]

theorem ald (o : MCQ) : Statement (.ald o) := by
  intro h w e
  obtain rfl := Option.some.inj e
  refine table_m ?_
  rw [decodeM, if_neg (nonzero 34 6 (wMC_op ..) (by decide)), wMC_op]
  refine Eq.trans (b := need _ (Instr.ald _)) rfl ?_
  simp (disch := decide) only [wMC_op, wMC_qp, wMC_qu, wMC_d, wMC_a, wMC_b, wMC_fn, wMC_low, wMC_bit, field_hi, field_lo, field_all, bit_hi, bit_lo,
    bit_bit, bit_zero, field_bit, Nat.reduceSub, srcOf_bits, srcOk_bits]
  first | exact if_pos h | exact if_pos rfl | simp_all [need, Instr.wellFormed]

theorem qnotify (o : MNot) : Statement (.qnotify o) := by
  intro h w e
  obtain rfl := Option.some.inj e
  refine table_m ?_
  rw [decodeM, if_neg (nonzero 34 6 (wMC_op ..) (by decide)), wMC_op]
  refine Eq.trans (b := need _ (Instr.qnotify _)) rfl ?_
  simp (disch := decide) only [wMC_op, wMC_qp, wMC_qu, wMC_d, wMC_a, wMC_b, wMC_fn, wMC_low, wMC_bit, field_hi, field_lo, field_all, bit_hi, bit_lo,
    bit_bit, bit_zero, field_bit, Nat.reduceSub, srcOf_bits, srcOk_bits]
  first | exact if_pos h | exact if_pos rfl | simp_all [need, Instr.wellFormed]

theorem qfence (o : MQf) : Statement (.qfence o) := by
  intro h w e
  obtain rfl := Option.some.inj e
  refine table_m ?_
  rw [decodeM, if_neg (nonzero 34 6 (wMC_op ..) (by decide)), wMC_op]
  refine Eq.trans (b := need _ (Instr.qfence _)) rfl ?_
  simp (disch := decide) only [wMC_op, wMC_qp, wMC_qu, wMC_d, wMC_a, wMC_b, wMC_fn, wMC_low, wMC_bit, field_hi, field_lo, field_all, bit_hi, bit_lo,
    bit_bit, bit_zero, field_bit, Nat.reduceSub, srcOf_bits, srcOk_bits]
  first | exact if_pos h | exact if_pos rfl | simp_all [need, Instr.wellFormed]

theorem fpostr (o : MPost) : Statement (.fpostr o) := by
  intro h w e
  obtain rfl := Option.some.inj e
  refine table_m ?_
  rw [decodeM, if_neg (nonzero 34 6 (wMC_op ..) (by decide)), wMC_op]
  refine Eq.trans (b := need _ (Instr.fpostr _)) rfl ?_
  simp (disch := decide) only [wMC_op, wMC_qp, wMC_qu, wMC_d, wMC_a, wMC_b, wMC_fn, wMC_low, wMC_bit, field_hi, field_lo, field_all, bit_hi, bit_lo,
    bit_bit, bit_zero, field_bit, Nat.reduceSub, srcOf_bits, srcOk_bits]
  first | exact if_pos h | exact if_pos rfl | simp_all [need, Instr.wellFormed]

theorem fenceRel (o : MFence) : Statement (.fenceRel o) := by
  intro h w e
  obtain rfl := Option.some.inj e
  refine table_m ?_
  rw [decodeM, if_neg (nonzero 34 6 (wMC_op ..) (by decide)), wMC_op]
  refine Eq.trans (b := decMC _ _ ) rfl ?_
  simp (disch := decide) only [decMC, need, decAccw, fnVF, fnVI, fnAcc, wMC_op, wMC_qp, wMC_qu, wMC_d, wMC_a, wMC_b, wMC_fn, wMC_low, wMC_bit,
    field_hi, field_lo, field_all, bit_hi, bit_lo, bit_bit, bit_zero, field_bit, Nat.reduceSub, srcOf_bits, srcOk_bits]
  first | rfl | simp_all [need, Instr.wellFormed]

theorem fenceAcq (o : MFence) : Statement (.fenceAcq o) := by
  intro h w e
  obtain rfl := Option.some.inj e
  refine table_m ?_
  rw [decodeM, if_neg (nonzero 34 6 (wMC_op ..) (by decide)), wMC_op]
  refine Eq.trans (b := decMC _ _ ) rfl ?_
  simp (disch := decide) only [decMC, need, decAccw, fnVF, fnVI, fnAcc, wMC_op, wMC_qp, wMC_qu, wMC_d, wMC_a, wMC_b, wMC_fn, wMC_low, wMC_bit,
    field_hi, field_lo, field_all, bit_hi, bit_lo, bit_bit, bit_zero, field_bit, Nat.reduceSub, srcOf_bits, srcOk_bits]
  first | rfl | simp_all [need, Instr.wellFormed]

theorem fenceFull (o : MFence) : Statement (.fenceFull o) := by
  intro h w e
  obtain rfl := Option.some.inj e
  refine table_m ?_
  rw [decodeM, if_neg (nonzero 34 6 (wMC_op ..) (by decide)), wMC_op]
  refine Eq.trans (b := decMC _ _ ) rfl ?_
  simp (disch := decide) only [decMC, need, decAccw, fnVF, fnVI, fnAcc, wMC_op, wMC_qp, wMC_qu, wMC_d, wMC_a, wMC_b, wMC_fn, wMC_low, wMC_bit,
    field_hi, field_lo, field_all, bit_hi, bit_lo, bit_bit, bit_zero, field_bit, Nat.reduceSub, srcOf_bits, srcOk_bits]
  first | rfl | simp_all [need, Instr.wellFormed]

theorem fenceFullq (o : MFence) : Statement (.fenceFullq o) := by
  intro h w e
  obtain rfl := Option.some.inj e
  refine table_m ?_
  rw [decodeM, if_neg (nonzero 34 6 (wMC_op ..) (by decide)), wMC_op]
  refine Eq.trans (b := decMC _ _ ) rfl ?_
  simp (disch := decide) only [decMC, need, decAccw, fnVF, fnVI, fnAcc, wMC_op, wMC_qp, wMC_qu, wMC_d, wMC_a, wMC_b, wMC_fn, wMC_low, wMC_bit,
    field_hi, field_lo, field_all, bit_hi, bit_lo, bit_bit, bit_zero, field_bit, Nat.reduceSub, srcOf_bits, srcOk_bits]
  first | rfl | simp_all [need, Instr.wellFormed]

theorem xlat (o : MXlat) : Statement (.xlat o) := by
  intro h w e
  obtain rfl := Option.some.inj e
  refine table_m ?_
  rw [decodeM, if_neg (nonzero 34 6 (wMC_op ..) (by decide)), wMC_op]
  refine Eq.trans (b := need _ (Instr.xlat _)) rfl ?_
  simp (disch := decide) only [wMC_op, wMC_qp, wMC_qu, wMC_d, wMC_a, wMC_b, wMC_fn, wMC_low, wMC_bit, field_hi, field_lo, field_all, bit_hi, bit_lo,
    bit_bit, bit_zero, field_bit, Nat.reduceSub, srcOf_bits, srcOk_bits]
  first | exact if_pos h | exact if_pos rfl | simp_all [need, Instr.wellFormed]

theorem hrel (o : MHrel) : Statement (.hrel o) := by
  intro h w e
  obtain rfl := Option.some.inj e
  refine table_m ?_
  rw [decodeM, if_neg (nonzero 34 6 (wMC_op ..) (by decide)), wMC_op]
  refine Eq.trans (b := need _ (Instr.hrel _)) rfl ?_
  simp (disch := decide) only [wMC_op, wMC_qp, wMC_qu, wMC_d, wMC_a, wMC_b, wMC_fn, wMC_low, wMC_bit, field_hi, field_lo, field_all, bit_hi, bit_lo,
    bit_bit, bit_zero, field_bit, Nat.reduceSub, srcOf_bits, srcOk_bits]
  first | exact if_pos h | exact if_pos rfl | simp_all [need, Instr.wellFormed]

theorem hinfo (o : MHinfo) : Statement (.hinfo o) := by
  intro h w e
  obtain rfl := Option.some.inj e
  refine table_m ?_
  rw [decodeM, if_neg (nonzero 34 6 (wMC_op ..) (by decide)), wMC_op]
  refine Eq.trans (b := decMC _ _ ) rfl ?_
  simp (disch := decide) only [decMC, need, decAccw, fnVF, fnVI, fnAcc, wMC_op, wMC_qp, wMC_qu, wMC_d, wMC_a, wMC_b, wMC_fn, wMC_low, wMC_bit,
    field_hi, field_lo, field_all, bit_hi, bit_lo, bit_bit, bit_zero, field_bit, Nat.reduceSub, srcOf_bits, srcOk_bits]
  first | rfl | simp_all [need, Instr.wellFormed]

theorem hinfoVa (o : MHinfo) : Statement (.hinfoVa o) := by
  intro h w e
  obtain rfl := Option.some.inj e
  refine table_m ?_
  rw [decodeM, if_neg (nonzero 34 6 (wMC_op ..) (by decide)), wMC_op]
  refine Eq.trans (b := decMC _ _ ) rfl ?_
  simp (disch := decide) only [decMC, need, decAccw, fnVF, fnVI, fnAcc, wMC_op, wMC_qp, wMC_qu, wMC_d, wMC_a, wMC_b, wMC_fn, wMC_low, wMC_bit,
    field_hi, field_lo, field_all, bit_hi, bit_lo, bit_bit, bit_zero, field_bit, Nat.reduceSub, srcOf_bits, srcOk_bits]
  first | rfl | simp_all [need, Instr.wellFormed]

theorem pcommit (o : MDAB) : Statement (.pcommit o) := by
  intro h w e
  obtain rfl := Option.some.inj e
  refine table_m ?_
  rw [decodeM, if_neg (nonzero 34 6 (wMC_op ..) (by decide)), wMC_op]
  refine Eq.trans (b := decMC _ _ ) rfl ?_
  simp (disch := decide) only [decMC, need, decAccw, fnVF, fnVI, fnAcc, wMC_op, wMC_qp, wMC_qu, wMC_d, wMC_a, wMC_b, wMC_fn, wMC_low, wMC_bit,
    field_hi, field_lo, field_all, bit_hi, bit_lo, bit_bit, bit_zero, field_bit, Nat.reduceSub, srcOf_bits, srcOk_bits]
  first | rfl | simp_all [need, Instr.wellFormed]

theorem pdecommit (o : MDA) : Statement (.pdecommit o) := by
  intro h w e
  obtain rfl := Option.some.inj e
  refine table_m ?_
  rw [decodeM, if_neg (nonzero 34 6 (wMC_op ..) (by decide)), wMC_op]
  refine Eq.trans (b := decMC _ _ ) rfl ?_
  simp (disch := decide) only [decMC, need, decAccw, fnVF, fnVI, fnAcc, wMC_op, wMC_qp, wMC_qu, wMC_d, wMC_a, wMC_b, wMC_fn, wMC_low, wMC_bit,
    field_hi, field_lo, field_all, bit_hi, bit_lo, bit_bit, bit_zero, field_bit, Nat.reduceSub, srcOf_bits, srcOk_bits]
  first | rfl | simp_all [need, Instr.wellFormed]

theorem qalloc (o : MDAZ) : Statement (.qalloc o) := by
  intro h w e
  obtain rfl := Option.some.inj e
  refine table_m ?_
  rw [decodeM, if_neg (nonzero 34 6 (wMC_op ..) (by decide)), wMC_op]
  refine Eq.trans (b := need _ (Instr.qalloc _)) rfl ?_
  simp (disch := decide) only [wMC_op, wMC_qp, wMC_qu, wMC_d, wMC_a, wMC_b, wMC_fn, wMC_low, wMC_bit, field_hi, field_lo, field_all, bit_hi, bit_lo,
    bit_bit, bit_zero, field_bit, Nat.reduceSub, srcOf_bits, srcOk_bits]
  first | exact if_pos h | exact if_pos rfl | simp_all [need, Instr.wellFormed]

theorem qfree (o : MDA) : Statement (.qfree o) := by
  intro h w e
  obtain rfl := Option.some.inj e
  refine table_m ?_
  rw [decodeM, if_neg (nonzero 34 6 (wMC_op ..) (by decide)), wMC_op]
  refine Eq.trans (b := need _ (Instr.qfree _)) rfl ?_
  simp (disch := decide) only [wMC_op, wMC_qp, wMC_qu, wMC_d, wMC_a, wMC_b, wMC_fn, wMC_low, wMC_bit, field_hi, field_lo, field_all, bit_hi, bit_lo,
    bit_bit, bit_zero, field_bit, Nat.reduceSub, srcOf_bits, srcOk_bits]
  first | exact if_pos h | exact if_pos rfl | simp_all [need, Instr.wellFormed]

theorem btset (o : MDAB) : Statement (.btset o) := by
  intro h w e
  obtain rfl := Option.some.inj e
  refine table_m ?_
  rw [decodeM, if_neg (nonzero 34 6 (wMC_op ..) (by decide)), wMC_op]
  refine Eq.trans (b := decMC _ _ ) rfl ?_
  simp (disch := decide) only [decMC, need, decAccw, fnVF, fnVI, fnAcc, wMC_op, wMC_qp, wMC_qu, wMC_d, wMC_a, wMC_b, wMC_fn, wMC_low, wMC_bit,
    field_hi, field_lo, field_all, bit_hi, bit_lo, bit_bit, bit_zero, field_bit, Nat.reduceSub, srcOf_bits, srcOk_bits]
  first | rfl | simp_all [need, Instr.wellFormed]

theorem btget (o : MDA) : Statement (.btget o) := by
  intro h w e
  obtain rfl := Option.some.inj e
  refine table_m ?_
  rw [decodeM, if_neg (nonzero 34 6 (wMC_op ..) (by decide)), wMC_op]
  refine Eq.trans (b := decMC _ _ ) rfl ?_
  simp (disch := decide) only [decMC, need, decAccw, fnVF, fnVI, fnAcc, wMC_op, wMC_qp, wMC_qu, wMC_d, wMC_a, wMC_b, wMC_fn, wMC_low, wMC_bit,
    field_hi, field_lo, field_all, bit_hi, bit_lo, bit_bit, bit_zero, field_bit, Nat.reduceSub, srcOf_bits, srcOk_bits]
  first | rfl | simp_all [need, Instr.wellFormed]

theorem btapp (o : MDAZ) : Statement (.btapp o) := by
  intro h w e
  obtain rfl := Option.some.inj e
  refine table_m ?_
  rw [decodeM, if_neg (nonzero 34 6 (wMC_op ..) (by decide)), wMC_op]
  refine Eq.trans (b := need _ (Instr.btapp _)) rfl ?_
  simp (disch := decide) only [wMC_op, wMC_qp, wMC_qu, wMC_d, wMC_a, wMC_b, wMC_fn, wMC_low, wMC_bit, field_hi, field_lo, field_all, bit_hi, bit_lo,
    bit_bit, bit_zero, field_bit, Nat.reduceSub, srcOf_bits, srcOk_bits]
  first | exact if_pos h | exact if_pos rfl | simp_all [need, Instr.wellFormed]

theorem launch (o : MDAB) : Statement (.launch o) := by
  intro h w e
  obtain rfl := Option.some.inj e
  refine table_m ?_
  rw [decodeM, if_neg (nonzero 34 6 (wMC_op ..) (by decide)), wMC_op]
  refine Eq.trans (b := need _ (Instr.launch _)) rfl ?_
  simp (disch := decide) only [wMC_op, wMC_qp, wMC_qu, wMC_d, wMC_a, wMC_b, wMC_fn, wMC_low, wMC_bit, field_hi, field_lo, field_all, bit_hi, bit_lo,
    bit_bit, bit_zero, field_bit, Nat.reduceSub, srcOf_bits, srcOk_bits]
  first | exact if_pos h | exact if_pos rfl | simp_all [need, Instr.wellFormed]

theorem shapeFinal (o : MAB) : Statement (.shapeFinal o) := by
  intro h w e
  obtain rfl := Option.some.inj e
  refine table_m ?_
  rw [decodeM, if_neg (nonzero 34 6 (wMC_op ..) (by decide)), wMC_op]
  refine Eq.trans (b := decMC _ _ ) rfl ?_
  simp (disch := decide) only [decMC, need, decAccw, fnVF, fnVI, fnAcc, wMC_op, wMC_qp, wMC_qu, wMC_d, wMC_a, wMC_b, wMC_fn, wMC_low, wMC_bit,
    field_hi, field_lo, field_all, bit_hi, bit_lo, bit_bit, bit_zero, field_bit, Nat.reduceSub, srcOf_bits, srcOk_bits]
  first | rfl | simp_all [need, Instr.wellFormed]

theorem shapeFloor (o : MAB) : Statement (.shapeFloor o) := by
  intro h w e
  obtain rfl := Option.some.inj e
  refine table_m ?_
  rw [decodeM, if_neg (nonzero 34 6 (wMC_op ..) (by decide)), wMC_op]
  refine Eq.trans (b := decMC _ _ ) rfl ?_
  simp (disch := decide) only [decMC, need, decAccw, fnVF, fnVI, fnAcc, wMC_op, wMC_qp, wMC_qu, wMC_d, wMC_a, wMC_b, wMC_fn, wMC_low, wMC_bit,
    field_hi, field_lo, field_all, bit_hi, bit_lo, bit_bit, bit_zero, field_bit, Nat.reduceSub, srcOf_bits, srcOk_bits]
  first | rfl | simp_all [need, Instr.wellFormed]

theorem graph (o : MDAB) : Statement (.graph o) := by
  intro h w e
  obtain rfl := Option.some.inj e
  refine table_m ?_
  rw [decodeM, if_neg (nonzero 34 6 (wMC_op ..) (by decide)), wMC_op]
  refine Eq.trans (b := need _ (Instr.graph _)) rfl ?_
  simp (disch := decide) only [wMC_op, wMC_qp, wMC_qu, wMC_d, wMC_a, wMC_b, wMC_fn, wMC_low, wMC_bit, field_hi, field_lo, field_all, bit_hi, bit_lo,
    bit_bit, bit_zero, field_bit, Nat.reduceSub, srcOf_bits, srcOk_bits]
  first | exact if_pos h | exact if_pos rfl | simp_all [need, Instr.wellFormed]

theorem vadd (o : VF) : Statement (.vadd o) := by
  intro h w e
  obtain rfl := Option.some.inj e
  refine table_v0 ?_
  rw [decodeV_vf (wVR_op ..) (by decide) (by decide)]
  simp (disch := decide) only [decVF, need, fnVF, fnVI, wVR_op, wVR_qp, wVR_km, wVR_d, wVR_a, wVR_b, wVR_low, wVR_bit,
    field_hi, field_lo, field_all, bit_hi, bit_lo, bit_bit, bit_zero, field_bit, Nat.reduceSub, srcOf_bits, srcOk_bits]
  first | rfl | simp_all [need, Instr.wellFormed]

theorem vsub (o : VF) : Statement (.vsub o) := by
  intro h w e
  obtain rfl := Option.some.inj e
  refine table_v0 ?_
  rw [decodeV_vf (wVR_op ..) (by decide) (by decide)]
  simp (disch := decide) only [decVF, need, fnVF, fnVI, wVR_op, wVR_qp, wVR_km, wVR_d, wVR_a, wVR_b, wVR_low, wVR_bit,
    field_hi, field_lo, field_all, bit_hi, bit_lo, bit_bit, bit_zero, field_bit, Nat.reduceSub, srcOf_bits, srcOk_bits]
  first | rfl | simp_all [need, Instr.wellFormed]

theorem vmul (o : VF) : Statement (.vmul o) := by
  intro h w e
  obtain rfl := Option.some.inj e
  refine table_v0 ?_
  rw [decodeV_vf (wVR_op ..) (by decide) (by decide)]
  simp (disch := decide) only [decVF, need, fnVF, fnVI, wVR_op, wVR_qp, wVR_km, wVR_d, wVR_a, wVR_b, wVR_low, wVR_bit,
    field_hi, field_lo, field_all, bit_hi, bit_lo, bit_bit, bit_zero, field_bit, Nat.reduceSub, srcOf_bits, srcOk_bits]
  first | rfl | simp_all [need, Instr.wellFormed]

theorem vfma (o : VF) : Statement (.vfma o) := by
  intro h w e
  obtain rfl := Option.some.inj e
  refine table_v0 ?_
  rw [decodeV_vf (wVR_op ..) (by decide) (by decide)]
  simp (disch := decide) only [decVF, need, fnVF, fnVI, wVR_op, wVR_qp, wVR_km, wVR_d, wVR_a, wVR_b, wVR_low, wVR_bit,
    field_hi, field_lo, field_all, bit_hi, bit_lo, bit_bit, bit_zero, field_bit, Nat.reduceSub, srcOf_bits, srcOk_bits]
  first | rfl | simp_all [need, Instr.wellFormed]

theorem vfms (o : VF) : Statement (.vfms o) := by
  intro h w e
  obtain rfl := Option.some.inj e
  refine table_v0 ?_
  rw [decodeV_vf (wVR_op ..) (by decide) (by decide)]
  simp (disch := decide) only [decVF, need, fnVF, fnVI, wVR_op, wVR_qp, wVR_km, wVR_d, wVR_a, wVR_b, wVR_low, wVR_bit,
    field_hi, field_lo, field_all, bit_hi, bit_lo, bit_bit, bit_zero, field_bit, Nat.reduceSub, srcOf_bits, srcOk_bits]
  first | rfl | simp_all [need, Instr.wellFormed]

theorem vfnma (o : VF) : Statement (.vfnma o) := by
  intro h w e
  obtain rfl := Option.some.inj e
  refine table_v0 ?_
  rw [decodeV_vf (wVR_op ..) (by decide) (by decide)]
  simp (disch := decide) only [decVF, need, fnVF, fnVI, wVR_op, wVR_qp, wVR_km, wVR_d, wVR_a, wVR_b, wVR_low, wVR_bit,
    field_hi, field_lo, field_all, bit_hi, bit_lo, bit_bit, bit_zero, field_bit, Nat.reduceSub, srcOf_bits, srcOk_bits]
  first | rfl | simp_all [need, Instr.wellFormed]

theorem vmin (o : VFmm) : Statement (.vmin o) := by
  intro h w e
  obtain rfl := Option.some.inj e
  refine table_v0 ?_
  rw [decodeV_vf (wVR_op ..) (by decide) (by decide)]
  simp (disch := decide) only [decVF, need, fnVF, fnVI, wVR_op, wVR_qp, wVR_km, wVR_d, wVR_a, wVR_b, wVR_low, wVR_bit,
    field_hi, field_lo, field_all, bit_hi, bit_lo, bit_bit, bit_zero, field_bit, Nat.reduceSub, srcOf_bits, srcOk_bits]
  first | rfl | simp_all [need, Instr.wellFormed]

theorem vmax (o : VFmm) : Statement (.vmax o) := by
  intro h w e
  obtain rfl := Option.some.inj e
  refine table_v0 ?_
  rw [decodeV_vf (wVR_op ..) (by decide) (by decide)]
  simp (disch := decide) only [decVF, need, fnVF, fnVI, wVR_op, wVR_qp, wVR_km, wVR_d, wVR_a, wVR_b, wVR_low, wVR_bit,
    field_hi, field_lo, field_all, bit_hi, bit_lo, bit_bit, bit_zero, field_bit, Nat.reduceSub, srcOf_bits, srcOk_bits]
  first | rfl | simp_all [need, Instr.wellFormed]

theorem vabs (o : VF1) : Statement (.vabs o) := by
  intro h w e
  obtain rfl := Option.some.inj e
  refine table_v0 ?_
  rw [decodeV_vf (wVR_op ..) (by decide) (by decide)]
  simp (disch := decide) only [decVF, need, fnVF, fnVI, wVR_op, wVR_qp, wVR_km, wVR_d, wVR_a, wVR_b, wVR_low, wVR_bit,
    field_hi, field_lo, field_all, bit_hi, bit_lo, bit_bit, bit_zero, field_bit, Nat.reduceSub, srcOf_bits, srcOk_bits]
  first | rfl | simp_all [need, Instr.wellFormed]

theorem vneg (o : VF1) : Statement (.vneg o) := by
  intro h w e
  obtain rfl := Option.some.inj e
  refine table_v0 ?_
  rw [decodeV_vf (wVR_op ..) (by decide) (by decide)]
  simp (disch := decide) only [decVF, need, fnVF, fnVI, wVR_op, wVR_qp, wVR_km, wVR_d, wVR_a, wVR_b, wVR_low, wVR_bit,
    field_hi, field_lo, field_all, bit_hi, bit_lo, bit_bit, bit_zero, field_bit, Nat.reduceSub, srcOf_bits, srcOk_bits]
  first | rfl | simp_all [need, Instr.wellFormed]

theorem vdiv (o : VF) : Statement (.vdiv o) := by
  intro h w e
  obtain rfl := Option.some.inj e
  refine table_v0 ?_
  rw [decodeV_vf (wVR_op ..) (by decide) (by decide)]
  simp (disch := decide) only [decVF, need, fnVF, fnVI, wVR_op, wVR_qp, wVR_km, wVR_d, wVR_a, wVR_b, wVR_low, wVR_bit,
    field_hi, field_lo, field_all, bit_hi, bit_lo, bit_bit, bit_zero, field_bit, Nat.reduceSub, srcOf_bits, srcOk_bits]
  first | rfl | simp_all [need, Instr.wellFormed]

theorem vsqrt (o : VFr) : Statement (.vsqrt o) := by
  intro h w e
  obtain rfl := Option.some.inj e
  refine table_v0 ?_
  rw [decodeV_vf (wVR_op ..) (by decide) (by decide)]
  simp (disch := decide) only [decVF, need, fnVF, fnVI, wVR_op, wVR_qp, wVR_km, wVR_d, wVR_a, wVR_b, wVR_low, wVR_bit,
    field_hi, field_lo, field_all, bit_hi, bit_lo, bit_bit, bit_zero, field_bit, Nat.reduceSub, srcOf_bits, srcOk_bits]
  first | rfl | simp_all [need, Instr.wellFormed]

theorem vrcp (o : VFs) : Statement (.vrcp o) := by
  intro h w e
  obtain rfl := Option.some.inj e
  refine table_v0 ?_
  rw [decodeV_vf (wVR_op ..) (by decide) (by decide)]
  simp (disch := decide) only [decVF, need, fnVF, fnVI, wVR_op, wVR_qp, wVR_km, wVR_d, wVR_a, wVR_b, wVR_low, wVR_bit,
    field_hi, field_lo, field_all, bit_hi, bit_lo, bit_bit, bit_zero, field_bit, Nat.reduceSub, srcOf_bits, srcOk_bits]
  first | rfl | simp_all [need, Instr.wellFormed]

theorem vrsq (o : VFs) : Statement (.vrsq o) := by
  intro h w e
  obtain rfl := Option.some.inj e
  refine table_v0 ?_
  rw [decodeV_vf (wVR_op ..) (by decide) (by decide)]
  simp (disch := decide) only [decVF, need, fnVF, fnVI, wVR_op, wVR_qp, wVR_km, wVR_d, wVR_a, wVR_b, wVR_low, wVR_bit,
    field_hi, field_lo, field_all, bit_hi, bit_lo, bit_bit, bit_zero, field_bit, Nat.reduceSub, srcOf_bits, srcOk_bits]
  first | rfl | simp_all [need, Instr.wellFormed]

theorem vexp2 (o : VFs) : Statement (.vexp2 o) := by
  intro h w e
  obtain rfl := Option.some.inj e
  refine table_v0 ?_
  rw [decodeV_vf (wVR_op ..) (by decide) (by decide)]
  simp (disch := decide) only [decVF, need, fnVF, fnVI, wVR_op, wVR_qp, wVR_km, wVR_d, wVR_a, wVR_b, wVR_low, wVR_bit,
    field_hi, field_lo, field_all, bit_hi, bit_lo, bit_bit, bit_zero, field_bit, Nat.reduceSub, srcOf_bits, srcOk_bits]
  first | rfl | simp_all [need, Instr.wellFormed]

theorem vlog2 (o : VFs) : Statement (.vlog2 o) := by
  intro h w e
  obtain rfl := Option.some.inj e
  refine table_v0 ?_
  rw [decodeV_vf (wVR_op ..) (by decide) (by decide)]
  simp (disch := decide) only [decVF, need, fnVF, fnVI, wVR_op, wVR_qp, wVR_km, wVR_d, wVR_a, wVR_b, wVR_low, wVR_bit,
    field_hi, field_lo, field_all, bit_hi, bit_lo, bit_bit, bit_zero, field_bit, Nat.reduceSub, srcOf_bits, srcOk_bits]
  first | rfl | simp_all [need, Instr.wellFormed]

theorem vtanh (o : VFs) : Statement (.vtanh o) := by
  intro h w e
  obtain rfl := Option.some.inj e
  refine table_v0 ?_
  rw [decodeV_vf (wVR_op ..) (by decide) (by decide)]
  simp (disch := decide) only [decVF, need, fnVF, fnVI, wVR_op, wVR_qp, wVR_km, wVR_d, wVR_a, wVR_b, wVR_low, wVR_bit,
    field_hi, field_lo, field_all, bit_hi, bit_lo, bit_bit, bit_zero, field_bit, Nat.reduceSub, srcOf_bits, srcOk_bits]
  first | rfl | simp_all [need, Instr.wellFormed]

theorem vscl (o : VF) : Statement (.vscl o) := by
  intro h w e
  obtain rfl := Option.some.inj e
  refine table_v0 ?_
  rw [decodeV_vf (wVR_op ..) (by decide) (by decide)]
  simp (disch := decide) only [decVF, need, fnVF, fnVI, wVR_op, wVR_qp, wVR_km, wVR_d, wVR_a, wVR_b, wVR_low, wVR_bit,
    field_hi, field_lo, field_all, bit_hi, bit_lo, bit_bit, bit_zero, field_bit, Nat.reduceSub, srcOf_bits, srcOk_bits]
  first | rfl | simp_all [need, Instr.wellFormed]

theorem viadd (o : VI) : Statement (.viadd o) := by
  intro h w e
  obtain rfl := Option.some.inj e
  refine table_v0 ?_
  rw [decodeV_vi (wVR_op ..) (by decide) (by decide)]
  simp (disch := decide) only [decVI, need, fnVF, fnVI, wVR_op, wVR_qp, wVR_km, wVR_d, wVR_a, wVR_b, wVR_low, wVR_bit,
    field_hi, field_lo, field_all, bit_hi, bit_lo, bit_bit, bit_zero, field_bit, Nat.reduceSub, srcOf_bits, srcOk_bits]
  first | rfl | simp_all [need, Instr.wellFormed]

theorem visub (o : VI) : Statement (.visub o) := by
  intro h w e
  obtain rfl := Option.some.inj e
  refine table_v0 ?_
  rw [decodeV_vi (wVR_op ..) (by decide) (by decide)]
  simp (disch := decide) only [decVI, need, fnVF, fnVI, wVR_op, wVR_qp, wVR_km, wVR_d, wVR_a, wVR_b, wVR_low, wVR_bit,
    field_hi, field_lo, field_all, bit_hi, bit_lo, bit_bit, bit_zero, field_bit, Nat.reduceSub, srcOf_bits, srcOk_bits]
  first | rfl | simp_all [need, Instr.wellFormed]

theorem vimul (o : VI) : Statement (.vimul o) := by
  intro h w e
  obtain rfl := Option.some.inj e
  refine table_v0 ?_
  rw [decodeV_vi (wVR_op ..) (by decide) (by decide)]
  simp (disch := decide) only [decVI, need, fnVF, fnVI, wVR_op, wVR_qp, wVR_km, wVR_d, wVR_a, wVR_b, wVR_low, wVR_bit,
    field_hi, field_lo, field_all, bit_hi, bit_lo, bit_bit, bit_zero, field_bit, Nat.reduceSub, srcOf_bits, srcOk_bits]
  first | rfl | simp_all [need, Instr.wellFormed]

theorem vimad (o : VI) : Statement (.vimad o) := by
  intro h w e
  obtain rfl := Option.some.inj e
  refine table_v0 ?_
  rw [decodeV_vi (wVR_op ..) (by decide) (by decide)]
  simp (disch := decide) only [decVI, need, fnVF, fnVI, wVR_op, wVR_qp, wVR_km, wVR_d, wVR_a, wVR_b, wVR_low, wVR_bit,
    field_hi, field_lo, field_all, bit_hi, bit_lo, bit_bit, bit_zero, field_bit, Nat.reduceSub, srcOf_bits, srcOk_bits]
  first | rfl | simp_all [need, Instr.wellFormed]

theorem vshl (o : VI) : Statement (.vshl o) := by
  intro h w e
  obtain rfl := Option.some.inj e
  refine table_v0 ?_
  rw [decodeV_vi (wVR_op ..) (by decide) (by decide)]
  simp (disch := decide) only [decVI, need, fnVF, fnVI, wVR_op, wVR_qp, wVR_km, wVR_d, wVR_a, wVR_b, wVR_low, wVR_bit,
    field_hi, field_lo, field_all, bit_hi, bit_lo, bit_bit, bit_zero, field_bit, Nat.reduceSub, srcOf_bits, srcOk_bits]
  first | rfl | simp_all [need, Instr.wellFormed]

theorem vshr (o : VIw) : Statement (.vshr o) := by
  intro h w e
  obtain rfl := Option.some.inj e
  refine table_v0 ?_
  rw [decodeV_vi (wVR_op ..) (by decide) (by decide)]
  simp (disch := decide) only [decVI, need, fnVF, fnVI, wVR_op, wVR_qp, wVR_km, wVR_d, wVR_a, wVR_b, wVR_low, wVR_bit,
    field_hi, field_lo, field_all, bit_hi, bit_lo, bit_bit, bit_zero, field_bit, Nat.reduceSub, srcOf_bits, srcOk_bits]
  first | rfl | simp_all [need, Instr.wellFormed]

theorem vsar (o : VIw) : Statement (.vsar o) := by
  intro h w e
  obtain rfl := Option.some.inj e
  refine table_v0 ?_
  rw [decodeV_vi (wVR_op ..) (by decide) (by decide)]
  simp (disch := decide) only [decVI, need, fnVF, fnVI, wVR_op, wVR_qp, wVR_km, wVR_d, wVR_a, wVR_b, wVR_low, wVR_bit,
    field_hi, field_lo, field_all, bit_hi, bit_lo, bit_bit, bit_zero, field_bit, Nat.reduceSub, srcOf_bits, srcOk_bits]
  first | rfl | simp_all [need, Instr.wellFormed]

theorem vand (o : V2) : Statement (.vand o) := by
  intro h w e
  obtain rfl := Option.some.inj e
  refine table_v0 ?_
  rw [decodeV, if_neg (nonzero 34 6 (wVR_op ..) (by decide)), wVR_op]
  refine Eq.trans (b := need _ (Instr.vand _)) rfl ?_
  simp (disch := decide) only [wVR_op, wVR_qp, wVR_km, wVR_d, wVR_a, wVR_b, wVR_low, wVR_bit, field_hi, field_lo, field_all, bit_hi, bit_lo,
    bit_bit, bit_zero, field_bit, Nat.reduceSub, srcOf_bits, srcOk_bits]
  first | exact if_pos h | exact if_pos rfl | simp_all [need, Instr.wellFormed]

theorem vor (o : V2) : Statement (.vor o) := by
  intro h w e
  obtain rfl := Option.some.inj e
  refine table_v0 ?_
  rw [decodeV, if_neg (nonzero 34 6 (wVR_op ..) (by decide)), wVR_op]
  refine Eq.trans (b := need _ (Instr.vor _)) rfl ?_
  simp (disch := decide) only [wVR_op, wVR_qp, wVR_km, wVR_d, wVR_a, wVR_b, wVR_low, wVR_bit, field_hi, field_lo, field_all, bit_hi, bit_lo,
    bit_bit, bit_zero, field_bit, Nat.reduceSub, srcOf_bits, srcOk_bits]
  first | exact if_pos h | exact if_pos rfl | simp_all [need, Instr.wellFormed]

theorem vxor (o : V2) : Statement (.vxor o) := by
  intro h w e
  obtain rfl := Option.some.inj e
  refine table_v0 ?_
  rw [decodeV, if_neg (nonzero 34 6 (wVR_op ..) (by decide)), wVR_op]
  refine Eq.trans (b := need _ (Instr.vxor _)) rfl ?_
  simp (disch := decide) only [wVR_op, wVR_qp, wVR_km, wVR_d, wVR_a, wVR_b, wVR_low, wVR_bit, field_hi, field_lo, field_all, bit_hi, bit_lo,
    bit_bit, bit_zero, field_bit, Nat.reduceSub, srcOf_bits, srcOk_bits]
  first | exact if_pos h | exact if_pos rfl | simp_all [need, Instr.wellFormed]

theorem vandn (o : V2) : Statement (.vandn o) := by
  intro h w e
  obtain rfl := Option.some.inj e
  refine table_v0 ?_
  rw [decodeV, if_neg (nonzero 34 6 (wVR_op ..) (by decide)), wVR_op]
  refine Eq.trans (b := need _ (Instr.vandn _)) rfl ?_
  simp (disch := decide) only [wVR_op, wVR_qp, wVR_km, wVR_d, wVR_a, wVR_b, wVR_low, wVR_bit, field_hi, field_lo, field_all, bit_hi, bit_lo,
    bit_bit, bit_zero, field_bit, Nat.reduceSub, srcOf_bits, srcOk_bits]
  first | exact if_pos h | exact if_pos rfl | simp_all [need, Instr.wellFormed]

theorem vimin (o : VIs) : Statement (.vimin o) := by
  intro h w e
  obtain rfl := Option.some.inj e
  refine table_v0 ?_
  rw [decodeV_vi (wVR_op ..) (by decide) (by decide)]
  simp (disch := decide) only [decVI, need, fnVF, fnVI, wVR_op, wVR_qp, wVR_km, wVR_d, wVR_a, wVR_b, wVR_low, wVR_bit,
    field_hi, field_lo, field_all, bit_hi, bit_lo, bit_bit, bit_zero, field_bit, Nat.reduceSub, srcOf_bits, srcOk_bits]
  first | rfl | simp_all [need, Instr.wellFormed]

theorem vimax (o : VIs) : Statement (.vimax o) := by
  intro h w e
  obtain rfl := Option.some.inj e
  refine table_v0 ?_
  rw [decodeV_vi (wVR_op ..) (by decide) (by decide)]
  simp (disch := decide) only [decVI, need, fnVF, fnVI, wVR_op, wVR_qp, wVR_km, wVR_d, wVR_a, wVR_b, wVR_low, wVR_bit,
    field_hi, field_lo, field_all, bit_hi, bit_lo, bit_bit, bit_zero, field_bit, Nat.reduceSub, srcOf_bits, srcOk_bits]
  first | rfl | simp_all [need, Instr.wellFormed]

theorem vdot4 (o : VDot) : Statement (.vdot4 o) := by
  intro h w e
  obtain rfl := Option.some.inj e
  refine table_v0 ?_
  rw [decodeV_vi (wVR_op ..) (by decide) (by decide)]
  simp (disch := decide) only [decVI, need, fnVF, fnVI, wVR_op, wVR_qp, wVR_km, wVR_d, wVR_a, wVR_b, wVR_low, wVR_bit,
    field_hi, field_lo, field_all, bit_hi, bit_lo, bit_bit, bit_zero, field_bit, Nat.reduceSub, srcOf_bits, srcOk_bits]
  first | rfl | simp_all [need, Instr.wellFormed]

theorem viabs (o : VIabs) : Statement (.viabs o) := by
  intro h w e
  obtain rfl := Option.some.inj e
  refine table_v0 ?_
  rw [decodeV_vi (wVR_op ..) (by decide) (by decide)]
  simp (disch := decide) only [decVI, need, fnVF, fnVI, wVR_op, wVR_qp, wVR_km, wVR_d, wVR_a, wVR_b, wVR_low, wVR_bit,
    field_hi, field_lo, field_all, bit_hi, bit_lo, bit_bit, bit_zero, field_bit, Nat.reduceSub, srcOf_bits, srcOk_bits]
  first | rfl | simp_all [need, Instr.wellFormed]

theorem vcmp (o : VCmp) : Statement (.vcmp o) := by
  intro h w e
  obtain rfl := Option.some.inj e
  refine table_v0 ?_
  rw [decodeV, if_neg (nonzero 34 6 (wVR_op ..) (by decide)), wVR_op]
  refine Eq.trans (b := need _ (Instr.vcmp _)) rfl ?_
  simp (disch := decide) only [wVR_op, wVR_qp, wVR_km, wVR_d, wVR_a, wVR_b, wVR_low, wVR_bit, field_hi, field_lo, field_all, bit_hi, bit_lo,
    bit_bit, bit_zero, field_bit, Nat.reduceSub, srcOf_bits, srcOk_bits]
  first | exact if_pos h | exact if_pos rfl | simp_all [need, Instr.wellFormed]

theorem vselk (o : VSelk) : Statement (.vselk o) := by
  intro h w e
  obtain rfl := Option.some.inj e
  refine table_v0 ?_
  rw [decodeV, if_neg (nonzero 34 6 (wVR_op ..) (by decide)), wVR_op]
  refine Eq.trans (b := need _ (Instr.vselk _)) rfl ?_
  simp (disch := decide) only [wVR_op, wVR_qp, wVR_km, wVR_d, wVR_a, wVR_b, wVR_low, wVR_bit, field_hi, field_lo, field_all, bit_hi, bit_lo,
    bit_bit, bit_zero, field_bit, Nat.reduceSub, srcOf_bits, srcOk_bits]
  first | exact if_pos h | exact if_pos rfl | simp_all [need, Instr.wellFormed]

theorem kand (o : KL) : Statement (.kand o) := by
  intro h w e
  obtain rfl := Option.some.inj e
  refine table_v0 ?_
  rw [decodeV_k (wVR_op ..) (by decide)]
  simp (disch := decide) only [decK, need, fnVF, fnVI, wVR_op, wVR_qp, wVR_km, wVR_d, wVR_a, wVR_b, wVR_low, wVR_bit,
    field_hi, field_lo, field_all, bit_hi, bit_lo, bit_bit, bit_zero, field_bit, Nat.reduceSub, srcOf_bits, srcOk_bits]
  first | rfl | simp_all [need, Instr.wellFormed]

theorem kor (o : KL) : Statement (.kor o) := by
  intro h w e
  obtain rfl := Option.some.inj e
  refine table_v0 ?_
  rw [decodeV_k (wVR_op ..) (by decide)]
  simp (disch := decide) only [decK, need, fnVF, fnVI, wVR_op, wVR_qp, wVR_km, wVR_d, wVR_a, wVR_b, wVR_low, wVR_bit,
    field_hi, field_lo, field_all, bit_hi, bit_lo, bit_bit, bit_zero, field_bit, Nat.reduceSub, srcOf_bits, srcOk_bits]
  first | rfl | simp_all [need, Instr.wellFormed]

theorem kxor (o : KL) : Statement (.kxor o) := by
  intro h w e
  obtain rfl := Option.some.inj e
  refine table_v0 ?_
  rw [decodeV_k (wVR_op ..) (by decide)]
  simp (disch := decide) only [decK, need, fnVF, fnVI, wVR_op, wVR_qp, wVR_km, wVR_d, wVR_a, wVR_b, wVR_low, wVR_bit,
    field_hi, field_lo, field_all, bit_hi, bit_lo, bit_bit, bit_zero, field_bit, Nat.reduceSub, srcOf_bits, srcOk_bits]
  first | rfl | simp_all [need, Instr.wellFormed]

theorem kandn (o : KL) : Statement (.kandn o) := by
  intro h w e
  obtain rfl := Option.some.inj e
  refine table_v0 ?_
  rw [decodeV_k (wVR_op ..) (by decide)]
  simp (disch := decide) only [decK, need, fnVF, fnVI, wVR_op, wVR_qp, wVR_km, wVR_d, wVR_a, wVR_b, wVR_low, wVR_bit,
    field_hi, field_lo, field_all, bit_hi, bit_lo, bit_bit, bit_zero, field_bit, Nat.reduceSub, srcOf_bits, srcOk_bits]
  first | rfl | simp_all [need, Instr.wellFormed]

theorem knot (o : KL1) : Statement (.knot o) := by
  intro h w e
  obtain rfl := Option.some.inj e
  refine table_v0 ?_
  rw [decodeV_k (wVR_op ..) (by decide)]
  simp (disch := decide) only [decK, need, fnVF, fnVI, wVR_op, wVR_qp, wVR_km, wVR_d, wVR_a, wVR_b, wVR_low, wVR_bit,
    field_hi, field_lo, field_all, bit_hi, bit_lo, bit_bit, bit_zero, field_bit, Nat.reduceSub, srcOf_bits, srcOk_bits]
  first | rfl | simp_all [need, Instr.wellFormed]

theorem kmov (o : KL1) : Statement (.kmov o) := by
  intro h w e
  obtain rfl := Option.some.inj e
  refine table_v0 ?_
  rw [decodeV_k (wVR_op ..) (by decide)]
  simp (disch := decide) only [decK, need, fnVF, fnVI, wVR_op, wVR_qp, wVR_km, wVR_d, wVR_a, wVR_b, wVR_low, wVR_bit,
    field_hi, field_lo, field_all, bit_hi, bit_lo, bit_bit, bit_zero, field_bit, Nat.reduceSub, srcOf_bits, srcOk_bits]
  first | rfl | simp_all [need, Instr.wellFormed]

theorem kmovV2k (o : KV) : Statement (.kmovV2k o) := by
  intro h w e
  obtain rfl := Option.some.inj e
  refine table_v0 ?_
  rw [decodeV_k (wVR_op ..) (by decide)]
  simp (disch := decide) only [decK, need, fnVF, fnVI, wVR_op, wVR_qp, wVR_km, wVR_d, wVR_a, wVR_b, wVR_low, wVR_bit,
    field_hi, field_lo, field_all, bit_hi, bit_lo, bit_bit, bit_zero, field_bit, Nat.reduceSub, srcOf_bits, srcOk_bits]
  first | rfl | simp_all [need, Instr.wellFormed]

theorem kmovK2v (o : VK) : Statement (.kmovK2v o) := by
  intro h w e
  obtain rfl := Option.some.inj e
  refine table_v0 ?_
  rw [decodeV_k (wVR_op ..) (by decide)]
  simp (disch := decide) only [decK, need, fnVF, fnVI, wVR_op, wVR_qp, wVR_km, wVR_d, wVR_a, wVR_b, wVR_low, wVR_bit,
    field_hi, field_lo, field_all, bit_hi, bit_lo, bit_bit, bit_zero, field_bit, Nat.reduceSub, srcOf_bits, srcOk_bits]
  first | rfl | simp_all [need, Instr.wellFormed]

theorem vcvt (o : VCv) : Statement (.vcvt o) := by
  intro h w e
  obtain rfl := Option.some.inj e
  refine table_v0 ?_
  rw [decodeV, if_neg (nonzero 34 6 (wVR_op ..) (by decide)), wVR_op]
  refine Eq.trans (b := need _ (Instr.vcvt _)) rfl ?_
  simp (disch := decide) only [wVR_op, wVR_qp, wVR_km, wVR_d, wVR_a, wVR_b, wVR_low, wVR_bit, field_hi, field_lo, field_all, bit_hi, bit_lo,
    bit_bit, bit_zero, field_bit, Nat.reduceSub, srcOf_bits, srcOk_bits]
  first | exact if_pos h | exact if_pos rfl | simp_all [need, Instr.wellFormed]

theorem vpermb (o : VPb) : Statement (.vpermb o) := by
  intro h w e
  obtain rfl := Option.some.inj e
  refine table_v0 ?_
  rw [decodeV, if_neg (nonzero 34 6 (wVR_op ..) (by decide)), wVR_op]
  refine Eq.trans (b := need _ (Instr.vpermb _)) rfl ?_
  simp (disch := decide) only [wVR_op, wVR_qp, wVR_km, wVR_d, wVR_a, wVR_b, wVR_low, wVR_bit, field_hi, field_lo, field_all, bit_hi, bit_lo,
    bit_bit, bit_zero, field_bit, Nat.reduceSub, srcOf_bits, srcOk_bits]
  first | exact if_pos h | exact if_pos rfl | simp_all [need, Instr.wellFormed]

theorem vperml (o : V2) : Statement (.vperml o) := by
  intro h w e
  obtain rfl := Option.some.inj e
  refine table_v0 ?_
  rw [decodeV, if_neg (nonzero 34 6 (wVR_op ..) (by decide))]
  simp (disch := decide) only [wVR_op, wVR_qp, wVR_km, wVR_d, wVR_a, wVR_b, wVR_low, wVR_bit, field_hi, field_lo, field_all, bit_hi, bit_lo,
    bit_bit, bit_zero, field_bit, Nat.reduceSub, srcOf_bits, srcOk_bits]
  first | rfl | exact if_pos h | simp_all [need, Instr.wellFormed]

theorem vpermlTwo (o : V2) : Statement (.vpermlTwo o) := by
  intro h w e
  obtain rfl := Option.some.inj e
  refine table_v0 ?_
  rw [decodeV, if_neg (nonzero 34 6 (wVR_op ..) (by decide))]
  simp (disch := decide) only [wVR_op, wVR_qp, wVR_km, wVR_d, wVR_a, wVR_b, wVR_low, wVR_bit, field_hi, field_lo, field_all, bit_hi, bit_lo,
    bit_bit, bit_zero, field_bit, Nat.reduceSub, srcOf_bits, srcOk_bits]
  first | rfl | exact if_pos h | simp_all [need, Instr.wellFormed]

theorem vredFsum (o : VRd) : Statement (.vredFsum o) := by
  intro h w e
  obtain rfl := Option.some.inj e
  refine table_v0 ?_
  rw [decodeV, if_neg (nonzero 34 6 (wVR_op ..) (by decide)), wVR_op]
  refine Eq.trans (b := decVred _ _ _ _ _ _ ) rfl ?_
  simp (disch := decide) only [decVred, need, decAccw, fnVF, fnVI, fnAcc, wVR_op, wVR_qp, wVR_km, wVR_d, wVR_a, wVR_b, wVR_low, wVR_bit,
    field_hi, field_lo, field_all, bit_hi, bit_lo, bit_bit, bit_zero, field_bit, Nat.reduceSub, srcOf_bits, srcOk_bits]
  first | rfl | simp_all [need, Instr.wellFormed]

theorem vredFmax (o : VRd) : Statement (.vredFmax o) := by
  intro h w e
  obtain rfl := Option.some.inj e
  refine table_v0 ?_
  rw [decodeV, if_neg (nonzero 34 6 (wVR_op ..) (by decide)), wVR_op]
  refine Eq.trans (b := decVred _ _ _ _ _ _ ) rfl ?_
  simp (disch := decide) only [decVred, need, decAccw, fnVF, fnVI, fnAcc, wVR_op, wVR_qp, wVR_km, wVR_d, wVR_a, wVR_b, wVR_low, wVR_bit,
    field_hi, field_lo, field_all, bit_hi, bit_lo, bit_bit, bit_zero, field_bit, Nat.reduceSub, srcOf_bits, srcOk_bits]
  first | rfl | simp_all [need, Instr.wellFormed]

theorem vredFmin (o : VRd) : Statement (.vredFmin o) := by
  intro h w e
  obtain rfl := Option.some.inj e
  refine table_v0 ?_
  rw [decodeV, if_neg (nonzero 34 6 (wVR_op ..) (by decide)), wVR_op]
  refine Eq.trans (b := decVred _ _ _ _ _ _ ) rfl ?_
  simp (disch := decide) only [decVred, need, decAccw, fnVF, fnVI, fnAcc, wVR_op, wVR_qp, wVR_km, wVR_d, wVR_a, wVR_b, wVR_low, wVR_bit,
    field_hi, field_lo, field_all, bit_hi, bit_lo, bit_bit, bit_zero, field_bit, Nat.reduceSub, srcOf_bits, srcOk_bits]
  first | rfl | simp_all [need, Instr.wellFormed]

theorem vredIsum (o : VRs) : Statement (.vredIsum o) := by
  intro h w e
  obtain rfl := Option.some.inj e
  refine table_v0 ?_
  rw [decodeV, if_neg (nonzero 34 6 (wVR_op ..) (by decide)), wVR_op]
  refine Eq.trans (b := decVred _ _ _ _ _ _ ) rfl ?_
  simp (disch := decide) only [decVred, need, decAccw, fnVF, fnVI, fnAcc, wVR_op, wVR_qp, wVR_km, wVR_d, wVR_a, wVR_b, wVR_low, wVR_bit,
    field_hi, field_lo, field_all, bit_hi, bit_lo, bit_bit, bit_zero, field_bit, Nat.reduceSub, srcOf_bits, srcOk_bits]
  first | rfl | simp_all [need, Instr.wellFormed]

theorem vredImax (o : VRd) : Statement (.vredImax o) := by
  intro h w e
  obtain rfl := Option.some.inj e
  refine table_v0 ?_
  rw [decodeV, if_neg (nonzero 34 6 (wVR_op ..) (by decide)), wVR_op]
  refine Eq.trans (b := decVred _ _ _ _ _ _ ) rfl ?_
  simp (disch := decide) only [decVred, need, decAccw, fnVF, fnVI, fnAcc, wVR_op, wVR_qp, wVR_km, wVR_d, wVR_a, wVR_b, wVR_low, wVR_bit,
    field_hi, field_lo, field_all, bit_hi, bit_lo, bit_bit, bit_zero, field_bit, Nat.reduceSub, srcOf_bits, srcOk_bits]
  first | rfl | simp_all [need, Instr.wellFormed]

theorem vredImin (o : VRd) : Statement (.vredImin o) := by
  intro h w e
  obtain rfl := Option.some.inj e
  refine table_v0 ?_
  rw [decodeV, if_neg (nonzero 34 6 (wVR_op ..) (by decide)), wVR_op]
  refine Eq.trans (b := decVred _ _ _ _ _ _ ) rfl ?_
  simp (disch := decide) only [decVred, need, decAccw, fnVF, fnVI, fnAcc, wVR_op, wVR_qp, wVR_km, wVR_d, wVR_a, wVR_b, wVR_low, wVR_bit,
    field_hi, field_lo, field_all, bit_hi, bit_lo, bit_bit, bit_zero, field_bit, Nat.reduceSub, srcOf_bits, srcOk_bits]
  first | rfl | simp_all [need, Instr.wellFormed]

theorem vredImaxz (o : VRd) : Statement (.vredImaxz o) := by
  intro h w e
  obtain rfl := Option.some.inj e
  refine table_v0 ?_
  rw [decodeV, if_neg (nonzero 34 6 (wVR_op ..) (by decide)), wVR_op]
  refine Eq.trans (b := decVred _ _ _ _ _ _ ) rfl ?_
  simp (disch := decide) only [decVred, need, decAccw, fnVF, fnVI, fnAcc, wVR_op, wVR_qp, wVR_km, wVR_d, wVR_a, wVR_b, wVR_low, wVR_bit,
    field_hi, field_lo, field_all, bit_hi, bit_lo, bit_bit, bit_zero, field_bit, Nat.reduceSub, srcOf_bits, srcOk_bits]
  first | rfl | simp_all [need, Instr.wellFormed]

theorem vredIminz (o : VRd) : Statement (.vredIminz o) := by
  intro h w e
  obtain rfl := Option.some.inj e
  refine table_v0 ?_
  rw [decodeV, if_neg (nonzero 34 6 (wVR_op ..) (by decide)), wVR_op]
  refine Eq.trans (b := decVred _ _ _ _ _ _ ) rfl ?_
  simp (disch := decide) only [decVred, need, decAccw, fnVF, fnVI, fnAcc, wVR_op, wVR_qp, wVR_km, wVR_d, wVR_a, wVR_b, wVR_low, wVR_bit,
    field_hi, field_lo, field_all, bit_hi, bit_lo, bit_bit, bit_zero, field_bit, Nat.reduceSub, srcOf_bits, srcOk_bits]
  first | rfl | simp_all [need, Instr.wellFormed]

theorem vmov (o : VMv) : Statement (.vmov o) := by
  intro h w e
  obtain rfl := Option.some.inj e
  refine table_v0 ?_
  rw [decodeV, if_neg (nonzero 34 6 (wVR_op ..) (by decide))]
  simp (disch := decide) only [wVR_op, wVR_qp, wVR_km, wVR_d, wVR_a, wVR_b, wVR_low, wVR_bit, field_hi, field_lo, field_all, bit_hi, bit_lo,
    bit_bit, bit_zero, field_bit, Nat.reduceSub, srcOf_bits, srcOk_bits]
  first | rfl | exact if_pos h | simp_all [need, Instr.wellFormed]

theorem vbcast (o : VBc) : Statement (.vbcast o) := by
  intro h w e
  obtain rfl := Option.some.inj e
  refine table_v0 ?_
  rw [decodeV, if_neg (nonzero 34 6 (wVR_op ..) (by decide))]
  simp (disch := decide) only [wVR_op, wVR_qp, wVR_km, wVR_d, wVR_a, wVR_b, wVR_low, wVR_bit, field_hi, field_lo, field_all, bit_hi, bit_lo,
    bit_bit, bit_zero, field_bit, Nat.reduceSub, srcOf_bits, srcOk_bits]
  first | rfl | exact if_pos h | simp_all [need, Instr.wellFormed]

theorem vimm (o : VIm) : Statement (.vimm o) := by
  intro h w e
  obtain rfl := Option.some.inj e
  refine table_v0 ?_
  rw [decodeV, if_neg (nonzero 34 6 (wVI_op ..) (by decide)), wVI_op]
  refine Eq.trans (b := need _ (Instr.vimm _)) rfl ?_
  simp (disch := decide) only [wVI_op, wVI_qp, wVI_km, wVI_d, wVI_a, wVI_low, wVI_bit, field_hi, field_lo, field_all, bit_hi, bit_lo,
    bit_bit, bit_zero, field_bit, Nat.reduceSub, srcOf_bits, srcOk_bits]
  first | exact if_pos h | exact if_pos rfl | simp_all [need, Instr.wellFormed]

theorem vtag (o : VTg) : Statement (.vtag o) := by
  intro h w e
  obtain rfl := Option.some.inj e
  refine table_v0 ?_
  rw [decodeV, if_neg (nonzero 34 6 (wVR_op ..) (by decide)), wVR_op]
  refine Eq.trans (b := need _ (Instr.vtag _)) rfl ?_
  simp (disch := decide) only [wVR_op, wVR_qp, wVR_km, wVR_d, wVR_a, wVR_b, wVR_low, wVR_bit, field_hi, field_lo, field_all, bit_hi, bit_lo,
    bit_bit, bit_zero, field_bit, Nat.reduceSub, srcOf_bits, srcOk_bits]
  first | exact if_pos h | exact if_pos rfl | simp_all [need, Instr.wellFormed]

theorem rfmode (o : VRfm) : Statement (.rfmode o) := by
  intro h w e
  obtain rfl := Option.some.inj e
  refine table_v0 ?_
  rw [decodeV, if_neg (nonzero 34 6 (wVI_op ..) (by decide)), wVI_op]
  refine Eq.trans (b := need _ (Instr.rfmode _)) rfl ?_
  simp (disch := decide) only [wVI_op, wVI_qp, wVI_km, wVI_d, wVI_a, wVI_low, wVI_bit, field_hi, field_lo, field_all, bit_hi, bit_lo,
    bit_bit, bit_zero, field_bit, Nat.reduceSub, srcOf_bits, srcOk_bits]
  first | exact if_pos h | exact if_pos rfl | simp_all [need, Instr.wellFormed]

theorem mma (o : XMma) : Statement (.mma o) := by
  intro h w e
  obtain rfl := Option.some.inj e
  refine table_x ?_
  rw [decodeX, if_neg (nonzero 30 6 (wXM_op ..) (by decide)), wXM_op]
  refine Eq.trans (b := need _ (Instr.mma _)) rfl ?_
  simp (disch := decide) only [wXM_op, wXM_qp, wXM_acc, wXM_asel, wXM_b, wXM_low, wXM_bit, field_hi, field_lo, field_all, bit_hi, bit_lo,
    bit_bit, bit_zero, field_bit, Nat.reduceSub, srcOf_bits, srcOk_bits]
  first | exact if_pos h | exact if_pos rfl | simp_all [need, Instr.wellFormed]

theorem mzero (o : XAcc) : Statement (.mzero o) := by
  intro h w e
  obtain rfl := Option.some.inj e
  refine table_x ?_
  rw [decodeX, if_neg (nonzero 30 6 (wXM_op ..) (by decide)), wXM_op]
  refine Eq.trans (b := need _ (Instr.mzero _)) rfl ?_
  simp (disch := decide) only [wXM_op, wXM_qp, wXM_acc, wXM_asel, wXM_b, wXM_low, wXM_bit, field_hi, field_lo, field_all, bit_hi, bit_lo,
    bit_bit, bit_zero, field_bit, Nat.reduceSub, srcOf_bits, srcOk_bits]
  first | exact if_pos h | exact if_pos rfl | simp_all [need, Instr.wellFormed]

theorem mld (o : XMld) : Statement (.mld o) := by
  intro h w e
  obtain rfl := Option.some.inj e
  refine table_x ?_
  rw [decodeX, if_neg (nonzero 30 6 (wXM_op ..) (by decide)), wXM_op]
  refine Eq.trans (b := need _ (Instr.mld _)) rfl ?_
  simp (disch := decide) only [wXM_op, wXM_qp, wXM_acc, wXM_asel, wXM_b, wXM_low, wXM_bit, field_hi, field_lo, field_all, bit_hi, bit_lo,
    bit_bit, bit_zero, field_bit, Nat.reduceSub, srcOf_bits, srcOk_bits]
  first | exact if_pos h | exact if_pos rfl | simp_all [need, Instr.wellFormed]

theorem mstBed (o : XMst) : Statement (.mstBed o) := by
  intro h w e
  obtain rfl := Option.some.inj e
  refine table_x ?_
  rw [decodeX, if_neg (nonzero 30 6 (wXM_op ..) (by decide))]
  simp (disch := decide) only [wXM_op, wXM_qp, wXM_acc, wXM_asel, wXM_b, wXM_low, wXM_bit, field_hi, field_lo, field_all, bit_hi, bit_lo,
    bit_bit, bit_zero, field_bit, Nat.reduceSub, srcOf_bits, srcOk_bits]
  first | rfl | exact if_pos h | simp_all [need, Instr.wellFormed]

theorem mstSignal (o : XMss) : Statement (.mstSignal o) := by
  intro h w e
  obtain rfl := Option.some.inj e
  refine table_x ?_
  rw [decodeX, if_neg (nonzero 30 6 (wXM_op ..) (by decide))]
  have k := srcOk_bits (.tap o.q)
  simp only [Src.bits] at k
  simp (disch := decide) only [wXM_op, wXM_qp, wXM_acc, wXM_asel, wXM_b, wXM_low, wXM_bit, field_hi, field_lo, field_all, bit_hi, bit_lo,
    bit_bit, bit_zero, field_bit, Nat.reduceSub, srcOf_bits, srcOk_bits]
  rw [if_pos (by decide), k]
  simp_all [need, Instr.wellFormed]

theorem mrow (o : XMrow) : Statement (.mrow o) := by
  intro h w e
  obtain rfl := Option.some.inj e
  refine table_x ?_
  rw [decodeX, if_neg (nonzero 30 6 (wXR_op ..) (by decide))]
  simp (disch := decide) only [wXR_op, wXR_qp, wXR_d, wXR_a, wXR_low, wXR_bit, wXR_zero, field_hi, field_lo, field_all, bit_hi, bit_lo,
    bit_bit, bit_zero, field_bit, Nat.reduceSub, srcOf_bits, srcOk_bits]
  first | rfl | exact if_pos h | simp_all [need, Instr.wellFormed]

theorem mrowW (o : XMroww) : Statement (.mrowW o) := by
  intro h w e
  obtain rfl := Option.some.inj e
  refine table_x ?_
  rw [decodeX, if_neg (nonzero 30 6 (wXR_op ..) (by decide))]
  simp (disch := decide) only [wXR_op, wXR_qp, wXR_d, wXR_a, wXR_low, wXR_bit, wXR_zero, field_hi, field_lo, field_all, bit_hi, bit_lo,
    bit_bit, bit_zero, field_bit, Nat.reduceSub, srcOf_bits, srcOk_bits]
  first | rfl | exact if_pos h | simp_all [need, Instr.wellFormed]

theorem mscl (o : XMscl) : Statement (.mscl o) := by
  intro h w e
  obtain rfl := Option.some.inj e
  refine table_x ?_
  rw [decodeX, if_neg (nonzero 30 6 (wXM_op ..) (by decide)), wXM_op]
  refine Eq.trans (b := need _ (Instr.mscl _)) rfl ?_
  simp (disch := decide) only [wXM_op, wXM_qp, wXM_acc, wXM_asel, wXM_b, wXM_low, wXM_bit, field_hi, field_lo, field_all, bit_hi, bit_lo,
    bit_bit, bit_zero, field_bit, Nat.reduceSub, srcOf_bits, srcOk_bits]
  first | exact if_pos h | exact if_pos rfl | simp_all [need, Instr.wellFormed]

theorem mgrp (o : SA) : Statement (.mgrp o) := by
  intro h w e
  obtain rfl := Option.some.inj e
  refine table_x ?_
  rw [decodeX, if_neg (nonzero 30 6 (wXR_op ..) (by decide)), wXR_op]
  refine Eq.trans (b := need _ (Instr.mgrp _)) rfl ?_
  simp (disch := decide) only [wXR_op, wXR_qp, wXR_d, wXR_a, wXR_low, wXR_bit, wXR_zero, field_hi, field_lo, field_all, bit_hi, bit_lo,
    bit_bit, bit_zero, field_bit, Nat.reduceSub, srcOf_bits, srcOk_bits]
  first | exact if_pos h | exact if_pos rfl | simp_all [need, Instr.wellFormed]

theorem sqld (o : SA) : Statement (.sqld o) := by
  intro h w e
  obtain rfl := Option.some.inj e
  refine table_x ?_
  rw [decodeX, if_neg (nonzero 30 6 (wXR_op ..) (by decide)), wXR_op]
  refine Eq.trans (b := need _ (Instr.sqld _)) rfl ?_
  simp (disch := decide) only [wXR_op, wXR_qp, wXR_d, wXR_a, wXR_low, wXR_bit, wXR_zero, field_hi, field_lo, field_all, bit_hi, bit_lo,
    bit_bit, bit_zero, field_bit, Nat.reduceSub, srcOf_bits, srcOk_bits]
  first | exact if_pos h | exact if_pos rfl | simp_all [need, Instr.wellFormed]

theorem sqgo (o : SQ) : Statement (.sqgo o) := by
  intro h w e
  obtain rfl := Option.some.inj e
  refine table_x ?_
  rw [decodeX, if_neg (nonzero 30 6 (wXR_op ..) (by decide))]
  simp (disch := decide) only [wXR_op, wXR_qp, wXR_d, wXR_a, wXR_low, wXR_bit, wXR_zero, field_hi, field_lo, field_all, bit_hi, bit_lo,
    bit_bit, bit_zero, field_bit, Nat.reduceSub, srcOf_bits, srcOk_bits]
  first | rfl | exact if_pos h | simp_all [need, Instr.wellFormed]

theorem sqst (o : XSqst) : Statement (.sqst o) := by
  intro h w e
  obtain rfl := Option.some.inj e
  refine table_x ?_
  rw [decodeX, if_neg (nonzero 30 6 (wXR_op ..) (by decide)), wXR_op]
  refine Eq.trans (b := need _ (Instr.sqst _)) rfl ?_
  simp (disch := decide) only [wXR_op, wXR_qp, wXR_d, wXR_a, wXR_low, wXR_bit, wXR_zero, field_hi, field_lo, field_all, bit_hi, bit_lo,
    bit_bit, bit_zero, field_bit, Nat.reduceSub, srcOf_bits, srcOk_bits]
  first | exact if_pos h | exact if_pos rfl | simp_all [need, Instr.wellFormed]

theorem sqabt (o : SQ) : Statement (.sqabt o) := by
  intro h w e
  obtain rfl := Option.some.inj e
  refine table_x ?_
  rw [decodeX, if_neg (nonzero 30 6 (wXR_op ..) (by decide))]
  simp (disch := decide) only [wXR_op, wXR_qp, wXR_d, wXR_a, wXR_low, wXR_bit, wXR_zero, field_hi, field_lo, field_all, bit_hi, bit_lo,
    bit_bit, bit_zero, field_bit, Nat.reduceSub, srcOf_bits, srcOk_bits]
  first | rfl | exact if_pos h | simp_all [need, Instr.wellFormed]

theorem attn (o : XAttn) : Statement (.attn o) := by
  intro h w e
  obtain rfl := Option.some.inj e
  refine table_x ?_
  rw [decodeX, if_neg (nonzero 30 6 (wXM_op ..) (by decide)), wXM_op]
  refine Eq.trans (b := need _ (Instr.attn _)) rfl ?_
  simp (disch := decide) only [wXM_op, wXM_qp, wXM_acc, wXM_asel, wXM_b, wXM_low, wXM_bit, field_hi, field_lo, field_all, bit_hi, bit_lo,
    bit_bit, bit_zero, field_bit, Nat.reduceSub, srcOf_bits, srcOk_bits]
  first | exact if_pos h | exact if_pos rfl | simp_all [need, Instr.wellFormed]

theorem tapset (o : XTs) : Statement (.tapset o) := by
  intro h w e
  obtain rfl := Option.some.inj e
  refine table_x ?_
  rw [decodeX, if_neg (nonzero 30 6 (wXS_op ..) (by decide)), wXS_op]
  refine Eq.trans (b := SlotDec.ok (Instr.tapset _)) rfl ?_
  simp (disch := decide) only [wXS_op, wXS_qp, wXS_q, wXS_sig, wXS_low, wXS_bit, field_hi, field_lo, field_all, bit_hi, bit_lo,
    bit_bit, bit_zero, field_bit, Nat.reduceSub, srcOf_bits, srcOk_bits]

theorem tapsetx (o : XTx) : Statement (.tapsetx o) := by
  intro h w e
  obtain rfl := Option.some.inj e
  refine table_x ?_
  rw [decodeX, if_neg (nonzero 30 6 (wXR_op ..) (by decide)), wXR_op]
  refine Eq.trans (b := need _ (Instr.tapsetx _)) rfl ?_
  simp (disch := decide) only [wXR_op, wXR_qp, wXR_d, wXR_a, wXR_low, wXR_bit, wXR_zero, field_hi, field_lo, field_all, bit_hi, bit_lo,
    bit_bit, bit_zero, field_bit, Nat.reduceSub, srcOf_bits, srcOk_bits]
  first | exact if_pos h | exact if_pos rfl | simp_all [need, Instr.wellFormed]

theorem taprd (o : XTap) : Statement (.taprd o) := by
  intro h w e
  obtain rfl := Option.some.inj e
  refine table_x ?_
  rw [decodeX, if_neg (nonzero 30 6 (wXR_op ..) (by decide)), wXR_op]
  refine Eq.trans (b := need _ (Instr.taprd _)) rfl ?_
  simp (disch := decide) only [wXR_op, wXR_qp, wXR_d, wXR_a, wXR_low, wXR_bit, wXR_zero, field_hi, field_lo, field_all, bit_hi, bit_lo,
    bit_bit, bit_zero, field_bit, Nat.reduceSub, srcOf_bits, srcOk_bits]
  first | exact if_pos h | exact if_pos rfl | simp_all [need, Instr.wellFormed]

theorem tapwr (o : XTw) : Statement (.tapwr o) := by
  intro h w e
  obtain rfl := Option.some.inj e
  refine table_x ?_
  rw [decodeX, if_neg (nonzero 30 6 (wXR_op ..) (by decide)), wXR_op]
  refine Eq.trans (b := need _ (Instr.tapwr _)) rfl ?_
  simp (disch := decide) only [wXR_op, wXR_qp, wXR_d, wXR_a, wXR_low, wXR_bit, wXR_zero, field_hi, field_lo, field_all, bit_hi, bit_lo,
    bit_bit, bit_zero, field_bit, Nat.reduceSub, srcOf_bits, srcOk_bits]
  first | exact if_pos h | exact if_pos rfl | simp_all [need, Instr.wellFormed]

theorem siginf (o : XSi) : Statement (.siginf o) := by
  intro h w e
  obtain rfl := Option.some.inj e
  refine table_x ?_
  rw [decodeX, if_neg (nonzero 30 6 (wXR_op ..) (by decide)), wXR_op]
  refine Eq.trans (b := need _ (Instr.siginf _)) rfl ?_
  simp (disch := decide) only [wXR_op, wXR_qp, wXR_d, wXR_a, wXR_low, wXR_bit, wXR_zero, field_hi, field_lo, field_all, bit_hi, bit_lo,
    bit_bit, bit_zero, field_bit, Nat.reduceSub, srcOf_bits, srcOk_bits]
  first | exact if_pos h | exact if_pos rfl | simp_all [need, Instr.wellFormed]

theorem slotsSel (o : XSl) : Statement (.slotsSel o) := by
  intro h w e
  obtain rfl := Option.some.inj e
  refine table_x ?_
  rw [decodeX, if_neg (nonzero 30 6 (wXR_op ..) (by decide))]
  simp (disch := decide) only [wXR_op, wXR_qp, wXR_d, wXR_a, wXR_low, wXR_bit, wXR_zero, field_hi, field_lo, field_all, bit_hi, bit_lo,
    bit_bit, bit_zero, field_bit, Nat.reduceSub, srcOf_bits, srcOk_bits]
  first | rfl | exact if_pos h | simp_all [need, Instr.wellFormed]

theorem slotsClr (o : XSl) : Statement (.slotsClr o) := by
  intro h w e
  obtain rfl := Option.some.inj e
  refine table_x ?_
  rw [decodeX, if_neg (nonzero 30 6 (wXR_op ..) (by decide))]
  simp (disch := decide) only [wXR_op, wXR_qp, wXR_d, wXR_a, wXR_low, wXR_bit, wXR_zero, field_hi, field_lo, field_all, bit_hi, bit_lo,
    bit_bit, bit_zero, field_bit, Nat.reduceSub, srcOf_bits, srcOk_bits]
  first | rfl | exact if_pos h | simp_all [need, Instr.wellFormed]

theorem slotsOne (o : XSl) : Statement (.slotsOne o) := by
  intro h w e
  obtain rfl := Option.some.inj e
  refine table_x ?_
  rw [decodeX, if_neg (nonzero 30 6 (wXR_op ..) (by decide))]
  simp (disch := decide) only [wXR_op, wXR_qp, wXR_d, wXR_a, wXR_low, wXR_bit, wXR_zero, field_hi, field_lo, field_all, bit_hi, bit_lo,
    bit_bit, bit_zero, field_bit, Nat.reduceSub, srcOf_bits, srcOk_bits]
  first | rfl | exact if_pos h | simp_all [need, Instr.wellFormed]

theorem sigrst (o : XSr) : Statement (.sigrst o) := by
  intro h w e
  obtain rfl := Option.some.inj e
  refine table_x ?_
  rw [decodeX, if_neg (nonzero 30 6 (wXS_op ..) (by decide)), wXS_op]
  refine Eq.trans (b := need _ (Instr.sigrst _)) rfl ?_
  simp (disch := decide) only [wXS_op, wXS_qp, wXS_q, wXS_sig, wXS_low, wXS_bit, field_hi, field_lo, field_all, bit_hi, bit_lo,
    bit_bit, bit_zero, field_bit, Nat.reduceSub, srcOf_bits, srcOk_bits]
  first | exact if_pos h | exact if_pos rfl | simp_all [need, Instr.wellFormed]

theorem tick : Statement (.tick) := by
  intro h w e
  obtain rfl := Option.some.inj e
  refine table_c ?_
  rw [decodeC, if_neg (nonzero 15 5 (wC_op ..) (by decide)), wC_op]
  refine Eq.trans (b := SlotDec.ok (Instr.tick)) rfl ?_
  simp (disch := decide) only [wC_op, wC_low, wC_bit, field_hi, field_lo, field_all, bit_hi, bit_lo,
    bit_bit, bit_zero, field_bit, Nat.reduceSub, srcOf_bits, srcOk_bits]

theorem fwait (o : CF) : Statement (.fwait o) := by
  intro h w e
  obtain rfl := Option.some.inj e
  refine table_c ?_
  rw [decodeC, if_neg (nonzero 15 5 (wC_op ..) (by decide)), wC_op]
  refine Eq.trans (b := SlotDec.ok (Instr.fwait _)) rfl ?_
  simp (disch := decide) only [wC_op, wC_low, wC_bit, field_hi, field_lo, field_all, bit_hi, bit_lo,
    bit_bit, bit_zero, field_bit, Nat.reduceSub, srcOf_bits, srcOk_bits]

theorem fpost (o : CF) : Statement (.fpost o) := by
  intro h w e
  obtain rfl := Option.some.inj e
  refine table_c ?_
  rw [decodeC, if_neg (nonzero 15 5 (wC_op ..) (by decide)), wC_op]
  refine Eq.trans (b := SlotDec.ok (Instr.fpost _)) rfl ?_
  simp (disch := decide) only [wC_op, wC_low, wC_bit, field_hi, field_lo, field_all, bit_hi, bit_lo,
    bit_bit, bit_zero, field_bit, Nat.reduceSub, srcOf_bits, srcOk_bits]

theorem waitn (o : CW) : Statement (.waitn o) := by
  intro h w e
  obtain rfl := Option.some.inj e
  refine table_c ?_
  rw [decodeC, if_neg (nonzero 15 5 (wC_op ..) (by decide)), wC_op]
  refine Eq.trans (b := SlotDec.ok (Instr.waitn _)) rfl ?_
  simp (disch := decide) only [wC_op, wC_low, wC_bit, field_hi, field_lo, field_all, bit_hi, bit_lo,
    bit_bit, bit_zero, field_bit, Nat.reduceSub, srcOf_bits, srcOk_bits]

theorem phreg (o : CPr) : Statement (.phreg o) := by
  intro h w e
  obtain rfl := Option.some.inj e
  refine table_c ?_
  rw [decodeC, if_neg (nonzero 15 5 (wC_op ..) (by decide)), wC_op]
  refine Eq.trans (b := need _ (Instr.phreg _)) rfl ?_
  simp (disch := decide) only [wC_op, wC_low, wC_bit, field_hi, field_lo, field_all, bit_hi, bit_lo,
    bit_bit, bit_zero, field_bit, Nat.reduceSub, srcOf_bits, srcOk_bits]
  first | exact if_pos h | exact if_pos rfl | simp_all [need, Instr.wellFormed]

theorem pharr (o : CPh) : Statement (.pharr o) := by
  intro h w e
  obtain rfl := Option.some.inj e
  refine table_c ?_
  rw [decodeC, if_neg (nonzero 15 5 (wC_op ..) (by decide)), wC_op]
  refine Eq.trans (b := need _ (Instr.pharr _)) rfl ?_
  simp (disch := decide) only [wC_op, wC_low, wC_bit, field_hi, field_lo, field_all, bit_hi, bit_lo,
    bit_bit, bit_zero, field_bit, Nat.reduceSub, srcOf_bits, srcOk_bits]
  first | exact if_pos h | exact if_pos rfl | simp_all [need, Instr.wellFormed]

theorem phwait (o : CPh) : Statement (.phwait o) := by
  intro h w e
  obtain rfl := Option.some.inj e
  refine table_c ?_
  rw [decodeC, if_neg (nonzero 15 5 (wC_op ..) (by decide)), wC_op]
  refine Eq.trans (b := need _ (Instr.phwait _)) rfl ?_
  simp (disch := decide) only [wC_op, wC_low, wC_bit, field_hi, field_lo, field_all, bit_hi, bit_lo,
    bit_bit, bit_zero, field_bit, Nat.reduceSub, srcOf_bits, srcOk_bits]
  first | exact if_pos h | exact if_pos rfl | simp_all [need, Instr.wellFormed]

theorem phdrop (o : CPh) : Statement (.phdrop o) := by
  intro h w e
  obtain rfl := Option.some.inj e
  refine table_c ?_
  rw [decodeC, if_neg (nonzero 15 5 (wC_op ..) (by decide)), wC_op]
  refine Eq.trans (b := need _ (Instr.phdrop _)) rfl ?_
  simp (disch := decide) only [wC_op, wC_low, wC_bit, field_hi, field_lo, field_all, bit_hi, bit_lo,
    bit_bit, bit_zero, field_bit, Nat.reduceSub, srcOf_bits, srcOk_bits]
  first | exact if_pos h | exact if_pos rfl | simp_all [need, Instr.wellFormed]

theorem restartMark c : Statement (.restartMark c) := nofun

theorem resultLanding c : Statement (.resultLanding c) := nofun

theorem resultArrival c n : Statement (.resultArrival c n) := nofun

theorem clusterWakeDone c v : Statement (.clusterWakeDone c v) := nofun

theorem freezeCycle c : Statement (.freezeCycle c) := nofun

theorem ballastCycle c : Statement (.ballastCycle c) := nofun

theorem rollbackFault c f : Statement (.rollbackFault c f) := nofun

theorem trapEntry c f : Statement (.trapEntry c f) := nofun

theorem tileEntryComplete c : Statement (.tileEntryComplete c) := nofun

theorem tileFaultReport c : Statement (.tileFaultReport c) := nofun

theorem commandComplete c q : Statement (.commandComplete c q) := nofun

theorem ingressSampleDelivery c q : Statement (.ingressSampleDelivery c q) := nofun

theorem egressSampleDrain c q : Statement (.egressSampleDrain c q) := nofun

theorem mirrorSampleArrival c sig : Statement (.mirrorSampleArrival c sig) := nofun

theorem unitEnd c : Statement (.unitEnd c) := nofun

theorem taskSuspend c : Statement (.taskSuspend c) := nofun

theorem flagPostArrival c f n : Statement (.flagPostArrival c f n) := nofun

theorem taskPick c : Statement (.taskPick c) := nofun

theorem preempt c : Statement (.preempt c) := nofun

theorem resume c k : Statement (.resume c k) := nofun

theorem launchAccept : Statement .launchAccept := nofun

theorem launchStart : Statement .launchStart := nofun

theorem blockDeal l : Statement (.blockDeal l) := nofun

theorem unitStart l stage m c : Statement (.unitStart l stage m c) := nofun

theorem launchComplete l : Statement (.launchComplete l) := nofun

theorem shapePost : Statement .shapePost := nofun

theorem blockCommit l b : Statement (.blockCommit l b) := nofun

theorem graphVisit g : Statement (.graphVisit g) := nofun

theorem translationWalkDone c h : Statement (.translationWalkDone c h) := nofun

theorem pageMigration asid va pa : Statement (.pageMigration asid va pa) := nofun

theorem blockDrainDone asid pool blk : Statement (.blockDrainDone asid pool blk) := nofun

theorem sqTail fn q v : Statement (.sqTail fn q v) := nofun

theorem submissionRecord fn q : Statement (.submissionRecord fn q) := nofun

theorem cqHead fn q v : Statement (.cqHead fn q v) := nofun

theorem fqHead fn v : Statement (.fqHead fn v) := nofun

theorem faultReplyResume fn req : Statement (.faultReplyResume fn req) := nofun

theorem faultReplyEnd fn req : Statement (.faultReplyEnd fn req) := nofun

theorem sqConf fn addr : Statement (.sqConf fn addr) := nofun

theorem cqConf fn addr : Statement (.cqConf fn addr) := nofun

theorem fqConf fn addr : Statement (.fqConf fn addr) := nofun

theorem qReset fn addr : Statement (.qReset fn addr) := nofun

theorem ctxCreate fn addr : Statement (.ctxCreate fn addr) := nofun

theorem ctxDestroy fn addr : Statement (.ctxDestroy fn addr) := nofun

theorem invalidate fn addr : Statement (.invalidate fn addr) := nofun

theorem predClear fn addr : Statement (.predClear fn addr) := nofun

theorem hostMemoryAccess fn asid va write bytes : Statement (.hostMemoryAccess fn asid va write bytes) := nofun

theorem coldReset img : Statement (.coldReset img) := nofun

theorem getVersion r : Statement (.getVersion r) := nofun

theorem getCapabilities r : Statement (.getCapabilities r) := nofun

theorem negotiateAlgorithms r : Statement (.negotiateAlgorithms r) := nofun

theorem getDigests r : Statement (.getDigests r) := nofun

theorem getCertificate r : Statement (.getCertificate r) := nofun

theorem challenge r : Statement (.challenge r) := nofun

theorem getMeasurements r : Statement (.getMeasurements r) := nofun

theorem keyExchange r : Statement (.keyExchange r) := nofun

theorem finish r : Statement (.finish r) := nofun

theorem endSession r : Statement (.endSession r) := nofun

theorem tdispLeaveRun fn err : Statement (.tdispLeaveRun fn err) := nofun

theorem linkAuthFail l : Statement (.linkAuthFail l) := nofun

theorem linkPathLost pkg : Statement (.linkPathLost pkg) := nofun

theorem collectiveSubmit asid ch desc : Statement (.collectiveSubmit asid ch desc) := nofun

theorem collectiveComplete ch peers : Statement (.collectiveComplete ch peers) := nofun

theorem loweringNotice pkg ceiling t : Statement (.loweringNotice pkg ceiling t) := nofun

theorem loweringNoticeDue : Statement .loweringNoticeDue := nofun

theorem raiseJoinLeave kind pkg ceiling : Statement (.raiseJoinLeave kind pkg ceiling) := nofun

theorem epochBoundary : Statement .epochBoundary := nofun

theorem heartbeat pkg : Statement (.heartbeat pkg) := nofun

theorem memberSilent pkg : Statement (.memberSilent pkg) := nofun

theorem leaderTimeout : Statement .leaderTimeout := nofun

theorem memberIsolated : Statement .memberIsolated := nofun

theorem emergencyLimit f : Statement (.emergencyLimit f) := nofun

theorem urgentNotice pkg f : Statement (.urgentNotice pkg f) := nofun

theorem dieFence d : Statement (.dieFence d) := nofun

theorem hubDieFatal h : Statement (.hubDieFatal h) := nofun

theorem vfReset fn : Statement (.vfReset fn) := nofun

theorem memberWithdrawn ch : Statement (.memberWithdrawn ch) := nofun

theorem powerRingPeriod demand used : Statement (.powerRingPeriod demand used) := nofun

theorem overcapBallastLimit d : Statement (.overcapBallastLimit d) := nofun

theorem pkgCapWrite v : Statement (.pkgCapWrite v) := nofun

theorem diePwrWrite d v : Statement (.diePwrWrite d v) := nofun

theorem vtrimWrite d v : Statement (.vtrimWrite d v) := nofun

theorem voltageLow d col f : Statement (.voltageLow d col f) := nofun

theorem wdogCtlWrite fn v : Statement (.wdogCtlWrite fn v) := nofun

theorem watchdogExpiry c : Statement (.watchdogExpiry c) := nofun

theorem errorDetected inst addr asid synd ue : Statement (.errorDetected inst addr asid synd ue) := nofun

theorem linkCrcError l : Statement (.linkCrcError l) := nofun

theorem errStatClear inst : Statement (.errStatClear inst) := nofun

theorem errInjWrite inst v : Statement (.errInjWrite inst v) := nofun

theorem clReqRun k : Statement (.clReqRun k) := nofun

theorem clReqQuiesced k : Statement (.clReqQuiesced k) := nofun

theorem clReqSaved k : Statement (.clReqSaved k) := nofun

theorem clReqGated k : Statement (.clReqGated k) := nofun

theorem clStateReached k : Statement (.clStateReached k) := nofun

theorem clWake k : Statement (.clWake k) := nofun

theorem clStart k v : Statement (.clStart k v) := nofun

theorem linkBringUp l ok : Statement (.linkBringUp l ok) := nofun

theorem tdispLock fn : Statement (.tdispLock fn) := nofun

theorem tdispEnterRun fn : Statement (.tdispEnterRun fn) := nofun

theorem antiRollbackRaise v sigOk : Statement (.antiRollbackRaise v sigOk) := nofun

theorem groupBinding pkg group ch asid members ranks : Statement (.groupBinding pkg group ch asid members ranks) := nofun

theorem curLimitBaseSet c v : Statement (.curLimitBaseSet c v) := nofun

end Sys2Proof.Laws.EncodeDecode
end

