-- ==== Sys2Proof/Machine/Object.lean ====
section
/-! DEFINITION. The BOF object format (R365 to R379): what a file holds, which files are rejected, its symbols and relocations, and what
objects joined into a module put into memory, the image record among it. No step reads a file: system software maps what a module holds,
and a dispatcher reads the image record from memory (R376). -/

namespace Sys2Proof.Machine

/-- A section with its table entry (R368). -/
structure BofSec where
  type : Nat
  align : Nat
  flags : Nat
  offset : Nat
  addr : Nat
  bytes : List Byte
  deriving DecidableEq, Repr

/-- The header of a BOF file (R366) and its sections in table order. -/
structure Bof where
  kind : Nat
  mode : Nat
  features : Nat
  profiles : List Nat
  line : Nat
  scratch : Nat
  vbud : Nat
  members : Nat
  stages : Nat
  entry : Nat
  tickBudget : Nat
  secs : List BofSec
  deriving DecidableEq, Repr

/-- A symbol (R378). -/
structure BofSym where
  value : Nat
  name : List Byte
  sect : Nat
  kind : Nat
  bind_ : Nat
  size : Nat
  deriving DecidableEq, Repr

/-- A relocation record (R377). -/
structure BofReloc where
  offset : Nat
  symbol : Nat
  sect : Nat
  type : Nat
  slot : Nat
  addend : Int
  deriving DecidableEq, Repr

/-- ENTRY of a file without an entry (R366). -/
def noEntry : Nat := 0xFFFFFFFFFFFFFFE0

/-- The little-endian number of n bytes at an offset (R365). -/
def fileNum (bs : List Byte) (off n : Nat) : Nat := natOfBytes ((bs.drop off).take n)

/-- Bytes with an n-byte number put at an offset. -/
def putNum (bs : List Byte) (off n v : Nat) : List Byte := bs.take off ++ bytesOfNat v n ++ bs.drop (off + n)

/-- The first multiple of a at or after n. -/
def roundUp (n a : Nat) : Nat := ceilDiv n a * a

/-- A section of a file by its table entry (R368); none where the entry breaks its layout, or the section the file. -/
def readSec (bs : List Byte) (off : Nat) : Option BofSec :=
  let o := fileNum bs (off + 8) 8
  let n := fileNum bs (off + 16) 8
  if 1 ≤ fileNum bs off 1 ∧ fileNum bs off 1 ≤ 9 ∧ fileNum bs (off + 1) 1 ≤ 30 ∧ fileNum bs (off + 2) 2 < 16 ∧ fileNum bs (off + 4) 4 = 0 ∧
      o + n ≤ bs.length then
    some ⟨fileNum bs off 1, fileNum bs (off + 1) 1, fileNum bs (off + 2) 2, o, fileNum bs (off + 24) 8, (bs.drop o).take n⟩
  else none

/-- A BOF file read (R365 to R368); none where the linker and the loader reject it. -/
def readBof (bs : List Byte) : Option Bof :=
  let n := fileNum bs 0x2D 1
  if fileNum bs 0 4 = 0x464F42 ∧ fileNum bs 4 2 = 1 ∧ fileNum bs 6 1 ≤ 1 ∧ fileNum bs 0x2E 2 = 0 ∧ fileNum bs 0x3C 4 = 0 ∧ 1 ≤ n ∧ n ≤ 16 then
    ((List.range n).mapM (fun i => readSec bs (0x40 + 32 * i))).map (fun secs =>
      { kind := fileNum bs 6 1, mode := fileNum bs 7 1, features := fileNum bs 8 16,
        profiles := (List.range 8).map (fun i => fileNum bs (0x18 + 2 * i) 2), line := fileNum bs 0x28 1, scratch := fileNum bs 0x29 1,
        vbud := fileNum bs 0x2A 1, members := fileNum bs 0x2B 1, stages := fileNum bs 0x2C 1, entry := fileNum bs 0x30 8,
        tickBudget := fileNum bs 0x38 4, secs := secs })
  else none

/-- The FLAGS of a section type: 1 R, 2 W, 4 X, 8 LOAD (R369). -/
def secFlags (type : Nat) : Nat := getAt [0, 13, 11, 9, 0, 0, 9, 9, 0, 0] type 0

/-- Whether an ALIGN is one of a section type (R369). -/
def secAlignOk (type align : Nat) : Bool :=
  match type with
  | 1 => align == 5
  | 2 => 3 ≤ align
  | 3 => 3 ≤ align
  | 6 => align == 6
  | 7 => align == 6
  | _ => align == 3

/-- Whether the sections follow the table at the places R365 gives, the gaps zero. -/
def Bof.laidOut (bs : List Byte) : Nat → List BofSec → Bool
  | _, [] => true
  | at_, e :: es => e.offset == roundUp at_ (2 ^ e.align) && ((bs.drop at_).take (e.offset - at_)).all (· == 0) &&
      Bof.laidOut bs (e.offset + e.bytes.length) es

/-- Sections given their file offsets, from an offset on (R365, R368). -/
def laySecs : Nat → List BofSec → List BofSec
  | _, [] => []
  | at_, e :: es =>
    let o := roundUp at_ (2 ^ e.align)
    { e with offset := o } :: laySecs (o + e.bytes.length) es

/-- A file that keeps R365, R366, R368 and R369. -/
def Bof.wellFormed (bs : List Byte) (f : Bof) : Bool :=
  Bof.laidOut bs (0x40 + 32 * f.secs.length) f.secs &&
  f.mode ≤ 1 && f.line + f.scratch ≤ 96 && 1 ≤ f.vbud && f.vbud ≤ 4 && f.members ≤ 15 && f.entry % 32 == 0 &&
  (f.mode == 1 || (f.line == 0 && f.members == 0 && f.stages == 0)) &&
  decide (f.secs.map (·.type)).Nodup &&
  f.secs.all (fun e => e.flags == secFlags e.type && secAlignOk e.type e.align &&
    (if f.kind == 0 then e.addr == 0 else e.type != 8 && (e.flags < 8 || e.addr % 4096 == 0)))

/-- The section of a type, and its bytes (none are no bytes). -/
def Bof.sec (f : Bof) (type : Nat) : Option BofSec := f.secs.find? (·.type == type)
def Bof.bytes (f : Bof) (type : Nat) : List Byte := ((f.sec type).map (·.bytes)).getD []

/-- The bytes before the zero byte that ends a name. -/
def nameOf (bs : List Byte) : List Byte := bs.takeWhile (· != 0)

/-- The symbols of a file (R378). -/
def Bof.syms (f : Bof) : List BofSym :=
  let b := f.bytes 9
  (List.range (fileNum b 0 4)).map (fun i =>
    let o := 8 + 24 * i
    ⟨fileNum b o 8, nameOf (b.drop (fileNum b (o + 12) 4)), fileNum b (o + 10) 2, fileNum b (o + 9) 1, fileNum b (o + 8) 1, fileNum b (o + 16) 8⟩)

/-- The relocations of a file (R377). -/
def Bof.relocs (f : Bof) : List BofReloc :=
  let b := f.bytes 8
  (List.range (fileNum b 0 4)).map (fun i =>
    let o := 8 + 24 * i
    ⟨fileNum b o 8, fileNum b (o + 12) 4, fileNum b (o + 10) 1, fileNum b (o + 9) 1, fileNum b (o + 8) 1 % 8, sNat 64 (fileNum b (o + 16) 8)⟩)

/-- The stage map, the signal records, and the primes in record order (R371, R373). -/
def Bof.stageMap (f : Bof) : List Nat :=
  let b := f.bytes 4
  (List.range (fileNum b 2 2)).map (fun i => fileNum b (8 + 2 * i) 2)

def Bof.signals (f : Bof) : List (List Byte) :=
  let b := f.bytes 4
  (List.range (fileNum b 0 2)).map (fun i => (b.drop (8 + roundUp (2 * fileNum b 2 2) 8 + 32 * i)).take 32)

/-- Whether a signal record has a prime image, and the bytes of a sample (R372). -/
def recHasPrime (r : List Byte) : Bool := natBits (fileNum r 8 8) 12 1 == 1
def recSize (r : List Byte) : Nat := 8 * 2 ^ natBits (fileNum r 8 8) 0 4

/-- A bundle's bytes with the low n bits of the slot at bit lo of the bundle replaced. -/
def patchSlot (bs : List Byte) (off lo n v : Nat) : List Byte :=
  let b := fileNum bs off 32
  putNum bs off 32 (b - natBits b lo n * 2 ^ lo + v % 2 ^ n * 2 ^ lo)

/-- A relocation applied to the bytes of its section, which stands at place: s is its symbol's value, image the image record's address; none
where the value does not fit (R377). -/
def BofReloc.apply (r : BofReloc) (s image place : Int) (bs : List Byte) : Option (List Byte) :=
  let v := s + r.addend
  let low := fun (n : Nat) (v : Int) =>
    if 0 ≤ v ∧ v < (2 ^ n : Nat) then
      some (putNum bs r.offset 8 (fileNum bs r.offset 8 / 2 ^ n * 2 ^ n + v.toNat))
    else none
  let slot := if r.slot = 1 then some 28 else if r.slot = 2 then some 64 else none
  let imm := fun (n : Nat) (v : Int) => slot.map (fun lo => patchSlot bs r.offset lo n (natWrap n v))
  match r.type with
  | 1 => if -(2 ^ 63 : Int) ≤ v ∧ v < 2 ^ 64 then some (putNum bs r.offset 8 (natWrap 64 v)) else none
  | 2 => low 56 v
  | 3 => low 48 v
  | 4 => low 56 (image + r.addend)
  | 5 =>
    let d := (v - (place + r.offset)) / 32
    if v % 32 = 0 ∧ -(2 ^ 25 : Int) ≤ d ∧ d < 2 ^ 25 then imm 26 d else none
  | 6 => imm 16 v
  | 7 => imm 16 (v / 2 ^ 16)
  | 8 => imm 16 (v / 2 ^ 32)
  | 9 => imm 16 (v / 2 ^ 48)
  | 10 => if -(2 ^ 19 : Int) ≤ v ∧ v < 2 ^ 19 then imm 20 v else none
  | _ => none

/-! Joining (R379). -/

/-- One value of a field on which objects agree where both set it nonzero (R379, step 3). -/
def agreed : List Nat → Option Nat
  | [] => some 0
  | n :: ns => (agreed ns).bind fun m => if n = 0 ∨ n = m ∨ m = 0 then some (if n = 0 then m else n) else none

/-- The parts of a section, one an object, each aligned: their offsets and the joined bytes (R379, step 1). -/
def joinParts (align : Nat) : List Byte → List (List Byte) → List Nat × List Byte
  | acc, [] => ([], acc)
  | acc, p :: ps =>
    let o := if p = [] then acc.length else roundUp acc.length align
    let r := joinParts align (acc ++ List.replicate (o - acc.length) 0 ++ p) ps
    (o :: r.1, r.2)

/-- The X slot's SIG field of every bundle of some code raised by n (R379, step 5): TAPSET and SIGRST hold it in [22:15], TAPSETX,
SIGINF and SLOTS in [7:0] (R83). -/
def shiftSigs (n : Nat) (code : List Byte) : List Byte :=
  (List.range (code.length / 32)).foldl (fun bs i =>
    let b := fileNum bs (32 * i) 32
    let op := natBits b 250 6
    let at_ := if op = 0x18 ∨ op = 0x1E then 235 else 220
    if [0x18, 0x19, 0x1C, 0x1D, 0x1E].contains op then patchSlot bs (32 * i) at_ 8 (natBits b at_ 8 + n) else bs) code

/-- The stage map, the signal table and the primes behind an image record, each aligned to 8 bytes, and the record (R375). -/
def imageRecord (features : Nat) (profiles : List Nat) (tickBudget : Nat) (map : List Nat) (sigs : List (List Byte)) (primes : List Byte) :
    List Byte :=
  let mb := map.flatMap (fun e => bytesOfNat e 2)
  let sigOff := 64 + roundUp mb.length 8
  let primeOff := sigOff + 32 * sigs.length
  bytesOfNat features 16 ++ profiles.flatMap (fun p => bytesOfNat p 2) ++ bytesOfNat (if sigs = [] then 0 else sigOff) 4 ++
    bytesOfNat sigs.length 2 ++ bytesOfNat map.length 2 ++ bytesOfNat (if map = [] then 0 else 64) 4 ++ bytesOfNat (if primes = [] then 0 else primeOff) 4 ++
    bytesOfNat tickBudget 4 ++ List.replicate 12 0 ++ mb ++ List.replicate (sigOff - 64 - mb.length) 0 ++ sigs.flatten ++ primes

/-- The address of a symbol of object i in the module: secAt gives where a section of an object begins. An external is the one global
definition of its name (R378, R379, step 2). -/
def symAddr (objs : List Bof) (secAt : Nat → Nat → Nat) (i k : Nat) : Option Int :=
  let value := fun (i : Nat) (f : Bof) (y : BofSym) =>
    if y.sect = 0xFFFE then some ((if y.kind = 2 then y.value + ((objs.take i).map (fun f => f.signals.length)).sum else y.value : Nat) : Int)
    else (f.secs[y.sect]?).map (fun e => ((secAt i e.type + y.value : Nat) : Int))
  (objs[i]?).bind fun f => ((f.syms)[k]?).bind fun y =>
    if y.sect ≠ 0xFFFF then value i f y
    else ((List.range objs.length).findSome? (fun j => (objs[j]?).bind fun g =>
      (g.syms.find? (fun z => z.bind_ == 1 && z.sect != 0xFFFF && z.name == y.name)).map (fun z => (j, g, z)))).bind
        (fun e => value e.1 e.2.1 e.2.2)

/-- Whether a name has two global definitions (R379, step 2). -/
def twiceDefined (objs : List Bof) : Bool :=
  !(decide ((objs.flatMap (fun f => (f.syms.filter (fun y => y.bind_ == 1 && y.sect != 0xFFFF)).map (·.name))).Nodup))

/-- The relocations of the objects applied to the module's sections, given by type (R379, step 7). -/
def relocated (objs : List Bof) (secAt : Nat → Nat → Nat) (image : Nat) (base : Nat → Nat) (secs : List (Nat × List Byte)) :
    Option (List (Nat × List Byte)) :=
  let all := (List.range objs.length).flatMap (fun i => (((objs[i]?).map (·.relocs)).getD []).map (fun r => (i, r)))
  all.foldl (fun acc e => acc.bind fun secs =>
    (objs[e.1]?).bind fun f => (f.secs[e.2.sect]?).bind fun t => (lookup secs t.type).bind fun bs =>
      (if e.2.type = 4 then some 0 else symAddr objs secAt e.1 e.2.symbol).bind fun s =>
        let r := { e.2 with offset := secAt e.1 t.type - base t.type + e.2.offset }
        (r.apply s image (base t.type) bs).map (fun v => secs.map (fun x => if x.1 == t.type then (x.1, v) else x))) (some secs)

/-- The addresses of the LOAD sections present, in type order: .code at its base, each later one at the next 64 KiB boundary (R379, step 6). -/
def placeSecs : Nat → List (Nat × List Byte) → List (Nat × Nat)
  | _, [] => []
  | at_, e :: es => (e.1, at_) :: placeSecs (roundUp (at_ + e.2.length) 0x10000) es

/-- The signals of the objects before the i-th (R379, step 5). -/
def signalsBefore (objs : List Bof) (i : Nat) : Nat := ((objs.take i).map (fun f => f.signals.length)).sum

/-- Whether every external of the objects has a global definition in one of them (R379, step 2). -/
def resolved (objs : List Bof) : Bool :=
  (List.range objs.length).all (fun i => (objs[i]?).all (fun f => (List.range f.syms.length).all (fun k =>
    (symAddr objs (fun _ _ => 0) i k).isSome)))

/-- The stage maps of the objects as one: where two name an entry, the first that is not zero stands. -/
def joinedMap (objs : List Bof) : List Nat :=
  (objs.map (·.stageMap)).foldl (fun (a b : List Nat) =>
    (List.range (max a.length b.length)).map (fun i => if getAt a i 0 = 0 then getAt b i 0 else getAt a i 0)) []

/-- .sig of a stage map and signal records (R371). -/
def sigSection (map : List Nat) (recs : List (List Byte)) : List Byte :=
  if map = [] ∧ recs = [] then [] else
  let mb := map.flatMap (bytesOfNat · 2)
  bytesOfNat (recs.length + map.length * 2 ^ 16) 8 ++ mb ++ List.replicate (roundUp mb.length 8 - mb.length) 0 ++ recs.flatten

/-- .sym of symbols (R378): the records, then the names. -/
def symSection (ys : List BofSym) : List Byte :=
  let recs := ys.foldl (fun (acc : Nat × List Byte) y =>
    (acc.1 + y.name.length + 1,
     acc.2 ++ bytesOfNat y.value 8 ++ bytesOfNat (acc.1 * 2 ^ 32 + y.sect * 2 ^ 16 + y.kind * 2 ^ 8 + y.bind_) 8 ++ bytesOfNat y.size 8))
    (8 + 24 * ys.length, [])
  bytesOfNat ys.length 8 ++ recs.2 ++ ys.flatMap (fun y => y.name ++ [0])

/-- The symbols of a module: those the objects define, in order, at their places in the joined sections, whose types are given in table order;
a signal's index counts the objects' signals before it (R379, steps 1 and 5). -/
def joinedSyms (objs : List Bof) (part : Nat → Nat → Nat) (types : List Nat) : List BofSym :=
  (List.range objs.length).flatMap (fun i => ((objs[i]?).map (fun f => (f.syms.filter (·.sect != 0xFFFF)).map (fun y =>
    if y.sect = 0xFFFE then (if y.kind = 2 then { y with value := y.value + signalsBefore objs i } else y)
    else
      let t := ((f.secs[y.sect]?).map (·.type)).getD 0
      { y with value := part i t + y.value, sect := (types.findIdx? (· == t)).getD 0 }))).getD [])

/-- Objects joined into a module (R379): its code stands at base, or at the default; none where the set is rejected. The module's table holds
its sections in the order of their types. -/
def bofLink (base : Option Nat) (objs : List Bof) : Option Bof :=
  let same := fun (get : Bof → Nat) => agreed (objs.map get)
  let ids := List.range objs.length
  let entries := ids.filter (fun i => ((objs[i]?).map (·.entry)).getD noEntry != noEntry)
  (same (·.line)).bind fun line => (same (·.scratch)).bind fun scratch => (same (·.vbud)).bind fun vbud => (same (·.members)).bind fun members =>
  (same (·.stages)).bind fun stages => (same (·.tickBudget)).bind fun tick =>
  ((List.range 8).mapM (fun e => same (fun f => getAt f.profiles e 0))).bind fun ps =>
    let recs := objs.flatMap (·.signals)
    if recs.length > 256 ∨ twiceDefined objs = true ∨ resolved objs = false ∨ entries.length > 1 ∨ ((objs.map (·.mode)).eraseDups).length ≠ 1 then none
    else
    let features := (objs.map (·.features)).foldl (· ||| ·) 0
    let map := joinedMap objs
    let primes := (joinParts 8 [] (objs.map (·.bytes 5))).2
    let part := fun (type : Nat) => ids.map (fun i =>
      let b := ((objs[i]?).map (fun f => f.bytes type)).getD []
      if type = 1 then shiftSigs (signalsBefore objs i) b else b)
    let align := fun (type : Nat) => ((objs.filterMap (fun f => f.sec type)).map (·.align)).foldl max 3
    let joined := fun (type : Nat) =>
      joinParts (2 ^ align type) (if type = 3 then imageRecord features ps tick map recs primes else []) (part type)
    let loads := ([1, 2, 3, 6, 7].map (fun t => (t, (joined t).2))).filter (fun e => e.2 != [])
    let places := placeSecs (base.getD 0x4000000000) loads
    let at_ := fun (t : Nat) => (lookup places t).getD 0
    let offset := fun (i t : Nat) => getAt (joined t).1 i 0
    (relocated objs (fun i t => at_ t + offset i t) (at_ 3) at_ loads).map fun done =>
      let held := fun (t : Nat) =>
        if t = 4 then sigSection map recs else if t = 5 then primes else (lookup done t).getD []
      let types := [1, 2, 3, 4, 5, 6, 7].filter (fun t => held t != [])
      let secs := types.map (fun t => (⟨t, align t, secFlags t, 0, at_ t, held t⟩ : BofSec))
      let syms : BofSec := ⟨9, 3, 0, 0, 0, symSection (joinedSyms objs offset types)⟩
      { kind := 1, mode := ((objs.head?).map (·.mode)).getD 0, features := features, profiles := ps, line := line, scratch := scratch,
        vbud := vbud, members := members, stages := stages,
        entry := match entries with
          | i :: _ => at_ 1 + offset i 1 + ((objs[i]?).map (·.entry)).getD 0
          | [] => noEntry,
        tickBudget := tick, secs := laySecs (0x40 + 32 * (types.length + 1)) (secs ++ [syms]) }

/-- A file's bytes: the header, the section table, the sections (R365 to R368). -/
def Bof.file (f : Bof) : List Byte :=
  let body := f.secs.foldl (fun (acc : Nat × List Byte) e =>
    (e.offset + e.bytes.length, acc.2 ++ List.replicate (e.offset - acc.1) 0 ++ e.bytes)) (0x40 + 32 * f.secs.length, [])
  bytesOfNat 0x464F42 4 ++ bytesOfNat 1 2 ++ bytesOfNat f.kind 1 ++ bytesOfNat f.mode 1 ++ bytesOfNat f.features 16 ++
    f.profiles.flatMap (bytesOfNat · 2) ++ bytesOfNat f.line 1 ++ bytesOfNat f.scratch 1 ++ bytesOfNat f.vbud 1 ++ bytesOfNat f.members 1 ++
    bytesOfNat f.stages 1 ++ bytesOfNat f.secs.length 1 ++ bytesOfNat 0 2 ++ bytesOfNat f.entry 8 ++ bytesOfNat f.tickBudget 4 ++ bytesOfNat 0 4 ++
    f.secs.flatMap (fun e => bytesOfNat (e.type + e.align * 2 ^ 8 + e.flags * 2 ^ 16) 8 ++ bytesOfNat e.offset 8 ++ bytesOfNat e.bytes.length 8 ++
      bytesOfNat e.addr 8) ++ body.2

/-- Whether a context's memory holds a module as system software maps it (R369): every LOAD section at its address, its bytes there, and its
pages with exactly the rights of its FLAGS. -/
def State.holdsModule (s : State) (asid : Nat) (m : Bof) : Bool :=
  m.secs.all (fun e => e.flags < 8 || (List.range e.bytes.length).all (fun i =>
    match s.walkAny asid (e.addr + i) with
    | .page p => p.r == (natBits e.flags 0 1 == 1) && p.w == (natBits e.flags 1 1 == 1) && p.x == (natBits e.flags 2 1 == 1) &&
        (s.memAs (s.keyOf asid)).get (p.phys (e.addr + i)) == getAt e.bytes i 0
    | _ => false))

end Sys2Proof.Machine
end

