-- ==== Sys2Proof/Machine/Source.lean ====
section
/-! DEFINITION. Source text as basric-as reads it (R4, R87, R378 and the opening of the chapter's part on source): tokens, lines, numbers,
names, expressions and their values. -/

namespace Sys2Proof.Machine

/-! Tokens. -/

/-- A token: a run of letters, digits, underscores and points, or one other character. -/
inductive Tok where
  | word (s : String)
  | mark (c : Char)
  deriving DecidableEq, Repr

/-- The braces that hold a bundle. -/
def lbrace : Char := Char.ofNat 123
def rbrace : Char := Char.ofNat 125

/-- Where a reading of text stands: the word under way and the line's tokens (both last first), whether a slash or a comment stands open,
the depth of braces, the number of the line being read and of the one where its tokens began, and the lines done (last first). -/
structure Lexer where
  cur : List Char
  toks : List Tok
  slash : Bool
  skip : Bool
  depth : Nat
  no : Nat
  start : Nat
  done_ : List (Nat × List Tok)
  deriving DecidableEq, Repr

/-- The word under way ended. -/
def Lexer.flush (l : Lexer) : Lexer :=
  let l := if l.slash then { l with slash := false, toks := .mark '/' :: l.toks } else l
  if l.cur = [] then l else { l with cur := [], toks := .word (String.ofList l.cur.reverse) :: l.toks }

/-- A character a word may hold; a sign after the exponent's letter of a decimal number belongs to it. -/
def inWord (cur : List Char) (c : Char) : Bool :=
  c.isAlphanum || c == '_' || c == '.' ||
    ((c == '-' || c == '+') && (match cur with
      | 'e' :: rest => (match rest.getLast? with
        | some d => d.isDigit && !(rest.contains 'x')
        | none => false)
      | _ => false))

/-- A character read. -/
def Lexer.step (l : Lexer) (c : Char) : Lexer :=
  if c == '\n' then
    let l := { l.flush with skip := false, no := l.no + 1 }
    if l.depth = 0 then
      { l with toks := [], start := l.no, done_ := if l.toks = [] then l.done_ else (l.start, l.toks.reverse) :: l.done_ }
    else l
  else if l.skip then l
  else if c == ';' then { l.flush with skip := true }
  else if c == '/' then
    if l.slash then { ({ l with slash := false } : Lexer).flush with skip := true } else { l.flush with slash := true }
  else if inWord l.cur c && !l.slash then { l with cur := c :: l.cur }
  else
    let l := l.flush
    if c == ' ' || c == '\t' || c == '\r' then l
    else if inWord [] c then { l with cur := [c] }
    else { l with toks := .mark c :: l.toks, depth := if c == lbrace then l.depth + 1 else if c == rbrace then l.depth - 1 else l.depth }

/-- The lines of a text with their numbers; a bundle may run over several. -/
def lexLines (cs : List Char) : List (Nat × List Tok) :=
  ((cs ++ ['\n']).foldl Lexer.step ⟨[], [], false, false, 0, 1, 1, []⟩).done_.reverse

/-! Numbers and names. -/

/-- A digit's value. -/
def digitVal (c : Char) : Option Nat :=
  if c.isDigit then some (c.toNat - 48)
  else if 'a' ≤ c ∧ c ≤ 'f' then some (c.toNat - 87)
  else if 'A' ≤ c ∧ c ≤ 'F' then some (c.toNat - 55)
  else none

/-- Digits of a base, with underscores between them: after tells that a digit stands before. -/
def digitsVal (base : Nat) : List Char → Bool → Nat → Option Nat
  | [], after, n => if after then some n else none
  | c :: cs, after, n =>
    if c == '_' then (if after then digitsVal base cs false n else none)
    else match digitVal c with
      | some d => if d < base then digitsVal base cs true (n * base + d) else none
      | none => none

/-- A number: decimal, hexadecimal after 0x, binary after 0b. -/
def numVal (s : String) : Option Nat :=
  match s.toList with
  | '0' :: 'x' :: cs => digitsVal 16 cs false 0
  | '0' :: 'b' :: cs => digitsVal 2 cs false 0
  | cs => digitsVal 10 cs false 0

/-- A name (R378): letters, digits, underscores and points, no digit first. -/
def isName (s : String) : Bool :=
  match s.toList with
  | [] => false
  | c :: cs => !c.isDigit && (c :: cs).all (fun c => c.isAlphanum || c == '_' || c == '.')

/-- The number of a register of a prefix. -/
def regNum (pre s : String) : Option Nat :=
  let cs := s.toList
  let ps := pre.toList
  if ps.isPrefixOf cs then digitsVal 10 (cs.drop ps.length) false 0 else none

/-- Words between points: the first, and the others. -/
def splitDots (s : String) : String × List String :=
  let parts := s.toList.foldr (fun c (acc : List (List Char)) =>
    if c == '.' then [] :: acc
    else match acc with
      | [] => [[c]]
      | p :: ps => (c :: p) :: ps) [[]]
  match parts.map String.ofList with
  | [] => ("", [])
  | p :: ps => (p, ps)

/-- A decimal number as a real: its digits as a natural, and the power of ten. -/
def realVal (s : String) : Option (Nat × Int) :=
  let cs := s.toList
  let man := cs.takeWhile (· != 'e')
  let ex := (cs.dropWhile (· != 'e')).drop 1
  let whole := man.takeWhile (· != '.')
  let frac := (man.dropWhile (· != '.')).drop 1
  let exp : Option Int := match ex with
    | [] => if cs.contains 'e' then none else some 0
    | '-' :: ds => (digitsVal 10 ds false 0).map (fun n => -(n : Int))
    | '+' :: ds => (digitsVal 10 ds false 0).map (fun n => (n : Int))
    | ds => (digitsVal 10 ds false 0).map (fun n => (n : Int))
  if whole = [] || (man.contains '.' && frac = []) then none
  else exp.bind fun e => (digitsVal 10 (whole ++ frac) false 0).map (fun n => (n, e - (frac.filter (· != '_')).length))

/-! Expressions. -/

/-- An expression: its terms, each with whether it is subtracted. -/
structure Expr where
  terms : List (Bool × String)
  deriving DecidableEq, Repr

/-- The terms of an expression, next being the sign of the coming one, if one must come. -/
def exprTerms : Option Bool → List Tok → Option (List (Bool × String))
  | some _, [] => none
  | none, [] => some []
  | some neg, .word s :: ts => (exprTerms none ts).map ((neg, s) :: ·)
  | some neg, .mark c :: ts => if c == '-' then exprTerms (some (!neg)) ts else none
  | none, .mark c :: ts => if c == '+' then exprTerms (some false) ts else if c == '-' then exprTerms (some true) ts else none
  | none, .word _ :: _ => none

/-- An expression read: a number, a symbol, or a sum or difference of them. -/
def readExpr (ts : List Tok) : Option Expr := (exprTerms (some false) ts).map Expr.mk

/-- The one word an expression is, if it is no more. -/
def Expr.bare (e : Expr) : Option String :=
  match e.terms with
  | [(false, s)] => some s
  | _ => none

/-- What a name stands for: a number, or a place in a section of a type. -/
inductive Place where
  | abs (v : Int)
  | sec (type off : Nat)
  deriving DecidableEq, Repr

/-- The names known of a source. -/
abbrev Names := String → Option Place

/-- The names among an expression's terms that stand for no number. -/
def Expr.names (env : Names) (e : Expr) (neg : Bool) : List String :=
  e.terms.filterMap (fun t => if t.1 == neg && isName t.2 && !((env t.2) matches some (.abs _)) then some t.2 else none)

/-- The sum of an expression's terms that stand for numbers; none where one is neither a number nor a name. -/
def Expr.sum (env : Names) (e : Expr) : Option Int :=
  e.terms.foldl (fun (acc : Option Int) t => acc.bind fun k =>
    let v : Option Int := match numVal t.2 with
      | some n => some n
      | none => match env t.2 with
        | some (.abs v) => some v
        | _ => if isName t.2 then some 0 else none
    v.map (fun n => if t.1 then k - n else k + n)) (some 0)

/-- Places of one section that an expression adds and subtracts cancelled to a number. -/
def cancelNames (env : Names) : List String → List String → Int → Option (List String × Int)
  | plus, [], k => some (plus, k)
  | plus, m :: ms, k =>
    match env m with
    | some (.sec t o) =>
      match plus.find? (fun p => (match env p with
        | some (.sec u _) => u == t
        | _ => false)) with
      | some p => (match env p with
        | some (.sec _ q) => cancelNames env (plus.erase p) ms (k + q - o)
        | _ => none)
      | none => none
    | _ => none

/-- An expression's value: a number, or a number past a name whose address is not yet known. -/
def Expr.eval (env : Names) (e : Expr) : Option (Option String × Int) :=
  (e.sum env).bind fun k => (cancelNames env (e.names env false) (e.names env true) k).bind fun r =>
    match r.1 with
    | [] => some (none, r.2)
    | [p] => some (some p, r.2)
    | _ => none

/-- An expression's value where it is a number. -/
def Expr.const (env : Names) (e : Expr) : Option Int :=
  (e.eval env).bind fun r => if r.1 = none then some r.2 else none

end Sys2Proof.Machine
end

