-- ==== Sys2Proof/Machine/Mnemonics.lean ====
section
/-! DEFINITION. The source forms of the instructions (R73, R87 to R89, and the assembly form each instruction's rule gives): for each
mnemonic the slots that take it, its word without operands, its modifiers, and its operands in field order. -/

namespace Sys2Proof.Machine

/-- What an operand field takes: a register of a kind (its prefix, and how many there are); a v register or a tap port; an x register or a
tap port; a lane mask k1 to k7; a signed or an unsigned number; a width, kept less one; a byte offset by its scale; a displacement to a
label; a system register's name; a queue; the queues of a mask; a signal; the value of a MOVI; the halfword of a MOVK. -/
inductive OKind where
  | reg (pre : String) (count : Nat)
  | vsrc
  | xsrc
  | mask
  | snum
  | unum
  | width
  | off (scale : Nat)
  | disp
  | sysreg
  | queue
  | queues
  | sig
  | imm20
  | half
  deriving DecidableEq, Repr

/-- An operand: its key, its field in the slot, what it takes, whether it may be left out (its field is then zero). -/
structure OpField where
  key : String
  lo : Nat
  w : Nat
  kind : OKind
  opt : Bool
  deriving DecidableEq, Repr

/-- The slots a row goes to: both S slots, S0, S1, M, both V slots, V0, X, C, or any. -/
inductive SlotSet where
  | s | s0 | s1 | m | v | v0 | x | c | any
  deriving DecidableEq, Repr

/-- Modifiers that exclude each other: their field values in place, and the value without one of them (none where one must stand). -/
structure ModSet where
  alts : List (String × Nat)
  dflt : Option Nat
  deriving DecidableEq, Repr

/-- A source form. -/
structure Form where
  mnem : String
  slots : SlotSet
  base : Nat
  mods : List ModSet
  ops : List OpField
  deriving DecidableEq, Repr

/-! Fields of the formats (R72 to R77), by their names. -/

def need1 (l : List (String × Nat)) : ModSet := ⟨l, none⟩
def may (l : List (String × Nat)) : ModSet := ⟨l, some 0⟩
def op1 (key : String) (lo w : Nat) (k : OKind) : OpField := ⟨key, lo, w, k, false⟩
def opx : OKind := .reg "x" 64
def opv : OKind := .reg "v" 64
def opk : OKind := .reg "k" 8
def opp : OKind := .reg "p" 16
def opq : OKind := .reg "q" 8
def oph : OKind := .reg "h" 16
def opacc : OKind := .reg "acc" 8

def sD (k : OKind) : OpField := op1 "d" 20 6 k
def sA (k : OKind) : OpField := op1 "a" 14 6 k
def sB (k : OKind) : OpField := op1 "b" 8 6 k
def sImm : OpField := op1 "imm" 0 14 .snum
def vD (k : OKind) : OpField := op1 "d" 21 6 k
def vA : OpField := op1 "a" 14 7 .vsrc
def vB : OpField := op1 "b" 7 7 .vsrc
def vKm : OpField := ⟨"km", 27, 3, .mask, true⟩
def mRg (k : OKind) : OpField := op1 "rg" 24 6 k
def mBase : OpField := op1 "base" 18 6 opx
def mH : OpField := op1 "h" 20 4 oph
def mXi : OpField := op1 "xi" 14 6 opx
def mD (k : OKind) : OpField := op1 "d" 22 6 k
def mA (k : OKind) : OpField := op1 "a" 16 6 k
def mB : OpField := op1 "b" 10 6 opx
def mQu : OpField := op1 "qu" 28 2 .queue
def xAcc : OpField := op1 "acc" 23 3 opacc
def xBsel : OpField := op1 "bsel" 10 6 opx

/-- Forms that share their fields, numbered upward in a field. -/
def numbered (ms : List String) (f : String → Nat → Form) : List Form := ms.mapIdx (fun i m => f m i)

/-! Modifiers. -/

/-- A list of modifiers numbered upward in a field that begins at a bit. -/
def codes (lo : Nat) (ms : List String) : List (String × Nat) := ms.mapIdx (fun i m => (m, i <<< lo))

/-- Rounding modes (R51). -/
def rnds (lo : Nat) : ModSet := may (codes lo ["rne", "rtz", "rdn", "rup"])

/-- Conditions and combining types (R73). -/
def conds (lo : Nat) : ModSet := need1 (codes lo ["eq", "ne", "lt", "le", "ltz", "lez", "bset", "bclr"])
def fconds (lo : Nat) : ModSet := need1 (codes lo ["eq", "ne", "lt", "le", "unord", "ord", "gt", "ge"])
def types : ModSet := may ((codes 15 ["pair", "both", "land", "lor", "landn", "lorn", "allany", "xor"]).drop 1)

/-- Tags (R15, R140, R222). -/
def tagCodes : List (String × Nat) :=
  [("f32", 2), ("bf16", 3), ("f16", 4), ("e4m3", 5), ("e5m2", 6), ("e2m1", 7), ("i32", 8), ("i16", 9), ("i8", 10), ("i4", 11), ("e8m0", 12)]
def anyTag (lo : Nat) : List (String × Nat) :=
  (tagCodes ++ [("b", 1), ("bits", 1), ("invalid", 0)]).map (fun (e : String × Nat) => (e.1, e.2 <<< lo))
def loadTag (lo : Nat) : ModSet := ⟨anyTag lo, some (1 <<< lo)⟩

/-- The formats of a conversion's side: the integers unsigned where they begin with z, their bit at flag. -/
def cvtSide (flag : Nat) (coded : Bool) : ModSet :=
  let z := [("z32", 8), ("z16", 9), ("z8", 10), ("z4", 11)]
  need1 (tagCodes.map (fun (e : String × Nat) => (e.1, if coded then e.2 else 0)) ++
    z.map (fun (e : String × Nat) => (e.1, (if coded then e.2 else 0) + 2 ^ flag)))

/-- Integer widths: signed iN, unsigned zN (R133). -/
def ints (sgn : Nat) : List (String × Nat) :=
  codes 0 ["z8", "z16", "z32"] ++ (codes 0 ["i8", "i16", "i32"]).map (fun e => (e.1, e.2 + sgn))

/-- Scopes (R282). -/
def scopes : ModSet :=
  need1 (codes 4 ["core", "gang", "cluster", "stage", "die", "package", "quarry", "host", "domain", "group", "context", "system"])

/-! S slots. -/

def sForms : List Form :=
  numbered ["IADD", "ISUB", "AND", "OR", "XOR", "ANDN", "ORN", "SHL", "SHR", "SAR", "ROR", "IMIN", "IMAX", "IMINZ", "IMAXZ"]
    (fun m i => ⟨m, .s, 0x01 <<< 30 + i, [], [sD opx, sA opx, sB opx]⟩) ++
  numbered ["IMUL", "IMULH", "IMULHZ", "IDIV", "IDIVZ", "IREM", "IREMZ"]
    (fun m i => ⟨m, .s, 0x02 <<< 30 + i, [], [sD opx, sA opx, sB opx]⟩) ++
  numbered ["CLZ", "CTZ", "POPC", "BREV", "BSWAP", "IABS", "INEG"] (fun m i => ⟨m, .s, 0x03 <<< 30 + i, [], [sD opx, sA opx]⟩) ++
  numbered ["EXTS", "EXTZ", "DEP"]
    (fun m i => ⟨m, .s, 0x04 <<< 30 + i <<< 6, [], [sD opx, sA opx, op1 "b" 8 6 .unum, op1 "w" 0 6 .width]⟩) ++
  [⟨"LEA", .s, 0x05 <<< 30, [], [sD opx, sA opx, sB opx, op1 "shift" 0 2 .unum]⟩,
   ⟨"SEL", .s, 0x06 <<< 30, [], [sD opx, sA opx, sB opx, op1 "pn" 0 4 opp]⟩,
   ⟨"VEXTR", .s, 0x07 <<< 30, [need1 (codes 1 ["8", "16", "32", "64"])], [sD opx, sA opv, sB opx]⟩,
   ⟨"VINS", .s, 0x07 <<< 30 + 1, [need1 (codes 1 ["8", "16", "32", "64"])], [sD opv, sA opx, sB opx]⟩] ++
  numbered ["IADDI", "ANDI", "ORI", "XORI"] (fun m i => ⟨m, .s, (0x10 + i) <<< 30, [], [sD opx, sA opx, sImm]⟩) ++
  numbered ["SHLI", "SHRI", "SARI", "RORI"] (fun m i => ⟨m, .s, (0x14 + i) <<< 30, [], [sD opx, sA opx, op1 "imm" 0 6 .unum]⟩) ++
  [⟨"MOVI", .s, 0x18 <<< 30, [], [sD opx, op1 "imm" 0 20 .imm20]⟩,
   ⟨"MOVK", .s, 0x19 <<< 30, [], [sD opx, op1 "imm" 0 16 .half, op1 "h" 16 2 .unum]⟩,
   ⟨"IMULI", .s, 0x1A <<< 30, [], [sD opx, sA opx, sImm]⟩,
   ⟨"ICMP", .s, 0x20 <<< 30, [conds 12, types], [op1 "p1" 22 4 opp, op1 "p2" 18 4 opp, op1 "a" 6 6 opx, op1 "b" 0 6 opx]⟩,
   ⟨"ICMPI", .s, 0x21 <<< 30, [need1 ((codes 12 ["eq", "ne", "lt", "le", "ltz", "lez"])), types],
     [op1 "p1" 22 4 opp, op1 "p2" 18 4 opp, op1 "a" 6 6 opx, op1 "b" 0 6 .snum]⟩,
   ⟨"ICMPI", .s, 0x21 <<< 30, [need1 [("bset", 6 <<< 12), ("bclr", 7 <<< 12)], types],
     [op1 "p1" 22 4 opp, op1 "p2" 18 4 opp, op1 "a" 6 6 opx, op1 "b" 0 6 .unum]⟩,
   ⟨"FCMP", .s, 0x22 <<< 30, [fconds 12, types], [op1 "p1" 22 4 opp, op1 "p2" 18 4 opp, op1 "a" 6 6 opx, op1 "b" 0 6 opx]⟩] ++
  numbered ["PAND", "POR", "PXOR", "PANDN"] (fun m i => ⟨m, .s, 0x28 <<< 30 + i, [], [sD opp, sA opp, sB opp]⟩) ++
  [⟨"PNOT", .s, 0x28 <<< 30 + 4, [], [sD opp, sA opp]⟩,
   ⟨"PGET", .s, 0x29 <<< 30, [], [sD opx]⟩,
   ⟨"PSET", .s, 0x29 <<< 30 + 1, [], [sA opx]⟩] ++
  (codes 0 ["FADD", "FSUB", "FMUL", "FDIV", "FSQRT", "FMIN", "FMAX"]).map (fun e =>
    (⟨e.1, .s, 0x2C <<< 30 + e.2, [may [("f64", 128)], rnds 4], if e.2 = 4 then [sD opx, sA opx] else [sD opx, sA opx, sB opx]⟩ : Form)) ++
  [⟨"FFMA", .s, 0x2D <<< 30, [may [("f64", 128)], rnds 4], [sD opx, sA opx, sB opx]⟩,
   ⟨"FCVT", .s, 0x2E <<< 30,
     [need1 [("f32", 0), ("f64", 1), ("i64", 2), ("i128", 3), ("z64", 130), ("z128", 131)],
      need1 [("f32", 0), ("f64", 4), ("i64", 8), ("i128", 12), ("z64", 136), ("z128", 140)], rnds 4], [sD opx, sA opx]⟩,
   ⟨"MFS", .s0, 0x30 <<< 30, [], [sD opx, op1 "imm" 0 14 .sysreg]⟩,
   ⟨"MTS", .s0, 0x31 <<< 30, [], [sA opx, op1 "imm" 0 14 .sysreg]⟩,
   ⟨"TRAP", .s0, 0x32 <<< 30, [], [op1 "imm" 0 20 .unum]⟩,
   ⟨"RFT", .s0, 0x33 <<< 30, [], []⟩, ⟨"HALT", .s0, 0x34 <<< 30, [], []⟩,
   ⟨"BR", .s1, 0x38 <<< 30, [], [op1 "disp" 0 26 .disp]⟩,
   ⟨"CALL", .s1, 0x3A <<< 30, [], [op1 "disp" 0 26 .disp]⟩,
   ⟨"BRX", .s1, 0x39 <<< 30, [], [sD opx, sA opx]⟩,
   ⟨"RET", .s1, 0x3B <<< 30, [], [sA opx]⟩,
   ⟨"CHK", .s1, 0x3C <<< 30, [], [sD opx, sA opx, op1 "imm" 0 14 .disp]⟩,
   ⟨"CHK", .s1, 0x3C <<< 30, [], [sA opx, op1 "imm" 0 14 .disp]⟩,
   ⟨"CHKV", .s1, 0x3D <<< 30, [], [sD opx, sA opv, op1 "imm" 0 14 .disp]⟩,
   ⟨"CHKV", .s1, 0x3D <<< 30, [], [sA opv, op1 "imm" 0 14 .disp]⟩,
   ⟨"FORK", .s1, 0x3E <<< 30, [], [sA opx, sB opx]⟩] ++
  numbered ["SYNC", "RETF", "TEND", "YIELD"] (fun m i => ⟨m, .s1, 0x3F <<< 30 + i, [], []⟩) ++
  [⟨"WAITC", .s1, 0x3F <<< 30 + 4, [], [sA opx]⟩]

/-! The M slot. -/

/-- A bed or a global access of a scalar, by its access size. -/
def bedForm (m : String) (op s : Nat) : Form := ⟨m, .m, op <<< 34, [], [mRg opx, mBase, op1 "off" 0 18 (.off s)]⟩
def globForm (m : String) (op s : Nat) : Form := ⟨m, .m, op <<< 34, [], [mRg opx, mH, mXi, op1 "off" 0 14 (.off s)]⟩

/-- The widths of an ACCW, and its simple operations (R238). -/
def accWidth : ModSet := need1 [("32", 0), ("64", 256)]

def mForms : List Form :=
  [bedForm "LDB" 0x01 1, bedForm "LDBZ" 0x02 1, bedForm "LDH" 0x03 2, bedForm "LDHZ" 0x04 2, bedForm "LDW" 0x05 4, bedForm "LDWZ" 0x06 4,
   bedForm "LDD" 0x07 8, bedForm "STB" 0x08 1, bedForm "STH" 0x09 2, bedForm "STW" 0x0A 4, bedForm "STD" 0x0B 8,
   ⟨"VLD", .m, 0x0C <<< 34, [loadTag 14], [mRg opv, mBase, op1 "off" 0 14 (.off 512)]⟩,
   ⟨"VST", .m, 0x0D <<< 34, [], [mRg opv, mBase, op1 "off" 0 14 (.off 512)]⟩,
   ⟨"VGATH", .m, 0x0E <<< 34, [need1 (codes 6 ["w8", "w16", "w32"]), may [("sx", 32)], loadTag 14],
     [mRg opv, mBase, op1 "idx" 8 6 opv, ⟨"km", 2, 3, .mask, true⟩]⟩,
   ⟨"VSCAT", .m, 0x0F <<< 34, [need1 (codes 6 ["w8", "w16", "w32"])], [mRg opv, mBase, op1 "idx" 8 6 opv, ⟨"km", 2, 3, .mask, true⟩]⟩,
   bedForm "RLD" 0x1C 8, bedForm "RST" 0x1D 8,
   ⟨"RVLD", .m, 0x1E <<< 34, [loadTag 14], [mRg opv, mBase, op1 "off" 0 14 (.off 512)]⟩,
   ⟨"RVST", .m, 0x1F <<< 34, [], [mRg opv, mBase, op1 "off" 0 14 (.off 512)]⟩,
   globForm "GLDB" 0x10 1, globForm "GLDH" 0x11 2, globForm "GLDW" 0x12 4, globForm "GLDD" 0x13 8,
   globForm "GSTB" 0x14 1, globForm "GSTH" 0x15 2, globForm "GSTW" 0x16 4, globForm "GSTD" 0x17 8,
   ⟨"GVLD", .m, 0x18 <<< 34, [loadTag 10], [mRg opv, mH, mXi, op1 "off" 0 10 (.off 512)]⟩,
   ⟨"GVST", .m, 0x19 <<< 34, [], [mRg opv, mH, mXi, op1 "off" 0 10 (.off 512)]⟩,
   ⟨"GLDS", .m, 0x1A <<< 34, [need1 [("W", 0)]], [mRg opx, mH, mXi, op1 "off" 0 14 (.off 4)]⟩,
   ⟨"GLDS", .m, 0x1B <<< 34, [need1 [("D", 0)]], [mRg opx, mH, mXi, op1 "off" 0 14 (.off 8)]⟩,
   ⟨"PREF", .m, 0x31 <<< 34, [need1 (codes 24 ["die", "home"])], [mH, mXi, op1 "off" 0 14 (.off 64)]⟩,
   ⟨"COPY", .m, 0x20 <<< 34, [may [("in", 16), ("out", 32)]], [mD opx, mA opx, mB, mQu]⟩,
   ⟨"COPY2D", .m, 0x21 <<< 34, [], [mD opx, mA opx, mB, mQu]⟩,
   ⟨"ACCW", .m, 0x22 <<< 34, [need1 (codes 4 ["add", "min", "max", "minz", "maxz", "and", "or", "xor"]), accWidth], [mD opx, mA opx, mQu]⟩,
   ⟨"ACCW", .m, 0x22 <<< 34, [need1 [("swap", 128), ("cas", 144)], accWidth], [mD opx, mA opx, mB, mQu]⟩,
   ⟨"ACCW", .m, 0x22 <<< 34, [need1 [("faddq", 416)], need1 [("f64", 0), ("f32", 8192)]], [mD opx, mA opx, op1 "b" 10 3 .unum, mQu]⟩,
   ⟨"ALD", .m, 0x23 <<< 34, [], [mD opx, mA opx, mB, mQu]⟩,
   ⟨"QNOTIFY", .m, 0x24 <<< 34, [], [mA opx, mQu]⟩,
   ⟨"QFENCE", .m, 0x25 <<< 34, [], [op1 "fn" 4 4 .queues]⟩,
   ⟨"FPOSTR", .m, 0x26 <<< 34, [scopes], [mA opx, mB]⟩,
   ⟨"FENCE", .m, 0x30 <<< 34, [need1 (codes 8 ["rel", "acq", "full", "fullq"]), scopes], []⟩,
   ⟨"XLAT", .m, 0x34 <<< 34, [], [mD oph, mA opx]⟩,
   ⟨"HREL", .m, 0x35 <<< 34, [], [mD oph]⟩,
   ⟨"HINFO", .m, 0x36 <<< 34, [may [("va", 16)]], [mD opx, mA oph]⟩,
   ⟨"PCOMMIT", .m, 0x37 <<< 34, [], [mD opx, mA opx, mB]⟩,
   ⟨"PDECOMMIT", .m, 0x37 <<< 34 + 16, [], [mD opx, mA opx]⟩,
   ⟨"QALLOC", .m, 0x38 <<< 34, [may [("z", 16)]], [mD opx, mA opx]⟩,
   ⟨"QFREE", .m, 0x39 <<< 34, [], [mD opx, mA opx]⟩,
   ⟨"BTSET", .m, 0x3A <<< 34, [], [mD opx, mA opx, mB]⟩,
   ⟨"BTGET", .m, 0x3A <<< 34 + 16, [], [mD opx, mA opx]⟩,
   ⟨"BTAPP", .m, 0x3B <<< 34, [may [("z", 16)]], [mD opx, mA opx]⟩,
   ⟨"LAUNCH", .m, 0x3C <<< 34, [], [mD opx, mA opx, mB]⟩,
   ⟨"SHAPE", .m, 0x3D <<< 34, [need1 (codes 4 ["final", "floor"])], [mA opx, mB]⟩,
   ⟨"GRAPH", .m, 0x3E <<< 34, [], [mD opx, mA opx, mB]⟩]

/-! V slots. -/

def fpFmt : ModSet := may (codes 0 ["f32", "bf16", "f16"])
def vSat (n : Nat) : ModSet := may [("sat", n)]

/-- A vector floating-point form (R129): with a B operand, rounding, saturation. -/
def fpForm (m : String) (op : Nat) (b rnd sat : Bool) : Form :=
  ⟨m, .v, op <<< 34, [fpFmt] ++ (if rnd then [rnds 3] else []) ++ (if sat then [vSat 32] else []),
    [vD opv, vA] ++ (if b then [vB] else []) ++ [vKm]⟩

/-- A vector integer form (R133). -/
def intForm (m : String) (op : Nat) (mods : List ModSet) : Form := ⟨m, .v, op <<< 34, mods, [vD opv, vA, vB, vKm]⟩

/-- A reduction (R145). -/
def redForm (op : String) (k : Nat) (mods : List ModSet) : Form := ⟨"VRED", .v, 0x3B <<< 34, need1 [(op, k)] :: mods, [vD opv, vA, vKm]⟩

def vForms : List Form :=
  [fpForm "VADD" 0x01 true true true, fpForm "VSUB" 0x02 true true true, fpForm "VMUL" 0x03 true true true,
   fpForm "VFMA" 0x04 true true true, fpForm "VFMS" 0x05 true true true, fpForm "VFNMA" 0x06 true true true,
   fpForm "VMIN" 0x07 true false false, fpForm "VMAX" 0x08 true false false, fpForm "VABS" 0x09 false false false,
   fpForm "VNEG" 0x0A false false false, fpForm "VDIV" 0x0B true true true, fpForm "VSQRT" 0x0C false true true,
   fpForm "VRCP" 0x0D false false true, fpForm "VRSQ" 0x0E false false true, fpForm "VEXP2" 0x0F false false true,
   fpForm "VLOG2" 0x10 false false true, fpForm "VTANH" 0x11 false false true, fpForm "VSCL" 0x12 true true true] ++
  (numbered ["VIADD", "VISUB", "VIMUL", "VIMAD", "VSHL"] (fun m i => intForm m (0x20 + i) [need1 (ints 4), vSat 8])) ++
  [intForm "VSHR" 0x25 [need1 (codes 0 ["8", "16", "32"])], intForm "VSAR" 0x26 [need1 (codes 0 ["8", "16", "32"])]] ++
  (numbered ["VAND", "VOR", "VXOR", "VANDN"] (fun m i => intForm m (0x27 + i) [⟨[("32", 2)], some 2⟩])) ++
  [intForm "VIMIN" 0x2B [need1 (ints 4)], intForm "VIMAX" 0x2C [need1 (ints 4)],
   intForm "VDOT4" 0x2D [need1 [("i8", 4), ("z8", 0)], vSat 8],
   ⟨"VIABS", .v, 0x2E <<< 34, [need1 ((ints 4).drop 3), vSat 8], [vD opv, vA, vKm]⟩,
   ⟨"VCMP", .v, 0x30 <<< 34, [fconds 3, need1 (codes 0 ["f32", "bf16", "f16"]), may [("all", 0), ("any", 4)]], [vD opk, vA, vB, vKm]⟩,
   ⟨"VCMP", .v, 0x30 <<< 34 + 64, [conds 3, need1 (codes 0 ["i8", "i16", "i32"]), may [("all", 0), ("any", 4)]], [vD opk, vA, vB, vKm]⟩,
   ⟨"VSELK", .v, 0x31 <<< 34, [], [vD opv, vA, vB, op1 "kf" 0 3 opk, vKm]⟩] ++
  (numbered ["KAND", "KOR", "KXOR", "KANDN"] (fun m i => ⟨m, .v, 0x32 <<< 34 + i, [], [vD opk, op1 "a" 14 7 opk, op1 "b" 7 7 opk]⟩)) ++
  [⟨"KNOT", .v, 0x32 <<< 34 + 4, [], [vD opk, op1 "a" 14 7 opk]⟩,
   ⟨"KMOV", .v, 0x33 <<< 34, [], [vD opk, op1 "a" 14 7 opk]⟩,
   ⟨"KMOV", .v, 0x33 <<< 34 + 1, [need1 [("v2k", 0)]], [vD opk, vA]⟩,
   ⟨"KMOV", .v, 0x33 <<< 34 + 2, [need1 [("k2v", 0)]], [vD opv, op1 "a" 14 7 opk]⟩,
   ⟨"VCVT", .v, 0x38 <<< 34, [cvtSide 12 true, cvtSide 11 false, may (codes 4 ["rne", "rtz", "rdn", "rup", "sr"]), vSat 1024],
     [vD opv, vA, ⟨"p", 7, 3, .unum, true⟩, vKm]⟩,
   ⟨"VPERMB", .v, 0x39 <<< 34, [need1 (codes 0 ["in", "lo", "hi"])], [vD opv, vA, vB, vKm]⟩,
   ⟨"VPERML", .v, 0x3A <<< 34, [may [("two", 1)]], [vD opv, vA, vB, vKm]⟩,
   redForm "fsum" 0 [fpRed], redForm "fmax" 1 [fpRed], redForm "fmin" 2 [fpRed],
   redForm "isum" 3 [need1 ((codes 3 ["i8", "i16", "i32"]) ++ (codes 3 ["z8", "z16", "z32"]).map (fun e => (e.1, e.2 + 64))), vSat 32],
   redForm "imax" 4 [need1 (codes 3 ["i8", "i16", "i32"])], redForm "imin" 5 [need1 (codes 3 ["i8", "i16", "i32"])],
   redForm "imaxz" 6 [need1 (zRed)], redForm "iminz" 7 [need1 (zRed)],
   ⟨"VMOV", .v, 0x3C <<< 34, [], [vD opv, vA, vKm]⟩,
   ⟨"VBCAST", .v, 0x3C <<< 34 + 1,
     [need1 ([("f32", 2), ("bf16", 1), ("f16", 1), ("e4m3", 0), ("e5m2", 0), ("e2m1", 0), ("i32", 2), ("i16", 1), ("i8", 0), ("i4", 0),
        ("e8m0", 0)].map (fun e => (e.1, (tagCodes.lookup e.1).getD 0 <<< 3 + e.2 <<< 1)) ++ [("b8", 8), ("b16", 10), ("b32", 12)])],
     [vD opv, op1 "a" 14 6 opx, vKm]⟩,
   ⟨"VIMM", .v, 0x3D <<< 34, [need1 (codes 14 ["i8", "i16", "i32"])], [vD opv, sImm, vKm]⟩,
   ⟨"RFMODE", .v0, 0x3E <<< 34, [], [op1 "imm" 0 14 .snum]⟩,
   ⟨"VTAG", .v, 0x3F <<< 34, [need1 (anyTag 0)], [vD opv, vA]⟩]
where
  fpRed : ModSet := need1 (codes 3 ["f32", "bf16", "f16"])
  zRed : List (String × Nat) := codes 3 ["z8", "z16", "z32"] ++ codes 3 ["i8", "i16", "i32"]

/-! The X and C slots. -/

/-- The switches of an MMA after its mode (R196). -/
def mmaTail : List ModSet := [may [("rb", 32)], may [("mc", 64)], may [("ovw", 128)]]
def mmaA : ModSet := may [("e4m3", 0), ("e5m2", 8)]
def mmaB : ModSet := may [("e4m3", 0), ("e5m2", 16)]

/-- An MMA by its mode. -/
def mmaForm (mods : List ModSet) : Form := ⟨"MMA", .x, 0x01 <<< 30, mods ++ mmaTail, [xAcc, op1 "asel" 16 7 .xsrc, xBsel]⟩

/-- The image of a tile's load or store (R202, R203). -/
def image : ModSet := may [("bf16", 1), ("f16", 2)]

def xForms : List Form :=
  [mmaForm [need1 [("f8s", 1)], mmaA, mmaB], mmaForm [mmaA, mmaB], mmaForm [need1 [("i8", 10), ("z8", 2)], need1 [("i8", 16), ("z8", 0)]],
   mmaForm [need1 [("bf16", 3), ("f16", 4), ("mx4", 5)]],
   ⟨"MZERO", .x, 0x02 <<< 30, [], [xAcc]⟩,
   ⟨"MLD", .x, 0x03 <<< 30, [image], [xAcc, xBsel]⟩,
   ⟨"MST", .x, 0x04 <<< 30, [image, vSat 4], [xAcc, xBsel]⟩,
   ⟨"MST", .x, 0x04 <<< 30 + 64 <<< 16, [image, vSat 4], [xAcc, op1 "asel" 16 6 opq]⟩,
   ⟨"MROW", .x, 0x05 <<< 30, [may [("i32", 2048)]], [sD opv, op1 "acc" 0 3 opacc, op1 "row" 3 7 .unum]⟩,
   ⟨"MROW", .x, 0x05 <<< 30 + 1024, [need1 [("w", 0)]], [op1 "acc" 0 3 opacc, op1 "row" 3 7 .unum, sA opv]⟩,
   ⟨"MSCL", .x, 0x06 <<< 30, [], [xAcc, op1 "asel" 16 7 .vsrc, xBsel]⟩,
   ⟨"MGRP", .x, 0x07 <<< 30, [], [sA opx]⟩,
   ⟨"SQLD", .x, 0x10 <<< 30, [], [sA opx]⟩,
   ⟨"SQGO", .x, 0x11 <<< 30, [], []⟩,
   ⟨"SQST", .x, 0x12 <<< 30, [], [sD opx, op1 "l" 0 3 .unum]⟩,
   ⟨"SQST", .x, 0x12 <<< 30 + 8, [need1 [("trip", 0)]], [sD opx, op1 "l" 0 3 .unum]⟩,
   ⟨"SQST", .x, 0x12 <<< 30 + 6, [need1 [("state", 0)]], [sD opx]⟩,
   ⟨"ATTN", .x, 0x13 <<< 30,
     [need1 (codes 0 ["bf16", "f16", "e4m3", "e5m2"]), may [("d128", 4)], may [("init", 8)], may [("fin", 16)], may [("prune", 32)]],
     [xAcc, op1 "asel" 16 7 .xsrc, xBsel]⟩,
   ⟨"SQABT", .x, 0x14 <<< 30, [], []⟩,
   ⟨"TAPSET", .x, 0x18 <<< 30, [], [op1 "q" 23 3 opq, op1 "sig" 15 8 .sig, op1 "lag" 0 15 .unum]⟩,
   ⟨"TAPSETX", .x, 0x19 <<< 30, [], [sD opq, sA opx, op1 "sig" 0 8 .sig]⟩,
   ⟨"TAPRD", .x, 0x1A <<< 30, [], [sD opv, sA opq, ⟨"part", 0, 3, .unum, true⟩]⟩,
   ⟨"TAPRD", .x, 0x1A <<< 30 + 8, [need1 [("x", 0)]], [sD opx, sA opq]⟩,
   ⟨"TAPWR", .x, 0x1B <<< 30, [], [sD opq, sA opv, ⟨"part", 0, 3, .unum, true⟩]⟩,
   ⟨"TAPWR", .x, 0x1B <<< 30 + 8, [need1 [("x", 0)]], [sD opq, sA opx]⟩,
   ⟨"SIGINF", .x, 0x1C <<< 30, [need1 (codes 8 ["n", "adv", "seqlen", "arr", "attr"])], [sD opx, sA opx, op1 "sig" 0 8 .sig]⟩,
   ⟨"SLOTS", .x, 0x1D <<< 30, [need1 (codes 8 ["sel", "clr", "one"])], [sA opx, op1 "sig" 0 8 .sig]⟩,
   ⟨"SIGRST", .x, 0x1E <<< 30, [], [op1 "sig" 15 8 .sig]⟩]

/-- A phaser of a C slot. -/
def cPh : OpField := op1 "ph" 9 6 (.reg "ph" 64)

def cForms : List Form :=
  [⟨"TICK", .c, 0x01 <<< 15, [], []⟩,
   ⟨"FWAIT", .c, 0x02 <<< 15, [], [op1 "f" 10 5 (.reg "f" 32), op1 "n" 0 10 .unum]⟩,
   ⟨"FPOST", .c, 0x03 <<< 15, [], [op1 "f" 10 5 (.reg "f" 32), op1 "n" 0 10 .unum]⟩,
   ⟨"WAITN", .c, 0x04 <<< 15, [], [op1 "ld" 11 4 .unum, op1 "st" 7 4 .unum, op1 "cp" 3 4 .unum, op1 "tl" 0 3 .unum]⟩,
   ⟨"PHARR", .c, 0x05 <<< 15, [], [cPh]⟩, ⟨"PHWAIT", .c, 0x06 <<< 15, [], [cPh]⟩,
   ⟨"PHREG", .c, 0x07 <<< 15, [need1 (codes 7 ["sig", "wait", "sw"])], [cPh]⟩,
   ⟨"PHDROP", .c, 0x08 <<< 15, [], [cPh]⟩]

/-- Every form. R88 lets a key name an operand by its field: those held in FN or in a part of an immediate, to which the spec gives no name, have
the model's (LEA's shift, SEL's pn, EXTS's w, MOVK's h, VSELK's kf, VGATH's idx, SQST's l, VCVT's p, TAPRD's part; log 62). -/
def forms : List Form := sForms ++ mForms ++ vForms ++ xForms ++ cForms ++ [⟨"NOP", .any, 0, [], []⟩]

/-- The system registers by name (R110). -/
def sysRegs : List (String × Nat) :=
  [("CORE_ID", 0x00), ("STATUS", 0x01), ("TICK", 0x02), ("TICK_BUDGET", 0x03), ("SLIP_LOG", 0x04), ("FAULT_INFO", 0x08), ("FAULT_VA", 0x09),
   ("TRAP_PC", 0x0A), ("TRAP_VEC", 0x0B), ("TRAP_TGT", 0x0C), ("CAPS_LO", 0x10), ("CAPS_HI", 0x11), ("PROFILE_TAB.LO", 0x12),
   ("PROFILE_TAB.HI", 0x13), ("SPILL_BASE", 0x14), ("SPILL_LIMIT", 0x15), ("OVF_PTR", 0x16), ("RF_MODE", 0x17), ("FREEZE_CNT", 0x18),
   ("CUR_LIMIT", 0x19), ("BALLAST_CNT", 0x1A)] ++
  ["DSCALE0", "DSCALE1", "DSCALE2", "DSCALE3", "DSCALE4", "DSCALE5", "DSCALE6", "DSCALE7"].mapIdx (fun i m => (m, 0x20 + i)) ++
  [("PRUNE_MARGIN", 0x28), ("STOCH_SEED", 0x29), ("STOCH_CTR", 0x2A)]

end Sys2Proof.Machine
end

