-- ==== Sys2Proof/Machine/AsmBundle.lean ====
section
/-! DEFINITION. A bundle's text to its 256 bits (R87 to R89, R24, R25, R78, R85), with the relocations its fields need (R377). -/

namespace Sys2Proof.Machine

/-- An argument: a positional one, or one after its key. -/
structure Arg where
  key : Option String
  val : List Tok
  deriving DecidableEq, Repr

/-- The arguments in tokens that commas part, and, after a first, a key with its equals sign too: cur holds the tokens of the argument under
way, last first; must tells that an argument has to come. -/
def argsFrom (key : Option String) (cur : List Tok) (must : Bool) : List Tok → Option (List Arg)
  | [] =>
    if cur = [] then (if must || key.isSome then none else some [])
    else some [⟨key, cur.reverse⟩]
  | .word k :: .mark '=' :: ts =>
    if cur = [] then (if key.isSome then none else argsFrom (some k) [] true ts)
    else (argsFrom (some k) [] true ts).map (⟨key, cur.reverse⟩ :: ·)
  | .mark ',' :: ts => if cur = [] then none else (argsFrom none [] true ts).map (⟨key, cur.reverse⟩ :: ·)
  | t :: ts => argsFrom key (t :: cur) must ts

/-- The arguments of an instruction or a directive. -/
def readArgs (ts : List Tok) : Option (List Arg) := argsFrom none [] false ts

/-- The value of a field, with the relocation it needs: its type, its symbol and its addend. -/
structure FieldVal where
  v : Nat
  rel : Option (Nat × String × Int)
  deriving DecidableEq, Repr

/-- A number of w bits, unsigned or two's complement. -/
def unumField (w : Nat) (k : Int) : Option FieldVal := if 0 ≤ k ∧ k < (2 ^ w : Nat) then some ⟨k.toNat, none⟩ else none
def snumField (w : Nat) (k : Int) : Option FieldVal :=
  if -(2 ^ (w - 1) : Nat) ≤ k ∧ k < (2 ^ (w - 1) : Nat) then some ⟨natWrap w k, none⟩ else none

/-- A register by its prefix, below a count. -/
def regField (pre : String) (count : Nat) (ts : List Tok) : Option Nat :=
  match ts with
  | [.word s] => (regNum pre s).bind fun n => if n < count then some n else none
  | _ => none

/-- A displacement in bundles from the bundle at here: to a place in .code resolved, to a name of another object by a DISP26 record; a number
is the field's own value. -/
def dispField (env : Names) (here w : Nat) (r : Option String × Int) : Option FieldVal :=
  match r.1 with
  | none => snumField w r.2
  | some n =>
    match env n with
    | some (.sec 1 o) =>
      let d := (o : Int) + r.2 - here
      if d % 32 = 0 then snumField w (d / 32) else none
    | _ => if w = 26 then some ⟨0, some (5, n, r.2)⟩ else none

/-- The value of an operand from its tokens; keyed tells that its key stands before it. The types of a MOVI's and a MOVK's relocations are
10 and 6, the latter still without its halfword's number. -/
def OpField.value (env : Names) (here : Nat) (o : OpField) (keyed : Bool) (ts : List Tok) : Option FieldVal :=
  let const := fun (f : Int → Option FieldVal) (ts : List Tok) => ((readExpr ts).bind (Expr.const env)).bind f
  let orRel := fun (f : Int → Option FieldVal) (type : Nat) => ((readExpr ts).bind (Expr.eval env)).bind fun r =>
    match r.1 with
    | none => f r.2
    | some n => some ⟨0, some (type, n, r.2)⟩
  let reg := fun (pre : String) (count base : Nat) => (regField pre count ts).map (fun n => (⟨base + n, none⟩ : FieldVal))
  match o.kind with
  | .reg pre count => reg pre count 0
  | .vsrc => (reg "v" 64 0).orElse (fun _ => reg "q" 8 64)
  | .xsrc => (reg "x" 64 0).orElse (fun _ => reg "q" 8 64)
  | .mask => (reg "k" 8 0).bind fun f => if f.v = 0 then none else some f
  | .snum => const (snumField o.w) ts
  | .unum => const (unumField o.w) ts
  | .width => const (fun k => unumField o.w (k - 1)) ts
  | .off scale => const (fun k => if k % (scale : Int) = 0 then snumField o.w (k / scale) else none) ts
  | .disp => ((readExpr ts).bind (Expr.eval env)).bind (dispField env here o.w)
  | .sysreg => match ts with
    | [.word s] => (sysRegs.lookup s).map (fun n => ⟨n, none⟩)
    | _ => none
  | .queue => match keyed, ts with
    | false, .word "queue" :: rest => const (unumField o.w) rest
    | true, _ => const (unumField o.w) ts
    | _, _ => none
  | .queues => match keyed, ts with
    | false, .word "queue" :: rest => const (fun k => if 0 ≤ k ∧ k < 4 then some ⟨2 ^ k.toNat, none⟩ else none) rest
    | true, _ => const (unumField o.w) ts
    | _, _ => none
  | .sig => const (unumField o.w) ts
  | .imm20 => orRel (snumField 20) 10
  | .half => orRel (unumField 16) 6

/-- Operands into a slot's word, field by field: a positional one where it fits, else the one after its key; the queues of a QFENCE take all
the arguments. -/
def fitOps (env : Names) (here : Nat) : List OpField → List Arg → Option (Nat × List (Nat × String × Int))
  | [], [] => some (0, [])
  | [], _ :: _ => none
  | o :: os, args =>
    let put := fun (f : FieldVal) (rest : List Arg) => (fitOps env here os rest).map (fun r => (f.v <<< o.lo ||| r.1, f.rel.toList ++ r.2))
    let skip := fun (_ : Unit) => if o.opt then fitOps env here os args else none
    let keyed := fun (_ : Unit) => match args.find? (fun a => a.key == some o.key) with
      | some a => (o.value env here true a.val).bind (fun f => put f (args.erase a))
      | none => skip ()
    match args with
    | ⟨none, ts⟩ :: rest =>
      if o.kind = .queues then
        (args.mapM (fun a => if a.key = none then o.value env here false a.val else none)).bind fun fs =>
          put ⟨fs.foldl (fun m f => m ||| f.v) 0, none⟩ []
      else match o.value env here false ts with
        | some f => put f rest
        | none => keyed ()
    | _ => keyed ()

/-- Modifiers into a slot's word, each by the first set not yet used that holds it; the sets left give their values without one. -/
def fitMods : List ModSet → List String → Option Nat
  | sets, [] => sets.foldl (fun (acc : Option Nat) s => acc.bind fun m => s.dflt.map (m ||| ·)) (some 0)
  | sets, m :: ms =>
    match sets.find? (fun s => s.alts.any (·.1 == m)) with
    | some s => (s.alts.lookup m).bind fun v => (fitMods (sets.erase s) ms).map (v ||| ·)
    | none => none

/-! Slots. -/

/-- The slots in the order in which an instruction without a slot's name looks for one (R87); their numbers are those of FAULT_INFO.SLOT. -/
def slotNames : List String := ["C", "S0", "S1", "M", "V0", "V1", "X"]

/-- Where a slot begins in a bundle (R68), and where its QP begins in it (R72 to R77); C has none. -/
def slotLo (s : Nat) : Nat := getAt [8, 28, 64, 100, 140, 180, 220] s 0
def slotQp (s : Nat) : Option Nat := getAt [none, some 26, some 26, some 30, some 30, some 30, some 26] s none

/-- Whether a form goes to a slot. -/
def SlotSet.has (f : SlotSet) (s : Nat) : Bool :=
  match f with
  | .s => s == 1 || s == 2
  | .s0 => s == 1
  | .s1 => s == 2
  | .m => s == 3
  | .v => s == 4 || s == 5
  | .v0 => s == 4
  | .x => s == 6
  | .c => s == 0
  | .any => true

/-- An instruction as written: its slot, its predicate, its mnemonic with its modifiers, its arguments. -/
structure Part where
  slot : Option Nat
  qp : Option Nat
  mnem : String
  mods : List String
  args : List Arg
  deriving DecidableEq, Repr

/-- A slot's word and the relocations in it: slot, type, symbol, addend. -/
structure SlotWord where
  v : Nat
  rels : List (Nat × Nat × String × Int)
  deriving DecidableEq, Repr

/-- An instruction in a slot, by the first form of its mnemonic that it fits; the fields a form does not give are zero (R78), the QP of a NOP
among them. -/
def Part.encode (env : Names) (here : Nat) (p : Part) (s : Nat) : Option SlotWord :=
  let qp := match p.qp with
    | none => some 0
    | some n => (slotQp s).map (n <<< ·)
  qp.bind fun q => (forms.filter (fun f => f.mnem == p.mnem)).findSome? (fun f =>
    if f.slots.has s && !(f.slots == .any && q != 0) then
      (fitMods f.mods p.mods).bind fun m => (fitOps env here f.ops p.args).map fun r =>
        let v := f.base ||| m ||| r.1 ||| q
        ⟨v, r.2.map (fun e => (s, if e.1 = 6 then 6 + natBits v 16 2 else e.1, e.2))⟩
    else none)

/-- A predicate before an instruction. -/
def readPred : List Tok → Option (Option Nat × List Tok)
  | .mark '(' :: .word p :: .mark ')' :: ts => (regField "p" 16 [.word p]).map (fun n => (some n, ts))
  | .mark '(' :: _ => none
  | ts => some (none, ts)

/-- An instruction read. -/
def readPart (slot : Option Nat) (ts : List Tok) : Option Part :=
  (readPred ts).bind fun r =>
    match r.2 with
    | .word w :: rest => (readArgs rest).map (fun args => ⟨slot, r.1, (splitDots w).1, (splitDots w).2, args⟩)
    | _ => none

/-- The header part: rm, and psel=n (R87). -/
def readHeader : List Tok → Option (Bool × Option Nat)
  | [] => some (false, none)
  | .word "rm" :: ts => (readHeader ts).bind fun h => if h.1 then none else some (true, h.2)
  | .word "psel" :: .mark '=' :: .word n :: ts => (readHeader ts).bind fun h =>
    if h.2.isSome then none else (numVal n).bind fun k => if k < 8 then some (h.1, some k) else none
  | _ => none

/-- A bundle as written: rm, psel, and its instructions. -/
structure BundleText where
  rm : Bool
  psel : Option Nat
  parts : List Part
  deriving DecidableEq, Repr

/-- Tokens between bars. -/
def splitBars (ts : List Tok) : List (List Tok) :=
  ts.foldr (fun t acc => if t == .mark '|' then [] :: acc else match acc with
    | [] => [[t]]
    | p :: ps => (t :: p) :: ps) [[]]

/-- A bundle's text between its braces read (R87). -/
def readBundle (ts : List Tok) : Option BundleText :=
  (splitBars ts).foldl (fun (acc : Option BundleText) part => acc.bind fun b =>
    match part with
    | [] => some b
    | .word "H" :: .mark ':' :: rest =>
      if b.rm || b.psel.isSome then none else (readHeader rest).map (fun h => { b with rm := h.1, psel := h.2 })
    | .word s :: .mark ':' :: rest =>
      (slotNames.findIdx? (· == s)).bind fun i =>
        if rest = [] then none else (readPart (some i) rest).map (fun p => { b with parts := b.parts ++ [p] })
    | _ => (readPart none part).map (fun p => { b with parts := b.parts ++ [p] })) (some ⟨false, none, []⟩)

/-- The instructions of a bundle in their slots: those with a slot's name first, then each other one in the first free slot that takes it. -/
def placeParts (env : Names) (here : Nat) (ps : List Part) : Option (List (Nat × SlotWord)) :=
  let named := (ps.filter (·.slot.isSome)).foldl (fun (acc : Option (List (Nat × SlotWord))) p => acc.bind fun l =>
    p.slot.bind fun s => if (lookup l s).isSome then none else (p.encode env here s).map (fun w => l ++ [(s, w)])) (some [])
  (ps.filter (·.slot.isNone)).foldl (fun acc p => acc.bind fun l =>
    ((List.range 7).findSome? (fun s => if (lookup l s).isSome then none else (p.encode env here s).map (fun w => (s, w)))).map
      (fun e => l ++ [e])) named

/-- A bundle assembled: its bits, its decoding, and its relocations. -/
structure AsmBundle where
  bits : Nat
  dec : Bundle
  rels : List (Nat × Nat × String × Int)
  deriving DecidableEq, Repr

/-- The fields whose values an instruction's own rule limits, so that a value there is no bit that must be zero: slot, OP, lowest bit, width,
and a value the rule allows (R80 to R83, R102, R110, R149). -/
def limitedFields : List (Nat × Nat × Nat × Nat × Nat) :=
  [1, 2].flatMap (fun s => [(s, 0x04, 0, 6, 0), (s, 0x20, 22, 4, 0), (s, 0x21, 22, 4, 0), (s, 0x22, 22, 4, 0), (s, 0x2E, 20, 1, 0), (s, 0x2E, 14, 1, 0)]) ++
    [(1, 0x30, 0, 14, 0), (1, 0x31, 0, 14, 1), (2, 0x3C, 20, 6, 0), (3, 0x21, 12, 1, 0), (3, 0x22, 12, 1, 0), (3, 0x0E, 18, 6, 0),
     (3, 0x0F, 18, 6, 0), (4, 0x3E, 0, 3, 1), (6, 0x13, 23, 1, 0), (6, 0x1C, 8, 4, 0)]

/-- The decoding of a slot's word. -/
def decodeSlot (s v : Nat) : SlotDec :=
  if s = 0 then decodeC (BitVec.ofNat 20 v)
  else if s ≤ 2 then decodeS (s == 2) (BitVec.ofNat 36 v)
  else if s = 3 then decodeM (BitVec.ofNat 40 v)
  else if s ≤ 5 then decodeV (s == 5) (BitVec.ofNat 40 v)
  else decodeX (BitVec.ofNat 36 v)

/-- Whether a slot's word has a bit that R78 says must be zero: with the limited fields at allowed values it is still ILLEGAL_OPERAND. -/
def unusedBits (s v : Nat) : Bool :=
  let op := v / 2 ^ (if s = 1 ∨ s = 2 ∨ s = 6 then 30 else 34)
  let w := limitedFields.foldl (fun (n : Nat) e =>
    if e.1 = s ∧ e.2.1 = op then n - natBits n e.2.2.1 e.2.2.2.1 * 2 ^ e.2.2.1 + e.2.2.2.2 * 2 ^ e.2.2.1 else n) v
  decodeSlot s w == .bad .illegalOperand

/-- A bundle's text with the mark and the profile entry that directives gave it assembled at an offset in .code; none where it names nothing
the slots take, breaks R85 or R78, or writes another psel than the directive's. -/
def asmBundle (env : Names) (here : Nat) (mark : Bool) (psel : Option Nat) (ts : List Tok) : Option AsmBundle :=
  (readBundle ts).bind fun b => (placeParts env here b.parts).bind fun ws =>
    let ps := (b.psel.orElse (fun _ => psel)).getD 0
    let bits := ws.foldl (fun n e => n ||| e.2.v <<< slotLo e.1) ((if b.rm || mark then 1 else 0) + 2 * ps)
    let dec := decodeBundle (BitVec.ofNat 256 bits)
    if !dec.illegal && !(ws.any (fun e => unusedBits e.1 e.2.v)) && !(psel.isSome && b.psel.isSome && psel != b.psel) then some ⟨bits, dec, ws.flatMap (·.2.rels)⟩ else none

/-- Whether a bundle holds a branch-class instruction, one with an encoding fault among them. -/
def AsmBundle.branches (b : AsmBundle) : Bool := b.dec.br0 || b.dec.br1

/-- Whether a bundle's instructions meet a test. -/
def AsmBundle.any (b : AsmBundle) (p : Instr → Bool) : Bool := b.dec.instrs.any (fun e => p e.2)

/-- The feature bits an instruction takes beside bit 0 (R367). -/
def instrFeature : Instr → Nat
  | .mma o => if o.mode = 5 then 2 else if o.mode = 1 then 4 else 0
  | .mscl _ => 4
  | .attn _ => 8
  | .sqld _ | .sqgo _ | .sqst _ | .sqabt _ => 16
  | .btapp _ | .btset _ | .btget _ | .ald _ => 32
  | .shapeFinal _ | .shapeFloor _ => 64
  | .graph _ => 128
  | .accwFaddq _ => 256
  | .vcvt o => if o.rnd = 4 then 512 else 0
  | .pcommit _ | .pdecommit _ => 1024
  | .fenceRel o | .fenceAcq o | .fenceFull o | .fenceFullq o => if 8 ≤ o.scope.toNat ∧ o.scope.toNat ≤ 10 then 2048 else 0
  | .fpostr o => if 8 ≤ o.scope.toNat ∧ o.scope.toNat ≤ 10 then 2048 else 0
  | _ => 0

end Sys2Proof.Machine
end

