-- ==== Sys2Proof/Machine/Assemble.lean ====
section
/-! DEFINITION. basric-as (R367, R380 to R387, and what R365 to R378 say it writes): a source file to an object. The lines are read twice:
the first reading lays the sections out and gives every name its place; the second, with the first one's outcome in hand, writes the values. -/

namespace Sys2Proof.Machine

/-! What a source declares. -/

/-- A symbol: its section's type (0 for a signal), its value, KIND, BIND and SIZE (R378). -/
structure SrcSym where
  name : String
  type : Nat
  value : Nat
  kind : Nat
  global : Bool
  size : Nat
  deriving DecidableEq, Repr

/-- A relocation: the type of the patched section, then the fields of R377; no symbol for an IMAGE. -/
structure SrcRel where
  sec : Nat
  offset : Nat
  type : Nat
  slot : Nat
  name : Option String
  addend : Int
  deriving DecidableEq, Repr

/-- The elements of a tag: a float format; a power of two; an integer of a width between two bounds (R382). -/
inductive Elem where
  | float (f : Fmt)
  | e8m0
  | int (w : Nat) (lo hi : Int)
  deriving DecidableEq, Repr

/-- A signal: its record's words with HASPRIME clear, its samples' bytes and elements, the limit its lags stay below, its prime image. -/
structure SrcSig where
  name : String
  words : List Nat
  size : Nat
  elem : Elem
  limit : Nat
  prime : Option (List Byte)
  deriving DecidableEq, Repr

/-- A node of a graph: its name, KIND, the name its ADDR takes, MAXITER, JCOUNT. -/
structure SrcNode where
  name : String
  kind : Nat
  ref : Option (String × Int)
  max : Nat
  count : Nat
  deriving DecidableEq, Repr

/-- A graph: its start, its nodes, and its edges with whether they are side edges. -/
structure SrcGraph where
  name : String
  start : Option String
  nodes : List SrcNode
  edges : List (String × String × Bool)
  deriving DecidableEq, Repr

/-- A function under way: its name, the value of its label once met, the line it began on. -/
structure OpenFunc where
  name : String
  label : Option Nat
  line : Nat
  deriving DecidableEq, Repr

/-- What has been read of a source: the data section written to; the bytes of the sections by type; the largest alignments of .data and
.rodata; symbols, relocations, and the names used that have no place; the header's fields; the stage map; signals and the owner of the coming
ones; graphs and whether the last is open; what the coming bundle gets; the offsets of the last branch-class
bundle and of the last that holds SQLD. -/
structure Asm where
  cur : Nat
  code : List Byte
  data : List Byte
  rodata : List Byte
  launch : List Byte
  alignData : Nat
  alignRo : Nat
  syms : List SrcSym
  rels : List SrcRel
  used : List String
  func : Option OpenFunc
  entry : Option String
  gang : Option (Nat × Nat)
  owner : Nat
  stages : List (Nat × Nat)
  tick : Nat
  line : Nat
  scratch : Nat
  vbud : Nat
  profiles : List (Nat × Nat)
  feats : Nat
  sigs : List SrcSig
  graphs : List SrcGraph
  graphOpen : Bool
  psel : Option Nat
  mark : Bool
  branch : Option Nat
  sqld : Option Nat
  deriving DecidableEq, Repr

/-- Nothing read. -/
def Asm.start : Asm :=
  { cur := 1, code := [], data := [], rodata := [], launch := [], alignData := 8, alignRo := 8, syms := [], rels := [], used := [],
    func := none, entry := none, gang := none, owner := 0, stages := [], tick := 0, line := 0, scratch := 0, vbud := 4, profiles := [],
    feats := 1, sigs := [], graphs := [], graphOpen := false, psel := none, mark := false, branch := none, sqld := none }

/-- A symbol by its name. -/
def Asm.sym (s : Asm) (n : String) : Option SrcSym := s.syms.find? (·.name == n)

/-- What the names of a source stand for. -/
def Asm.env (s : Asm) : Names := fun n => (s.sym n).map (fun y => if y.type = 0 then .abs y.value else .sec y.type y.value)

/-- The bytes of the data section written to, and bytes added to it. -/
def Asm.here (s : Asm) : Nat := (if s.cur = 1 then s.code else if s.cur = 2 then s.data else s.rodata).length
def Asm.emit (s : Asm) (bs : List Byte) : Asm :=
  if s.cur = 1 then { s with code := s.code ++ bs }
  else if s.cur = 2 then { s with data := s.data ++ bs }
  else { s with rodata := s.rodata ++ bs }

/-- Zero bytes to the next multiple of n. -/
def Asm.pad (s : Asm) (n : Nat) : Asm := s.emit (List.replicate (roundUp s.here n - s.here) 0)

/-- A symbol defined; none where the name is taken. -/
def Asm.define (s : Asm) (y : SrcSym) : Option Asm :=
  if isName y.name && (s.sym y.name).isNone then some { s with syms := s.syms ++ [y] } else none

/-- A relocation, and its symbol's name among those used. -/
def Asm.relocate (s : Asm) (r : SrcRel) : Asm :=
  { s with rels := s.rels ++ [r], used := s.used ++ r.name.toList }

/-! Arguments. -/

/-- The one word of an argument. -/
def oneWord : List Tok → Option String
  | [.word w] => some w
  | _ => none

/-- A number between two bounds, of names whose places stand before. -/
def Asm.num (s : Asm) (lo hi : Int) (ts : List Tok) : Option Nat :=
  ((readExpr ts).bind (Expr.const s.env)).bind fun k => if 0 ≤ k ∧ lo ≤ k ∧ k ≤ hi then some k.toNat else none

/-- The value of a key, and whether it stands; the words without a key. -/
def keyOf (args : List Arg) (k : String) : Option (List Tok) := (args.find? (fun a => a.key == some k)).map (·.val)
def bareArgs (args : List Arg) : List (List Tok) := (args.filter (·.key.isNone)).map (·.val)

/-- A key's number, or what it is without the key. -/
def Asm.keyNum (s : Asm) (args : List Arg) (k : String) (dflt : Nat) (lo hi : Int) : Option Nat :=
  match keyOf args k with
  | none => some dflt
  | some v => s.num lo hi v

/-- A key's word, and the value it stands for. -/
def keyWord {α : Type} (args : List Arg) (k : String) (dflt : α) (values : List (String × α)) : Option α :=
  match keyOf args k with
  | none => some dflt
  | some v => (oneWord v).bind fun w => values.lookup w

/-- Whether the keys are each among those named, none twice, and no word but the flags follows the first n words. -/
def argsOk (args : List Arg) (n : Nat) (keys flags : List String) : Bool :=
  decide ((args.filterMap (·.key)).Nodup) && (args.filterMap (·.key)).all keys.contains &&
    ((bareArgs args).drop n).all (fun v => match oneWord v with
      | some w => flags.contains w
      | none => false) && decide ((bareArgs args).drop n).Nodup && n ≤ (bareArgs args).length &&
    (args.dropWhile (·.key.isNone)).all (fun a => a.key.isSome || (match oneWord a.val with
      | some w => flags.contains w
      | none => false))

/-- Whether a word stands among the words after the first n. -/
def hasFlag (args : List Arg) (n : Nat) (w : String) : Bool := ((bareArgs args).drop n).contains [.word w]

/-- The i-th word without a key. -/
def wordAt (args : List Arg) (i : Nat) : Option String := (((bareArgs args)[i]?).bind oneWord)

/-! Prime images (R382). -/

/-- A real number of a format by RNE; none where it leaves the format's range. -/
def Elem.real (e : Elem) (neg : Bool) (m : Nat) (ten : Int) : Option Nat :=
  let v : FV := match (if ten < 0 then FV.div (.fin neg m 0) (.fin false (10 ^ ten.natAbs) 0) else .fin neg (m * 10 ^ ten.toNat) 0) with
    | .fin _ 0 _ => .fin neg 0 0
    | v => v
  match e, v with
  | .float f, .fin n m x =>
    let mag := f.roundMag 0 0 n m x
    if mag > f.maxCode then none else some (f.signed n mag)
  | .e8m0, .fin false m x =>
    let k := e8m0Exp 0 0 m x + 127
    if m ≠ 0 ∧ 0 ≤ k ∧ k ≤ 0xFE then some k.toNat else none
  | _, _ => none

/-- The width of an element. -/
def Elem.width : Elem → Nat
  | .float f => f.w
  | .e8m0 => 8
  | .int w _ _ => w

/-- A value of a prime: a decimal number of a float tag is a real, other values are numbers. -/
def Elem.value (e : Elem) (env : Names) (ts : List Tok) : Option Nat :=
  let digits := fun (neg : Bool) (w : String) => (realVal w).map (fun r => (neg, r))
  let real := match ts with
    | [.word w] => digits false w
    | [.mark '+', .word w] => digits false w
    | [.mark '-', .word w] => digits true w
    | _ => none
  let int := (readExpr ts).bind (Expr.const env)
  match e, real with
  | .int w lo hi, _ => int.bind fun k => if lo ≤ k ∧ k ≤ hi then some (natWrap w k) else none
  | _, some (neg, m, ten) => e.real neg m ten
  | _, none => int.bind fun k => if 0 ≤ k ∧ k < (2 ^ e.width : Nat) then some k.toNat else none

/-- The tags by their names (R382): their codes and elements. A z names the unsigned integers of a tag. -/
def tagElems : List (String × Nat × Elem) :=
  [("f32", 2, .float .fp32), ("bf16", 3, .float .bf16), ("f16", 4, .float .f16), ("e4m3", 5, .float .e4m3), ("e5m2", 6, .float .e5m2),
   ("e2m1", 7, .float .e2m1), ("e8m0", 12, .e8m0), ("b", 1, .int 8 (-128) 255),
   ("i32", 8, .int 32 (-2147483648) 2147483647), ("i16", 9, .int 16 (-32768) 32767), ("i8", 10, .int 8 (-128) 127), ("i4", 11, .int 4 (-8) 7),
   ("z32", 8, .int 32 0 4294967295), ("z16", 9, .int 16 0 65535), ("z8", 10, .int 8 0 255), ("z4", 11, .int 4 0 15)]

/-- The elements of an 8-byte sample. -/
def dwordElem : Elem := .int 64 (-9223372036854775808) 18446744073709551615

/-! Directives. Each takes what was read before it, and in the second reading the outcome of the first. -/

/-- .section (R380). -/
def Asm.section_ (s : Asm) (args : List Arg) : Option Asm :=
  match args with
  | [⟨none, [.word ".code"]⟩] => some { s with cur := 1 }
  | [⟨none, [.word ".data"]⟩] => some { s with cur := 2 }
  | [⟨none, [.word ".rodata"]⟩] => some { s with cur := 3 }
  | _ => none

/-- A label: within a function it may be the function's own. -/
def Asm.label (s : Asm) (n : String) : Option Asm :=
  match s.func with
  | some f =>
    if f.name = n ∧ f.label = none ∧ s.cur = 1 then
      (s.define ⟨n, 1, s.here, 1, true, 0⟩).map (fun t => { t with func := some { f with label := some s.here } })
    else s.define ⟨n, s.cur, s.here, 0, false, 0⟩
  | none => s.define ⟨n, s.cur, s.here, 0, false, 0⟩

/-- .func and .fend (R381). -/
def Asm.funcBegin (s : Asm) (no : Nat) (args : List Arg) : Option Asm :=
  if s.func = none ∧ argsOk args 1 [] [] then (wordAt args 0).map (fun n => { s with func := some ⟨n, none, no⟩ }) else none

def Asm.funcEnd (s : Asm) (args : List Arg) : Option Asm :=
  if args ≠ [] then none else
  s.func.bind fun f => f.label.map (fun at_ =>
    { s with func := none, syms := s.syms.map (fun y => if y.name = f.name then { y with size := s.code.length - at_ } else y) })

/-- .entry (R381): the first reading tells whether the name stands in .code. -/
def Asm.entryIs (s : Asm) (full : Option Asm) (args : List Arg) : Option Asm :=
  if s.entry = none ∧ argsOk args 1 [] [] then
    (wordAt args 0).bind fun n =>
      match full with
      | none => some { s with entry := some n }
      | some t => match t.env n with
        | some (.sec 1 _) => some { s with entry := some n }
        | _ => none
  else none

/-- .frame (R381): a label that stands at the end of what is written would name the frame word's unit. -/
def Asm.frame (s : Asm) (args : List Arg) : Option Asm :=
  if s.cur = 1 ∧ argsOk args 1 [] [] ∧ !(s.syms.any (fun y => y.type == 1 && y.value == s.code.length)) then
    ((bareArgs args)[0]?).bind fun v => (s.num 128 0x100000 v).bind fun n =>
      if n % 128 = 0 then some (s.emit (List.replicate ((24 + 32 - s.here % 32) % 32) 0 ++ bytesOfNat n 8)) else none
  else none

/-- .gang (R381): members and stages, and the stage that owns the coming signals. -/
def Asm.gangIs (s : Asm) (args : List Arg) : Option Asm :=
  if s.gang = none ∧ argsOk args 1 ["members", "stages", "stage"] [] ∧ (wordAt args 0).any isName then
    (s.keyNum args "members" 1 1 16).bind fun m => (s.keyNum args "stages" 1 1 256).bind fun n =>
      (s.keyNum args "stage" 0 0 (n - 1)).map (fun o => { s with gang := some (m, n), owner := o })
  else none

/-- .stage (R381, R301). -/
def Asm.stage (s : Asm) (args : List Arg) : Option Asm :=
  if argsOk args 1 ["kind", "core"] [] then
    s.gang.bind fun g => ((bareArgs args)[0]?).bind fun v => (s.num 0 (g.2 - 1) v).bind fun n =>
      (keyWord args "kind" 0 [("any", 0), ("near", 1), ("die", 2)]).bind fun k => (s.keyNum args "core" 0 0 15).bind fun c =>
        if k ≠ 1 ∧ (keyOf args "core").isSome then none else some { s with stages := assocSet s.stages n (k * 2 ^ 14 + c) }
  else none

/-- .tickbudget (R381). -/
def Asm.tickbudget (s : Asm) (args : List Arg) : Option Asm :=
  if s.gang ≠ none ∧ argsOk args 1 [] [] then
    ((bareArgs args)[0]?).bind fun v => (s.num 0 0xFFFFFFFF v).map (fun n => { s with tick := n })
  else none

/-- The kind of a signal, KIND of R372, from the directive and its key. -/
def sigKind (dir : String) (args : List Arg) : Option Nat :=
  if dir = ".signal" then keyWord args "kind" 0 [("own", 0), ("mirror", 1)]
  else if dir = ".ingress" then some 2
  else some 3

/-- The keys of R382 that a kind takes beside the common ones. -/
def sigKeys (dir : String) (kind : Nat) : List String :=
  ["size", "depth", "rate", "phase", "home", "hold", "tag"] ++ (if dir = ".signal" then ["kind"] else []) ++
    getAt [["archive", "slots", "pool"], ["lag", "pstage", "psig", "pmember"], ["lag", "queue"], []] kind []

/-- The k of a size of 8 × 2^k bytes. -/
def sizeK (n : Nat) : Option Nat := (List.range 13).find? (fun k => 8 * 2 ^ k == n)

/-- A signal declared (R382, R372, R153). -/
def Asm.signal (s : Asm) (full : Option Asm) (dir : String) (args : List Arg) : Option Asm :=
  (sigKind dir args).bind fun kind => (wordAt args 0).bind fun name =>
  if argsOk args 1 (sigKeys dir kind) (if kind = 1 then ["ext"] else []) ∧ s.sigs.length < 256 then
    ((keyOf args "size").bind (s.num 8 32768)).bind fun size => (sizeK size).bind fun k =>
    ((keyOf args "depth").bind (s.num 1 65535)).bind fun depth =>
    (s.keyNum args "rate" 1 1 65535).bind fun rate => (s.keyNum args "phase" 0 0 (rate - 1)).bind fun phase =>
    ((keyOf args "home").bind (s.num 0 (2 ^ 21 - 1))).bind fun home => (keyWord args "hold" 0 [("hold", 0), ("fault", 1)]).bind fun hold =>
    (keyWord args "tag" (if k = 0 then (0, dwordElem) else (1, .int 8 (-128) 255)) (("none", 0, dwordElem) :: tagElems)).bind fun tag =>
    (s.keyNum args "lag" 0 0 (depth - 1)).bind fun lag => (s.keyNum args "queue" 0 0 3).bind fun queue =>
    (s.keyNum args "archive" 0 (depth + 1) (2 ^ 24)).bind fun ad => (s.keyNum args "slots" 1 1 256).bind fun slots =>
    (s.keyNum args "pool" 0 0 63).bind fun pool => (s.keyNum args "pstage" s.owner 0 255).bind fun pstage =>
    (s.keyNum args "pmember" 0 0 15).bind fun pmember =>
    (match keyOf args "psig", full with
      | none, _ => if kind = 1 then none else some 0
      | some _, none => some 0
      | some v, some t => t.num 0 255 v).bind fun psig =>
      if home % (if k = 0 then 8 else 512) ≠ 0 ∨ ((k = 0) ≠ (tag.1 = 0)) ∨
          (ad = 0 ∧ ((keyOf args "slots").isSome ∨ (keyOf args "pool").isSome)) then none
      else
        let arch := if ad = 0 then 0 else (ad - 1) * 2 ^ 32 + (slots - 1) * 2 ^ 24 + pool * 2 ^ 18 + 2 ^ 11
        let w0 := lag * 2 ^ 48 + depth * 2 ^ 32 + phase * 2 ^ 16 + rate
        let w1 := arch + queue * 2 ^ 16 + hold * 2 ^ 10 + kind * 2 ^ 8 + tag.1 * 2 ^ 4 + k
        let w3 := if kind = 1 then (if hasFlag args 1 "ext" then 2 ^ 20 else 0) + pmember * 2 ^ 16 + psig * 2 ^ 8 + pstage else 0
        let limit := if kind = 1 ∨ kind = 2 then lag + 1 else if ad = 0 then depth else ad
        (s.define ⟨name, 0, s.sigs.length, 2, false, 0⟩).map (fun (t : Asm) =>
          ({ t with sigs := t.sigs ++ [(⟨name, [w0, w1, s.owner * 2 ^ 24 + home, w3], size, tag.2, limit, none⟩ : SrcSig)],
                    feats := if ad = 0 then t.feats else t.feats ||| 32 } : Asm))
  else none

/-- The bytes of elements of w bits, the first lowest, in a sample of n bytes. -/
def primeBytes (w n : Nat) (vs : List Nat) : List Byte := bytesOfNat (packNat w vs) n

/-- .prime (R382). -/
def Asm.primeOf (s : Asm) (args : List Arg) : Option Asm :=
  match bareArgs args with
  | [.word name] :: vs =>
    (s.sigs.find? (·.name == name)).bind fun g =>
      if args.length ≠ vs.length + 1 ∨ g.prime ≠ none ∨ vs.length * g.elem.width > 8 * g.size then none
      else (vs.mapM (g.elem.value s.env)).map (fun ns =>
        { s with sigs := s.sigs.map (fun h => if h.name = name then { h with prime := some (primeBytes g.elem.width g.size ns) } else h) })
  | _ => none

/-- .regs, .bed, .profile, .psel, .mark (R383). -/
def Asm.regs (s : Asm) (args : List Arg) : Option Asm :=
  if argsOk args 1 [] [] then ((bareArgs args)[0]?).bind fun v => (s.num 1 4 v).map (fun n => { s with vbud := n }) else none

def Asm.bed (s : Asm) (full : Option Asm) (args : List Arg) : Option Asm :=
  if argsOk args 0 ["line", "scratch"] [] then
    (s.keyNum args "line" 0 0 96).bind fun a => (s.keyNum args "scratch" 0 0 96).bind fun b =>
      if a + b > 96 ∨ (a ≠ 0 ∧ full.any (fun t => t.gang == none)) then none else some { s with line := a, scratch := b }
  else none

def Asm.profile (s : Asm) (args : List Arg) : Option Asm :=
  match bareArgs args with
  | [e, p] =>
    (s.num 0 7 e).bind fun e => (s.num 0 0xFFFF p).bind fun p =>
      if args.length = 2 ∧ lookup s.profiles e = none ∧ (profileOf p).isSome then some { s with profiles := s.profiles ++ [(e, p)] } else none
  | _ => none

def Asm.pselIs (s : Asm) (args : List Arg) : Option Asm :=
  if argsOk args 1 [] [] then ((bareArgs args)[0]?).bind fun v => (s.num 0 7 v).map (fun n => { s with psel := some n }) else none

/-- The header's profile numbers: 0x9101 in entry 0 unless it is named (R383). -/
def Asm.profileList (s : Asm) : List Nat := (List.range 8).map (fun e => (lookup s.profiles e).getD (if e = 0 then 0x9101 else 0))

/-- .align (R384). -/
def Asm.align (s : Asm) (args : List Arg) : Option Asm :=
  if argsOk args 1 [] [] then
    ((bareArgs args)[0]?).bind fun v => (s.num 1 (2 ^ 30) v).bind fun n =>
      if n ≠ 2 ^ n.log2 ∨ (s.cur = 1 ∧ n < 32) then none
      else
        let t := s.pad n
        some { t with alignData := if s.cur = 2 then max t.alignData n else t.alignData,
                      alignRo := if s.cur = 3 then max t.alignRo n else t.alignRo }
  else none

/-- A value of n bytes written to the data section; dword tells that an address not yet known may stand there, by an ABS64 record (R384). -/
def Asm.datum (s : Asm) (full : Option Asm) (dword : Bool) (n : Nat) (ts : List Tok) : Option Asm :=
  (readExpr ts).bind fun e =>
    match full with
    | none => some (s.emit (List.replicate n 0))
    | some t => (e.eval t.env).bind fun r =>
      match r.1 with
      | none => if -(2 ^ (8 * n - 1) : Nat) ≤ r.2 ∧ r.2 < (2 ^ (8 * n) : Nat) then some (s.emit (bytesOfNat (natWrap (8 * n) r.2) n)) else none
      | some name => if dword then some ((s.relocate ⟨s.cur, s.here, 1, 0, some name, r.2⟩).emit (List.replicate 8 0)) else none

/-- .byte, .half, .word, .dword (R384). -/
def Asm.dataList (s : Asm) (full : Option Asm) (n : Nat) (args : List Arg) : Option Asm :=
  if s.cur = 1 ∨ args = [] ∨ args.any (·.key.isSome) then none
  else args.foldl (fun (acc : Option Asm) a => acc.bind fun t => t.datum full (n == 8) n a.val) (some s)

/-- A count: a number of names whose places stand before, not negative. -/
def Asm.count (s : Asm) (ts : List Tok) : Option Nat :=
  ((readExpr ts).bind (Expr.const s.env)).bind fun k => if 0 ≤ k then some k.toNat else none

/-- .fill and .space (R384). -/
def Asm.fill (s : Asm) (full : Option Asm) (args : List Arg) : Option Asm :=
  match bareArgs args with
  | [n, size, v] =>
    (s.count n).bind fun n => (s.num 1 8 size).bind fun size =>
      if args.length ≠ 3 ∨ s.cur = 1 ∨ size ≠ 2 ^ size.log2 then none
      else (List.range n).foldl (fun (acc : Option Asm) _ => acc.bind fun t => t.datum full false size v) (some s)
  | _ => none

def Asm.space (s : Asm) (args : List Arg) : Option Asm :=
  if s.cur ≠ 1 ∧ argsOk args 1 [] [] then
    ((bareArgs args)[0]?).bind fun v => (s.count v).map (fun n => s.emit (List.replicate n 0))
  else none

/-! Graphs and cells (R385). -/

/-- The bytes of the graphs before the coming one. -/
def graphBytes (gs : List SrcGraph) : Nat := (gs.map (fun g => 64 * (g.nodes.length + 1))).sum

/-- The open graph closed, its symbol's size known. -/
def Asm.closeGraph (s : Asm) : Asm :=
  if s.graphOpen then
    match s.graphs.getLast? with
    | some g =>
      { s with graphOpen := false,
               syms := s.syms.map (fun y => if y.name = g.name then { y with size := 64 * (g.nodes.length + 1) } else y) }
    | none => s
  else s

/-- Whether a graph has a node of a name. -/
def SrcGraph.has (g : SrcGraph) (n : String) : Bool := g.nodes.any (·.name == n)

/-- .graph: the second reading asks for nodes, the start among them. -/
def Asm.graph (s : Asm) (full : Option Asm) (args : List Arg) : Option Asm :=
  let s := s.closeGraph
  let whole := fun (start : Option String) => full.all (fun t => ((t.graphs)[s.graphs.length]?).any (fun g => g.nodes != [] && start.all g.has))
  if argsOk args 1 ["start"] [] then
    (wordAt args 0).bind fun name =>
      (match keyOf args "start" with
        | none => some none
        | some v => (oneWord v).map some).bind fun start => if whole start = false then none else
        (s.define ⟨name, 6, graphBytes s.graphs, 4, true, 0⟩).map (fun (t : Asm) =>
          ({ t with graphs := t.graphs ++ [(⟨name, start, [], []⟩ : SrcGraph)], graphOpen := true, feats := t.feats ||| 128 } : Asm))
  else none

/-- The open graph changed. -/
def Asm.modGraph (s : Asm) (f : SrcGraph → Option SrcGraph) : Option Asm :=
  if s.graphOpen then
    match s.graphs.getLast? with
    | some g => (f g).map (fun h => { s with graphs := s.graphs.dropLast ++ [h] })
    | none => none
  else none

/-- A name that a key gives to a field of addresses: in the second reading one of the symbols of a kind (and a size), or none of this
source's. -/
def refOf (full : Option Asm) (ok : SrcSym → Bool) (v : List Tok) : Option (String × Int) :=
  (oneWord v).bind fun w =>
    if isName w && full.all (fun t => (t.sym w).all ok) then some (w, 0) else none

def Asm.node (s : Asm) (full : Option Asm) (args : List Arg) : Option Asm :=
  (wordAt args 0).bind fun name => (wordAt args 1).bind fun k =>
  let cell := fun (_ : Unit) => (keyOf args "cell").bind (refOf full (fun y => y.kind == 3 && y.size == 8))
  let made : Option SrcNode :=
    if k = "kernel" ∧ argsOk args 2 ["launch"] [] then
      ((keyOf args "launch").bind (refOf full (fun y => y.kind == 5))).map (fun r => ⟨name, 0, some r, 0, 0⟩)
    else if k = "cond" ∧ argsOk args 2 ["cell"] [] then (cell ()).map (fun r => ⟨name, 1, some r, 0, 0⟩)
    else if k = "loop" ∧ argsOk args 2 ["cell", "max"] [] then
      (cell ()).bind fun r => (s.keyNum args "max" 0 0 0xFFFFFFFF).map (fun n => ⟨name, 2, some r, n, 0⟩)
    else if k = "join" ∧ argsOk args 2 ["count"] [] then
      ((keyOf args "count").bind (s.num 1 4095)).map (fun n => ⟨name, 3, none, 0, n⟩)
    else none
  made.bind fun n => (s.modGraph (fun g =>
    if isName name && g.nodes.length < 4095 && !(g.nodes.any (·.name == name)) then some { g with nodes := g.nodes ++ [n] } else none)).map
      (fun t => { t with used := t.used ++ (n.ref.map (·.1)).toList })

/-- .edge: the second reading asks for its nodes, an alternative's not a join. -/
def Asm.edge (s : Asm) (full : Option Asm) (args : List Arg) : Option Asm :=
  if argsOk args 2 [] ["alt"] then
    (wordAt args 0).bind fun a => (wordAt args 1).bind fun b =>
      let alt := hasFlag args 2 "alt"
      let ok := full.all (fun t => ((t.graphs)[s.graphs.length - 1]?).any (fun g =>
        g.has a && g.has b && !(alt && g.nodes.any (fun n => n.name == a && n.kind == 3))))
      s.modGraph (fun g => if !ok || g.edges.any (fun e => e.1 == a && e.2.2 == alt) then none else some { g with edges := g.edges ++ [(a, b, alt)] })
  else none

/-- .cell (R385): a cell's alignment counts among those its section uses. -/
def Asm.cell (s : Asm) (full : Option Asm) (args : List Arg) : Option Asm :=
  if s.cur ≠ 2 ∨ args.any (·.key.isSome) then none else
  match bareArgs args with
  | [[.word n], [.word "shape"]] =>
    let t := s.pad 16
    ((t.define ⟨n, 2, t.here, 3, true, 16⟩).map (fun t => { t with alignData := max t.alignData 16 })).map (·.emit (List.replicate 16 0))
  | [.word n] :: [.word "pred"] :: v =>
    if v.length > 1 then none else
    let t := s.pad 8
    (t.define ⟨n, 2, t.here, 3, true, 8⟩).bind (fun t => t.datum full false 8 (v.head?.getD [.word "0"]))
  | _ => none

/-! Launch templates (R386). -/

/-- A name that R386 gives to a field, or a number where it allows one. -/
def Asm.launchIs (s : Asm) (full : Option Asm) (args : List Arg) : Option Asm :=
  if argsOk args 1 ["entry", "shape", "floor", "site", "cell", "prio", "place", "quota", "pool", "arg", "vbud", "line", "scratch"]
      ["predicted", "reissue"] then
    (wordAt args 0).bind fun name =>
    let s := s.closeGraph
    let at_ := s.launch.length
    (s.define ⟨name, 7, at_, 5, true, 64⟩).bind fun s =>
    let pred := hasFlag args 1 "predicted"
    let s := if pred then { s with feats := s.feats ||| 64 } else s
    match full with
    | none => some { s with launch := s.launch ++ List.replicate 64 0 }
    | some t =>
      let gang := t.gang.isSome
      let mn := t.gang.getD (1, 1)
      let has := fun (k : String) => (keyOf args k).isSome
      (match keyOf args "entry" with
        | some v => refOf full (fun y => y.type == 1) v
        | none => t.entry.map (fun n => (n, 0))).bind fun entry =>
      (match keyOf args "cell" with
        | none => some none
        | some v => (refOf full (fun y => y.kind == 3 && y.size == 16) v).map (fun r => some r)).bind fun cell =>
      (match keyOf args "arg" with
        | none => some (none, 0)
        | some v => (readExpr v).bind (Expr.eval t.env)).bind fun arg =>
      (s.keyNum args "shape" (if gang then 0 else 1) 0 0xFFFFFFFF).bind fun shape => (s.keyNum args "floor" 0 0 0xFFFFFFFF).bind fun floor =>
      (s.keyNum args "site" 0 0 255).bind fun site => (s.keyNum args "prio" 0 0 7).bind fun prio =>
      (s.keyNum args "place" 0 0 2).bind fun place => (s.keyNum args "quota" 0 0 65535).bind fun quota =>
      (s.keyNum args "pool" 0 0 63).bind fun pool => (s.keyNum args "vbud" t.vbud 1 4).bind fun vbud =>
      (s.keyNum args "line" t.line 0 96).bind fun line => (s.keyNum args "scratch" t.scratch 0 96).bind fun scratch =>
        if (!pred ∧ (has "floor" ∨ has "site" ∨ has "quota" ∨ has "pool")) ∨ (gang ∧ (has "prio" ∨ has "place")) ∨
            line + scratch > 96 ∨ (!gang ∧ line ≠ 0) ∨ (arg.1 = none ∧ !(-(2 ^ 63 : Int) ≤ arg.2 ∧ arg.2 < 2 ^ 64)) then none
        else
          let bit := fun (b : Bool) (n : Nat) => if b then 2 ^ n else 0
          let w0 := bit (has "site") 59 + bit (hasFlag args 1 "reissue") 58 + bit pred 57 + bit gang 56 + place * 2 ^ 52 + prio * 2 ^ 48
          let w3 := pool * 2 ^ 48 + quota * 2 ^ 32 + (mn.1 - 1) * 2 ^ 28 + (mn.2 - 1) * 2 ^ 20 + vbud * 2 ^ 14 + scratch * 2 ^ 7 + line
          let words := [w0, floor * 2 ^ 32 + shape, site * 2 ^ 56, w3, 0, if arg.1 = none then natWrap 64 arg.2 else 0]
          let s := s.relocate ⟨7, at_, 3, 0, some entry.1, 0⟩
          let s := match cell with
            | some c => s.relocate ⟨7, at_ + 16, 2, 0, some c.1, 0⟩
            | none => s
          let s := s.relocate ⟨7, at_ + 32, 4, 0, none, 0⟩
          let s := match arg.1 with
            | some n => s.relocate ⟨7, at_ + 40, 1, 0, some n, arg.2⟩
            | none => s
          some { s with launch := s.launch ++ words.flatMap (bytesOfNat · 8) ++ t.profileList.flatMap (bytesOfNat · 2) }
  else none

/-- The feature bits by name (R367). -/
def featureNames : List String :=
  ["base", "mx4", "f8s", "attn", "seq", "archive", "predict", "graph", "faddq", "sround", "sparse", "group"]

/-- .feature (R387). -/
def Asm.feature (s : Asm) (args : List Arg) : Option Asm :=
  if args = [] ∨ args.any (·.key.isSome) then none
  else (args.mapM (fun a => (oneWord a.val).bind fun w => featureNames.findIdx? (· == w))).map (fun bs =>
    { s with feats := bs.foldl (fun m b => m ||| 2 ^ b) s.feats })

/-- A directive by its name. -/
def Asm.directive (s : Asm) (full : Option Asm) (no : Nat) (d : String) (args : List Arg) : Option Asm :=
  match d with
  | ".section" => s.section_ args
  | ".func" => s.funcBegin no args
  | ".fend" => s.funcEnd args
  | ".entry" => s.entryIs full args
  | ".frame" => s.frame args
  | ".gang" => s.gangIs args
  | ".stage" => s.stage args
  | ".tickbudget" => s.tickbudget args
  | ".signal" => s.signal full d args
  | ".ingress" => s.signal full d args
  | ".egress" => s.signal full d args
  | ".prime" => s.primeOf args
  | ".regs" => s.regs args
  | ".bed" => s.bed full args
  | ".profile" => s.profile args
  | ".psel" => s.pselIs args
  | ".mark" => if args = [] then some { s with mark := true } else none
  | ".align" => s.align args
  | ".byte" => s.dataList full 1 args
  | ".half" => s.dataList full 2 args
  | ".word" => s.dataList full 4 args
  | ".dword" => s.dataList full 8 args
  | ".fill" => s.fill full args
  | ".space" => s.space args
  | ".graph" => s.graph full args
  | ".node" => s.node full args
  | ".edge" => s.edge full args
  | ".cell" => s.cell full args
  | ".launch" => s.launchIs full args
  | ".feature" => s.feature args
  | _ => none

/-! Bundles among the lines. -/

/-- Whether a TAPSET's literal lag reaches the limit of R156 for its signal (R382). -/
def Asm.lagOver (s : Asm) : Instr → Bool
  | .tapset o => ((s.sigs)[o.sig.toNat]?).any (fun g => o.lag.toNat ≥ g.limit)
  | _ => false

/-- Whether an instruction takes the profile entry of its bundle (R383). -/
def takesProfile : Instr → Bool
  | .mma _ | .attn _ => true
  | _ => false

/-- Whether an instruction is SQLD. -/
def isSqld : Instr → Bool
  | .sqld _ => true
  | _ => false

/-- A bundle at the end of .code; one that R24, R25, R382 or R383 rejects is none. Of template bundles (R206) the assembler knows the one after
an SQLD, since LEN0 is at least 1 (R205); how many follow stands in a descriptor in bed memory (log 62). -/
def Asm.bundle (s : Asm) (full : Option Asm) (ts : List Tok) : Option Asm :=
  if s.cur ≠ 1 then none else
  match full with
  | none => some (s.emit (List.replicate 32 0))
  | some t => (asmBundle t.env s.code.length s.mark s.psel ts).bind fun b =>
    let at_ := s.code.length
    let delay := s.branch.any (fun o => at_ - o ≤ 96)
    if (delay && (b.branches || b.bits % 2 == 1)) || (s.sqld.any (· + 32 == at_) && b.bits % 2 == 1) || b.any t.lagOver ||
        b.any (fun i => ((Core.reset 0).vNamed i).any (fun r => r / 16 ≥ t.vbud)) ||
        (b.any takesProfile && s.psel.any (fun e => getAt t.profileList e 0 == 0)) then none
    else
      let s := b.rels.foldl (fun (s : Asm) r => s.relocate ⟨1, at_, r.2.1, r.1, some r.2.2.1, r.2.2.2⟩) s
      some { s.emit (bytesOfNat b.bits 32) with
        mark := false, psel := none, branch := if b.branches then some at_ else s.branch,
        sqld := if b.any isSqld then some at_ else s.sqld,
        feats := b.dec.instrs.foldl (fun m e => m ||| instrFeature e.2) s.feats }

/-- The tokens between the braces of a line that is a bundle. -/
def bracedTokens : List Tok → Option (List Tok)
  | .mark c :: ts =>
    if c = lbrace then
      match ts.reverse with
      | .mark d :: r => if d = rbrace ∧ !(r.any (fun t => t == .mark lbrace || t == .mark rbrace)) then some r.reverse else none
      | _ => none
    else none
  | _ => none

/-- What follows a line's labels: nothing, a directive or a bundle. -/
def Asm.statement (s : Asm) (full : Option Asm) (no : Nat) : List Tok → Option Asm
  | [] => some s
  | .word d :: rest => (readArgs rest).bind (s.directive full no d)
  | ts => (bracedTokens ts).bind (s.bundle full)

/-- A line read: labels, then what follows them. -/
def Asm.lineRead (full : Option Asm) (no : Nat) : List Tok → Asm → Option Asm
  | .word n :: .mark ':' :: rest, s => (s.label n).bind (Asm.lineRead full no rest)
  | ts, s => s.statement full no ts

/-- The lines read one after another; the number of the first that is rejected. -/
def Asm.linesRead (full : Option Asm) : List (Nat × List Tok) → Asm → Except Nat Asm
  | [], s => .ok s
  | (no, ts) :: rest, s =>
    match Asm.lineRead full no ts s with
    | none => .error no
    | some t => Asm.linesRead full rest t

/-- What the end of a source asks: no function open, else the line it began on is rejected. -/
def Asm.finish (s : Asm) : Except Nat Asm :=
  match s.func with
  | some f => .error f.line
  | none => .ok s.closeGraph

/-! The object. -/

/-- A word of a node or a graph's header as bytes, words not given being zero. -/
def record64 (ws : List Nat) : List Byte := (ws ++ List.replicate (8 - ws.length) 0).flatMap (bytesOfNat · 8)

/-- The index of a node in a graph; 0xFFF for none. -/
def SrcGraph.index (g : SrcGraph) (n : Option String) : Nat := (n.bind fun n => g.nodes.findIdx? (·.name == n)).getD 0xFFF

/-- The node a kind of edge of a node leads to. -/
def SrcGraph.next (g : SrcGraph) (a : String) (alt : Bool) : Option String := (g.edges.find? (fun e => e.1 == a && e.2.2 == alt)).map (·.2.1)

/-- A graph object's bytes (R320, R385), ADDR not yet known. -/
def SrcGraph.bytes (g : SrcGraph) : List Byte :=
  record64 [(if g.start = none then 0 else g.index g.start) * 2 ^ 16 + (g.nodes.length - 1)] ++
    g.nodes.flatMap (fun n => record64
      [n.count * 2 ^ 40 + g.index (g.next n.name true) * 2 ^ 28 + g.index (g.next n.name false) * 2 ^ 16 + n.kind, 0, n.max])

/-- The ABS56 records of a graph at an offset of .graph. -/
def SrcGraph.rels (g : SrcGraph) (at_ : Nat) : List SrcRel :=
  (g.nodes.zipIdx).filterMap (fun e => e.1.ref.map (fun r => ⟨6, at_ + 64 * (e.2 + 1) + 8, 2, 0, some r.1, r.2⟩))

/-- The relocations of every graph. -/
def graphRels : Nat → List SrcGraph → List SrcRel
  | _, [] => []
  | at_, g :: gs => g.rels at_ ++ graphRels (at_ + 64 * (g.nodes.length + 1)) gs

/-- The bytes of a signal record (R372). -/
def SrcSig.record (g : SrcSig) : List Byte :=
  ((g.words.zipIdx).map (fun e => if e.2 = 1 ∧ g.prime.isSome then e.1 + 2 ^ 12 else e.1)).flatMap (bytesOfNat · 8)

/-- .sig (R371): a GRID object without a signal has none. -/
def Asm.sigBytes (s : Asm) : List Byte :=
  sigSection ((List.range ((s.gang.map (·.2)).getD 0)).map (fun i => (lookup s.stages i).getD 0)) (s.sigs.map SrcSig.record)

/-- The sections 1 to 7 with their alignments as powers of two, and their bytes. -/
def Asm.loaded (s : Asm) : List (Nat × Nat × List Byte) :=
  [(1, 5, s.code), (2, s.alignData.log2, s.data), (3, s.alignRo.log2, s.rodata), (4, 3, s.sigBytes),
   (5, 3, s.sigs.flatMap (fun g => g.prime.getD [])), (6, 6, s.graphs.flatMap SrcGraph.bytes), (7, 6, s.launch)]

/-- Those that the object has: with bytes, or with a symbol. -/
def Asm.present (s : Asm) : List (Nat × Nat × List Byte) := s.loaded.filter (fun e => e.2.2 != [] || s.syms.any (·.type == e.1))

/-- The section-table index of a type. -/
def Asm.secIndex (s : Asm) (type : Nat) : Nat := (s.present.findIdx? (·.1 == type)).getD 0

/-- The relocations in section order, then as they stand in the section (R377). -/
def Asm.relocs (s : Asm) : List SrcRel :=
  let all := s.rels ++ graphRels 0 s.graphs
  s.present.flatMap (fun e => all.filter (·.sec == e.1))

/-- The names used that nothing defines, in the order of their first use. -/
def Asm.externals (s : Asm) : List String := (s.used.filter (fun n => (s.sym n).isNone)).foldl (fun l n => if l.contains n then l else l ++ [n]) []

/-- The index of a symbol in .sym. -/
def Asm.symIndex (s : Asm) (n : String) : Nat := (((s.syms.map (·.name)) ++ s.externals).findIdx? (· == n)).getD 0

/-- .reloc (R377). -/
def Asm.relocBytes (s : Asm) : List Byte :=
  bytesOfNat s.relocs.length 8 ++ s.relocs.flatMap (fun r =>
    bytesOfNat r.offset 8 ++ bytesOfNat (((r.name.map s.symIndex).getD 0) * 2 ^ 32 + s.secIndex r.sec * 2 ^ 16 + r.type * 2 ^ 8 + r.slot) 8 ++
      bytesOfNat (natWrap 64 r.addend) 8)

/-- .sym (R378). -/
def Asm.symBytes (s : Asm) : List Byte :=
  let text := fun (n : String) => n.toList.map (fun c => (BitVec.ofNat 8 c.toNat : Byte))
  symSection (s.syms.map (fun y => ⟨y.value, text y.name, if y.type = 0 then 0xFFFE else s.secIndex y.type, y.kind, if y.global then 1 else 0, y.size⟩) ++
    s.externals.map (fun n => ⟨0, text n, 0xFFFF, 0, 2, 0⟩))

/-- The sections of the object in table order: TYPE, ALIGN, bytes. -/
def Asm.sections (s : Asm) : List (Nat × Nat × List Byte) :=
  s.present ++ (if s.relocs = [] then [] else [(8, 3, s.relocBytes)]) ++ [(9, 3, s.symBytes)]

/-- ENTRY of the object's header. -/
def Asm.entryValue (s : Asm) : Nat := ((s.entry.bind s.sym).map (·.value)).getD noEntry

/-- The object (R365, R366). -/
def Asm.object (s : Asm) : Bof :=
  let g := s.gang.getD (1, 1)
  { kind := 0, mode := if s.gang = none then 0 else 1, features := s.feats, profiles := s.profileList, line := s.line, scratch := s.scratch,
    vbud := s.vbud, members := g.1 - 1, stages := g.2 - 1, entry := s.entryValue, tickBudget := s.tick,
    secs := laySecs (0x40 + 32 * s.sections.length) (s.sections.map (fun e => ⟨e.1, e.2.1, secFlags e.1, 0, 0, e.2.2⟩)) }

/-- A source file assembled: the object, or the number of the line that is rejected. -/
def assemble (src : String) : Except Nat (List Byte) :=
  let lines := lexLines src.toList
  match (Asm.linesRead none lines .start).bind Asm.finish with
  | .error n => .error n
  | .ok full =>
    match (Asm.linesRead (some full) lines .start).bind Asm.finish with
    | .error n => .error n
    | .ok s => .ok s.object.file

end Sys2Proof.Machine
end

