-- ==== Sys2Proof/Machine/Bar.lean ====
section
/-! DEFINITION. What a host read of a register in a function's BAR 0 returns (R389, R419, R429 to R431, R435, R437, R441). A read changes
nothing; the writes are the events of the registers' own names. -/

namespace Sys2Proof.Machine

/-- A doorbell block's register: STATE alone reads as anything but zero (R389). -/
def State.doorbellRead (s : State) (fn off : Nat) : Word := if off % 16 == 12 then BitVec.ofNat 64 (s.blockState fn (off / 16)) else 0

/-- The registers that the physical function alone has, by their offsets (R419, R429, R430, R435, R437). -/
def State.plinthRead (s : State) (off : Nat) : Word :=
  if off == 0x20000 then s.lintelState
  else if off == 0x20008 then s.lintelLog
  else if off == 0x30000 then s.pkgCap
  else if 0x30100 ≤ off ∧ off < 0x30140 then s.diePwr ((off - 0x30100) / 8)
  else if 0x30200 ≤ off ∧ off < 0x30240 then (s.die ((off - 0x30200) / 8)).vtrim
  else if 0x40000 ≤ off ∧ off < 0x40000 + 64 * 56 then s.clRead (off - 0x40000)
  else if 0x100000 ≤ off ∧ off < 0x100000 + 32 * 8192 then (s.errLog ((off - 0x100000) / 32)).words.getD ((off - 0x100000) % 32 / 8) 0
  else 0

/-- A read of n bytes at an offset of a function's BAR 0: doorbells are read as 32 bits, all else as aligned words of 64. -/
def State.barRead (s : State) (fn off n : Nat) : Word :=
  if 0x10000 ≤ off ∧ off < 0x10000 + 16 * 65 then (if n == 4 then s.doorbellRead fn (off - 0x10000) else 0)
  else if n != 8 || off % 8 != 0 then 0
  else match s.fn fn with
    | none => 0
    | some f =>
      if off == 0x50008 then f.mboxStat
      else if off == 0x30300 then f.wdogCtl
      else if fn == 0 then s.plinthRead off
      else 0

end Sys2Proof.Machine
end

