-- ==== Sys2Proof/Tests/Slice0.lean ====
section
/-! SUPPORT. Small tests: ill-formed terms refused, words written out from the encodings of spec/03 and their decoding, single steps with results
worked out by hand from the spec, and for every statement with hypotheses a concrete case that meets them. -/

set_option linter.unusedVariables false

namespace Sys2Proof.Tests

set_option Elab.async false

open Sys2Proof Sys2Proof.Machine

/-! Ill-formed terms (R71, R78, R80, R96, R99, R102, R110, R140, R146, R196). -/

/-- R96, R102, R80, R109, R110: fields past the register, one register written twice, kinds FCVT does not have, selectors beyond the map. -/
theorem test_wf_scalar :
    ¬(Instr.exts ⟨0, 4, 5, 60, 4⟩).WellFormed ∧ ¬(Instr.dep ⟨0, 4, 5, 1, 63⟩).WellFormed ∧
    ¬(Instr.icmp ⟨0, 3, 3, 0, 0, 4, 5⟩).WellFormed ∧ ¬(Instr.icmpi ⟨0, 3, 3, 7, 0, 4, 5⟩).WellFormed ∧
    ¬(Instr.fcmp ⟨0, 3, 3, 6, 0, 4, 5⟩).WellFormed ∧
    ¬(Instr.fcvt ⟨0, 4, 5, 0, 2, 3, false⟩).WellFormed ∧ ¬(Instr.fcvt ⟨0, 4, 5, 0, 1, 1, false⟩).WellFormed ∧
    ¬(Instr.fcvt ⟨0, 4, 5, 0, 3, 1, false⟩).WellFormed ∧ ¬(Instr.fcvt ⟨0, 4, 6, 0, 0, 1, true⟩).WellFormed ∧
    ¬(Instr.mfs ⟨0, 4, 5⟩).WellFormed ∧ ¬(Instr.mts ⟨0, 4, 0⟩).WellFormed ∧ ¬(Instr.chk ⟨0, 4, 4, 0⟩).WellFormed := by decide

/-- R15, R82, R138 to R146, R149: reserved tags, format and width codes, halves, forms VBCAST and VCVT do not have, RFMODE 0. -/
theorem test_wf_vector :
    ¬(Instr.vtag ⟨0, 1, .reg 2, 13⟩).WellFormed ∧ ¬(Instr.vadd ⟨0, 0, 1, .reg 2, .reg 3, 3, 0, false⟩).WellFormed ∧
    ¬(Instr.viadd ⟨0, 0, 1, .reg 2, .reg 3, 3, false, false⟩).WellFormed ∧ ¬(Instr.vpermb ⟨0, 0, 1, .reg 2, .reg 3, 3⟩).WellFormed ∧
    ¬(Instr.vbcast ⟨0, 0, 1, 4, 2, 3⟩).WellFormed ∧ ¬(Instr.vcvt ⟨0, 0, 1, .reg 2, 2, 5, 0, false, false, false⟩).WellFormed ∧
    ¬(Instr.vcvt ⟨0, 0, 1, .reg 2, 12, 0, 0, true, false, false⟩).WellFormed ∧
    ¬(Instr.vcvt ⟨0, 0, 1, .reg 2, 2, 0, 0, false, false, true⟩).WellFormed ∧
    ¬(Instr.vimm ⟨0, 0, 1, 3, 0⟩).WellFormed ∧ ¬(Instr.rfmode ⟨0, 0⟩).WellFormed ∧ ¬(Instr.rfmode ⟨0, 5⟩).WellFormed := by decide

/-- R75, R196, R202, R209, R211, R77, R223, R234, R244: the checks of the M, X and C slots. -/
theorem test_wf_others :
    ¬(Instr.vld ⟨0, 1, 4, 14, 0⟩).WellFormed ∧ ¬(Instr.copy2d ⟨0, 0, 4, 5, 7⟩).WellFormed ∧ ¬(Instr.qfence ⟨0, 0⟩).WellFormed ∧
    ¬(Instr.mma ⟨0, 0, .reg 1, 4, false, false, false, false, false, 6⟩).WellFormed ∧ ¬(Instr.mld ⟨0, 0, 4, 3⟩).WellFormed ∧
    ¬(Instr.mstBed ⟨0, 0, 4, 0, true⟩).WellFormed ∧ ¬(Instr.sqst ⟨0, 4, 7⟩).WellFormed ∧ ¬(Instr.siginf ⟨0, 4, 5, 0, 5⟩).WellFormed ∧
    ¬(Instr.phreg ⟨3, 3⟩).WellFormed := by decide

/-! Words (R72 to R84), field by field: OP, QP, then the fields of the format. -/

/-- SR, SI, SL, SC and SB words. -/
theorem test_decode_s :
    decodeS false (0b000001#6 ++ 0#4 ++ 4#6 ++ 4#6 ++ 9#6 ++ 0#8) = .ok (.iadd ⟨0, 4, 4, 9⟩) ∧
    decodeS false (0b000010#6 ++ 3#4 ++ 5#6 ++ 6#6 ++ 7#6 ++ 3#8) = .ok (.idiv ⟨3, 5, 6, 7⟩) ∧
    decodeS true (0b000011#6 ++ 0#4 ++ 5#6 ++ 6#6 ++ 0#6 ++ 2#8) = .ok (.popc ⟨0, 5, 6⟩) ∧
    decodeS true (0b000100#6 ++ 0#4 ++ 5#6 ++ 6#6 ++ 8#6 ++ 0b01#2 ++ 7#6) = .ok (.extz ⟨0, 5, 6, 8, 7⟩) ∧
    decodeS false (0b000101#6 ++ 0#4 ++ 5#6 ++ 6#6 ++ 7#6 ++ 3#8) = .ok (.lea ⟨0, 5, 6, 7, 3⟩) ∧
    decodeS false (0b000110#6 ++ 0#4 ++ 5#6 ++ 6#6 ++ 7#6 ++ 9#8) = .ok (.sel ⟨0, 5, 6, 7, 9⟩) ∧
    decodeS false (0b000111#6 ++ 0#4 ++ 5#6 ++ 6#6 ++ 7#6 ++ 0b00000101#8) = .ok (.vins ⟨0, 5, 6, 7, 2⟩) ∧
    decodeS true (0b010000#6 ++ 0#4 ++ 4#6 ++ 4#6 ++ 0x3FFB#14) = .ok (.iaddi ⟨0, 4, 4, 0x3FFB⟩) ∧
    decodeS true (0b011000#6 ++ 0#4 ++ 7#6 ++ 1000#20) = .ok (.movi ⟨0, 7, 1000⟩) ∧
    decodeS true (0b011001#6 ++ 0#4 ++ 7#6 ++ 0#2 ++ 2#2 ++ 0xBEEF#16) = .ok (.movk ⟨0, 7, 0xBEEF, 2⟩) ∧
    decodeS true (0b100001#6 ++ 0#4 ++ 1#4 ++ 2#4 ++ 0#3 ++ 1#3 ++ 4#6 ++ 0#6) = .ok (.icmpi ⟨0, 1, 2, 0, 1, 4, 0⟩) := by decide

theorem test_decode_s_rest :
    decodeS false (0b101000#6 ++ 0#4 ++ 1#6 ++ 2#6 ++ 3#6 ++ 3#8) = .ok (.pandn ⟨0, 1, 2, 3⟩) ∧
    decodeS false (0b101001#6 ++ 0#4 ++ 0#6 ++ 2#6 ++ 0#6 ++ 1#8) = .ok (.pset ⟨0, 2⟩) ∧
    decodeS true (0b101100#6 ++ 0#4 ++ 1#6 ++ 2#6 ++ 3#6 ++ 0b1#1 ++ 0b011#3 ++ 0b0010#4) = .ok (.fmul ⟨0, 1, 2, 3, 3, true⟩) ∧
    decodeS true (0b101110#6 ++ 0#4 ++ 1#6 ++ 2#6 ++ 0#6 ++ 0b0#1 ++ 0b001#3 ++ 0b00#2 ++ 0b10#2) = .ok (.fcvt ⟨0, 1, 2, 1, 0, 2, false⟩) ∧
    decodeS false (0b110000#6 ++ 0#4 ++ 7#6 ++ 0#6 ++ 0x10#14) = .ok (.mfs ⟨0, 7, 0x10⟩) ∧
    decodeS false (0b110001#6 ++ 0#4 ++ 0#6 ++ 7#6 ++ 3#14) = .ok (.mts ⟨0, 7, 3⟩) ∧
    decodeS false (0b110010#6 ++ 0#4 ++ 0#6 ++ 77#20) = .ok (.trap ⟨0, 77⟩) ∧
    decodeS true (0b111000#6 ++ 1#4 ++ 0x3FFFFFE#26) = .ok (.br ⟨1, 0x3FFFFFE⟩) ∧
    decodeS true (0b111001#6 ++ 0#4 ++ 1#6 ++ 9#6 ++ 0#14) = .ok (.brx ⟨0, 1, 9⟩) ∧
    decodeS true (0b111100#6 ++ 0#4 ++ 1#6 ++ 9#6 ++ 0x3FFF#14) = .ok (.chk ⟨0, 1, 9, 0x3FFF⟩) ∧
    decodeS true (0b111110#6 ++ 0#4 ++ 0#6 ++ 9#6 ++ 8#6 ++ 0#8) = .ok (.fork ⟨0, 9, 8⟩) ∧
    decodeS true (0b111111#6 ++ 0#4 ++ 0#6 ++ 0#6 ++ 0#6 ++ 2#8) = .ok (.tend ⟨0⟩) := by decide

/-- ML, MG and MC words. -/
theorem test_decode_m :
    decodeM (0b000101#6 ++ 0#4 ++ 6#6 ++ 2#6 ++ 4#18) = .ok (.ldw ⟨0, 6, 2, 4⟩) ∧
    decodeM (0b001100#6 ++ 0#4 ++ 6#6 ++ 2#6 ++ 3#4 ++ 0x3FFF#14) = .ok (.vld ⟨0, 6, 2, 3, 0x3FFF⟩) ∧
    decodeM (0b010011#6 ++ 0#4 ++ 7#6 ++ 1#4 ++ 5#6 ++ 1#14) = .ok (.gldd ⟨0, 7, 1, 5, 1⟩) ∧
    decodeM (0b011101#6 ++ 0#4 ++ 7#6 ++ 5#6 ++ 1#18) = .ok (.rst ⟨0, 7, 5, 1⟩) ∧
    decodeM (0b100000#6 ++ 0#4 ++ 1#2 ++ 4#6 ++ 5#6 ++ 6#6 ++ 0#10) = .ok (.copy ⟨0, 1, 4, 5, 6⟩) ∧
    decodeM (0b100101#6 ++ 0#4 ++ 0#2 ++ 0#6 ++ 0#6 ++ 0#6 ++ 0b000101#6 ++ 0#4) = .ok (.qfence ⟨0, 5⟩) ∧
    decodeM (0b110000#6 ++ 0#4 ++ 0#2 ++ 0#6 ++ 0#6 ++ 0#6 ++ 0b001011#6 ++ 0#4) = .ok (.fenceRel ⟨0, 11⟩) ∧
    decodeM (0b110100#6 ++ 0#4 ++ 0#2 ++ 3#6 ++ 9#6 ++ 0#6 ++ 0#6 ++ 0#4) = .ok (.xlat ⟨0, 3, 9⟩) ∧
    decodeM (0b110111#6 ++ 0#4 ++ 0#2 ++ 3#6 ++ 9#6 ++ 8#6 ++ 0#6 ++ 0#4) = .ok (.pcommit ⟨0, 3, 9, 8⟩) ∧
    decodeM (0b111100#6 ++ 0#4 ++ 0#2 ++ 3#6 ++ 9#6 ++ 8#6 ++ 0#6 ++ 0#4) = .ok (.launch ⟨0, 3, 9, 8⟩) := by decide

/-- VR and VI words, a tap port as a source among them (R71). -/
theorem test_decode_v :
    decodeV false (0b000001#6 ++ 0#4 ++ 0#3 ++ 8#6 ++ 8#7 ++ 9#7 ++ 1#7) = .ok (.vadd ⟨0, 0, 8, .reg 8, .reg 9, 1, 0, false⟩) ∧
    decodeV true (0b000100#6 ++ 2#4 ++ 3#3 ++ 8#6 ++ 0b1000101#7 ++ 9#7 ++ 0b0111010#7) = .ok (.vfma ⟨2, 3, 8, .tap 5, .reg 9, 2, 3, true⟩) ∧
    decodeV false (0b100000#6 ++ 0#4 ++ 0#3 ++ 8#6 ++ 8#7 ++ 9#7 ++ 0b0001101#7) = .ok (.viadd ⟨0, 0, 8, .reg 8, .reg 9, 1, true, true⟩) ∧
    decodeV false (0b110000#6 ++ 0#4 ++ 0#3 ++ 1#6 ++ 1#7 ++ 2#7 ++ 0x10#7) = .ok (.vcmp ⟨0, 0, 1, .reg 1, .reg 2, false, 2, false, 0⟩) ∧
    decodeV true (0b111000#6 ++ 0#4 ++ 0#3 ++ 3#6 ++ 1#7 ++ 1#7 ++ 3#7) = .ok (.vcvt ⟨0, 0, 3, .reg 1, 3, 0, 1, false, false, false⟩) ∧
    decodeV true (0b111011#6 ++ 0#4 ++ 1#3 ++ 4#6 ++ 1#7 ++ 0#7 ++ 0#7) = .ok (.vredFsum ⟨0, 1, 4, .reg 1, 0⟩) ∧
    decodeV false (0b111110#6 ++ 0#4 ++ 0#3 ++ 0#6 ++ 0#7 ++ 2#14) = .ok (.rfmode ⟨0, 2⟩) ∧
    decodeV true (0b111110#6 ++ 0#4 ++ 0#3 ++ 0#6 ++ 0#7 ++ 2#14) = .bad .illegalSlot := by decide

/-- XM, XS, XR and C words. -/
theorem test_decode_x_c :
    decodeX (0b000010#6 ++ 0#4 ++ 2#3 ++ 0#7 ++ 0#6 ++ 0#10) = .ok (.mzero ⟨0, 2⟩) ∧
    decodeX (0b010000#6 ++ 0#4 ++ 0#6 ++ 9#6 ++ 0#14) = .ok (.sqld ⟨0, 9⟩) ∧
    decodeX (0b011000#6 ++ 0#4 ++ 1#3 ++ 5#8 ++ 3#15) = .ok (.tapset ⟨0, 1, 5, 3⟩) ∧
    decodeX (0b011010#6 ++ 0#4 ++ 4#6 ++ 0#6 ++ 8#14) = .ok (.taprd ⟨0, 4, 0, 0, true⟩) ∧
    decodeX (0b011011#6 ++ 1#4 ++ 2#6 ++ 4#6 ++ 8#14) = .ok (.tapwr ⟨1, 2, 4, 0, true⟩) ∧
    decodeC (0b00001#5 ++ 0#15) = .ok .tick ∧ decodeC (0b00010#5 ++ 0#5 ++ 1#10) = .ok (.fwait ⟨0, 1⟩) ∧
    decodeC (0b00011#5 ++ 3#5 ++ 1#10) = .ok (.fpost ⟨3, 1⟩) ∧ decodeC (0b00100#5 ++ 1#4 ++ 0#4 ++ 2#4 ++ 0#3) = .ok (.waitn ⟨1, 0, 2, 0⟩) ∧
    decodeC (0b00111#5 ++ 9#6 ++ 2#2 ++ 0#7) = .ok (.phreg ⟨9, 2⟩) ∧ decodeC (0b01001#5 ++ 0#15) = .bad .illegalOp := by decide

/-- The bundle of spec/03 from its 32 bytes in memory order. -/
theorem test_bundle_bytes :
    bundleOfBytes [0x05, 0x01, 0x8C, 0x01, 0x90, 0x10, 0x04, 0x04, 0x05, 0x21, 0x49, 0x0C, 0x48, 0x00, 0x80, 0x60,
      0x40, 0x11, 0x48, 0x20, 0x10, 0x40, 0x00, 0x00, 0x00, 0x00, 0x00, 0x30, 0x00, 0x28, 0x08, 0x60] =
    0x6008280030000000#64 ++ 0x0000401020481140#64 ++ 0x608000480C492105#64 ++ 0x04041090018C0105#64 := by decide +kernel

/-- A row of the opcode table whose bits stand in their slot of the bundle. -/
theorem test_table_word :
    decodeTableWord 256 (inS0 (0b000001#6 ++ 0#4 ++ 4#6 ++ 4#6 ++ 9#6 ++ 0#8)).toNat = some (.iadd ⟨0, 4, 4, 9⟩) ∧
    decodeTableWord 256 (inC (0b00001#5 ++ 0#15)).toNat = some .tick ∧ decodeTableWord 256 0x10 = none := by decide +kernel

/-! Small states. -/

/-- A task of context 1 on core 0, about to issue an empty bundle: nothing pending, nothing in flight. -/
def tk : State := State.reset.probe 0

/-- The state with x registers set. -/
def State.xs (s : State) (l : List (RegNo × Word)) : State :=
  s.mapCore (fun c => { c with r := l.foldl (fun r e => r.setX e.1 ⟨e.2, false⟩) c.r })

/-- The state with an x register poisoned. -/
def State.bad (s : State) (d : RegNo) : State := s.mapCore (fun c => { c with r := c.r.setX d ⟨0, true⟩ })

/-- The state with a v register set. -/
def State.vs (s : State) (d : RegNo) (b : VBits) (t : Tag) : State := s.mapCore (fun c => { c with r := c.r.setV d ⟨b, t, false⟩ })

/-- The state in privileged state. -/
def State.privileged (s : State) : State := s.mapCore (fun c => { c with sys := { c.sys with priv := true } })

/-- What a step answers, a state given for the case that it stops. -/
def st (r : Res) (d : State) : State := match r with
  | .next t => t
  | _ => d

/-- The landings a step leaves on their way, and the fault its slot raised. -/
def sent (r : Res) : List Landing := (st r tk).core.pipe.flights.map (·.land)
def code (r : Res) : Option (BitVec 8) := (st r tk).core.ctl.raised.map (·.code)

/-! Single steps: results worked out by hand from the rule named. -/

/-- R92: sums wrap. -/
theorem test_iadd_wraps : sent (exec (.iadd ⟨0, 4, 5, 6⟩) (State.xs tk [(5, 0xFFFFFFFFFFFFFFFF), (6, 2)])) = [.x 4 1 false] := by decide +kernel
/-- R92: a shift amount is taken modulo 64. -/
theorem test_shl_amount : sent (exec (.shl ⟨0, 4, 5, 6⟩) (State.xs tk [(5, 3), (6, 65)])) = [.x 4 6 false] := by decide +kernel
theorem test_sar_sign : sent (exec (.sar ⟨0, 4, 5, 6⟩) (State.xs tk [(5, 0x8000000000000000), (6, 63)])) = [.x 4 0xFFFFFFFFFFFFFFFF false] := by
  decide +kernel
/-- R94: the most negative dividend by −1, and a zero divisor. -/
theorem test_idiv_corner : sent (exec (.idiv ⟨0, 4, 5, 6⟩) (State.xs tk [(5, 0x8000000000000000), (6, 0xFFFFFFFFFFFFFFFF)])) =
    [.x 4 0x8000000000000000 false] := by decide +kernel
theorem test_idivz_zero : sent (exec (.idivz ⟨0, 4, 5, 6⟩) (State.xs tk [(5, 9)])) = [.x 4 0xFFFFFFFFFFFFFFFF false] := by decide +kernel
/-- R94: the high half of −1 × 1, signed and unsigned. -/
theorem test_imulh : sent (exec (.imulh ⟨0, 4, 5, 6⟩) (State.xs tk [(5, 0xFFFFFFFFFFFFFFFF), (6, 1)])) = [.x 4 0xFFFFFFFFFFFFFFFF false] ∧
    sent (exec (.imulhz ⟨0, 4, 5, 6⟩) (State.xs tk [(5, 0xFFFFFFFFFFFFFFFF), (6, 1)])) = [.x 4 0 false] := by decide +kernel
/-- R96: sign from the field's top bit; the deposit keeps the rest. -/
theorem test_exts : sent (exec (.exts ⟨0, 4, 5, 4, 7⟩) (State.xs tk [(5, 0xF80)])) = [.x 4 0xFFFFFFFFFFFFFFF8 false] := by decide +kernel
theorem test_dep : sent (exec (.dep ⟨0, 4, 5, 8, 3⟩) (State.xs tk [(4, 0xFFFF), (5, 0x30)])) = [.x 4 0xF0FF false] := by decide +kernel
/-- R98: one halfword replaced. -/
theorem test_movk : sent (exec (.movk ⟨0, 4, 0xBEEF, 2⟩) (State.xs tk [(4, 0x1111111111111111)])) = [.x 4 0x1111BEEF11111111 false] := by
  decide +kernel
/-- R95. -/
theorem test_clz_bswap : sent (exec (.clz ⟨0, 4, 5⟩) (State.xs tk [(5, 0x10)])) = [.x 4 59 false] ∧
    sent (exec (.bswap ⟨0, 4, 5⟩) (State.xs tk [(5, 0x0102030405060708)])) = [.x 4 0x0807060504030201 false] := by decide +kernel
/-- R91: poison propagates through arithmetic; R14: it is consumed by a compare. -/
theorem test_poison : sent (exec (.iadd ⟨0, 4, 5, 6⟩) (State.bad tk 5)) = [.x 4 0 true] ∧
    code (exec (.icmp ⟨0, 1, 2, 0, 0, 5, 6⟩) (State.bad tk 5)) = some 0x07 := by decide +kernel
/-- R101: the pair of a signed less-than. -/
theorem test_icmp_pair : sent (exec (.icmp ⟨0, 1, 2, 0, 2, 5, 6⟩) (State.xs tk [(5, 0xFFFFFFFFFFFFFFFF), (6, 0)])) = [.p 1 true, .p 2 false] := by
  decide +kernel
/-- R11: a false predicate has no effect. -/
theorem test_predicated : st (exec (.iadd ⟨1, 4, 5, 6⟩) tk) State.reset = tk := by decide +kernel
/-- R107: 1.5 + 2.25 in FP64; R109: an INT64 that saturates. -/
theorem test_fadd : sent (exec (.fadd ⟨0, 4, 5, 6, 0, true⟩) (State.xs tk [(5, 0x3FF8000000000000), (6, 0x4002000000000000)])) =
    [.x 4 0x400E000000000000 false] := by decide +kernel
theorem test_fcvt_saturates : sent (exec (.fcvt ⟨0, 4, 5, 0, 1, 2, false⟩) (State.xs tk [(5, 0x43F0000000000000)])) =
    [.x 4 0x7FFFFFFFFFFFFFFF false] := by decide +kernel
/-- R113: the target counts bundles from the branch's own; three delay bundles follow. -/
theorem test_br_target : (st (exec (.br ⟨0, 0x3FFFFFE⟩) tk) tk).core.ctl.cont = 0x5FC0 ∧ (st (exec (.br ⟨0, 0x3FFFFFE⟩) tk) tk).core.ctl.dly = 3 := by
  decide +kernel
/-- R110: TRAP_VEC (selector 0x0B) is privileged. -/
theorem test_mts_privilege : code (exec (.mts ⟨0, 5, 0x0B⟩) tk) = some 0x09 := by decide +kernel

/-- R51: 0x3F80_8001 to BF16 rounds to even up, and truncates (the table of spec/02). -/
theorem test_bf16_rounding : Fmt.bf16.encode 0 0 false (Fmt.fp32.decode 0x3F808001) = 0x3F81 ∧
    Fmt.bf16.encode 1 0 false (Fmt.fp32.decode 0x3F808001) = 0x3F80 := by decide +kernel
/-- The same table: 0.3 to E4M3. -/
theorem test_e4m3_rounding : Fmt.e4m3.encode 0 0 false (Fmt.fp32.decode 0x3E99999A) = 0x2A := by decide +kernel
/-- R133: saturation at the ends of a signed byte. -/
theorem test_viadd_saturates : intResult true true 8 (elemInt true 8 0x7F + elemInt true 8 1) = 0x7F ∧
    intResult true false 8 (elemInt true 8 0x7F + elemInt true 8 1) = 0x80 := by decide +kernel
/-- R6, R221: a doubleword stands lowest byte first; a byte is sign-extended. -/
theorem test_std_bytes : (st (exec (.std ⟨0, 5, 6, 0⟩) (State.xs tk [(5, 0x0102030405060708), (6, 64)])) tk).core.mem.bed.get 64 = 8 ∧
    (st (exec (.std ⟨0, 5, 6, 0⟩) (State.xs tk [(5, 0x0102030405060708), (6, 64)])) tk).core.mem.bed.get 71 = 1 := by decide +kernel
theorem test_ldb_sign : sent (exec (.ldb ⟨0, 4, 6, 0⟩)
    ((State.xs tk [(6, 64)]).mapCore (fun c => { c with mem := { c.mem with bed := [(64, 0x80)] } }))) = [.x 4 0xFFFFFFFFFFFFFF80 false] := by decide +kernel
/-- R220: an address that is no multiple of the access, and one past the bed. -/
theorem test_bed_faults : code (exec (.ldd ⟨0, 4, 6, 0⟩) (State.xs tk [(6, 4)])) = some 0x04 ∧
    code (exec (.ldd ⟨0, 4, 6, 0⟩) (State.xs tk [(6, 0x180000)])) = some 0x18 := by decide +kernel
/-- R238: a signed minimum at 32 bits, a wrapping sum at 64. -/
theorem test_accumulate : (accMem [(0, 5)] 0 .min false 0xFFFFFFFF 0).readNat 0 4 = 0xFFFFFFFF ∧
    (accMem (Memory.write [] 0 (List.replicate 8 255)) 0 .add true 2 0).readNat 0 8 = 1 := by decide +kernel
/-- R252: FWAIT takes its count; R251: a flag saturates. -/
theorem test_flags : (st (exec (.fwait ⟨3, 2⟩) (tk.mapCore (·.setFlag 3 5))) tk).core.flag 3 = 3 ∧
    (tk.core.setFlag 3 70000).flag 3 = 65535 := by decide +kernel
/-- R167: TICK counts on. -/
theorem test_tick : (st (exec .tick tk) tk).core.sys.tick = 1 := by decide +kernel
/-- R203: MZERO enters the tile queue, and its entry zeroes the tile. -/
theorem test_mzero : (st (exec (.mzero ⟨0, 2⟩) tk) tk).core.mx.queue = [⟨.mzero 2, 0, 0⟩] := by decide +kernel
/-- R118: HALT outside privileged state. -/
theorem test_halt_privilege : code (exec (.halt ⟨0⟩) tk) = some 0x09 := by decide +kernel

/-- The bundle at the pc is fetched, decoded and run: IADDI x4, x0, 5. -/
theorem test_step_runs : (st (step (State.reset.withFetchWord 256
    (inS0 (0b010000#6 ++ 0#4 ++ 4#6 ++ 0#6 ++ 5#14)).toNat)) tk).core.pipe.flights = [⟨.x 4 5 false, 0, 0, 1⟩] := by decide +kernel
/-- A stopped package does nothing (R421). -/
theorem test_stopped : step { State.reset with stopped := true } = .fault .packageStopped := rfl

/-! Cases that meet the hypotheses of the statements, clause by clause. -/

/-- The state a region-closing instruction acts in: its gate released, its region closed. -/
def closedState (s : State) : State := match s.passing.openGate with
  | .ok u => u.closed
  | _ => s

/-- Whether a region-closing instruction gets as far as its own effect. -/
def reaches (s : State) : Bool := !s.core.sys.intrap && s.core.failedLoad.isNone && match s.passing.openGate with
  | .ok _ => true
  | _ => false

theorem closes (s : State) (h : reaches s = true) : s.Closes (closedState s) := by
  unfold reaches at h
  refine ⟨by simpa using (Bool.and_eq_true_iff.mp (Bool.and_eq_true_iff.mp h).1).1,
    by simpa using (Bool.and_eq_true_iff.mp (Bool.and_eq_true_iff.mp h).1).2, ?_⟩
  unfold closedState
  cases e : s.passing.openGate with
  | ok u => exact ⟨u, rfl, rfl⟩
  | _ => rw [e] at h; simp at h

/-- A gang of one core. -/
def gg : State := tk.mapCore (fun c => { c with unit := some { probeUnit 0 with gang := true } })

/-- A core in its handler. -/
def inHandler : State := tk.mapCore (fun c => { c with sys := { c.sys with intrap := true } })

/-- R92, R93: sources at both ends of the range, amounts 0 and 63, a destination that is a source, x0 among them. -/
theorem test_witness_IntegerArithmetic :
    Effective 0 [.x 5, .x 6, .x 5] (State.xs tk [(5, 0), (6, 0xFFFFFFFFFFFFFFFF)]) ∧ Effective 0 [.x 0, .x 63, .x 0] tk ∧
    Effective 0 [.x 5, .x 4] (State.xs tk [(5, 0x7FFFFFFFFFFFFFFF)]) ∧ (0#6).toNat = 0 ∧ (63#6).toNat = 63 := by decide +kernel

theorem test_witness_MultiplyDivide :
    Effective 0 [.x 5, .x 6, .x 4] (State.xs tk [(5, 0x8000000000000000), (6, 0xFFFFFFFFFFFFFFFF)]) ∧
    Effective 0 [.x 5, .x 6, .x 4] (State.xs tk [(5, 1), (6, 0)]) ∧ Effective 0 [.x 5, .x 4] tk := by decide +kernel

/-- A field of 64 bits from 0, one bit at 63. -/
theorem test_witness_UnaryAndBitFields :
    Effective 0 [.x 5, .x 4] (State.xs tk [(5, 0)]) ∧ (Instr.exts ⟨0, 4, 5, 0, 63⟩).WellFormed ∧ (Instr.exts ⟨0, 4, 5, 63, 0⟩).WellFormed := by
  decide +kernel

theorem test_witness_ScalarMoves :
    Effective 0 [.x 5, .x 6, .x 4] tk ∧ Effective 0 [.x 4] tk ∧ Effective 0 [.v 1, .x 5, .x 4] (State.xs tk [(5, 511)]) ∧
    Effective 0 [.x 4, .x 5, .v 1] (State.xs tk [(5, 512)]) ∧ (State.xs tk [(5, 511)]).core.xp 5 = false ∧
    (State.xs tk [(5, 512)]).core.xp 5 = false := by decide +kernel

/-- Sound sources, a poisoned one. -/
theorem test_witness_ComparesAndPredicates :
    Effective 0 [.x 5, .x 6] tk ∧ tk.core.xp 5 = false ∧ tk.core.xp 6 = false ∧ Effective 0 [.x 5, .x 6] (State.bad tk 6) ∧
    (State.bad tk 6).core.xp 6 = true ∧ Effective 0 [.x 5] tk ∧ Effective 0 [.x 5] (State.bad tk 5) ∧ (State.bad tk 5).core.xp 5 = true ∧
    Effective 0 [] tk ∧ Effective 0 [.x 4] tk := by decide +kernel

/-- FCVT from and to a pair of registers at both ends of the register file. -/
theorem test_witness_ScalarFloat :
    Effective 0 [.x 5, .x 6, .x 4] tk ∧ Effective 0 [.x 5, .x 4] tk ∧ (Instr.fcvt ⟨0, 4, 62, 3, 3, 1, true⟩).WellFormed ∧
    Effective 0 ([.x 63] ++ [] ++ [.x 62, .x 4]) tk ∧ (Instr.fcvt ⟨0, 0, 5, 0, 0, 3, false⟩).WellFormed ∧
    Effective 0 ([] ++ [.x 1] ++ [.x 5, .x 0]) tk ∧ (Instr.fcvt ⟨0, 4, 5, 0, 1, 0, false⟩).WellFormed := by decide +kernel

/-- An open register with a legal and an illegal value, a privileged one in and outside privileged state, a poisoned source. -/
theorem test_witness_SystemRegisters :
    Effective 0 [.x 4] tk ∧ Effective 0 [.x 5] tk ∧ mtsPrivileged 3 = false ∧ mtsValueOk 3 0xFFFFFFFF = true ∧ mtsValueOk 3 0x100000000 = false ∧
    Effective 0 [.x 5] (State.bad tk 5) ∧ (State.bad tk 5).core.xp 5 = true ∧ mtsPrivileged 0x0B = true ∧ tk.core.sys.priv = false ∧
    (State.privileged tk).core.sys.priv = true ∧ Effective 0 [.x 5] (State.privileged tk) ∧ mtsValueOk 0x8 0 = true ∧
    mtsValueOk 0xA 0xFFFFFFFFFFE0 = true ∧ mtsValueOk 0x28 0x7F800000 = true ∧ mtsValueOk 32 0xFF = true ∧ mtsValueOk 39 0 = true := by
  decide +kernel

/-- A target at the top of the space, one past it, one that is no multiple of 32. -/
theorem test_witness_Transfers :
    Effective 0 [] tk ∧ Effective 0 [.x 1] tk ∧ Effective 0 [.x 5, .x 4] (State.xs tk [(5, 0xFFFFFFFFFFFFE0)]) ∧
    (State.xs tk [(5, 0xFFFFFFFFFFFFE0)]).core.xp 5 = false ∧
    (0xFFFFFFFFFFFFE0 : Word).toNat < 2 ^ 56 ∧ (0xFFFFFFFFFFFFE0 : Word).toNat % 32 = 0 ∧
    ¬((0x100000000000000 : Word).toNat < 2 ^ 56 ∧ (0x100000000000000 : Word).toNat % 32 = 0) ∧
    ¬((16 : Word).toNat < 2 ^ 56 ∧ (16 : Word).toNat % 32 = 0) ∧ Effective 0 [.x 5, .x 4] (State.bad tk 5) ∧ (State.bad tk 5).core.xp 5 = true ∧
    Effective 0 [.x 5] tk ∧ Effective 0 [.v 5, .x 4] tk := by decide +kernel

theorem test_witness_TrapsAndHalt :
    Effective 0 [] tk ∧ Effective 0 [] (State.privileged tk) ∧ (State.privileged tk).core.sys.priv = true ∧
    (State.privileged tk).core.sys.intrap = false ∧ (State.privileged inHandler).core.sys.priv = true ∧
    (State.privileged inHandler).core.sys.intrap = true ∧ tk.core.sys.priv = false ∧
    (tk.mapCore (fun c => { c with ctl := { c.ctl with after := some (.trap 7 0x40) } })).core.ctl.after = some (.trap 7 0x40) ∧
    (tk.mapCore (fun c => { c with ctl := { c.ctl with after := some .halt } })).core.ctl.after = some .halt ∧
    (tk.mapCore (fun c => { c with ctl := { c.ctl with after := some .rft } })).core.ctl.after = some .rft ∧
    (∀ f ∈ (st (exec (.idiv ⟨0, 4, 5, 6⟩) tk) tk).core.pipe.flights, f.count ≤ maxCount) ∧
    (st (exec (.idiv ⟨0, 4, 5, 6⟩) tk) tk).core.pipe.flights ≠ [] := by decide +kernel

/-- A core outside its handler, its vector set, three delay bundles before it and the place at the top of the 48-bit range. -/
def delayed : State := tk.mapCore (fun c => { c with
  sys := { c.sys with trapVec := 0x2000 }, ctl := { c.ctl with dly := 3, pc := 0xFFFFFFFFFFE0, cont := 0xFFFFFFFFFFE0 } })

/-- A core with a vector outside its handler; one inside; one without a vector; three delay bundles at the top of the 48-bit range. -/
theorem test_witness_TrapEntryAndReturn :
    let c := delayed.core
    c.sys.intrap = false ∧ c.sys.trapVec ≠ 0 ∧ c.pipe.trapBuf = [] ∧ c.ctl.dly < 4 ∧ c.ctl.pc.toNat < 2 ^ 48 ∧ c.ctl.cont.toNat < 2 ^ 48 ∧
    c.ctl.done_ = [] ∧ c.seqr.run = none ∧
    (let b := { c with ctl := { c.ctl with begun := some 7, done_ := [2] } }
     b.ctl.begun.isSome = true ∧ b.trapEntry.ctl.heldBegun = some (b.trapEntry.sys.trapPc, 7, [2])) ∧ inHandler.core.sys.intrap = true ∧ tk.core.sys.trapVec = 0 := by decide +kernel

/-- The context of the probe with a frame arena of 4 KiB in its page, and the running task's frame at its base. -/
def framed : State :=
  { State.xs tk [(5, 0x6020)] with
    mem := (tk.mem.write 0x6018 [128]),
    ctxs := [{ probeCtx with frameBase := 0x6800, frameSize := 0x800 }],
    disp := { tk.disp with frames := [⟨1, 0, 128, 0, 0, false, none, 0, 0, false⟩] } }

/-- The context of framed. -/
def framedCtx : Ctx := { probeCtx with frameBase := 0x6800, frameSize := 0x800 }

theorem fork_room : ∃ v, (closedState framed).fork (probeUnit 0) framedCtx 0x6020 0 128 = some v := by
  have h : ∃ p, (closedState framed).framePlace framedCtx 128 = some p := by
    unfold State.framePlace
    dsimp only
    by_cases g : (closedState framed).frameFits framedCtx (Config.framePlace (closedState framed).free) 128 = true
    · exact ⟨_, if_pos g⟩
    · rw [if_neg g]; exact ⟨0x6800, by decide +kernel⟩
  obtain ⟨p, h⟩ := h
  exact ⟨_, by rw [State.fork, State.newFrame, h]; rfl⟩

/-- A task whose frame counts a child. -/
def withChild : State := { tk with disp := { tk.disp with frames := [⟨1, 0, 128, 0, 1, false, none, 0, 0, false⟩] } }

/-- A task alone, one with a child, a gang's core; the same in a handler; a core without a unit. -/
theorem test_witness_TaskInstructions :
    framed.Closes (closedState framed) ∧ tk.Closes (closedState tk) ∧ gg.Closes (closedState gg) ∧
    (framed.core.unit = some (probeUnit 0) ∧ (probeUnit 0).gang = false ∧ Effective 0 [.x 5, .x 6] framed ∧ framed.core.xp 5 = false ∧
      framed.core.xp 6 = false ∧ (framed.core.x 5).toNat < 2 ^ 56 ∧ (framed.core.x 5).toNat % 32 = 0 ∧
      (match (closedState framed).readFrameWord (closedState framed).seenMem 1 (framed.core.x 5).toNat with
        | .ok w => w == 128
        | .error _ => false) = true ∧ frameWord 128 = some 128 ∧ (closedState framed).ctx 1 = some framedCtx) ∧
    (tk.core.unit = some (probeUnit 0) ∧ Effective 0 [] tk ∧ tk.children (probeUnit 0) = 0) ∧
    (withChild.children (probeUnit 0) ≠ 0 ∧ Effective 0 [] withChild) ∧
    (gg.core.unit = some { probeUnit 0 with gang := true } ∧ Effective 0 [] gg) ∧
    (inHandler.core.unit = some (probeUnit 0) ∧ inHandler.core.sys.intrap = true ∧ Effective 0 [] inHandler ∧
      inHandler.children (probeUnit 0) = 0) ∧ State.reset.core.unit = none :=
  ⟨closes _ (by decide +kernel), closes tk (by decide +kernel), closes gg (by decide +kernel), by decide +kernel⟩

/-- WAITC on flag 3 of core 3, which a gang of the same context runs. -/
def besideGang : State := { State.xs tk [(5, 0x63)] with others := [(3, { Core.reset 3 with unit := some { probeUnit 3 with gang := true } })] }

theorem test_witness_TaskInstructions_waitc :
    let d := besideGang.core.x 5
    Effective 0 [.x 5] besideGang ∧ besideGang.core.xp 5 = false ∧ bitAt d 16 = false ∧ desigOk d = true ∧ bitAt d 15 = false ∧
    desigCore d 0 = 3 ∧ (besideGang.coreOf (desigCore d besideGang.core.id)).unit = some { probeUnit 3 with gang := true } ∧
    besideGang.core.unit = some (probeUnit 0) ∧ reaches besideGang = true := by decide +kernel

/-- Two vector sources in v1 and v2 with a tag and a width 3 destination, and the values they are read as. -/
def pair (t u : Tag) : State := State.vs (State.vs tk 1 1 t) 2 2 u

/-- Element widths at both ends, the last element of each, and the mask's first and last lane. -/
theorem test_witness_Lanes :
    (4 ∈ [4, 8, 16, 32] ∧ 1023 < 4096 / 4) ∧ (32 ∈ [4, 8, 16, 32] ∧ 127 < 4096 / 32) ∧ 4095 < 4096 := by decide

/-- Sources and an unset destination of the format, one taken under a mask with its own tag, a mismatch, a masked write over another tag. -/
theorem test_witness_VectorFloat :
    let r := srcRegs (.reg 1) ++ srcRegs (.reg 2) ++ [PDest.v 3]
    let s := pair tF32 tF32
    (Effective 0 r s ∧ s.core.vsrc (.reg 1) = .val ⟨1, tF32, false⟩ ∧ s.core.vsrc (.reg 2) = .val ⟨2, tF32, false⟩ ∧ vfmtTag 0 = tF32 ∧ s.core.takesTag 1 3 tF32) ∧
    ((State.vs s 3 0 tF32).core.v 3).tag = tF32 ∧ ((State.vs s 3 0 tF32).core.takesTag 1 3 tF32) ∧
    ((pair tF32 tI32).core.vsrc (.reg 2) = .val ⟨2, tI32, false⟩ ∧ (vfmt 0).w = 32 ∧ tI32 ≠ vfmtTag 0) ∧
    ((pair tBF16 tI16).core.vsrc (.reg 1) = .val ⟨1, tBF16, false⟩ ∧ (pair tBF16 tI16).core.vsrc (.reg 2) = .val ⟨2, tI16, false⟩ ∧ vfmtTag 1 = tBF16 ∧
      (vfmt 1).w = 16) ∧
    (¬(State.vs s 3 0 tI32).core.takesTag 1 3 tF32 ∧ Effective 0 r (State.vs s 3 0 tI32)) ∧
    (Effective 0 (srcRegs (.reg 1) ++ [PDest.v 3]) s ∧ tI32 ≠ vfmtTag 0) := by decide +kernel

theorem test_witness_VectorInteger :
    let r := srcRegs (.reg 1) ++ srcRegs (.reg 2) ++ [PDest.v 3]
    (∀ w : BitVec 2, let s := State.vs (pair (viTag w) (viTag w)) 3 3 (viTag w);
      Effective 0 r s ∧ s.core.vsrc (.reg 1) = .val ⟨1, viTag w, false⟩ ∧ s.core.vsrc (.reg 2) = .val ⟨2, viTag w, false⟩ ∧ s.core.takesTag 1 3 (viTag w) ∧
      (s.core.v 3).tag = viTag w) ∧
    (let s := State.vs (pair tI8 tI8) 3 3 tI32;
      Effective 0 r s ∧ s.core.vsrc (.reg 1) = .val ⟨1, tI8, false⟩ ∧ s.core.vsrc (.reg 2) = .val ⟨2, tI8, false⟩ ∧ (s.core.v 3).tag = tI32) := by decide +kernel

/-- Sources of one tag and of two; a masked write to a register of the common tag. -/
theorem test_witness_VectorBitsAndMoves :
    let r := srcRegs (.reg 1) ++ srcRegs (.reg 2) ++ [PDest.v 3]
    (let s := State.vs (pair tF32 tF32) 3 3 tF32;
      Effective 0 r s ∧ s.core.vsrc (.reg 1) = .val ⟨1, tF32, false⟩ ∧ s.core.vsrc (.reg 2) = .val ⟨2, tF32, false⟩ ∧ s.core.takesTag 7 3 tF32 ∧
      Effective 0 (srcRegs (.reg 1) ++ [.v 3]) s) ∧
    (let s := pair tF32 tI8;
      Effective 0 r s ∧ s.core.vsrc (.reg 1) = .val ⟨1, tF32, false⟩ ∧ s.core.vsrc (.reg 2) = .val ⟨2, tI8, false⟩ ∧ s.core.takesTag 7 3 tBITS) ∧
    Effective 0 [.x 5, .v 3] tk ∧ tk.core.takesTag 1 3 tI16 ∧ Effective 0 [.v 3] tk ∧ tk.core.takesTag 0 3 (viTag 2) := by decide +kernel

theorem test_witness_LaneMasks :
    (let s := pair tI8 tI8;
      Effective 0 (srcRegs (.reg 1) ++ srcRegs (.reg 2)) s ∧ s.core.vsrc (.reg 1) = .val ⟨1, tI8, false⟩ ∧ s.core.vsrc (.reg 2) = .val ⟨2, tI8, false⟩ ∧ viTag 0 = tI8) ∧
    (let s := (pair tF32 tF32).mapCore (fun c => { c with r := c.r.setV 2 ⟨2, tF32, true⟩ });
      Effective 0 (srcRegs (.reg 1) ++ srcRegs (.reg 2)) s ∧ s.core.vsrc (.reg 1) = .val ⟨1, tF32, false⟩ ∧ s.core.vsrc (.reg 2) = .val ⟨2, tF32, true⟩ ∧ vfmtTag 0 = tF32) ∧
    Effective 0 [] tk ∧ Effective 0 [.v 3] tk := by decide +kernel

/-- Sound index vectors and a poisoned one; byte permutes of each half; reductions of a float and of an integer tag. -/
theorem test_witness_PermutesAndReductions :
    let r := srcRegs (.reg 1) ++ srcRegs (.reg 2) ++ [PDest.v 3]
    (let s := State.vs (pair tF32 tI32) 3 3 tI8;
      Effective 0 r s ∧ s.core.vsrc (.reg 1) = .val ⟨1, tF32, false⟩ ∧ s.core.vsrc (.reg 2) = .val ⟨2, tI32, false⟩ ∧ s.core.takesTag 0 3 tF32 ∧
      s.core.takesTag 0 3 tBITS) ∧
    (let s := (pair tF32 tF32).mapCore (fun c => { c with r := c.r.setV 2 ⟨2, tI32, true⟩ });
      Effective 0 r s ∧ s.core.vsrc (.reg 1) = .val ⟨1, tF32, false⟩ ∧ s.core.vsrc (.reg 2) = .val ⟨2, tI32, true⟩) ∧
    ((Instr.vpermb ⟨0, 0, 3, .reg 1, .reg 2, 0⟩).WellFormed ∧ (Instr.vpermb ⟨0, 0, 3, .reg 1, .reg 2, 2⟩).WellFormed) ∧
    (∀ w : BitVec 2, let s := pair (vfmtTag w) (viTag w);
      Effective 0 (srcRegs (.reg 1) ++ [.v 3]) s ∧ Effective 0 (srcRegs (.reg 2) ++ [.v 3]) s ∧ s.core.vsrc (.reg 1) = .val ⟨1, vfmtTag w, false⟩ ∧
      s.core.vsrc (.reg 2) = .val ⟨2, viTag w, false⟩ ∧ viTag w ≠ vfmtTag w) := by decide +kernel

/-- A widening, an equal and a narrowing conversion at its last part, a source of no known tag. -/
theorem test_witness_Conversions :
    let q := fun (t d : Tag) (p n : Nat) => t ≠ tINVALID ∧ t ≠ tBITS ∧ t ≠ d ∧ p < max (tagWidth t) (tagWidth d) / min (tagWidth t) (tagWidth d) ∧
      (pair t d).core.vsrc (.reg 1) = .val ⟨1, t, false⟩ ∧ Effective 0 (srcRegs (.reg 1) ++ [.v 3]) (pair t d) ∧ ((pair t d).core.v 3).tag = tINVALID ∧
      (pair t d).core.takesTag 1 3 d ∧ p < n
    (tagInt tF32 = false ∧ max (tagWidth tI8) (tagWidth tF32) / min (tagWidth tI8) (tagWidth tF32) ≤ 4) ∧
    (tagWidth tF32 > tagWidth tI8 ∧ ((pair tF32 tBF16).core.v 2).tag ≠ tINVALID ∧ ((pair tF32 tBF16).core.v 2).tag ≠ tI8) ∧
    q tI8 tF32 3 4 ∧ q tI32 tF32 0 1 ∧ q tF32 tE2M1 7 8 ∧ (pair tBITS tF32).core.vsrc (.reg 1) = .val ⟨1, tBITS, false⟩ ∧
      tk.core.vsrc (.reg 1) = .val ⟨0, tINVALID, false⟩ := by decide +kernel

/-- Fewer clusters with nothing pending, more of them, the same number, more than the budget. -/
theorem test_witness_RegisterFileMode :
    (let s := tk.mapCore (fun c => { c with sys := { c.sys with budget := 3, rfN := 2 } });
      Effective 0 [] s ∧ s.core.sys.budget = 3 ∧ s.core.sys.rfN = 2 ∧ ∀ n : Nat, n < 2 → ∀ d ∈ gatedRegs n, s.core.pendOn d = none) ∧
    (let s := tk.mapCore (fun c =>
        let p := c.pipe.pend 3 [.v 20] false none (.lands [])
        { c with sys := { c.sys with budget := 3, rfN := 2 }, pipe := { p with seq := c.pipe.seq + 1 } });
      ∃ d ∈ gatedRegs 1, (s.core.pendOn d).isSome = true) := by decide +kernel

/-- An access that takes its tags, with what holds of the state then. -/
theorem tags {x : TagRes} (P : State → Prop) [DecidablePred P] (h : (match x with | .ok t => decide (P t) | _ => false) = true) :
    ∃ t, x = .ok t ∧ P t := by
  cases x with
  | ok t => exact ⟨t, rfl, of_decide_eq_true h⟩
  | conflict => exact absurd h Bool.false_ne_true
  | full => exact absurd h Bool.false_ne_true

/-- A store that fills the undo log, and one with room for a record. -/
def undone (s : State) (n : Nat) : State := s.mapCore (fun c => { c with rg := { c.rg with undoCount := n } })

/-- The state with a lane mask in k1. -/
def withK1 (s : State) (m : Mask) : State := s.mapCore (fun c => { c with r := { c.r with k := c.r.k.set 1 m } })

/-- A bed offset that is no multiple of the access, the last one in the bed, one past it, one below zero; a store at the end of the line store and
one below it. Base x2: below SPILL_BASE, beyond SPILL_LIMIT, the last doubleword below it. -/
theorem test_witness_BedAddresses :
    let c := (State.xs tk [(5, 0x17FFF8), (2, 0x100000)]).core
    let d := { c with sys := { c.sys with spillBase := 0x100000, spillLimit := 0x100010, lineEnd := 0x17FFF8 } }
    ((((c.x 5).toNat : Int) + 1) % 8 ≠ 0) ∧ ((((c.x 5).toNat : Int) + 0) % 8 = 0 ∧ ((c.x 5).toNat : Int) + 0 + 8 = 0x180000) ∧
    (((c.x 5).toNat : Int) + 8 + 8 > 0x180000 ∧ (((c.x 5).toNat : Int) + 8) % 8 = 0) ∧ (((c.x 0).toNat : Int) + -8 < 0) ∧
    (((d.x 5).toNat : Int) + 0 = (d.sys.lineEnd : Int)) ∧ (((d.x 5).toNat : Int) + -8 < (d.sys.lineEnd : Int)) ∧
    (((d.x 2).toNat : Int) + -8 < (d.sys.spillBase.toNat : Int) ∧ 0 ≤ ((d.x 2).toNat : Int) + -8) ∧
    ((d.sys.spillBase.toNat : Int) ≤ ((d.x 2).toNat : Int) + 16 ∧ (d.sys.spillLimit.toNat : Int) < ((d.x 2).toNat : Int) + 16 + 8) ∧
    ((d.sys.spillBase.toNat : Int) ≤ ((d.x 2).toNat : Int) + 8 ∧ ((d.x 2).toNat : Int) + 8 + 8 ≤ (d.sys.spillLimit.toNat : Int)) := by decide +kernel

/-- An outcome of an access of several ranges that went through. -/
theorem allowed {ε : Type} {x : Except ε State} (h : (match x with | .ok _ => true | _ => false) = true) : ∃ t, x = .ok t := by
  cases x with
  | ok t => exact ⟨t, rfl⟩
  | error _ => exact absurd h Bool.false_ne_true

/-- Every core stands under its own number where no other core is listed. -/
theorem numbered {s : State} (h : s.others = []) : s.Numbered := by
  intro n
  unfold State.coreOf
  rw [h]
  split
  · assumption
  · rfl

/-- The state with a line of the bed of core 0 written by another context's open region. -/
def taken (s : State) (off : Nat) : State :=
  { s with regions := [⟨9, ⟨⟨2, 5⟩, 0, 0, 1, 0⟩, 0, false, false, none⟩], nextRegion := 10, tags := [(bedLine 0 off, [⟨9, .write⟩])] }

/-- Base x2 at SPILL_BASE, and OVF_PTR at the end of the probe's page. -/
def spilled : State := (State.xs tk [(2, 0x100000)]).mapCore (fun c => { c with sys := { c.sys with spillBase := 0x100000, ovf := 0x7000 } })

/-- The last byte and the last 512 bytes of the bed, a line another region has written, a load below SPILL_BASE. -/
theorem test_witness_BedLoads :
    let s := State.xs tk [(5, 0x17FFFF), (6, 0x17FE00)]
    (∃ t, s.unitTag (bedLines s.core.id 0x17FFFF 1) .read = .ok t ∧ ¬(0x17FFFF < s.core.sys.lineEnd)) ∧
    (∃ t, s.unitTag (bedLines s.core.id 0x17FE00 512) .read = .ok t ∧ ¬(0x17FE00 < s.core.sys.lineEnd)) ∧
    (∃ t, spilled.unitTag ([(0x6FF8, 8)].flatMap (fun r => memLines r.1 r.2)) .read = .ok t ∧ t.core.ld < 32) ∧
    (∃ t, spilled.unitTag ([(0x6E00, 512)].flatMap (fun r => memLines r.1 r.2)) .read = .ok t ∧ t.core.ld < 32) ∧
    (Effective 0 [.x 5, .x 4] s ∧ s.core.xp 5 = false ∧ bedAddr s.core 5 ((0#18).toInt * ((1 : Nat) : Int)) 1 false = .bed 0x17FFFF ∧
      s.core.tileHolds 0x17FFFF 1 false = false ∧
      (taken s 0x17FFFF).unitTag (bedLines s.core.id 0x17FFFF 1) .read = .conflict) ∧
    (Effective 0 [.x 6, .v 4] s ∧ bedAddr s.core 6 ((0#18).toInt * 512) 512 false = .bed 0x17FE00 ∧ s.core.tileHolds 0x17FE00 512 false = false) ∧
    (Effective 0 [.x 2, .x 4] spilled ∧ spilled.core.xp 2 = false ∧
      bedAddr spilled.core 2 ((0x3FFFF#18).toInt * ((8 : Nat) : Int)) 8 false = .redirect 0x6FF8 ∧
      spilled.span spilled.core.asid 0x6FF8 8 .read = .ok [(0x6FF8, 8)] ∧ spilled.touchesHeader spilled.core.asid 0x6FF8 8 = false) ∧
    (Effective 0 [.x 2, .v 4] spilled ∧ bedAddr spilled.core 2 ((0x3FFFF#18).toInt * 512) 512 false = .redirect 0x6E00 ∧
      spilled.span spilled.core.asid 0x6E00 512 .read = .ok [(0x6E00, 512)] ∧ spilled.touchesHeader spilled.core.asid 0x6E00 512 = false) ∧
    ((State.bad s 5).core.xp 5 = true ∧ Effective 0 [.x 5, .x 4] (State.bad s 5)) ∧
    bedAddr s.core 5 ((0#18).toInt * 8) 8 false = .bad illegalOperand :=
  ⟨tags _ (by decide +kernel), tags _ (by decide +kernel), tags _ (by decide +kernel), tags _ (by decide +kernel), by decide +kernel⟩

/-- A gather of the last lane, at a line that is free and at one that another region has written. -/
theorem test_witness_BedLoads_lanes :
    let g := withK1 (State.vs (State.xs tk [(7, 0x17FFFC)]) 1 0 tI32) (1 <<< 127)
    let ls : List (Nat × Nat) := [(127, 0x17FFFC)]
    (∃ t, g.tagRanges g.core.id .read (ls.map (fun e => (e.2, 4))) = .ok t) ∧
    Effective 0 [.x 7, .v 1, .v 4] g ∧ g.core.xp 7 = false ∧ (g.core.v 1).poison = false ∧ checkLanes g.core 4 false (laneAddrs g.core 1 7 1) = .ok ls ∧
    ls.any (fun e => g.core.tileHolds e.2 4 false) = false ∧ (g.core.v 4).tag = tINVALID ∧
    (taken g 0x17FFFC).tagRanges g.core.id .read (ls.map (fun e => (e.2, 4))) = .error (some 0x17FFFC) :=
  ⟨allowed (by decide +kernel), by decide +kernel⟩

/-- With 95 undo records and with 96, inside a handler, below SPILL_BASE. -/
theorem test_witness_BedStores :
    let s := undone (State.xs tk [(5, 0x17FFF8), (6, 0x17FE00)]) 95
    s.Numbered ∧ spilled.Numbered ∧ (∃ t, s.unitTag (bedLines s.core.id 0x17FFF8 8) .write = .ok t ∧ s.core.rg.undoCount < 96) ∧
    (∃ t, (undone s 96).unitTag (bedLines s.core.id 0x17FFF8 8) .write = .ok t ∧ 96 ≤ (undone s 96).core.rg.undoCount) ∧
    (∃ t, s.unitTag (bedLines s.core.id 0x17FE00 512) .write = .ok t ∧ True) ∧
    (Effective 0 [.x 5, .x 4] s ∧ s.core.xp 5 = false ∧ s.core.xp 4 = false ∧ bedAddr s.core 5 ((0#18).toInt * ((8 : Nat) : Int)) 8 true = .bed 0x17FFF8 ∧
      s.core.tileHolds 0x17FFF8 8 true = false ∧ (undone s 96).core.sys.intrap = false ∧ inHandler.core.sys.intrap = true ∧
      (taken s 0x17FFF8).unitTag (bedLines s.core.id 0x17FFF8 8) .write = .conflict) ∧
    (Effective 0 [.x 6, .v 4] s ∧ (s.core.v 4).poison = false ∧ bedAddr s.core 6 ((0#18).toInt * 512) 512 true = .bed 0x17FE00 ∧
      s.core.tileHolds 0x17FE00 512 true = false) ∧
    (Effective 0 [.x 2, .x 4] spilled ∧ bedAddr spilled.core 2 ((0x3FFFF#18).toInt * ((8 : Nat) : Int)) 8 true = .redirect 0x6FF8 ∧
      spilled.span spilled.core.asid 0x6FF8 8 .write = .ok [(0x6FF8, 8)] ∧ spilled.touchesHeader spilled.core.asid 0x6FF8 8 = false ∧
      spilled.core.sys.intrap = false) ∧
    (Effective 0 [.x 2, .v 4] spilled ∧ bedAddr spilled.core 2 ((0x3FFFF#18).toInt * 512) 512 true = .redirect 0x6E00 ∧
      spilled.span spilled.core.asid 0x6E00 512 .write = .ok [(0x6E00, 512)] ∧ spilled.touchesHeader spilled.core.asid 0x6E00 512 = false) ∧
    ((State.bad s 4).core.xp 4 = true ∧ Effective 0 [.x 5, .x 4] (State.bad s 4)) :=
  ⟨numbered rfl, numbered rfl, tags _ (by decide +kernel), tags _ (by decide +kernel), tags _ (by decide +kernel), by decide +kernel⟩

/-- A scatter of the last lane. -/
theorem test_witness_BedStores_lanes :
    let g := withK1 (State.vs (State.xs tk [(7, 0x17FFFC)]) 1 0 tI32) (1 <<< 127)
    let ls : List (Nat × Nat) := [(127, 0x17FFFC)]
    (∃ t, g.tagRanges g.core.id .write (ls.map (fun e => (e.2, 4))) = .ok t) ∧
    Effective 0 [.x 7, .v 1, .v 4] g ∧ g.core.xp 7 = false ∧ (g.core.v 1).poison = false ∧ (g.core.v 4).poison = false ∧
    checkLanes g.core 4 true (laneAddrs g.core 1 7 1) = .ok ls ∧ ls.any (fun e => g.core.tileHolds e.2 4 true) = false ∧ g.core.rg.undoCount < 96 :=
  ⟨allowed (by decide +kernel), by decide +kernel⟩

/-- Core 3 beside core 0, of the same launch. -/
def beside : State :=
  { State.xs tk [(5, 3 * 2 ^ 21 + 0x17FE00)] with others := [(3, { Core.reset 3 with unit := some { probeUnit 3 with gang := true } })] }

/-- The last 512 bytes of core 3's bed, outside a handler and inside one; an address whose high bits are set. -/
theorem test_witness_RemoteBed :
    let s := beside
    let h := s.mapCore (fun c => { c with sys := { c.sys with intrap := true } })
    let at_ := fun (n : Nat) (w : Bool) => decide (s.remoteAddr 5 ((0#18).toInt * (n : Int)) n w = .ok (3, 0x17FE00))
    (∃ t, s.unitTag (bedLines 3 0x17FE00 8) .read = .ok t ∧ t.core.ld < 32) ∧
    (∃ t, s.unitTag (bedLines 3 0x17FE00 512) .read = .ok t ∧ t.core.ld < 32) ∧
    Effective 0 [.x 5, .x 4] s ∧ Effective 0 [.x 5, .v 4] s ∧ s.core.xp 5 = false ∧ s.core.xp 4 = false ∧ (s.core.v 4).poison = false ∧
    at_ 8 false ∧ at_ 8 true ∧ at_ 512 false ∧ at_ 512 true ∧ (s.coreOf 3).tileHolds 0x17FE00 8 false = false ∧
    (s.coreOf 3).tileHolds 0x17FE00 512 false = false ∧ ¬(0x17FE00 < (s.coreOf 3).sys.lineEnd) ∧ s.core.sys.intrap = false ∧
    (h.remoteAddr 5 ((0#18).toInt * 8) 8 true = .ok (3, 0x17FE00) ∧ h.core.sys.intrap = true ∧ h.provOf h.core = none ∧
      (h.coreOf 3).tileHolds 0x17FE00 8 true = false) ∧
    (State.xs tk [(5, 0x2000000)]).remoteAddr 5 ((0#18).toInt * 8) 8 false = .error (illegalOperand, 0, 0) ∧
    (State.xs tk [(5, 0x2000000)]).remoteAddr 5 ((0#18).toInt * 8) 8 true = .error (illegalOperand, 0, 0) :=
  ⟨tags _ (by decide +kernel), tags _ (by decide +kernel), by decide +kernel⟩

/-- A valid handle h1 on the probe's page, and one h2 that the walk fails for. -/
def handled : State := (State.xs tk [(5, 0)]).mapCore (fun c =>
  let h1 : Handle := ⟨.valid, 0x6E00, 0x6000, 0, 0x6000, true, true, 0, 0⟩
  let h2 : Handle := ⟨.stale, 0x9000, 0, 0, 0, false, false, 1, 2⟩
  let regs := { c.r with h := (c.r.h.set 1 h1).set 2 h2 }
  { c with r := regs })

/-- The last 512 bytes and the last byte of a page, one past them, an address that is no multiple; an access that fails; a handle that stands for
nothing. -/
theorem test_witness_GlobalLoads :
    let s := handled
    (∃ u, s.unitTag (memLines 0x6FFF 1) .read = .ok u ∧ u.core.ld < 32) ∧ (∃ u, s.unitTag (memLines 0x6E00 512) .read = .ok u ∧ u.core.ld < 32) ∧
    Effective 0 [.x 5, .h 1, .x 4] s ∧ Effective 0 [.x 5, .h 1, .v 4] s ∧ Effective 0 [.x 5, .h 2, .x 4] s ∧ Effective 0 [.x 5, .h 1] s ∧
    s.core.xp 5 = false ∧ s.throughHandle 1 5 (511#14).toInt 1 false = (s, .at_ 0x6FFF 0x6FFF) ∧ s.touchesHeader s.core.asid 0x6FFF 1 = false ∧
    s.throughHandle 1 5 (0#14).toInt 512 false = (s, .at_ 0x6E00 0x6E00) ∧ s.touchesHeader s.core.asid 0x6E00 512 = false ∧
    (match s.throughHandle 2 5 (0#14).toInt 8 false with
      | (t, .failed _ _ _) => decide (t.core.ld < 32)
      | _ => false) = true ∧
    s.throughHandle 3 5 (0#14).toInt 8 false = (s, .bad illegalOperand 0) ∧ s.throughHandle 1 5 (64#14).toInt 8 false = (s, .bad handleBound 0x7000) ∧
    (let h := s.core.h 1
     h.st = .valid ∧ h.base ≤ 0x6FFF ∧ 0x6FFF + 1 ≤ h.base + pageBytes h.size ∧ h.base + pageBytes h.size < 0x7000 + 8 ∧ h.r = true ∧ h.w = true ∧
       s.fabricFail s.core.asid h.pa .read = none ∧ s.fabricFail s.core.asid h.pa .write = none) ∧
    (s.core.h 2).st ≠ .valid ∧ (s.core.h 2).st ≠ .none ∧ (s.core.h 3).st = .none ∧ (0x6E00 + 1) % 8 ≠ 0 :=
  ⟨tags _ (by decide +kernel), tags _ (by decide +kernel), by decide +kernel⟩

/-- The same stores outside a handler and inside one, and one whose access fails. -/
theorem test_witness_GlobalStores :
    let s := handled
    let u := s.mapCore (fun c => { c with sys := { c.sys with intrap := true } })
    Effective 0 [.x 5, .h 1, .x 4] s ∧ Effective 0 [.x 5, .h 1, .v 4] s ∧ Effective 0 [.x 5, .h 2, .x 4] s ∧ s.core.xp 5 = false ∧
    s.core.xp 4 = false ∧ (s.core.v 4).poison = false ∧ s.throughHandle 1 5 (511#14).toInt 1 true = (s, .at_ 0x6FFF 0x6FFF) ∧
    s.touchesHeader s.core.asid 0x6FFF 1 = false ∧ s.core.sys.intrap = false ∧ s.throughHandle 1 5 (0#14).toInt 512 true = (s, .at_ 0x6E00 0x6E00) ∧
    s.touchesHeader s.core.asid 0x6E00 512 = false ∧
    (u.throughHandle 1 5 (511#14).toInt 1 true = (u, .at_ 0x6FFF 0x6FFF) ∧ u.core.sys.intrap = true ∧ 0x6FFF < clPagePa ∧ u.provOf u.core = none) ∧
    (match s.throughHandle 2 5 (0#14).toInt 8 true with
      | (t, .failed _ _ va) => !t.core.sys.intrap && !t.core.gateFull && !t.touchesHeader t.core.asid va 8
      | _ => false) = true := by decide +kernel

/-- A translation the TLB holds and one it does not, the highest virtual address, one past it, a bed window. -/
theorem test_witness_Handles :
    let s := State.xs tk [(5, 0xFFFFFFFFFFFFFF), (6, 0x100000000000000), (7, 0x6000)]
    let u := s.mapCore (fun c => { c with mem := { c.mem with tlb := [⟨1, 0x6000, 0, 0x6000, true, true⟩] } })
    Effective 0 [.x 5, .h 1] s ∧ s.core.xp 5 = false ∧ (s.core.x 5).toNat < 2 ^ 56 ∧ windowOf (s.core.x 5).toNat = none ∧
    s.core.tlbHit s.core.asid (s.core.x 5).toNat = none ∧ 2 ^ 56 ≤ (s.core.x 6).toNat ∧ windowOf 0xFF000000000000 ≠ none ∧
    (u.core.tlbHit u.core.asid (u.core.x 7).toNat).isSome = true ∧ Effective 0 [.x 7, .h 1] u ∧ Effective 0 [.h 1] handled ∧
    Effective 0 [.h 1, .x 4] handled ∧ (handled.core.h 0).st = .none ∧ (handled.core.h 2).st = .stale ∧ (handled.core.h 1).st = .valid := by decide +kernel

/-- An archived OWN signal of 512-byte samples; an INGRESS signal of queue 3; an EGRESS one. -/
def archived : SigDecl := ⟨0, 1, 0, 4, 2, 6, tF32, false, true, 4, 2, 5, 0, 0, 0, [], false, 0, 0, 0, 3, 32⟩
def ingress : SigDecl := { archived with kind := 2, arch := false, queue := 3 }
def egress : SigDecl := { ingress with kind := 3 }

/-- A core that holds them as signals 0, 1 and 255: slot 1 of the first with eight samples, its first two block-table entries filled. -/
def State.signals (s : State) : State := s.mapCore (fun c =>
  let slot : SlotState := ⟨8, 4, true, 0, [0x10001, 0x14001, 0]⟩
  let unit : SigUnit := ⟨[some archived, some ingress] ++ List.replicate 253 none ++ [some egress],
    [⟨[slot, slot], 0, 0⟩, ⟨[slot], 0, 0⟩] ++ List.replicate 253 ⟨[], 0, 0⟩ ++ [⟨[slot], 0, 0⟩], [], [], [], []⟩
  { c with sig := unit })

/-- The state with 48 entries in the gate. -/
def crowded (s : State) : State := s.mapCore (fun c => { c with rg := { c.rg with gate := List.replicate 48 ⟨.remote 0 0 [], 0, 0, none, false, false⟩ } })

/-- A launch of context 1. -/
def oneLaunch : Launch :=
  ⟨1, 1, 1, 0, List.replicate 64 0, [], [0], 0, 0, .started, false, some 1, 0, 0, false, 0, 0, [], [0], [], [], 1, 0, [], [], none, none, none, none, []⟩

/-- The task in focus provisional: block 0 of a launch whose retractable pool is 5. -/
def provisional (s : State) : State :=
  let l : Launch := { oneLaunch with waits := true, final := none, desc := [0, 0, 0, 5 <<< 48, 0, 0, 0, 0], blocks := [(0, .runP)] }
  { s.mapCore (fun c => { c with unit := some { probeUnit 0 with launch := 1, prov := true, block := some 0 } }) with
    disp := { s.disp with launches := [l] } }

/-- Each command at the largest values its rule allows; a poisoned operand; a full gate. -/
theorem test_witness_EngineCommands :
    let top : Word := 0xFFFFFFFFFFFFFF
    let s := State.signals (State.xs tk [(4, top), (5, top), (6, 0xFFFFFFFF), (8, 255), (9, 1), (10, 0xFFFF), (11, 0xFFFFFFFFFFFFFFFF), (13, 0x100),
      (14, 0x17FE00), (15, 0x1000007), (16, 0xFFFFFFFFFFFFF8), (17, 0x17FFF8), (18, 0x17FFF0)])
    Effective 0 [.x 4, .x 5, .x 6] s ∧ s.core.sys.intrap = false ∧ s.core.gateFull = false ∧ s.core.xp 4 = false ∧ s.core.xp 5 = false ∧
    s.core.xp 6 = false ∧ (s.core.x 4).toNat < 2 ^ 56 ∧ (s.core.x 6).toNat < 2 ^ 32 ∧
    (s.core.decl (s.core.x 9).toNat = some ingress ∧ (s.core.x 9).toNat < 2 ^ 8 ∧ 0 < (s.core.x 10).toNat ∧ (s.core.x 10).toNat < 2 ^ 16 ∧
      ingress.kind = 2 ∧ ingress.queue = (3#2).toNat) ∧
    (s.core.decl (s.core.x 8).toNat = some egress ∧ (s.core.x 8).toNat < 2 ^ 8 ∧ egress.kind = 3) ∧
    (s.core.pendOn (.x (11 + 1)) = none ∧ s.core.xp (11 + 1) = false ∧ Effective 0 [.x 4, .x 5, .x 11] s) ∧
    (let a := s.core.x 13; let b := s.core.x 15; let d := s.core.x 14; let t := s.core.slotState 0 1;
      s.core.decl (a.toNat % 256) = some archived ∧ a.toNat < 2 ^ 16 ∧ b.toNat < 2 ^ 48 ∧ 0 < b.toNat / 2 ^ 24 ∧ archived.arch = true ∧
      a.toNat / 256 = 1 ∧ a.toNat / 256 < archived.slots ∧ ((b.toNat % 2 ^ 24 : Nat) : Int) + (b.toNat / 2 ^ 24 : Nat) ≤ t.n ∧ d.toNat % 512 = 0 ∧
      ¬(max ((b.toNat % 2 ^ 24 : Nat) : Int) t.floor < ((b.toNat % 2 ^ 24 : Nat) : Int) + (b.toNat / 2 ^ 24 : Nat) ∧
        t.n - max ((b.toNat % 2 ^ 24 : Nat) : Int) t.floor ≥ (archived.adepth : Int)) ∧
      s.core.sys.lineEnd ≤ d.toNat ∧ d.toNat < 0x180000 ∧ d.toNat + b.toNat / 2 ^ 24 * archived.size ≤ 0x180000 ∧ s.core.tablePending 0 = false) ∧
    ((State.bad s 5).core.xp 5 = true ∧ Effective 0 [.x 4, .x 5, .x 6] (State.bad s 5)) ∧
    ((crowded s).core.gateFull = true ∧ Effective 0 [.x 4, .x 5, .x 6] (crowded s)) ∧
    (Effective 0 [.x 16, .x 5] s ∧ (s.core.x 16).toNat < 2 ^ 56 ∧ (s.core.x 16).toNat % 8 = 0 ∧ (s.core.x 16).toNat % 4 = 0) ∧
    (Effective 0 [.x 16, .x 5, .x 17] s ∧ s.isProv = false ∧ (s.core.x 17).toNat % 8 = 0 ∧ s.core.sys.lineEnd ≤ (s.core.x 17).toNat ∧
      (s.core.x 17).toNat < 0x180000 ∧ s.core.pendOn (.x (17 + 1)) = none ∧ s.core.xp (17 + 1) = false ∧ (s.core.x (17 + 1)).toNat % 8 = 0 ∧
      (s.core.x (17 + 1)).toNat < 0x180000) := by decide +kernel

/-- In a handler, with a place in the queue and with none. -/
theorem test_witness_EngineCommands_handler :
    let h := State.xs inHandler [(4, 0xFFFFFFFFFFFFFF), (5, 0xFFFFFFFFFFFFFF), (6, 0xFFFFFFFF)]
    let f := h.mapCore (fun c =>
      (List.range 32).foldl (fun c _ => c.enqueueCmd 0 ⟨.copy 0 0 0, 0, false, none, none, none, 0, Progress.start⟩) c)
    (Effective 0 [.x 4, .x 5, .x 6] h ∧ h.core.sys.intrap = true ∧ h.core.xp 4 = false ∧ h.core.xp 5 = false ∧ h.core.xp 6 = false ∧
      (h.core.x 4).toNat < 2 ^ 56 ∧ (h.core.x 6).toNat < 2 ^ 32 ∧ (h.core.queue 0).full = false) ∧
    Effective 0 [.x 4, .x 5, .x 6] f ∧ f.core.sys.intrap = true ∧ (f.core.queue 0).full = true := by decide +kernel

/-- A designator of zero and of a gang's flag, a provisional unit's post, an empty and a busy queue, the last scope and the first that names none,
loads out and none, a queue that is not empty, a handler. -/
theorem test_witness_FencesAndPosts :
    let s := besideGang
    let v := provisional besideGang
    let b := s.mapCore (fun c => { c with pipe := { c.pipe with reqs := [⟨0, 0, 3, [.x 9], true, none, .lands [], none⟩], seq := 1 } })
    let q := s.mapCore (fun c => c.enqueueCmd 2 ⟨.copy 0 0 0, 0, false, none, none, none, 0, Progress.start⟩)
    s.Closes (closedState s) ∧ v.Closes (closedState v) ∧ b.Closes (closedState b) ∧ q.Closes (closedState q) ∧ tk.Numbered ∧
    (Effective 0 [.x 5] s ∧ s.core.xp 5 = false ∧ s.core.x 0 = 0 ∧ s.desigFault (s.core.x 5) (s.core.x 5) = none ∧ s.core.rg.gate = [] ∧
      (closedState s).core.sys.intrap = false) ∧
    (∀ q < 4, (15#4).getLsbD q = true → ((closedState s).core.queue q).full = false) ∧
    (Effective 0 [.x 5, .x 0] s ∧ s.core.xp 0 = false ∧ s.canDefer = true ∧ (closedState s).provOf (closedState s).core = none ∧
      (s.core.x 0).toNat < 2 ^ 10 ∧ (s.coreOf (desigCore (s.core.x 5) s.core.id)).isTask = false ∧ (11#4).toNat < 12 ∧ 12 ≤ (12#4).toNat ∧
      scopeContains 11 (s.agentOf s.core) (s.agentOf (s.coreOf (desigCore (s.core.x 5) s.core.id))) = true) ∧
    (Effective 0 [.x 5, .x 0] v ∧ v.canDefer = true ∧ ((closedState v).provOf (closedState v).core).isSome = true ∧
      v.desigFault (v.core.x 5) (v.core.x 5) = none ∧
      scopeContains 11 (v.agentOf v.core) (v.agentOf (v.coreOf (desigCore (v.core.x 5) v.core.id))) = true) ∧
    (Effective 0 [] s ∧ (closedState s).core.loadsOut = false ∧ ∀ q ∈ (closedState s).core.eng.toList, q.ents = []) ∧
    (Effective 0 [] b ∧ (closedState b).core.loadsOut = true) ∧ (Effective 0 [] q ∧ ∃ e ∈ (closedState q).core.eng.toList, e.ents ≠ []) ∧
    (Effective 0 [.x 5, .x 6] inHandler ∧ Effective 0 [] inHandler ∧ inHandler.core.sys.intrap = true) :=
  ⟨closes _ (by decide +kernel), closes _ (by decide +kernel), closes _ (by decide +kernel), closes _ (by decide +kernel), numbered rfl,
    by decide +kernel⟩

/-- Limits met and exceeded by one, a FAULTED queue, a flag with exactly its count and with one less; the last flag, a count past the highest. -/
theorem test_witness_FlagsAndWaits :
    let s := tk.mapCore (fun c => c.setFlag 31 1023)
    let q := tk.mapCore (fun c => { c with eng := c.eng.set 2 ⟨[], none, some (precise poisonConsumed 3)⟩ })
    s.Closes (closedState s) ∧ tk.Closes (closedState tk) ∧
    (s.core.ld ≤ (0#4).toNat ∧ s.core.cp ≤ (0#4).toNat ∧ s.core.mx.queue.length ≤ (0#3).toNat ∧ s.core.faultedQueue = none) ∧
    (q.core.ld ≤ 0 ∧ q.core.cp ≤ 15 ∧ q.core.mx.queue.length ≤ 0 ∧ q.core.faultedQueue = some (2, precise poisonConsumed 3)) ∧
    (0#3).toNat < (st (exec (.mzero ⟨0, 2⟩) tk) tk).core.mx.queue.length ∧ (1023#10).toNat ≤ (closedState s).core.flag (31#5).toNat ∧
    (closedState tk).core.flag (31#5).toNat < (1#10).toNat ∧ inHandler.core.sys.intrap = true ∧ 31 < 32 :=
  ⟨closes _ (by decide +kernel), closes _ (by decide +kernel), by decide +kernel⟩

/-- A gang's party registered on phaser 63, behind its phase and level with it. -/
def phased (wp : BitVec 32) (phase : BitVec 32) : State :=
  { gg with disp := { gg.disp with phasers := [⟨0, 1, [(63, ⟨phase, 1, 1, 0, 0⟩)], [⟨63, (gg.agentOf gg.core).fam, true, true, 5, wp⟩]⟩] } }

/-- A CLUSTER task, a gang's member 0 and its member 1; no party and one with both modes; a phase passed and one not. -/
theorem test_witness_Phasers :
    let u : UnitInfo := { probeUnit 0 with gang := true }
    let s := phased 4 5
    let level := phased 4 4
    let other := tk.mapCore (fun c => { c with unit := some { u with member := 1 } })
    tk.Closes (closedState tk) ∧ s.Closes (closedState s) ∧ level.Closes (closedState level) ∧ other.Closes (closedState other) ∧
    (tk.core.unit = some (probeUnit 0) ∧ (probeUnit 0).gang = false ∧ (probeUnit 0).place = 0 ∧ tk.isProv = false ∧
      (tk.phasers 0 1).party 63 (probeUnit 0).family = none ∧ (tk.phasers 0 1).parties.length < 1024) ∧
    (other.core.unit = some { u with member := 1 } ∧ inHandler.core.sys.intrap = true) ∧
    (s.core.unit = some u ∧ u.gang = true ∧ u.member = 0 ∧ s.isProv = false ∧
      ∃ r ∈ (s.phasers 0 1).parties, ((s.phasers 0 1).party 63 u.family = some r ∧ ((closedState s).phasers 0 1).party 63 u.family = some r) ∧
        r.sig = true ∧ r.wait = true ∧ phGt r.sp r.wp = true ∧ phGt (((closedState s).phasers 0 1).get 63).phase r.wp = true ∧
        ((closedState s).phasers 0 1).ahead 63 r = false) ∧
    phGt (((closedState level).phasers 0 1).get 63).phase 4 = false :=
  ⟨closes _ (by decide +kernel), closes _ (by decide +kernel), closes _ (by decide +kernel), closes _ (by decide +kernel), by decide +kernel⟩

/-- WAITC on phaser 63 of its cluster, which its party has signalled ahead of its wait. -/
theorem test_witness_TaskInstructions_phaser :
    let s := { State.xs tk [(5, 0x1003F)] with disp := { tk.disp with
      phasers := [⟨0, 1, [(63, ⟨5, 1, 1, 0, 0⟩)], [⟨63, (probeUnit 0).family, true, true, 5, 4⟩]⟩] } }
    let d := s.core.x 5
    s.Closes (closedState s) ∧ s.core.unit = some (probeUnit 0) ∧ (probeUnit 0).gang = false ∧ (probeUnit 0).place = 0 ∧ s.isProv = false ∧
    Effective 0 [.x 5] s ∧ s.core.xp 5 = false ∧ d.toNat < 2 ^ 17 ∧ bitAt d 16 = true ∧ field d 6 10 = 0 ∧ (field d 0 6).toNat = 63 ∧
    ∃ p ∈ (s.phasers 0 1).parties, (s.phasers (clusterOf s.core.id) 1).party 63 (probeUnit 0).family = some p ∧ p.wait = true ∧ p.sig = true ∧
      phGt p.sp p.wp = true :=
  ⟨closes _ (by decide +kernel), by decide +kernel⟩

/-- The context with pool 5 of two 64 KiB blocks, the first ALLOCATED. -/
def pooled : State :=
  let p : Pool := ⟨true, 0x10000, 0, 2, 2, 1, [], [(0, .allocated)]⟩
  let z : Pool := ⟨false, 0, 0, 0, 0, 0, [], []⟩
  { State.signals (State.xs tk [(5, 63), (6, 0x100), (7, 0x20100), (8, 0x10001), (9, 0x20000), (10, 0x502)]) with
    ctxs := [{ probeCtx with pools := [z, z, z, z, z, p] }] }

/-- A provisional unit with its retractable pool; a handler. -/
theorem test_witness_QuarryInstructions_deferred :
    let v := provisional pooled
    v.Closes (closedState v) ∧ (v.retracts 5).isSome = true ∧ v.canDefer = true ∧
    ((closedState v).provOf (closedState v).core).isSome = true ∧ Effective 0 [.x 5, .x 4] v ∧ pooled.canDefer = true ∧
    (closedState pooled).provOf (closedState pooled).core = none ∧ inHandler.core.sys.intrap = true ∧
    Effective 0 [.x 5, .x 4] inHandler ∧ Effective 0 [.x 5, .x 6, .x 4] inHandler :=
  ⟨closes _ (by decide +kernel), by decide +kernel⟩

/-- A pool with a block left, one used up, none of that number; the entry after the filled ones; a block named and one not. -/
theorem test_witness_QuarryInstructions :
    let s := pooled
    let t := closedState pooled
    s.Closes t ∧
    (Effective 0 [.x 5, .x 4] s ∧ s.core.xp 5 = false ∧ s.isProv = false ∧ t.isProv = false ∧ (s.core.x 5).toNat < 64) ∧
    ((s.core.x 6).toNat < 2 ^ 16 ∧ s.core.selector (s.core.x 6) = some (archived, 0, 1, 0) ∧
      (let tab := (t.core.slotState 0 1).table;
        2 < tab.length ∧ (tab.getD 2 0).getLsbD 0 = false ∧ (∀ j < 2, (tab.getD j 0).getLsbD 0 = true)) ∧
      (t.qalloc t.core.asid archived.pool false).2.toNat % 256 = 0 ∧ (t.qalloc t.core.asid 63 false).2.toNat % 256 ≠ 0) ∧
    (s.pool 1 63 = none ∧ (s.pool 1 5).isSome = true ∧ ((s.pool 1 5).bind Pool.take).isSome = true ∧
      (({ Pool.mk true 0x10000 0 2 2 2 [] [] with blocks := [(0, .allocated), (1, .allocated)] } : Pool).take).isNone = true) ∧
    ((s.core.x 7).toNat < 2 ^ 40 ∧ s.core.selector (s.core.x 7) = some (archived, 0, 1, 2)) ∧
    (Effective 0 [.x 7, .x 8, .x 4] s ∧ (s.core.x 8).toNat < 2 ^ 56 ∧ (s.core.x 8).toNat / 2 % 2 ^ 13 = 0 ∧ (s.core.x 8).getLsbD 0 = true ∧
      t.namesBlock t.core.asid archived.pool (s.core.x 8) = true ∧ t.namesBlock t.core.asid archived.pool (s.core.x 9 ||| 1) = false ∧
      (s.core.x 9).getLsbD 0 = false) ∧
    ((s.core.x 10).toNat % 2 ^ 4 ≤ 4 ∧ (s.core.x 10).toNat / 2 ^ 4 % 2 ^ 4 = 0 ∧ (s.core.x 10).toNat < 2 ^ 14 ∧
      ∀ p ∈ (s.pool s.core.asid ((s.core.x 10).toNat / 2 ^ 8)).toList,
        pageBytes ((s.core.x 10).toNat % 2 ^ 4) ≤ p.bytes ∧ (s.core.x 9).toNat % p.bytes = 0) :=
  ⟨closes _ (by decide +kernel), by decide +kernel⟩

/-- A task's launch at the end of the probe's page; a gang's second member; a provisional task's post; a handler. -/
theorem test_witness_Submissions :
    let s := State.xs tk [(5, 0x6FC0), (6, 0x103FF), (7, 0x6FF0), (8, 0xFFFFFFFF)]
    let g := s.mapCore (fun c => { c with unit := some { probeUnit 0 with gang := true, member := 1, first := 895 } })
    let v := provisional s
    s.Closes (closedState s) ∧ g.Closes (closedState g) ∧ v.Closes (closedState v) ∧
    (Effective 0 [.x 5, .x 6, .x 4] s ∧ s.core.isGang = false ∧ s.core.xp 5 = false ∧ s.core.xp 6 = false ∧
      (s.core.x 5).toNat % 64 = 0 ∧ (s.core.x 5).toNat < 2 ^ 56 ∧ launchWordOk (s.core.x 6) = true ∧ s.isProv = false ∧
      ((closedState s).unitRelease scopePackage).core.r = s.core.r ∧ (closedState s).core.team = [(closedState s).core.id]) ∧
    (Effective 0 [.x 5, .x 6, .x 4] g ∧ g.core.isGang = true ∧ g.core.member ≠ 0) ∧
    (Effective 0 [.x 7, .x 8] s ∧ s.core.xp 7 = false ∧ s.core.xp 8 = false ∧ (s.core.x 7).toNat % 16 = 0 ∧ (s.core.x 7).toNat < 2 ^ 56 ∧
      (s.core.x 8).toNat < 2 ^ 32 ∧ s.translate s.core.asid (s.core.x 7).toNat .write = .ok 0x6FF0 ∧ s.canDefer = true ∧
      (closedState s).provOf (closedState s).core = none) ∧
    (Effective 0 [.x 7, .x 8] v ∧ v.canDefer = true ∧ v.core.isGang = false ∧ v.translate v.core.asid (v.core.x 7).toNat .write = .ok 0x6FF0 ∧
      ((closedState v).provOf (closedState v).core).isSome = true) ∧
    (inHandler.core.sys.intrap = true ∧ Effective 0 [.x 5, .x 6, .x 4] inHandler ∧ Effective 0 [.x 7, .x 8] inHandler) :=
  ⟨closes _ (by decide +kernel), closes _ (by decide +kernel), closes _ (by decide +kernel), by decide +kernel⟩

/-- The state with signals 0, 1, … as declared, every slot of one as given. -/
def withSigs (s : State) (l : List (SigDecl × SlotState)) : State := s.mapCore (fun c =>
  let unit : SigUnit := ⟨l.map (fun e => some e.1), l.map (fun e => ⟨List.replicate e.1.slots e.2, -1, 0⟩), [], [], [], []⟩
  { c with sig := unit })

/-- The state with a port q0 on signal 0. -/
def withPort (s : State) (t : Tap) : State := s.mapCore (fun c =>
  let regs := { c.r with q := c.r.q.set 0 (some t) }
  { c with r := regs })

/-- The state with the bed's doublewords from an address on. -/
def withBed (s : State) (a : Nat) (ws : List Word) : State :=
  s.mapCore (fun c => { c with mem := { c.mem with bed := c.mem.bed.write a (ws.flatMap (bytesOf · 8)) } })

/-- The state with a tile queue. -/
def withTiles (s : State) (l : List TileOp) : State := s.mapCore (fun c => { c with mx := { c.mx with queue := l.map (fun o => ⟨o, 0, 0⟩) } })

/-- Two, and three, accesses one after another. -/
theorem allowed2 {ε φ : Type} {x : Except ε State} {f : State → Except φ State}
    (h : (match x with
      | .ok t => (match f t with
        | .ok _ => true
        | _ => false)
      | _ => false) = true) : ∃ t v, x = .ok t ∧ f t = .ok v := by
  cases x with
  | error _ => exact absurd h Bool.false_ne_true
  | ok t =>
    obtain ⟨v, e⟩ := allowed h
    exact ⟨t, v, rfl, e⟩

theorem allowed3 {ε φ ψ : Type} {x : Except ε State} {f : State → Except φ State} {g : State → Except ψ State}
    (h : (match x with
      | .ok t => (match f t with
        | .ok u => (match g u with
          | .ok _ => true
          | _ => false)
        | _ => false)
      | _ => false) = true) : ∃ t u v, x = .ok t ∧ f t = .ok u ∧ g u = .ok v := by
  cases x with
  | error _ => exact absurd h Bool.false_ne_true
  | ok t =>
    obtain ⟨u, v, e⟩ := allowed2 h
    exact ⟨t, u, v, rfl, e⟩

/-- Two archived signals of 64 BF16 elements, their range below the pending sample. -/
def keySig : SigDecl := { archived with sizek := 4, tag := tBF16, adepth := 64, slots := 1 }

/-- The tile operations' core beside core 3: a profile, operands at the last images that fit, a descriptor of an ATTN at 64. -/
def matrix : State := withBed (withSigs (undone ((State.xs beside [(5, 0), (6, 0x17E000), (7, 0x17DE00), (8, 0x77E000), (9, 0x1F7E000), (10, 0x17C000),
  (11, 0x17C200), (12, 1), (14, 64)]).mapCore (fun c => { c with sys := { c.sys with profLo := 0x9101, lineEnd := 0x8000 } })) 32)
    [(keySig, ⟨3, 0, true, 0, []⟩), (keySig, ⟨3, 0, true, 0, []⟩)]) 64 [0x100, 0x3F800000, 0x10000, 3 <<< 24, 0, 0, 0, 0]

/-- MMA on the last image of the bed in both lengths, on a line another region has written, on core 3's bed and on that of core 15, which runs
nothing of the launch. -/
theorem test_witness_TileOperations_mma :
    let s := matrix
    let an := fun (mx : Bool) => if mx then 17408 else 16384
    let a := (Opnd.bed 0).tagged 16384
    (∃ t, s.tagRanges s.core.id .read (a ++ [(0x17E000, 8192)]) = .ok t) ∧
    (∃ t v, s.tagRanges s.core.id .read a = .ok t ∧ t.tagRanges 3 .read [(0x17E000, 8192)] = .ok v) ∧
    Effective 0 (aRegs (.reg 5) ++ [.x 6]) s ∧ s.core.tileRoom ∧ s.core.aPoison (.reg 5) = false ∧ s.core.xp 6 = false ∧ s.core.profile = some 0x9101 ∧
    s.core.aOperand (.reg 5) (an false) 16384 (an false) (modeTag 0 false) = .at_ (.bed 0) ∧ (s.core.x 6).toNat % 512 = 0 ∧
    (s.core.x 6).toNat + 8192 = 0x180000 ∧ s.core.aOperand (.reg 5) (an true) 32768 (an true) (modeTag 5 false) = .at_ (.bed 0) ∧
    (s.core.x 7).toNat % 512 = 0 ∧ (s.core.x 7).toNat + 8704 = 0x180000 ∧
    (taken s 0x17E000).tagRanges s.core.id .read (a ++ [(0x17E000, 8192)]) = .error (some 0x17E000) ∧
    (s.core.x 8).toNat < 2 ^ 25 ∧ (s.core.x 8).toNat % 2 ^ 21 = 0x17E000 ∧ clusterOf s.core.id * 16 + (s.core.x 8).toNat / 2 ^ 21 = 3 ∧
    (s.core.x 9).toNat < 2 ^ 25 ∧ clusterOf s.core.id * 16 + (s.core.x 9).toNat / 2 ^ 21 = 15 ∧ s.reaches 15 = false ∧ s.reaches 3 = true :=
  ⟨allowed (by decide +kernel), allowed2 (by decide +kernel), by decide +kernel⟩

/-- A full tile queue; MLD and MST of the last image, one past it and an address that is no multiple; ports on and off their rate; the vector tags of
MROW. -/
theorem test_witness_TileOperations :
    let s := matrix
    let d : SigDecl := { archived with sizek := 12, arch := false, slots := 1 }
    let p := fun (sel : Bool) => withPort (withSigs tk [(d, ⟨3, 0, sel, 0, []⟩)]) ⟨0, 0, 0, 0⟩
    (∃ t, s.tagRanges s.core.id .read [(0x17C000, 16384)] = .ok t) ∧ (∃ t, s.tagRanges s.core.id .write [(0x17C000, 16384)] = .ok t) ∧
    (Effective 0 [] s ∧ ¬(withTiles s (List.replicate 8 (.mzero 0))).core.tileRoom) ∧
    (Effective 0 [.x 10] s ∧ s.core.xp 10 = false ∧ (s.core.x 10).toNat % 512 = 0 ∧ (s.core.x 10).toNat + 16384 = 0x180000 ∧
      0x180000 < (s.core.x 11).toNat + 16384 ∧ (s.core.x 11).toNat % 512 = 0 ∧ (s.core.x 12).toNat % 512 ≠ 0) ∧
    ((s.core.tile 7).poison = false ∧ s.core.sys.intrap = false ∧ s.core.rg.undoCount + 16384 / 512 ≤ 96 ∧
      s.core.sys.lineEnd ≤ (s.core.x 10).toNat) ∧
    ((p true).core.q 0 = some ⟨0, 0, 0, 0⟩ ∧ (p true).core.decl 0 = some d ∧ d.written = true ∧ d.size = 32768 ∧ d.tag = imgTag 0 ∧
      (p true).core.tileRoom ∧ Effective 0 [] (p true) ∧ (p true).core.pendingNow d 0 0 = true ∧ (p false).core.pendingNow d 0 0 = false ∧
      ((p true).core.tile 0).poison = false) ∧
    (Effective 0 [.v 1] (State.vs s 1 0 tF32) ∧ ((State.vs s 1 0 tI32).core.v 1).tag = tI32 ∧ (s.core.v 1).tag ≠ tF32 ∧ (s.core.v 1).tag ≠ tI32) :=
  ⟨allowed (by decide +kernel), allowed (by decide +kernel), by decide +kernel⟩

/-- An ATTN of three positions in the line store. -/
theorem test_witness_TileOperations_attn :
    let s := matrix
    let w := s.bedWords 64 8
    let o : XAttn := ⟨0, 0, .reg 5, 14, false, true, true, false, 0⟩
    let op := attnOf o (.bed 0) 0x9101 s.core.sys.margin 4 w
    (∃ t u v, s.tagRanges s.core.id .read ((64, 64) :: ((Opnd.bed 0).tagged 16384 ++ [] ++ [(0x10000, 1024)])) = .ok t ∧
      t.tagSamples op.slot ((List.range (op.khi - op.klo)).flatMap (fun i => [(op.ksig, op.klo + i), (op.vsig, op.klo + i)])) = .ok u ∧
      u.tagRanges u.core.id .write [(0x10000, 1024)] = .ok v) ∧
    Effective 0 (aRegs (.reg 5) ++ [.x 14]) s ∧ (s.core.x 14).toNat = 64 ∧ s.core.tileHolds 64 64 false = false ∧
    ((s.core.slotState ((w.getD 0 0).extractLsb' 0 8).toNat ((w.getD 0 0).extractLsb' 16 8).toNat).n + 1).toNat = 4 ∧
    s.core.tablePending op.ksig = false ∧ s.core.tablePending op.vsig = false ∧ s.core.attnFault (.reg 5) op w = none ∧
    s.core.aOperand (.reg 5) (128 * op.d * op.esize) (128 * op.d * op.esize) (128 * op.d * op.esize) (attnTag op.fmt) = .at_ (.bed 0) ∧
    s.core.attnAddrFault op = none ∧ op.normBytes = 0 ∧ op.state = 0x10000 ∧ s.core.rg.undoCount + 2 ≤ 96 :=
  ⟨allowed3 (by decide +kernel), by decide +kernel⟩

/-- A tile that is busy and one that is not; a scale vector of FP32 and one of no tag; a group with the core's own bit, without it, and a word of 17
bits. -/
theorem test_witness_TileRegisters :
    let s := State.vs (State.xs (withTiles tk [.mzero 1]) [(5, 0xFFFFFFFF), (6, 0xFFFF), (7, 2), (8, 0x10000)]) 1 0 tF32
    (Effective 0 [.v 3] s ∧ s.core.busy 0 = false ∧ s.core.busy 1 = true) ∧
    (Effective 0 (srcRegs (.reg 1) ++ [.x 5]) s ∧ s.core.vsrc (.reg 1) = .val ⟨0, tF32, false⟩ ∧ (s.core.x 5).toNat < 2 ^ 32 ∧
      s.core.vsrc (.reg 2) = .val ⟨0, tINVALID, false⟩) ∧
    (Effective 0 [.x 6] s ∧ (s.core.x 6).toNat < 2 ^ 16 ∧ (s.core.x 6).getLsbD (placeOf s.core.id) = true ∧ s.core.x 0 = 0 ∧ s.core.x 7 ≠ 0 ∧
      (s.core.x 7).getLsbD (placeOf s.core.id) = false ∧ 2 ^ 16 ≤ (s.core.x 8).toNat) := by decide +kernel

/-- A descriptor of one level and one bundle at 64, and the core about to load it. -/
def sequenced : State := withBed (State.xs tk [(5, 64), (6, 65), (7, 0x180000)]) 64 [0, 1, 4]

/-- The same where the bundle behind it stands on a page that is not mapped. -/
def unfetched : State := sequenced.mapCore (fun c => { c with ctl := { c.ctl with pc := 0x6FE0 } })

theorem test_witness_Sequencer :
    let s := sequenced
    let p : SeqProg := ⟨0, 0, 0, [⟨false, 0, 4⟩], [], [[0]]⟩
    (∃ t, s.tagRanges s.core.id .read [(64, 24)] = .ok t) ∧
    (Effective 0 [.x 5] s ∧ s.core.xp 5 = false ∧ (s.core.x 5).toNat % 64 = 0 ∧ (s.core.x 5).toNat + 64 ≤ 0x180000 ∧
      seqHeadOk ((s.seenBed s.core.id).readW 64) ((s.seenBed s.core.id).readW 72) = true ∧ seqWords ((s.seenBed s.core.id).readW 64) = 3 ∧
      s.core.tileHolds 64 24 false = false) ∧
    (match s.tagRanges s.core.id .read [(64, 24)] with
      | .ok t => (match t.fetchRun t.core.asid (seqTotal ((s.seenBed s.core.id).readW 72)) (t.core.ctl.pc.toNat + 32) with
        | .ok bs => (t.core.seqProgram (t.bedWords 64 3) bs).isSome
        | _ => false)
      | _ => false) = true ∧
    (match unfetched.tagRanges unfetched.core.id .read [(64, 24)] with
      | .ok t => (match t.fetchRun t.core.asid (seqTotal ((unfetched.seenBed unfetched.core.id).readW 72)) (t.core.ctl.pc.toNat + 32) with
        | .ok _ => false
        | _ => true)
      | _ => false) = true ∧
    ((State.bad s 5).core.xp 5 = true ∧ (s.core.x 6).toNat % 64 ≠ 0 ∧ (s.core.x 7).toNat % 64 = 0 ∧ 0x180000 < (s.core.x 7).toNat + 64) ∧
    (s.mapCore (fun c => { c with seqr := { c.seqr with prog := some p } })).core.seqr.prog = some p ∧
    s.core.seqr.prog = none ∧ Effective 0 [.x 4] s ∧ (∀ n : BitVec 4, n ≠ 7 → n.toNat < 14 → (Instr.sqst ⟨0, 4, n⟩).WellFormed) :=
  ⟨allowed (by decide +kernel), by decide +kernel⟩

/-- A gang of two, the second member with the same signal; the archive's block in the probe's page. -/
def shared (t : Tap) : State :=
  let u : UnitInfo := { probeUnit 0 with gang := true, members := 2 }
  let d : SigDecl := { archived with adepth := 64 }
  let l : SigUnit := ⟨[some d], [⟨[⟨20, 4, true, 0, [0x4001]⟩, ⟨20, 4, true, 0, []⟩], -1, 0⟩], [], [], [], []⟩
  let s := (withPort tk t).mapCore (fun c => { c with unit := some u, sig := l })
  { s with others := [(1, { Core.reset 1 with unit := some { u with member := 1 }, sig := l })] }

/-- Lags at the limit and one below it; a sample below the floor, another member's, an archived one; a part of the pending sample on its rate and
off it; slots at the last and past it; SIGRST in and outside privileged state. -/
theorem test_witness_Signals :
    let d : SigDecl := { archived with adepth := 64 }
    let s := State.xs (shared ⟨0, 17, 0, 0⟩) [(5, 0x100003F), (6, 0x40), (7, 0x1F00000001), (8, 1), (9, 2), (10, 0x17FFE0), (11, 0x1F00000000)]
    (Effective 0 [] s ∧ s.core.decl 0 = some d ∧ (63#15).toNat < d.lagLimit ∧ d.lagLimit ≤ (64#15).toNat) ∧
    (Effective 0 [.x 5] s ∧ s.core.xp 5 = false ∧ (s.core.x 5).toNat < 2 ^ 37 ∧ (s.core.x 5).toNat % 2 ^ 24 < d.lagLimit ∧
      (s.core.x 5).toNat / 2 ^ 24 % 2 ^ 8 < d.slots ∧ ((s.core.x 5).extractLsb' 32 5).toInt = 0 ∧ d.lagLimit ≤ (s.core.x 6).toNat % 2 ^ 24 ∧
      (s.core.x 7).toNat < 2 ^ 37 ∧ ((s.core.x 7).extractLsb' 32 5).toInt = -1 ∧ d.written = true ∧ (s.core.x 7).toNat % 2 ^ 24 = 1 ∧
      (s.core.x 11).toNat % 2 ^ 24 = 0 ∧ ((s.core.x 11).extractLsb' 32 5).toInt = -1 ∧ (s.core.x 11).toNat < 2 ^ 37) ∧
    (s.core.q 0 = some ⟨0, 17, 0, 0⟩ ∧ Effective 0 (tapRegs (some d) false 8) s ∧ tapFits d false 0 8 = true ∧ d.partBytes = 512) ∧
    ((shared ⟨0, 3, 0, 0⟩).core.tapRead ⟨0, 3, 0, 0⟩ 0 512 = .bytes (List.replicate 512 0) false) ∧
    (let p : Tap := ⟨0, 3, 1, 0⟩; let s := shared p;
      s.core.tapRead p 0 512 = .remote 1 17 ∧ (s.core.slotState 0 0).floor ≤ 17 ∧ p.lag < d.depth ∧ 17 ≤ (s.coreOf 1).sealedIdx d 0 0) ∧
    (let p : Tap := ⟨0, 17, 1, 0⟩; let s := shared p; s.core.tapRead p 0 512 = .remote 1 3 ∧ 3 < (s.core.slotState 0 0).floor) ∧
    (let ahead := withSigs (shared ⟨0, 3, 1, 0⟩) [(d, ⟨40, 4, true, 0, []⟩)]; let p : Tap := ⟨0, 3, 1, 0⟩;
      ahead.core.tapRead p 0 512 = .remote 1 37 ∧ (ahead.coreOf 1).sealedIdx d 0 0 < 37) ∧
    (withSigs tk [(ingress, ⟨3, 0, true, 0, []⟩)]).core.tapRead ⟨0, 0, 0, 0⟩ 0 512 = .wait ∧
    (let d : SigDecl := { archived with sizek := 0, arch := false, slots := 1 };
      let p := fun (sel : Bool) => withPort (withSigs tk [(d, ⟨3, 0, sel, 0, []⟩)]) ⟨0, 0, 0, 0⟩;
      (p true).core.q 0 = some ⟨0, 0, 0, 0⟩ ∧ (p true).core.decl 0 = some d ∧ Effective 0 (tapRegs (some d) true 5) (p true) ∧
      tapFits d true 0 5 = true ∧ (p true).core.pendingNow d 0 0 = true ∧ ((p true).core.tapSource d true 5).2.2 = true ∧
      ((p true).core.tapSource d true 5).2.1 = false ∧ (p true).core.tileHolds (d.pos 0 3) 8 true = false ∧
      (p false).core.pendingNow d 0 0 = false ∧ (undone (p true) 95).core.rg.undoCount < 96) ∧
    (Effective 0 [.x 8, .x 4] s ∧ (s.core.x 8).toNat < d.slots ∧ d.slots ≤ (s.core.x 9).toNat ∧ d.kind = 0 ∧ d.arch = true) ∧
    ((s.core.x 10).toNat % 32 = 0 ∧ (s.core.x 10).toNat + 32 = 0x180000 ∧ s.core.tileHolds 0x17FFE0 32 false = false ∧
      (s.seenBed s.core.id).readNat 0x17FFE0 32 < 2 ^ d.slots ∧ d.slots ≤ 256 ∧ Effective 0 [.x 10] s ∧ s.core.xp 10 = false) ∧
    (s.core.sys.priv = false ∧ (State.privileged s).core.sys.priv = true ∧ (State.privileged s).core.decl 0 = some d ∧
      Effective 0 [] (State.privileged s)) :=
  by and_intros <;> decide +kernel

/-- An archived sample of the own share and of another member's: with its block, and without one. -/
theorem test_witness_Signals_archive :
    let d : SigDecl := { archived with adepth := 64 }
    let own : Tap := ⟨0, 4, 0, 0⟩
    let far : Tap := ⟨0, 4, 1, 0⟩
    let bare : Tap := ⟨0, 4, 1, 1⟩
    let s := shared own
    s.core.tapRead own 0 512 = .archive 16 ∧ (s.core.slotState 0 0).floor ≤ 16 ∧ s.core.tablePending 0 = false ∧
    (shared far).core.tapRead far 0 512 = .remote 1 16 ∧ d.arch = true ∧ d.depth ≤ far.lag ∧
    (16 : Int) ≤ ((s.coreOf 1).slotState 0 0).n - (d.depth : Int) ∧ (s.coreOf 1).tablePending 0 = false ∧
    s.core.archiveVa d 0 0 16 = .ok 0x6000 ∧ (s.coreOf 1).archiveVa d 0 0 16 = .ok 0x6000 ∧
    s.span s.core.asid 0x6000 d.size .read = .ok [(0x6000, 512)] ∧ (shared bare).core.tapRead bare 0 512 = .remote 1 16 ∧
    (match (s.coreOf 1).archiveVa d 0 1 16 with
      | .ok _ => false
      | .error _ => true) = true := by and_intros <;> decide +kernel

/-- A gang of the launch. -/
def ofLaunch (l : Launch) : State :=
  { tk.mapCore (fun c => { c with unit := some { probeUnit 0 with gang := true, launch := 1 } }) with disp := { tk.disp with launches := [l] } }

/-- An archived signal of one slot whose write-back of the next tick needs a block it does not have. -/
def unbacked : State := withSigs gg [({ archived with slots := 1 }, ⟨7, 0, true, 0, [0, 0, 0]⟩)]

/-- A tick that nothing holds back, one whose FAULT sample is unwritten, the last, two that wait: for room of an EGRESS signal and for the shape;
one begun before; one that a tile entry, and one that a table, holds back; one without its block. -/
theorem test_witness_Ticks :
    let guarded : SigDecl := { egress with fault := true }
    let open_ := fun (s : State) => s.core.sys.intrap = false ∧ s.core.ctl.begun = none ∧ s.core.tickEarly = false ∧ reaches s = true ∧
      (closedState s).core.mx.queue.any (·.op.usesSample) = false
    let last := fun (s : State) => s.lastTick = some (s.core.sys.tick.toNat + 1)
    let free := ofLaunch { oneLaunch with final := none }
    let full := withSigs (ofLaunch { oneLaunch with final := none }) [(egress, ⟨3, 0, true, 0, []⟩)]
    let early := ofLaunch { oneLaunch with final := none, waits := true, pred := 1 }
    let unset := withSigs gg [(guarded, ⟨0, 0, true, 0, []⟩)]
    (open_ free ∧ free.core.unwritten = false ∧ ¬last free ∧ free.core.missingBlock = none ∧ (closedState free).tickWaits = false ∧
      (closedState free).windowsOpen = true) ∧
    (open_ unset ∧ unset.core.unwritten = true) ∧ (open_ (ofLaunch oneLaunch) ∧ last (ofLaunch oneLaunch)) ∧
    (open_ full ∧ full.core.unwritten = false ∧ ¬last full ∧ full.core.missingBlock = none ∧ (closedState full).windowsOpen = false) ∧
    (open_ early ∧ ¬last early ∧ (closedState early).tickWaits = true) ∧
    (free.mapCore (fun c => { c with ctl := { c.ctl with begun := some 7 } })).core.ctl.begun ≠ none ∧
    ((withTiles free [.mstSig 0 0 0 0 0 false]).mapCore (fun c => { c with pipe := { c.pipe with seq := 1 } })).core.tickEarly = true ∧ inHandler.core.sys.intrap = true := by and_intros <;> decide +kernel

theorem test_witness_Ticks_block :
    unbacked.core.tickEarly = false ∧ unbacked.core.unwritten = false ∧ unbacked.core.missingBlock.isSome = true ∧
    unbacked.lastTick ≠ some (unbacked.core.sys.tick.toNat + 1) ∧ tk.Closes (closedState tk) ∧
    (closedState (withTiles tk [.mstSig 0 0 0 0 0 false])).core.mx.queue.any (·.op.usesSample) = true := by
  refine ⟨by decide +kernel, by decide +kernel, by decide +kernel, by decide +kernel, closes _ (by decide +kernel), ?_⟩
  decide +kernel

/-- A bundle at the core's pc that is to be marked; the same with a failed load on record, and with one store in the gate. -/
def marking : State := tk.mapCore (fun c => { c with ctl := { c.ctl with nextMarked := true } })
def markingFailed : State := marking.mapCore (fun c =>
  { c with pipe := { c.pipe with reqs := [⟨0, 0, 3, [.x 9], true, none, .failed (precise poisonConsumed 3), none⟩], seq := 1 } })

/-- A result arrived, a cluster awake, a team that would freeze, a core due for ballast. -/
def heavy : State := { (marking.mapCore (fun c => { c with pw := ⟨[(99, 5825, 0), (30, 9000, 0)], 0, false⟩, sys := { c.sys with wakes := [(3, 0)] } })) with
  cycle := 100 }
def heavier : State := { heavy with cycle := 120 }

theorem test_witness_CoreEvents :
    (let f := marking.focus 0;
      (match f.nextBundle f.core with | .ok w => w == 0 | _ => false) = true ∧ f.runs 0 = true ∧ f.core.marks (decodeBundle 0) = true ∧
      f.core.failedLoad = none ∧ f.core.anyPend = false ∧ f.core.rg.gate = [] ∧ (∀ g ∈ f.core.pipe.flights, g.count ≤ maxCount) ∧
      (match f.mark with | .ok _ => true | _ => false) = true) ∧
    (let f := markingFailed.focus 0;
      f.runs 0 = true ∧ f.core.marks (decodeBundle 0) = true ∧ f.mark = .fail (precise poisonConsumed 3)) ∧
    (let r : Request := ⟨7, 0, 3, [.x 9], true, none, .lands [.x 9 1 false], none⟩;
      let s := tk.mapCore (fun c => { c with pipe := { c.pipe with reqs := [r], seq := 1 } });
      (s.coreOf 0).pipe.reqs.find? (fun r => r.num == 7 && (s.coreOf 0).arrivable r) = some r) ∧
    (3, 0) ∈ (heavy.coreOf 0).sys.wakes ∧
    ((heavy.coreOf 0).team = [0] ∧ heavy.wouldFreeze 0 = true ∧ heavy.Numbered) ∧ (heavier.ballastDue 0 = true) := by
  and_intros <;> first | exact numbered rfl | decide +kernel

/-- A rollback fault on a core with a mark and without one; a core that holds a shadow, an undo record and a shadowed tile. -/
theorem test_witness_Exceptions :
    let r := precise poisonConsumed 1
    let s := tk.mapCore (fun c => { c with sys := { c.sys with markv := true } })
    let h : Shadow := ⟨tk.core.r, tk.core.seqr, 0x6000, 0, 0, none, 0, 4, 15, [], [], [], [], 0, 0⟩
    let c := { tk.core with rg := { tk.core.rg with shadow := some h, tiles := [(7, Tile.launch)] } }
    let f := s.focus 0
    (f.core.unit ≠ none ∧ r.origin ≠ 2 ∧ r.code ≠ gateOverflow ∧ f.core.sys.intrap = false ∧ f.core.team = [0] ∧ (f.coreOf 0).sys.markv = true ∧
      f.serviceOf (asRollback r) = .declined ∧ ((tk.focus 0).coreOf 0).sys.markv = false ∧ f.Numbered) ∧
    c.rg.shadow = some h ∧ c.pastMark = false ∧ (c.rg.tiles.map (·.1)).Nodup ∧ 7 ∈ c.rg.tiles.map (·.1) ∧ 0 ∉ c.rg.tiles.map (·.1) ∧
    Memory.wf [(5, 1)] := by and_intros <;> first | exact numbered rfl | decide +kernel

/-- Each operation at the head of the queue, the highest tile and row; a poisoned tile; an ATTN before its first key tile, at one and past its last;
a fault to report. -/
theorem test_witness_TileEntries :
    let q := fun (op : TileOp) => let f := (withTiles tk [op]).focus 0
      f.core.mx.queue = [⟨op, 0, 0⟩] ∧ f.core.mx.fault = none ∧ f.core.mx.held = false
    let still := fun (held : Bool) (f : Option FaultRec) => ((withTiles tk [.mzero 0]).mapCore (fun c => { c with mx := { c.mx with held := held, fault := f } })).focus 0
    let bad := (withTiles tk [.mstBed 7 0 0 true]).mapCore (fun c => c.setTile 7 { c.tile 7 with poison := true })
    let o : AttnOp := ⟨0, .bed 0, 0, false, true, true, false, 0x9101, 0, 0, 1, 0, 128, false, 0, 0, 0x10000, 0, 64, 0, none, [], [], false, none⟩
    q (.mzero 7) ∧ q (.mld 7 0x178000 0) ∧ q (.mrowW 7 127 0 true) ∧ q (.mma 7 (.bed 0) 0x17E000 none 4 false false true false 0x9101 0 0 false) ∧
    q (.mstBed 7 0x178000 0 true) ∧ ((withTiles tk [.mstBed 7 0 0 true]).core.tile 7).poison = false ∧ (bad.core.tile 7).poison = true ∧
    q (.attn o) ∧ o.next = none ∧ (q (.attn { o with next := some 1 }) ∧ o.khi ≤ 64 * 1) ∧
    (q (.attn { o with next := some 0, maps := some [] }) ∧ o.klo < o.khi ∧ 64 * 0 < o.khi ∧ (profileOf o.prof).isSome = true) ∧
    (still false (some (precise poisonConsumed 7))).core.mx.fault = some (precise poisonConsumed 7) ∧ (still true none).core.mx.held = true ∧
    (List.replicate 16384 (0 : Byte)).length = 16384 ∧ (List.replicate 8192 (0 : Byte)).length = 8192 ∧ (profileOf 0x9106).isSome = true ∧
    127 < 128 ∧ 63 < 64 ∧ 4 < 5 := by and_intros <;> decide +kernel

/-- The state with a copy-engine queue. -/
def withQueue (s : State) (q : Nat) (x : Queue) : State := s.mapCore (fun c => { c with eng := c.eng.set! q x })

/-- An entry of a handler's. -/
def entry (cmd : Cmd) : QEnt := ⟨cmd, 0, false, none, none, none, 0, Progress.start⟩

/-- What a fence's mask, or the queue's state, leads to; a copy from memory, from a bed, to memory; accumulating writes; the end of a unit with an
ingress command left. -/
theorem test_witness_CommandEvents :
    (let q := fun (cmd : Cmd) (x : Option FaultRec) (t : Option (Word × Family)) => let f := (withQueue tk 3 ⟨[entry cmd], t, x⟩).focus 0;
        (f.core.queue 3).ents = entry cmd :: [] ∧ (entry cmd).held = none ∧ f.core.unit ≠ none ∧ (f.core.queue 3).faulted = x ∧
        (f.core.queue 3).target = t;
      q (.copy 0 0 1) (some (precise poisonConsumed 3)) none ∧ q (.notify 0 ⟨0, 0⟩) none (some (1, ⟨1, 2 ^ 60⟩)) ∧ q (.notify 1 ⟨0, 0⟩) none none ∧
      q (.fence 5 8) none none ∧ q (.copy 0x6800 0x6000 64) none none ∧ q (.accw .add true 0x6FF8 1 0 0) none none ∧
      q (.accw .faddq true 0x6FF8 1 0 0) none none ∧ q (.copyIn 0 0x6000 1) none none) ∧
    (let ends := tk.mapCore (fun c => { c with ctl := { c.ctl with after := some (.ending .retf) } }); ends.core.endWait = true) ∧
    (let f := (withQueue (withQueue tk 3 ⟨[entry (.fence 5 12)], none, none⟩) 2 ⟨[entry (.copy 0 0 1), entry (.fence 5 12)], none, none⟩).focus 0;
      (12#4).getLsbD 2 = true ∧ ∀ h ∈ (f.core.queue 2).ents.head?, h.cmd ≠ .fence 5 12) ∧
    (let cmd := Cmd.copy 0x6800 0x6000 64
      let f := (withQueue tk 3 ⟨[entry cmd], none, none⟩).focus 0
      let r : Run := ⟨f, 0, none, 3, Progress.start⟩
      f.region 0 = none ∧ f.entryProv (entry cmd) = none ∧ f.ownProv f.core = [] ∧ 64 ≤ 64 - 0x6000 % 64 ∧ 64 ≤ 64 - 0x6800 % 64 ∧ 0x6800 < portPa ∧
      f.portChannel f.core.asid 0x6800 = none ∧
      (match r.locate 0x6000 64 .read with | .ok l => l == .mem 0x6000 | _ => false) = true ∧
      (match r.locate 0x6800 64 .write with | .ok l => l == .mem 0x6800 | _ => false) = true ∧
      (match r.locate 0xFF000000000000 64 .read with | .ok l => l == .bed 0 0 | _ => false) = true ∧ (f.coreOf 0).tileHolds 0 64 false = false ∧
      (match r.locate 0x6FF8 8 .both with | .ok l => l == .mem 0x6FF8 | _ => false) = true ∧ linesPoisoned f.poisoned 0x6FF8 8 = false) ∧
    (let cmd := Cmd.copy 0x6800 0x6000 64
      let s := withQueue (provisional tk) 3 ⟨[entry cmd], some (1, ⟨1, 2 ^ 60⟩), none⟩
      (s.core.queue 3).target = some (1, ⟨1, 2 ^ 60⟩) ∧ cmd.noticed = true ∧ (s.core.unit.map (·.family)).isSome = true ∧
      s.core.unit.map (·.family) ≠ some ⟨1, 2 ^ 60⟩) := by and_intros <;> decide +kernel

/-- The run and no stop, where none stopped it. -/
theorem readAll {x : Run × Option Stop} (h : x.2.isNone = true) : ∃ r, x = (r, none) := by
  obtain ⟨r, o⟩ := x
  cases o
  · exact ⟨r, rfl⟩
  · exact absurd h Bool.false_ne_true

/-- An INGRESS sample that its window admits and one it does not; an EGRESS sample that is sealed and one that is not; a mirror's next sample. -/
theorem test_witness_CommandEvents_ingress :
    let e := entry (Cmd.copyIn 0 0x6000 1)
    let s := fun (n : Int) => withQueue (withSigs tk [(ingress, ⟨n, 0, true, 0, []⟩)]) 3 ⟨[e], none, none⟩
    let k := ((s 0).focus 0).core
    (∃ r, (((s 0).focus 0).beginRun 3 e).readLines false (rangeFrom 0x6000 ingress.size e.pr.got.length) = (r, none)) ∧
    (k.queue 3).ents = e :: [] ∧ (k.queue 3).faulted = none ∧ k.decl 0 = some ingress ∧ k.endWait = false ∧
    ((k.sig.st[0]?).map (·.arr)).getD (-1) + 1 - (k.slotState 0 0).n < (ingress.depth : Int) - (ingress.lag : Int) ∧
    k.tileHolds (ingress.pos 0 0) ingress.size true = false ∧
    (let k := ((s (-2)).focus 0).core;
      (ingress.depth : Int) - (ingress.lag : Int) ≤ ((k.sig.st[0]?).map (·.arr)).getD (-1) + 1 - (k.slotState 0 0).n) :=
  ⟨readAll (by decide +kernel), by decide +kernel⟩

theorem test_witness_CommandEvents_egress :
    let e := entry (Cmd.copyOut 0x6000 0 1)
    let s := fun (n : Int) => withQueue (withSigs tk [(egress, ⟨n, 0, false, 0, []⟩)]) 3 ⟨[e], none, none⟩
    let f := (s 0).focus 0
    (∃ r, ((f.beginRun 3 e).have_ (f.core.ringMarked egress 0 0 0)).writeLines (rangeFrom 0x6000 egress.size e.pr.put) = (r, none)) ∧
    (f.core.queue 3).ents = e :: [] ∧ f.core.decl 0 = some egress ∧ (0 : Int) ≤ f.drainable egress 0 ∧
    f.core.tileHolds (egress.pos 0 0) egress.size false = false ∧ ((s (-1)).focus 0).drainable egress 0 < 0 :=
  ⟨readAll (by decide +kernel), by decide +kernel⟩

theorem test_witness_CommandEvents_mirror :
    let d : SigDecl := { ingress with kind := 1 }
    let m : MirrorMsg := ⟨1, 0, 0, 0, 0, List.replicate 512 0, [], none⟩
    let s := withSigs { ofLaunch oneLaunch with disp := { (ofLaunch oneLaunch).disp with mirrors := [m] } } [(d, ⟨0, 0, true, 0, []⟩)]
    let k := s.coreOf 0
    let u : UnitInfo := { probeUnit 0 with gang := true, launch := 1 }
    k.id = 0 ∧ k.unit = some u ∧ s.launchOf u = some oneLaunch ∧ k.decl 0 = some d ∧
    s.disp.mirrors.find? (fun m => m.launch == oneLaunch.key && m.stage == u.stage && m.member == u.member && m.sig == 0) = some m ∧
    ((k.sig.st[0]?).map (·.arr)).getD (-1) < m.idx ∧ s.confirmed m.holds = true ∧ k.tileHolds (d.pos 0 m.idx) d.size true = false ∧
    m.bytes.length = d.size := by decide +kernel

/-- The probe's task at an end; the probe's context with nothing on core 0. -/
def ending (k : EndKind) : State := tk.mapCore (fun c => { c with ctl := { c.ctl with after := some (.ending k) } })
def idle : State := { tk with core := Core.reset 0 }

/-- A record of a task of context 1, and the state with its frame and with it at level 7 of a ready queue. -/
def aRecord : Rec := ⟨1, 0x6000, false, false, 0, 7, 0x6800, [1, 2, 3, 4, 5, 6], 0, none, none⟩
def readied : State := { idle with disp := { idle.disp with
  frames := [⟨1, 0x6800, 128, 0, 0, false, none, 64, 0, false⟩],
  ready := [⟨.cluster 0, 1, List.replicate 7 [] ++ [[.record aRecord]], 0⟩] } }

/-- The image of a gang's member, and the state it stands in. -/
def anImage : Image := ⟨9, { gg.core with mem := { gg.core.mem with tlb := [] } }, true, 0, 0⟩
def imaged : State := { idle with disp := { idle.disp with images := [anImage] } }

/-- The ends TEND and by a fault. -/
theorem test_witness_UnitEvents_ends :
    let q := fun (k : EndKind) => let f := (ending k).focus 0;
      f.core.unit = some (probeUnit 0) ∧ f.core.team = [0] ∧ (f.coreOf 0).endWait = true ∧
      (match f.settleAll 0 [0] with
        | .go t => !t.committing (probeUnit 0) && !t.dropWaits (probeUnit 0).family && t.canDefer && t.faultedQueues t.core.team == [] &&
            ((t.coreOf 0).ctl.after == some (.ending .fault)) == (k == .fault) && t.faultRoom (t.fnOf 1) 1
        | _ => false) = true
    q .tend ∧ q .fault := by decide +kernel

/-- Core 895, a yield, a post of 1,023 to flag 31, a pick, a start, a gang's member, one of a stream of no ticks, a pre-empted gang. -/
theorem test_witness_UnitEvents :
    (tk.coreOf 895).id = 895 ∧
    (let f := (ending .yield).focus 0;
      f.core.unit = some (probeUnit 0) ∧ (probeUnit 0).gang = false ∧ f.core.ctl.after = some (.ending .yield) ∧ f.core.ctl.dly = 0 ∧
      (match f.settle 0 with
        | .go t => !t.committing (probeUnit 0) && t.faultedQueues [t.core.id] == [] && (List.range 6).all (fun i => !t.core.xp (BitVec.ofNat 6 (8 + i)))
        | _ => false) = true) ∧
    (let p : Nat × Nat × Nat × Family := (0, 31, 1023, (probeUnit 0).family);
      let s : State := { tk with disp := { tk.disp with posts := [p] } };
      s.disp.waits = [] ∧ s.disp.posts.find? (fun p => p.1 == 0 && p.2.1 == 31 && p.2.2.1 == 1023) = some p ∧
      (s.coreOf 0).unit.map (·.family) = some p.2.2.2) ∧
    (readied.pickNow 0).map (·.what) = some (.record aRecord) ∧
    ((readied.coreOf 0).id = 0 ∧ (readied.ctx aRecord.asid).isSome = true ∧ (readied.frame aRecord.asid aRecord.frame).isSome = true ∧
      aRecord.carry.length = 6) ∧
    (let q := fun (d : List Word) (final : Option Nat) => let l : Launch := { oneLaunch with toStart := [(0, 0)], desc := d, final := final };
        let s : State := { idle with disp := { idle.disp with launches := [l] } };
        s.launch 1 = some l ∧ (s.ctx l.asid).isSome = true ∧ (0, 0) ∈ l.toStart ∧ l.placed.getD 0 0 + 0 = 0 ∧ (s.coreOf 0).id = 0;
      q [0x0300000000006000] (some 0) ∧ q [0x0100000000006000] none) ∧ dPredicted [0x0300000000006000] = true ∧
    (imaged.disp.images[0]? = some anImage ∧ anImage.gang = true ∧ anImage.core.id = 0 ∧
      imaged.canResume (imaged.imagesOf anImage.core.asid ((anImage.core.unit.map (·.launch)).getD 0)) = true ∧ imaged.disp.waits = []) := by
  and_intros <;> decide +kernel

/-- A save area of one image's size. -/
theorem test_witness_UnitEvents_preempt :
    let s : State := { tk with ctxs := [{ probeCtx with saveSize := Config.imageBytes }] }
    (s.coreOf 0).unit = some (probeUnit 0) ∧ (probeUnit 0).gang = false ∧ s.committing (probeUnit 0) = false ∧ s.saveRoom 1 1 = true ∧
    s.bedStill 0 (probeUnit 0) = true ∧ (s.coreOf 0).id = 0 := by
  refine ⟨by decide +kernel, by decide, by decide +kernel, ?_, by and_intros <;> decide +kernel⟩
  have e : State.ctx { tk with ctxs := [{ probeCtx with saveSize := Config.imageBytes }] } 1 = some { probeCtx with saveSize := Config.imageBytes } := rfl
  have i : tk.disp.images = [] := rfl
  simp [State.saveRoom, e, i]

/-- A walk to the probe's page and to one that is not mapped; a DRAINING block held and not; the page moved to the last place below 2^51. -/
theorem test_witness_StorageEvents :
    let w := fun (va : Word) => tk.mapCore (fun c => { c with pipe := { c.pipe with
      reqs := [⟨0, 0, 3, [.h 5], false, none, .lands [.h 5 ⟨.pending, va, 0, 0, 0, false, false, 0, 0⟩], none⟩], seq := 1 } })
    let d : State := { pooled with ctxs := pooled.ctxs.map (fun c => { c with pools := c.pools.map (fun p => { p with blocks := [(0, .draining)] }) }) }
    (let s := w 0x6FFF; let k := s.coreOf 0;
      k.id = 0 ∧ (k.pipe.reqs.find? (fun r => r.dests.contains (.h 5) && r.seq < k.pipe.seq)).isSome = true ∧
      s.cores.all (fun c => c.id == 0 || clusterOf c.id != clusterOf 0 || !(c.mem.tlb.any (·.covers k.asid 0x6FFF))) = true ∧
      k.mem.tlb.length < 64 ∧ (match s.walkAny k.asid 0x6FFF with | .page _ => true | _ => false) = true ∧
      (match s.walkAny k.asid 0x7000 with | .fail _ _ => true | _ => false) = true) ∧
    ((d.pool 1 5).bind (·.state 0) = some .draining ∧ d.held 1 5 0 = false ∧ ({ d with holds := [⟨1, 5, 0, 3, 0⟩] } : State).held 1 5 0 = true) ∧
    ((tk.ctx 1).isSome = true ∧ tk.walkAny 1 0x6000 = .page ⟨0x6000, 0, 0x6000, false, 0, true, true, true⟩ ∧
      (2 ^ 51 - 4096) % pageBytes 0 = 0 ∧ 2 ^ 51 - 4096 + pageBytes 0 ≤ 2 ^ 51 ∧ 0x6000 + pageBytes 0 ≤ 2 ^ 51 - 4096) ∧
    (Memory.wf [(0x6000, 1)] ∧ 0x6000 + 4096 ≤ 0x7000) ∧
    (let c := (handled.core.migrate 1 0x9000 0xA000 4096); c.asid = 1 ∧ (c.h 1).st = .valid) := by decide +kernel

/-- A gang's descriptor of one member, its module's record at 0x6400 all zero; a grid's of one block. -/
def gangDesc : List Word := [0x0100000000006000, 0, 0, 0x4000, 0x6400, 0, 0, 0]
def gridDesc : List Word := [0x0020000000006000, 1, 0, 0x4000, 0x6400, 0, 0, 0]

/-- A submission on its way to a queue of the context, and the state with the queue and with something in it. -/
def submitted (d : List Word) (kind : Nat) (q : HwQueue) : State := { idle with disp := { idle.disp with
  hw := [q], submits := [⟨kind, 1, 3, 0x6000, some d, none, none, none, [], none⟩] } }
def queue3 : HwQueue := ⟨3, 1, 7, 0, 0, []⟩

/-- A queue that does not exist, is another's, is full, has room; a sound gang, an unsound one, a graph; a head to place; a launch done and not; a post to
a cell open and final, for a launch and for none; a block to commit, one at the floor and one below it. -/
theorem test_witness_LaunchEvents :
    (let s := submitted gangDesc 1 queue3; let v : State := { s with disp := { s.disp with submits := [] } };
      s.disp.submits.length = 1 ∧ s.hwq 3 = some queue3 ∧ s.hwq 4 = none ∧ queue3.owner = 1 ∧ s.mayRun 1 = true ∧ s.mayRun 2 = false ∧
      queue3.ents.length < 64 ∧ 64 ≤ (List.replicate 64 (HwEnt.launch 1)).length ∧
      (match v.acceptLaunch 1 3 (some gangDesc) with | .ok _ => true | _ => false) = true ∧
      (match v.acceptLaunch 1 3 (some (gangDesc.set 3 0)) with | .error st => st == 1 | _ => false) = true ∧
      (match acceptGraph 0 1 0 3 0x6000 (some [3, 0, 0, 0, 0, 0, 0, 0]) with | .ok _ => true | _ => false) = true) ∧
    (let l : Launch := { oneLaunch with st := .queued, desc := gangDesc, queue := 3, placed := [], unitsLeft := 0 };
      let s : State := { idle with disp := { idle.disp with hw := [{ queue3 with ents := [.launch 1] }], launches := [l] } };
      s.launch 1 = some l ∧ dGang l.desc = true ∧ s.disp.reserving = none ∧ s.resumeFirst (s.prioOf l) = false ∧
      placeStages (s.placeFree l) (dMembers l.desc) none [] l.stageMap = some [0]) ∧
    (let l : Launch := { oneLaunch with unitsLeft := 0 }; let s : State := { idle with disp := { idle.disp with launches := [l] } };
      s.launch 1 = some l ∧ ({ l with desc := gangDesc } : Launch).done = true ∧ oneLaunch.done = false ∧ dCell gangDesc = 0 ∧
      dCell [0, 0, 0x6FF0] ≠ 0 ∧ ({ l with desc := [0x0100000000006000, 0, 0x6FF0] } : Launch).done = true ∧
      (match s.translate 1 (dCell [0, 0, 0x6FF0] + 8) .write with | .ok pa => pa == 0x6FF8 | _ => false) = true) ∧
    (let l : Launch := { oneLaunch with st := .queued, desc := [0, 0, 0x6FF0], waits := true, floor := 7, final := none };
      let s : State := { idle with disp := { idle.disp with shapes := [⟨true, 1, 0x6FF0, 0x6FF0, 7⟩], launches := [l] } };
      (match s.translate 1 0x6FF0 .write with | .ok pa => pa == 0x6FF0 | _ => false) = true ∧ (s.mem.readW 0x6FF0).getLsbD 63 = false ∧
      (({ s with mem := s.mem.write 0x6FF7 [0x80] } : State).mem.readW 0x6FF0).getLsbD 63 = true ∧
      s.disp.launches.find? (fun l => l.asid == 1 && l.waits && dCell l.desc != 0 && dCell l.desc == 0x6FF0) = some l ∧ s.launch l.key = some l) ∧
    (let l : Launch := { oneLaunch with blocks := [(0, .commit), (1, .endP), (2, .endP)], floor := 2 };
      let s : State := { idle with disp := { idle.disp with launches := [l] } };
      s.launch 1 = some l ∧ (s.commitUnit l.key 0).2 = true ∧ dGang l.desc = false ∧ l.block 0 = some .commit ∧ l.block 1 = some .endP ∧ 1 < l.floor ∧ l.block 2 = some .endP ∧
      l.floor ≤ 2) := by decide +kernel

/-- The state with a launch of one block to deal. -/
def dealing : State := { idle with
  ctxs := [framedCtx], disp := { idle.disp with launches := [{ oneLaunch with desc := gridDesc, frameSize := 128 }] } }

/-- A block to deal, wherever the part puts its frame; none left. -/
theorem test_witness_LaunchEvents_deal :
    let l : Launch := { oneLaunch with desc := gridDesc, frameSize := 128 }
    dealing.launch 1 = some l ∧ l.st = .started ∧ dGang l.desc = false ∧ (∃ u, dealing.deal l = some u) ∧ ({ l with cursor := 1 } : Launch).limit ≤ 1 := by
  refine ⟨by decide +kernel, by decide, by decide +kernel, ?_, by decide +kernel⟩
  have h : ∃ p, dealing.framePlace framedCtx 128 = some p := by
    unfold State.framePlace
    dsimp only
    by_cases g : dealing.frameFits framedCtx (Config.framePlace dealing.free) 128 = true
    · exact ⟨_, if_pos g⟩
    · rw [if_neg g]; exact ⟨0x6800, by decide +kernel⟩
  obtain ⟨p, h⟩ := h
  have a : ¬({ oneLaunch with desc := gridDesc, frameSize := 128 } : Launch).cursor ≥
    ({ oneLaunch with desc := gridDesc, frameSize := 128 } : Launch).limit := by decide
  have b : dealing.dealPlace { oneLaunch with desc := gridDesc, frameSize := 128 } = some (.package, 0) := by decide +kernel
  have c : dealing.ctx ({ oneLaunch with desc := gridDesc, frameSize := 128 } : Launch).asid = some framedCtx := by decide +kernel
  have d : ¬dealing.unstartedIn { oneLaunch with desc := gridDesc, frameSize := 128 } .package ≥ 256 := by decide +kernel
  rw [State.deal, if_neg a, b, c]
  simp only [if_neg d, State.rootTask, State.newFrame, h, Option.map_some]
  exact ⟨_, rfl⟩

/-- A started graph of three nodes at 0x6000 whose node 1 holds a word, its predicate's cell at 0x6C00. -/
def graphed (n : Nat) (ws : List Word) (cell : Byte) : State :=
  let g : Graph := ⟨4, 1, 1, 3, 0x6000, 3, 1, 0, .started, [n], [], [(1, 2)], [(1, 1)], 0, false, none, none, none⟩
  { idle with mem := (idle.mem.write 0x6080 (ws.flatMap (bytesOf · 8))).write 0x6C00 [cell], disp := { idle.disp with graphs := [g] } }

/-- The node past the last; a branch by a zero and a nonzero cell; a loop below, at its MAX of 2, and without one; a join at its count and before it. -/
theorem test_witness_LaunchEvents_graph :
    let next := 2 * 2 ^ 16 + 3 * 2 ^ 28
    let q := fun (n : Nat) (ws : List Word) (cell : Byte) => (let s := graphed n ws cell
      match s.graphOf 4 with
      | some g => decide (g.st = .started ∧ g.visits = [n] ∧ g.running.length < 63 ∧ g.failed = false ∧ g.key = 4) && (decide (g.nodes < n) ||
          decide (n ≤ g.nodes) && (match s.node g n with
            | some w => !(nodeBad w) && w.take 3 == ws && s.predicate 1 ((w.getD 1 0).extractLsb' 0 56).toNat == some (if nKind w = 3 then 0 else cell.setWidth 64)
            | none => false))
      | none => false) = true
    q 4 [] 0 ∧ q 1 [BitVec.ofNat 64 (1 + next), 0x6C00, 0] 0 ∧ q 1 [BitVec.ofNat 64 (1 + next), 0x6C00, 0] 1 ∧
    q 1 [BitVec.ofNat 64 (2 + next), 0x6C00, 3] 1 ∧ q 1 [BitVec.ofNat 64 (2 + next), 0x6C00, 2] 1 ∧ q 1 [BitVec.ofNat 64 (2 + next), 0x6C00, 0] 1 := by
  decide +kernel

/-- A join whose second of two arrivals comes, and whose second of three. -/
theorem test_witness_LaunchEvents_join :
    let w := fun (n : Nat) => BitVec.ofNat 64 (3 + 2 * 2 ^ 16 + 0xFFF * 2 ^ 28 + n * 2 ^ 40)
    let q := fun (n : Nat) => (let s := graphed 1 [w n] 0
      match s.graphOf 4 with
      | some g => (match s.node g 1 with
        | some v => !(nodeBad v) && (v.getD 0 0).extractLsb' 0 4 == 3 && ((lookup g.arrivals 1).getD 0 + 1 == ((v.getD 0 0).extractLsb' 40 12).toNat) == (n == 2)
        | none => false)
      | none => false) = true
    q 2 ∧ q 3 := by decide +kernel

/-- A buffered store, an accumulating write, and one of a tile's line: its region opens, its line takes the tag; where another family's open region
has written the line it waits. -/
theorem test_witness_LaunchEvents_commit :
    let a : AgentAt := ⟨(probeUnit 0).family, 1, 0, 0, 0⟩
    let q := fun (s : State) (w : ProvWrite) => let e : ProvEnt := ⟨0, a, 0, w⟩;
      s.tileInWay e.write = false ∧ (∃ v, (s.regionAgain e.by_ e.unit e.region).1.tagAccess (s.regionAgain e.by_ e.unit e.region).2 e.write.lines
        e.write.kind = .ok v)
    q idle (.bytes 0x6FC0 0x6FC0 (List.replicate 64 1)) ∧ q idle (.accw 0x6FF8 0x6FF8 .add true 1) ∧
    (taken idle 0).commitWrite ⟨0, a, 0, .remote 0 1 0 [1]⟩ = none := by
  refine ⟨⟨by decide +kernel, ?_⟩, ⟨by decide +kernel, ?_⟩, by decide +kernel⟩ <;>
    exact (tags (fun _ => True) (by decide +kernel)).imp fun _ h => h.1

/-- The idle state with one function, and the function with host memory. -/
def withFn (f : Fn) : State := { idle with fns := [f] }
def hosting (ws : List Word) : Fn := { Fn.reset 0 with mem := Memory.write [] 0x40 (ws.flatMap (bytesOf · 8)) }

/-- Rings of 64: a TAIL at the last index and past the ring, a HEAD at what is outstanding and past it, one completion waiting. A paging request that a
reply names and one it does not; a host write inside the bounce buffer, in RUN, outside. -/
theorem test_witness_HostEvents :
    let r : Ring := ⟨1, 0x1000, 6, 2, 1, 1, true, 3, 3, 1⟩
    let f : Fn := { Fn.reset 0 with sqs := [r], cqs := [r], fq := some r }
    let c : CompOut := ⟨1, 0, 0, 0, 0⟩
    (let s := withFn f;
      s.fn 0 = some f ∧ f.sqOf 1 = some r ∧ r.st ≠ 2 ∧ f.cqOf 1 = some r ∧ f.fq = some r ∧ f.faults = [] ∧ f.comps = [] ∧
      (63 < 2 ^ r.n ∧ (r.tail + 64 - r.head) % 64 + (63 + 64 - r.tail) % 64 < 64) ∧ 2 ^ r.n ≤ 64 ∧
      ((r.tail + 64 - r.head) % 64 ≠ 0) ∧ ((2 + 64 - r.head) % 64 ≤ (r.tail + 64 - r.head) % 64) ∧
      ((r.tail + 64 - r.head) % 64 < (3 + 64 - r.head) % 64)) ∧
    (let g : Fn := { f with comps := [c] }; (withFn g).fn 0 = some g ∧ g.comps = [c] ∧ c.cq = 1 ∧ r.tail < 64 ∧ (r.tail + 64 - 2) % 64 + 1 < 64) ∧
    (let z : FaultReq := ⟨9, true, 1, 0, 0, 5, 0, false, some (0, precise poisonConsumed 3)⟩;
      let s : State := { withFn f with disp := { idle.disp with reqs := [z] } };
      s.pagingOf 0 5 = some z ∧ z.fault = some (0, precise poisonConsumed 3) ∧ s.disp.reqs.find? (·.num == z.num) = some z ∧ s.pagingOf 0 6 = none) ∧
    (let x : Ctx := { probeCtx with bounceBase := 0x6000, bounceSize := 8 }; let s : State := { withFn f with ctxs := [x] };
      let at_ := fun (k : Need) (a : Nat) => match s.span 1 a 8 k with | .ok rs => rs == [(a, 8)] | _ => false;
      s.ctx 1 = some x ∧ x.fn = 0 ∧ at_ .write 0x6000 = true ∧ at_ .read 0x6000 = true ∧
      x.bounceBase ≤ 0x6000 ∧ 0x6000 + 8 ≤ x.bounceBase + x.bounceSize ∧ ¬(f.tdisp = .run ∨ x.bounceBase ≤ 0x6001 ∧ 0x6001 + 8 ≤ x.bounceBase + x.bounceSize) ∧
      at_ .write 0x6001 = true ∧ ({ f with tdisp := .run } : Fn).tdisp = .run) := by
  and_intros <;> decide +kernel

/-- Each command's record as it stands in host memory at 0x40, with the largest ring; a mailbox idle, busy with this word and with another; a locked
function; a context in use and not; a record of another code, one that cannot be read; an address that is no multiple of 64. -/
theorem test_witness_MailboxCommands :
    let ok := fun (ws : List Word) (code : Nat) (fs : List (Nat × Nat × Nat)) => (withFn (hosting ws)).fn 0 = some (hosting ws) ∧
      (hosting ws).readable 0x40 64 = true ∧
      (let w := wordsOf 8 ((hosting ws).mem.read 0x40 64); ((w.getD 0 0).extractLsb' 0 8).toNat = code ∧ onlyFields w fs = true)
    let f := hosting []
    ok [1, 0x1000300000001 + 0x30000, 0, 16] 1 [(1, 0, 6), (1, 16, 10), (1, 32, 3), (1, 40, 6), (1, 48, 16), (2, 0, 56), (3, 0, 5)] ∧
    ok [2, 1, 0, 16] 2 [(1, 0, 6), (2, 0, 56), (3, 0, 5)] ∧ ok [3, 0, 0, 6] 3 [(2, 0, 56), (3, 0, 5)] ∧ ok [4, 1] 4 [(1, 0, 8)] ∧
    ok [0x10, 0x1000] 0x10 [(1, 0, 56)] ∧ ok [0x11, 1] 0x11 [(1, 0, 16)] ∧ ok [0x12, 1, 0x6000, 0] 0x12 [(1, 0, 16), (2, 0, 56), (3, 0, 4)] ∧
    ok [0x13] 0x13 [] ∧ ({ f with tdisp := .locked } : Fn).locked = true ∧ f.locked = false ∧ f.sqOf 1 = none ∧ f.cqOf 1 = none ∧ f.fq = none ∧
    f.comps = [] ∧ f.faults = [] ∧ (withFn f).disp.hw = [] ∧
    ((withFn f).ctx 1 = some probeCtx ∧ probeCtx.fn = 0 ∧ (withFn f).ctxBusy 1 = false ∧ tk.ctxBusy 1 = true ∧ (withFn f).boot.recovery = false ∧
      (withFn f).ctx 7 = none) ∧
    contextOk (wordsOf 144 ((Memory.write [] 0x1000 (bytesOf (7 : Word) 8)).read 0x1000 1152)) = true ∧
    contextOk (wordsOf 144 (Memory.read [] 0x1000 1152)) = false ∧ (0x41 : Word).toNat % 64 ≠ 0 ∧ 0xFF ∉ [1, 2, 3, 4, 0x10, 0x11, 0x12, 0x13] ∧
    (f.busy = none ∧ ({ f with busy := some 0x40 } : Fn).busy = some 0x40 ∧ (0x80 : Word) ≠ 0x40 ∧
      ({ f with holes := [(0x7F, 1)] } : Fn).readable 0x40 64 = false ∧ f.readable 0x1000 1152 = true ∧
      ({ f with holes := [(0x147F, 1)] } : Fn).readable 0x1000 1152 = false ∧ 2 ∈ [1, 2, 3, 4, 0x10, 0x11, 0x12, 0x13] ∧ 2 ≠ 1) := by
  and_intros <;> decide +kernel

/-- A count raised and not; a connection at each phase; a function in each state; a package at rest; a die to fence, the master's and another's. -/
theorem test_witness_TrustEvents :
    idle.boot.recovery = false ∧ idle.boot.fused < 1 ∧ 0 ≤ idle.boot.fused ∧ ({ idle.boot with recovery := true } : Boot).recovery = true ∧
    (∀ p ∈ [1, 2, 3], ({ idle with spdm := ⟨p, none, false, []⟩ } : State).spdm.phase = p) ∧ idle.spdm.phase ≠ 3 ∧
    (⟨3, some 5, false, []⟩ : Spdm).session = some 5 ∧ (⟨3, some 5, true, []⟩ : Spdm).finished = true ∧
    (∀ t ∈ [Tdisp.unlocked, .locked, .run], let f : Fn := { Fn.reset 64 with tdisp := t }; (withFn f).fn 64 = some f ∧ f.tdisp = t) ∧
    idle.disp.hw = [] ∧ idle.disp.launches = [] ∧ idle.disp.graphs = [] ∧ (∀ c ∈ idle.cores, c.unit = none) ∧ oneLaunch.st = .started ∧
    7 ∉ idle.fenced ∧ idle.lostTasks 7 = [] ∧ idle.lostTasks 0 = [] ∧ idle.master = 0 ∧ 7 ∈ ({ idle with fenced := [7] } : State).fenced ∧
    dieOf idle.core.id ≠ 7 ∧ dieOf 895 = 7 ∧ (idle.coreOf 895).id = 895 ∧ (idle.ctx 1).isSome = true ∧ idle.ctx 2 = none := by
  and_intros <;> decide +kernel

/-- Channel 63 bound and free, bound and taken, not bound, bound to a silent rank, to one withdrawn; a sum of one INT32 of two ranks, a barrier, each way
a collective ends. -/
theorem test_witness_FabricEvents :
    let d : List Word := [0x500000000, 0x6000, 0x6100, 1, 0x6FF8, 0, 0, 0]
    let bar : List Word := [0x40000, 0, 0, 0, 0x6FF8, 0, 0, 0]
    let b : Binding := ⟨63, 1, 0, [0, 1], [0, 1], false⟩
    let c : Coll := ⟨63, 1, d, 0, none⟩
    let s : State := { idle with fabric := { idle.fabric with bindings := [b], colls := [c] } }
    let free : State := { s with fabric := { s.fabric with colls := [] } }
    let found := fun (s : State) (ch : Nat) => s.fabric.bindings.find? (fun b => b.ch == ch && b.asid == 1)
    (collBad d = false ∧ collBad (d.set 3 0) = true ∧ collBad bar = false ∧ found s 63 = some b ∧ found s 62 = none ∧ free.fabric.colls = [] ∧
      ¬(∀ k ∈ s.fabric.colls, k.ch ≠ 63) ∧ (∃ b ∈ s.fabric.bindings, b.ch = 63 ∧ ∃ r ∈ b.ranks, r ∈ [1]) ∧
      ¬(∃ b ∈ s.fabric.bindings, b.ch = 63 ∧ ∃ r ∈ b.ranks, r ∈ s.lintel.silent) ∧ ({ b with withdrawn := true } : Binding).withdrawn = true) ∧
    ((match idle.translate 1 ((d.getD 4 0).extractLsb' 0 56).toNat .write with | .ok pa => pa == 0x6FF8 | _ => false) = true ∧
      ((d.getD 4 0).extractLsb' 0 56).toNat % 8 = 0) ∧
    (s.fabric.colls.find? (·.ch == 63) = some c ∧ s.fabric.bindings.find? (·.ch == 63) = some b ∧
      (b.ranks.filter (· < s.fabric.pkg)).length = 0 ∧ collRanksBad d 2 0 = false ∧ collRanksBad (d.set 2 0x6004) 2 0 = false ∧
      collRanksBad [0x30002, 0x6000, 0x6100, 1, 0x6FF8, 0, 0, 0] 2 0 = true ∧
      collSrcs d 2 0 (if cOp d = 4 then some [] else s.readVa 1 (cSrc d) (cSrcLen d 2)) [⟨1, d, some [1, 0, 0, 0], true⟩] =
        some [[0, 0, 0, 0], [1, 0, 0, 0]] ∧ collResult d 0 [[0, 0, 0, 0], [1, 0, 0, 0]] = [1, 0, 0, 0] ∧
      (match s.span 1 (cDst d) 4 .write with | .ok rs => rs == [(0x6100, 4)] | _ => false) = true ∧
      collSrcs d 2 0 none [⟨1, d, none, true⟩] = none ∧ (match s.span 1 0x7000 4 .write with | .ok _ => true | _ => false) = false ∧
      collSrcs bar 2 0 (some []) [⟨1, bar, none, true⟩] = some [[], []] ∧ collResult bar 0 [[], []] = []) ∧
    (cOp d ≠ cOp bar ∧ cSeq d = cSeq d ∧ (∀ i < 2, i ≠ 0 → i = 1)) ∧ idle.lintel.group ≠ 5 ∧ (∀ e ∈ idle.fabric.ports, e.1 ≠ 1) ∧ [0, 1] ≠ [] ∧ (∀ m ∈ [0, 1], 0 ≤ m) := by
  and_intros <;> decide +kernel

/-- A group of packages 0 and 1 led by either, ceilings and times at their bounds; a raise that makes the boundary and one that misses it by a nanosecond;
a leader's last hearing at 100 µs, with a successor and without. -/
theorem test_witness_LintelEvents :
    let l : Lintel := { idle.lintel with members := [(0, 90), (1, 90)], leader := 1 }
    let s : State := { idle with lintel := l, refTime := 100000 }
    (l.has 1 = true ∧ l.has s.fabric.pkg = true ∧ s.fabric.pkg = 0 ∧ s.refTime + 50000 ≤ 150000 ∧ 149999 < s.refTime + 50000) ∧
    (({ l with notices := [⟨1, 20, 150000, 100000⟩] } : Lintel).notices = [⟨1, 20, 150000, 100000⟩] ∧ l.notices = [] ∧ l.silent = [] ∧ l.changes = [] ∧
      s.refTime < 150000 ∧ 150000 < 1000000) ∧
    ((s.refTime / 1000000 + 1) * 1000000 = 1000000 ∧ 950000 + 50000 ≤ 1000000 ∧ 1000000 < 950001 + 50000) ∧
    (1 ∉ l.silent ∧ l.leader ≠ s.fabric.pkg ∧ ({ l with leader := 0 } : Lintel).leader = s.fabric.pkg ∧
      (lookup l.heard l.leader).getD 0 + 100000 ≤ s.refTime ∧ l.successor = none ∧
      ({ l with members := [(0, 90), (1, 90), (2, 90)] } : Lintel).successor = some 2) := by decide +kernel

/-- Eight dies, one fenced; an over-cap episode of 200 ticks and of 199; a cap met and exceeded by one; a core stalled 2^32 cycles; limits at 5,824 and
one above. -/
theorem test_witness_PowerEvents :
    idle.power.dies.length = 8 ∧
    (let o := fun (n : Nat) => idle.modDie 7 (fun x => { x with overCap := true, overTicks := n });
      ((o 200).die 7).overCap = true ∧ 200 ≤ ((o 200).die 7).overTicks ∧ ((o 199).die 7).overTicks < 200) ∧
    (let bases := (idle.power.dies.map (·.base)).sum; 600 + bases ≤ 4200 ∧ 4199 < 600 + bases) ∧
    ((idle.power.hub + ((idle.modDie 7 (fun x => { x with base := 450 })).power.dies.map (·.base)).sum ≤ idle.power.cap) ∧
      idle.power.cap < idle.power.hub + ((idle.modDie 7 (fun x => { x with base := 451 })).power.dies.map (·.base)).sum) ∧
    (idle.fn 64 = some (Fn.reset 64)) ∧
    (let s := tk.mapCore (fun c => { c with pw := ⟨[], 2 ^ 32, false⟩ }); let k := s.coreOf 0;
      k.id = 0 ∧ k.unit = some (probeUnit 0) ∧ s.fn (s.fnOf 1) = some (Fn.reset 0) ∧ (Fn.reset 0).fq = none ∧ (Fn.reset 0).faults.length < 256 ∧
      s.watchdogDue 0 = true) ∧
    (let v : Word := 5824 + 5824 * 2 ^ 16;
      v.toNat < 2 ^ 29 ∧ v.extractLsb' 13 3 = 0 ∧ (v.extractLsb' 0 13).toNat = 5824 ∧ (v.extractLsb' 16 13).toNat = 5824) ∧
    5824 < ((5825 : Word).extractLsb' 0 13).toNat ∧ 2 ^ 29 ≤ (0x20000000 : Word).toNat ∧ (0x2000 : Word).extractLsb' 13 3 ≠ 0 := by decide +kernel

/-- A log that is empty, one that holds a correctable and one that holds an uncorrectable error; each array's instances; a link's eighth and ninth error. -/
theorem test_witness_ErrorEvents :
    let e : ErrLog := ⟨0, 1, false, false, false, true, 0, 0, 0, 0⟩
    let s : State := { idle with errs := [e, { e with inst := 1024, ue := true }], fabric := { idle.fabric with retries := [(1, 7), (2, 8)] } }
    (idle.errLog 0).valid = false ∧ (s.errLog 0).valid = true ∧ (s.errLog 0).count < 2 ^ 32 - 1 ∧ (s.errLog 0).ue = false ∧ (s.errLog 1024).ue = true ∧
    (s.coreOf (0 % 1024)).id = 0 % 1024 ∧ 0 / 1024 = 0 ∧ (s.coreOf ((1024 + 895) % 1024)).id = 895 ∧ (1024 + 895) / 1024 = 1 ∧
    (63 : Word).toNat = (63 : RegNo).toNat ∧ (127 : Word).toNat = 64 + (63 : RegNo).toNat ∧ 2048 / 1024 = 2 ∧ (7 : Word).toNat = 7 ∧
    4 ≤ 4096 / 1024 ∧ 4096 / 1024 ≤ 6 ∧ 6144 / 1024 = 6 ∧ (lookup s.fabric.retries 1).getD 0 < 8 ∧ 8 ≤ (lookup s.fabric.retries 2).getD 0 := by
  and_intros <;> decide +kernel

/-- Cluster 55: a request of the next state, of RUN, of another, one on the way; states reached; a halted core started. -/
theorem test_witness_ClusterEvents :
    let k := fun (st : Nat) (t : Option Nat) (r : Nat) => idle.setCluster 55 ⟨r, st, t, false, false, List.replicate 16 (91, 1)⟩
    ((idle.cluster 55).target = none ∧ (idle.cluster 55).state = 0 ∧ 1 = (idle.cluster 55).state + 1 ∧ 2 ≠ (idle.cluster 55).state + 1 ∧
      ((k 1 none 0).cluster 55).state ≠ 0 ∧ ((k 1 (some 2) 2).cluster 55).target ≠ none) ∧
    (∀ r ∈ [0, 1, 2, 3], ((k 0 (some r) r).cluster 55).target = some ((k 0 (some r) r).cluster 55).req) ∧
    ((k 2 (some 0) 0).cluster 55).saved.length = 16 ∧ (k 2 (some 0) 0).coreOf (16 * 55 + 15) = Core.reset 895 ∧
    (∀ n ∈ (List.range 16).map (16 * 55 + ·), (idle.coreOf n).id = n ∧ (idle.coreOf n).unit = none) ∧ (idle.coreOf 896).id = 896 ∧
    (let v : Word := 0xF00000006000; let s := idle.modCore 0 (fun c => { c with ctl := { c.ctl with halted := true } });
      v.toNat < 2 ^ 52 ∧ v.toNat % 32 = 0 ∧ 55 * 16 + (v.extractLsb' 48 4).toNat = 880 ∧ (idle.coreOf 880).ctl.halted = false ∧
      (s.coreOf 0).ctl.halted = true ∧ (s.coreOf 0).id = 0 ∧ 0 * 16 + ((0x6000 : Word).extractLsb' 48 4).toNat = 0) := by decide +kernel

/-- The package about to fetch the bundle that holds an instruction alone. -/
def fetched (i : Instr) : State := State.reset.withFetchWord 256 ((encode i).getD 0).toNat

/-- How the meaning of a slot leaves it: done, stalled with its region closed or not, a fault raised. -/
inductive Left where
  | done | closed | stalled | raised
  deriving DecidableEq

def leftAs (r : Res) : Option Left :=
  match r with
  | .next t => some (if t.core.ctl.stalled then (if t.core.ctl.passed then .closed else .stalled) else if t.core.ctl.raised.isSome then .raised else .done)
  | _ => none

/-- What a case of the statement asks: the bundle fetched holds the instruction in a slot, the core is about to issue it, and exec leaves it as given;
before the region has closed, a region-closing instruction as given too. -/
def runsAs (s : State) (k : Nat) (i : Instr) (t : Left) (v : Left := .done) : Bool :=
  let f := State.focus { s with turn := [] } 0
  let b := decodeBundle (bundleOfBytes (f.mem.read 0x6000 32))
  let r := f.opened b
  decide (s.agenda = [] ∧ s.stopped = false ∧ s.turn = [0] ∧ f.AboutTo 0 b ∧ b.instrs = [(k, i)]) &&
    (match f.translate f.core.asid f.core.ctl.pc.toNat .fetch with | .ok pa => pa == 0x6000 | _ => false) &&
    leftAs (exec i (r.atSlot k)) == some t &&
    (!i.regionClosing || (closerRegs i).all (fun d => (r.core.pendOn d).isNone) && leftAs (exec i (r.foreseen.atSlot k)) == some v)

/-- A gang's TICK before which a tile entry of an earlier bundle uses a sample. -/
def early : State := ((withTiles (fetched .tick) [.mstSig 0 0 0 0 0 false]).mapCore (fun c => { c with
  unit := some { probeUnit 0 with gang := true }
  pipe := { c.pipe with seq := 1 } }))

/-- A post behind a store that has met a fault. -/
def failing : State := (fetched (.fpost ⟨3, 1⟩)).mapCore (fun c => { c with rg := { c.rg with
  gate := [⟨.store 0 [], 0, 0, some (asRollback (accessFault pageFault 1 slotM 0 true)), false, false⟩] } })

/-- A gang of two whose second member has its place, both about to issue an instruction. -/
def teamed (i : Instr) : State := { (fetched i).mapCore (fun c => { c with unit := some { probeUnit 0 with gang := true, members := 2 } }) with
  others := [(1, { (fetched i).core with id := 1, unit := some { probeUnit 0 with gang := true, members := 2, member := 1 } })] }

/-- An input waiting; an empty bundle; an instruction that completes, one that stalls, one that faults; the same of instructions that close the region,
before and after it closes; a stopped package with and without an input. -/
theorem test_witness_StepRunsDecoded :
    ({ tk with agenda := [.epochBoundary] } : State).agenda = [.epochBoundary] ∧ tk.stopped = false ∧
    (let s : State := State.reset.withFetchWord 256 0; let f := State.focus { s with turn := [] } 0;
      s.turn = [0] ∧ f.AboutTo 0 (decodeBundle 0) ∧ (decodeBundle 0).instrs = [] ∧ bundleOfBytes (f.mem.read 0x6000 32) = 0) ∧
    runsAs (fetched (.iaddi ⟨0, 4, 0, 5⟩)) 1 (.iaddi ⟨0, 4, 0, 5⟩) .done = true ∧
    runsAs (withTiles (fetched (.mzero ⟨0, 2⟩)) (List.replicate 8 (.mzero 0))) 6 (.mzero ⟨0, 2⟩) .stalled = true ∧
    runsAs (State.bad (fetched (.ldd ⟨0, 4, 6, 0⟩)) 6) 3 (.ldd ⟨0, 4, 6, 0⟩) .raised = true ∧
    runsAs (fetched (.fpost ⟨3, 1⟩)) 0 (.fpost ⟨3, 1⟩) .done = true ∧ runsAs (fetched (.fwait ⟨3, 1⟩)) 0 (.fwait ⟨3, 1⟩) .closed .closed = true ∧
    runsAs failing 0 (.fpost ⟨3, 1⟩) .raised = true ∧
    runsAs early 0 .tick .stalled .stalled = true ∧ runsAs (State.bad (fetched (.fork ⟨0, 9, 8⟩)) 9) 2 (.fork ⟨0, 9, 8⟩) .raised .raised = true ∧
    ({ tk with stopped := true } : State).stopped = true ∧ (∀ img, Instr.epochBoundary ≠ .coldReset img) := by
  and_intros <;> first | exact fun _ => Instr.noConfusion | decide +kernel

/-- Two members that issue together, that stall, that fault. -/
theorem test_witness_StepRunsDecoded_team :
    let q := fun (s : State) (stalls : Bool) (faults : Nat) => let f := State.focus { s with turn := [] } 0;
      s.agenda = [] ∧ s.stopped = false ∧ s.turn = [0] ∧ f.inTurn = [1, 0] ∧ (∀ m ∈ [1, 0], f.wouldFreeze m = false) ∧
      (match f.judged [1, 0] with | .next (st, fs) => st == stalls && fs.length == faults | _ => false) = true
    let issues := State.focus { teamed (.iaddi ⟨0, 4, 0, 5⟩) with turn := [] } 0
    q (teamed (.iaddi ⟨0, 4, 0, 5⟩)) false 0 ∧ q (teamed (.fwait ⟨3, 1⟩)) true 0 ∧ q (teamed (.sync ⟨0⟩)) false 2 ∧
    (match issues.issueAll [1, 0] issues [] [1, 0] with | .next _ => true | _ => false) = true := by and_intros <;> decide +kernel

/-- A header with its highest bit set, two branches, TICK beside SIGRST, opcodes of the other slot, reserved ones. -/
theorem test_witness_DecodedWords :
    ((0x80 : BundleBits).extractLsb' 4 4 ≠ 0) ∧
    (let w : BundleBits := (encode (.trap ⟨0, 1⟩)).getD 0 ||| (encode (.br ⟨0, 1⟩)).getD 0;
      (match (decodeBundle w).s0, (decodeBundle w).s1 with | .ok i, .ok j => i.branchClass && j.branchClass | _, _ => false) = true ∧
      w.extractLsb' 58 6 ∈ [0x32#6, 0x33, 0x34] ∧ w.extractLsb' 94 6 = 0x38#6) ∧
    (let w : BundleBits := (encode (.trap ⟨0, 1⟩)).getD 0 ||| (encode (.yield ⟨0⟩)).getD 0; w.extractLsb' 94 6 = 0x3F#6 ∧ (w.extractLsb' 64 8).toNat ≤ 4) ∧
    (let w : BundleBits := (encode .tick).getD 0 ||| (encode (.sigrst ⟨0, 255⟩)).getD 0; w.extractLsb' 23 5 = 1#5 ∧ w.extractLsb' 250 6 = 0x1E#6) ∧
    ((0x30#6 ++ 0#30).extractLsb' 30 6 ∈ [0x30#6, 0x31, 0x32, 0x33, 0x34]) ∧ ((0x3F#6 ++ 0#30).extractLsb' 30 6 ∈
      [0x38#6, 0x39, 0x3A, 0x3B, 0x3C, 0x3D, 0x3E, 0x3F]) ∧ (0x3E#6 ++ 0#34).extractLsb' 34 6 = 0x3E#6 ∧
    0x08 ≤ ((0x08#6 ++ 0#30).extractLsb' 30 6).toNat ∧ ((0x0F#6 ++ 0#30).extractLsb' 30 6).toNat ≤ 0x0F ∧ (1 : RegNo) ≠ 0 := by decide +kernel

/-- Words of each slot with every operand at its highest value. -/
theorem test_witness_EncodeDecode :
    (Instr.iadd ⟨15, 63, 63, 63⟩).wellFormed = true ∧ (encode (.iadd ⟨15, 63, 63, 63⟩)).isSome = true ∧
    decodeS false (0b000001#6 ++ 15#4 ++ 63#6 ++ 63#6 ++ 63#6 ++ 0#8) = .ok (.iadd ⟨15, 63, 63, 63⟩) ∧
    decodeS true 0xE07FFFFFE = .ok (.br ⟨1, 0x3FFFFFE⟩) ∧ decodeM 0x5C06114000 = .ok (.gstd ⟨0, 6, 1, 5, 0⟩) ∧
    decodeX 0x680400008 = .ok (.taprd ⟨0, 4, 0, 0, true⟩) ∧ decodeC 0x10001 = .ok (.fwait ⟨0, 1⟩) ∧
    (match decodeV false (((encode (.vadd ⟨15, 7, 63, .reg 63, .reg 63, 2, 3, true⟩)).getD 0).extractLsb' 140 40) with | .ok _ => true | _ => false) = true :=
  by decide +kernel

/-- The last registers of each file; a latency met and one short; slots 0 and 6 of one bundle that write one register; two results that land together. -/
theorem test_witness_LandedResults :
    (63 : RegNo) ≠ 0 ∧ (15 : PredNo) ≠ 0 ∧ (7 : BitVec 3) ≠ 0 ∧ tk.core.pipe.flights = [] ∧ tk.core.pipe.reqs = [] ∧ 1 ≤ 1 ∧ 0 + 1 = 1 ∧ 0 + 1 < 2 ∧
    (Landing.x 63 1 false).same (.x 63 2 true) = true ∧ 0 < 6 ∧ (Landing.x 63 1 false).isWconf = false ∧ (Landing.p 1 true).isWconf = false := by
  decide +kernel

theorem test_witness_MemoryLaws : Memory.wf [] ∧ Memory.wf [(0, 1), (7, 255)] ∧ 3 < [1, 2, 3, 4].length ∧ 8 < 9 := by decide +kernel

/-- The probe's memory is canonical and the bundle at its page issues. -/
theorem test_witness_CanonicalMemory : (State.reset.withFetchWord 256 0).mem.wf ∧
    (match step (State.reset.withFetchWord 256 0) with | .next _ => true | _ => false) = true := by decide +kernel

theorem test_witness_Progress : State.reset.Alive ∧ tk.Alive ∧ (State.reset.withFetchWord 256 0).Alive := by decide

/-- The worked object of spec/16, as doublewords; the file is 0x2B2 bytes. -/
def workedObject : List Byte :=
  ((([0x100464f42, 1, 0, 0x9101, 0, 0x40000010100, 0x20, 0, 0xd0501, 0xc0, 0xe0, 0, 0x90607, 0x1c0, 0x40, 0, 0x308, 0x200, 0x50, 0, 0x309, 0x250] ++
    0x62 :: List.replicate 4 0 ++ 0x80 :: 0x600c000010000000 :: List.replicate 4 0 ++ [0x24c0100000000000, 0x880, 0, 0, 0xfc0000002] ++
    List.replicate 19 0 ++ [4, 0, 0x4080, 0, 0, 0x9101, 0, 3, 0, 0x10300, 0, 0x20, 0x10400, 0, 0x28, 0x200010100, 0, 3, 0x20, 0x5000000101] ++
    [0xc0, 0, 0x5400010501, 0x40, 0, 0x5affff0002, 0, 0x5f636e6900636e69, 0x65746e756f63006c, 0x72]) : List Nat).flatMap (bytesOfNat · 8)).take 0x2B2

/-- An object whose .data begins with the doubleword counter, a global cell. -/
def counterObject : Bof :=
  ⟨0, 0, 1, [0x9101, 0, 0, 0, 0, 0, 0, 0], 0, 0, 1, 0, 0, noEntry, 0, [⟨2, 3, 11, 0, 0, List.replicate 8 0⟩,
    ⟨9, 3, 0, 0, 0, ([1, 0, 0x2000000301, 8, 0x007265746E756F63] : List Nat).flatMap (bytesOfNat · 8)⟩]⟩

/-- The file is read as spec/16 lists it: section types and sizes, the three relocations, a layout that keeps R365 and R369. -/
theorem test_worked_object_read :
    (readBof workedObject).map (fun f => (f.features, f.scratch, f.entry)) = some (1, 1, 0x20) ∧
    (readBof workedObject).map (fun f => f.secs.map (fun e => (e.type, e.bytes.length))) = some [(1, 0xE0), (7, 0x40), (8, 0x50), (9, 0x62)] ∧
    (readBof workedObject).map (fun f => f.relocs.map (fun r => (r.offset, r.symbol, r.type))) = some [(0, 0, 3), (0x20, 0, 4), (0x28, 2, 1)] ∧
    (readBof workedObject).map (Bof.wellFormed workedObject) = some true := by
  decide +kernel

/-- Linked, the sections stand at the addresses of spec/16, and the template's words are those it gives. -/
theorem test_worked_object_linked : ((readBof workedObject).bind (fun f => bofLink (some 0x4000000000) [f, counterObject])).map (fun m => (m.entry,
    m.secs.map (fun e => (e.type, e.addr)), (m.secs.filter (·.type == 7)).map (fun e => (List.range 8).map (fun i => fileNum e.bytes (8 * i) 8)))) =
    some (0x4000000020, [(1, 0x4000000000), (2, 0x4000010000), (3, 0x4000020000), (7, 0x4000030000), (9, 0)],
      [[0x4000000020, 4, 0, 0x4080, 0x4000020000, 0x4000010000, 0x9101, 0]]) := by
  decide +kernel

/-! The assembler (R87 to R89, R380 to R387). Braces are written by their codes. -/

/-- A bundle's line. -/
def bundleText (s : String) : String := String.ofList [lbrace] ++ s ++ String.ofList [rbrace, '\n']

/-- The worked source of spec/16 becomes the file that spec/16 lists. -/
theorem test_assemble_worked_object : assemble (
    ".bed scratch=1\n.regs 1\n.entry inc\n.func inc\n.frame 128 // frame word at .code + 0x18\ninc: // .code + 0x20\n" ++
    bundleText " S0: MOVI x12, 1 " ++ bundleText " M: ACCW.add.64 x9, x12, queue 0 " ++ bundleText " S1: TEND " ++ bundleText " " ++
    bundleText " " ++ bundleText " " ++ ".fend\n.launch inc_l, shape=4, arg=counter\n") = .ok workedObject := by
  decide +kernel

/-- The .code section of an assembled source; none where a line is rejected. -/
def codeOf (src : String) : Option (List Nat) :=
  match assemble src with
  | .ok bs => (readBof bs).map (fun f => (f.bytes 1).map (·.toNat))
  | .error _ => none

/-- The worked bundle of spec/03, over two lines, becomes the 32 bytes that spec/03 lists. -/
theorem test_assemble_worked_bundle : codeOf (bundleText
    " H: rm psel=2 | C: FPOST f3, 1 | S0: IADD x4, x4, x9 | S1: (p3) ICMP.lt.land p1, p2, x4, x5\n| M: LDW x6, x2, 16 | V0: VADD.bf16 v8, v8, v9 | X: TAPSET q1, 5, 3 ") =
    some [0x05, 0x01, 0x8C, 0x01, 0x90, 0x10, 0x04, 0x04, 0x05, 0x21, 0x49, 0x0C, 0x48, 0x00, 0x80, 0x60,
      0x40, 0x11, 0x48, 0x20, 0x10, 0x40, 0x00, 0x00, 0x00, 0x00, 0x00, 0x30, 0x00, 0x28, 0x08, 0x60] := by
  decide +kernel

/-- Rows of the table of R88: the keyed form gives the word of the positional form, operand by operand. -/
theorem test_assemble_keyed : (fun a b => a == b && a.isSome)
    (codeOf (bundleText " WAITN 1, 0, 2, 0 | ICMP.lt.land p1, p2, x4, x5 | COPY x4, x5, x6, queue 1 | VADD.bf16 v8, v8, v9, k2 | MMA acc2, q1, x20 "))
    (codeOf (bundleText (" WAITN ld=1 st=0 cp=2 tl=0 | ICMP.lt.land p1=p1 p2=p2 a=x4 b=x5 | COPY d=x4 a=x5 b=x6 qu=1 | " ++
        "VADD.bf16 v8, v8, b=v9 km=k2 | MMA acc2, bsel=x20 asel=q1 "))) = true := by
  decide +kernel

/-- The line that is rejected: an offset that is no multiple, a value outside its field, a register of the wrong kind (R89), a branch and a mark
within three bundles after a branch (R24, R25), a second .entry, v16 under .regs 1 (R383), a byte past
its range (R384), an unknown feature (R387). -/
theorem test_assemble_rejects : ([bundleText "LDW x6, x2, 15", bundleText "MOVI x7, 524288", bundleText "VADD v1, v2, x3",
      "k:\n" ++ bundleText "BR k" ++ bundleText "BR k", "k:\n" ++ bundleText "BR k" ++ bundleText "H: rm", "k:\n.entry k\n.entry k\n",
      ".regs 1\n" ++ bundleText "VADD v1, v2, v16", ".section .data\n.byte 255, 256\n", ".feature group, none\n"].map
        (fun t => match assemble t with
          | .ok _ => 0
          | .error n => n)) = [1, 1, 1, 3, 3, 3, 2, 2, 1] := by
  decide +kernel

end Sys2Proof.Tests
end

/-! Proofs for spec/04 (scalars and control): the shared forms of the S slot, the words of its formats, the values of its operations. -/

namespace Sys2Proof.Proofs

open Sys2Proof Sys2Proof.Machine Sys2Proof.Laws

/-! ## Effective slots that write an x register or predicates (R91, R92, R93, R95, R105) -/

section Forms

variable {s : State} {v : Word}

/-- An effective slot that computes an x result sends the value its operation has at the slot's state. -/
theorem begin_writeX {qp : PredNo} {regs : List PDest} {d : RegNo} {val : State → Word} {poison : State → Bool} {lat : Nat}
    (h : Effective qp regs s) (e : val s = v) :
    begin qp regs s (fun t => writeX d (val t) (poison t) lat t) = .next (s.sendsX d v (poison s) lat) := e ▸ begin_effective h

theorem alu2_sends {o : SR} {lat : Nat} (f : Word → Word → Word) (h : Effective o.qp [.x o.a, .x o.b, .x o.d] s)
    (e : f (s.core.x o.a) (s.core.x o.b) = v) :
    alu2 o lat f s = .next (s.sendsX o.d v (s.core.xp o.a || s.core.xp o.b) lat) := begin_writeX h e

theorem aluI_sends {o : SI} {lat : Nat} (f : Word → Word → Word) (h : Effective o.qp [.x o.a, .x o.d] s)
    (e : f (s.core.x o.a) (o.imm.signExtend 64) = v) : aluI o lat f s = .next (s.sendsX o.d v (s.core.xp o.a) lat) := begin_writeX h e

theorem aluSh_sends {o : SShI} (f : Word → Nat → Word) (h : Effective o.qp [.x o.a, .x o.d] s)
    (e : f (s.core.x o.a) o.sh.toNat = v) : aluSh o f s = .next (s.sendsX o.d v (s.core.xp o.a) 1) := begin_writeX h e

theorem alu1_sends {o : SU} (f : Word → Word) (h : Effective o.qp [.x o.a, .x o.d] s) (e : f (s.core.x o.a) = v) :
    alu1 o f s = .next (s.sendsX o.d v (s.core.xp o.a) 1) := begin_writeX h e

theorem plog_sends {o : SP} (f : Bool → Bool → Bool) (h : Effective o.qp [] s) :
    plog o f s = .next (s.sends (.p o.d (f (s.core.p o.a) (s.core.p o.b))) 1) := begin_effective h

end Forms

/-! ## Words of the SR and SI formats that are refused (R78) -/

theorem need_refuses {c : Bool} {i : Instr} (h : c = false) : need c i = .bad .illegalOperand := by rw [need, h]; rfl

/-- OP 03 decodes by its function code and by whether B is zero. -/
theorem decodeS_unary (s1 : Bool) (qp : PredNo) (d a b : RegNo) (fn : BitVec 8) :
    decodeS s1 (wSR 0x03#6 qp d a b fn) = decUnary fn (b == 0) ⟨qp, d, a⟩ := by
  rw [decodeS, if_neg (nonzero 30 6 (wSR_op ..) (by decide)), wSR_op, wSR_qp, wSR_d, wSR_a, wSR_b, wSR_low _ _ _ _ _ _ 0 8 (by decide),
    field_all]
  rfl

/-- Every unary function code asks that B be zero. -/
theorem decUnary_refuses {fn : BitVec 8} (o : SU) (h : fn.toNat < 7) : decUnary fn false o = .bad .illegalOperand := by
  have : fn.toNat ∈ List.range 7 := List.mem_range.mpr h
  unfold decUnary
  generalize fn.toNat = n at this
  fin_cases this <;> rfl

/-! ## Counts (R95) -/

/-- No bit stands at or above a number's length. -/
theorem testBit_of_bitLen_le {m i : Nat} (h : bitLen m ≤ i) : m.testBit i = false := by
  unfold bitLen at h
  split at h
  · simp_all
  · exact Nat.testBit_lt_two_pow (Nat.lt_log2_self.trans_le (Nat.pow_le_pow_right (by decide) h))

/-- The highest bit of a number stands just below its length. -/
theorem testBit_bitLen {m : Nat} (h : 0 < bitLen m) : m.testBit (bitLen m - 1) = true := by
  unfold bitLen at h ⊢
  split
  · simp_all
  · exact Nat.testBit_log2 ‹_›

theorem bitLen_le (a : Word) : bitLen a.toNat ≤ 64 := by
  unfold bitLen
  split
  · decide
  · exact (Nat.log2_lt ‹_›).mpr a.isLt

/-- The bits that CLZ counts are zero, and the next one is set. -/
theorem clzW_counts (a : Word) :
    ∃ n ≤ 64, clzW a = BitVec.ofNat 64 n ∧ (∀ i < n, a.getMsbD i = false) ∧ (n < 64 → a.getMsbD n = true) := by
  have hl := bitLen_le a
  refine ⟨64 - bitLen a.toNat, Nat.sub_le .., rfl, fun i hi => ?_, fun hn => ?_⟩
  · rw [BitVec.getMsbD_eq_getLsbD]
    simp only [BitVec.getLsbD, testBit_of_bitLen_le (m := a.toNat) (i := 64 - 1 - i) (by omega), Bool.and_false]
  · have e : 64 - 1 - (64 - bitLen a.toNat) = bitLen a.toNat - 1 := by omega
    rw [BitVec.getMsbD_eq_getLsbD, e, BitVec.getLsbD, testBit_bitLen (by omega)]
    simpa using hn

/-- The bits that CTZ counts are zero, and the next one is set. -/
theorem ctzW_counts (a : Word) :
    ∃ n ≤ 64, ctzW a = BitVec.ofNat 64 n ∧ (∀ i < n, a.getLsbD i = false) ∧ (n < 64 → a.getLsbD n = true) := by
  unfold ctzW
  cases h : (List.range 64).find? (fun i => bitAt a i) with
  | none =>
    rw [List.find?_range_eq_none] at h
    exact ⟨64, le_rfl, rfl, fun i hi => by simpa [bitAt] using h i hi, fun hn => absurd hn (by decide)⟩
  | some n =>
    obtain ⟨hset, hmem, hbelow⟩ := List.find?_range_eq_some.mp h
    exact ⟨n, (List.mem_range.mp hmem).le, rfl, fun i hi => by simpa [bitAt] using hbelow i hi, fun _ => hset⟩

theorem popcW_eq (a : Word) : popcW a = BitVec.ofNat 64 ((List.range 64).countP a.getLsbD) := rfl

/-! ## Reversals (R95) -/

theorem getLsbD_brevW (a : Word) {i : Nat} (h : i < 64) : (brevW a).getLsbD i = a.getLsbD (63 - i) := by
  rw [brevW, BitVec.getLsbD_reverse, BitVec.getMsbD_eq_getLsbD, decide_eq_true h, Bool.true_and]

/-- Byte i of a number written out as bytes. -/
theorem getElem_bytesOfNat (n : Nat) : ∀ (v i : Nat) (h : i < (bytesOfNat v n).length), (bytesOfNat v n)[i] = BitVec.ofNat 8 (v >>> (8 * i)) := by
  induction n with
  | zero => intro v i h; exact absurd h (by simp [bytesOfNat])
  | succ n ih =>
    intro v i h
    cases i with
    | zero => simp [bytesOfNat]
    | succ i =>
      have : 8 * (i + 1) = 8 + 8 * i := by ring
      simp only [bytesOfNat, List.getElem_cons_succ, ih, ← Nat.shiftRight_add, this]

/-- Byte i of the number that bytes hold. -/
theorem ofNat_natOfBytes_shiftRight (bs : List Byte) : ∀ (i : Nat) (h : i < bs.length), BitVec.ofNat 8 (natOfBytes bs >>> (8 * i)) = bs[i] := by
  induction bs with
  | nil => intro i h; exact absurd h (by simp)
  | cons b bs ih =>
    intro i h
    have hb := b.isLt
    cases i with
    | zero =>
      apply BitVec.eq_of_toNat_eq
      simp only [natOfBytes, Nat.shiftLeft_eq, Nat.mul_zero, Nat.shiftRight_zero, BitVec.toNat_ofNat, List.getElem_cons_zero]
      omega
    | succ i =>
      have hi : 8 * (i + 1) = 8 + 8 * i := by ring
      have hs : natOfBytes (b :: bs) >>> 8 = natOfBytes bs := by
        simp only [natOfBytes, Nat.shiftLeft_eq, Nat.shiftRight_eq_div_pow]
        omega
      rw [hi, Nat.shiftRight_add, hs, List.getElem_cons_succ]
      exact ih i (by simpa using h)

/-- Byte i of the word at the front of at most eight bytes. -/
theorem extractLsb'_wordOfBytes {bs : List Byte} {i : Nat} (h : i < bs.length) (h8 : i < 8) :
    (wordOfBytes bs).extractLsb' (8 * i) 8 = bs[i] := by
  rw [← ofNat_natOfBytes_shiftRight bs i h]
  apply BitVec.eq_of_getLsbD_eq
  intro j hj
  have : 8 * i + j < 64 := by omega
  simp only [wordOfBytes, BitVec.getLsbD_extractLsb', BitVec.getLsbD_ofNat, Nat.testBit_shiftRight, hj, this, decide_true,
    Bool.true_and]

theorem extractLsb'_bswapW (a : Word) {i : Nat} (h : i < 8) :
    (bswapW a).extractLsb' (8 * i) 8 = a.extractLsb' (8 * (7 - i)) 8 := by
  rw [bswapW, extractLsb'_wordOfBytes (by simpa using h) h, List.getElem_reverse]
  simp only [bytesOf, getElem_bytesOfNat, length_bytesOfNat, BitVec.extractLsb']

/-! ## Absolute value and negation (R95) -/

theorem absW_eq (a : Word) : absW a = if a.toInt < 0 then -a else a := by
  simp [absW, BitVec.slt_iff_toInt_lt]

/-! ## Bit fields (R96) -/

/-- A field that an encoding can hold ends within its register. -/
theorem fits_of_wellFormed {o : SBits} (h : (Instr.exts o).WellFormed) : o.pos.toNat + (o.wm1.toNat + 1) ≤ 64 := by
  have : o.pos.toNat + o.wm1.toNat + 1 ≤ 64 := by simpa only [Instr.WellFormed, Instr.wellFormed, wfBits, decide_eq_true_eq] using h
  omega

/-- A field shifted down and extended is the field extended. -/
theorem sext_ushiftRight (a : Word) {pos w : Nat} (hw : 0 < w) (h : pos + w ≤ 64) :
    sext (a >>> pos) w = (a.extractLsb' pos w).signExtend 64 := by
  apply BitVec.eq_of_getLsbD_eq
  intro i hi
  have hin : 64 - w + i < 64 ↔ i < w := by omega
  have hback : 64 - w + i - (64 - w) = i := by omega
  have htop : 63 - (64 - w) = w - 1 := by omega
  have hpos : ¬ 63 < 64 - w := by omega
  rw [sext, BitVec.getLsbD_sshiftRight, BitVec.getLsbD_signExtend]
  simp only [hin]
  split
  · simp [*]
  · simp [BitVec.msb_eq_getLsbD_last, *]

theorem zext_ushiftRight (a : Word) {pos w : Nat} (h : pos + w ≤ 64) :
    zext (a >>> pos) w = (a.extractLsb' pos w).setWidth 64 := by
  apply BitVec.eq_of_getLsbD_eq
  intro i hi
  have hin : 64 - w + i < 64 ↔ i < w := by omega
  have hback : 64 - w + i - (64 - w) = i := by omega
  rw [zext, BitVec.getLsbD_ushiftRight, BitVec.getLsbD_shiftLeft, BitVec.getLsbD_ushiftRight, BitVec.getLsbD_setWidth,
    BitVec.getLsbD_extractLsb', hback]
  simp [hin, hi]

theorem getLsbD_depW (old a : Word) {pos w i : Nat} (h : i < 64) :
    (depW old a pos w).getLsbD i = if pos ≤ i ∧ i < pos + w then a.getLsbD (i - pos) else old.getLsbD i := by
  have hmask : ((BitVec.ofNat 64 (2 ^ w - 1)) <<< pos).getLsbD i = decide (pos ≤ i ∧ i < pos + w) := by
    rw [BitVec.getLsbD_shiftLeft, BitVec.getLsbD_ofNat, Nat.testBit_two_pow_sub_one, Bool.eq_iff_iff]
    simp only [Bool.and_eq_true, Bool.not_eq_true', decide_eq_true_eq, decide_eq_false_iff_not]
    omega
  rw [depW, BitVec.getLsbD_or, BitVec.getLsbD_and, BitVec.getLsbD_and, BitVec.getLsbD_not, hmask, BitVec.getLsbD_shiftLeft]
  split
  · simp [*]
  · simp [*]

section BitFields

variable {o : SBits} {s : State}

theorem execExts_sends (hwf : (Instr.exts o).WellFormed) (h : Effective o.qp [.x o.a, .x o.d] s) :
    execExts o s = .next (s.sendsX o.d (((s.core.x o.a).extractLsb' o.pos.toNat (o.wm1.toNat + 1)).signExtend 64) (s.core.xp o.a) 1) :=
  begin_writeX h (sext_ushiftRight _ (Nat.succ_pos _) (fits_of_wellFormed hwf))

theorem execExtz_sends (hwf : (Instr.exts o).WellFormed) (h : Effective o.qp [.x o.a, .x o.d] s) :
    execExtz o s = .next (s.sendsX o.d (((s.core.x o.a).extractLsb' o.pos.toNat (o.wm1.toNat + 1)).setWidth 64) (s.core.xp o.a) 1) :=
  begin_writeX h (zext_ushiftRight _ (fits_of_wellFormed hwf))

theorem execDep_sends (h : Effective o.qp [.x o.a, .x o.d] s) :
    execDep o s = .next (s.sendsX o.d (depW (s.core.x o.d) (s.core.x o.a) o.pos.toNat (o.wm1.toNat + 1))
      (s.core.xp o.a || s.core.xp o.d) 1) := begin_writeX h rfl

end BitFields

/-! ## Register forms of the arithmetic (R92) -/

theorem shiftOf_eq (b : Word) : shiftOf b = b.toNat % 64 := by
  simp [shiftOf, field, BitVec.extractLsb'_toNat]

/-- A rotation puts back on top what the shift drops. -/
theorem rorW_eq (a : Word) {n : Nat} (h : n < 64) : rorW a n = a >>> n ||| a <<< (64 - n) := by
  rw [rorW, BitVec.rotateRight_def, Nat.mod_eq_of_lt h]

/-- Where a tie makes no difference, a strict comparison chooses as a comparison does. -/
theorem ite_lt_eq_ite_le {α β : Type} [LinearOrder α] {i j : α} {x y : β} (tie : i = j → x = y) :
    (if i < j then x else y) = if i ≤ j then x else y := by
  obtain h | h | h := lt_trichotomy i j
  · rw [if_pos h, if_pos h.le]
  · rw [tie h, ite_self, ite_self]
  · rw [if_neg h.not_gt, if_neg h.not_ge]

theorem sMin_eq (a b : Word) : sMin a b = if a.toInt ≤ b.toInt then a else b := by
  simp only [sMin, BitVec.slt_iff_toInt_lt]
  exact ite_lt_eq_ite_le BitVec.toInt_inj.mp

theorem sMax_eq (a b : Word) : sMax a b = if a.toInt ≤ b.toInt then b else a := by
  simp only [sMax, BitVec.slt_iff_toInt_lt]
  exact ite_lt_eq_ite_le fun h => (BitVec.toInt_inj.mp h).symm

theorem uMin_eq (a b : Word) : uMin a b = if a.toNat ≤ b.toNat then a else b := by
  simp only [uMin, BitVec.ult_iff_lt, BitVec.lt_def]
  exact ite_lt_eq_ite_le BitVec.eq_of_toNat_eq

theorem uMax_eq (a b : Word) : uMax a b = if a.toNat ≤ b.toNat then b else a := by
  simp only [uMax, BitVec.ult_iff_lt, BitVec.lt_def]
  exact ite_lt_eq_ite_le fun h => (BitVec.eq_of_toNat_eq h).symm

/-! ## Multiplication and division (R94) -/

theorem divZ_eq (a b : Word) : divZ a b = if b = 0 then BitVec.allOnes 64 else a / b := by
  have : BitVec.ofNat 64 (a.toNat / b.toNat) = a / b := by
    apply BitVec.eq_of_toNat_eq
    rw [BitVec.toNat_ofNat, BitVec.toNat_udiv, Nat.mod_eq_of_lt ((Nat.div_le_self ..).trans_lt a.isLt)]
  rw [divZ, this]

theorem remZ_eq (a b : Word) : remZ a b = if b = 0 then a else a % b := by
  have : BitVec.ofNat 64 (a.toNat % b.toNat) = a % b := by
    apply BitVec.eq_of_toNat_eq
    rw [BitVec.toNat_ofNat, BitVec.toNat_umod, Nat.mod_eq_of_lt ((Nat.mod_le ..).trans_lt a.isLt)]
  rw [remZ, this]

/-! ## Shift amounts that are refused (R93) -/

/-- OP 14 to 17: a shift by an immediate asks that the bits above the amount be zero. -/
theorem decodeS_shiftImm (s1 : Bool) {w : BitVec 36} (h : field w 30 6 ∈ [0x14#6, 0x15, 0x16, 0x17]) :
    ∃ i, decodeS s1 w = need (field w 6 8 == 0) i := by
  simp only [List.mem_cons, List.not_mem_nil, or_false] at h
  rcases h with h | h | h | h <;> exact ⟨_, by rw [decodeS, if_neg (nonzero 30 6 h (by decide)), h]; rfl⟩

/-! ## Moves of one field (R98, R99) -/

/-- A bit of a word one field of which is replaced. -/
theorem getLsbD_putField {w n : Nat} (x : BitVec w) (lo : Nat) (v : BitVec n) {i : Nat} (h : i < w) :
    (putField x lo v).getLsbD i = if lo ≤ i ∧ i < lo + n then v.getLsbD (i - lo) else x.getLsbD i := by
  have hmask : (((BitVec.allOnes n).setWidth w) <<< lo).getLsbD i = decide (lo ≤ i ∧ i < lo + n) := by
    rw [BitVec.getLsbD_shiftLeft, BitVec.getLsbD_setWidth, BitVec.getLsbD_allOnes, Bool.eq_iff_iff]
    simp only [Bool.and_eq_true, Bool.not_eq_true', decide_eq_true_eq, decide_eq_false_iff_not]
    omega
  rw [putField, BitVec.getLsbD_or, BitVec.getLsbD_and, BitVec.getLsbD_not, hmask, BitVec.getLsbD_shiftLeft, BitVec.getLsbD_setWidth]
  split
  · have hlo : ¬ i < lo := by omega
    have hlt : i - lo < w := by omega
    simp [*]
  · by_cases hlo : i < lo
    · simp [*]
    · have hv : v.getLsbD (i - lo) = false := BitVec.getLsbD_of_ge v _ (by omega)
      simp [*]

/-- Element j of a word whose element k is replaced. -/
theorem extractLsb'_putField {w n : Nat} (x : BitVec w) (k : Nat) (v : BitVec n) {j : Nat} (hj : n * (j + 1) ≤ w) :
    (putField x (n * k) v).extractLsb' (n * j) n = if j = k then v else x.extractLsb' (n * j) n := by
  apply BitVec.eq_of_getLsbD_eq
  intro i hi
  rw [Nat.mul_succ] at hj
  rw [BitVec.getLsbD_extractLsb', getLsbD_putField _ _ _ (by omega)]
  obtain h | rfl | h := lt_trichotomy j k
  · have : n * (j + 1) ≤ n * k := Nat.mul_le_mul_left n h
    rw [Nat.mul_succ] at this
    rw [if_neg (by omega), if_neg h.ne]
    simp [hi]
  · simp [hi]
  · have : n * (k + 1) ≤ n * j := Nat.mul_le_mul_left n h
    rw [Nat.mul_succ] at this
    rw [if_neg (by omega), if_neg h.ne']
    simp [hi]

/-- A shifted and masked number is a field of the word it came from. -/
theorem ofNat_shiftRight_mod {w : Nat} (x : BitVec w) (lo n m : Nat) :
    BitVec.ofNat m ((x.toNat >>> lo) % 2 ^ n) = (x.extractLsb' lo n).setWidth m := by
  rw [← BitVec.extractLsb'_toNat, BitVec.ofNat_toNat]

/-- The elements of a width fill a v register. -/
theorem elemWidth_mul_div (ew : BitVec 2) : elemWidth ew * (4096 / elemWidth ew) = 4096 := by
  revert ew; decide

/-! ## Words of the moves (R97) -/

theorem decodeS_lea (s1 : Bool) (qp : PredNo) (d a b : RegNo) (fn : BitVec 8) :
    decodeS s1 (wSR 0x05#6 qp d a b fn) = need (field fn 2 6 == 0) (.lea ⟨qp, d, a, b, field fn 0 2⟩) := by
  rw [decodeS, if_neg (nonzero 30 6 (wSR_op ..) (by decide)), wSR_op, wSR_qp, wSR_d, wSR_a, wSR_b, wSR_low _ _ _ _ _ _ 2 6 (by decide),
    wSR_low _ _ _ _ _ _ 0 2 (by decide)]
  rfl

theorem decodeS_sel (s1 : Bool) (qp : PredNo) (d a b : RegNo) (fn : BitVec 8) :
    decodeS s1 (wSR 0x06#6 qp d a b fn) = need (field fn 4 4 == 0) (.sel ⟨qp, d, a, b, field fn 0 4⟩) := by
  rw [decodeS, if_neg (nonzero 30 6 (wSR_op ..) (by decide)), wSR_op, wSR_qp, wSR_d, wSR_a, wSR_b, wSR_low _ _ _ _ _ _ 4 4 (by decide),
    wSR_low _ _ _ _ _ _ 0 4 (by decide)]
  rfl

/-- The bits of a field from lo up are not all zero where the field is at least 2^lo. -/
theorem field_ne_zero {w lo n : Nat} (x : BitVec w) (hw : w = lo + n) (h : 2 ^ lo ≤ x.toNat) : (field x lo n == 0) = false := by
  apply beq_false_of_ne
  intro hz
  have hlt : x.toNat / 2 ^ lo < 2 ^ n := Nat.div_lt_of_lt_mul (by rw [← Nat.pow_add, ← hw]; exact x.isLt)
  have hzero : x.toNat / 2 ^ lo = 0 := by
    rw [← Nat.mod_eq_of_lt hlt, ← Nat.shiftRight_eq_div_pow, ← BitVec.extractLsb'_toNat]
    exact congrArg BitVec.toNat hz
  exact (Nat.div_pos h (Nat.two_pow_pos lo)).ne' hzero

section Moves

variable {s : State}

theorem execLea_sends {o : SLea} (h : Effective o.qp [.x o.a, .x o.b, .x o.d] s) :
    execLea o s = .next (s.sendsX o.d (s.core.x o.a + s.core.x o.b <<< o.sh.toNat) (s.core.xp o.a || s.core.xp o.b) 1) :=
  begin_writeX h rfl

/-- The register that SEL selects gives the value and the poison. -/
theorem execSel_sends {o : SSel} (h : Effective o.qp [.x o.a, .x o.b, .x o.d] s) :
    execSel o s = .next (s.sendsX o.d (s.core.x (if s.core.p o.pn = true then o.a else o.b))
      (s.core.xp (if s.core.p o.pn = true then o.a else o.b)) 1) := begin_effective h

theorem execMovi_sends {o : SL} (h : Effective o.qp [.x o.d] s) :
    execMovi o s = .next (s.sendsX o.d (o.imm.signExtend 64) false 1) := begin_writeX h rfl

theorem execMovk_sends {o : SMovk} (h : Effective o.qp [.x o.d] s) :
    execMovk o s = .next (s.sendsX o.d (putField (s.core.x o.d) (16 * o.h.toNat) o.imm) (s.core.xp o.d) 1) := begin_writeX h rfl

theorem execVextr_sends {o : SElem} (h : Effective o.qp [.v o.a, .x o.b, .x o.d] s) (hb : s.core.xp o.b = false) :
    execVextr o s = .next (s.sendsX o.d
      (((s.core.v o.a).bits.extractLsb' (elemWidth o.ew * ((s.core.x o.b).toNat % (4096 / elemWidth o.ew))) (elemWidth o.ew)).setWidth 64)
      (s.core.v o.a).poison 4) := by
  rw [execVextr, begin_effective h, hb, if_neg Bool.false_ne_true, ← ofNat_shiftRight_mod]
  rfl

theorem execVins_sends {o : SElem} (h : Effective o.qp [.x o.a, .x o.b, .v o.d] s) (hb : s.core.xp o.b = false) :
    execVins o s = .next (s.sendsV o.d
      (putField (s.core.v o.d).bits (elemWidth o.ew * ((s.core.x o.b).toNat % (4096 / elemWidth o.ew))) ((s.core.x o.a).setWidth (elemWidth o.ew)))
      (if (s.core.v o.d).tag = tINVALID then tBITS else (s.core.v o.d).tag) ((s.core.v o.d).poison || s.core.xp o.a) 4) := by
  rw [execVins, begin_effective h, hb]
  rfl

end Moves

/-! ## Conditions and combining types (R100, R101) -/

theorem combine_eq (ct : BitVec 3) (p q c : Bool) : combine ct p q c =
    (match ct.toNat with
      | 0 => (c, !c)
      | 1 => (c, c)
      | 2 => (p && c, q && c)
      | 3 => (p || c, q || c)
      | 4 => (p && !c, q && !c)
      | 5 => (p || !c, q || !c)
      | 6 => (p && c, q || c)
      | _ => (p != c, !(p != c))) := rfl

/-- The signed value of 64 bits. -/
theorem sNat_toNat (a : Word) : sNat 64 a.toNat = a.toInt := by
  have := a.isLt
  rw [sNat, BitVec.toInt_eq_toNat_cond, Nat.mod_eq_of_lt this]
  split <;> split <;> omega

theorem icond_eq (a b : Word) (cond : BitVec 3) : icond 64 cond a.toNat b.toNat =
    (match cond.toNat with
      | 0 => decide (a = b)
      | 1 => decide (a ≠ b)
      | 2 => decide (a.toInt < b.toInt)
      | 3 => decide (a.toInt ≤ b.toInt)
      | 4 => decide (a.toNat < b.toNat)
      | 5 => decide (a.toNat ≤ b.toNat)
      | 6 => a.getLsbD (b.toNat % 64)
      | _ => !(a.getLsbD (b.toNat % 64))) := by
  have heq : (a.toNat == b.toNat) = decide (a = b) := by rw [Bool.eq_iff_iff]; simp [BitVec.toNat_inj]
  have hne : (a.toNat != b.toNat) = decide (a ≠ b) := by rw [bne, heq, decide_not]
  rw [icond, sNat_toNat, sNat_toNat, heq, hne]
  rfl

section Compares

variable {o : SC} {s : State}

theorem compare_sound {poison c : Bool} {lat : Nat} (h : poison = false) : compare o poison c lat s =
    .next ((s.sends (.p o.p1 (combine o.ct (s.core.p o.p1) (s.core.p o.p2) c).1) lat).sends
      (.p o.p2 (combine o.ct (s.core.p o.p1) (s.core.p o.p2) c).2) lat) := by subst h; rfl

theorem compare_poisoned {poison c : Bool} {lat : Nat} (h : poison = true) : compare o poison c lat s = fault poisonConsumed s := by
  subst h; rfl

theorem execIcmp_compares (h : Effective o.qp [.x o.a, .x o.b] s) : execIcmp o s =
    compare o (s.core.xp o.a || s.core.xp o.b) (icond 64 o.cond (s.core.x o.a).toNat (s.core.x o.b).toNat) 1 s := begin_effective h

theorem execFcmp_compares (h : Effective o.qp [.x o.a, .x o.b] s) : execFcmp o s =
    compare o (s.core.xp o.a || s.core.xp o.b)
      (fcond o.cond (Fmt.fp64.decode (s.core.x o.a).toNat) (Fmt.fp64.decode (s.core.x o.b).toNat)) 4 s := begin_effective h

/-- ICMPI's operand is a signed immediate, or a bit number for the conditions on a bit. -/
theorem execIcmpi_compares (h : Effective o.qp [.x o.a] s) : execIcmpi o s =
    compare o (s.core.xp o.a) (icond 64 o.cond (s.core.x o.a).toNat
      (if o.cond.toNat < 6 then o.b.signExtend 64 else o.b.setWidth 64 : Word).toNat) 1 s := begin_effective h

end Compares

/-! ## Predicate logic and the moves of all predicates (R105, R106) -/

theorem decodeS_plog (s1 : Bool) (qp : PredNo) (d a b : RegNo) (fn : BitVec 8) :
    decodeS s1 (wSR 0x28#6 qp d a b fn) = decPlog fn qp d a b := by
  rw [decodeS, if_neg (nonzero 30 6 (wSR_op ..) (by decide)), wSR_op, wSR_qp, wSR_d, wSR_a, wSR_b, wSR_low _ _ _ _ _ _ 0 8 (by decide),
    field_all]
  rfl

/-- Predicate logic refuses a register field of 16 or more. -/
theorem decPlog_refuses_large {fn : BitVec 8} (qp : PredNo) {d a b : RegNo} (hfn : fn.toNat < 5)
    (h : 16 ≤ d.toNat ∨ 16 ≤ a.toNat ∨ 16 ≤ b.toNat) : decPlog fn qp d a b = .bad .illegalOperand := by
  have hsmall : (field d 4 2 == 0 && field a 4 2 == 0 && field b 4 2 == 0) = false := by
    obtain h | h | h := h <;> simp only [field_ne_zero (lo := 4) (n := 2) _ rfl h, Bool.and_false, Bool.false_and]
  have hmem : fn.toNat ∈ List.range 5 := List.mem_range.mpr hfn
  rw [decPlog, hsmall]
  generalize fn.toNat = n at hmem
  fin_cases hmem <;> rfl

/-- PNOT refuses a B that is not zero. -/
theorem decPlog_refuses_b (qp : PredNo) (d a : RegNo) {b : RegNo} (h : b ≠ 0) : decPlog 4 qp d a b = .bad .illegalOperand :=
  need_refuses (by rw [beq_false_of_ne h, Bool.and_false])

theorem decodeS_pget (s1 : Bool) (qp : PredNo) (d a b : RegNo) :
    decodeS s1 (wSR 0x29#6 qp d a b 0) = need (a == 0 && b == 0) (.pget ⟨qp, d⟩) := by
  rw [decodeS, if_neg (nonzero 30 6 (wSR_op ..) (by decide)), wSR_op, wSR_qp, wSR_d, wSR_a, wSR_b, wSR_low _ _ _ _ _ _ 0 8 (by decide),
    field_all]
  rfl

theorem decodeS_pset (s1 : Bool) (qp : PredNo) (d a b : RegNo) :
    decodeS s1 (wSR 0x29#6 qp d a b 1) = need (d == 0 && b == 0) (.pset ⟨qp, a⟩) := by
  rw [decodeS, if_neg (nonzero 30 6 (wSR_op ..) (by decide)), wSR_op, wSR_qp, wSR_d, wSR_a, wSR_b, wSR_low _ _ _ _ _ _ 0 8 (by decide),
    field_all]
  rfl

section Predicates

variable {s : State}

theorem execPnot_sends {o : SP1} (h : Effective o.qp [] s) : execPnot o s = .next (s.sends (.p o.d (!(s.core.p o.a))) 1) :=
  begin_effective h

theorem execPget_sends {o : SD} (h : Effective o.qp [.x o.d] s) :
    execPget o s = .next (s.sendsX o.d (zextW (s.core.r.p ||| 1#16)) false 1) := begin_writeX h rfl

/-- Bit i of PGET's result is predicate i; p0 reads 1. -/
theorem getLsbD_pget (c : Core) (i : PredNo) : (zextW (c.r.p ||| 1#16)).getLsbD i.toNat = c.p i := by
  have hlt : i.toNat < 64 := i.isLt.trans (by decide)
  have hz : decide (i.toNat = 0) = (i == 0) := by rw [Bool.eq_iff_iff]; simp [← BitVec.toNat_inj]
  rw [zextW, BitVec.getLsbD_setWidth, BitVec.getLsbD_or, BitVec.getLsbD_one, Core.p, decide_eq_true hlt, hz, Bool.or_comm]
  rfl

/-- Nothing stands above the sixteen predicates. -/
theorem getLsbD_pget_high (c : Core) {j : Nat} (h : 16 ≤ j) : (zextW (c.r.p ||| 1#16)).getLsbD j = false := by
  rw [zextW, BitVec.getLsbD_setWidth, BitVec.getLsbD_of_ge _ _ h, Bool.and_false]

theorem mapCore_congr {f g : Core → Core} (h : f s.core = g s.core) : s.mapCore f = s.mapCore g := by
  rw [State.mapCore, State.mapCore, h]

/-- Results sent one after another are pushed one after another. -/
theorem foldl_sends {ι : Type} (l : List ι) (g : ι → Landing) (lat : Nat) : ∀ s : State,
    l.foldl (fun u i => u.sends (g i) lat) s = s.mapCore (fun c => l.foldl (fun k i => k.push (g i) lat) c) := by
  induction l with
  | nil => intro s; rfl
  | cons i l ih => intro s; exact ih _

theorem execPset_sends {o : SA} (h : Effective o.qp [.x o.a] s) (ha : s.core.xp o.a = false) : execPset o s =
    .next ((List.range 15).foldl (fun u i => u.sends (.p (BitVec.ofNat 4 (i + 1)) ((s.core.x o.a).getLsbD (i + 1))) 1) s) := by
  rw [execPset, begin_effective h, ha, if_neg Bool.false_ne_true, foldl_sends _ (fun i => .p (BitVec.ofNat 4 (i + 1)) _)]
  exact congrArg Host.Outcome.next (mapCore_congr rfl)

theorem execPset_poisoned {o : SA} (h : Effective o.qp [.x o.a] s) (ha : s.core.xp o.a = true) :
    execPset o s = fault poisonConsumed s := by
  rw [execPset, begin_effective h, ha]; rfl

end Predicates

/-! ## The obligations of spec/04 -/

/-- Settles O3: each result's bits, from the values the operations are defined by. -/
theorem unaryAndBitFields : Obligations.UnaryAndBitFields := by
  unfold Obligations.UnaryAndBitFields
  refine ⟨fun o => rfl, fun qp d a b fn s1 hfn hb => ?_, fun o s h => ?_, fun o s hwf h => ?_⟩
  · have hz : (b == 0) = false := by simpa using hb
    exact (decodeS_unary s1 qp d a b fn).trans (hz ▸ decUnary_refuses _ hfn)
  · obtain ⟨n, hn, hclz, hclz0, hclz1⟩ := clzW_counts (s.core.x o.a)
    obtain ⟨m, hm, hctz, hctz0, hctz1⟩ := ctzW_counts (s.core.x o.a)
    exact ⟨⟨n, hn, alu1_sends clzW h hclz, hclz0, hclz1⟩, ⟨m, hm, alu1_sends ctzW h hctz, hctz0, hctz1⟩,
      alu1_sends popcW h (popcW_eq _),
      ⟨_, alu1_sends brevW h rfl, fun _ hi => getLsbD_brevW _ hi⟩, ⟨_, alu1_sends bswapW h rfl, fun _ hi => extractLsb'_bswapW _ hi⟩,
      alu1_sends absW h (absW_eq _), alu1_sends (fun a => 0 - a) h (BitVec.zero_sub _)⟩
  · exact ⟨execExts_sends hwf h, execExtz_sends hwf h, _, execDep_sends h, fun _ hi => getLsbD_depW _ _ hi⟩

/-- Settles O1: each operation of R92 and R93 is its function of the sources. -/
theorem integerArithmetic : Obligations.IntegerArithmetic := by
  unfold Obligations.IntegerArithmetic
  refine ⟨fun o => rfl, fun o => rfl, fun o => rfl, fun s1 w hop hsh => ?_, fun o s h => ?_, fun o s h => ?_, fun o s h => ?_⟩
  · obtain ⟨i, hi⟩ := decodeS_shiftImm s1 hop
    exact hi.trans (need_refuses (beq_false_of_ne hsh))
  · have hn := shiftOf_eq (s.core.x o.b)
    exact ⟨alu2_sends (fun a b => a + b) h rfl, alu2_sends (fun a b => a - b) h rfl, alu2_sends (fun a b => a &&& b) h rfl,
      alu2_sends (fun a b => a ||| b) h rfl, alu2_sends (fun a b => a ^^^ b) h rfl, alu2_sends (fun a b => a &&& ~~~b) h rfl,
      alu2_sends (fun a b => a ||| ~~~b) h rfl, alu2_sends (fun a b => a <<< shiftOf b) h (by rw [hn]),
      alu2_sends (fun a b => a >>> shiftOf b) h (by rw [hn]), alu2_sends (fun a b => a.sshiftRight (shiftOf b)) h (by rw [hn]),
      alu2_sends (fun a b => rorW a (shiftOf b)) h (by rw [hn, rorW_eq _ (Nat.mod_lt _ (by decide))]),
      alu2_sends sMin h (sMin_eq ..), alu2_sends sMax h (sMax_eq ..), alu2_sends uMin h (uMin_eq ..), alu2_sends uMax h (uMax_eq ..)⟩
  · exact ⟨aluI_sends (fun a b => a + b) h rfl, aluI_sends (fun a b => a &&& b) h rfl, aluI_sends (fun a b => a ||| b) h rfl,
      aluI_sends (fun a b => a ^^^ b) h rfl⟩
  · exact ⟨aluSh_sends (fun a n => a <<< n) h rfl, aluSh_sends (fun a n => a >>> n) h rfl,
      aluSh_sends (fun a n => a.sshiftRight n) h rfl, aluSh_sends rorW h (rorW_eq _ o.sh.isLt)⟩

/-- Settles O2: products and quotients with the corners of R94. -/
theorem multiplyDivide : Obligations.MultiplyDivide := by
  unfold Obligations.MultiplyDivide
  refine ⟨fun o => rfl, fun o => rfl, fun o s h => ?_, fun o s h => aluI_sends (fun a b => a * b) h rfl⟩
  exact ⟨alu2_sends (fun a b => a * b) h rfl, alu2_sends mulHigh h rfl, alu2_sends mulHighZ h rfl, alu2_sends divS h rfl,
    alu2_sends divZ h (divZ_eq ..), alu2_sends remS h rfl, alu2_sends remZ h (remZ_eq ..)⟩

/-- Settles O4: the value each move sends, an element or a halfword seen through its place. -/
theorem scalarMoves : Obligations.ScalarMoves := by
  unfold Obligations.ScalarMoves
  refine ⟨fun o => rfl, fun o => rfl, fun o => rfl, fun o => rfl, fun qp d a b fn s1 => ⟨fun hfn => ?_, fun hfn => ?_⟩,
    fun o s h => execLea_sends h, fun o s h => execSel_sends h, fun o s h => execMovi_sends h,
    fun o s h => ⟨_, execMovk_sends h, fun j hj => extractLsb'_putField _ _ _ (by omega)⟩,
    fun o s h hb => execVextr_sends h hb, fun o s h hb => ⟨_, execVins_sends h hb, fun j hj => ?_⟩⟩
  · exact (decodeS_lea s1 qp d a b fn).trans (need_refuses (field_ne_zero fn rfl hfn))
  · exact (decodeS_sel s1 qp d a b fn).trans (need_refuses (field_ne_zero fn rfl hfn))
  · exact extractLsb'_putField _ _ _ ((Nat.mul_le_mul_left _ hj).trans_eq (elemWidth_mul_div o.ew))

/-- Settles O5: the pair of a compare by its type, predicate logic, PGET and PSET. -/
theorem comparesAndPredicates : Obligations.ComparesAndPredicates := by
  unfold Obligations.ComparesAndPredicates
  refine ⟨fun o => rfl, fun o => rfl, fun o => rfl, fun o => rfl, fun qp d a b fn s1 => ⟨fun hfn h => ?_, fun h => ?_⟩,
    ⟨combine_eq, icond_eq, fun o s => ⟨fun h => ⟨fun hp => ?_, fun hp => ?_⟩, fun h => ⟨fun hp => ?_, fun hp => ?_⟩⟩⟩,
    fun o s h => ?_, fun o s h => execPnot_sends h,
    fun o s h => ⟨_, execPget_sends h, fun i => ⟨getLsbD_pget _ i, fun _ => getLsbD_pget_high _⟩⟩,
    fun o s h => ⟨fun ha => ⟨_, execPset_sends h ha, rfl⟩, execPset_poisoned h⟩⟩
  · refine (decodeS_plog s1 qp d a b fn).trans ?_
    obtain hd | ha | hb | ⟨rfl, hb⟩ := h
    · exact decPlog_refuses_large qp hfn (.inl hd)
    · exact decPlog_refuses_large qp hfn (.inr (.inl ha))
    · exact decPlog_refuses_large qp hfn (.inr (.inr hb))
    · exact decPlog_refuses_b qp d a hb
  · obtain ⟨rfl, h⟩ | ⟨rfl, h⟩ := h
    · exact (decodeS_pget s1 qp d a b).trans (need_refuses (by simpa [or_iff_not_imp_left] using h))
    · exact (decodeS_pset s1 qp d a b).trans (need_refuses (by simpa [or_iff_not_imp_left] using h))
  · have hp : (s.core.xp o.a || s.core.xp o.b) = false := by rw [hp.1, hp.2]; rfl
    exact ⟨(execIcmp_compares h).trans (compare_sound hp), (execFcmp_compares h).trans (compare_sound hp)⟩
  · have hp : (s.core.xp o.a || s.core.xp o.b) = true := by simpa using hp
    exact ⟨(execIcmp_compares h).trans (compare_poisoned hp), (execFcmp_compares h).trans (compare_poisoned hp)⟩
  · exact (execIcmpi_compares h).trans (compare_sound hp)
  · exact (execIcmpi_compares h).trans (compare_poisoned hp)
  · exact ⟨plog_sends (fun a b => a && b) h, plog_sends (fun a b => a || b) h, plog_sends (fun a b => xor a b) h,
      plog_sends (fun a b => a && !b) h⟩

end Sys2Proof.Proofs

namespace Sys2Proof.Proofs

open Sys2Proof Sys2Proof.Machine Sys2Proof.Laws

/-! ## Words put together from their fields (R72 to R77) -/

theorem need_ok {c : Bool} {i j : Instr} : need c i = .ok j ↔ c = true ∧ i = j := by
  unfold need; cases c <;> simp

/-- A field of known value is that value's bits. -/
theorem eq_ofNat_of_toNat {n k : Nat} {x : BitVec n} (h : x.toNat = k) : x = BitVec.ofNat n k := by
  subst h; simp

/-- A field is its high bits before its low ones. -/
theorem field_append {v lo m n : Nat} {w : BitVec v} {x : BitVec m} {y : BitVec n} (hx : field w (lo + n) m = x)
    (hy : field w lo n = y) : field w lo (m + n) = x ++ y := by
  subst hx hy
  apply BitVec.eq_of_getLsbD_eq
  intro i hi
  simp only [field, BitVec.getLsbD_append, BitVec.getLsbD_extractLsb', hi, decide_true, Bool.true_and]
  split
  · simp [*]
  · have hin : i - n < m := by omega
    have hat : lo + n + (i - n) = lo + i := by omega
    simp [hin, hat]

/-- A one-bit field is its bit. -/
theorem field_one {v : Nat} (w : BitVec v) (lo : Nat) : field w lo 1 = bit (bitAt w lo) := by
  apply BitVec.eq_of_getLsbD_eq
  intro i hi
  obtain rfl : i = 0 := by omega
  refine Eq.trans ?_ (bit_bit _).symm
  simp [field, bitAt]

theorem field_of_clear {v lo : Nat} {w : BitVec v} (h : bitAt w lo = false) : field w lo 1 = 0#1 := by rw [field_one, h]; rfl

theorem field_of_set {v lo : Nat} {w : BitVec v} (h : bitAt w lo = true) : field w lo 1 = 1#1 := by rw [field_one, h]; rfl

theorem wSR_of_fields {w : BitVec 36} {op : BitVec 6} {qp : PredNo} {d a b : RegNo} {fn : BitVec 8} (h0 : field w 30 6 = op)
    (h1 : field w 26 4 = qp) (h2 : field w 20 6 = d) (h3 : field w 14 6 = a) (h4 : field w 8 6 = b) (h5 : field w 0 8 = fn) :
    wSR op qp d a b fn = w :=
  .symm <| (field_all w).symm.trans <| field_append (lo := 0) (m := 28) (n := 8) (field_append (lo := 8) (m := 22) (n := 6)
    (field_append (lo := 14) (m := 16) (n := 6) (field_append (lo := 20) (m := 10) (n := 6)
      (field_append (lo := 26) (m := 6) (n := 4) h0 h1) h2) h3) h4) h5

theorem wSI_of_fields {w : BitVec 36} {op : BitVec 6} {qp : PredNo} {d a : RegNo} {imm : BitVec 14} (h0 : field w 30 6 = op)
    (h1 : field w 26 4 = qp) (h2 : field w 20 6 = d) (h3 : field w 14 6 = a) (h4 : field w 0 14 = imm) : wSI op qp d a imm = w :=
  .symm <| (field_all w).symm.trans <| field_append (lo := 0) (m := 22) (n := 14) (field_append (lo := 14) (m := 16) (n := 6)
    (field_append (lo := 20) (m := 10) (n := 6) (field_append (lo := 26) (m := 6) (n := 4) h0 h1) h2) h3) h4

theorem wSL_of_fields {w : BitVec 36} {op : BitVec 6} {qp : PredNo} {d : RegNo} {imm : BitVec 20} (h0 : field w 30 6 = op)
    (h1 : field w 26 4 = qp) (h2 : field w 20 6 = d) (h3 : field w 0 20 = imm) : wSL op qp d imm = w :=
  .symm <| (field_all w).symm.trans <| field_append (lo := 0) (m := 16) (n := 20) (field_append (lo := 20) (m := 10) (n := 6)
    (field_append (lo := 26) (m := 6) (n := 4) h0 h1) h2) h3

/-- A field of a field, both within a word. -/
theorem field_field {v n : Nat} (w : BitVec v) (lo k m : Nat) (h : k + m ≤ n) : field (field w lo n) k m = field w (lo + k) m := by
  apply BitVec.eq_of_getLsbD_eq
  intro i hi
  have : k + i < n := by omega
  simp [field, hi, this, Nat.add_assoc]

theorem wSL_of_low {w : BitVec 36} {op : BitVec 6} {qp : PredNo} (h0 : field w 30 6 = op) (h1 : field w 26 4 = qp)
    (h2 : field w 0 26 = 0) : wSL op qp 0 0 = w :=
  wSL_of_fields h0 h1 ((field_field w 0 20 6 (n := 26) (by decide)).symm.trans (by rw [h2]; exact field_zero))
    ((field_field w 0 0 20 (n := 26) (by decide)).symm.trans (by rw [h2]; exact field_zero))

theorem wSC_of_fields {w : BitVec 36} {op : BitVec 6} {o : SC} (h0 : field w 30 6 = op) (h1 : field w 26 4 = o.qp)
    (h2 : field w 22 4 = o.p1) (h3 : field w 18 4 = o.p2) (h4 : field w 15 3 = o.ct) (h5 : field w 12 3 = o.cond)
    (h6 : field w 6 6 = o.a) (h7 : field w 0 6 = o.b) : wSC op o = w :=
  .symm <| (field_all w).symm.trans <| field_append (lo := 0) (m := 30) (n := 6) (field_append (lo := 6) (m := 24) (n := 6)
    (field_append (lo := 12) (m := 21) (n := 3) (field_append (lo := 15) (m := 18) (n := 3) (field_append (lo := 18) (m := 14) (n := 4)
      (field_append (lo := 22) (m := 10) (n := 4) (field_append (lo := 26) (m := 6) (n := 4) h0 h1) h2) h3) h4) h5) h6) h7

theorem wSB_of_fields {w : BitVec 36} {op : BitVec 6} {o : SBr} (h0 : field w 30 6 = op) (h1 : field w 26 4 = o.qp)
    (h2 : field w 0 26 = o.disp) : wSB op o = w :=
  .symm <| (field_all w).symm.trans <| field_append (lo := 0) (m := 10) (n := 26) (field_append (lo := 26) (m := 6) (n := 4) h0 h1) h2

theorem wVR_of_fields {w : BitVec 40} {op : BitVec 6} {qp : PredNo} {km : BitVec 3} {d : RegNo} {a b fn : BitVec 7}
    (h0 : field w 34 6 = op) (h1 : field w 30 4 = qp) (h2 : field w 27 3 = km) (h3 : field w 21 6 = d) (h4 : field w 14 7 = a)
    (h5 : field w 7 7 = b) (h6 : field w 0 7 = fn) : wVR op qp km d a b fn = w :=
  .symm <| (field_all w).symm.trans <| field_append (lo := 0) (m := 33) (n := 7) (field_append (lo := 7) (m := 26) (n := 7)
    (field_append (lo := 14) (m := 19) (n := 7) (field_append (lo := 21) (m := 13) (n := 6) (field_append (lo := 27) (m := 10) (n := 3)
      (field_append (lo := 30) (m := 6) (n := 4) h0 h1) h2) h3) h4) h5) h6

theorem wVI_of_fields {w : BitVec 40} {op : BitVec 6} {qp : PredNo} {km : BitVec 3} {d : RegNo} {a : BitVec 7} {imm : BitVec 14}
    (h0 : field w 34 6 = op) (h1 : field w 30 4 = qp) (h2 : field w 27 3 = km) (h3 : field w 21 6 = d) (h4 : field w 14 7 = a)
    (h5 : field w 0 14 = imm) : wVI op qp km d a imm = w :=
  .symm <| (field_all w).symm.trans <| field_append (lo := 0) (m := 26) (n := 14) (field_append (lo := 14) (m := 19) (n := 7)
    (field_append (lo := 21) (m := 13) (n := 6) (field_append (lo := 27) (m := 10) (n := 3)
      (field_append (lo := 30) (m := 6) (n := 4) h0 h1) h2) h3) h4) h5

theorem wML_of_fields {w : BitVec 40} {op : BitVec 6} {o : ML} (h0 : field w 34 6 = op) (h1 : field w 30 4 = o.qp)
    (h2 : field w 24 6 = o.rg) (h3 : field w 18 6 = o.base) (h4 : field w 0 18 = o.off) : wML op o = w :=
  .symm <| (field_all w).symm.trans <| field_append (lo := 0) (m := 22) (n := 18) (field_append (lo := 18) (m := 16) (n := 6)
    (field_append (lo := 24) (m := 10) (n := 6) (field_append (lo := 30) (m := 6) (n := 4) h0 h1) h2) h3) h4

theorem wMG_of_fields {w : BitVec 40} {op : BitVec 6} {qp : PredNo} {rg : RegNo} {h : BitVec 4} {xi : RegNo} {off : BitVec 14}
    (h0 : field w 34 6 = op) (h1 : field w 30 4 = qp) (h2 : field w 24 6 = rg) (h3 : field w 20 4 = h) (h4 : field w 14 6 = xi)
    (h5 : field w 0 14 = off) : wMG op qp rg h xi off = w :=
  .symm <| (field_all w).symm.trans <| field_append (lo := 0) (m := 26) (n := 14) (field_append (lo := 14) (m := 20) (n := 6)
    (field_append (lo := 20) (m := 16) (n := 4) (field_append (lo := 24) (m := 10) (n := 6)
      (field_append (lo := 30) (m := 6) (n := 4) h0 h1) h2) h3) h4) h5

theorem wMC_of_fields {w : BitVec 40} {op : BitVec 6} {qp : PredNo} {qu : BitVec 2} {d a b fn : BitVec 6} (h0 : field w 34 6 = op)
    (h1 : field w 30 4 = qp) (h2 : field w 28 2 = qu) (h3 : field w 22 6 = d) (h4 : field w 16 6 = a) (h5 : field w 10 6 = b)
    (h6 : field w 4 6 = fn) (h7 : field w 0 4 = 0) : wMC op qp qu d a b fn = w :=
  .symm <| (field_all w).symm.trans <| field_append (lo := 0) (m := 36) (n := 4) (field_append (lo := 4) (m := 30) (n := 6)
    (field_append (lo := 10) (m := 24) (n := 6) (field_append (lo := 16) (m := 18) (n := 6) (field_append (lo := 22) (m := 12) (n := 6)
      (field_append (lo := 28) (m := 10) (n := 2) (field_append (lo := 30) (m := 6) (n := 4) h0 h1) h2) h3) h4) h5) h6) h7

theorem wXM_of_fields {w : BitVec 36} {op : BitVec 6} {qp : PredNo} {acc : BitVec 3} {asel : BitVec 7} {b : RegNo} {fn : BitVec 10}
    (h0 : field w 30 6 = op) (h1 : field w 26 4 = qp) (h2 : field w 23 3 = acc) (h3 : field w 16 7 = asel) (h4 : field w 10 6 = b)
    (h5 : field w 0 10 = fn) : wXM op qp acc asel b fn = w :=
  .symm <| (field_all w).symm.trans <| field_append (lo := 0) (m := 26) (n := 10) (field_append (lo := 10) (m := 20) (n := 6)
    (field_append (lo := 16) (m := 13) (n := 7) (field_append (lo := 23) (m := 10) (n := 3)
      (field_append (lo := 26) (m := 6) (n := 4) h0 h1) h2) h3) h4) h5

theorem wXS_of_fields {w : BitVec 36} {op : BitVec 6} {qp : PredNo} {q : BitVec 3} {sig : BitVec 8} {lag : BitVec 15}
    (h0 : field w 30 6 = op) (h1 : field w 26 4 = qp) (h2 : field w 23 3 = q) (h3 : field w 15 8 = sig) (h4 : field w 0 15 = lag) :
    wXS op qp q sig lag = w :=
  .symm <| (field_all w).symm.trans <| field_append (lo := 0) (m := 21) (n := 15) (field_append (lo := 15) (m := 13) (n := 8)
    (field_append (lo := 23) (m := 10) (n := 3) (field_append (lo := 26) (m := 6) (n := 4) h0 h1) h2) h3) h4

theorem wXR_of_fields {w : BitVec 36} {op : BitVec 6} {qp : PredNo} {d a : RegNo} {fn : BitVec 14} (h0 : field w 30 6 = op)
    (h1 : field w 26 4 = qp) (h2 : field w 20 6 = d) (h3 : field w 14 6 = a) (h4 : field w 0 14 = fn) : wXR op qp d a fn = w :=
  .symm <| (field_all w).symm.trans <| field_append (lo := 0) (m := 22) (n := 14) (field_append (lo := 14) (m := 16) (n := 6)
    (field_append (lo := 20) (m := 10) (n := 6) (field_append (lo := 26) (m := 6) (n := 4) h0 h1) h2) h3) h4

theorem wXR_of_low {w : BitVec 36} {op : BitVec 6} {qp : PredNo} (h0 : field w 30 6 = op) (h1 : field w 26 4 = qp)
    (h2 : field w 0 26 = 0) : wXR op qp 0 0 0 = w :=
  wXR_of_fields h0 h1 ((field_field w 0 20 6 (n := 26) (by decide)).symm.trans (by rw [h2]; exact field_zero))
    ((field_field w 0 14 6 (n := 26) (by decide)).symm.trans (by rw [h2]; exact field_zero))
    ((field_field w 0 0 14 (n := 26) (by decide)).symm.trans (by rw [h2]; exact field_zero))

theorem wC_of_fields {w : BitVec 20} {op : BitVec 5} {arg : BitVec 15} (h0 : field w 15 5 = op) (h1 : field w 0 15 = arg) :
    wC op arg = w :=
  .symm <| (field_all w).symm.trans <| field_append (lo := 0) (m := 5) (n := 15) h0 h1

/-- A source field that keeps to R71 is the field of what it names. -/
theorem bits_srcOf {f : BitVec 7} (h : srcOk f = true) : (srcOf f).bits = f := by
  revert f; decide

/-! ## The S slots (R72, R79) -/

theorem encode_of_decAlu {fn : BitVec 8} {qp : PredNo} {d a b : RegNo} {i : Instr} (h : decAlu fn ⟨qp, d, a, b⟩ = .ok i) :
    encode i = some (inS0 (wSR 0x01#6 qp d a b fn)) := by
  unfold decAlu at h
  split at h
  case h_16 => cases h
  all_goals cases h; obtain rfl := eq_ofNat_of_toNat ‹_›; rfl

theorem encode_of_decMul {fn : BitVec 8} {qp : PredNo} {d a b : RegNo} {i : Instr} (h : decMul fn ⟨qp, d, a, b⟩ = .ok i) :
    encode i = some (inS0 (wSR 0x02#6 qp d a b fn)) := by
  unfold decMul at h
  split at h
  case h_8 => cases h
  all_goals cases h; obtain rfl := eq_ofNat_of_toNat ‹_›; rfl

theorem encode_of_decUnary {fn : BitVec 8} {qp : PredNo} {d a b : RegNo} {i : Instr} (h : decUnary fn (b == 0) ⟨qp, d, a⟩ = .ok i) :
    encode i = some (inS0 (wSR 0x03#6 qp d a b fn)) := by
  unfold decUnary at h
  split at h
  case h_8 => cases h
  all_goals
    obtain ⟨hb, rfl⟩ := need_ok.mp h
    obtain rfl := eq_of_beq hb
    obtain rfl := eq_ofNat_of_toNat ‹_›
    rfl

theorem encode_of_decBits {k : BitVec 2} {qp : PredNo} {d a pos wm1 : RegNo} {i : Instr}
    (h : decBits k ⟨qp, d, a, pos, wm1⟩ = .ok i) : encode i = some (inS0 (wSR 0x04#6 qp d a pos (k ++ wm1))) := by
  unfold decBits at h
  split at h
  case h_4 => cases h
  all_goals
    obtain ⟨-, rfl⟩ := need_ok.mp h
    obtain rfl := eq_ofNat_of_toNat ‹_›
    rfl

/-- A register field whose two high bits are zero is a predicate's number. -/
theorem eq_predicate {d : RegNo} (h : (field d 4 2 == 0) = true) : d = 0#2 ++ field d 0 4 :=
  (field_all d).symm.trans (field_append (lo := 0) (m := 2) (n := 4) (eq_of_beq h) rfl)

theorem encode_of_decPlog {fn : BitVec 8} {qp : PredNo} {d a b : RegNo} {i : Instr} (h : decPlog fn qp d a b = .ok i) :
    encode i = some (inS0 (wSR 0x28#6 qp d a b fn)) := by
  unfold decPlog at h
  dsimp only at h
  split at h
  case h_6 => cases h
  case h_5 =>
    obtain ⟨hs, rfl⟩ := need_ok.mp h
    simp only [Bool.and_eq_true] at hs
    obtain ⟨⟨⟨hd, ha⟩, -⟩, hb⟩ := hs
    obtain rfl := eq_of_beq hb
    obtain rfl := eq_ofNat_of_toNat ‹_›
    conv_rhs => rw [eq_predicate hd, eq_predicate ha]
    rfl
  all_goals
    obtain ⟨hs, rfl⟩ := need_ok.mp h
    simp only [Bool.and_eq_true] at hs
    obtain ⟨⟨hd, ha⟩, hb⟩ := hs
    obtain rfl := eq_ofNat_of_toNat ‹_›
    conv_rhs => rw [eq_predicate hd, eq_predicate ha, eq_predicate hb]
    rfl

theorem encode_of_decFp {w : BitVec 36} {i : Instr} (hop : field w 30 6 = 0x2C#6) (h : decFp (field w 0 8) (field w 8 6 == 0)
    ⟨field w 26 4, field w 20 6, field w 14 6, field w 8 6, field w 4 2, bitAt w 7⟩ = .ok i) : encode i = some (inS0 w) := by
  have hfn {k : BitVec 4} (h6 : (!(bitAt (field w 0 8) 6)) = true) (hk : field w 0 4 = k) :
      field w 0 8 = bit (bitAt w 7) ++ 0#1 ++ field w 4 2 ++ k :=
    field_append (lo := 0) (m := 4) (n := 4) (field_append (lo := 4) (m := 2) (n := 2) (field_append (lo := 6) (m := 1) (n := 1)
      (field_one ..) (field_of_clear (by simpa [field, bitAt] using h6))) rfl) hk
  have hlow : field (field w 0 8) 0 4 = field w 0 4 := field_field w 0 0 4 (by decide)
  unfold decFp at h
  dsimp only at h
  rw [hlow] at h
  split at h
  case h_8 => cases h
  case h_5 =>
    obtain ⟨hc, rfl⟩ := need_ok.mp h
    obtain ⟨hr, hb⟩ := Bool.and_eq_true .. ▸ hc
    exact congrArg (some ∘ inS0) (wSR_of_fields hop rfl rfl rfl (eq_of_beq hb) (hfn hr (eq_ofNat_of_toNat ‹_›)))
  all_goals
    obtain ⟨hr, rfl⟩ := need_ok.mp h
    exact congrArg (some ∘ inS0) (wSR_of_fields hop rfl rfl rfl rfl (hfn hr (eq_ofNat_of_toNat ‹_›)))

theorem encode_of_decEnd {fn : BitVec 8} {qp : PredNo} {d a b : RegNo} {i : Instr} (h : decEnd fn qp (d == 0 && b == 0) a = .ok i) :
    encode i = some (inS1 (wSR 0x3F#6 qp d a b fn)) := by
  unfold decEnd at h
  split at h
  case h_6 => cases h
  all_goals
    obtain ⟨hc, rfl⟩ := need_ok.mp h
    simp only [Bool.and_eq_true, beq_iff_eq] at hc
    obtain rfl := eq_ofNat_of_toNat ‹_›
    simp only [hc]
    rfl

/-- The word of an instruction of the S0-only table. -/
theorem encode_of_decS0Only {w : BitVec 36} {i : Instr} (h : decS0Only (field w 30 6).toNat (field w 26 4) (field w 20 6) (field w 14 6)
    (field w 0 14) w = .ok i) : encode i = some (inS0 w) := by
  unfold decS0Only at h
  split at h
  next e =>
    obtain ⟨hc, rfl⟩ := need_ok.mp h
    simp only [Bool.and_eq_true, beq_iff_eq] at hc
    exact congrArg (some ∘ inS0) (wSI_of_fields (eq_ofNat_of_toNat e) rfl rfl hc.1 rfl)
  next e =>
    obtain ⟨hc, rfl⟩ := need_ok.mp h
    simp only [Bool.and_eq_true, beq_iff_eq] at hc
    exact congrArg (some ∘ inS0) (wSI_of_fields (eq_ofNat_of_toNat e) rfl hc.1 rfl rfl)
  next e =>
    obtain ⟨hd, rfl⟩ := need_ok.mp h
    exact congrArg (some ∘ inS0) (wSL_of_fields (eq_ofNat_of_toNat e) rfl (eq_of_beq hd) rfl)
  next e =>
    obtain ⟨hz, rfl⟩ := need_ok.mp h
    exact congrArg (some ∘ inS0) (wSL_of_low (eq_ofNat_of_toNat e) rfl (eq_of_beq hz))
  next e =>
    obtain ⟨hz, rfl⟩ := need_ok.mp h
    exact congrArg (some ∘ inS0) (wSL_of_low (eq_ofNat_of_toNat e) rfl (eq_of_beq hz))
  next => cases h

/-- The word of an instruction of the S1-only table. -/
theorem encode_of_decS1Only {w : BitVec 36} {i : Instr} (h : decS1Only (field w 30 6).toNat (field w 26 4) (field w 20 6) (field w 14 6)
    (field w 8 6) (field w 0 8) (field w 0 14) w = .ok i) : encode i = some (inS1 w) := by
  unfold decS1Only at h
  split at h
  next e => cases h; exact congrArg (some ∘ inS1) (wSB_of_fields (eq_ofNat_of_toNat e) rfl rfl)
  next e =>
    obtain ⟨hc, rfl⟩ := need_ok.mp h
    simp only [Bool.and_eq_true, beq_iff_eq] at hc
    exact congrArg (some ∘ inS1) (wSR_of_fields (eq_ofNat_of_toNat e) rfl rfl rfl hc.1 hc.2)
  next e => cases h; exact congrArg (some ∘ inS1) (wSB_of_fields (eq_ofNat_of_toNat e) rfl rfl)
  next e =>
    obtain ⟨hc, rfl⟩ := need_ok.mp h
    simp only [Bool.and_eq_true, beq_iff_eq] at hc
    exact congrArg (some ∘ inS1) (wSR_of_fields (eq_ofNat_of_toNat e) rfl hc.1.1 rfl hc.1.2 hc.2)
  next e =>
    obtain ⟨-, rfl⟩ := need_ok.mp h
    exact congrArg (some ∘ inS1) (wSI_of_fields (eq_ofNat_of_toNat e) rfl rfl rfl rfl)
  next e => cases h; exact congrArg (some ∘ inS1) (wSI_of_fields (eq_ofNat_of_toNat e) rfl rfl rfl rfl)
  next e =>
    obtain ⟨hc, rfl⟩ := need_ok.mp h
    simp only [Bool.and_eq_true, beq_iff_eq] at hc
    exact congrArg (some ∘ inS1) (wSR_of_fields (eq_ofNat_of_toNat e) rfl hc.1 rfl rfl hc.2)
  next e => rw [encode_of_decEnd h, wSR_of_fields (eq_ofNat_of_toNat e) rfl rfl rfl rfl rfl]
  next => cases h

/-- The word of an instruction of both S slots. -/
theorem encode_of_decodeS_shared {s1 : Bool} {w : BitVec 36} {i : Instr} (hlt : (field w 30 6).toNat < 0x30) (h : decodeS s1 w = .ok i) :
    encode i = some (inS0 w) := by
  unfold decodeS at h
  split at h
  next => cases h
  next =>
  dsimp only at h
  rw [if_neg (by omega), if_neg (by omega)] at h
  split at h
  next => cases h
  next e => rw [encode_of_decAlu h, wSR_of_fields (eq_ofNat_of_toNat e) rfl rfl rfl rfl rfl]
  next e => rw [encode_of_decMul h, wSR_of_fields (eq_ofNat_of_toNat e) rfl rfl rfl rfl rfl]
  next e => rw [encode_of_decUnary h, wSR_of_fields (eq_ofNat_of_toNat e) rfl rfl rfl rfl rfl]
  next e =>
    rw [encode_of_decBits h, wSR_of_fields (eq_ofNat_of_toNat e) rfl rfl rfl rfl
      (field_append (lo := 0) (m := 2) (n := 6) rfl rfl)]
  next e =>
    obtain ⟨hz, rfl⟩ := need_ok.mp h
    exact congrArg (some ∘ inS0) (wSR_of_fields (eq_ofNat_of_toNat e) rfl rfl rfl rfl
      (field_append (lo := 0) (m := 6) (n := 2) (eq_of_beq hz) rfl))
  next e =>
    obtain ⟨hz, rfl⟩ := need_ok.mp h
    exact congrArg (some ∘ inS0) (wSR_of_fields (eq_ofNat_of_toNat e) rfl rfl rfl rfl
      (field_append (lo := 0) (m := 4) (n := 4) (eq_of_beq hz) rfl))
  next e =>
    obtain ⟨hz, rfl⟩ := need_ok.mp h
    have hfn {b : BitVec 1} (hb : field w 0 1 = b) : field w 0 8 = 0#5 ++ field w 1 2 ++ b :=
      field_append (lo := 0) (m := 7) (n := 1) (field_append (lo := 1) (m := 5) (n := 2) (eq_of_beq hz) rfl) hb
    split
    · exact congrArg (some ∘ inS0) (wSR_of_fields (eq_ofNat_of_toNat e) rfl rfl rfl rfl (hfn (field_of_set ‹_›)))
    · exact congrArg (some ∘ inS0) (wSR_of_fields (eq_ofNat_of_toNat e) rfl rfl rfl rfl
        (hfn (field_of_clear (Bool.eq_false_iff.mpr ‹_›))))
  iterate 4
    next e => cases h; exact congrArg (some ∘ inS0) (wSI_of_fields (eq_ofNat_of_toNat e) rfl rfl rfl rfl)
  iterate 4
    next e =>
      obtain ⟨hz, rfl⟩ := need_ok.mp h
      exact congrArg (some ∘ inS0) (wSI_of_fields (eq_ofNat_of_toNat e) rfl rfl rfl
        (field_append (lo := 0) (m := 8) (n := 6) (eq_of_beq hz) rfl))
  next e => cases h; exact congrArg (some ∘ inS0) (wSL_of_fields (eq_ofNat_of_toNat e) rfl rfl rfl)
  next e =>
    obtain ⟨hz, rfl⟩ := need_ok.mp h
    exact congrArg (some ∘ inS0) (wSL_of_fields (eq_ofNat_of_toNat e) rfl rfl
      (field_append (lo := 0) (m := 4) (n := 16) (field_append (lo := 16) (m := 2) (n := 2) (eq_of_beq hz) rfl) rfl))
  next e => cases h; exact congrArg (some ∘ inS0) (wSI_of_fields (eq_ofNat_of_toNat e) rfl rfl rfl rfl)
  iterate 3
    next e =>
      obtain ⟨-, rfl⟩ := need_ok.mp h
      exact congrArg (some ∘ inS0) (wSC_of_fields (eq_ofNat_of_toNat e) rfl rfl rfl rfl rfl rfl rfl)
  next e => rw [encode_of_decPlog h, wSR_of_fields (eq_ofNat_of_toNat e) rfl rfl rfl rfl rfl]
  next e =>
    split at h
    next g =>
      obtain ⟨hc, rfl⟩ := need_ok.mp h
      simp only [Bool.and_eq_true, beq_iff_eq] at hc
      exact congrArg (some ∘ inS0) (wSR_of_fields (eq_ofNat_of_toNat e) rfl rfl hc.1 hc.2 (eq_ofNat_of_toNat g))
    next g =>
      obtain ⟨hc, rfl⟩ := need_ok.mp h
      simp only [Bool.and_eq_true, beq_iff_eq] at hc
      exact congrArg (some ∘ inS0) (wSR_of_fields (eq_ofNat_of_toNat e) rfl hc.1 rfl hc.2 (eq_ofNat_of_toNat g))
    next => cases h
  next e => exact encode_of_decFp (eq_ofNat_of_toNat e) h
  next e =>
    obtain ⟨hc, rfl⟩ := need_ok.mp h
    simp only [Bool.and_eq_true, beq_iff_eq, Bool.not_eq_true'] at hc
    exact congrArg (some ∘ inS0) (wSR_of_fields (eq_ofNat_of_toNat e) rfl rfl rfl rfl
      (field_append (lo := 0) (m := 4) (n := 4) (field_append (lo := 4) (m := 2) (n := 2) (field_append (lo := 6) (m := 1) (n := 1)
        (field_one ..) (field_of_clear hc.2)) rfl) hc.1))
  next e =>
    split at h
    next =>
      obtain ⟨hc, rfl⟩ := need_ok.mp h
      simp only [Bool.and_eq_true, beq_iff_eq, Bool.not_eq_true'] at hc
      exact congrArg (some ∘ inS0) (wSR_of_fields (eq_ofNat_of_toNat e) rfl rfl rfl hc.1.1
        (field_append (lo := 0) (m := 6) (n := 2) (field_append (lo := 2) (m := 4) (n := 2) (field_append (lo := 4) (m := 2) (n := 2)
          (field_append (lo := 6) (m := 1) (n := 1) (field_one ..) (field_of_clear hc.1.2)) rfl) rfl) rfl))
    next => cases h
  next => cases h

/-- What slot S0 reads is the word of the instruction. -/
theorem encode_of_decodeS0 {w : BitVec 36} {i : Instr} (h : decodeS false w = .ok i) : encode i = some (inS0 w) := by
  by_cases hlt : (field w 30 6).toNat < 0x30
  · exact encode_of_decodeS_shared hlt h
  · unfold decodeS at h
    split at h
    · cases h
    · dsimp only at h
      split at h
      · cases h
      · rw [if_pos (by omega)] at h
        exact encode_of_decS0Only h

/-- What slot S1 reads is the word of the instruction, of both S slots or of S1 alone. -/
theorem encode_of_decodeS1 {w : BitVec 36} {i : Instr} (h : decodeS true w = .ok i) :
    encode i = some (inS0 w) ∨ encode i = some (inS1 w) := by
  by_cases hlt : (field w 30 6).toNat < 0x30
  · exact .inl (encode_of_decodeS_shared hlt h)
  · unfold decodeS at h
    split at h
    · cases h
    · dsimp only at h
      split at h
      · exact .inr (encode_of_decS1Only h)
      · rw [if_pos (by omega)] at h
        split at h
        · cases h
        · exact .inl (encode_of_decS0Only h)

/-! ## The M slot (R75, R81) -/

theorem fnAcc_of_fields {fn : BitVec 6} {k : BitVec 4} (h5 : bitAt fn 5 = false) (hk : field fn 0 4 = k) : fnAcc (bitAt fn 4) k = fn :=
  .symm <| (field_all fn).symm.trans <| field_append (lo := 0) (m := 2) (n := 4)
    (field_append (lo := 4) (m := 1) (n := 1) (field_of_clear h5) (field_one ..)) hk

theorem encode_of_decAccw {fn : BitVec 6} {qp : PredNo} {qu : BitVec 2} {d a b : RegNo} {i : Instr}
    (h : decAccw fn qp qu d a b = .ok i) : encode i = some (inM (wMC 0x22#6 qp qu d a b fn)) := by
  unfold decAccw at h
  dsimp only at h
  split at h
  case h_9 | h_10 =>
    obtain ⟨hc, rfl⟩ := need_ok.mp h
    simp only [Bool.and_eq_true, Bool.not_eq_true'] at hc
    refine congrArg (fun fn => some (inM (wMC 0x22#6 qp qu d a b fn))) (fnAcc_of_fields ?_ (eq_ofNat_of_toNat ‹_›))
    simp only [hc]
  case h_11 e =>
    obtain ⟨hc, rfl⟩ := need_ok.mp h
    simp only [Bool.and_eq_true, Bool.not_eq_true'] at hc
    obtain ⟨⟨h5, h4⟩, hb⟩ := hc
    have hfn : fnAcc true 10#4 = fn := h4 ▸ fnAcc_of_fields h5 (eq_ofNat_of_toNat e)
    have hreg : b = 0#2 ++ bit (bitAt b 3) ++ field b 0 3 := (field_all b).symm.trans <| field_append (lo := 0) (m := 3) (n := 3)
      (field_append (lo := 3) (m := 2) (n := 1) (eq_of_beq hb) (field_one ..)) rfl
    conv_rhs => rw [hreg, ← hfn]
    rfl
  case h_12 => cases h
  all_goals
    obtain ⟨hc, rfl⟩ := need_ok.mp h
    simp only [Bool.and_eq_true, Bool.not_eq_true', beq_iff_eq] at hc
    obtain ⟨h5, rfl⟩ := hc
    exact congrArg (fun fn => some (inM (wMC 0x22#6 qp qu d a 0#6 fn))) (fnAcc_of_fields h5 (eq_ofNat_of_toNat ‹_›))

theorem bitAt_field {v n : Nat} (w : BitVec v) (lo i : Nat) (h : i < n) : bitAt (field w lo n) i = bitAt w (lo + i) := by
  simp [field, bitAt, h]

/-- A field of six bits above its lowest one, and that one. -/
theorem field_low_bit {v lo : Nat} {w : BitVec v} (h : field (field w lo 6) 1 5 = 0) :
    field w lo 6 = 0#5 ++ bit (bitAt (field w lo 6) 0) :=
  field_append (m := 5) (n := 1) ((field_field w lo 1 5 (n := 6) (by decide)).symm.trans h)
    ((field_one w lo).trans (congrArg bit (bitAt_field w lo 0 (n := 6) (by decide)).symm))

theorem field_low_set {v lo : Nat} {w : BitVec v} (h : field (field w lo 6) 1 5 = 0) (g : bitAt (field w lo 6) 0 = true) :
    field w lo 6 = 1#6 := (field_low_bit h).trans (by rw [g]; rfl)

theorem field_low_clear {v lo : Nat} {w : BitVec v} (h : field (field w lo 6) 1 5 = 0) (g : ¬ bitAt (field w lo 6) 0 = true) :
    field w lo 6 = 0#6 := (field_low_bit h).trans (by rw [Bool.eq_false_iff.mpr g]; rfl)

/-- A field of six bits whose two high ones are known. -/
theorem field_low_four {v lo : Nat} {w : BitVec v} {k : BitVec 2} (h : field (field w lo 6) 4 2 = k) :
    field w lo 6 = k ++ field (field w lo 6) 0 4 :=
  field_append (m := 2) (n := 4) ((field_field w lo 4 2 (n := 6) (by decide)).symm.trans h) (field_field w lo 0 4 (n := 6) (by decide)).symm

theorem encode_of_decMC {w : BitVec 40} {i : Instr} (h : decMC (field w 34 6).toNat w = .ok i) : encode i = some (inM w) := by
  unfold decMC at h
  dsimp only at h
  split at h
  next e =>
    have hfn {k : BitVec 2} (hz : field (field w 4 6) 2 4 = 0) (hk : field (field w 4 6) 0 2 = k) : field w 4 6 = 0#4 ++ k :=
      field_append (lo := 4) (m := 4) (n := 2) ((field_field w 4 2 4 (n := 6) (by decide)).symm.trans hz)
        ((field_field w 4 0 2 (n := 6) (by decide)).symm.trans hk)
    split at h
    case h_4 => cases h
    all_goals
      obtain ⟨hc, rfl⟩ := need_ok.mp h
      simp only [Bool.and_eq_true, beq_iff_eq] at hc
      exact congrArg (some ∘ inM) (wMC_of_fields (eq_ofNat_of_toNat e) rfl rfl rfl rfl rfl
        ((hfn hc.2 (eq_ofNat_of_toNat ‹_›)).trans rfl) hc.1)
  next e =>
    obtain ⟨hc, rfl⟩ := need_ok.mp h
    simp only [Bool.and_eq_true, beq_iff_eq] at hc
    exact congrArg (some ∘ inM) (wMC_of_fields (eq_ofNat_of_toNat e) rfl rfl rfl rfl rfl hc.1.2 hc.1.1)
  next e =>
    split at h
    next j g =>
      obtain ⟨hlow, rfl⟩ := need_ok.mp h
      rw [encode_of_decAccw g, wMC_of_fields (eq_ofNat_of_toNat e) rfl rfl rfl rfl rfl rfl (eq_of_beq hlow)]
    next g => exact absurd h (g i)
  next e =>
    obtain ⟨hc, rfl⟩ := need_ok.mp h
    simp only [Bool.and_eq_true, beq_iff_eq] at hc
    exact congrArg (some ∘ inM) (wMC_of_fields (eq_ofNat_of_toNat e) rfl rfl rfl rfl rfl hc.2 hc.1)
  next e =>
    obtain ⟨hc, rfl⟩ := need_ok.mp h
    simp only [Bool.and_eq_true, beq_iff_eq] at hc
    obtain ⟨⟨⟨hlow, hd⟩, hb⟩, hfn⟩ := hc
    exact congrArg (some ∘ inM) (wMC_of_fields (eq_ofNat_of_toNat e) rfl rfl hd rfl hb hfn hlow)
  next e =>
    obtain ⟨hc, rfl⟩ := need_ok.mp h
    simp only [Bool.and_eq_true, beq_iff_eq] at hc
    obtain ⟨⟨⟨⟨⟨⟨hlow, hqu⟩, hd⟩, ha⟩, hb⟩, hfn⟩, -⟩ := hc
    exact congrArg (some ∘ inM) (wMC_of_fields (eq_ofNat_of_toNat e) rfl hqu hd ha hb (field_low_four hfn) hlow)
  next e =>
    obtain ⟨hc, rfl⟩ := need_ok.mp h
    simp only [Bool.and_eq_true, beq_iff_eq] at hc
    obtain ⟨⟨⟨hlow, hqu⟩, hd⟩, hfn⟩ := hc
    exact congrArg (some ∘ inM) (wMC_of_fields (eq_ofNat_of_toNat e) rfl hqu hd rfl rfl (field_low_four hfn) hlow)
  next e =>
    obtain ⟨hc, rfl⟩ := need_ok.mp h
    simp only [Bool.and_eq_true, beq_iff_eq] at hc
    obtain ⟨⟨⟨⟨hlow, hqu⟩, hd⟩, ha⟩, hb⟩ := hc
    have hw : wMC 0x30#6 (field w 30 4) 0#2 0#6 0#6 0#6 (field (field w 4 6) 4 2 ++ field (field w 4 6) 0 4) = w :=
      wMC_of_fields (eq_ofNat_of_toNat e) rfl hqu hd ha hb (field_low_four rfl) hlow
    conv_rhs => rw [← hw]
    generalize field (field w 4 6) 4 2 = k
    obtain rfl | rfl | rfl | rfl : k = 0 ∨ k = 1 ∨ k = 2 ∨ k = 3 := by revert k; decide
    all_goals rfl
  next e =>
    obtain ⟨hc, rfl⟩ := need_ok.mp h
    simp only [Bool.and_eq_true, beq_iff_eq] at hc
    obtain ⟨⟨⟨⟨hlow, hqu⟩, hd⟩, hb⟩, hfn⟩ := hc
    exact congrArg (some ∘ inM) (wMC_of_fields (eq_ofNat_of_toNat e) rfl hqu (field_low_four hd) rfl hb hfn hlow)
  next e =>
    obtain ⟨hc, rfl⟩ := need_ok.mp h
    simp only [Bool.and_eq_true, beq_iff_eq] at hc
    obtain ⟨⟨⟨⟨⟨hlow, hqu⟩, hd⟩, ha⟩, hb⟩, hfn⟩ := hc
    exact congrArg (some ∘ inM) (wMC_of_fields (eq_ofNat_of_toNat e) rfl hqu (field_low_four hd) ha hb hfn hlow)
  next e =>
    obtain ⟨hc, rfl⟩ := need_ok.mp h
    simp only [Bool.and_eq_true, beq_iff_eq] at hc
    obtain ⟨⟨⟨⟨hlow, hqu⟩, ha⟩, hb⟩, hfn⟩ := hc
    split
    next g =>
      exact congrArg (some ∘ inM) (wMC_of_fields (eq_ofNat_of_toNat e) rfl hqu rfl (field_low_four ha) hb (field_low_set hfn g) hlow)
    next g =>
      exact congrArg (some ∘ inM) (wMC_of_fields (eq_ofNat_of_toNat e) rfl hqu rfl (field_low_four ha) hb (field_low_clear hfn g) hlow)
  next e =>
    split at h
    next g =>
      obtain ⟨hc, rfl⟩ := need_ok.mp h
      simp only [Bool.and_eq_true, beq_iff_eq] at hc
      obtain ⟨⟨⟨hlow, hqu⟩, hb⟩, hfn⟩ := hc
      exact congrArg (some ∘ inM) (wMC_of_fields (eq_ofNat_of_toNat e) rfl hqu rfl rfl hb (field_low_set hfn g) hlow)
    next g =>
      obtain ⟨hc, rfl⟩ := need_ok.mp h
      simp only [Bool.and_eq_true, beq_iff_eq] at hc
      obtain ⟨⟨hlow, hqu⟩, hfn⟩ := hc
      exact congrArg (some ∘ inM) (wMC_of_fields (eq_ofNat_of_toNat e) rfl hqu rfl rfl rfl (field_low_clear hfn g) hlow)
  next e =>
    obtain ⟨hc, rfl⟩ := need_ok.mp h
    simp only [Bool.and_eq_true, beq_iff_eq] at hc
    obtain ⟨⟨⟨hlow, hqu⟩, hb⟩, hfn⟩ := hc
    exact congrArg (some ∘ inM) (wMC_of_fields (eq_ofNat_of_toNat e) rfl hqu rfl rfl hb (field_low_bit hfn) hlow)
  next e =>
    obtain ⟨hc, rfl⟩ := need_ok.mp h
    simp only [Bool.and_eq_true, beq_iff_eq] at hc
    obtain ⟨⟨⟨hlow, hqu⟩, hb⟩, hfn⟩ := hc
    exact congrArg (some ∘ inM) (wMC_of_fields (eq_ofNat_of_toNat e) rfl hqu rfl rfl hb hfn hlow)
  next e =>
    split at h
    next g =>
      obtain ⟨hc, rfl⟩ := need_ok.mp h
      simp only [Bool.and_eq_true, beq_iff_eq] at hc
      obtain ⟨⟨⟨hlow, hqu⟩, hb⟩, hfn⟩ := hc
      exact congrArg (some ∘ inM) (wMC_of_fields (eq_ofNat_of_toNat e) rfl hqu rfl rfl hb (field_low_set hfn g) hlow)
    next g =>
      obtain ⟨hc, rfl⟩ := need_ok.mp h
      simp only [Bool.and_eq_true, beq_iff_eq] at hc
      obtain ⟨⟨hlow, hqu⟩, hfn⟩ := hc
      exact congrArg (some ∘ inM) (wMC_of_fields (eq_ofNat_of_toNat e) rfl hqu rfl rfl rfl (field_low_clear hfn g) hlow)
  next e =>
    obtain ⟨hc, rfl⟩ := need_ok.mp h
    simp only [Bool.and_eq_true, beq_iff_eq] at hc
    obtain ⟨⟨⟨hlow, hqu⟩, hb⟩, hfn⟩ := hc
    exact congrArg (some ∘ inM) (wMC_of_fields (eq_ofNat_of_toNat e) rfl hqu rfl rfl hb (field_low_bit hfn) hlow)
  next e =>
    obtain ⟨hc, rfl⟩ := need_ok.mp h
    simp only [Bool.and_eq_true, beq_iff_eq] at hc
    obtain ⟨⟨hlow, hqu⟩, hfn⟩ := hc
    exact congrArg (some ∘ inM) (wMC_of_fields (eq_ofNat_of_toNat e) rfl hqu rfl rfl rfl hfn hlow)
  next e =>
    obtain ⟨hc, rfl⟩ := need_ok.mp h
    simp only [Bool.and_eq_true, beq_iff_eq] at hc
    obtain ⟨⟨⟨hlow, hqu⟩, hd⟩, hfn⟩ := hc
    split
    next g => exact congrArg (some ∘ inM) (wMC_of_fields (eq_ofNat_of_toNat e) rfl hqu hd rfl rfl (field_low_set hfn g) hlow)
    next g => exact congrArg (some ∘ inM) (wMC_of_fields (eq_ofNat_of_toNat e) rfl hqu hd rfl rfl (field_low_clear hfn g) hlow)
  next e =>
    obtain ⟨hc, rfl⟩ := need_ok.mp h
    simp only [Bool.and_eq_true, beq_iff_eq] at hc
    obtain ⟨⟨hlow, hqu⟩, hfn⟩ := hc
    exact congrArg (some ∘ inM) (wMC_of_fields (eq_ofNat_of_toNat e) rfl hqu rfl rfl rfl hfn hlow)
  next => cases h

/-- What the M slot reads is the word of the instruction. -/
theorem encode_of_decodeM {w : BitVec 40} {i : Instr} (h : decodeM w = .ok i) : encode i = some (inM w) := by
  unfold decodeM at h
  split at h
  next => cases h
  next =>
  dsimp only at h
  have htagged {t : Tag} (ht : field w 14 4 = t) : field w 0 18 = t ++ field w 0 14 :=
    field_append (lo := 0) (m := 4) (n := 14) ht rfl
  have hlanes {t : Tag} {x : BitVec 1} (ht : field w 14 4 = t) (hx : field w 5 1 = x) (hz : field w 0 2 = 0) :
      field w 0 18 = t ++ field w 8 6 ++ field w 6 2 ++ x ++ field w 2 3 ++ 0#2 :=
    field_append (lo := 0) (m := 16) (n := 2) (field_append (lo := 2) (m := 13) (n := 3) (field_append (lo := 5) (m := 12) (n := 1)
      (field_append (lo := 6) (m := 10) (n := 2) (field_append (lo := 8) (m := 4) (n := 6) ht rfl) rfl) hx) rfl) hz
  have hshort {t : Tag} (ht : field w 10 4 = t) : field w 0 14 = t ++ field w 0 10 :=
    field_append (lo := 0) (m := 4) (n := 10) ht rfl
  split at h
  next => cases h
  iterate 11
    next e => cases h; exact congrArg (some ∘ inM) (wML_of_fields (eq_ofNat_of_toNat e) rfl rfl rfl rfl)
  next e =>
    obtain ⟨-, rfl⟩ := need_ok.mp h
    exact congrArg (some ∘ inM) (wML_of_fields (eq_ofNat_of_toNat e) rfl rfl rfl (htagged rfl))
  next e =>
    obtain ⟨hc, rfl⟩ := need_ok.mp h
    exact congrArg (some ∘ inM) (wML_of_fields (eq_ofNat_of_toNat e) rfl rfl rfl (htagged (eq_of_beq hc)))
  next e =>
    obtain ⟨hc, rfl⟩ := need_ok.mp h
    simp only [Bool.and_eq_true, beq_iff_eq] at hc
    exact congrArg (some ∘ inM) (wML_of_fields (eq_ofNat_of_toNat e) rfl rfl rfl (hlanes rfl (field_one ..) hc.1.2))
  next e =>
    obtain ⟨hc, rfl⟩ := need_ok.mp h
    simp only [Bool.and_eq_true, beq_iff_eq, Bool.not_eq_true'] at hc
    obtain ⟨⟨⟨⟨ht, -⟩, hx⟩, hz⟩, -⟩ := hc
    exact congrArg (some ∘ inM) (wML_of_fields (eq_ofNat_of_toNat e) rfl rfl rfl (hlanes ht (field_of_clear hx) hz))
  iterate 8
    next e => cases h; exact congrArg (some ∘ inM) (wMG_of_fields (eq_ofNat_of_toNat e) rfl rfl rfl rfl rfl)
  next e =>
    obtain ⟨-, rfl⟩ := need_ok.mp h
    exact congrArg (some ∘ inM) (wMG_of_fields (eq_ofNat_of_toNat e) rfl rfl rfl rfl (hshort rfl))
  next e =>
    obtain ⟨hc, rfl⟩ := need_ok.mp h
    exact congrArg (some ∘ inM) (wMG_of_fields (eq_ofNat_of_toNat e) rfl rfl rfl rfl (hshort (eq_of_beq hc)))
  iterate 2
    next e => cases h; exact congrArg (some ∘ inM) (wMG_of_fields (eq_ofNat_of_toNat e) rfl rfl rfl rfl rfl)
  iterate 2
    next e => cases h; exact congrArg (some ∘ inM) (wML_of_fields (eq_ofNat_of_toNat e) rfl rfl rfl rfl)
  next e =>
    obtain ⟨-, rfl⟩ := need_ok.mp h
    exact congrArg (some ∘ inM) (wML_of_fields (eq_ofNat_of_toNat e) rfl rfl rfl (htagged rfl))
  next e =>
    obtain ⟨hc, rfl⟩ := need_ok.mp h
    exact congrArg (some ∘ inM) (wML_of_fields (eq_ofNat_of_toNat e) rfl rfl rfl (htagged (eq_of_beq hc)))
  next e =>
    obtain ⟨hc, rfl⟩ := need_ok.mp h
    exact congrArg (some ∘ inM) (wMG_of_fields (eq_ofNat_of_toNat e) rfl (field_low_bit (eq_of_beq hc)) rfl rfl rfl)
  next => exact encode_of_decMC h

/-! ## The V slots (R74, R82) -/

section Vector

variable {w : BitVec 40} {i : Instr}

theorem fnVF_of_fields {rnd : BitVec 2} {sat : Bool} (h2 : bitAt w 2 = false) (h6 : bitAt w 6 = false) (hr : field w 3 2 = rnd)
    (hs : bitAt w 5 = sat) : field w 0 7 = fnVF (field w 0 2) rnd sat :=
  field_append (lo := 0) (m := 5) (n := 2) (field_append (lo := 2) (m := 4) (n := 1) (field_append (lo := 3) (m := 2) (n := 2)
    (field_append (lo := 5) (m := 1) (n := 1) (field_of_clear h6) (hs ▸ field_one ..)) hr) (field_of_clear h2)) rfl

theorem fnVI_of_fields {wd : BitVec 2} {sgn sat : Bool} (hz : field w 4 3 = 0) (hw : field w 0 2 = wd) (hg : bitAt w 2 = sgn)
    (hs : bitAt w 3 = sat) : field w 0 7 = fnVI wd sgn sat :=
  field_append (lo := 0) (m := 5) (n := 2) (field_append (lo := 2) (m := 4) (n := 1) (field_append (lo := 3) (m := 3) (n := 1)
    hz (hs ▸ field_one ..)) (hg ▸ field_one ..)) hw

theorem encode_of_decVF (h : decVF (field w 34 6).toNat w = .ok i) : encode i = some (inV0 w) := by
  unfold decVF at h
  dsimp only at h
  split at h
  case h_7 | h_8 =>
    obtain ⟨hc, rfl⟩ := need_ok.mp h
    simp only [Bool.and_eq_true, beq_iff_eq, Bool.not_eq_true'] at hc
    obtain ⟨⟨⟨⟨⟨⟨ha, h2⟩, -⟩, h6⟩, hb⟩, hr⟩, hs⟩ := hc
    exact congrArg (some ∘ inV0) (wVR_of_fields (eq_ofNat_of_toNat ‹_›) rfl rfl rfl (bits_srcOf ha).symm (bits_srcOf hb).symm
      (fnVF_of_fields h2 h6 hr hs))
  case h_9 | h_10 =>
    obtain ⟨hc, rfl⟩ := need_ok.mp h
    simp only [Bool.and_eq_true, beq_iff_eq, Bool.not_eq_true'] at hc
    obtain ⟨⟨⟨⟨⟨⟨ha, h2⟩, -⟩, h6⟩, hb⟩, hr⟩, hs⟩ := hc
    exact congrArg (some ∘ inV0) (wVR_of_fields (eq_ofNat_of_toNat ‹_›) rfl rfl rfl (bits_srcOf ha).symm hb
      (fnVF_of_fields h2 h6 hr hs))
  case h_12 =>
    obtain ⟨hc, rfl⟩ := need_ok.mp h
    simp only [Bool.and_eq_true, beq_iff_eq, Bool.not_eq_true'] at hc
    obtain ⟨⟨⟨⟨ha, h2⟩, -⟩, h6⟩, hb⟩ := hc
    exact congrArg (some ∘ inV0) (wVR_of_fields (eq_ofNat_of_toNat ‹_›) rfl rfl rfl (bits_srcOf ha).symm hb
      (fnVF_of_fields h2 h6 rfl rfl))
  case h_13 | h_14 | h_15 | h_16 | h_17 =>
    obtain ⟨hc, rfl⟩ := need_ok.mp h
    simp only [Bool.and_eq_true, beq_iff_eq, Bool.not_eq_true'] at hc
    obtain ⟨⟨⟨⟨⟨ha, h2⟩, -⟩, h6⟩, hb⟩, hr⟩ := hc
    exact congrArg (some ∘ inV0) (wVR_of_fields (eq_ofNat_of_toNat ‹_›) rfl rfl rfl (bits_srcOf ha).symm hb
      (fnVF_of_fields h2 h6 hr rfl))
  case h_19 => cases h
  all_goals
    obtain ⟨hc, rfl⟩ := need_ok.mp h
    simp only [Bool.and_eq_true, Bool.not_eq_true'] at hc
    obtain ⟨⟨⟨⟨ha, h2⟩, -⟩, h6⟩, hb⟩ := hc
    exact congrArg (some ∘ inV0) (wVR_of_fields (eq_ofNat_of_toNat ‹_›) rfl rfl rfl (bits_srcOf ha).symm (bits_srcOf hb).symm
      (fnVF_of_fields h2 h6 rfl rfl))

theorem encode_of_decVI (h : decVI (field w 34 6).toNat w = .ok i) : encode i = some (inV0 w) := by
  unfold decVI at h
  dsimp only at h
  split at h
  case h_6 | h_7 =>
    obtain ⟨hc, rfl⟩ := need_ok.mp h
    simp only [Bool.and_eq_true, beq_iff_eq, Bool.not_eq_true'] at hc
    obtain ⟨⟨⟨⟨⟨ha, -⟩, hz⟩, hb⟩, hg⟩, hs⟩ := hc
    exact congrArg (some ∘ inV0) (wVR_of_fields (eq_ofNat_of_toNat ‹_›) rfl rfl rfl (bits_srcOf ha).symm (bits_srcOf hb).symm
      (fnVI_of_fields hz rfl hg hs))
  case h_8 | h_9 | h_10 | h_11 =>
    obtain ⟨hc, rfl⟩ := need_ok.mp h
    simp only [Bool.and_eq_true, beq_iff_eq, Bool.not_eq_true'] at hc
    obtain ⟨⟨⟨⟨⟨⟨ha, -⟩, hz⟩, hb⟩, hg⟩, hs⟩, hw⟩ := hc
    exact congrArg (some ∘ inV0) (wVR_of_fields (eq_ofNat_of_toNat ‹_›) rfl rfl rfl (bits_srcOf ha).symm (bits_srcOf hb).symm
      (fnVI_of_fields hz hw hg hs))
  case h_12 | h_13 =>
    obtain ⟨hc, rfl⟩ := need_ok.mp h
    simp only [Bool.and_eq_true, beq_iff_eq, Bool.not_eq_true'] at hc
    obtain ⟨⟨⟨⟨ha, -⟩, hz⟩, hb⟩, hs⟩ := hc
    exact congrArg (some ∘ inV0) (wVR_of_fields (eq_ofNat_of_toNat ‹_›) rfl rfl rfl (bits_srcOf ha).symm (bits_srcOf hb).symm
      (fnVI_of_fields hz rfl rfl hs))
  case h_14 =>
    obtain ⟨hc, rfl⟩ := need_ok.mp h
    simp only [Bool.and_eq_true, beq_iff_eq] at hc
    obtain ⟨⟨⟨⟨ha, -⟩, hz⟩, hb⟩, hw⟩ := hc
    exact congrArg (some ∘ inV0) (wVR_of_fields (eq_ofNat_of_toNat ‹_›) rfl rfl rfl (bits_srcOf ha).symm (bits_srcOf hb).symm
      (fnVI_of_fields hz hw rfl rfl))
  case h_15 =>
    obtain ⟨hc, rfl⟩ := need_ok.mp h
    simp only [Bool.and_eq_true, beq_iff_eq] at hc
    obtain ⟨⟨⟨⟨ha, -⟩, hz⟩, hb⟩, hg⟩ := hc
    exact congrArg (some ∘ inV0) (wVR_of_fields (eq_ofNat_of_toNat ‹_›) rfl rfl rfl (bits_srcOf ha).symm hb
      (fnVI_of_fields hz rfl hg rfl))
  case h_16 => cases h
  all_goals
    obtain ⟨hc, rfl⟩ := need_ok.mp h
    simp only [Bool.and_eq_true, beq_iff_eq] at hc
    obtain ⟨⟨⟨ha, -⟩, hz⟩, hb⟩ := hc
    exact congrArg (some ∘ inV0) (wVR_of_fields (eq_ofNat_of_toNat ‹_›) rfl rfl rfl (bits_srcOf ha).symm (bits_srcOf hb).symm
      (fnVI_of_fields hz rfl rfl rfl))

/-- A register field that keeps to the lane masks is a mask's number. -/
theorem eq_laneMask {lo : Nat} (h : field (field w lo 6) 3 3 = 0) : field w lo 6 = 0#3 ++ field (field w lo 6) 0 3 :=
  field_append (m := 3) (n := 3) ((field_field w lo 3 3 (n := 6) (by decide)).symm.trans h) (field_field w lo 0 3 (n := 6) (by decide)).symm

/-- So is a source field that keeps to them. -/
theorem eq_laneMaskSrc {lo : Nat} (h : field (field w lo 7) 3 4 = 0) : field w lo 7 = 0#4 ++ field (field w lo 7) 0 3 :=
  field_append (m := 4) (n := 3) ((field_field w lo 3 4 (n := 7) (by decide)).symm.trans h) (field_field w lo 0 3 (n := 7) (by decide)).symm

theorem encode_of_decK (hop : (field w 34 6).toNat = 0x32 ∨ (field w 34 6).toNat = 0x33) (h : decK (field w 34 6).toNat w = .ok i) :
    encode i = some (inV0 w) := by
  unfold decK at h
  dsimp only at h
  split at h
  next e =>
    have hfn {k : BitVec 3} (hz : field (field w 0 7) 3 4 = 0) (hk : field (field w 0 7) 0 3 = k) : field w 0 7 = 0#4 ++ k :=
      (eq_laneMaskSrc hz).trans (by rw [hk])
    split at h
    case h_5 =>
      obtain ⟨hc, rfl⟩ := need_ok.mp h
      simp only [Bool.and_eq_true, beq_iff_eq] at hc
      obtain ⟨⟨⟨⟨⟨hkm, hd⟩, ha⟩, -⟩, hz⟩, hb⟩ := hc
      exact congrArg (some ∘ inV0) (wVR_of_fields (eq_ofNat_of_toNat e) rfl hkm (eq_laneMask hd) (eq_laneMaskSrc ha) hb
        ((hfn hz (eq_ofNat_of_toNat ‹_›)).trans rfl))
    case h_6 => cases h
    all_goals
      obtain ⟨hc, rfl⟩ := need_ok.mp h
      simp only [Bool.and_eq_true, beq_iff_eq] at hc
      obtain ⟨⟨⟨⟨hkm, hd⟩, ha⟩, hb⟩, hz⟩ := hc
      exact congrArg (some ∘ inV0) (wVR_of_fields (eq_ofNat_of_toNat e) rfl hkm (eq_laneMask hd) (eq_laneMaskSrc ha) (eq_laneMaskSrc hb)
        ((hfn hz (eq_ofNat_of_toNat ‹_›)).trans rfl))
  next ne =>
    have e := hop.resolve_left ne
    have hfn {k : BitVec 2} (hz : field (field w 0 7) 2 5 = 0) (hk : field (field w 0 7) 0 2 = k) : field w 0 7 = 0#5 ++ k :=
      (field_all _).symm.trans (field_append (lo := 0) (m := 5) (n := 2) hz hk)
    split at h
    next g =>
      obtain ⟨hc, rfl⟩ := need_ok.mp h
      simp only [Bool.and_eq_true, beq_iff_eq] at hc
      obtain ⟨⟨⟨⟨hkm, hb⟩, hz⟩, hd⟩, ha⟩ := hc
      exact congrArg (some ∘ inV0) (wVR_of_fields (eq_ofNat_of_toNat e) rfl hkm (eq_laneMask hd) (eq_laneMaskSrc ha) hb
        ((hfn hz (eq_ofNat_of_toNat g)).trans rfl))
    next g =>
      obtain ⟨hc, rfl⟩ := need_ok.mp h
      simp only [Bool.and_eq_true, beq_iff_eq] at hc
      obtain ⟨⟨⟨⟨hkm, hb⟩, hz⟩, hd⟩, ha⟩ := hc
      exact congrArg (some ∘ inV0) (wVR_of_fields (eq_ofNat_of_toNat e) rfl hkm (eq_laneMask hd) (bits_srcOf ha).symm hb
        ((hfn hz (eq_ofNat_of_toNat g)).trans rfl))
    next g =>
      obtain ⟨hc, rfl⟩ := need_ok.mp h
      simp only [Bool.and_eq_true, beq_iff_eq] at hc
      obtain ⟨⟨⟨hkm, hb⟩, hz⟩, ha⟩ := hc
      exact congrArg (some ∘ inV0) (wVR_of_fields (eq_ofNat_of_toNat e) rfl hkm rfl (eq_laneMaskSrc ha) hb
        ((hfn hz (eq_ofNat_of_toNat g)).trans rfl))
    next => cases h

end Vector

theorem encode_of_decVred {fn fa fb : BitVec 7} {qp : PredNo} {km : BitVec 3} {d : RegNo} {i : Instr}
    (h : decVred fn (srcOk fa && fb == 0) qp km d (srcOf fa) = .ok i) : encode i = some (inV0 (wVR 0x3B#6 qp km d fa fb fn)) := by
  have hfn {k : BitVec 3} {hi : BitVec 2} (hz : field fn 5 2 = hi) (hk : field fn 0 3 = k) : fn = hi ++ field fn 3 2 ++ k :=
    (field_all fn).symm.trans <| field_append (lo := 0) (m := 4) (n := 3) (field_append (lo := 3) (m := 2) (n := 2) hz rfl) hk
  unfold decVred at h
  dsimp only at h
  split at h
  case h_4 =>
    obtain ⟨hc, rfl⟩ := need_ok.mp h
    simp only [Bool.and_eq_true, beq_iff_eq] at hc
    obtain ⟨⟨ha, rfl⟩, -⟩ := hc
    conv_rhs => rw [← bits_srcOf ha, hfn (field_append (lo := 5) (m := 1) (n := 1) (field_one ..) (field_one ..)) (eq_ofNat_of_toNat ‹_›)]
    rfl
  case h_8 =>
    obtain ⟨hc, rfl⟩ := need_ok.mp h
    simp only [Bool.and_eq_true, beq_iff_eq] at hc
    obtain ⟨⟨⟨ha, rfl⟩, -⟩, hz⟩ := hc
    have hlt := (field fn 0 3).isLt
    have hlast : (field fn 0 3).toNat = 7 := by simp only [imp_false] at *; omega
    conv_rhs => rw [← bits_srcOf ha, hfn hz (eq_ofNat_of_toNat hlast)]
    rfl
  all_goals
    obtain ⟨hc, rfl⟩ := need_ok.mp h
    simp only [Bool.and_eq_true, beq_iff_eq] at hc
    obtain ⟨⟨⟨ha, rfl⟩, -⟩, hz⟩ := hc
    conv_rhs => rw [← bits_srcOf ha, hfn hz (eq_ofNat_of_toNat ‹_›)]
    rfl

/-- What a V slot reads is the word of the instruction. -/
theorem encode_of_decodeV {v1 : Bool} {w : BitVec 40} {i : Instr} (h : decodeV v1 w = .ok i) : encode i = some (inV0 w) := by
  unfold decodeV at h
  split at h
  next => cases h
  next =>
  dsimp only at h
  split at h
  next => cases h
  next =>
  split at h
  next => exact encode_of_decVF h
  next =>
  split at h
  next => exact encode_of_decVI h
  next =>
  split at h
  next e =>
    obtain ⟨hc, rfl⟩ := need_ok.mp h
    simp only [Bool.and_eq_true, beq_iff_eq] at hc
    obtain ⟨⟨⟨ha, hb⟩, hd⟩, -⟩ := hc
    exact congrArg (some ∘ inV0) (wVR_of_fields (eq_ofNat_of_toNat e) rfl rfl (eq_laneMask hd) (bits_srcOf ha).symm (bits_srcOf hb).symm
      ((field_all _).symm.trans <| field_append (lo := 0) (m := 5) (n := 2) (field_append (lo := 2) (m := 4) (n := 1)
        (field_append (lo := 3) (m := 1) (n := 3) (field_one ..) rfl) (field_one ..)) rfl))
  next e =>
    obtain ⟨hc, rfl⟩ := need_ok.mp h
    simp only [Bool.and_eq_true, beq_iff_eq] at hc
    obtain ⟨⟨ha, hb⟩, hz⟩ := hc
    exact congrArg (some ∘ inV0) (wVR_of_fields (eq_ofNat_of_toNat e) rfl rfl rfl (bits_srcOf ha).symm (bits_srcOf hb).symm
      (eq_laneMaskSrc hz))
  next e => exact encode_of_decK (.inl e) h
  next e => exact encode_of_decK (.inr e) h
  next e =>
    obtain ⟨hc, rfl⟩ := need_ok.mp h
    simp only [Bool.and_eq_true, Bool.not_eq_true'] at hc
    obtain ⟨⟨ha, h6⟩, -⟩ := hc
    exact congrArg (some ∘ inV0) (wVR_of_fields (eq_ofNat_of_toNat e) rfl rfl rfl (bits_srcOf ha).symm
      ((field_all _).symm.trans <| field_append (lo := 0) (m := 4) (n := 3) (field_append (lo := 3) (m := 3) (n := 1)
        (field_append (lo := 4) (m := 2) (n := 1) (field_append (lo := 5) (m := 1) (n := 1) (field_of_clear h6) (field_one ..))
          (field_one ..)) (field_one ..)) rfl)
      ((field_all _).symm.trans <| field_append (lo := 0) (m := 3) (n := 4) rfl rfl))
  next e =>
    obtain ⟨hc, rfl⟩ := need_ok.mp h
    simp only [Bool.and_eq_true, beq_iff_eq] at hc
    obtain ⟨⟨⟨ha, hb⟩, -⟩, hz⟩ := hc
    exact congrArg (some ∘ inV0) (wVR_of_fields (eq_ofNat_of_toNat e) rfl rfl rfl (bits_srcOf ha).symm (bits_srcOf hb).symm
      ((field_all _).symm.trans <| field_append (lo := 0) (m := 5) (n := 2) hz rfl))
  next e =>
    obtain ⟨hc, rfl⟩ := need_ok.mp h
    simp only [Bool.and_eq_true, beq_iff_eq] at hc
    obtain ⟨⟨ha, hb⟩, hz⟩ := hc
    have hfn : field w 0 7 = 0#6 ++ bit (bitAt (field w 0 7) 0) :=
      (field_all _).symm.trans (field_append (lo := 0) (m := 6) (n := 1) hz (field_one ..))
    split
    next g =>
      exact congrArg (some ∘ inV0) (wVR_of_fields (eq_ofNat_of_toNat e) rfl rfl rfl (bits_srcOf ha).symm (bits_srcOf hb).symm
        (hfn.trans (by rw [g]; rfl)))
    next g =>
      exact congrArg (some ∘ inV0) (wVR_of_fields (eq_ofNat_of_toNat e) rfl rfl rfl (bits_srcOf ha).symm (bits_srcOf hb).symm
        (hfn.trans (by rw [Bool.eq_false_iff.mpr g]; rfl)))
  next e => rw [encode_of_decVred h, wVR_of_fields (eq_ofNat_of_toNat e) rfl rfl rfl rfl rfl rfl]
  next e =>
    split at h
    next g =>
      obtain ⟨hc, rfl⟩ := need_ok.mp h
      simp only [Bool.and_eq_true, beq_iff_eq, Bool.not_eq_true'] at hc
      obtain ⟨⟨h6, hb⟩, -⟩ := hc
      exact congrArg (some ∘ inV0) (wVR_of_fields (eq_ofNat_of_toNat e) rfl rfl rfl
        ((field_all _).symm.trans <| field_append (lo := 0) (m := 1) (n := 6) (field_of_clear h6) rfl) hb
        ((field_all _).symm.trans <| field_append (lo := 0) (m := 6) (n := 1) (field_append (lo := 1) (m := 4) (n := 2) rfl rfl)
          (field_of_set g)))
    next g =>
      obtain ⟨hc, rfl⟩ := need_ok.mp h
      simp only [Bool.and_eq_true, beq_iff_eq] at hc
      obtain ⟨⟨ha, hb⟩, hz⟩ := hc
      exact congrArg (some ∘ inV0) (wVR_of_fields (eq_ofNat_of_toNat e) rfl rfl rfl (bits_srcOf ha).symm hb
        (((field_all _).symm.trans <| field_append (lo := 0) (m := 6) (n := 1) hz (field_of_clear (Bool.eq_false_iff.mpr g))).trans rfl))
  next e =>
    obtain ⟨hc, rfl⟩ := need_ok.mp h
    simp only [Bool.and_eq_true, beq_iff_eq] at hc
    exact congrArg (some ∘ inV0) (wVI_of_fields (eq_ofNat_of_toNat e) rfl rfl rfl
      ((field_all _).symm.trans <| field_append (lo := 0) (m := 5) (n := 2) hc.1 rfl) rfl)
  next e =>
    split at h
    next => cases h
    next =>
      obtain ⟨hc, rfl⟩ := need_ok.mp h
      simp only [Bool.and_eq_true, beq_iff_eq] at hc
      obtain ⟨⟨⟨⟨⟨hkm, hd⟩, ha⟩, hz⟩, -⟩, -⟩ := hc
      exact congrArg (some ∘ inV0) (wVI_of_fields (eq_ofNat_of_toNat e) rfl hkm hd ha
        (field_append (lo := 0) (m := 11) (n := 3) hz rfl))
  next e =>
    obtain ⟨hc, rfl⟩ := need_ok.mp h
    simp only [Bool.and_eq_true, beq_iff_eq] at hc
    obtain ⟨⟨⟨⟨ha, hb⟩, hkm⟩, hz⟩, -⟩ := hc
    exact congrArg (some ∘ inV0) (wVR_of_fields (eq_ofNat_of_toNat e) rfl hkm rfl (bits_srcOf ha).symm hb
      ((field_all _).symm.trans <| field_append (lo := 0) (m := 3) (n := 4) hz rfl))
  next => cases h

/-! ## The X slot (R76, R83) -/

theorem encode_of_mma {w : BitVec 36} {i : Instr} (hop : field w 30 6 = 0x01#6)
    (h : need (srcOk (field w 16 7) && field (field w 0 10) 8 2 == 0 &&
        wfMma ⟨field w 26 4, field w 23 3, srcOf (field w 16 7), field w 10 6, bitAt (field w 0 10) 7, bitAt (field w 0 10) 6,
          bitAt (field w 0 10) 5, bitAt (field w 0 10) 4, bitAt (field w 0 10) 3, field (field w 0 10) 0 3⟩)
      (.mma ⟨field w 26 4, field w 23 3, srcOf (field w 16 7), field w 10 6, bitAt (field w 0 10) 7, bitAt (field w 0 10) 6,
          bitAt (field w 0 10) 5, bitAt (field w 0 10) 4, bitAt (field w 0 10) 3, field (field w 0 10) 0 3⟩) = .ok i) :
    encode i = some (inX w) := by
  obtain ⟨hc, rfl⟩ := need_ok.mp h
  simp only [Bool.and_eq_true, beq_iff_eq] at hc
  exact congrArg (some ∘ inX) (wXM_of_fields hop rfl rfl (bits_srcOf hc.1.1).symm rfl
    ((field_all _).symm.trans <| field_append (lo := 0) (m := 7) (n := 3) (field_append (lo := 3) (m := 6) (n := 1)
      (field_append (lo := 4) (m := 5) (n := 1) (field_append (lo := 5) (m := 4) (n := 1) (field_append (lo := 6) (m := 3) (n := 1)
        (field_append (lo := 7) (m := 2) (n := 1) hc.1.2 (field_one ..)) (field_one ..)) (field_one ..)) (field_one ..))
          (field_one ..)) rfl))

/-- What the X slot reads is the word of the instruction. -/
theorem encode_of_decodeX {w : BitVec 36} {i : Instr} (h : decodeX w = .ok i) : encode i = some (inX w) := by
  unfold decodeX at h
  split at h
  next => cases h
  next =>
  dsimp only at h
  have hpart {f : BitVec 14} (hz : field f 4 10 = 0) : f = 0#10 ++ bit (bitAt f 3) ++ field f 0 3 :=
    (field_all f).symm.trans <| field_append (lo := 0) (m := 11) (n := 3) (field_append (lo := 3) (m := 10) (n := 1) hz (field_one ..)) rfl
  have hport {f : RegNo} (hz : field f 3 3 = 0) : f = 0#3 ++ field f 0 3 :=
    (field_all f).symm.trans <| field_append (lo := 0) (m := 3) (n := 3) hz rfl
  split at h
  next => cases h
  next e => exact encode_of_mma (eq_ofNat_of_toNat e) h
  next e =>
    obtain ⟨hc, rfl⟩ := need_ok.mp h
    simp only [Bool.and_eq_true, beq_iff_eq] at hc
    obtain ⟨⟨ha, hb⟩, hf⟩ := hc
    exact congrArg (some ∘ inX) (wXM_of_fields (eq_ofNat_of_toNat e) rfl rfl ha hb hf)
  next e =>
    obtain ⟨hc, rfl⟩ := need_ok.mp h
    simp only [Bool.and_eq_true, beq_iff_eq] at hc
    obtain ⟨⟨ha, hz⟩, -⟩ := hc
    exact congrArg (some ∘ inX) (wXM_of_fields (eq_ofNat_of_toNat e) rfl rfl ha rfl
      ((field_all _).symm.trans <| field_append (lo := 0) (m := 8) (n := 2) hz rfl))
  next e =>
    have hfm (hz : field (field w 0 10) 3 7 = 0) : field w 0 10 = 0#7 ++ bit (bitAt (field w 0 10) 2) ++ field (field w 0 10) 0 2 :=
      (field_all _).symm.trans <| field_append (lo := 0) (m := 8) (n := 2) (field_append (lo := 2) (m := 7) (n := 1) hz (field_one ..)) rfl
    split at h
    next g =>
      obtain ⟨hc, rfl⟩ := need_ok.mp h
      simp only [Bool.and_eq_true, beq_iff_eq] at hc
      obtain ⟨⟨⟨⟨hz, -⟩, -⟩, ha⟩, hb⟩ := hc
      have hsrc : field w 16 7 = 1#1 ++ 0#3 ++ field (field w 16 7) 0 3 := by
        have := bits_srcOf ha
        rw [srcOf, if_pos g] at this
        exact this.symm
      exact congrArg (some ∘ inX) (wXM_of_fields (eq_ofNat_of_toNat e) rfl rfl hsrc hb (hfm hz))
    next =>
      obtain ⟨hc, rfl⟩ := need_ok.mp h
      simp only [Bool.and_eq_true, beq_iff_eq] at hc
      obtain ⟨⟨⟨hz, -⟩, -⟩, ha⟩ := hc
      exact congrArg (some ∘ inX) (wXM_of_fields (eq_ofNat_of_toNat e) rfl rfl ha rfl (hfm hz))
  next e =>
    have hfr {x y : BitVec 1} (hz : field (field w 0 14) 12 2 = 0) (hx : field (field w 0 14) 11 1 = x)
        (hy : field (field w 0 14) 10 1 = y) :
        field w 0 14 = 0#2 ++ x ++ y ++ field (field w 0 14) 3 7 ++ field (field w 0 14) 0 3 :=
      (field_all _).symm.trans <| field_append (lo := 0) (m := 11) (n := 3) (field_append (lo := 3) (m := 4) (n := 7)
        (field_append (lo := 10) (m := 3) (n := 1) (field_append (lo := 11) (m := 2) (n := 1) hz hx) hy) rfl) rfl
    split at h
    next g =>
      obtain ⟨hc, rfl⟩ := need_ok.mp h
      simp only [Bool.and_eq_true, beq_iff_eq, Bool.not_eq_true'] at hc
      obtain ⟨⟨hz, hd⟩, hx⟩ := hc
      exact congrArg (some ∘ inX) (wXR_of_fields (eq_ofNat_of_toNat e) rfl hd rfl (hfr hz (field_of_clear hx) (field_of_set g)))
    next g =>
      obtain ⟨hc, rfl⟩ := need_ok.mp h
      simp only [Bool.and_eq_true, beq_iff_eq] at hc
      exact congrArg (some ∘ inX) (wXR_of_fields (eq_ofNat_of_toNat e) rfl rfl hc.2
        (hfr hc.1 (field_one ..) (field_of_clear (Bool.eq_false_iff.mpr g))))
  next e =>
    obtain ⟨hc, rfl⟩ := need_ok.mp h
    simp only [Bool.and_eq_true, beq_iff_eq] at hc
    exact congrArg (some ∘ inX) (wXM_of_fields (eq_ofNat_of_toNat e) rfl rfl (bits_srcOf hc.1).symm rfl hc.2)
  iterate 2
    next e =>
      obtain ⟨hc, rfl⟩ := need_ok.mp h
      simp only [Bool.and_eq_true, beq_iff_eq] at hc
      exact congrArg (some ∘ inX) (wXR_of_fields (eq_ofNat_of_toNat e) rfl hc.1 rfl hc.2)
  next e =>
    obtain ⟨hz, rfl⟩ := need_ok.mp h
    exact congrArg (some ∘ inX) (wXR_of_low (eq_ofNat_of_toNat e) rfl (eq_of_beq hz))
  next e =>
    obtain ⟨hc, rfl⟩ := need_ok.mp h
    simp only [Bool.and_eq_true, beq_iff_eq] at hc
    obtain ⟨⟨⟨ha, hz⟩, -⟩, -⟩ := hc
    exact congrArg (some ∘ inX) (wXR_of_fields (eq_ofNat_of_toNat e) rfl rfl ha
      ((field_all _).symm.trans <| field_append (lo := 0) (m := 10) (n := 4) hz rfl))
  next e =>
    obtain ⟨hc, rfl⟩ := need_ok.mp h
    simp only [Bool.and_eq_true, beq_iff_eq] at hc
    obtain ⟨⟨ha, hz⟩, -⟩ := hc
    exact congrArg (some ∘ inX) (wXM_of_fields (eq_ofNat_of_toNat e) rfl rfl (bits_srcOf ha).symm rfl
      ((field_all _).symm.trans <| field_append (lo := 0) (m := 8) (n := 2) (field_append (lo := 2) (m := 7) (n := 1)
        (field_append (lo := 3) (m := 6) (n := 1) (field_append (lo := 4) (m := 5) (n := 1) (field_append (lo := 5) (m := 4) (n := 1)
          (by exact hz) (field_one ..)) (field_one ..)) (field_one ..)) (field_one ..)) rfl))
  next e =>
    obtain ⟨hz, rfl⟩ := need_ok.mp h
    exact congrArg (some ∘ inX) (wXR_of_low (eq_ofNat_of_toNat e) rfl (eq_of_beq hz))
  next e => cases h; exact congrArg (some ∘ inX) (wXS_of_fields (eq_ofNat_of_toNat e) rfl rfl rfl rfl)
  next e =>
    obtain ⟨hc, rfl⟩ := need_ok.mp h
    simp only [Bool.and_eq_true, beq_iff_eq] at hc
    exact congrArg (some ∘ inX) (wXR_of_fields (eq_ofNat_of_toNat e) rfl (hport hc.1) rfl
      ((field_all _).symm.trans <| field_append (lo := 0) (m := 6) (n := 8) hc.2 rfl))
  next e =>
    obtain ⟨hc, rfl⟩ := need_ok.mp h
    simp only [Bool.and_eq_true, beq_iff_eq] at hc
    exact congrArg (some ∘ inX) (wXR_of_fields (eq_ofNat_of_toNat e) rfl rfl (hport hc.1) (hpart hc.2))
  next e =>
    obtain ⟨hc, rfl⟩ := need_ok.mp h
    simp only [Bool.and_eq_true, beq_iff_eq] at hc
    exact congrArg (some ∘ inX) (wXR_of_fields (eq_ofNat_of_toNat e) rfl (hport hc.1) rfl (hpart hc.2))
  next e =>
    obtain ⟨hc, rfl⟩ := need_ok.mp h
    simp only [Bool.and_eq_true, beq_iff_eq] at hc
    exact congrArg (some ∘ inX) (wXR_of_fields (eq_ofNat_of_toNat e) rfl rfl rfl
      ((field_all _).symm.trans <| field_append (lo := 0) (m := 6) (n := 8) (field_append (lo := 8) (m := 2) (n := 4) hc.1 rfl) rfl))
  next e =>
    have hfr {k : BitVec 2} (hz : field (field w 0 14) 10 4 = 0) (hk : field (field w 0 14) 8 2 = k) :
        field w 0 14 = 0#4 ++ k ++ field (field w 0 14) 0 8 :=
      (field_all _).symm.trans <| field_append (lo := 0) (m := 6) (n := 8) (field_append (lo := 8) (m := 4) (n := 2) hz hk) rfl
    split at h
    case h_4 => cases h
    all_goals
      obtain ⟨hc, rfl⟩ := need_ok.mp h
      simp only [Bool.and_eq_true, beq_iff_eq] at hc
      exact congrArg (some ∘ inX) (wXR_of_fields (eq_ofNat_of_toNat e) rfl hc.1 rfl (hfr hc.2 (eq_ofNat_of_toNat ‹_›)))
  next e =>
    obtain ⟨hc, rfl⟩ := need_ok.mp h
    simp only [Bool.and_eq_true, beq_iff_eq] at hc
    exact congrArg (some ∘ inX) (wXS_of_fields (eq_ofNat_of_toNat e) rfl hc.1 rfl hc.2)
  next => cases h

/-! ## The C slot (R77, R84) -/

/-- What the C slot reads is the word of the instruction. -/
theorem encode_of_decodeC {w : BitVec 20} {i : Instr} (h : decodeC w = .ok i) : encode i = some (inC w) := by
  unfold decodeC at h
  split at h
  next => cases h
  next =>
  dsimp only at h
  have hphase (hz : field (field w 0 15) 0 9 = 0) : field w 0 15 = field (field w 0 15) 9 6 ++ 0#9 :=
    (field_all _).symm.trans <| field_append (lo := 0) (m := 6) (n := 9) rfl hz
  split at h
  next => cases h
  next e =>
    obtain ⟨hz, rfl⟩ := need_ok.mp h
    exact congrArg (some ∘ inC) (wC_of_fields (eq_ofNat_of_toNat e) (eq_of_beq hz))
  iterate 2
    next e =>
      cases h
      exact congrArg (some ∘ inC) (wC_of_fields (eq_ofNat_of_toNat e)
        ((field_all _).symm.trans <| field_append (lo := 0) (m := 5) (n := 10) rfl rfl))
  next e =>
    cases h
    exact congrArg (some ∘ inC) (wC_of_fields (eq_ofNat_of_toNat e)
      ((field_all _).symm.trans <| field_append (lo := 0) (m := 12) (n := 3) (field_append (lo := 3) (m := 8) (n := 4)
        (field_append (lo := 7) (m := 4) (n := 4) rfl rfl) rfl) rfl))
  iterate 2
    next e =>
      obtain ⟨hz, rfl⟩ := need_ok.mp h
      exact congrArg (some ∘ inC) (wC_of_fields (eq_ofNat_of_toNat e) (hphase (eq_of_beq hz)))
  next e =>
    obtain ⟨hc, rfl⟩ := need_ok.mp h
    simp only [Bool.and_eq_true, beq_iff_eq] at hc
    exact congrArg (some ∘ inC) (wC_of_fields (eq_ofNat_of_toNat e)
      ((field_all _).symm.trans <| field_append (lo := 0) (m := 8) (n := 7) (field_append (lo := 7) (m := 6) (n := 2) rfl rfl) hc.1))
  next e =>
    obtain ⟨hz, rfl⟩ := need_ok.mp h
    exact congrArg (some ∘ inC) (wC_of_fields (eq_ofNat_of_toNat e) (hphase (eq_of_beq hz)))
  next => cases h

/-! ## Every instruction, and the obligation -/

/-- The bundle that holds a well-formed instruction alone decodes to it: the lemma of each instruction. -/
theorem decode_encode (i : Instr) : EncodeDecode.Statement i :=
  match i with
  | .iadd o => EncodeDecode.iadd o | .isub o => EncodeDecode.isub o | .andR o => EncodeDecode.andR o | .orR o => EncodeDecode.orR o
  | .xor o => EncodeDecode.xor o | .andn o => EncodeDecode.andn o | .orn o => EncodeDecode.orn o | .shl o => EncodeDecode.shl o
  | .shr o => EncodeDecode.shr o | .sar o => EncodeDecode.sar o | .ror o => EncodeDecode.ror o | .imin o => EncodeDecode.imin o
  | .imax o => EncodeDecode.imax o | .iminz o => EncodeDecode.iminz o | .imaxz o => EncodeDecode.imaxz o | .iaddi o => EncodeDecode.iaddi o
  | .andi o => EncodeDecode.andi o | .ori o => EncodeDecode.ori o | .xori o => EncodeDecode.xori o | .shli o => EncodeDecode.shli o
  | .shri o => EncodeDecode.shri o | .sari o => EncodeDecode.sari o | .rori o => EncodeDecode.rori o | .imul o => EncodeDecode.imul o
  | .imulh o => EncodeDecode.imulh o | .imulhz o => EncodeDecode.imulhz o | .idiv o => EncodeDecode.idiv o | .idivz o => EncodeDecode.idivz o
  | .irem o => EncodeDecode.irem o | .iremz o => EncodeDecode.iremz o | .imuli o => EncodeDecode.imuli o | .clz o => EncodeDecode.clz o
  | .ctz o => EncodeDecode.ctz o | .popc o => EncodeDecode.popc o | .brev o => EncodeDecode.brev o | .bswap o => EncodeDecode.bswap o
  | .iabs o => EncodeDecode.iabs o | .ineg o => EncodeDecode.ineg o | .exts o => EncodeDecode.exts o | .extz o => EncodeDecode.extz o
  | .dep o => EncodeDecode.dep o | .lea o => EncodeDecode.lea o | .sel o => EncodeDecode.sel o | .movi o => EncodeDecode.movi o
  | .movk o => EncodeDecode.movk o | .vextr o => EncodeDecode.vextr o | .vins o => EncodeDecode.vins o | .icmp o => EncodeDecode.icmp o
  | .icmpi o => EncodeDecode.icmpi o | .fcmp o => EncodeDecode.fcmp o | .pand o => EncodeDecode.pand o | .por o => EncodeDecode.por o
  | .pxor o => EncodeDecode.pxor o | .pandn o => EncodeDecode.pandn o | .pnot o => EncodeDecode.pnot o | .pget o => EncodeDecode.pget o
  | .pset o => EncodeDecode.pset o | .fadd o => EncodeDecode.fadd o | .fsub o => EncodeDecode.fsub o | .fmul o => EncodeDecode.fmul o
  | .fdiv o => EncodeDecode.fdiv o | .fsqrt o => EncodeDecode.fsqrt o | .fmin o => EncodeDecode.fmin o | .fmax o => EncodeDecode.fmax o
  | .ffma o => EncodeDecode.ffma o | .fcvt o => EncodeDecode.fcvt o | .mfs o => EncodeDecode.mfs o | .mts o => EncodeDecode.mts o
  | .trap o => EncodeDecode.trap o | .rft o => EncodeDecode.rft o | .halt o => EncodeDecode.halt o | .br o => EncodeDecode.br o
  | .call o => EncodeDecode.call o | .brx o => EncodeDecode.brx o | .ret o => EncodeDecode.ret o | .chk o => EncodeDecode.chk o
  | .chkv o => EncodeDecode.chkv o | .fork o => EncodeDecode.fork o | .sync o => EncodeDecode.sync o | .retf o => EncodeDecode.retf o
  | .tend o => EncodeDecode.tend o | .yield o => EncodeDecode.yield o | .waitc o => EncodeDecode.waitc o | .ldb o => EncodeDecode.ldb o
  | .ldbz o => EncodeDecode.ldbz o | .ldh o => EncodeDecode.ldh o | .ldhz o => EncodeDecode.ldhz o | .ldw o => EncodeDecode.ldw o
  | .ldwz o => EncodeDecode.ldwz o | .ldd o => EncodeDecode.ldd o | .stb o => EncodeDecode.stb o | .sth o => EncodeDecode.sth o
  | .stw o => EncodeDecode.stw o | .std o => EncodeDecode.std o | .vld o => EncodeDecode.vld o | .vst o => EncodeDecode.vst o
  | .vgath o => EncodeDecode.vgath o | .vscat o => EncodeDecode.vscat o | .rld o => EncodeDecode.rld o | .rst o => EncodeDecode.rst o
  | .rvld o => EncodeDecode.rvld o | .rvst o => EncodeDecode.rvst o | .gldb o => EncodeDecode.gldb o | .gldh o => EncodeDecode.gldh o
  | .gldw o => EncodeDecode.gldw o | .gldd o => EncodeDecode.gldd o | .gstb o => EncodeDecode.gstb o | .gsth o => EncodeDecode.gsth o
  | .gstw o => EncodeDecode.gstw o | .gstd o => EncodeDecode.gstd o | .gvld o => EncodeDecode.gvld o | .gvst o => EncodeDecode.gvst o
  | .gldsW o => EncodeDecode.gldsW o | .gldsD o => EncodeDecode.gldsD o | .pref o => EncodeDecode.pref o | .copy o => EncodeDecode.copy o
  | .copyIn o => EncodeDecode.copyIn o | .copyOut o => EncodeDecode.copyOut o | .copy2d o => EncodeDecode.copy2d o
  | .accwAdd o => EncodeDecode.accwAdd o | .accwMin o => EncodeDecode.accwMin o | .accwMax o => EncodeDecode.accwMax o
  | .accwMinz o => EncodeDecode.accwMinz o | .accwMaxz o => EncodeDecode.accwMaxz o | .accwAnd o => EncodeDecode.accwAnd o
  | .accwOr o => EncodeDecode.accwOr o | .accwXor o => EncodeDecode.accwXor o | .accwSwap o => EncodeDecode.accwSwap o
  | .accwCas o => EncodeDecode.accwCas o | .accwFaddq o => EncodeDecode.accwFaddq o | .ald o => EncodeDecode.ald o
  | .qnotify o => EncodeDecode.qnotify o | .qfence o => EncodeDecode.qfence o | .fpostr o => EncodeDecode.fpostr o
  | .fenceRel o => EncodeDecode.fenceRel o | .fenceAcq o => EncodeDecode.fenceAcq o | .fenceFull o => EncodeDecode.fenceFull o
  | .fenceFullq o => EncodeDecode.fenceFullq o | .xlat o => EncodeDecode.xlat o | .hrel o => EncodeDecode.hrel o | .hinfo o => EncodeDecode.hinfo o
  | .hinfoVa o => EncodeDecode.hinfoVa o | .pcommit o => EncodeDecode.pcommit o | .pdecommit o => EncodeDecode.pdecommit o
  | .qalloc o => EncodeDecode.qalloc o | .qfree o => EncodeDecode.qfree o | .btset o => EncodeDecode.btset o | .btget o => EncodeDecode.btget o
  | .btapp o => EncodeDecode.btapp o | .launch o => EncodeDecode.launch o | .shapeFinal o => EncodeDecode.shapeFinal o
  | .shapeFloor o => EncodeDecode.shapeFloor o | .graph o => EncodeDecode.graph o | .vadd o => EncodeDecode.vadd o | .vsub o => EncodeDecode.vsub o
  | .vmul o => EncodeDecode.vmul o | .vfma o => EncodeDecode.vfma o | .vfms o => EncodeDecode.vfms o | .vfnma o => EncodeDecode.vfnma o
  | .vmin o => EncodeDecode.vmin o | .vmax o => EncodeDecode.vmax o | .vabs o => EncodeDecode.vabs o | .vneg o => EncodeDecode.vneg o
  | .vdiv o => EncodeDecode.vdiv o | .vsqrt o => EncodeDecode.vsqrt o | .vrcp o => EncodeDecode.vrcp o | .vrsq o => EncodeDecode.vrsq o
  | .vexp2 o => EncodeDecode.vexp2 o | .vlog2 o => EncodeDecode.vlog2 o | .vtanh o => EncodeDecode.vtanh o | .vscl o => EncodeDecode.vscl o
  | .viadd o => EncodeDecode.viadd o | .visub o => EncodeDecode.visub o | .vimul o => EncodeDecode.vimul o | .vimad o => EncodeDecode.vimad o
  | .vshl o => EncodeDecode.vshl o | .vshr o => EncodeDecode.vshr o | .vsar o => EncodeDecode.vsar o | .vand o => EncodeDecode.vand o
  | .vor o => EncodeDecode.vor o | .vxor o => EncodeDecode.vxor o | .vandn o => EncodeDecode.vandn o | .vimin o => EncodeDecode.vimin o
  | .vimax o => EncodeDecode.vimax o | .vdot4 o => EncodeDecode.vdot4 o | .viabs o => EncodeDecode.viabs o | .vcmp o => EncodeDecode.vcmp o
  | .vselk o => EncodeDecode.vselk o | .kand o => EncodeDecode.kand o | .kor o => EncodeDecode.kor o | .kxor o => EncodeDecode.kxor o
  | .kandn o => EncodeDecode.kandn o | .knot o => EncodeDecode.knot o | .kmov o => EncodeDecode.kmov o | .kmovV2k o => EncodeDecode.kmovV2k o
  | .kmovK2v o => EncodeDecode.kmovK2v o | .vcvt o => EncodeDecode.vcvt o | .vpermb o => EncodeDecode.vpermb o | .vperml o => EncodeDecode.vperml o
  | .vpermlTwo o => EncodeDecode.vpermlTwo o | .vredFsum o => EncodeDecode.vredFsum o | .vredFmax o => EncodeDecode.vredFmax o
  | .vredFmin o => EncodeDecode.vredFmin o | .vredIsum o => EncodeDecode.vredIsum o | .vredImax o => EncodeDecode.vredImax o
  | .vredImin o => EncodeDecode.vredImin o | .vredImaxz o => EncodeDecode.vredImaxz o | .vredIminz o => EncodeDecode.vredIminz o
  | .vmov o => EncodeDecode.vmov o | .vbcast o => EncodeDecode.vbcast o | .vimm o => EncodeDecode.vimm o | .vtag o => EncodeDecode.vtag o
  | .rfmode o => EncodeDecode.rfmode o | .mma o => EncodeDecode.mma o | .mzero o => EncodeDecode.mzero o | .mld o => EncodeDecode.mld o
  | .mstBed o => EncodeDecode.mstBed o | .mstSignal o => EncodeDecode.mstSignal o | .mrow o => EncodeDecode.mrow o
  | .mrowW o => EncodeDecode.mrowW o | .mscl o => EncodeDecode.mscl o | .mgrp o => EncodeDecode.mgrp o | .sqld o => EncodeDecode.sqld o
  | .sqgo o => EncodeDecode.sqgo o | .sqst o => EncodeDecode.sqst o | .sqabt o => EncodeDecode.sqabt o | .attn o => EncodeDecode.attn o
  | .tapset o => EncodeDecode.tapset o | .tapsetx o => EncodeDecode.tapsetx o | .taprd o => EncodeDecode.taprd o | .tapwr o => EncodeDecode.tapwr o
  | .siginf o => EncodeDecode.siginf o | .slotsSel o => EncodeDecode.slotsSel o | .slotsClr o => EncodeDecode.slotsClr o
  | .slotsOne o => EncodeDecode.slotsOne o | .sigrst o => EncodeDecode.sigrst o | .tick => EncodeDecode.tick | .fwait o => EncodeDecode.fwait o
  | .fpost o => EncodeDecode.fpost o | .waitn o => EncodeDecode.waitn o | .phreg o => EncodeDecode.phreg o | .pharr o => EncodeDecode.pharr o
  | .phwait o => EncodeDecode.phwait o | .phdrop o => EncodeDecode.phdrop o
  | .restartMark _ | .resultLanding _ | .resultArrival _ _ | .clusterWakeDone _ _
  | .freezeCycle _ | .ballastCycle _ | .rollbackFault _ _ | .trapEntry _ _
  | .tileEntryComplete _ | .tileFaultReport _ | .commandComplete _ _ | .ingressSampleDelivery _ _
  | .egressSampleDrain _ _ | .mirrorSampleArrival _ _ | .unitEnd _ | .taskSuspend _
  | .flagPostArrival _ _ _ | .taskPick _ | .preempt _ | .resume _ _
  | .launchAccept | .launchStart | .blockDeal _ | .unitStart _ _ _ _
  | .launchComplete _ | .shapePost | .blockCommit _ _ | .graphVisit _
  | .translationWalkDone _ _ | .pageMigration _ _ _ | .blockDrainDone _ _ _ | .sqTail _ _ _
  | .submissionRecord _ _ | .cqHead _ _ _ | .fqHead _ _ | .faultReplyResume _ _
  | .faultReplyEnd _ _ | .sqConf _ _ | .cqConf _ _ | .fqConf _ _
  | .qReset _ _ | .ctxCreate _ _ | .ctxDestroy _ _ | .invalidate _ _
  | .predClear _ _ | .hostMemoryAccess _ _ _ _ _ | .coldReset _ | .getVersion _
  | .getCapabilities _ | .negotiateAlgorithms _ | .getDigests _ | .getCertificate _
  | .challenge _ | .getMeasurements _ | .keyExchange _ | .finish _
  | .endSession _ | .tdispLeaveRun _ _ | .linkAuthFail _ | .linkPathLost _
  | .collectiveSubmit _ _ _ | .collectiveComplete _ _ | .loweringNotice _ _ _ | .loweringNoticeDue
  | .raiseJoinLeave _ _ _ | .epochBoundary | .heartbeat _ | .memberSilent _
  | .leaderTimeout | .memberIsolated | .emergencyLimit _ | .urgentNotice _ _
  | .dieFence _ | .hubDieFatal _ | .vfReset _ | .memberWithdrawn _
  | .powerRingPeriod _ _ | .overcapBallastLimit _ | .pkgCapWrite _ | .diePwrWrite _ _
  | .vtrimWrite _ _ | .voltageLow _ _ _ | .wdogCtlWrite _ _ | .watchdogExpiry _
  | .errorDetected _ _ _ _ _ | .linkCrcError _ | .errStatClear _ | .errInjWrite _ _
  | .clReqRun _ | .clReqQuiesced _ | .clReqSaved _ | .clReqGated _
  | .clStateReached _ | .clWake _ | .clStart _ _ | .linkBringUp _ _
  | .tdispLock _ | .tdispEnterRun _ | .antiRollbackRaise _ _ | .groupBinding _ _ _ _ _ _
  | .curLimitBaseSet _ _ => fun _ _ e => nomatch e

/-- Settles O55: each instruction's own lemma gives the way from the encoder to the decoder; the words put together from their fields the
way back. -/
theorem encodeDecode : Obligations.EncodeDecode := by
  unfold Obligations.EncodeDecode
  exact ⟨decode_encode, fun _ _ => encode_of_decodeS0, fun _ _ => encode_of_decodeS1, fun _ _ => encode_of_decodeM,
    fun _ _ _ => encode_of_decodeV, fun _ _ => encode_of_decodeX, fun _ _ => encode_of_decodeC⟩

end Sys2Proof.Proofs

namespace Sys2Proof.Proofs

open Sys2Proof Sys2Proof.Machine Sys2Proof.Laws

/-! ## Registers written by a landing (R12, R13) -/

/-- A vector indexed by words: what is read after a write. -/
theorem get_set_toFin {α : Type} {w : Nat} (v : Vector α (2 ^ w)) (d e : BitVec w) (a : α) :
    (v.set d.toNat a d.isLt).get e.toFin = if e = d then a else v.get e.toFin := by
  have he : (d.toNat = e.toNat) = (e = d) := propext ⟨fun h => BitVec.eq_of_toNat_eq h.symm, fun h => h ▸ rfl⟩
  rw [Vector.get_eq_getElem, Vector.getElem_set, Vector.get_eq_getElem]
  simp only [BitVec.val_toFin, he]

section Landings

variable (c : Core)

theorem apply_x_zero (w : Word) (b : Bool) : (Landing.x 0 w b).apply c = c := rfl

theorem apply_p_zero (b : Bool) : (Landing.p 0 b).apply c = c := rfl

theorem apply_k_zero (m : Mask) : (Landing.k 0 m).apply c = c := rfl

theorem xr_apply_x {d : RegNo} (h : d ≠ 0) (w : Word) (b : Bool) (e : RegNo) :
    ((Landing.x d w b).apply c).xr e = if e = d then ⟨w, b⟩ else c.xr e := by
  by_cases he : e = 0
  · subst he; rw [if_neg h.symm]; rfl
  · rw [Core.xr, if_neg he, Core.xr, if_neg he, Landing.apply, Regs.setX, if_neg h]
    exact get_set_toFin (w := 6) ..

theorem p_apply_p {d : PredNo} (h : d ≠ 0) (b : Bool) (e : PredNo) :
    ((Landing.p d b).apply c).p e = if e = d then b else c.p e := by
  have hlt : e.toNat < 16 := e.isLt
  by_cases he : e = 0
  · subst he; rw [if_neg h.symm]; rfl
  · have hz : (e == 0) = false := beq_false_of_ne he
    have hiff : d.toNat ≤ e.toNat ∧ e.toNat < d.toNat + 1 ↔ e = d := by rw [← BitVec.toNat_inj]; omega
    rw [Core.p, hz, Bool.false_or, Core.p, hz, Bool.false_or, Landing.apply, Regs.setP, if_neg h]
    refine (getLsbD_putField _ _ _ hlt).trans ?_
    simp only [hiff]
    split
    · next heq => subst heq; cases b <;> simp [boolW]
    · rfl

theorem k_apply_k {d : BitVec 3} (h : d ≠ 0) (m : Mask) (e : BitVec 3) :
    ((Landing.k d m).apply c).k e = if e = d then m else c.k e := by
  by_cases he : e = 0
  · subst he; rw [if_neg h.symm]; rfl
  · rw [Core.k, if_neg he, Core.k, if_neg he, Landing.apply, Regs.setK, if_neg h]
    exact get_set_toFin (w := 3) ..

theorem v_apply_v (d : RegNo) (w : VBits) (t : Tag) (b : Bool) (e : RegNo) :
    ((Landing.v d w t b).apply c).v e = if e = d then ⟨w, t, b⟩ else c.v e := get_set_toFin (w := 6) ..

theorem h_apply_h (d : BitVec 4) (v : Handle) (e : BitVec 4) :
    ((Landing.h d v).apply c).h e = if e = d then v else c.h e := get_set_toFin (w := 4) ..

/-- A landing of an x register leaves the registers of every other kind. -/
theorem apply_x_others {d : RegNo} (w : Word) (b : Bool) :
    ((Landing.x d w b).apply c).r.v = c.r.v ∧ ((Landing.x d w b).apply c).r.p = c.r.p ∧ ((Landing.x d w b).apply c).r.k = c.r.k := by
  simp only [Landing.apply, Regs.setX]; split <;> exact ⟨rfl, rfl, rfl⟩

theorem apply_p_others {d : PredNo} (b : Bool) : ((Landing.p d b).apply c).r.x = c.r.x ∧ ((Landing.p d b).apply c).r.v = c.r.v := by
  simp only [Landing.apply, Regs.setP]; split <;> exact ⟨rfl, rfl⟩

theorem apply_k_others {d : BitVec 3} (m : Mask) : ((Landing.k d m).apply c).r.x = c.r.x ∧ ((Landing.k d m).apply c).r.v = c.r.v := by
  simp only [Landing.apply, Regs.setK]; split <;> exact ⟨rfl, rfl⟩

end Landings

/-! ## When a result lands (R18, R20) -/

/-- A landing changes the registers and the system registers alone, by what they are. -/
theorem apply_congr (l : Landing) {c k : Core} (hr : k.r = c.r) (hs : k.sys = c.sys) :
    (l.apply k).r = (l.apply c).r ∧ (l.apply k).sys = (l.apply c).sys := by
  cases l <;> simp only [Landing.apply, Core.x, Core.xr, hr, hs, and_self]

theorem apply_pipe (l : Landing) (c : Core) : (l.apply c).pipe = c.pipe := by cases l <;> rfl

/-- With a single result in flight and no conflict noted, nothing but it can land. -/
theorem land_single {c : Core} {f : Flight} (h : c.pipe.flights = [f]) :
    c.land = if f.count = 0 then f.land.apply { c with pipe := { c.pipe with flights := [] } } else c := by
  split
  next hz => cases hw : f.land.isWconf <;> simp [Core.land, h, hz, hw, applyAll]
  next hz =>
    simp only [Core.land, h, List.filter_cons, List.filter_nil, bne, beq_false_of_ne hz, Bool.not_false, if_true, if_false, List.map_nil,
      List.append_nil, Bool.false_eq_true, applyAll, List.foldl_nil]
    rw [← h]

/-- Without requests a slot's write takes no destination from any. -/
theorem dropDest_none {p : Pipe} (hr : p.reqs = []) (slot : Nat) (o : Option PDest) :
    (o.map (p.dropDest slot)).getD (p, false) = (p, false) := by
  cases o with
  | none => rfl
  | some d => simp only [Option.map_some, Option.getD_some, Pipe.dropDest, hr, List.map_nil, List.any_nil]; rw [← hr]

theorem push_flights {p : Pipe} (hf : p.flights = []) (hr : p.reqs = []) (slot lat : Nat) (l : Landing) :
    p.push slot l lat = { p with flights := [⟨l, lat - 1, p.seq, slot⟩] } := by
  unfold Pipe.push
  dsimp only
  rw [dropDest_none hr, hf]
  cases l <;> simp [hr, Landing.pdest]

section Push

variable {p : Pipe} {g : Flight} {slot : Nat} {l : Landing}

/-- A write below one of its bundle to the same destination is discarded. -/
theorem push_below_same (hf : p.flights = [g]) (hs : g.seq = p.seq) (hlt : slot < g.slot) (h : g.land.same l = true) (lat : Nat) :
    p.push slot l lat = p.conflict slot := by
  have ho : (g.seq == p.seq && g.slot != slot && g.land.same l) = true := by simp [hs, h, hlt.ne']
  simp [Pipe.push, hf, ho, hlt]

/-- A write above one of its bundle to the same destination takes its place. -/
theorem push_above_same (hf : p.flights = [g]) (hr : p.reqs = []) (hs : g.seq = p.seq) (hlt : g.slot < slot)
    (h : g.land.same l = true) (lat : Nat) :
    p.push slot l lat = Pipe.conflict { p with flights := [⟨l, lat - 1, p.seq, slot⟩] } slot := by
  have ho : (g.seq == p.seq && g.slot != slot && g.land.same l) = true := by simp [hs, h, hlt.ne]
  have hnot : ¬ slot < g.slot := hlt.not_gt
  have habove : (l.pdest.map (fun d => p.reqs.any (fun r => r.seq == p.seq && slot < r.slot && r.dests.contains d))).getD false = false := by
    cases l.pdest <;> simp [hr]
  unfold Pipe.push
  dsimp only
  rw [habove, dropDest_none hr, hf]
  simp only [List.any_cons, List.any_nil, ho, hnot, decide_false, Bool.and_false, Bool.or_false, Bool.false_eq_true, if_false,
    if_true, List.filter_cons, List.filter_nil, Bool.not_true, List.nil_append]
  cases l <;> rfl

end Push

/-- The core after an issue cycle in which nothing is sent (R10, R18). -/
def cycled (k : Core) : Core := { k.land with pipe := k.land.pipe.age }

/-- A result sent now, seen j issue cycles on: it is still in flight, and nothing else has changed. -/
theorem repeat_cycled_push {c : Core} (hf : c.pipe.flights = []) (hr : c.pipe.reqs = []) (l : Landing) {lat : Nat} (j : Nat) (h : j < lat) :
    ∃ p : Pipe, Nat.repeat cycled j { c.push l lat with pipe := (c.push l lat).pipe.age } = { c with pipe := p } ∧
      p.flights = [⟨l, lat - 1 - j, c.pipe.seq, c.ctl.slot⟩] ∧ c.pipe.seq < p.seq := by
  induction j with
  | zero =>
    refine ⟨_, rfl, ?_, ?_⟩
    · simp [push_flights hf hr, Pipe.age]
    · simp [push_flights hf hr, Pipe.age]
  | succ j ih =>
    obtain ⟨p, hp, hfl, hseq⟩ := ih (Nat.lt_of_succ_lt h)
    have hland : Core.land { c with pipe := p } = { c with pipe := p } := by
      rw [land_single (c := { c with pipe := p }) hfl, if_neg (show lat - 1 - j ≠ 0 by omega)]
    refine ⟨p.age, ?_, ?_, ?_⟩
    · rw [Nat.repeat, hp, cycled, hland]
    · simp only [Pipe.age, hfl, List.map_cons, List.map_nil, beq_false_of_ne hseq.ne, Bool.false_eq_true, if_false]
      rw [show lat - 1 - j - 1 = lat - 1 - (j + 1) by omega]
    · exact Nat.lt_succ_of_lt hseq

/-- A result of latency lat is there for the bundle lat issue cycles on, and for none before. -/
theorem push_lands {c : Core} (hf : c.pipe.flights = []) (hr : c.pipe.reqs = []) (l : Landing) {lat : Nat} (j : Nat) :
    let k := (Nat.repeat cycled j { c.push l lat with pipe := (c.push l lat).pipe.age }).land
    (j + 1 < lat → k.r = c.r ∧ k.sys = c.sys) ∧ (j + 1 = lat → k.r = (l.apply c).r ∧ k.sys = (l.apply c).sys) := by
  refine ⟨fun h => ?_, fun h => ?_⟩
  · obtain ⟨p, hp, hfl, -⟩ := repeat_cycled_push hf hr l (lat := lat) j (by omega)
    rw [hp, land_single (c := { c with pipe := p }) hfl, if_neg (show lat - 1 - j ≠ 0 by omega)]
    exact ⟨rfl, rfl⟩
  · obtain ⟨p, hp, hfl, -⟩ := repeat_cycled_push hf hr l (lat := lat) j (by omega)
    rw [hp, land_single (c := { c with pipe := p }) hfl, if_pos (show lat - 1 - j = 0 by omega)]
    exact apply_congr l rfl rfl

theorem same_comm (l m : Landing) : l.same m = m.same l := by
  cases l <;> cases m <;> simp only [Landing.same, Bool.beq_comm]

/-- Of two writes of one bundle to one destination the higher-ranked slot's stays, whichever was made first, and WCONF is on its way. -/
theorem push_push_same {p : Pipe} (hf : p.flights = []) (hr : p.reqs = []) {l m : Landing} {a b : Nat} (la lb : Nat) (hab : a < b)
    (h : l.same m = true) :
    ((p.push a l la).push b m lb).flights = [⟨m, lb - 1, p.seq, b⟩, ⟨.wconf, 0, p.seq, b⟩] ∧
    ((p.push b m lb).push a l la).flights = [⟨m, lb - 1, p.seq, b⟩, ⟨.wconf, 0, p.seq, a⟩] := by
  have hm : m.same l = true := (same_comm m l).trans h
  rw [push_flights hf hr, push_flights hf hr]
  have hup := push_above_same (p := { p with flights := [⟨l, la - 1, p.seq, a⟩] }) rfl hr rfl hab h lb
  have hdown := push_below_same (p := { p with flights := [⟨m, lb - 1, p.seq, b⟩] }) rfl rfl hab hm la
  exact ⟨congrArg Pipe.flights hup, congrArg Pipe.flights hdown⟩

/-- Two results that land in one cycle are applied in the order they stand in. -/
theorem land_pair {c : Core} {f g : Flight} (h : c.pipe.flights = [f, g]) (hf : f.count = 0) (hg : g.count = 0)
    (hfw : f.land.isWconf = false) (hgw : g.land.isWconf = false) :
    c.land = g.land.apply (f.land.apply { c with pipe := { c.pipe with flights := [] } }) := by
  simp [Core.land, h, hf, hg, hfw, hgw, applyAll]

/-- Settles O56: the rules of each kind of register, and the course of a single result in flight. -/
theorem landedResults : Obligations.LandedResults := by
  unfold Obligations.LandedResults
  refine ⟨fun c => ⟨rfl, rfl, rfl, rfl⟩, fun c w b m => ⟨rfl, rfl, rfl⟩, fun c d w b h => ?_, fun c d b h => ?_, fun c d m h => ?_,
    fun c d w t b => ?_, fun c d v => ?_, fun c l lat j hf hr _ => push_lands hf hr l j, fun p l m la lb a b hf hr => push_push_same hf hr la lb,
    fun c f g h hf hg hfw hgw => ?_, fun c => ⟨rfl, rfl⟩⟩
  · refine ⟨?_, ?_, fun e he => ?_, apply_x_others c w b⟩
    · rw [Core.x, xr_apply_x c h, if_pos rfl]
    · rw [Core.xp, xr_apply_x c h, if_pos rfl]
    · rw [xr_apply_x c h, if_neg he]
  · exact ⟨by rw [p_apply_p c h, if_pos rfl], fun e he => by rw [p_apply_p c h, if_neg he], apply_p_others c b⟩
  · exact ⟨by rw [k_apply_k c h, if_pos rfl], fun e he => by rw [k_apply_k c h, if_neg he], apply_k_others c m⟩
  · exact ⟨by rw [v_apply_v, if_pos rfl], fun e he => by rw [v_apply_v, if_neg he], rfl⟩
  · exact ⟨by rw [h_apply_h, if_pos rfl], fun e he => by rw [h_apply_h, if_neg he], rfl⟩
  · rw [land_pair h hf hg hfw hgw, apply_pipe, apply_pipe]
    obtain ⟨hr, hs⟩ := apply_congr f.land (c := c) (k := { c with pipe := { c.pipe with flights := [] } }) rfl rfl
    exact ⟨(apply_congr g.land hr hs).1, rfl⟩

end Sys2Proof.Proofs

namespace Sys2Proof.Proofs

open Sys2Proof Sys2Proof.Machine Sys2Proof.Laws

/-! ## Memory as a list of cells: what is read at an address (R6, R39) -/

/-- Where no cell stands under an address, it reads zero. -/
theorem get_of_not_listed {m : Memory} {a : Nat} (h : ∀ c ∈ m, c.1 ≠ a) : m.get a = 0 := by
  induction m with
  | nil => rfl
  | cons c m ih =>
    rw [Memory.get, if_neg (h c List.mem_cons_self), ih fun d hd => h d (List.mem_cons_of_mem _ hd)]

/-- Of two lists one after the other, the first is passed over where it lists nothing under the address. -/
theorem get_append_of_not_listed {m : Memory} (n : Memory) {a : Nat} (h : ∀ c ∈ m, c.1 ≠ a) : Memory.get (m ++ n) a = n.get a := by
  induction m with
  | nil => rfl
  | cons c m ih =>
    rw [List.cons_append, Memory.get, if_neg (h c List.mem_cons_self), ih fun d hd => h d (List.mem_cons_of_mem _ hd)]

/-- And the second where it lists nothing. -/
theorem get_append_left {n : Memory} (m : Memory) {a : Nat} (h : ∀ c ∈ n, c.1 ≠ a) : Memory.get (m ++ n) a = m.get a := by
  induction m with
  | nil => exact get_of_not_listed h
  | cons c m ih => rw [List.cons_append, Memory.get, Memory.get, ih]

theorem get_filter (m : Memory) (p : Nat → Bool) (a : Nat) : Memory.get (m.filter (fun c => p c.1)) a = if p a then m.get a else 0 := by
  induction m with
  | nil => simp [Memory.get, Memory.unlisted]
  | cons c m ih =>
    rw [List.filter_cons]
    by_cases hc : c.1 = a
    · subst hc
      split
      · next hp => rw [Memory.get, Memory.get, if_pos rfl, if_pos rfl]
      · next hp => rw [ih, if_neg hp]
    · rw [Memory.get, if_neg hc]
      split
      · rw [Memory.get, if_neg hc, ih]
      · exact ih

/-- A run of bytes as cells: each byte under its address, nothing elsewhere. -/
theorem get_cells (bs : List Byte) : ∀ a b, Memory.get (Memory.cells a bs) b = if a ≤ b then bs.getD (b - a) 0 else 0 := by
  induction bs with
  | nil => intro a b; simp [Memory.cells, Memory.get, Memory.unlisted]
  | cons x bs ih =>
    intro a b
    have htail : Memory.get (Memory.cells (a + 1) bs) b = if a + 1 ≤ b then bs.getD (b - (a + 1)) 0 else 0 := ih _ _
    obtain hlt | rfl | hgt := lt_trichotomy a b
    · have hk : b - a = b - (a + 1) + 1 := by omega
      rw [if_pos (by omega)] at htail
      rw [if_pos (by omega), hk, List.getD_cons_succ, ← htail, Memory.cells]
      split
      · rfl
      · rw [Memory.get, if_neg (show a ≠ b by omega)]
    · rw [if_pos (Nat.le_refl a), Nat.sub_self, List.getD_cons_zero, Memory.cells]
      split
      · next hx => rw [htail, if_neg (by omega)]; exact hx.symm
      · rw [Memory.get, if_pos rfl]
    · rw [if_neg (by omega)] at htail
      rw [if_neg (by omega), Memory.cells]
      split
      · exact htail
      · rw [Memory.get, if_neg (show a ≠ b by omega), htail]

/-- What is read after a write: the new bytes in its run, the old ones elsewhere. -/
theorem get_write (m : Memory) (a : Nat) (bs : List Byte) (b : Nat) :
    (m.write a bs).get b = if a ≤ b ∧ b < a + bs.length then bs.getD (b - a) 0 else m.get b := by
  have hlow : a ≤ b → ∀ c ∈ m.filter (fun c => decide (c.1 < a)), c.1 ≠ b := by
    intro h c hc
    have := (List.mem_filter.mp hc).2
    simp only [decide_eq_true_eq] at this; omega
  have hmid : ¬ (a ≤ b ∧ b < a + bs.length) → ∀ c ∈ Memory.cells a bs, c.1 ≠ b := by
    intro h c hc
    obtain ⟨hge, hlt, -⟩ := Memory.mem_cells bs a hc
    omega
  have hhigh : b < a + bs.length → ∀ c ∈ m.filter (fun c => decide (a + bs.length ≤ c.1)), c.1 ≠ b := by
    intro h c hc
    have := (List.mem_filter.mp hc).2
    simp only [decide_eq_true_eq] at this; omega
  unfold Memory.write
  split
  · next h =>
    rw [get_append_left _ (hhigh h.2), get_append_of_not_listed _ (hlow h.1), get_cells, if_pos h.1]
  · next h =>
    by_cases hb : b < a
    · rw [get_append_left _ (hhigh (by omega)), get_append_left _ (hmid h), get_filter m (fun k => decide (k < a)), if_pos (by simpa using hb)]
    · rw [List.append_assoc, get_append_of_not_listed _ (hlow (by omega)), get_append_of_not_listed _ (hmid h),
        get_filter m (fun k => decide (a + bs.length ≤ k)), if_pos (by simp; omega)]

theorem get_clear (m : Memory) (a n b : Nat) : (m.clear a n).get b = if a ≤ b ∧ b < a + n then 0 else m.get b := by
  refine (get_filter m (fun k => k < a || a + n ≤ k) b).trans ?_
  split
  · next h => rw [if_neg]; simp only [Bool.or_eq_true, decide_eq_true_eq] at h; omega
  · next h => rw [if_pos]; simp only [Bool.or_eq_true, decide_eq_true_eq] at h; omega

theorem natOfBytes_bytesOfNat (n : Nat) : ∀ v, natOfBytes (bytesOfNat v n) = v % 2 ^ (8 * n) := by
  induction n with
  | zero => intro v; simp [bytesOfNat, natOfBytes, Nat.mod_one]
  | succ n ih =>
    intro v
    have hp : 2 ^ (8 * (n + 1)) = 2 ^ 8 * 2 ^ (8 * n) := by rw [← Nat.pow_add]; congr 1; ring
    rw [bytesOfNat, natOfBytes, ih, hp, Nat.mod_mul, Nat.shiftRight_eq_div_pow, Nat.shiftLeft_eq, BitVec.toNat_ofNat]
    ring

/-- Reading runs along the list. -/
theorem fill_eq (n : Nat) : ∀ (a : Nat) (m : Memory), m.Pairwise (fun x y => x.1 < y.1) → (∀ c ∈ m, a ≤ c.1) →
    Memory.fill a n m = (List.range n).map (fun i => m.get (a + i)) := by
  induction n with
  | zero => intros; simp [Memory.fill]
  | succ n ih =>
    intro a m hm ha
    rw [List.range_succ_eq_map, List.map_cons, List.map_map]
    cases m with
    | nil =>
      rw [Memory.fill, ih (a + 1) [] hm (by simp)]
      rfl
    | cons c m =>
      obtain ⟨hc, hm'⟩ := List.pairwise_cons.mp hm
      rw [Memory.fill]
      split
      · next heq =>
        rw [ih (a + 1) m hm' (fun d hd => by have := hc d hd; omega)]
        refine congrArg₂ _ (by simp [Memory.get, heq]) (List.map_congr_left fun i _ => ?_)
        have : a + 1 + i = a + (i + 1) := by omega
        simp only [Function.comp, Memory.get, this, if_neg (show c.1 ≠ a + (i + 1) by omega)]
      · next hne =>
        have hlt : a < c.1 := lt_of_le_of_ne (ha c List.mem_cons_self) (Ne.symm hne)
        rw [ih (a + 1) (c :: m) hm (fun d hd => by
          obtain rfl | hd := List.mem_cons.mp hd
          · exact hlt
          · have := hc d hd; omega)]
        refine congrArg₂ _ ?_ (List.map_congr_left fun i _ => ?_)
        · refine (get_of_not_listed fun d hd => ?_).symm
          obtain rfl | hd := List.mem_cons.mp hd
          · exact Ne.symm hlt.ne
          · have := hc d hd; omega
        · have : a + 1 + i = a + (i + 1) := by omega
          simp only [Function.comp, this]

/-- A read that starts in the middle of the list. -/
theorem read_eq {m : Memory} (h : m.wf) (a n : Nat) : m.read a n = (List.range n).map (fun i => m.get (a + i)) := by
  have hdrop : ∀ l : Memory, l.Pairwise (fun x y => x.1 < y.1) →
      (∀ c ∈ l.dropWhile (fun c => decide (c.1 < a)), a ≤ c.1) ∧
      ∀ b, a ≤ b → Memory.get (l.dropWhile (fun c => decide (c.1 < a))) b = Memory.get l b := by
    intro l hl
    induction l with
    | nil => exact ⟨by simp, fun _ _ => rfl⟩
    | cons c l ih =>
      obtain ⟨hc, hl'⟩ := List.pairwise_cons.mp hl
      rw [List.dropWhile_cons]
      split
      · next hlt =>
        simp only [decide_eq_true_eq] at hlt
        refine ⟨(ih hl').1, fun b hb => ?_⟩
        rw [(ih hl').2 b hb, Memory.get, if_neg (by omega)]
      · next hge =>
        simp only [decide_eq_true_eq, not_lt] at hge
        refine ⟨fun d hd => ?_, fun _ _ => rfl⟩
        obtain rfl | hd := List.mem_cons.mp hd
        · exact hge
        · exact hge.trans (hc d hd).le
  obtain ⟨hge, hget⟩ := hdrop m h.1
  rw [Memory.read, fill_eq n a _ (h.1.sublist (List.dropWhile_sublist _)) hge]
  exact List.map_congr_left fun i _ => hget _ (Nat.le_add_right a i)

/-- The first cell of a canonical list is told by what is read: canonical lists that read alike are one. -/
theorem eq_of_get_eq : ∀ m n : Memory, m.wf → n.wf → (∀ a, m.get a = n.get a) → m = n
  | [], [], _, _, _ => rfl
  | [], c :: n, _, hn, h => by
    have := h c.1
    rw [Memory.get, Memory.get, if_pos rfl] at this
    exact absurd this.symm (hn.2 c List.mem_cons_self)
  | c :: m, [], hm, _, h => by
    have := h c.1
    rw [Memory.get, Memory.get, if_pos rfl] at this
    exact absurd this (hm.2 c List.mem_cons_self)
  | c :: m, d :: n, hm, hn, h => by
    obtain ⟨hc, hm'⟩ := List.pairwise_cons.mp hm.1
    obtain ⟨hd, hn'⟩ := List.pairwise_cons.mp hn.1
    have hcn : c.1 < d.1 → False := fun hlt => by
      have := h c.1
      rw [Memory.get, if_pos rfl, get_of_not_listed (m := d :: n) fun e he => by
        obtain rfl | he := List.mem_cons.mp he
        · omega
        · have := hd e he; omega] at this
      exact hm.2 c List.mem_cons_self this
    have hdm : d.1 < c.1 → False := fun hlt => by
      have := h d.1
      rw [Memory.get.eq_2 (c := d), if_pos rfl, get_of_not_listed (m := c :: m) fun e he => by
        obtain rfl | he := List.mem_cons.mp he
        · omega
        · have := hc e he; omega] at this
      exact hn.2 d List.mem_cons_self this.symm
    have hkey : c.1 = d.1 := le_antisymm (not_lt.mp hdm) (not_lt.mp hcn)
    have hval : c.2 = d.2 := by
      have := h c.1
      rwa [Memory.get, if_pos rfl, Memory.get, if_pos hkey.symm] at this
    have hrest : m = n := eq_of_get_eq m n ⟨hm', fun e he => hm.2 e (List.mem_cons_of_mem _ he)⟩
      ⟨hn', fun e he => hn.2 e (List.mem_cons_of_mem _ he)⟩ fun a => by
        have := h a
        rw [Memory.get, Memory.get, ← hkey] at this
        split at this
        · next hca =>
          rw [get_of_not_listed fun e he => by have := hc e he; omega, get_of_not_listed fun e he => by have := hd e he; omega]
        · exact this
    rw [Prod.ext hkey hval, hrest]

/-! ## Accumulating writes (R238, R239) -/

/-- The signed value of w bits. -/
theorem sNat_toNat_bits {w : Nat} (hw : 0 < w) (x : BitVec w) : sNat w x.toNat = x.toInt := by
  have hx := x.isLt
  have hp : 2 ^ w = 2 * 2 ^ (w - 1) := by rw [← Nat.pow_succ']; congr 1; omega
  rw [sNat, BitVec.toInt_eq_toNat_cond, Nat.mod_eq_of_lt hx]
  split <;> split <;> omega

/-- What an accumulating operation makes of the old value and the operand, as words of its width. -/
def accWord {w : Nat} (op : AccOp) (old x cmp : BitVec w) : BitVec w :=
  match op with
  | .add => old + x
  | .faddq => old + x
  | .min => if old.toInt ≤ x.toInt then old else x
  | .max => if x.toInt ≤ old.toInt then old else x
  | .minz => if old.toNat ≤ x.toNat then old else x
  | .maxz => if x.toNat ≤ old.toNat then old else x
  | .and => old &&& x
  | .or => old ||| x
  | .xor => old ^^^ x
  | .swap => x
  | .cas => if old = cmp then x else old

theorem accNew_eq {w : Nat} (hw : 0 < w) (op : AccOp) (old a cmp : Nat) :
    accNew op w old a cmp = (accWord op (BitVec.ofNat w old) (BitVec.ofNat w a) (BitVec.ofNat w cmp)).toNat := by
  have ho : (BitVec.ofNat w old).toNat = old % 2 ^ w := BitVec.toNat_ofNat ..
  have ha : (BitVec.ofNat w a).toNat = a % 2 ^ w := BitVec.toNat_ofNat ..
  have hso : sNat w (old % 2 ^ w) = (BitVec.ofNat w old).toInt := ho ▸ sNat_toNat_bits hw _
  have hsa : sNat w (a % 2 ^ w) = (BitVec.ofNat w a).toInt := ha ▸ sNat_toNat_bits hw _
  cases op with
  | add | faddq => simp [accNew, accWord]
  | min => simp only [accNew, accWord, hso, hsa]; split <;> simp
  | max => simp only [accNew, accWord, hso, hsa, ge_iff_le]; split <;> simp
  | minz =>
    simp only [accNew, accWord, ho, ha]
    split
    · next h => rw [ho, min_eq_left h]
    · next h => rw [ha, min_eq_right (not_le.mp h).le]
  | maxz =>
    simp only [accNew, accWord, ho, ha]
    split
    · next h => rw [ho, max_eq_left h]
    · next h => rw [ha, max_eq_right (not_le.mp h).le]
  | and | or | xor | swap => simp [accNew, accWord]
  | cas =>
    have : (old % 2 ^ w == cmp % 2 ^ w) = decide (BitVec.ofNat w old = BitVec.ofNat w cmp) := by
      rw [Bool.eq_iff_iff]; simp [← BitVec.toNat_inj]
    simp only [accNew, accWord, this]; split <;> simp_all

/-- A run read back where it was written. -/
theorem read_write_same {m : Memory} (h : m.wf) (a : Nat) (bs : List Byte) : (m.write a bs).read a bs.length = bs := by
  rw [read_eq (Memory.wf_write h a bs)]
  refine List.ext_getElem (by simp) fun i hi hb => ?_
  rw [List.length_map, List.length_range] at hi
  rw [List.getElem_map, List.getElem_range, get_write, if_pos (by omega), Nat.add_sub_cancel_left, List.getD_eq_getElem _ _ hi]

/-- What an accumulating write of n bytes leaves. -/
theorem accMem_word {m : Memory} (hm : m.wf) {w64 : Bool} {n : Nat} (hn : accBits w64 = 8 * n) (hpos : 0 < n) (pa : Nat) (op : AccOp)
    (a cmp : Word) : natOfBytes ((accMem m pa op w64 a cmp).read pa n) =
      (accWord op (BitVec.ofNat (8 * n) (natOfBytes (m.read pa n))) (a.setWidth (8 * n)) (cmp.setWidth (8 * n))).toNat ∧
    ∀ b, b < pa ∨ pa + n ≤ b → (accMem m pa op w64 a cmp).get b = m.get b := by
  have hw : 0 < 8 * n := by omega
  have hlen : ∀ v, (bytesOfNat v n).length = n := fun v => length_bytesOfNat n v
  have heq : accMem m pa op w64 a cmp = m.write pa (bytesOfNat (accNew op (8 * n) (m.readNat pa n) a.toNat cmp.toNat) n) := by
    simp only [accMem, hn, Nat.mul_div_cancel_left n (by decide : 0 < 8)]
  rw [heq]
  refine ⟨?_, fun b hb => ?_⟩
  · have hread := read_write_same hm pa (bytesOfNat (accNew op (8 * n) (m.readNat pa n) a.toNat cmp.toNat) n)
    rw [hlen] at hread
    rw [hread, natOfBytes_bytesOfNat, accNew_eq hw, BitVec.ofNat_toNat, BitVec.ofNat_toNat, Nat.mod_eq_of_lt (BitVec.isLt _)]
    rfl
  · rw [get_write, if_neg]
    rw [hlen]; omega

/-- Settles O57: reads through the cells a write leaves; canonical lists compared cell by cell. -/
theorem memoryLaws : Obligations.MemoryLaws := by
  unfold Obligations.MemoryLaws
  refine ⟨fun _ => rfl, fun m a bs _ => ⟨fun i hi => ?_, fun b hb => ?_⟩, fun m a n h => ⟨get_clear m a n, read_eq h a n⟩, eq_of_get_eq,
    fun w64 m pa op a cmp hm => ?_⟩
  · rw [get_write, if_pos (by omega), Nat.add_sub_cancel_left]
  · rw [get_write, if_neg (by omega)]
  · cases w64 with
    | true => cases op <;> exact accMem_word hm (w64 := true) (n := 8) rfl (by decide) pa _ a cmp
    | false => cases op <;> exact accMem_word hm (w64 := false) (n := 4) rfl (by decide) pa _ a cmp

end Sys2Proof.Proofs

namespace Sys2Proof.Proofs

open Sys2Proof Sys2Proof.Machine Sys2Proof.Laws

/-! ## The state after a cold reset -/

theorem coreOf_reset (n : Nat) : State.reset.coreOf n = Core.reset n := by
  unfold State.coreOf
  split
  · next h => subst h; rfl
  · rfl

theorem xr_launch (n : Nat) (d : RegNo) : (Core.reset n).xr d = ⟨if d = 2 then 0x180000 else 0, false⟩ := by
  have hget : Regs.launch.x.get d.toFin = if d = 2 then ⟨0x180000, false⟩ else XReg.zero := by
    refine (get_set_toFin (w := 6) (Vector.replicate 64 XReg.zero) 2 d ⟨0x180000, false⟩).trans ?_
    rw [Vector.get_eq_getElem, Vector.getElem_replicate]
  unfold Core.xr
  split
  · next h => subst h; rfl
  · refine hget.trans ?_
    split <;> rfl

theorem v_launch (n : Nat) (d : RegNo) : (Core.reset n).v d = VReg.zero :=
  (Vector.get_eq_getElem ..).trans (Vector.getElem_replicate _)

theorem flag_reset (n f : Nat) : (Core.reset n).flag f = 0 := by
  unfold Core.flag
  split
  · rw [Vector.get_eq_getElem]; exact congrArg BitVec.toNat (Vector.getElem_replicate _)
  · rfl

theorem queue_reset (n q : Nat) : (Core.reset n).queue q = Queue.empty := by
  unfold Core.queue
  split
  · exact (Vector.get_eq_getElem ..).trans (Vector.getElem_replicate _)
  · rfl

theorem die_reset {d : Nat} (h : d < 8) : State.reset.die d = DiePower.reset := by
  have : (List.replicate 8 DiePower.reset)[d]? = some DiePower.reset := by rw [List.getElem?_replicate, if_pos h]
  exact congrArg (fun o => Option.getD o DiePower.reset) this

theorem fn_reset {n : Nat} {f : Fn} (h : f ∈ State.reset.fn n) : ∃ k, f = Fn.reset k := by
  have hmem : f ∈ (List.range 65).map Fn.reset := List.mem_of_find?_eq_some h
  obtain ⟨k, -, rfl⟩ := List.mem_map.mp hmem
  exact ⟨k, rfl⟩

/-- Settles O58: each piece of the reset state read off. -/
theorem resetState : Obligations.ResetState := by
  unfold Obligations.ResetState
  refine ⟨Memory.wf_reset, rfl, rfl, rfl, rfl, rfl, rfl, fun n => ?_, fun n => ?_, fun n d => ?_, fun n f => ?_, fun n q => ?_,
    fun k => ⟨rfl, rfl, rfl, rfl⟩, by decide, fun d hd => ?_, fun fn f hf => ?_⟩
  · rw [State.runs, coreOf_reset]
    exact ⟨rfl, rfl, rfl⟩
  · rw [coreOf_reset]
    exact ⟨rfl, rfl, rfl, rfl, rfl, rfl, rfl, rfl, rfl, rfl, rfl⟩
  · rw [coreOf_reset]
    exact ⟨congrArg XReg.val (xr_launch n d), congrArg XReg.poison (xr_launch n d), congrArg VReg.bits (v_launch n d),
      congrArg VReg.tag (v_launch n d)⟩
  · rw [coreOf_reset, flag_reset]
  · rw [coreOf_reset, queue_reset]
    exact ⟨rfl, rfl⟩
  · rw [die_reset hd]
    exact ⟨rfl, rfl⟩
  · obtain ⟨k, rfl⟩ := fn_reset hf
    exact ⟨rfl, rfl, rfl, rfl, rfl⟩
/-! ## Words of the encoding tables and of the worked bundle -/

/-- An S opcode that no table lists (R79). -/
theorem decodeS_reserved {s1 : Bool} {w : BitVec 36} (h8 : 0x08 ≤ (field w 30 6).toNat) (hF : (field w 30 6).toNat ≤ 0x0F) :
    decodeS s1 w = .bad .illegalOp := by
  have hne : w ≠ 0 := by rintro rfl; simp [field] at h8
  have hmem : (field w 30 6).toNat ∈ (List.range 16).drop 8 := by
    have : (List.range 16).drop 8 = [8, 9, 10, 11, 12, 13, 14, 15] := rfl
    rw [this]; simp only [List.mem_cons, List.not_mem_nil, or_false]; omega
  unfold decodeS
  rw [if_neg hne]
  dsimp only
  generalize (field w 30 6).toNat = op at hmem
  fin_cases hmem <;> rfl

/-- What makes a bundle illegal: its header, two branches, or TICK beside SIGRST. -/
theorem illegal_iff (b : Bundle) : b.illegal = true ↔ b.hdrOk = false ∨ (b.br0 = true ∧ b.br1 = true) ∨ (b.tickC = true ∧ b.sigrstX = true) := by
  simp [Bundle.illegal, or_assoc]

theorem brCode0_of_op {w : BitVec 36} (h : field w 30 6 ∈ [0x32#6, 0x33, 0x34]) : brCode0 w = true := by
  unfold brCode0
  generalize field w 30 6 = op at h
  revert h; revert op; decide

theorem brCode1_of_op {w : BitVec 36} (h : field w 30 6 ∈ [0x38#6, 0x39, 0x3A, 0x3B, 0x3C, 0x3D, 0x3E]) : brCode1 w = true := by
  have key : ∀ op : BitVec 6, op ∈ [0x38#6, 0x39, 0x3A, 0x3B, 0x3C, 0x3D, 0x3E] →
      (decide (0x38 ≤ op.toNat) && decide (op.toNat ≤ 0x3E)) = true := by decide
  unfold brCode1
  dsimp only
  rw [key _ h, Bool.true_or]

theorem brCode1_of_end {w : BitVec 36} (h : field w 30 6 = 0x3F#6) (hfn : (field w 0 8).toNat ≤ 4) : brCode1 w = true := by
  unfold brCode1
  rw [h, decide_eq_true hfn]
  rfl

/-- A word standing in one S slot and no other is told by either slot. -/
theorem eq_zero_of_inS0_eq_inS1 {w v : BitVec 36} (h : inS1 v = inS0 w) : w = 0 := by
  have := congrArg (fun b => field b 28 36) h
  simp only [inS0, inS1] at this
  rw [field_shift_eq w 28 (by decide), field_shift v 64 28 36 (by decide)] at this
  exact this.symm

theorem inS0_injective {w v : BitVec 36} (h : inS0 v = inS0 w) : v = w := by
  have := congrArg (fun b => field b 28 36) h
  simpa only [inS0, field_shift_eq _ 28 (show 28 + 36 ≤ 256 by decide)] using this

/-- No instruction of both S slots is of the branch class. -/
theorem branchClass_shared {s1 : Bool} {w : BitVec 36} {i : Instr} (hlt : (field w 30 6).toNat < 0x30) (h : decodeS s1 w = .ok i) :
    i.branchClass = false := by
  have henc := encode_of_decodeS_shared hlt h
  have hne : w ≠ 0 := by rintro rfl; cases h
  have hs1 {v : BitVec 36} (e : some (inS1 v) = some (inS0 w)) : False := hne (eq_zero_of_inS0_eq_inS1 (Option.some.inj e))
  have hs0 {op : BitVec 6} {qp : PredNo} {d : RegNo} {imm : BitVec 20} (hop : 0x30 ≤ op.toNat)
      (e : some (inS0 (wSL op qp d imm)) = some (inS0 w)) : False := by
    rw [← inS0_injective (Option.some.inj e), wSL_op] at hlt
    omega
  cases i with
  | trap o | rft o | halt o => exact (hs0 (by decide) henc).elim
  | br o | brx o | call o | ret o | chk o | chkv o | fork o | sync o | retf o | tend o | yield o | waitc o => exact (hs1 henc).elim
  | _ => rfl

/-- A branch-class instruction of slot S0 is one by its operation's code. -/
theorem brCode0_of_branchClass {w : BitVec 36} {i : Instr} (h : decodeS false w = .ok i) (hb : i.branchClass = true) :
    brCode0 w = true := by
  by_cases hlt : (field w 30 6).toNat < 0x30
  · rw [branchClass_shared hlt h] at hb; cases hb
  · unfold decodeS at h
    split at h
    · cases h
    · dsimp only at h
      split at h
      · cases h
      · rw [if_pos (by omega)] at h
        replace h : decS0Only _ _ _ _ _ w = .ok i := h
        unfold decS0Only at h
        split at h
        next => obtain ⟨-, rfl⟩ := need_ok.mp h; cases hb
        next => obtain ⟨-, rfl⟩ := need_ok.mp h; cases hb
        next e => exact brCode0_of_op (by rw [eq_ofNat_of_toNat e]; decide)
        next e => exact brCode0_of_op (by rw [eq_ofNat_of_toNat e]; decide)
        next e => exact brCode0_of_op (by rw [eq_ofNat_of_toNat e]; decide)
        next => cases h

/-- A branch-class instruction of slot S1 is one by its operation's codes. -/
theorem brCode1_of_branchClass {w : BitVec 36} {i : Instr} (h : decodeS true w = .ok i) (hb : i.branchClass = true) :
    brCode1 w = true := by
  by_cases hlt : (field w 30 6).toNat < 0x30
  · rw [branchClass_shared hlt h] at hb; cases hb
  · unfold decodeS at h
    split at h
    · cases h
    · dsimp only at h
      split at h
      · replace h : decS1Only _ _ _ _ _ _ _ w = .ok i := h
        unfold decS1Only at h
        split at h
        case h_8 e =>
          refine brCode1_of_end (eq_ofNat_of_toNat e) ?_
          unfold decEnd at h
          split at h
          case h_6 => cases h
          all_goals omega
        case h_9 => cases h
        all_goals next e => exact brCode1_of_op (by rw [eq_ofNat_of_toNat e]; decide)
      · rw [if_pos (by omega)] at h
        split at h
        · cases h
        · replace h : decS0Only _ _ _ _ _ w = .ok i := h
          next hnot =>
          unfold decS0Only at h
          split at h
          case h_6 => cases h
          all_goals next e => exact absurd (by rw [e]; rfl) hnot

theorem field_S0 (w : BundleBits) (lo n : Nat) (h : lo + n ≤ 36) : field (field w 28 36) lo n = field w (28 + lo) n :=
  field_field w 28 lo n h

theorem field_S1 (w : BundleBits) (lo n : Nat) (h : lo + n ≤ 36) : field (field w 64 36) lo n = field w (64 + lo) n :=
  field_field w 64 lo n h

/-- An opcode of the S0-only table in slot S1. -/
theorem decodeS_S0Only_in_S1 {w : BitVec 36} (h : field w 30 6 ∈ [0x30#6, 0x31, 0x32, 0x33, 0x34]) :
    decodeS true w = .bad .illegalSlot := by
  simp only [List.mem_cons, List.not_mem_nil, or_false] at h
  obtain h | h | h | h | h := h <;> (rw [decodeS, if_neg (nonzero 30 6 h (by decide)), h]; rfl)

/-- An opcode of the S1-only table in slot S0. -/
theorem decodeS_S1Only_in_S0 {w : BitVec 36} (h : field w 30 6 ∈ [0x38#6, 0x39, 0x3A, 0x3B, 0x3C, 0x3D, 0x3E, 0x3F]) :
    decodeS false w = .bad .illegalSlot := by
  simp only [List.mem_cons, List.not_mem_nil, or_false] at h
  obtain h | h | h | h | h | h | h | h := h <;> (rw [decodeS, if_neg (nonzero 30 6 h (by decide)), h]; rfl)

theorem decodeV_rfmode_in_V1 {w : BitVec 40} (h : field w 34 6 = 0x3E#6) : decodeV true w = .bad .illegalSlot := by
  rw [decodeV, if_neg (nonzero 34 6 h (by decide)), h]; rfl

/-- Settles O54: the words decode by evaluation; what a table refuses, by its header, its operation or one field. -/
theorem decodedWords : Obligations.DecodedWords := by
  unfold Obligations.DecodedWords
  refine ⟨fun b hb => ?_, by decide, fun w h => ?_, fun w h g => ?_, fun w i j hi hj hbi hbj => ?_, fun w h g => ?_,
    fun w => decodeS_S0Only_in_S1, fun w => decodeS_S1Only_in_S0, fun w => decodeV_rfmode_in_V1, fun s1 w => decodeS_reserved,
    fun qp d a b s1 hb => ?_⟩
  · subst hb; decide
  · exact (illegal_iff _).mpr (.inl (beq_false_of_ne h))
  · refine (illegal_iff _).mpr (.inr (.inl ⟨brCode0_of_op ?_, ?_⟩))
    · rwa [field_S0 w 30 6 (by decide)]
    · obtain g | ⟨g, hfn⟩ := g
      · exact brCode1_of_op (by rwa [field_S1 w 30 6 (by decide)])
      · exact brCode1_of_end (by rwa [field_S1 w 30 6 (by decide)]) (by rwa [field_S1 w 0 8 (by decide)])
  · exact (illegal_iff _).mpr (.inr (.inl ⟨brCode0_of_branchClass hi hbi, brCode1_of_branchClass hj hbj⟩))
  · refine (illegal_iff _).mpr (.inr (.inr ⟨?_, ?_⟩))
    · exact congrArg (fun f : BitVec 5 => f.toNat == 1) h
    · exact congrArg (fun f : BitVec 6 => f.toNat == 0x1E) g
  · exact (decodeS_unary s1 qp d a b 0).trans (by rw [beq_false_of_ne hb]; rfl)

end Sys2Proof.Proofs

namespace Sys2Proof.Proofs

open Sys2Proof Sys2Proof.Machine Sys2Proof.Laws

/-! ## Scalar floating point (R107, R108, R109) -/

section ScalarFloats

variable {s : State}

theorem fp2_sends {o : SFp} {lat : Nat} (f : Nat → FV → FV → FV) (h : Effective o.qp [.x o.a, .x o.b, .x o.d] s) :
    fp2 o lat f s = .next (s.sendsX o.d
      (fpWord o.f64 o.rnd.toNat (f o.rnd.toNat (s.core.fx o.f64 o.a) (s.core.fx o.f64 o.b))) (s.core.xp o.a || s.core.xp o.b) lat) :=
  begin_effective h

theorem execFfma_sends {o : SFp} (h : Effective o.qp [.x o.a, .x o.b, .x o.d] s) :
    execFfma o s = .next (s.sendsX o.d
      (fpWord o.f64 o.rnd.toNat (FV.fma o.rnd.toNat (s.core.fx o.f64 o.a) (s.core.fx o.f64 o.b) (s.core.fx o.f64 o.d)))
      (s.core.xp o.a || s.core.xp o.b || s.core.xp o.d) 4) := begin_effective h

theorem execFsqrt_sends {o : SFp1} (h : Effective o.qp [.x o.a, .x o.d] s) :
    execFsqrt o s = .next (s.sendsX o.d (fpWord o.f64 o.rnd.toNat (FV.sqrt (s.core.fx o.f64 o.a))) (s.core.xp o.a) 14) :=
  begin_effective h

/-- FCVT sends its source's value in the destination's type, a 128-bit integer to a pair of registers. -/
theorem execFcvt_sends {o : SCvt}
    (h : Effective o.qp ((if o.src = 3 then [.x (o.a + 1)] else []) ++ (if o.dst = 3 then [.x (o.d + 1)] else []) ++ [.x o.a, .x o.d]) s) :
    execFcvt o s =
      (let p := s.core.xp o.a || (o.src = 3 && s.core.xp (o.a + 1))
       let v := s.core.cvtSource o
       let m := o.rnd.toNat
       match o.dst.toNat with
       | 0 => .next (s.sendsX o.d (fpWord false m v) p 4)
       | 1 => .next (s.sendsX o.d (fpWord true m v) p 4)
       | 2 => .next (s.sendsX o.d (wrapInt 64 (v.toInt m 0 (loInt 64 (!o.uns)) (hiInt 64 (!o.uns)))) p 4)
       | _ =>
         let w : BitVec 128 := wrapInt 128 (v.toInt m 0 (loInt 128 (!o.uns)) (hiInt 128 (!o.uns)))
         .next ((s.sendsX o.d (field w 0 64) p 4).sendsX (o.d + 1) (field w 64 64) p 4)) := by
  unfold execFcvt oddOf
  exact begin_effective h

end ScalarFloats

/-- Settles O6: each operation sends its exact value, rounded once. -/
theorem scalarFloat : Obligations.ScalarFloat := by
  unfold Obligations.ScalarFloat
  refine ⟨fun o s h => ?_, fun o s h => execFsqrt_sends h, fun o s _ h => ?_⟩
  · exact ⟨fp2_sends FV.add h, fp2_sends (fun m a b => FV.add m a b.negate) h, fp2_sends (fun _ => FV.mul) h,
      fp2_sends (fun _ => FV.div) h, fp2_sends (fun _ => FV.min) h, fp2_sends (fun _ => FV.max) h, execFfma_sends h⟩
  · have low (w : BitVec 128) : field w 0 64 = w.setWidth 64 := BitVec.setWidth_ushiftRight_eq_extractLsb (w' := 0).symm
    have high (w : BitVec 128) : field w 64 64 = (w >>> 64).setWidth 64 := BitVec.setWidth_ushiftRight_eq_extractLsb.symm
    refine (execFcvt_sends h).trans ?_
    simp only [low, high]
    rfl

/-! ## System registers (R110, R111) -/

section SystemRegisters

variable {s : State}

theorem execMfs_sends {o : SMfs} (h : Effective o.qp [.x o.d] s) :
    execMfs o s = .next (s.sendsX o.d (s.core.sysRead o.sel) false 1) := begin_effective h

/-- MTS looks at the privilege, then at the poison, then at the register's map. -/
theorem execMts_effective {o : SMts} (h : Effective o.qp [.x o.a] s) :
    execMts o s =
      if mtsPrivileged o.sel && !s.core.sys.priv then fault privilege s
      else if s.core.xp o.a then fault poisonConsumed s
      else if !(mtsValueOk o.sel (s.core.x o.a)) then fault illegalOperand s
      else .next (s.sends (.sys o.sel (s.core.x o.a)) 1) := begin_effective h

/-- A register wider than its map reads back what its map admits. -/
theorem zextW_field {n : Nat} {v : Word} (h : v.toNat < 2 ^ n) : zextW (field v 0 n) = v := by
  apply BitVec.eq_of_toNat_eq
  rw [zextW, field, BitVec.toNat_setWidth, BitVec.extractLsb'_toNat, Nat.shiftRight_zero, Nat.mod_eq_of_lt h, Nat.mod_eq_of_lt v.isLt]

theorem toNat_lt_of_field_zero {w n : Nat} {v : BitVec w} (m : Nat) (hw : w = n + m) (h : (field v n m == 0) = true) : v.toNat < 2 ^ n := by
  by_contra hge
  rw [field_ne_zero v hw (Nat.le_of_not_lt hge)] at h
  exact Bool.false_ne_true h

theorem sysRead_margin (c : Core) {v : Word} (h : mtsValueOk 0x28 v = true) : ((Landing.sys 0x28 v).apply c).sysRead 0x28 = v := by
  have hv : v.toNat ≤ 0x7F800000 := of_decide_eq_true h
  exact zextW_field (by omega)

/-- The eight scales of DSCALE. -/
theorem sysRead_dscale (c : Core) {sel : BitVec 14} {v : Word} (hlo : 32 ≤ sel.toNat) (hhi : sel.toNat ≤ 39)
    (h : mtsValueOk sel v = true) : ((Landing.sys sel v).apply c).sysRead sel = v := by
  obtain ⟨k, hk⟩ : ∃ k : Fin 8, sel.toNat = 32 + k.val := ⟨⟨sel.toNat - 32, by omega⟩, by simp; omega⟩
  obtain rfl : sel = BitVec.ofNat 14 (32 + k) := eq_ofNat_of_toNat hk
  have hv : v.toNat < 2 ^ 8 := by
    fin_cases k <;> exact toNat_lt_of_field_zero 56 rfl h
  have e := zextW_field hv
  fin_cases k <;> exact (congrArg zextW (Vector.getElem_set_self _)).trans e

end SystemRegisters

/-- Settles O7: what MFS reads and MTS lands, and the order in which MTS refuses. -/
theorem systemRegisters : Obligations.SystemRegisters := by
  unfold Obligations.SystemRegisters
  refine ⟨fun o s h => execMfs_sends h, fun o s h => ?_, fun c v _ => rfl, fun c v _ => rfl, fun c v h => sysRead_margin c h,
    fun c sel v hlo hhi h => sysRead_dscale c hlo hhi h⟩
  have e : exec (.mts o) s = _ := execMts_effective h
  have hp : (mtsPrivileged o.sel && !s.core.sys.priv) = true ↔ ¬(mtsPrivileged o.sel = false ∨ s.core.sys.priv = true) := by
    cases mtsPrivileged o.sel <;> cases s.core.sys.priv <;> decide
  refine ⟨fun ho hx hv => ?_, fun ho hx => ?_, fun ho hx hv => ?_, fun ho => ?_⟩
  · rw [e, if_neg (fun hc => hp.mp hc ho), hx, hv]; rfl
  · rw [e, if_neg (fun hc => hp.mp hc ho), hx]; rfl
  · rw [e, if_neg (fun hc => hp.mp hc ho), hx, hv]; rfl
  · rw [e, if_pos (hp.mpr ho)]

/-! ## Transfers (R113, R114, R115) -/

section Transfers

variable {s : State}

theorem execBr_transfers {o : SBr} (h : Effective o.qp [] s) :
    execBr o s = .next (s.mapCore (·.transfer (addr56 (s.core.ctl.pc + o.disp.signExtend 64 * 32)))) := begin_effective h

theorem execCall_transfers {o : SBr} (h : Effective o.qp [.x 1] s) :
    execCall o s = .next ((s.sendsX 1 s.core.link false 1).mapCore (·.transfer (addr56 (s.core.ctl.pc + o.disp.signExtend 64 * 32)))) :=
  begin_effective h

theorem targetOk_iff {v : Word} : targetOk v = true ↔ v.toNat < 2 ^ 56 ∧ v.toNat % 32 = 0 := by
  simp only [targetOk, Bool.and_eq_true, beq_iff_eq, field, ← BitVec.toNat_inj, BitVec.extractLsb'_toNat, Nat.shiftRight_eq_div_pow,
    BitVec.ofNat_eq_ofNat, BitVec.toNat_ofNat]
  have := v.isLt
  omega

theorem jump_poisoned {d a : RegNo} (h : s.core.xp a = true) : jump d a s = fault poisonConsumed s := by
  rw [jump, if_pos h]

theorem jump_refused {d a : RegNo} (h : s.core.xp a = false) (hv : ¬((s.core.x a).toNat < 2 ^ 56 ∧ (s.core.x a).toNat % 32 = 0)) :
    jump d a s = fault illegalOperand s := by
  have : targetOk (s.core.x a) = false := Bool.eq_false_iff.mpr (mt targetOk_iff.mp hv)
  rw [jump, h, this]; rfl

theorem jump_taken {d a : RegNo} (h : s.core.xp a = false) (hlt : (s.core.x a).toNat < 2 ^ 56) (hal : (s.core.x a).toNat % 32 = 0) :
    jump d a s = .next (if d = 0 then s.mapCore (·.transfer (s.core.x a))
      else (s.sendsX d s.core.link false 1).mapCore (·.transfer (s.core.x a))) := by
  rw [jump, h, targetOk_iff.mpr ⟨hlt, hal⟩]
  by_cases hd : d = 0
  · rw [if_pos hd, hd]; rfl
  · simp only [if_neg hd]; rfl

theorem execBrx_effective {o : SU} (h : Effective o.qp [.x o.a, .x o.d] s) : execBrx o s = jump o.d o.a s := begin_effective h

theorem execRet_effective {o : SA} (h : Effective o.qp [.x o.a] s) : execRet o s = jump 0 o.a s := begin_effective h

/-- A check that is taken leaves its link where D is not x0. -/
theorem mapCore_checkTaken (o : SI) : s.mapCore (·.checkTaken o) =
    (if o.d = 0 then s else s.sendsX o.d s.core.link false 1).mapCore
      (·.transfer (addr56 (s.core.ctl.pc + o.imm.signExtend 64 * 32))) := by
  have e (c : Core) : c.checkTaken o = (if o.d = 0 then c else c.push (.x o.d c.link false) 1).transfer (c.bundleAt (imm14 o.imm)) := rfl
  by_cases hd : o.d = 0
  · simp only [e, if_pos hd]; rfl
  · simp only [e, if_neg hd]; rfl

theorem execChk_effective {o : SI} (h : Effective o.qp [.x o.a, .x o.d] s) :
    execChk o s = if s.core.xp o.a then .next ((s.sends (.unpoison o.a) 1).mapCore (·.checkTaken o)) else .next s := begin_effective h

theorem execChkv_effective {o : SI} (h : Effective o.qp [.v o.a, .x o.d] s) :
    execChkv o s = if (s.core.v o.a).poison then .next (s.mapCore (·.checkTaken o)) else .next s := begin_effective h

end Transfers

/-- Settles O8: where each transfer goes, and the link it leaves. -/
theorem transfers : Obligations.Transfers := by
  unfold Obligations.Transfers
  refine ⟨fun o s => ⟨fun h => execBr_transfers h, fun h => execCall_transfers h⟩, fun o s h => ?_, fun o s h => ?_,
    fun o s => ⟨fun h => ?_, fun h => ?_⟩⟩
  · exact ⟨fun hp hlt hal => (execBrx_effective h).trans (jump_taken hp hlt hal), fun hp => (execBrx_effective h).trans (jump_poisoned hp),
      fun hp hv => (execBrx_effective h).trans (jump_refused hp hv)⟩
  · exact ⟨fun hp hlt hal => (execRet_effective h).trans (jump_taken hp hlt hal), fun hp => (execRet_effective h).trans (jump_poisoned hp),
      fun hp hv => (execRet_effective h).trans (jump_refused hp hv)⟩
  · refine (execChk_effective h).trans ?_
    rw [mapCore_checkTaken]; rfl
  · refine (execChkv_effective h).trans ?_
    rw [mapCore_checkTaken]; rfl

/-! ## TRAP, RFT and HALT (R116, R117, R118) -/

section Delayed

variable {s : State}

theorem execTrap_effective {o : STrap} (h : Effective o.qp [] s) :
    execTrap o s = .next (s.mapCore (·.later (.trap o.n s.core.link))) := begin_effective h

theorem execHalt_effective {o : SQ} (h : Effective o.qp [] s) :
    execHalt o s = if !s.core.sys.priv then fault privilege s else .next (s.mapCore (·.later .halt)) := begin_effective h

theorem execRft_effective {o : SQ} (h : Effective o.qp [] s) :
    execRft o s = if !s.core.sys.priv then fault privilege s else if !s.core.sys.intrap then fault illegalOperand s
      else .next (s.mapCore (·.later .rft)) := begin_effective h

theorem afterDelay_trap {n : BitVec 20} {r : Word} (h : s.core.ctl.after = some (.trap n r)) :
    s.afterDelay = (s.mapCore (fun c => { c with ctl := { c.ctl with after := none } }), some { precise trapInsn slotS0 with detail := n }) := by
  rw [State.afterDelay, h]

theorem afterDelay_rft (h : s.core.ctl.after = some .rft) :
    s.afterDelay = ((s.mapCore (fun c => { c.land with ctl := { c.land.ctl with after := none } })).trapReturn, none) := by
  rw [State.afterDelay, h]

theorem afterDelay_halt (h : s.core.ctl.after = some .halt) :
    s.afterDelay = (s.mapCore (fun c =>
      { Core.landAll maxCount { c with ctl := { c.ctl with after := none } } with
        ctl := { (Core.landAll maxCount { c with ctl := { c.ctl with after := none } }).ctl with halted := true } }), none) := by
  rw [State.afterDelay, h]

end Delayed

theorem applyAll_ctl (ls : List Landing) : ∀ c : Core, (applyAll ls c).ctl = c.ctl := by
  induction ls with
  | nil => intro c; rfl
  | cons l ls ih => intro c; refine (ih _).trans ?_; cases l <;> rfl

theorem applyAll_pipe (ls : List Landing) : ∀ c : Core, (applyAll ls c).pipe = c.pipe := by
  induction ls with
  | nil => intro c; rfl
  | cons l ls ih => intro c; exact (ih _).trans (apply_pipe l c)

theorem land_ctl (c : Core) : c.land.ctl = c.ctl := applyAll_ctl _ _

/-- The results whose cycles are over leave the pipe. -/
theorem land_flights (c : Core) : c.land.pipe.flights = c.pipe.flights.filter (·.count != 0) := by
  rw [Core.land, applyAll_pipe]

theorem landAll_ctl (n : Nat) : ∀ c : Core, (Core.landAll n c).ctl = c.ctl := by
  induction n with
  | zero => exact land_ctl
  | succ n ih => intro c; exact (ih _).trans (land_ctl c)

/-- No result is left in flight after as many cycles as the longest latency left. -/
theorem landAll_flights (n : Nat) : ∀ c : Core, (∀ f ∈ c.pipe.flights, f.count ≤ n) → (Core.landAll n c).pipe.flights = [] := by
  induction n with
  | zero =>
    intro c h
    rw [Core.landAll, land_flights, List.filter_eq_nil_iff]
    intro f hf
    simp [Nat.le_zero.mp (h f hf)]
  | succ n ih =>
    intro c h
    refine ih _ fun f hf => ?_
    obtain ⟨g, hg, rfl⟩ := List.mem_map.mp hf
    have hg' := List.mem_filter.mp (land_flights c ▸ hg)
    have := h g hg'.1
    simp only
    omega

/-- Settles O9: what the three instructions leave to be done, and what is done behind the delay bundles. -/
theorem trapsAndHalt : Obligations.TrapsAndHalt := by
  unfold Obligations.TrapsAndHalt
  refine ⟨fun o s h => execTrap_effective h, fun o s h => ⟨fun hp => ?_, fun hp hi => ?_, fun hp hi => ?_, fun hp => ⟨?_, ?_⟩⟩,
    fun c p => rfl, fun s n r h => afterDelay_trap h, fun t f => rfl, fun s h => afterDelay_rft h, fun s h hf => ?_⟩
  · refine (execHalt_effective h).trans ?_; rw [hp]; rfl
  · refine (execRft_effective h).trans ?_; rw [hp, hi]; rfl
  · refine (execRft_effective h).trans ?_; rw [hp, hi]; rfl
  · refine (execHalt_effective h).trans ?_; rw [hp]; rfl
  · refine (execRft_effective h).trans ?_; rw [hp]; rfl
  · rw [afterDelay_halt h]
    generalize maxCount = n at hf ⊢
    exact ⟨_, rfl, rfl, congrArg Ctl.after (landAll_ctl n _), landAll_flights n _ hf, rfl, rfl⟩

/-! ## Trap entry and return (R343, R345) -/

section Traps

variable {c : Core}

/-- The delay bundles that stand in TRAP entry's STATUS.DLY: none in a sequence. -/
def entryDly (c : Core) : Nat := if c.seqr.run.isSome = true then 0 else c.ctl.dly

/-- The core with the place it stands at in its system registers. -/
def placed (c : Core) : Core := { c with
  sys := { c.sys with trapPc := addr48 c.ctl.pc, dly := BitVec.ofNat 2 (entryDly c),
                      trapTgt := if entryDly c == 0 then 0 else addr48 c.ctl.cont } }

/-- A core outside its handler whose vector is set. -/
def Enters (c : Core) : Prop := c.sys.intrap = false ∧ c.sys.trapVec ≠ 0

/-- What the handler finds where a core enters it. -/
theorem trapEntry_enters (h : Enters c) : c.trapEntry = { c with
    sys := { (placed c).sys with intrap := true, priv := true },
    pipe := { c.pipe with trapBuf := c.pipe.flights, flights := [], reqs := c.setAside },
    ctl := { c.ctl with pc := c.sys.trapVec, dly := 0, cont := 0, held := c.ctl.after, after := none,
                        heldBegun := c.ctl.begun.map (fun b => (addr48 c.ctl.pc, b, c.ctl.done_)), begun := none, done_ := [],
                        paired := false, handled := 0, lag := c.member, stream := c.ctl.stream.filter (!·.trap) } } :=
  if_neg (show ¬ (c.sys.intrap || c.sys.trapVec == 0) = true by simpa [h.1] using h.2)

/-- Where the core is in its handler, or has no vector, the unit ends. -/
theorem trapEntry_ends (h : c.sys.intrap = true ∨ c.sys.trapVec = 0) : c.trapEntry = (placed c).endNow false :=
  if_pos (show (c.sys.intrap || c.sys.trapVec == 0) = true by simpa using h)

theorem enters_or_ends (c : Core) : Enters c ∨ c.sys.intrap = true ∨ c.sys.trapVec = 0 := by
  unfold Enters
  cases c.sys.intrap <;> simp [em']

/-- Trap entry writes the place the core stands at. -/
theorem trapEntry_place (c : Core) : c.trapEntry.sys.trapPc = addr48 c.ctl.pc ∧ c.trapEntry.sys.dly = BitVec.ofNat 2 (entryDly c) ∧
    c.trapEntry.sys.trapTgt = if entryDly c = 0 then 0 else addr48 c.ctl.cont := by
  have tgt : (placed c).sys.trapTgt = if entryDly c = 0 then 0 else addr48 c.ctl.cont := by simp [placed]
  obtain h | h := enters_or_ends c
  · rw [trapEntry_enters h]; exact ⟨rfl, rfl, tgt⟩
  · rw [trapEntry_ends h]; exact ⟨rfl, rfl, tgt⟩

/-- Trap entry leaves all but the place, the pipe and the system registers. -/
theorem trapEntry_frame (c : Core) : c.trapEntry.r = c.r ∧ c.trapEntry.f = c.f ∧ c.trapEntry.acc = c.acc ∧ c.trapEntry.mem = c.mem ∧
    c.trapEntry.eng = c.eng ∧ c.trapEntry.rg = c.rg ∧ c.trapEntry.mx = c.mx ∧ c.trapEntry.seqr = c.seqr ∧ c.trapEntry.sig = c.sig ∧
    c.trapEntry.unit = c.unit := by
  obtain h | h := enters_or_ends c
  · rw [trapEntry_enters h]; exact ⟨rfl, rfl, rfl, rfl, rfl, rfl, rfl, rfl, rfl, rfl⟩
  · rw [trapEntry_ends h]; exact ⟨rfl, rfl, rfl, rfl, rfl, rfl, rfl, rfl, rfl, rfl⟩

/-- A request set aside keeps all but its place in the order. -/
theorem setAside_map {α : Type} (g : Request → α) (hg : ∀ r n, g { r with seq := n } = g r) (c : Core) :
    c.setAside.map g = c.pipe.reqs.map g := by
  rw [Core.setAside, List.map_map]
  refine List.map_congr_left fun r _ => ?_
  simp only [Function.comp]
  split
  · exact hg ..
  · rfl

/-- A bundle set aside goes on where TRAP_PC still names it. -/
theorem trapReturn_begun {pc : Word} {b : BundleBits} {done : List Nat} (lag : Nat) (h : c.ctl.heldBegun = some (pc, b, done))
    (e : pc = c.sys.trapPc) :
    (c.trapReturn lag).ctl.begun = some b ∧ (c.trapReturn lag).ctl.done_ = done := by
  simp [Core.trapReturn, h, e]

theorem trapReturn_not_begun (lag : Nat) (h : c.ctl.heldBegun = none) :
    (c.trapReturn lag).ctl.begun = none ∧ (c.trapReturn lag).ctl.done_ = [] := by
  simp [Core.trapReturn, h]

/-- An address within 48 bits is the address. -/
theorem addr48_of_lt {v : Word} (h : v.toNat < 2 ^ 48) : addr48 v = v := by
  have hs : v.toNat * 2 ^ 16 < 2 ^ 64 := by omega
  apply BitVec.eq_of_toNat_eq
  rw [addr48, zext, BitVec.toNat_ushiftRight, BitVec.toNat_shiftLeft, Nat.shiftLeft_eq, Nat.mod_eq_of_lt hs, Nat.shiftRight_eq_div_pow,
    Nat.mul_div_cancel _ (by decide)]

/-- A return that follows at once stands where the entry stood. -/
theorem trapReturn_trapEntry (h : Enters c) (hseq : c.seqr.run = none) (lag : Nat) :
    (c.trapEntry.trapReturn lag).ctl.pc = addr48 c.ctl.pc ∧ (c.trapEntry.trapReturn lag).ctl.dly = c.ctl.dly % 4 ∧
    (c.trapEntry.trapReturn lag).ctl.cont = (if c.ctl.dly = 0 then 0 else addr48 c.ctl.cont) ∧
    (c.trapEntry.trapReturn lag).ctl.after = c.ctl.after ∧ (c.trapEntry.trapReturn lag).pipe.flights = c.pipe.flights := by
  obtain ⟨hpc, hdly, htgt⟩ := trapEntry_place c
  have hd : entryDly c = c.ctl.dly := by rw [entryDly, hseq]; rfl
  rw [hd] at hdly htgt
  refine ⟨hpc, ?_, htgt, ?_, ?_⟩
  · exact (congrArg BitVec.toNat hdly).trans (BitVec.toNat_ofNat ..)
  · rw [trapEntry_enters h]; rfl
  · rw [trapEntry_enters h]; exact List.append_nil _

/-- The bundle that waited waits again. -/
theorem begun_trapReturn_trapEntry (h : Enters c) (hb : c.ctl.begun.isSome = true ∨ c.ctl.done_ = []) (lag : Nat) :
    (c.trapEntry.trapReturn lag).ctl.begun = c.ctl.begun ∧ (c.trapEntry.trapReturn lag).ctl.done_ = c.ctl.done_ := by
  have e : c.trapEntry.ctl.heldBegun = c.ctl.begun.map (fun b => (addr48 c.ctl.pc, b, c.ctl.done_)) := by rw [trapEntry_enters h]
  cases hc : c.ctl.begun with
  | none =>
    have hd : c.ctl.done_ = [] := by simpa [hc] using hb
    rw [hd]
    exact trapReturn_not_begun lag (by rw [e, hc]; rfl)
  | some b => exact trapReturn_begun lag (by rw [e, hc]; rfl) (trapEntry_place c).1.symm

end Traps

/-- Settles O10: the fields of the entry and of the return, and the return that undoes the entry. -/
theorem trapEntryAndReturn : Obligations.TrapEntryAndReturn := by
  unfold Obligations.TrapEntryAndReturn
  refine ⟨fun c => ⟨trapEntry_place c, trapEntry_frame c, fun hi hv => ?_, fun h => ?_⟩, fun c lag => ?_,
    fun c lag hi hv htb hdly hpc hcont hb hseq => ?_⟩
  · have h : Enters c := ⟨hi, hv⟩
    rw [trapEntry_enters h]
    exact ⟨rfl, rfl, rfl, rfl, rfl, rfl, setAside_map _ (fun _ _ => rfl) c, setAside_map _ (fun _ _ => rfl) c, rfl, rfl, rfl, rfl⟩
  · rw [trapEntry_ends h]; exact ⟨rfl, rfl, rfl, rfl, rfl⟩
  · exact ⟨rfl, rfl, rfl, rfl, rfl, rfl, rfl, rfl, rfl, fun pc b done h e => trapReturn_begun lag h e, rfl, rfl, rfl, rfl, rfl⟩
  · have h : Enters c := ⟨hi, hv⟩
    obtain ⟨kpc, kdly, kcont, kafter, kflights⟩ := trapReturn_trapEntry h hseq lag
    obtain ⟨kbegun, kdone⟩ := begun_trapReturn_trapEntry h hb lag
    refine ⟨kpc.trans (addr48_of_lt hpc), kdly.trans (Nat.mod_eq_of_lt hdly), fun hd => ?_, kafter, kbegun, kdone, kflights,
      (trapEntry_frame c).1, rfl⟩
    rw [kcont, if_neg hd, addr48_of_lt hcont]

end Sys2Proof.Proofs

namespace Sys2Proof.Proofs

open Sys2Proof Sys2Proof.Machine Sys2Proof.Laws

/-! ## Tasks (R263 to R270) -/

section Tasks

variable {s t : State} {u : UnitInfo}

theorem taskOnly_task {k : UnitInfo → Res} (hu : s.core.unit = some u) (hg : u.gang = false) : taskOnly s k = k u := by
  rw [taskOnly, hu]
  simp only [hg, Bool.false_eq_true, if_false]

theorem taskOnly_gang {k : UnitInfo → Res} (hu : s.core.unit = some u) (hg : u.gang = true) : taskOnly s k = fault illegalOp s := by
  rw [taskOnly, hu]
  simp only [hg, if_true]

/-- In a handler an effective region-closing instruction is illegal. -/
theorem beginClosing_inHandler {qp : PredNo} {regs : List PDest} {k : State → Res} (h : Effective qp regs s)
    (hi : s.core.sys.intrap = true) : beginClosing qp regs s k = fault illegalOp s := by
  rw [beginClosing, begin_effective h, notInHandler, if_pos hi]

/-- FORK in a task, its operands sound: the frame word is read once the gate has been released. -/
theorem execFork_task {o : SAB} {v : State} {c : Ctx} {w n : Nat} (hu : s.core.unit = some u) (hg : u.gang = false)
    (h : Effective o.qp [.x o.a, .x o.b] s) (ha : s.core.xp o.a = false) (hb : s.core.xp o.b = false)
    (hok : targetOk (s.core.x o.a) = true) (hc : s.Closes t) (hr : t.readFrameWord t.seenMem u.asid (s.core.x o.a).toNat = .ok w)
    (hw : frameWord w = some n) (hx : t.ctx u.asid = some c) (hf : t.fork u c (s.core.x o.a) (t.core.x o.b) n = some v) :
    execFork o s = .next v := by
  rw [execFork, taskOnly_task hu hg, beginClosing_effective h hc.outside]
  refine (if_neg (by simp [ha, hb])).trans ((if_neg (by simp [hok])).trans ?_)
  rw [closing_closes hc]
  simp only [hr, hw, hx, hf, Option.map_some, Option.getD_some]

theorem execSync_task {o : SQ} (hu : s.core.unit = some u) (hg : u.gang = false) (h : Effective o.qp [] s) (hc : s.Closes t) :
    execSync o s = if t.children u = 0 then .next t
      else .next ((t.modFrame u.asid u.frame (fun f => { f with waiting := true })).mapCore (·.later (.ending .sync))) := by
  rw [execSync, taskOnly_task hu hg, beginClosing_effective h hc.outside, closing_closes hc]
  simp only [beq_iff_eq]
  rfl

theorem execRetf_task {o : SQ} (hu : s.core.unit = some u) (hg : u.gang = false) (h : Effective o.qp [] s)
    (hi : s.core.sys.intrap = false) : execRetf o s =
      if s.children u != 0 then fault illegalOperand s else closing s fun s => .next (s.mapCore (·.later (.ending .retf))) := by
  rw [execRetf, taskOnly_task hu hg, beginClosing_effective h hi]
  rfl

theorem execTend_unit {o : SQ} (hu : s.core.unit = some u) (h : Effective o.qp [] s) : execTend o s =
    if !u.gang && s.children u != 0 then fault illegalOperand s
    else if s.core.sys.intrap then .next (s.mapCore (·.later (.ending .fault)))
    else closing s fun s => .next (s.mapCore (·.later (.ending .tend))) := by
  rw [execTend, hu]
  exact begin_effective h

/-- TEND of a gang, or of a task with no child left. -/
theorem execTend_ends {o : SQ} (hu : s.core.unit = some u) (h : Effective o.qp [] s) (hn : u.gang = true ∨ s.children u = 0) :
    execTend o s = if s.core.sys.intrap then .next (s.mapCore (·.later (.ending .fault)))
      else closing s fun s => .next (s.mapCore (·.later (.ending .tend))) := by
  rw [execTend_unit hu h, if_neg (by obtain hn | hn := hn <;> simp [hn])]

theorem execTend_closes {o : SQ} (hu : s.core.unit = some u) (h : Effective o.qp [] s) (hn : u.gang = true ∨ s.children u = 0)
    (hc : s.Closes t) : execTend o s = .next (t.mapCore (·.later (.ending .tend))) := by
  rw [execTend_ends hu h hn, hc.outside, if_neg Bool.false_ne_true]
  exact closing_closes hc

theorem execYield_task {o : SQ} (hu : s.core.unit = some u) (hg : u.gang = false) (h : Effective o.qp [] s) (hc : s.Closes t) :
    execYield o s = .next (t.mapCore (·.later (.ending .yield))) := by
  rw [execYield, taskOnly_task hu hg, beginClosing_effective h hc.outside, closing_closes hc]
  rfl

/-- WAITC on a flag of a gang of the same context. -/
theorem execWaitc_flag {o : SA} {g : UnitInfo} (hu : s.core.unit = some u) (hg : u.gang = false) (h : Effective o.qp [.x o.a] s)
    (ha : s.core.xp o.a = false) (h16 : bitAt (s.core.x o.a) 16 = false) (hok : desigOk (s.core.x o.a) = true)
    (h15 : bitAt (s.core.x o.a) 15 = false) (hgu : (s.coreOf (desigCore (s.core.x o.a) s.core.id)).unit = some g)
    (hgg : g.gang = true) (has : g.asid = u.asid) (hc : s.Closes t) : execWaitc o s =
      .next (t.recordWait u (.flag (desigCore (s.core.x o.a) s.core.id) (desigFlag (s.core.x o.a)) g.family) (s.core.x o.a)) := by
  rw [execWaitc, taskOnly_task hu hg, beginClosing_effective h hc.outside]
  simp only [ha, h16, hok, h15, hgu, hgg, has, Bool.not_true, Bool.or_self, Bool.false_eq_true, if_false, bne_self_eq_false]
  exact closing_closes hc

/-- WAITC on a phaser the unit has registered with to wait. -/
theorem execWaitc_phaser {o : SA} {p : Party} (hu : s.core.unit = some u) (hg : u.gang = false) (hpl : u.place = 0)
    (hprov : s.isProv = false) (h : Effective o.qp [.x o.a] s) (ha : s.core.xp o.a = false) (hlt : (s.core.x o.a).toNat < 2 ^ 17)
    (h16 : bitAt (s.core.x o.a) 16 = true) (h6 : field (s.core.x o.a) 6 10 = 0)
    (hp : (s.phasers (clusterOf s.core.id) u.asid).party (field (s.core.x o.a) 0 6).toNat u.family = some p)
    (hw : p.wait = true) (hs : p.sig = true → phGt p.sp p.wp = true) (hc : s.Closes t) : execWaitc o s =
      .next (t.recordWait u (.phaser (clusterOf s.core.id) (field (s.core.x o.a) 0 6).toNat) (s.core.x o.a)) := by
  have h17 : field (s.core.x o.a) 17 47 = 0 := by
    apply BitVec.eq_of_toNat_eq
    rw [field, BitVec.extractLsb'_toNat, Nat.shiftRight_eq_div_pow, Nat.div_eq_of_lt hlt]; rfl
  have hbad : badWait (some p) = false := by
    cases hsig : p.sig <;> simp_all [badWait]
  rw [execWaitc, taskOnly_task hu hg, beginClosing_effective h hc.outside]
  simp only [ha, h16, h17, h6, hpl, hp, hbad, closingConfirmed, hprov, bne_self_eq_false, Bool.or_self, Bool.false_eq_true, if_false, if_true]
  exact closing_closes hc

end Tasks

/-- Settles O11: each instruction's effect behind its region's close, and its refusals. -/
theorem taskInstructions : Obligations.TaskInstructions := by
  unfold Obligations.TaskInstructions
  refine ⟨fun o s t v u c w n hu hg h ha hb hlt hal hc hr hw hx hf => ?_,
    fun o s t u hu hg h hc => ⟨execSync_task hu hg h hc, fun hn => ⟨?_, execTend_closes hu h (.inr hn) hc⟩,
      fun hn => ⟨?_, ?_⟩, execYield_task hu hg h hc⟩,
    fun o s t u hu hg h hc => execTend_closes hu h (.inl hg) hc,
    fun o s t u g hu hg h ha => fun h16 hok h15 hgu hgg has hc => execWaitc_flag hu hg h ha h16 hok h15 hgu hgg has hc,
    fun o s t u p hu hg hpl hprov h ha => fun hlt h16 h6 hp hw hs hc => execWaitc_phaser hu hg hpl hprov h ha hlt h16 h6 hp hw hs hc,
    fun s u hu hg => ⟨fun o => taskOnly_gang hu hg, fun o => taskOnly_gang hu hg, fun o => taskOnly_gang hu hg,
      fun o => taskOnly_gang hu hg, fun o => taskOnly_gang hu hg⟩,
    fun s u o hu hi h => ⟨fun hn => ?_, fun hg => ⟨?_, ?_, ?_⟩⟩, fun s o hu => ?_⟩
  · exact execFork_task hu hg h ha hb (targetOk_iff.mpr ⟨hlt, hal⟩) hc hr hw hx hf
  · refine (execRetf_task hu hg h hc.outside).trans ?_
    rw [hn, if_neg (by decide)]
    exact closing_closes hc
  · refine (execRetf_task hu hg h hc.outside).trans ?_
    rw [if_pos (by simpa using hn)]
  · refine (execTend_unit hu h).trans ?_
    rw [if_pos (by simpa [hg] using hn)]
  · refine (execTend_ends hu h hn).trans ?_
    rw [if_pos hi]
  · exact (taskOnly_task hu hg).trans (beginClosing_inHandler h hi)
  · exact (taskOnly_task hu hg).trans (beginClosing_inHandler h hi)
  · exact (taskOnly_task hu hg).trans (beginClosing_inHandler h hi)
  · exact (show execTend o s = _ by rw [execTend, hu])

end Sys2Proof.Proofs

namespace Sys2Proof.Proofs

open Sys2Proof Sys2Proof.Machine Sys2Proof.Laws

/-! ## Elements of a vector register (R45, R123, R124) -/

/-- Bit j of packed elements is a bit of the element it falls in. -/
theorem testBit_packNat {w : Nat} (hw : 0 < w) (l : List Nat) : ∀ j, (packNat w l).testBit j = (l.getD (j / w) 0).testBit (j % w) := by
  induction l with
  | nil => intro j; simp [packNat]
  | cons a l ih =>
    intro j
    rw [packNat, Nat.shiftLeft_eq, Nat.add_comm, Nat.mul_comm, Nat.testBit_two_pow_mul_add _ (Nat.mod_lt _ (Nat.two_pow_pos w))]
    obtain hj | hj := Nat.lt_or_ge j w
    · rw [if_pos hj, Nat.testBit_mod_two_pow, Nat.div_eq_of_lt hj, Nat.mod_eq_of_lt hj]
      simp [hj]
    · obtain ⟨k, rfl⟩ := Nat.exists_eq_add_of_le hj
      rw [if_neg (by omega), Nat.add_sub_cancel_left, ih, Nat.add_div_left _ hw, Nat.add_mod_left, List.getD_cons_succ]

theorem getLsbD_packElems {n w : Nat} (hw : 0 < w) (l : List Nat) {j : Nat} (hj : j < n) :
    (packElems n w l).getLsbD j = (l.getD (j / w) 0).testBit (j % w) := by
  rw [packElems, BitVec.getLsbD_ofNat, decide_eq_true hj, Bool.true_and, testBit_packNat hw]

/-- Element i of packed elements. -/
theorem elem_packElems {n w i : Nat} (hw : 0 < w) (l : List Nat) (hi : w * (i + 1) ≤ n) :
    (packElems n w l).extractLsb' (w * i) w = BitVec.ofNat w (l.getD i 0) := by
  apply BitVec.eq_of_getLsbD_eq
  intro j hj
  rw [Nat.mul_succ] at hi
  rw [BitVec.getLsbD_extractLsb', getLsbD_packElems hw l (by omega), Nat.mul_add_div hw, Nat.div_eq_of_lt hj, Nat.mul_add_mod,
    Nat.mod_eq_of_lt hj, BitVec.getLsbD_ofNat]
  rfl

theorem elemsOf_eq {n : Nat} (x : BitVec n) (w : Nat) :
    elemsOf x w = (List.range (n / w)).map (fun i => (x.extractLsb' (w * i) w).toNat) := rfl

theorem length_elemsOf {n : Nat} (x : BitVec n) (w : Nat) : (elemsOf x w).length = n / w := by simp [elemsOf_eq]

theorem getElem?_elemsOf {n w i : Nat} (x : BitVec n) (hi : i < n / w) : (elemsOf x w)[i]? = some (x.extractLsb' (w * i) w).toNat := by
  rw [elemsOf_eq, List.getElem?_map, List.getElem?_range hi]; rfl

theorem getD_elemsOf {n w i : Nat} (x : BitVec n) (hi : i < n / w) : (elemsOf x w).getD i 0 = (x.extractLsb' (w * i) w).toNat := by
  rw [List.getD_eq_getElem?_getD, getElem?_elemsOf x hi]; rfl

section Elements

variable {w i : Nat}

/-- An element of a width ends within the register. -/
theorem elem_fits (hi : i < 4096 / w) : 0 < w ∧ w * (i + 1) ≤ 4096 := by
  obtain rfl | hw := Nat.eq_zero_or_pos w
  · simp at hi
  · exact ⟨hw, (Nat.mul_le_mul_left w hi).trans (Nat.mul_div_le 4096 w)⟩

theorem elem_mapElems (hi : i < 4096 / w) (f : Nat → Nat) (a : VBits) :
    (mapElems w f a).extractLsb' (w * i) w = BitVec.ofNat w (f (a.extractLsb' (w * i) w).toNat) := by
  obtain ⟨hw, hfits⟩ := elem_fits hi
  rw [mapElems, elem_packElems hw _ hfits, List.getD_eq_getElem?_getD, List.getElem?_map, getElem?_elemsOf a hi]
  rfl

theorem elem_zipElems (hi : i < 4096 / w) (f : Nat → Nat → Nat) (a b : VBits) :
    (zipElems w f a b).extractLsb' (w * i) w =
      BitVec.ofNat w (f (a.extractLsb' (w * i) w).toNat (b.extractLsb' (w * i) w).toNat) := by
  obtain ⟨hw, hfits⟩ := elem_fits hi
  have hz := List.getElem?_zip_eq_some (z := ((a.extractLsb' (w * i) w).toNat, (b.extractLsb' (w * i) w).toNat)).mpr
    ⟨getElem?_elemsOf a hi, getElem?_elemsOf b hi⟩
  rw [zipElems, elem_packElems hw _ hfits, List.getD_eq_getElem?_getD, List.getElem?_map, hz]
  rfl

theorem elem_zip3Elems (hi : i < 4096 / w) (f : Nat → Nat → Nat → Nat) (a b d : VBits) :
    (zip3Elems w f a b d).extractLsb' (w * i) w =
      BitVec.ofNat w (f (a.extractLsb' (w * i) w).toNat (b.extractLsb' (w * i) w).toNat (d.extractLsb' (w * i) w).toNat) := by
  obtain ⟨hw, hfits⟩ := elem_fits hi
  have hab := List.getElem?_zip_eq_some (z := ((a.extractLsb' (w * i) w).toNat, (b.extractLsb' (w * i) w).toNat)).mpr
    ⟨getElem?_elemsOf a hi, getElem?_elemsOf b hi⟩
  have hz := List.getElem?_zip_eq_some (z := (_, (d.extractLsb' (w * i) w).toNat)).mpr ⟨hab, getElem?_elemsOf d hi⟩
  rw [zip3Elems, elem_packElems hw _ hfits, List.getD_eq_getElem?_getD, List.getElem?_map, hz]
  rfl

end Elements

/-- The bits of the lanes that a mask selects. -/
theorem getLsbD_laneBits (m : Mask) {i : Nat} (hi : i < 4096) : (laneBits m).getLsbD i = m.getLsbD (i / 32) := by
  have hlane : i / 32 < 128 := by omega
  have hbit : Nat.testBit 0xFFFFFFFF (i % 32) = true := by
    rw [show 0xFFFFFFFF = 2 ^ 32 - 1 from rfl, Nat.testBit_two_pow_sub_one, decide_eq_true (Nat.mod_lt i (by decide))]
  rw [laneBits, getLsbD_packElems (by decide) _ hi, List.getD_eq_getElem?_getD, List.getElem?_map, List.getElem?_range hlane]
  change Nat.testBit (if m.getLsbD (i / 32) then 0xFFFFFFFF else 0) (i % 32) = _
  cases m.getLsbD (i / 32)
  · rw [if_neg Bool.false_ne_true, Nat.zero_testBit]
  · rw [if_pos rfl, hbit]

theorem getLsbD_blend (m : Mask) (new old : VBits) {i : Nat} (hi : i < 4096) :
    (blend m new old).getLsbD i = if m.getLsbD (i / 32) = true then new.getLsbD i else old.getLsbD i := by
  have hlane : i / 32 < 128 := by omega
  unfold blend
  split
  case isTrue h => subst h; rw [BitVec.getLsbD_allOnes, decide_eq_true hlane, if_pos rfl]
  case isFalse =>
    rw [BitVec.getLsbD_or, BitVec.getLsbD_and, BitVec.getLsbD_and, BitVec.getLsbD_not, getLsbD_laneBits m hi]
    cases m.getLsbD (i / 32) <;> simp [hi]

/-- Settles O12: element i of an elementwise result, and each bit of a blend. -/
theorem lanes : Obligations.Lanes := by
  unfold Obligations.Lanes
  exact ⟨fun w _ i hi a b d => ⟨fun f => elem_mapElems hi f a, fun f => elem_zipElems hi f a b, fun f => elem_zip3Elems hi f a b d⟩,
    fun m new old i hi => getLsbD_blend m new old hi⟩

/-! ## Vector floating point (R129 to R132) -/

section VectorFloats

variable {s : State} {x y : VReg} {qp : PredNo} {km : BitVec 3} {d : RegNo} {a b : Src} {fmt : BitVec 2} {lat : Nat}

theorem vf1_sends (f : Nat → Nat) (h : Effective qp (srcRegs a ++ [.v d]) s) (hx : s.core.vsrc a = .val x) (ht : x.tag = vfmtTag fmt)
    (hd : s.core.takesTag km d (vfmtTag fmt)) :
    vf1 qp km d a fmt lat f s = .next (s.sendsMasked km d (mapElems (vfmt fmt).w f x.bits) (vfmtTag fmt) x.poison lat) := by
  rw [vf1, begin_effective h, useSrc_val hx, ht, bne_self_eq_false, if_neg Bool.false_ne_true, writeMasked_takes hd]

theorem vf1_mismatch (f : Nat → Nat) (h : Effective qp (srcRegs a ++ [.v d]) s) (hx : s.core.vsrc a = .val x) (ht : x.tag ≠ vfmtTag fmt) :
    vf1 qp km d a fmt lat f s = fault formatMismatch s := by
  rw [vf1, begin_effective h, useSrc_val hx, if_pos (bne_iff_ne.mpr ht)]

variable {btag : Tag}

theorem vf2_effective (f : Nat → Nat → Nat) (h : Effective qp (srcRegs a ++ srcRegs b ++ [.v d]) s) (hx : s.core.vsrc a = .val x)
    (hy : s.core.vsrc b = .val y) : vf2 qp km d a b fmt btag lat f s =
      if x.tag != vfmtTag fmt || y.tag != btag then fault formatMismatch s
      else writeMasked km d (zipElems (vfmt fmt).w f x.bits y.bits) (vfmtTag fmt) (x.poison || y.poison) lat s := by
  rw [vf2, begin_effective h, useSrc_val hx, useSrc_val hy]

theorem vf2_writes (f : Nat → Nat → Nat) (h : Effective qp (srcRegs a ++ srcRegs b ++ [.v d]) s) (hx : s.core.vsrc a = .val x)
    (hy : s.core.vsrc b = .val y) (htx : x.tag = vfmtTag fmt) (hty : y.tag = btag) : vf2 qp km d a b fmt btag lat f s =
      writeMasked km d (zipElems (vfmt fmt).w f x.bits y.bits) (vfmtTag fmt) (x.poison || y.poison) lat s := by
  rw [vf2_effective f h hx hy, if_neg (by simp [htx, hty])]

theorem vf2_sends (f : Nat → Nat → Nat) (h : Effective qp (srcRegs a ++ srcRegs b ++ [.v d]) s) (hx : s.core.vsrc a = .val x)
    (hy : s.core.vsrc b = .val y) (htx : x.tag = vfmtTag fmt) (hty : y.tag = btag) (hd : s.core.takesTag km d (vfmtTag fmt)) :
    vf2 qp km d a b fmt btag lat f s =
      .next (s.sendsMasked km d (zipElems (vfmt fmt).w f x.bits y.bits) (vfmtTag fmt) (x.poison || y.poison) lat) := by
  rw [vf2_writes f h hx hy htx hty, writeMasked_takes hd]

theorem vf2_mismatch (f : Nat → Nat → Nat) (h : Effective qp (srcRegs a ++ srcRegs b ++ [.v d]) s) (hx : s.core.vsrc a = .val x)
    (hy : s.core.vsrc b = .val y) (ht : x.tag ≠ vfmtTag fmt ∨ y.tag ≠ btag) : vf2 qp km d a b fmt btag lat f s = fault formatMismatch s := by
  rw [vf2_effective f h hx hy, if_pos (by simpa using ht)]

theorem writeMasked_refuses {v : VBits} {t : Tag} {p : Bool} (h : ¬ s.core.takesTag km d t) :
    writeMasked km d v t p lat s = fault formatMismatch s := by
  obtain ⟨hkm, hzero, hne⟩ : km ≠ 0 ∧ (s.core.v d).tag ≠ 0 ∧ (s.core.v d).tag ≠ t := by simpa only [not_or] using h
  unfold writeMasked
  dsimp only
  rw [if_neg hkm, if_pos (by simp only [bne_iff_ne, Bool.and_eq_true]; exact ⟨hzero, hne⟩)]

variable {o : VF}

theorem vfAcc_effective (f : Nat → FV → FV → FV → FV) (h : Effective o.qp (srcRegs o.a ++ srcRegs o.b ++ [.v o.d]) s)
    (hx : s.core.vsrc o.a = .val x) (hy : s.core.vsrc o.b = .val y) : vfAcc o f s =
      if x.tag != vfmtTag o.fmt || y.tag != vfmtTag o.fmt || (s.core.v o.d).tag != vfmtTag o.fmt then fault formatMismatch s
      else writeMasked o.km o.d (zip3Elems (vfmt o.fmt).w (fun a b d => (vfmt o.fmt).encode o.rnd.toNat 0 o.sat
          (f o.rnd.toNat ((vfmt o.fmt).decode a) ((vfmt o.fmt).decode b) ((vfmt o.fmt).decode d))) x.bits y.bits (s.core.v o.d).bits)
        (vfmtTag o.fmt) (x.poison || y.poison || (s.core.v o.d).poison) 4 s := by
  rw [vfAcc, begin_effective h, useSrc_val hx, useSrc_val hy]

theorem vfAcc_sends (f : Nat → FV → FV → FV → FV) (h : Effective o.qp (srcRegs o.a ++ srcRegs o.b ++ [.v o.d]) s)
    (hx : s.core.vsrc o.a = .val x) (hy : s.core.vsrc o.b = .val y) (htx : x.tag = vfmtTag o.fmt) (hty : y.tag = vfmtTag o.fmt)
    (htz : (s.core.v o.d).tag = vfmtTag o.fmt) : vfAcc o f s =
      .next (s.sendsMasked o.km o.d (zip3Elems (vfmt o.fmt).w (fun a b d => (vfmt o.fmt).encode o.rnd.toNat 0 o.sat
          (f o.rnd.toNat ((vfmt o.fmt).decode a) ((vfmt o.fmt).decode b) ((vfmt o.fmt).decode d))) x.bits y.bits (s.core.v o.d).bits)
        (vfmtTag o.fmt) (x.poison || y.poison || (s.core.v o.d).poison) 4) := by
  rw [vfAcc_effective f h hx hy, if_neg (by simp [htx, hty, htz]), writeMasked_takes (.inr (.inr htz))]

theorem vfAcc_mismatch (f : Nat → FV → FV → FV → FV) (h : Effective o.qp (srcRegs o.a ++ srcRegs o.b ++ [.v o.d]) s)
    (hx : s.core.vsrc o.a = .val x) (hy : s.core.vsrc o.b = .val y) (ht : x.tag ≠ vfmtTag o.fmt ∨ y.tag ≠ vfmtTag o.fmt) :
    vfAcc o f s = fault formatMismatch s := by
  rw [vfAcc_effective f h hx hy, if_pos (by simpa [or_assoc] using ht.elim .inl fun h => .inr (.inl h))]

end VectorFloats

/-- A nonzero number over a zero is an infinity of the quotient's sign. -/
theorem vdivElem_overZero {g : Fmt} (m : Nat) (sat : Bool) {a b : Nat} (h : (∃ n k e, g.decode a = .fin n k e ∧ k ≠ 0) ∧ (g.decode b).isZero = true) :
    vdivElem g m sat a b = g.signed ((g.decode a).neg? != (g.decode b).neg?) g.infCode := by
  obtain ⟨⟨n, k, e, ha, hk⟩, hb⟩ := h
  simp only [vdivElem, ha, hb, bne_iff_ne.mpr hk, Bool.and_self, if_true, FV.neg?]

theorem vdivElem_rounded {g : Fmt} (m : Nat) (sat : Bool) {a b : Nat}
    (h : ¬((∃ n k e, g.decode a = .fin n k e ∧ k ≠ 0) ∧ (g.decode b).isZero = true)) :
    vdivElem g m sat a b = g.encode m 0 sat (FV.div (g.decode a) (g.decode b)) := by
  unfold vdivElem
  split
  case h_1 n k e ha =>
    refine if_neg fun hc => h ⟨⟨n, k, e, ha, ?_⟩, ?_⟩ <;> simp_all
  case h_2 => rfl

/-- Settles O13: each operation on its elements, its tags checked first. -/
theorem vectorFloat : Obligations.VectorFloat := by
  unfold Obligations.VectorFloat
  refine ⟨⟨fun o s x y h hx hy => ⟨fun htx hty hd => ⟨?_, ?_, ?_, vdivElem (vfmt o.fmt) o.rnd.toNat o.sat, ?_,
        fun a b => ⟨vdivElem_overZero _ _, vdivElem_rounded _ _⟩⟩,
      fun htx hty htz => ⟨?_, ?_, ?_⟩, fun htx hty hd => ?_, fun ht => ⟨?_, ?_, ?_, ?_, ?_⟩, fun htx hty hd => ?_⟩,
    fun o s x y h hx hy htx hty hd => ⟨?_, ?_⟩⟩, fun o s x h hx ht hd => ⟨?_, ?_⟩, fun o s x h hx ht hd => ?_,
    fun o s x h hx => ⟨fun ht hd => ⟨?_, ?_, ?_, ?_, ?_⟩, fun ht => ?_⟩⟩
  · exact vf2_sends _ h hx hy htx hty hd
  · exact vf2_sends _ h hx hy htx hty hd
  · exact vf2_sends _ h hx hy htx hty hd
  · exact vf2_sends _ h hx hy htx hty hd
  · exact vfAcc_sends FV.fma h hx hy htx hty htz
  · exact vfAcc_sends (fun m a b d => FV.fma m a b d.negate) h hx hy htx hty htz
  · exact vfAcc_sends (fun m a b d => FV.add m (FV.mul a b).negate d) h hx hy htx hty htz
  · exact vf2_sends _ h hx hy htx (hty.trans (by simp only [beq_iff_eq])) hd
  · exact vf2_mismatch _ h hx hy ht
  · exact vf2_mismatch _ h hx hy ht
  · exact vf2_mismatch _ h hx hy ht
  · exact vf2_mismatch _ h hx hy ht
  · exact vfAcc_mismatch _ h hx hy ht
  · exact (vf2_writes _ h hx hy htx hty).trans (writeMasked_refuses hd)
  · exact vf2_sends _ h hx hy htx hty hd
  · exact vf2_sends _ h hx hy htx hty hd
  · exact vf1_sends _ h hx ht hd
  · exact vf1_sends _ h hx ht hd
  · exact vf1_sends _ h hx ht hd
  · exact vf1_sends _ h hx ht hd
  · exact vf1_sends _ h hx ht hd
  · exact vf1_sends _ h hx ht hd
  · exact vf1_sends _ h hx ht hd
  · exact vf1_sends _ h hx ht hd
  · exact vf1_mismatch _ h hx ht

/-! ## Vector integers (R133, R135) -/

section VectorIntegers

variable {s : State} {x y : VReg}

theorem vi2_sends {qp : PredNo} {km : BitVec 3} {d : RegNo} {a b : Src} {w : BitVec 2} (f : Nat → Nat → Nat)
    (h : Effective qp (srcRegs a ++ srcRegs b ++ [.v d]) s) (hx : s.core.vsrc a = .val x) (hy : s.core.vsrc b = .val y)
    (htx : x.tag = viTag w) (hty : y.tag = viTag w) (hd : s.core.takesTag km d (viTag w)) : vi2 qp km d a b w f s =
      .next (s.sendsMasked km d (zipElems (viWidth w) f x.bits y.bits) (viTag w) (x.poison || y.poison) 4) := by
  rw [vi2, begin_effective h, useSrc_val hx, useSrc_val hy, if_neg (by simp [htx, hty]), writeMasked_takes hd]

theorem execVimad_sends {o : VI} (h : Effective o.qp (srcRegs o.a ++ srcRegs o.b ++ [.v o.d]) s) (hx : s.core.vsrc o.a = .val x)
    (hy : s.core.vsrc o.b = .val y) (htx : x.tag = viTag o.w) (hty : y.tag = viTag o.w) (htz : (s.core.v o.d).tag = viTag o.w) :
    execVimad o s = .next (s.sendsMasked o.km o.d
      (zip3Elems (viWidth o.w) (fun a b d => intResult o.sgn o.sat (viWidth o.w)
        (elemInt o.sgn (viWidth o.w) a * elemInt o.sgn (viWidth o.w) b + elemInt o.sgn (viWidth o.w) d)) x.bits y.bits (s.core.v o.d).bits)
      (viTag o.w) (x.poison || y.poison || (s.core.v o.d).poison) 4) := by
  rw [execVimad, begin_effective h, useSrc_val hx, useSrc_val hy]
  exact (if_neg (by simp [htx, hty, htz])).trans (writeMasked_takes (.inr (.inr htz)))

theorem execVdot4_sends {o : VDot} (h : Effective o.qp (srcRegs o.a ++ srcRegs o.b ++ [.v o.d]) s) (hx : s.core.vsrc o.a = .val x)
    (hy : s.core.vsrc o.b = .val y) (htx : x.tag = tI8) (hty : y.tag = tI8) (htz : (s.core.v o.d).tag = tI32) :
    execVdot4 o s = .next (s.sendsMasked o.km o.d
      (zip3Elems 32 (fun a b d => intResult o.sgn o.sat 32 (elemInt o.sgn 32 d + dot4 o.sgn a b)) x.bits y.bits (s.core.v o.d).bits) tI32
      (x.poison || y.poison || (s.core.v o.d).poison) 4) := by
  rw [execVdot4, begin_effective h, useSrc_val hx, useSrc_val hy]
  exact (if_neg (by simp [htx, hty, htz])).trans (writeMasked_takes (.inr (.inr htz)))

theorem execViabs_sends {o : VIabs} (h : Effective o.qp (srcRegs o.a ++ [.v o.d]) s) (hx : s.core.vsrc o.a = .val x)
    (ht : x.tag = viTag o.w) (hd : s.core.takesTag o.km o.d (viTag o.w)) : execViabs o s =
      .next (s.sendsMasked o.km o.d (mapElems (viWidth o.w) (fun a => intResult true o.sat (viWidth o.w) ((sNat (viWidth o.w) a).natAbs : Int))
        x.bits) (viTag o.w) x.poison 4) := by
  rw [execViabs, begin_effective h, useSrc_val hx]
  exact (if_neg (by simp [ht])).trans (writeMasked_takes hd)

end VectorIntegers

/-- Settles O14: each operation on its elements. -/
theorem vectorInteger : Obligations.VectorInteger := by
  unfold Obligations.VectorInteger
  refine ⟨fun o s x y h hx hy htx hty => ⟨fun hd => ⟨?_, ?_, ?_, ?_⟩, fun htz => execVimad_sends h hx hy htx hty htz⟩,
    fun o s x y h hx hy htx hty hd => ⟨?_, ?_⟩, fun o s x y h hx hy htx hty hd => ⟨?_, ?_⟩,
    fun o s x y h hx hy htx hty htz => execVdot4_sends h hx hy htx hty htz, fun o s x h hx ht hd => execViabs_sends h hx ht hd⟩
  · exact vi2_sends _ h hx hy htx hty hd
  · exact vi2_sends _ h hx hy htx hty hd
  · exact vi2_sends _ h hx hy htx hty hd
  · exact vi2_sends _ h hx hy htx hty hd
  · have e (a b : Nat) : (if b < viWidth o.w then a >>> b else 0) = if b ≥ viWidth o.w then 0 else a >>> b := by
      simp only [← Nat.not_lt, ite_not]
    simp only [e]
    exact vi2_sends _ h hx hy htx hty hd
  · exact vi2_sends _ h hx hy htx hty hd
  · exact vi2_sends _ h hx hy htx hty hd
  · exact vi2_sends _ h hx hy htx hty hd

end Sys2Proof.Proofs

namespace Sys2Proof.Proofs

open Sys2Proof Sys2Proof.Machine Sys2Proof.Laws

/-! ## Bitwise operations, selections and moves (R134, R137, R146, R147, R148) -/

section Moves

variable {s : State} {x y : VReg}

theorem joinTag_eq (t u : Tag) : joinTag t u = if t = u then t else tBITS := by
  unfold joinTag
  simp only [beq_iff_eq]

theorem vbit_sends {o : V2} (f : VBits → VBits → VBits) (h : Effective o.qp (srcRegs o.a ++ srcRegs o.b ++ [.v o.d]) s)
    (hx : s.core.vsrc o.a = .val x) (hy : s.core.vsrc o.b = .val y) (hd : s.core.takesTag o.km o.d (joinTag x.tag y.tag)) :
    vbit o f s = .next (s.sendsMasked o.km o.d (f x.bits y.bits) (joinTag x.tag y.tag) (x.poison || y.poison) 4) := by
  rw [vbit, begin_effective h, useSrc_val hx, useSrc_val hy, writeMasked_takes hd]

theorem execVselk_sends {o : VSelk} (h : Effective o.qp (srcRegs o.a ++ srcRegs o.b ++ [.v o.d]) s)
    (hx : s.core.vsrc o.a = .val x) (hy : s.core.vsrc o.b = .val y) (hd : s.core.takesTag o.km o.d (joinTag x.tag y.tag)) :
    execVselk o s = .next (s.sendsMasked o.km o.d (blend (s.core.k o.kf) x.bits y.bits) (joinTag x.tag y.tag) (x.poison || y.poison) 4) := by
  rw [execVselk, begin_effective h, useSrc_val hx, useSrc_val hy, writeMasked_takes hd]

theorem execVmov_sends {o : VMv} (h : Effective o.qp (srcRegs o.a ++ [.v o.d]) s) (hx : s.core.vsrc o.a = .val x)
    (hd : s.core.takesTag o.km o.d x.tag) : execVmov o s = .next (s.sendsMasked o.km o.d x.bits x.tag x.poison 4) := by
  rw [execVmov, begin_effective h, useSrc_val hx, writeMasked_takes hd]

theorem execVbcast_sends {o : VBc} (h : Effective o.qp [.x o.a, .v o.d] s) (hd : s.core.takesTag o.km o.d o.tag) :
    execVbcast o s = .next (s.sendsMasked o.km o.d (splat (viWidth o.w) (s.core.x o.a).toNat) o.tag (s.core.xp o.a) 4) := by
  rw [execVbcast, begin_effective h, writeMasked_takes hd]

theorem execVimm_sends {o : VIm} (h : Effective o.qp [.v o.d] s) (hd : s.core.takesTag o.km o.d (viTag o.w)) :
    execVimm o s = .next (s.sendsMasked o.km o.d (splat (viWidth o.w) (o.imm.signExtend 64).toNat) (viTag o.w) false 4) := by
  rw [execVimm, begin_effective h, writeMasked_takes hd]
  rfl

theorem execVtag_sends {o : VTg} (h : Effective o.qp (srcRegs o.a ++ [.v o.d]) s) (hx : s.core.vsrc o.a = .val x) :
    execVtag o s = .next (s.sendsV o.d x.bits o.tag x.poison 4) := by
  rw [execVtag, begin_effective h, useSrc_val hx]
  rfl

end Moves

/-- Settles O15: each operation's bits and the tag it gives them. -/
theorem vectorBitsAndMoves : Obligations.VectorBitsAndMoves := by
  unfold Obligations.VectorBitsAndMoves
  refine ⟨fun o s x y h hx hy => ?_, fun o s x y h hx hy => ?_, fun o s x h hx hd => execVmov_sends h hx hd,
    fun o s h hd => execVbcast_sends h hd, fun o s h hd => execVimm_sends h hd, fun o s x h hx => execVtag_sends h hx⟩
  · simp only [← joinTag_eq]
    exact fun hd => ⟨vbit_sends (fun a b => a &&& b) h hx hy hd, vbit_sends (fun a b => a ||| b) h hx hy hd,
      vbit_sends (fun a b => a ^^^ b) h hx hy hd, vbit_sends (fun a b => a &&& ~~~b) h hx hy hd⟩
  · simp only [← joinTag_eq]
    exact fun hd => execVselk_sends h hx hy hd

/-! ## Lane masks (R136, R138, R139) -/

section Masks

variable {s : State} {x y : VReg}

theorem execVcmp_effective {o : VCmp} (h : Effective o.qp (srcRegs o.a ++ srcRegs o.b) s) (hx : s.core.vsrc o.a = .val x)
    (hy : s.core.vsrc o.b = .val y) : execVcmp o s =
      if x.poison || y.poison then fault poisonConsumed s
      else if x.tag != (if o.int then viTag o.fw else vfmtTag o.fw) || y.tag != (if o.int then viTag o.fw else vfmtTag o.fw) then
        fault formatMismatch s
      else writeK o.km o.d (maskOf (vcmpLanes o x.bits y.bits)) 4 s := by
  rw [execVcmp, begin_effective h, useSrc_val hx, useSrc_val hy]

/-- A mask written under KM keeps the bits outside it. -/
theorem getLsbD_underMask (m keep old : Mask) {i : Nat} (hi : i < 128) :
    ((m &&& keep) ||| (old &&& ~~~keep)).getLsbD i = if keep.getLsbD i = true then m.getLsbD i else old.getLsbD i := by
  rw [BitVec.getLsbD_or, BitVec.getLsbD_and, BitVec.getLsbD_and, BitVec.getLsbD_not]
  cases keep.getLsbD i <;> simp [hi]

theorem getLsbD_maskOf (l : List Bool) {i : Nat} (hi : i < 128) : (maskOf l).getLsbD i = l.getD i false := by
  rw [maskOf, getLsbD_packElems Nat.one_pos _ hi, Nat.div_one, Nat.mod_one, List.getD_eq_getElem?_getD, List.getElem?_map,
    List.getD_eq_getElem?_getD]
  cases l[i]? with
  | none => rfl
  | some b => cases b <;> rfl

theorem klog_sends {o : KL} (f : Mask → Mask → Mask) (h : Effective o.qp [] s) :
    klog o f s = .next (s.sends (.k o.d (f (s.core.k o.a) (s.core.k o.b))) 1) := begin_effective h

theorem execKnot_sends {o : KL1} (h : Effective o.qp [] s) : execKnot o s = .next (s.sends (.k o.d (~~~(s.core.k o.a))) 1) :=
  begin_effective h

theorem execKmov_sends {o : KL1} (h : Effective o.qp [] s) : execKmov o s = .next (s.sends (.k o.d (s.core.k o.a)) 1) :=
  begin_effective h

theorem execKmovK2v_sends {o : VK} (h : Effective o.qp [.v o.d] s) :
    execKmovK2v o s = .next (s.sendsV o.d (laneBits (s.core.k o.a)) tI32 false 1) := begin_effective h

theorem execKmovV2k_sound {o : KV} (h : Effective o.qp (srcRegs o.a) s) (hx : s.core.vsrc o.a = .val x) (hp : x.poison = false) :
    execKmovV2k o s = .next (s.sends (.k o.d (maskOf ((elemsOf x.bits 32).map (fun e => e.testBit 31)))) 1) := by
  rw [execKmovV2k, begin_effective h, useSrc_val hx, hp]
  rfl

theorem execKmovV2k_poisoned {o : KV} (h : Effective o.qp (srcRegs o.a) s) (hx : s.core.vsrc o.a = .val x) (hp : x.poison = true) :
    execKmovV2k o s = fault poisonConsumed s := by
  rw [execKmovV2k, begin_effective h, useSrc_val hx, hp]
  rfl

/-- Bit 31 of each lane. -/
theorem getLsbD_signs (b : VBits) {i : Nat} (hi : i < 128) :
    (maskOf ((elemsOf b 32).map (fun e => e.testBit 31))).getLsbD i = b.getLsbD (32 * i + 31) := by
  rw [getLsbD_maskOf _ hi, List.getD_eq_getElem?_getD, List.getElem?_map, getElem?_elemsOf b hi]
  change Nat.testBit (b.extractLsb' (32 * i) 32).toNat 31 = _
  rw [BitVec.testBit_toNat, BitVec.getLsbD_extractLsb']
  rfl

end Masks

/-- Settles O16: the mask each instruction writes, bit by bit. -/
theorem laneMasks : Obligations.LaneMasks := by
  unfold Obligations.LaneMasks
  refine ⟨fun o s x y h hx hy => ⟨fun hpx hpy htx hty => ⟨_, ?_, fun i hi => getLsbD_underMask _ _ _ hi⟩, fun hp => ?_⟩,
    fun o s h => ⟨klog_sends (fun a b => a &&& b) h, klog_sends (fun a b => a ||| b) h, klog_sends (fun a b => a ^^^ b) h,
      klog_sends (fun a b => a &&& ~~~b) h⟩,
    fun o s h => ⟨execKnot_sends h, execKmov_sends h⟩,
    fun o s x h hx => ⟨fun hp => ⟨_, execKmovV2k_sound h hx hp, fun i hi => getLsbD_signs _ hi⟩, execKmovV2k_poisoned h hx⟩,
    fun o s h => ⟨_, execKmovK2v_sends h, fun i hi => getLsbD_laneBits _ hi⟩⟩
  · refine (execVcmp_effective h hx hy).trans ?_
    rw [if_neg (by simp [hpx, hpy]), if_neg (by simp [htx, hty])]
    rfl
  · exact (execVcmp_effective h hx hy).trans (if_pos (by simpa using hp))

/-! ## Permutes and reductions (R143, R144, R145) -/

section Permutes

variable {s : State} {x y : VReg}

theorem elem_ofNat_toNat {n : Nat} (v : BitVec n) : BitVec.ofNat n v.toNat = v := BitVec.eq_of_toNat_eq (by simp)

/-- An entry of a table of elements. -/
theorem getD_toArray_elemsOf {w i : Nat} (a : VBits) (hi : i < 4096 / w) :
    (elemsOf a w).toArray.getD i 0 = (a.extractLsb' (w * i) w).toNat := by
  rw [← getD_elemsOf a hi]
  simp [Array.getD_eq_getD_getElem?]

/-- An entry of the two tables that VPERML.two looks up. -/
theorem getD_two_tables (a b : VBits) {n : Nat} (hn : n < 256) : (elemsOf a 32 ++ elemsOf b 32).toArray.getD n 0 =
    (if n < 128 then a.extractLsb' (32 * n) 32 else b.extractLsb' (32 * (n - 128)) 32 : BitVec 32).toNat := by
  have hlen : (elemsOf a 32).length = 128 := length_elemsOf a 32
  rw [Array.getD_eq_getD_getElem?, List.getElem?_toArray]
  obtain h | h := Nat.lt_or_ge n 128
  · rw [if_pos h, List.getElem?_append_left (hlen ▸ h), getElem?_elemsOf a h]; rfl
  · rw [if_neg h.not_gt, List.getElem?_append_right (hlen ▸ h), hlen, getElem?_elemsOf b (by omega)]; rfl

theorem lane_permuted (a b : VBits) {i : Nat} (hi : i < 128) :
    (mapElems 32 (fun n => (elemsOf a 32).toArray.getD (n % 128) 0) b).extractLsb' (32 * i) 32 =
      a.extractLsb' (32 * ((b.extractLsb' (32 * i) 32).toNat % 128)) 32 := by
  rw [elem_mapElems (by omega), getD_toArray_elemsOf _ (Nat.mod_lt _ (by decide)), elem_ofNat_toNat]

theorem lane_permuted_two (a b z : VBits) {i : Nat} (hi : i < 128) :
    (mapElems 32 (fun n => (elemsOf a 32 ++ elemsOf z 32).toArray.getD (n % 256) 0) b).extractLsb' (32 * i) 32 =
      if (b.extractLsb' (32 * i) 32).toNat % 256 < 128 then a.extractLsb' (32 * ((b.extractLsb' (32 * i) 32).toNat % 256)) 32
      else z.extractLsb' (32 * ((b.extractLsb' (32 * i) 32).toNat % 256 - 128)) 32 := by
  rw [elem_mapElems (by omega), getD_two_tables _ _ (Nat.mod_lt _ (by decide)), elem_ofNat_toNat]

theorem execVperml_sends {o : V2} (h : Effective o.qp (srcRegs o.a ++ srcRegs o.b ++ [.v o.d]) s) (hx : s.core.vsrc o.a = .val x)
    (hy : s.core.vsrc o.b = .val y) (hp : y.poison = false) (hd : s.core.takesTag o.km o.d x.tag) : execVperml o s =
      .next (s.sendsMasked o.km o.d (mapElems 32 (fun n => (elemsOf x.bits 32).toArray.getD (n % 128) 0) y.bits) x.tag x.poison 2) := by
  rw [execVperml, begin_effective h, useSrc_val hx, useSrc_val hy, hp]
  exact writeMasked_takes hd

theorem execVperml_poisoned {o : V2} (h : Effective o.qp (srcRegs o.a ++ srcRegs o.b ++ [.v o.d]) s) (hx : s.core.vsrc o.a = .val x)
    (hy : s.core.vsrc o.b = .val y) (hp : y.poison = true) : execVperml o s = fault poisonConsumed s := by
  rw [execVperml, begin_effective h, useSrc_val hx, useSrc_val hy, hp]
  rfl

theorem execVpermlTwo_sends {o : V2} (h : Effective o.qp (srcRegs o.a ++ srcRegs o.b ++ [.v o.d]) s) (hx : s.core.vsrc o.a = .val x)
    (hy : s.core.vsrc o.b = .val y) (hp : y.poison = false) (hd : s.core.takesTag o.km o.d (joinTag x.tag (s.core.v o.d).tag)) :
    execVpermlTwo o s = .next (s.sendsMasked o.km o.d
      (mapElems 32 (fun n => (elemsOf x.bits 32 ++ elemsOf (s.core.v o.d).bits 32).toArray.getD (n % 256) 0) y.bits)
      (joinTag x.tag (s.core.v o.d).tag) (x.poison || (s.core.v o.d).poison) 2) := by
  rw [execVpermlTwo, begin_effective h, useSrc_val hx, useSrc_val hy, hp]
  exact writeMasked_takes hd

theorem execVpermlTwo_poisoned {o : V2} (h : Effective o.qp (srcRegs o.a ++ srcRegs o.b ++ [.v o.d]) s) (hx : s.core.vsrc o.a = .val x)
    (hy : s.core.vsrc o.b = .val y) (hp : y.poison = true) : execVpermlTwo o s = fault poisonConsumed s := by
  rw [execVpermlTwo, begin_effective h, useSrc_val hx, useSrc_val hy, hp]
  rfl

/-- The first of the 256 bytes that VPERMB's byte i is chosen from. -/
def permBase (half : BitVec 2) (i : Nat) : Nat :=
  match half.toNat with
  | 0 => i / 256 * 256
  | 1 => 0
  | _ => 256

theorem permBase_eq (half : BitVec 2) (i : Nat) :
    permBase half i = if half = 0 then i / 256 * 256 else if half = 1 then 0 else 256 := by
  obtain rfl | rfl | rfl | rfl : half = 0 ∨ half = 1 ∨ half = 2 ∨ half = 3 := by revert half; decide
  all_goals rfl

theorem permBase_le (half : BitVec 2) {i : Nat} (hi : i < 512) : permBase half i ≤ 256 := by
  unfold permBase
  split <;> omega

/-- The bytes that VPERMB chooses. -/
def permBytes (half : BitVec 2) (a b : VBits) : VBits :=
  packElems 4096 8 (((elemsOf b 8).zip (List.range 512)).map (fun p => (elemsOf a 8).toArray.getD (permBase half p.2 + p.1) 0))

theorem execVpermb_sends {o : VPb} (h : Effective o.qp (srcRegs o.a ++ srcRegs o.b ++ [.v o.d]) s) (hx : s.core.vsrc o.a = .val x)
    (hy : s.core.vsrc o.b = .val y) (hp : y.poison = false)
    (hd : s.core.takesTag o.km o.d (if tagWidth x.tag ≤ 8 then x.tag else tBITS)) : execVpermb o s =
      .next (s.sendsMasked o.km o.d (permBytes o.half x.bits y.bits) (if tagWidth x.tag ≤ 8 then x.tag else tBITS) x.poison 2) := by
  rw [execVpermb, begin_effective h, useSrc_val hx, useSrc_val hy, hp]
  exact writeMasked_takes hd

theorem byte_permBytes (half : BitVec 2) (a b : VBits) {i : Nat} (hi : i < 512) : (permBytes half a b).extractLsb' (8 * i) 8 =
    a.extractLsb' (8 * (permBase half i + (b.extractLsb' (8 * i) 8).toNat)) 8 := by
  have hz := List.getElem?_zip_eq_some (z := ((b.extractLsb' (8 * i) 8).toNat, i)).mpr
    ⟨getElem?_elemsOf b (w := 8) (by omega), List.getElem?_range hi⟩
  have hidx : permBase half i + (b.extractLsb' (8 * i) 8).toNat < 4096 / 8 := by
    have := permBase_le half hi
    have := (b.extractLsb' (8 * i) 8).isLt
    omega
  rw [permBytes, elem_packElems (by decide) _ (by omega), List.getD_eq_getElem?_getD, List.getElem?_map, hz, Option.map_some,
    Option.getD_some, getD_toArray_elemsOf a hidx, elem_ofNat_toNat]

theorem redFloat_sends {o : VRd} (ident : FV) (f : FV → FV → FV) (h : Effective o.qp (srcRegs o.a ++ [.v o.d]) s)
    (hx : s.core.vsrc o.a = .val x) (ht : x.tag = vfmtTag o.fw) : redFloat o ident f s =
      .next (s.sendsV o.d (BitVec.ofNat 4096 (toF32 ((treeReduce f 9 ((redElems (s.core.k o.km) (vfmt o.fw).w x.bits
        ((vfmt o.fw).encode 0 0 false ident)).map (vfmt o.fw).decode)).headD ident))) tF32 x.poison 8) := by
  rw [redFloat, begin_effective h, useSrc_val hx]
  exact if_neg (by simp [ht])

theorem redFloat_mismatch {o : VRd} (ident : FV) (f : FV → FV → FV) (h : Effective o.qp (srcRegs o.a ++ [.v o.d]) s)
    (hx : s.core.vsrc o.a = .val x) (ht : x.tag ≠ vfmtTag o.fw) : redFloat o ident f s = fault formatMismatch s := by
  rw [redFloat, begin_effective h, useSrc_val hx]
  exact if_pos (by simpa using ht)

theorem redInt_sends {o : VRd} (sg : Bool) (ident : Int) (f : Int → Int → Int) (fin : Int → Nat)
    (h : Effective o.qp (srcRegs o.a ++ [.v o.d]) s) (hx : s.core.vsrc o.a = .val x) (ht : x.tag = viTag o.fw) : redInt o sg ident f fin s =
      .next (s.sendsV o.d (BitVec.ofNat 4096 (fin (((redElems (s.core.k o.km) (viWidth o.fw) x.bits (natWrap (viWidth o.fw) ident)).map
        (elemInt sg (viWidth o.fw))).foldl f ident))) tI32 x.poison 8) := by
  rw [redInt, begin_effective h, useSrc_val hx]
  exact if_neg (by simp [ht])

end Permutes

/-- Settles O17: the element each permute chooses, and the value of each reduction. -/
theorem permutesAndReductions : Obligations.PermutesAndReductions := by
  unfold Obligations.PermutesAndReductions
  refine ⟨fun o s x y h hx hy => ⟨fun hp hd => ⟨_, execVperml_sends h hx hy hp hd, fun i hi => lane_permuted _ _ hi⟩, fun hp hd => ?_,
      fun hp => ⟨execVperml_poisoned h hx hy hp, execVpermlTwo_poisoned h hx hy hp⟩⟩,
    fun o s x y _ h hx hy hp hd => ⟨_, execVpermb_sends h hx hy hp hd, fun i hi => ?_⟩,
    fun o s x h hx => ⟨fun ht => ⟨?_, ?_, ?_⟩, fun ht => ⟨?_, ?_, ?_, ?_⟩, fun ht => redFloat_mismatch _ _ h hx ht⟩,
    fun o s x h hx ht => ?_⟩
  · rw [← joinTag_eq] at hd ⊢
    refine ⟨_, execVpermlTwo_sends h hx hy hp hd, fun i hi => lane_permuted_two _ _ _ hi⟩
  · rw [byte_permBytes _ _ _ hi, permBase_eq]
  · exact redFloat_sends (FV.zero true) _ h hx ht
  · exact redFloat_sends (.inf true) FV.max h hx ht
  · exact redFloat_sends (.inf false) FV.min h hx ht
  · exact redInt_sends true (loInt (viWidth o.fw) true) max (natWrap 32) h hx ht
  · exact redInt_sends true (hiInt (viWidth o.fw) true) min (natWrap 32) h hx ht
  · exact redInt_sends false 0 max (natWrap 32) h hx ht
  · exact redInt_sends false (hiInt (viWidth o.fw) false) min (natWrap 32) h hx ht
  · exact redInt_sends (o := ⟨o.qp, o.km, o.d, o.a, o.fw⟩) (!o.uns) 0 (fun a b => a + b) (fun r => intResult (!o.uns) o.sat 32 r) h hx ht

end Sys2Proof.Proofs

namespace Sys2Proof.Proofs

open Sys2Proof Sys2Proof.Machine Sys2Proof.Laws

/-! ## Conversions (R140, R141, R142) -/

section Conversions

/-- The widths of R15's tags. -/
theorem tagWidth_mem (t : Tag) : tagWidth t ∈ [4, 8, 16, 32] := by
  unfold tagWidth
  split <;> decide

/-- A source element that a widening conversion reads lies in the source. -/
theorem widened_source_lt {ws wd p j : Nat} (hs : ws ∈ [4, 8, 16, 32]) (hd : wd ∈ [4, 8, 16, 32]) (hlt : ws < wd) (hp : p < wd / ws)
    (hj : j < 4096 / wd) : p * (4096 / wd) + j < 4096 / ws := by
  have hall : ∀ ws ∈ [4, 8, 16, 32], ∀ wd ∈ [4, 8, 16, 32], ws < wd → wd / ws * (4096 / wd) = 4096 / ws := by decide
  have hmul := Nat.mul_le_mul_right (4096 / wd) (Nat.succ_le_of_lt hp)
  rw [hall ws hs wd hd hlt, Nat.succ_mul] at hmul
  omega

/-- The code that element di of a conversion's part takes, from source element si. -/
def converted (o : VCv) (src : Tag) (seed ctr : Word) (a : VBits) (si di : Nat) : Nat :=
  convertElem src o.dst o.us o.ud o.rnd.toNat o.sat (if o.rnd = 4 then srBits seed ctr di else 0)
    (a.extractLsb' (tagWidth src * si) (tagWidth src)).toNat

variable {o : VCv} {src : Tag} {seed ctr : Word} {a old : VBits} {di : Nat}

theorem stochastic_iff (o : VCv) : (o.rnd.toNat == 4) = true ↔ o.rnd = 4 := by
  rw [beq_iff_eq, ← BitVec.toNat_inj]; rfl

/-- The model looks a source element up in the list of them. -/
theorem convertElem_lookup {si : Nat} (h : si < 4096 / tagWidth src) (di : Nat) :
    convertElem src o.dst o.us o.ud o.rnd.toNat o.sat (if o.rnd.toNat == 4 then srBits seed ctr di else 0)
      ((elemsOf a (tagWidth src)).toArray.getD si 0) = converted o src seed ctr a si di := by
  rw [getD_toArray_elemsOf a h, converted]
  simp only [stochastic_iff]

/-- Element di of a widening conversion. -/
theorem elem_convertBits_widening (hw : tagWidth src < tagWidth o.dst) (hp : o.part.toNat < tagWidth o.dst / tagWidth src)
    (hi : di < 4096 / tagWidth o.dst) : (convertBits o src seed ctr a old).extractLsb' (tagWidth o.dst * di) (tagWidth o.dst) =
      BitVec.ofNat _ (converted o src seed ctr a (o.part.toNat * (4096 / tagWidth o.dst) + di) di) := by
  obtain ⟨hpos, hfits⟩ := elem_fits hi
  have hsi := widened_source_lt (tagWidth_mem src) (tagWidth_mem o.dst) hw hp hi
  unfold convertBits
  simp only [max_eq_right hw.le, gt_iff_lt, if_pos hw]
  rw [elem_packElems hpos _ hfits, List.getD_eq_getElem?_getD, List.getElem?_map, List.getElem?_range hi, Option.map_some, Option.getD_some,
    convertElem_lookup hsi]

/-- Element di of a narrowing or equal conversion: in its part it is converted, elsewhere it stays. -/
theorem elem_convertBits_narrowing (hw : tagWidth o.dst ≤ tagWidth src) (hi : di < 4096 / tagWidth o.dst) :
    (convertBits o src seed ctr a old).extractLsb' (tagWidth o.dst * di) (tagWidth o.dst) =
      if o.part.toNat * (4096 / tagWidth src) ≤ di ∧ di < o.part.toNat * (4096 / tagWidth src) + 4096 / tagWidth src then
        BitVec.ofNat _ (converted o src seed ctr a (di - o.part.toNat * (4096 / tagWidth src)) di)
      else old.extractLsb' (tagWidth o.dst * di) (tagWidth o.dst) := by
  obtain ⟨hpos, hfits⟩ := elem_fits hi
  have hz := List.getElem?_zip_eq_some (z := ((old.extractLsb' (tagWidth o.dst * di) (tagWidth o.dst)).toNat, di)).mpr
    ⟨getElem?_elemsOf old hi, List.getElem?_range hi⟩
  unfold convertBits
  simp only [max_eq_left hw, gt_iff_lt, if_neg hw.not_gt]
  rw [elem_packElems hpos _ hfits, List.getD_eq_getElem?_getD, List.getElem?_map, hz, Option.map_some, Option.getD_some]
  simp only [Bool.and_eq_true, decide_eq_true_eq]
  split
  case isTrue h => rw [convertElem_lookup (by omega)]
  case isFalse => exact elem_ofNat_toNat _

variable {s : State} {x : VReg}

/-- A source tag that holds elements. -/
abbrev Known (x : VReg) : Prop := x.tag ≠ tINVALID ∧ x.tag ≠ tBITS

/-- The operands that R140 admits: an unsigned source is an integer, and the two formats differ. -/
abbrev Signs (o : VCv) (x : VReg) : Prop := (o.us = true → tagInt x.tag = true) ∧ (x.tag = o.dst → o.us ≠ o.ud)

/-- How many parts a conversion has. -/
abbrev parts (o : VCv) (x : VReg) : Nat := max (tagWidth x.tag) (tagWidth o.dst) / min (tagWidth x.tag) (tagWidth o.dst)

theorem execVcvt_unknown (h : Effective o.qp (srcRegs o.a ++ [.v o.d]) s) (hx : s.core.vsrc o.a = .val x) (hk : ¬Known x) :
    execVcvt o s = fault formatMismatch s := by
  rw [execVcvt, begin_effective h, useSrc_val hx]
  exact if_pos (by simpa [not_and_or, -not_and] using hk)

/-- What is checked behind the source's tag. -/
theorem execVcvt_known (h : Effective o.qp (srcRegs o.a ++ [.v o.d]) s) (hx : s.core.vsrc o.a = .val x) (hk : Known x) : execVcvt o s =
    if Signs o x ∧ o.part.toNat < parts o x then
      if tagWidth x.tag > tagWidth o.dst ∧ (s.core.v o.d).tag ≠ tINVALID ∧ (s.core.v o.d).tag ≠ o.dst then fault formatMismatch s
      else writeMasked o.km o.d (convertBits o x.tag s.core.sys.seed s.core.sys.ctr x.bits (s.core.v o.d).bits) o.dst
        (x.poison || (decide (tagWidth x.tag > tagWidth o.dst) && (s.core.v o.d).poison)) 3 (if o.rnd = 4 then s.mapCore Core.drawn else s)
    else fault illegalOperand s := by
  rw [execVcvt, begin_effective h, useSrc_val hx]
  refine (if_neg (by simpa using hk)).trans ?_
  simp only [Bool.and_eq_true, Bool.not_eq_true', beq_iff_eq, bne_iff_ne, decide_eq_true_eq, ge_iff_le]
  by_cases hus : o.us = true ∧ tagInt x.tag = false
  · rw [if_pos hus, if_neg fun hc => by simp [hc.1.1 hus.1] at hus]
  by_cases heq : x.tag = o.dst ∧ o.us = o.ud
  · rw [if_neg hus, if_pos heq, if_neg fun hc => hc.1.2 heq.1 heq.2]
  have signs : Signs o x := ⟨fun h => by simpa [h] using hus, fun h g => heq ⟨h, g⟩⟩
  by_cases hp : parts o x ≤ o.part.toNat
  · rw [if_neg hus, if_neg heq, if_pos hp, if_neg fun hc => hc.2.not_ge hp]
  · rw [if_neg hus, if_neg heq, if_neg hp, if_pos (c := Signs o x ∧ _) ⟨signs, Nat.lt_of_not_le hp⟩]
    simp only [and_assoc]

/-- A draw changes no register. -/
theorem sendsMasked_drawn {t : Tag} (b : VBits) (p : Bool) (lat : Nat) (hd : s.core.takesTag o.km o.d t) :
    writeMasked o.km o.d b t p lat (if o.rnd = 4 then s.mapCore Core.drawn else s) =
      .next ((if o.rnd = 4 then s.mapCore Core.drawn else s).sendsMasked o.km o.d b t p lat) :=
  writeMasked_takes (by split <;> exact hd)

/-- Element di of a conversion of a part that exists. -/
theorem toNat_elem_convertBits (hp : o.part.toNat < parts o x) (hi : di < 4096 / tagWidth o.dst) :
    ((convertBits o x.tag seed ctr a old).extractLsb' (tagWidth o.dst * di) (tagWidth o.dst)).toNat =
      (let n := 4096 / max (tagWidth x.tag) (tagWidth o.dst)
       let p := o.part.toNat
       if tagWidth o.dst ≤ tagWidth x.tag ∧ ¬(p * n ≤ di ∧ di < p * n + n) then
         (old.extractLsb' (tagWidth o.dst * di) (tagWidth o.dst)).toNat
       else converted o x.tag seed ctr a (if tagWidth o.dst > tagWidth x.tag then p * n + di else di - p * n) di % 2 ^ tagWidth o.dst) := by
  obtain hw | hw := Nat.lt_or_ge (tagWidth x.tag) (tagWidth o.dst)
  · rw [parts, max_eq_right hw.le, min_eq_left hw.le] at hp
    rw [elem_convertBits_widening hw hp hi]
    simp only [max_eq_right hw.le, hw.not_ge, false_and, if_false, gt_iff_lt, hw, if_true, BitVec.toNat_ofNat]
  · rw [elem_convertBits_narrowing hw hi]
    simp only [max_eq_left hw, hw, true_and, gt_iff_lt, hw.not_gt, if_false, ite_not]
    split <;> simp only [BitVec.toNat_ofNat]

end Conversions

/-- Settles O18: each element of the result, and the checks ahead of it. -/
theorem conversions : Obligations.Conversions := by
  unfold Obligations.Conversions
  refine fun o s x h hx => ⟨fun _ known signs hp hn hd => ⟨_, ?_, fun di hi => toNat_elem_convertBits hp hi⟩,
    fun hu => execVcvt_unknown h hx hu, fun known hbad => ?_, fun known signs hp hw hinv hne => ?_⟩
  · refine (execVcvt_known h hx known).trans ?_
    rw [if_pos ⟨signs, hp⟩, if_neg fun hc => (hn hc.1).elim hc.2.1 hc.2.2]
    exact sendsMasked_drawn _ _ _ hd
  · exact (execVcvt_known h hx known).trans (if_neg fun hc => hbad.elim (absurd hc.1) hc.2.not_ge)
  · exact (execVcvt_known h hx known).trans ((if_pos ⟨signs, hp⟩).trans (if_pos ⟨hw, hinv, hne⟩))

/-! ## Register-file power (R149) -/

section RegisterFile

variable {s : State} {o : VRfm}

theorem execRfmode_effective (h : Effective o.qp [] s) : execRfmode o s =
    if o.n.toNat > s.core.sys.budget then fault illegalOperand s
    else if o.n.toNat < s.core.sys.rfN then
      (if (gatedRegs o.n.toNat).any (fun d => (s.core.pendOn d).isSome) then stall s else .next (s.mapCore (·.gateFrom o.n.toNat)))
    else if o.n.toNat > s.core.sys.rfN then .next (s.mapCore (·.wakeTo o.n.toNat))
    else .next s := begin_effective h

/-- A destination stays where its cluster is not gated. -/
theorem below_iff {n : Nat} {d : PDest} : d.below n = true ↔ ∀ r, d = .v r → vCluster r < n := by
  cases d <;> simp [PDest.below]

theorem getD_below_iff {n : Nat} {d : Option PDest} :
    (d.map (·.below n)).getD true = true ↔ ∀ e, d = some e → ∀ r, e = .v r → vCluster r < n := by
  cases d with
  | none => simp
  | some d => simp only [Option.map_some, Option.getD_some, below_iff, Option.some.injEq, forall_eq']

theorem v_gateFrom (c : Core) (n : Nat) (r : RegNo) : (c.gateFrom n).v r = if n ≤ vCluster r then VReg.zero else c.v r :=
  Vector.getElem_ofFn ..

theorem mem_flights_gateFrom {c : Core} {n : Nat} {f : Flight} : f ∈ (c.gateFrom n).pipe.flights ↔
    f ∈ c.pipe.flights ∧ ∀ d, f.land.pdest = some d → ∀ r, d = .v r → vCluster r < n := by
  rw [← getD_below_iff]; exact List.mem_filter

theorem mem_trapBuf_gateFrom {c : Core} {n : Nat} {f : Flight} : f ∈ (c.gateFrom n).pipe.trapBuf ↔
    f ∈ c.pipe.trapBuf ∧ ∀ d, f.land.pdest = some d → ∀ r, d = .v r → vCluster r < n := by
  rw [← getD_below_iff]; exact List.mem_filter

/-- No request waits for a register of a gated cluster. -/
theorem dests_gateFrom {c : Core} {n : Nat} {q : Request} (hq : q ∈ (c.gateFrom n).pipe.reqs) {d : PDest} (hd : d ∈ q.dests) :
    ∀ r, d = .v r → vCluster r < n := by
  obtain ⟨r, _, rfl⟩ := List.mem_map.mp hq
  exact below_iff.mp (List.mem_filter.mp hd).2

theorem nums_gateFrom (c : Core) (n : Nat) : (c.gateFrom n).pipe.reqs.map (·.num) = c.pipe.reqs.map (·.num) := by
  change (c.pipe.reqs.map _).map _ = _
  rw [List.map_map]; rfl

theorem gateFrom_x (c : Core) (n : Nat) : (c.gateFrom n).r.x = c.r.x := by rw [Core.gateFrom]
theorem gateFrom_mem (c : Core) (n : Nat) : (c.gateFrom n).mem = c.mem := by rw [Core.gateFrom]
theorem gateFrom_ctl (c : Core) (n : Nat) : (c.gateFrom n).ctl = c.ctl := by rw [Core.gateFrom]

end RegisterFile

/-- Settles O19: the gating, the waking, and what RFMODE refuses or waits for. -/
theorem registerFileMode : Obligations.RegisterFileMode := by
  unfold Obligations.RegisterFileMode
  intro o s h
  have e : exec (.rfmode o) s = _ := execRfmode_effective h
  refine ⟨fun hb hn hfree => ?_, fun hb hn hp => e.trans ?_, fun hb hn => e.trans ?_, fun hb hn => e.trans ?_,
    fun hb => e.trans (if_pos hb)⟩
  · have hr : exec (.rfmode o) s = .next (s.mapCore (·.gateFrom o.n.toNat)) := by
      rw [e, if_neg hb.not_gt, if_pos hn, if_neg (by simpa using hfree)]
    exact ⟨_, hr, rfl, v_gateFrom _ _, fun f => mem_flights_gateFrom,
      fun f => mem_trapBuf_gateFrom, fun q hq d hd => dests_gateFrom hq hd, nums_gateFrom _ _, gateFrom_x _ _, gateFrom_mem _ _, gateFrom_ctl _ _,
      State.mapCore_mem .., State.mapCore_others ..⟩
  · rw [if_neg hb.not_gt, if_pos hn, if_pos (by simpa using hp)]
  · rw [if_neg hb.not_gt, if_neg hn.not_gt, if_pos hn]; rfl
  · rw [if_neg hb.not_gt, if_neg hn.le.not_gt, if_neg hn.ge.not_gt]

/-! ## Addresses of bed accesses (R220, R37, R38) -/

section BedAddresses

variable {c : Core} {o : Int} {n : Nat} {w : Bool}

theorem bedPlain_misaligned (h : o % (n : Int) ≠ 0) : bedPlain c o n w = .bad illegalOperand := if_pos h

theorem bedPlain_outside (hal : o % (n : Int) = 0) (h : o < 0 ∨ o + (n : Int) > 0x180000) : bedPlain c o n w = .bad handleBound :=
  (if_neg (not_not.mpr hal)).trans (if_pos h)

theorem bedPlain_inside (hal : o % (n : Int) = 0) (hlo : 0 ≤ o) (hhi : o + (n : Int) ≤ 0x180000) :
    bedPlain c o n w = if w = true ∧ o < (c.sys.lineEnd : Int) then .bad handleBound else .bed o.toNat := by
  refine (if_neg (not_not.mpr hal)).trans ((if_neg (not_or.mpr ⟨hlo.not_gt, hhi.not_gt⟩)).trans ?_)
  simp only [Bool.and_eq_true, decide_eq_true_eq, Int.toNat_lt hlo]

/-- An aligned access by way of x2 inside the bed follows the stack's rules. -/
theorem bedAddr_stack (hal : ((c.x 2).toNat + o) % (n : Int) = 0) (hlo : 0 ≤ (c.x 2).toNat + o)
    (hhi : (c.x 2).toNat + o + (n : Int) ≤ 0x180000) : bedAddr c 2 o n w =
      if (c.x 2).toNat + o < (c.sys.spillBase.toNat : Int) then .redirect (overflowVa c.sys ((c.x 2).toNat + o))
      else if (c.x 2).toNat + o + (n : Int) > (c.sys.spillLimit.toNat : Int) then .bad handleBound
      else bedPlain c ((c.x 2).toNat + o) n w :=
  if_pos (by
    simp only [Bool.and_eq_true, decide_eq_true_eq, beq_iff_eq]
    exact ⟨⟨⟨trivial, hal⟩, hlo⟩, hhi⟩)

end BedAddresses

/-- Settles O20: where an access goes, and what refuses it. -/
theorem bedAddresses : Obligations.BedAddresses := by
  unfold Obligations.BedAddresses
  refine ⟨fun c base add n w hb hn => ⟨fun h => ?_, fun hal h => ?_, fun hal hlo hhi => ?_⟩,
    fun c add n w hn hal hlo hhi => ⟨fun h => ?_, fun h hl => ?_, fun h hl hw => ?_⟩⟩
  · rw [bedAddr_plain hb, bedPlain_misaligned h]
  · rw [bedAddr_plain hb, bedPlain_outside hal h]
  · rw [bedAddr_plain hb, bedPlain_inside hal hlo hhi]
  · rw [bedAddr_stack hal hlo hhi, if_pos h]; rfl
  · rw [bedAddr_stack hal hlo hhi, if_neg h.not_gt, if_pos hl]
  · rw [bedAddr_stack hal hlo hhi, if_neg h.not_gt, if_neg hl.not_gt, bedPlain_inside hal hlo hhi, hw]; rfl

end Sys2Proof.Proofs

namespace Sys2Proof.Proofs

open Sys2Proof Sys2Proof.Machine Sys2Proof.Laws

/-! ## Loads from the bed (R221, R222, R223) -/

section BedLoads

variable {s t : State} {d : PDest} {va n : Nat}

theorem pendLoad_room (k : ReqKind) (again : Option Again) (h : s.core.ld < 32) : pendLoad d k again s = .next (s.pendsLoad d k again) :=
  if_neg h.not_ge

theorem readLines_tagged {lines : List Nat} (land : State → Landing) (again : Again) (ht : s.unitTag lines .read = .ok t)
    (h : t.core.ld < 32) : readLines d va lines land again s = .next (t.pendsLoad d (.lands [land t]) (some again)) := by
  rw [readLines, ht]
  exact pendLoad_room _ _ h

theorem loadRuns_tagged {rs : List (Nat × Nat)} (land : LandForm) (hh : s.touchesHeader s.core.asid va n = false)
    (ht : s.unitTag (rs.flatMap (fun r => memLines r.1 r.2)) .read = .ok t) (h : t.core.ld < 32) : loadRuns d va n rs land s =
      .next (t.pendsLoad d (.lands [land.landing (rs.flatMap t.readRun) (rs.any t.runPoisoned)])
        (some (.mem s.core.ctl.issued va n land false))) := by
  rw [loadRuns, hh]
  exact readLines_tagged _ _ ht h

variable {base : RegNo} {add : Int} {lat off : Nat} {land : LandForm}

theorem loadBed_poisoned (h : s.core.xp base = true) : loadBed base add n lat d land s = fault poisonConsumed s := if_pos h

/-- What a bed load with a sound base does, by where its address lies. -/
theorem loadBed_sound (h : s.core.xp base = false) : loadBed base add n lat d land s = match bedAddr s.core base add n false with
    | .bad code => fault code s
    | .redirect va => match s.span s.core.asid va n .read with
      | .error (code, cause, _) => failLoad d code cause va s
      | .ok rs => loadRuns d va n rs land s
    | .bed o =>
      if s.core.tileHolds o n false then stall s
      else match s.unitTag (if o < s.core.sys.lineEnd then [] else bedLines s.core.id o n) .read with
        | .conflict => faultAt regionConflict 0 (bedVa s.core.id o) false true s
        | .full => stall s
        | .ok t => .next (t.sends (land.landing ((s.seenBed s.core.id).read o n) (linesPoisoned s.core.mem.poisoned o n)) lat) := by
  refine (if_neg (by simp [h])).trans ?_
  rfl

theorem loadBed_bad {code : BitVec 8} (h : s.core.xp base = false) (ha : bedAddr s.core base add n false = .bad code) :
    loadBed base add n lat d land s = fault code s := by rw [loadBed_sound h, ha]

theorem loadBed_bed (h : s.core.xp base = false) (ha : bedAddr s.core base add n false = .bed off)
    (hq : s.core.tileHolds off n false = false)
    (ht : s.unitTag (if off < s.core.sys.lineEnd then [] else bedLines s.core.id off n) .read = .ok t) : loadBed base add n lat d land s =
      .next (t.sends (land.landing ((s.seenBed s.core.id).read off n) (linesPoisoned s.core.mem.poisoned off n)) lat) := by
  rw [loadBed_sound h, ha]
  simp only [hq, Bool.false_eq_true, if_false, ht]

theorem loadBed_conflict (h : s.core.xp base = false) (ha : bedAddr s.core base add n false = .bed off)
    (hq : s.core.tileHolds off n false = false)
    (ht : s.unitTag (if off < s.core.sys.lineEnd then [] else bedLines s.core.id off n) .read = .conflict) :
    loadBed base add n lat d land s = faultAt regionConflict 0 (bedVa s.core.id off) false true s := by
  rw [loadBed_sound h, ha]
  simp only [hq, Bool.false_eq_true, if_false, ht]

theorem loadBed_redirect {rs : List (Nat × Nat)} (h : s.core.xp base = false) (ha : bedAddr s.core base add n false = .redirect va)
    (hs : s.span s.core.asid va n .read = .ok rs) (hh : s.touchesHeader s.core.asid va n = false)
    (ht : s.unitTag (rs.flatMap (fun r => memLines r.1 r.2)) .read = .ok t) (hl : t.core.ld < 32) : loadBed base add n lat d land s =
      .next (t.pendsLoad d (.lands [land.landing (rs.flatMap t.readRun) (rs.any t.runPoisoned)])
        (some (.mem s.core.ctl.issued va n land false))) := by
  rw [loadBed_sound h, ha]
  simp only [hs]
  exact loadRuns_tagged land hh ht hl

theorem ldBed_effective {o : ML} {sg : Bool} (h : Effective o.qp [.x o.base, .x o.rg] s) :
    ldBed o n sg s = loadBed o.base (o.off.toInt * (n : Int)) n 4 (.x o.rg) (.x o.rg n sg) s := begin_effective h

/-- The seven scalar loads are one operation, by their width and their extension. -/
theorem exec_scalarLoads {o : ML} {sg : Bool} {r : Res} (h : ldBed o n sg s = r) :
    (n = 1 → sg = true → exec (.ldb o) s = r) ∧ (n = 1 → sg = false → exec (.ldbz o) s = r) ∧
    (n = 2 → sg = true → exec (.ldh o) s = r) ∧ (n = 2 → sg = false → exec (.ldhz o) s = r) ∧
    (n = 4 → sg = true → exec (.ldw o) s = r) ∧ (n = 4 → sg = false → exec (.ldwz o) s = r) ∧
    (n = 8 → sg = false → exec (.ldd o) s = r) := by
  refine ⟨?_, ?_, ?_, ?_, ?_, ?_, ?_⟩ <;> (intro hn hs; subst hn hs; exact h)

theorem execVld_effective {o : MLTag} (h : Effective o.qp [.x o.base, .v o.rg] s) :
    execVld o s = loadBed o.base (o.off.toInt * 512) 512 5 (.v o.rg) (.v o.rg o.tag) s := begin_effective h

end BedLoads

section Gathers

variable {s t : State} {ls : List (Nat × Nat)} {n : Nat} {w : Bool}

theorem withLanes_free (k : State → Res) (hq : ls.any (fun e => s.core.tileHolds e.2 n w) = false) :
    withLanes n w ls s k = withRanges s.core.id (if w then .write else .read) (ls.map (fun e => (e.2, n))) s k :=
  if_neg (by simp only [hq, Bool.false_eq_true, not_false_eq_true])

theorem withRanges_tagged {core : Nat} {kind : AccKind} {l : List (Nat × Nat)} (k : State → Res) (h : s.tagRanges core kind l = .ok t) :
    withRanges core kind l s k = k t := by rw [withRanges, h]

theorem withRanges_conflict {core off : Nat} {kind : AccKind} {l : List (Nat × Nat)} (k : State → Res)
    (h : s.tagRanges core kind l = .error (some off)) :
    withRanges core kind l s k = faultAt regionConflict 0 (bedVa core off) (kind == .write) true s := by rw [withRanges, h]

/-- The lanes that VGATH writes: one that its mask leaves out keeps the old lane. -/
def gathered (ls : List (Nat × Nat)) (val : Nat → Nat) (old : VBits) : VBits :=
  packElems 4096 32 (((elemsOf old 32).zip (List.range 128)).map (fun e => ((lookup ls e.2).map val).getD e.1))

theorem lane_gathered (ls : List (Nat × Nat)) (val : Nat → Nat) (old : VBits) {i : Nat} (hi : i < 128) :
    (gathered ls val old).extractLsb' (32 * i) 32 =
      match lookup ls i with
      | some a => BitVec.ofNat 32 (val a)
      | none => old.extractLsb' (32 * i) 32 := by
  have hz := List.getElem?_zip_eq_some (z := ((old.extractLsb' (32 * i) 32).toNat, i)).mpr
    ⟨getElem?_elemsOf old (w := 32) (by omega), List.getElem?_range hi⟩
  rw [gathered, elem_packElems (by decide) _ (by omega), List.getD_eq_getElem?_getD, List.getElem?_map, hz, Option.map_some, Option.getD_some]
  cases lookup ls i with
  | none => exact elem_ofNat_toNat _
  | some a => rfl

/-- What lane a gather brings from address a. -/
def laneWord (sx : Bool) (bed : Memory) (n a : Nat) : Word :=
  if sx then sext (wordOfBytes (bed.read a n)) (8 * n) else zext (wordOfBytes (bed.read a n)) (8 * n)

theorem ofNat_mod_setWidth (w : Word) : BitVec.ofNat 32 (w.toNat % 2 ^ 32) = w.setWidth 32 := by
  apply BitVec.eq_of_toNat_eq
  simp

variable {o : MGath}

theorem execVgath_lanes (h : Effective o.qp [.x o.base, .v o.idx, .v o.rg] s) (hp : s.core.xp o.base = false)
    (hi : (s.core.v o.idx).poison = false)
    (hc : checkLanes s.core (2 ^ o.w.toNat) false (laneAddrs s.core o.km o.base o.idx) = .ok ls)
    (hq : ls.any (fun e => s.core.tileHolds e.2 (2 ^ o.w.toNat) false) = false) : execVgath o s =
      withRanges s.core.id .read (ls.map (fun e => (e.2, 2 ^ o.w.toNat))) s fun t =>
        if o.km != 0 && (s.core.v o.rg).tag != tINVALID && (s.core.v o.rg).tag != o.tag then fault formatMismatch t
        else .next (t.sendsV o.rg (gathered ls (fun a => (laneWord o.sx (t.seenBed s.core.id) (2 ^ o.w.toNat) a).toNat % 2 ^ 32)
          (s.core.v o.rg).bits) o.tag
          (ls.any (fun e => linesPoisoned s.core.mem.poisoned e.2 (2 ^ o.w.toNat)) || (o.km != 0 && (s.core.v o.rg).poison)) 5) := by
  rw [execVgath, begin_effective h]
  refine (if_neg (by simp [hp, hi])).trans ?_
  change (match checkLanes s.core (2 ^ o.w.toNat) false (laneAddrs s.core o.km o.base o.idx) with | .error code => _ | .ok ls => _) = _
  rw [hc]
  exact withLanes_free _ hq

end Gathers

/-- Settles O21: the value of each load, by where its address lies. -/
theorem bedLoads : Obligations.BedLoads := by
  unfold Obligations.BedLoads
  refine ⟨fun o s n sg h hp => ⟨fun off t ha hq ht => ?_, fun off ha hq ht => ?_, fun va rs t ha hs hh ht hl => ?_⟩,
    fun o s h hp => ⟨fun off t ha hq ht => ?_, fun va rs t ha hs hh ht hl => ?_⟩,
    fun o s t ls h hp hi hc hq ht hd => ?_, fun o s ls off h hp hi hc hq ht => ?_,
    fun o s h => ⟨fun hp => ?_, fun code hp ha => ?_⟩⟩
  · exact exec_scalarLoads ((ldBed_effective h).trans (loadBed_bed hp ha hq ht))
  · exact exec_scalarLoads ((ldBed_effective h).trans (loadBed_conflict hp ha hq ht))
  · exact exec_scalarLoads ((ldBed_effective h).trans (loadBed_redirect hp ha hs hh ht hl))
  · exact (execVld_effective h).trans (loadBed_bed hp ha hq ht)
  · exact (execVld_effective h).trans (loadBed_redirect hp ha hs hh ht hl)
  · refine ⟨_, (execVgath_lanes h hp hi hc hq).trans ((withRanges_tagged _ ht).trans (if_neg ?_)), fun i hi => ?_⟩
    · obtain hd | hd | hd := hd <;> simp [hd]
    · rw [lane_gathered _ _ _ hi]
      cases lookup ls i with
      | none => rfl
      | some a => exact ofNat_mod_setWidth _
  · exact (execVgath_lanes h hp hi hc hq).trans (withRanges_conflict _ ht)
  · exact (ldBed_effective h).trans (loadBed_poisoned hp)
  · exact (ldBed_effective h).trans (loadBed_bad hp ha)

end Sys2Proof.Proofs

namespace Sys2Proof.Proofs

open Sys2Proof Sys2Proof.Machine Sys2Proof.Laws

/-! ## Stores to a bed whose list of bytes is out of order (R288, log 1)

A bed is read by walking its list of bytes upwards, which misses a byte that the list holds out of order. Where a newer store of the gang
covers such a byte, the older store puts back what it has read there. O22 asks for the byte itself, of every bed, canonical or not. -/

/-- A core of a gang of two, its bed out of order at offset 3, which member 1 has written in a newer bundle. -/
def disorderly : State := { State.reset with
  core := { Core.reset 0 with
    unit := some ⟨true, 1, 0, 0, 0, 2, 0, 0, 0, 0, false, false, none, none⟩
    mem := ⟨[(5, 1), (3, 1)], [], []⟩
    rg := { (Core.reset 0).rg with log := [⟨1, 1, bedPlace 0 3, [1], [1]⟩] } } }

/-- STD of x0 to offset 0. -/
def storeZero : ML := ⟨0, 0, 0, 0⟩

theorem disorderly_numbered : disorderly.Numbered := by
  intro n
  by_cases hn : (0 : Nat) = n
  · rw [State.coreOf, if_pos (show disorderly.core.id = n from hn)]; exact hn
  · rw [State.coreOf, if_neg (show disorderly.core.id ≠ n from hn)]; rfl

theorem disorderly_tags : ∃ t, disorderly.unitTag (bedLines disorderly.core.id 0 8) .write = .ok t := by
  have h : (match disorderly.unitTag (bedLines disorderly.core.id 0 8) .write with | .ok _ => true | _ => false) = true := by decide +kernel
  cases e : disorderly.unitTag (bedLines disorderly.core.id 0 8) .write with
  | ok t => exact ⟨t, rfl⟩
  | conflict => rw [e] at h; exact absurd h (by decide)
  | full => rw [e] at h; exact absurd h (by decide)

/-- The byte that the store leaves at offset 3. -/
theorem disorderly_leaves :
    (match exec (.std storeZero) disorderly with | .next u => u.core.mem.bed.get 3 | _ => 1) = 0 := by decide +kernel

/-- Refutes O22: the byte of the newer store reads 1 before STD, and 0 behind it. -/
theorem not_bedStores : ¬ Obligations.BedStores := by
  unfold Obligations.BedStores
  rintro ⟨scalar, -⟩
  obtain ⟨t, ht⟩ := disorderly_tags
  obtain ⟨stored, -⟩ := (scalar storeZero disorderly 8 disorderly_numbered (by decide +kernel) (by decide +kernel) (by decide +kernel)
    (by decide)).1 0 t (by decide +kernel) (by decide +kernel) ht
  obtain ⟨u, hu, ⟨hbytes, -⟩, -⟩ := stored (by decide +kernel)
  have kept : u.core.mem.bed.get 3 = 1 := (hbytes 3 (by decide)).trans (by decide +kernel)
  have lost : u.core.mem.bed.get 3 = 0 := by
    have h := disorderly_leaves
    rw [show exec (.std storeZero) disorderly = .next u from hu] at h
    exact h
  exact absurd (kept.symm.trans lost) (by decide)

end Sys2Proof.Proofs

namespace Sys2Proof.Proofs

open Sys2Proof Sys2Proof.Machine Sys2Proof.Laws

/-! ## Stores to another core's bed that stands under a wrong number (R225, R343)

A handler's store changes the core that the address names. Where a core stands under another number than its own, and its own is that of the
core in focus, the store puts it in focus: it runs no handler, so that its gang's record of the store is made. O23 asks for the store alone,
of every state, its cores numbered or not. -/

/-- A gang of two cores. -/
def gangOfTwo : UnitInfo := ⟨true, 1, 0, 0, 0, 2, 0, 0, 0, 0, false, false, none, none⟩

/-- A handler of core 0; under number 1 stands a core that takes itself for core 0. -/
def misnumbered : State := { State.reset with
  core := { Core.reset 0 with r := Regs.launch.setX 1 ⟨0x200000, false⟩, sys := { Sys.reset with intrap := true }, unit := some gangOfTwo }
  others := [(1, { Core.reset 0 with unit := some gangOfTwo })] }

/-- RST of x0 to offset 0 of the bed that x1 names. -/
def storeRemoteZero : ML := ⟨0, 0, 1, 0⟩

/-- The record that the store leaves with its gang. -/
theorem misnumbered_logs :
    (match exec (.rst storeRemoteZero) misnumbered with | .next u => u.core.rg.log.length | _ => 0) = 1 := by decide +kernel

/-- Refutes O23: the record stands in the state behind RST, and not in the state that O23 gives. -/
theorem not_remoteBed : ¬ Obligations.RemoteBed := by
  unfold Obligations.RemoteBed
  rintro ⟨-, -, store, -⟩
  have h := (store storeRemoteZero misnumbered 1 0 (by decide +kernel) (by decide +kernel) (by decide +kernel) (by decide +kernel)).2
    (by decide +kernel) (by decide +kernel) (by decide +kernel)
  have logged := misnumbered_logs
  rw [h] at logged
  exact absurd logged (by decide +kernel)

end Sys2Proof.Proofs

namespace Sys2Proof.Proofs

open Sys2Proof Sys2Proof.Machine Sys2Proof.Laws

/-! ## Accesses through handles (R226 to R230) -/

section Handles

variable {s t u : State} {hn : BitVec 4} {xi : RegNo} {off : Int} {n va pa : Nat} {write : Bool}

theorem throughHandle_none (h : (s.core.h hn).st = .none) : s.throughHandle hn xi off n write = (s, .bad illegalOperand 0) :=
  if_pos (by rw [h]; rfl)

theorem throughHandle_misaligned (h : (s.core.h hn).st ≠ .none) (hal : handleVa (s.core.h hn) (s.core.x xi) off n % n ≠ 0) :
    s.throughHandle hn xi off n write = (s, .bad illegalOperand (handleVa (s.core.h hn) (s.core.x xi) off n)) :=
  (if_neg (by simpa using h)).trans (if_pos hal)

/-- An aligned access through a VALID handle: it stays in the handle's page and keeps to its rights. -/
theorem throughHandle_valid (h : (s.core.h hn).st = .valid) (hal : handleVa (s.core.h hn) (s.core.x xi) off n % n = 0) :
    s.throughHandle hn xi off n write =
      (let h := s.core.h hn
       let va := handleVa h (s.core.x xi) off n
       if va < h.base ∨ h.base + pageBytes h.size < va + n then (s, .bad handleBound va)
       else if write && !h.w then (s, .failed permission 4 va)
       else if !write && !h.r then (s, .failed permission 3 va)
       else match s.fabricFail s.core.asid h.pa (if write then .write else .read) with
         | some (code, cause) => (s, .failed code cause va)
         | none => (s, .at_ va (h.pa + (va - h.base)))) := by
  refine (if_neg (by rw [h]; decide)).trans ((if_neg (not_not.mpr hal)).trans ?_)
  simp only [h, beq_self_eq_true, bne_self_eq_false, Bool.false_eq_true, if_true, if_false] <;> rfl

variable {d : PDest} {land : LandForm}

theorem loadHandle_at (hp : s.core.xp xi = false) (ha : s.throughHandle hn xi off n false = (t, .at_ va pa))
    (hh : t.touchesHeader t.core.asid va n = false) (ht : t.unitTag (memLines pa n) .read = .ok u) (hl : u.core.ld < 32) :
    loadHandle (hn, xi, off) n d land s = .next (u.pendsLoad d (.lands [land.landing (u.readRun (pa, n)) (u.runPoisoned (pa, n))])
      (some (.mem t.core.ctl.issued va n land false))) := by
  refine (if_neg (by simp [hp])).trans ?_
  have e := loadRuns_tagged (d := d) (rs := [(pa, n)]) land hh (by simpa using ht) hl
  simp only [List.flatMap_cons, List.flatMap_nil, List.append_nil, List.any_cons, List.any_nil, Bool.or_false] at e
  simp only [ha]
  exact e

theorem loadHandle_failed {code : BitVec 8} {cause : Nat} (hp : s.core.xp xi = false)
    (ha : s.throughHandle hn xi off n false = (t, .failed code cause va)) (hl : t.core.ld < 32) : loadHandle (hn, xi, off) n d land s =
      .next (t.pendsLoad d (.failed (asRollback (accessFault code cause slotM va false))) none) := by
  refine (if_neg (by simp [hp])).trans ?_
  simp only [ha]
  exact pendLoad_room _ _ hl

theorem loadHandle_bad {code : BitVec 8} (hp : s.core.xp xi = false) (ha : s.throughHandle hn xi off n false = (t, .bad code va)) :
    loadHandle (hn, xi, off) n d land s = faultAt code 0 va false false t := by
  refine (if_neg (by simp [hp])).trans ?_
  simp only [ha]

theorem gld_effective {o : MG} (h : Effective o.qp [.x o.xi, .h o.h, .x o.rg] s) :
    gld o n s = loadHandle (o.h, o.xi, o.off.toInt) n (.x o.rg) (.x o.rg n false) s := begin_effective h

theorem execGvld_effective {o : MGTag} (h : Effective o.qp [.x o.xi, .h o.h, .v o.rg] s) :
    execGvld o s = loadHandle (o.h, o.xi, o.off.toInt) 512 (.v o.rg) (.v o.rg o.tag) s := begin_effective h

theorem glds_at {o : MG} (h : Effective o.qp [.x o.xi, .h o.h, .x o.rg] s) (hp : s.core.xp o.xi = false)
    (ha : s.throughHandle o.h o.xi o.off.toInt n false = (t, .at_ va pa)) (hh : t.touchesHeader t.core.asid va n = false)
    (ht : t.unitTag (memLines pa n) .read = .ok u) (hl : u.core.ld < 32) : glds o n s =
      .next (u.pendsLoad (.x o.rg) (.lands [.x o.rg (zext (wordOfBytes (u.readRun (pa, n))) (8 * n)) (u.runPoisoned (pa, n))])
        (some (.mem s.core.ctl.issued va n (.x o.rg n false) true))) := by
  refine (begin_effective h).trans ((if_neg (by simp [hp])).trans ?_)
  simp only [ha, hh, Bool.false_eq_true, if_false, ht]
  exact pendLoad_room _ _ hl

theorem glds_failed {o : MG} {code : BitVec 8} {cause : Nat} (h : Effective o.qp [.x o.xi, .h o.h, .x o.rg] s)
    (hp : s.core.xp o.xi = false) (ha : s.throughHandle o.h o.xi o.off.toInt n false = (t, .failed code cause va)) (hl : t.core.ld < 32) :
    glds o n s = .next (t.pendsLoad (.x o.rg) (.lands [.x o.rg (BitVec.ofNat 64 (cause % 256 * 256 + code.toNat)) true]) none) := by
  refine (begin_effective h).trans ((if_neg (by simp [hp])).trans ?_)
  simp only [ha]
  exact pendLoad_room _ _ hl

theorem execPref_effective {o : MPref} (h : Effective o.qp [.x o.xi, .h o.h] s) (hp : s.core.xp o.xi = false) : execPref o s =
    if (s.core.h o.h).st == .none then fault illegalOperand s
    else .next { s with core := if (s.core.h o.h).st == .valid then s.core else (s.rewalk s.core o.h).1 } :=
  (begin_effective h).trans (if_neg (by simp [hp]))

/-- A translation cached changes the core's memory side alone. -/
theorem tlbFill_mem (c : Core) (e : TlbEnt) : ∃ m, c.tlbFill e = { c with mem := m } := by
  unfold Core.tlbFill
  dsimp only
  split
  · exact ⟨_, rfl⟩
  · split
    · exact ⟨c.mem, rfl⟩
    · exact ⟨_, rfl⟩

/-- A walk made again leaves all of a core but the handle and the translations it caches. -/
theorem rewalk_frame (c : Core) (hn : BitVec 4) : let k := (s.rewalk c hn).1
    k.r.x = c.r.x ∧ k.r.v = c.r.v ∧ k.f = c.f ∧ k.acc = c.acc ∧ k.sys = c.sys ∧ k.ctl = c.ctl := by
  unfold State.rewalk
  obtain ⟨h, _ | e⟩ := s.resolve c (c.h hn).ah
  · exact ⟨rfl, rfl, rfl, rfl, rfl, rfl⟩
  · obtain ⟨m, hm⟩ := tlbFill_mem c e
    simp only [hm, Regs.setH, and_self]

end Handles

/-- Settles O24: how an access through a handle goes on, and what the load makes of it. -/
theorem globalLoads : Obligations.GlobalLoads := by
  unfold Obligations.GlobalLoads
  refine ⟨fun o s t u n va pa h hp ha hh ht hl => ?_, fun o s t u va pa h hp ha hh ht hl => ?_,
    fun o s t code cause va h hp ha hl => ⟨?_, glds_failed h hp ha hl⟩, fun s hn xi off n write hn0 => ?_,
    fun o s t code va h hp ha => (gld_effective h).trans (loadHandle_bad hp ha), fun o s h hp => ?_⟩
  · have load : gld o n s = _ := (gld_effective h).trans (loadHandle_at hp ha hh ht hl)
    have speculative : glds o n s = _ := glds_at h hp ha hh ht hl
    refine ⟨?_, ?_, ?_, ?_⟩ <;> rintro rfl
    · exact load
    · exact load
    · exact ⟨load, speculative⟩
    · exact ⟨load, speculative⟩
  · exact (execGvld_effective h).trans (loadHandle_at hp ha hh ht hl)
  · exact (gld_effective h).trans (loadHandle_failed hp ha hl)
  · refine ⟨throughHandle_none, throughHandle_misaligned, fun hv hal hout => ?_, fun hv hal hlo hhi hr hf => ?_⟩
    · exact (throughHandle_valid hv hal).trans (if_pos hout)
    · refine (throughHandle_valid hv hal).trans ?_
      have inside := not_or.mpr ⟨Nat.not_lt.mpr hlo, Nat.not_lt.mpr hhi⟩
      cases write <;> simp_all [handleVa]
  · refine ⟨fun hv => ?_, fun hv => ?_, fun hv hn => ⟨(s.rewalk s.core o.h).1, ?_, rewalk_frame _ _⟩⟩
    · exact (execPref_effective h hp).trans (by rw [hv]; rfl)
    · exact (execPref_effective h hp).trans (by rw [hv]; rfl)
    · exact (execPref_effective h hp).trans (by rw [if_neg (by simpa using hn), if_neg (by simpa using hv)])

/-! ## Stores through handles (R227, R228, R343) -/

section GlobalStores

variable {s t : State} {hn : BitVec 4} {xi : RegNo} {off : Int} {n va pa : Nat} {bs : List Byte}

/-- An access through a handle changes no memory. -/
theorem throughHandle_mem (s : State) (hn : BitVec 4) (xi : RegNo) (off : Int) (n : Nat) (w : Bool) :
    (s.throughHandle hn xi off n w).1.mem = s.mem := by
  unfold State.throughHandle
  generalize (if w then Need.write else .read) = need
  dsimp only
  split
  · rfl
  split
  · rfl
  generalize (if ((s.core.h hn).st == .valid) = true then (s.core, s.core.h hn) else s.rewalk s.core hn) = r
  obtain ⟨c, h⟩ := r
  dsimp only
  repeat' split
  all_goals rfl

/-- Outside a handler a store of one run goes into the gate. -/
theorem gateStore_gates {rs : List (Nat × Nat)} (hh : s.touchesHeader s.core.asid va bs.length = false) (hi : s.core.sys.intrap = false) :
    gateStore va (.ok rs) bs s = if s.core.gateFull = true then fault gateOverflow s else .next (s.gates (.store va (layRuns rs bs))) := by
  rw [gateStore, hh]
  simp only [Bool.false_eq_true, if_false, hi]
  rfl

/-- A failed store goes in with its fault. -/
theorem gateStore_failed {code : BitVec 8} {cause : Nat} (hh : s.touchesHeader s.core.asid va bs.length = false)
    (hi : s.core.sys.intrap = false) (hg : s.core.gateFull = false) : gateStore va (.error (code, cause)) bs s =
      .next (s.mapCore (·.gateAdd (.store va []) (some (asRollback (accessFault code cause slotM va true))))) := by
  rw [gateStore, hh]
  simp only [Bool.false_eq_true, if_false, hi, hg]
  rfl

theorem layRuns_one (pa : Nat) (bs : List Byte) : layRuns [(pa, bs.length)] bs = [(pa, bs)] := by
  simp [layRuns]

/-- Sealing a line changes memory and what it is sealed by alone. -/
theorem sealLine_frame (s : State) (key : Option Nat) (line : Nat) : ∃ m l, s.sealLine key line = { s with mem := m, sealed := l } := by
  unfold State.sealLine
  dsimp only
  split
  · split
    · exact ⟨s.mem, s.sealed, rfl⟩
    · exact ⟨_, _, rfl⟩
  · split
    · exact ⟨s.mem, s.sealed, rfl⟩
    · exact ⟨s.mem, _, rfl⟩

theorem sealLines_frame (key : Option Nat) (ls : List Nat) : ∀ s : State,
    ∃ m l, ls.foldl (·.sealLine key) s = { s with mem := m, sealed := l } := by
  induction ls with
  | nil => exact fun s => ⟨s.mem, s.sealed, rfl⟩
  | cons a ls ih =>
    intro s
    obtain ⟨m, l, e⟩ := sealLine_frame s key a
    obtain ⟨m', l', e'⟩ := ih (s.sealLine key a)
    exact ⟨m', l', by rw [List.foldl_cons, e', e]⟩

/-- A store to device memory changes it, what it is sealed by and its poison alone. -/
theorem storeAt_frame (s : State) (asid va pa : Nat) (bs : List Byte) :
    ∃ m l p, s.storeAt asid va pa bs = { s with mem := m, sealed := l, poisoned := p } := by
  obtain ⟨m, l, e⟩ := sealLines_frame (s.keyAt asid va) (memLines pa bs.length) s
  exact ⟨_, l, _, by rw [State.storeAt, State.seal, e]; rfl⟩

theorem storeAt_core (s : State) (asid va pa : Nat) (bs : List Byte) : (s.storeAt asid va pa bs).core = s.core := by
  obtain ⟨m, l, p, e⟩ := storeAt_frame s asid va pa bs
  rw [e]

/-- A handler's store of a unit that is not provisional reaches device memory at once. -/
theorem performRun_handler {idx : Nat} (hi : s.core.sys.intrap = true) (hpa : pa < clPagePa) (hp : s.provOf s.core = none) :
    s.performRun va idx (pa, bs) = some (s.storeAt s.core.asid va pa bs) := by
  have hport : ¬ pa ≥ portPa := by
    have : clPagePa ≤ portPa := by decide
    omega
  have hlog (u b : State) (e : TeamStore) (hu : u.core.sys.intrap = true) : u.logStore e b = u := by
    rw [State.logStore, if_pos (by simp [hu])]
  rw [State.performRun, if_neg hport, if_neg hpa.not_ge, hp]
  simp only [hlog (s.storeAt s.core.asid va pa bs) _ _ (by rw [storeAt_core]; exact hi)]

theorem gateStore_handler (hh : s.touchesHeader s.core.asid va bs.length = false) (hi : s.core.sys.intrap = true) (hpa : pa < clPagePa)
    (hp : s.provOf s.core = none) : gateStore va (.ok [(pa, bs.length)]) bs s = .next (s.storeAt s.core.asid va pa bs) := by
  rw [gateStore, hh]
  simp only [Bool.false_eq_true, if_false, hi, if_true, layRuns_one, State.performEntry, List.foldl_cons, List.foldl_nil, Option.bind_some,
    performRun_handler hi hpa hp]

theorem storeHandle_at (ha : s.throughHandle hn xi off bs.length true = (t, .at_ va pa)) :
    storeHandle (hn, xi, off) bs s = gateStore va (.ok [(pa, bs.length)]) bs t := by
  unfold storeHandle
  simp only [ha]

theorem storeHandle_failed {code : BitVec 8} {cause : Nat} (ha : s.throughHandle hn xi off bs.length true = (t, .failed code cause va)) :
    storeHandle (hn, xi, off) bs s = gateStore va (.error (code, cause)) bs t := by
  unfold storeHandle
  simp only [ha]

theorem gst_sound {o : MG} (h : Effective o.qp [.x o.xi, .h o.h, .x o.rg] s) (hx : s.core.xp o.xi = false) (hr : s.core.xp o.rg = false) :
    gst o n s = storeHandle (o.h, o.xi, o.off.toInt) (bytesOf (s.core.x o.rg) n) s :=
  (begin_effective h).trans (if_neg (by simp [hx, hr]))

theorem execGvst_sound {o : MGV} (h : Effective o.qp [.x o.xi, .h o.h, .v o.rg] s) (hx : s.core.xp o.xi = false)
    (hr : (s.core.v o.rg).poison = false) : execGvst o s = storeHandle (o.h, o.xi, o.off.toInt) (bytesOf (s.core.v o.rg).bits 512) s :=
  (begin_effective h).trans (if_neg (by simp [hx, hr]))

/-- The four scalar stores are one operation, by their width. -/
theorem exec_scalarStore {o : MG} (hn : n = 1 ∨ n = 2 ∨ n = 4 ∨ n = 8) :
    exec (if n = 1 then Instr.gstb o else if n = 2 then .gsth o else if n = 4 then .gstw o else .gstd o) s = gst o n s := by
  obtain rfl | rfl | rfl | rfl := hn <;> rfl

end GlobalStores

/-- Settles O25: the gate's entry, or a handler's store. -/
theorem globalStores : Obligations.GlobalStores := by
  unfold Obligations.GlobalStores
  refine ⟨fun o s t n va pa h hx hr ha hh hn => ⟨?_, fun hi => ?_, fun hi hpa hp => ?_⟩, fun o s t va pa h hx hr ha hh hi => ?_,
    fun o s t code cause va h hx hr ha hi hg hh => ?_⟩
  · have := throughHandle_mem s o.h o.xi o.off.toInt n true
    rwa [ha] at this
  all_goals
    try rw [exec_scalarStore hn, gst_sound h hx hr]
  · rw [storeHandle_at (by rwa [length_bytesOf]), gateStore_gates (by rwa [length_bytesOf]) hi, layRuns_one]
  · rw [storeHandle_at (by rwa [length_bytesOf]), gateStore_handler (by rwa [length_bytesOf]) hi hpa hp]
  · refine (execGvst_sound h hx hr).trans ?_
    rw [storeHandle_at (by rwa [length_bytesOf]), gateStore_gates (by rwa [length_bytesOf]) hi, layRuns_one]
  · refine (gst_sound h hx hr).trans ?_
    rw [storeHandle_failed (by rwa [length_bytesOf]), gateStore_failed (by rwa [length_bytesOf]) hi hg]

end Sys2Proof.Proofs

namespace Sys2Proof.Proofs

open Sys2Proof Sys2Proof.Machine Sys2Proof.Laws

/-! ## Handles (R334, R335, R336) -/

/-- The high bits of a word are zero where the word is small. -/
theorem field_high_eq_zero {w n : Nat} {v : BitVec w} (m : Nat) (hw : w = n + m) : field v n m = 0 ↔ v.toNat < 2 ^ n := by
  refine ⟨fun h => toNat_lt_of_field_zero m hw (by rw [h]; exact beq_self_eq_true _), fun h => ?_⟩
  apply BitVec.eq_of_toNat_eq
  rw [field, BitVec.extractLsb'_toNat, Nat.shiftRight_eq_div_pow, Nat.div_eq_of_lt h]
  rfl

section HandleInstructions

variable {s : State}

theorem execXlat_sound {o : MXlat} (h : Effective o.qp [.x o.a, .h o.d] s) (hp : s.core.xp o.a = false) : execXlat o s =
    if field (s.core.x o.a) 56 8 != 0 || (windowOf (s.core.x o.a).toNat).isSome then fault illegalOperand s
    else match s.core.tlbHit s.core.asid (s.core.x o.a).toNat with
      | some (e, c) => .next { s with core := c.push (.h o.d (e.handle (s.core.x o.a))) 8 }
      | none => .next (s.mapCore (fun c => { c with
        pipe := c.pipe.pend c.ctl.slot [.h o.d] false none (.lands [.h o.d ⟨.pending, s.core.x o.a, 0, 0, 0, false, false, 0, 0⟩]) })) :=
  (begin_effective h).trans (if_neg (by simp [hp]))

/-- XLAT of an address of 56 bits outside the windows. -/
theorem execXlat_translates {o : MXlat} (h : Effective o.qp [.x o.a, .h o.d] s) (hp : s.core.xp o.a = false)
    (hlt : (s.core.x o.a).toNat < 2 ^ 56) (hw : windowOf (s.core.x o.a).toNat = none) : execXlat o s =
      match s.core.tlbHit s.core.asid (s.core.x o.a).toNat with
      | some (e, c) => .next { s with core := c.push (.h o.d (e.handle (s.core.x o.a))) 8 }
      | none => .next (s.mapCore (fun c => { c with
        pipe := c.pipe.pend c.ctl.slot [.h o.d] false none (.lands [.h o.d ⟨.pending, s.core.x o.a, 0, 0, 0, false, false, 0, 0⟩]) })) := by
  rw [execXlat_sound h hp, if_neg (by simp [(field_high_eq_zero 8 rfl).mpr hlt, hw])]

theorem execXlat_refuses {o : MXlat} (h : Effective o.qp [.x o.a, .h o.d] s) (hp : s.core.xp o.a = false)
    (hv : 2 ^ 56 ≤ (s.core.x o.a).toNat ∨ windowOf (s.core.x o.a).toNat ≠ none) : execXlat o s = fault illegalOperand s := by
  rw [execXlat_sound h hp, if_pos]
  rw [Bool.or_eq_true, bne_iff_ne, Option.isSome_iff_ne_none]
  exact hv.imp (fun hge hz => hge.not_gt ((field_high_eq_zero 8 rfl).mp hz)) id

theorem execHrel_sends {o : MHrel} (h : Effective o.qp [.h o.d] s) : execHrel o s = .next (s.sends (.h o.d Handle.none) 1) :=
  begin_effective h

theorem execHinfo_sends {o : MHinfo} (h : Effective o.qp [.h o.a, .x o.d] s) :
    execHinfo o s = .next (s.sendsX o.d (handleWord (s.core.h o.a)) false 1) := begin_effective h

theorem execHinfoVa_sends {o : MHinfo} (h : Effective o.qp [.h o.a, .x o.d] s) :
    execHinfoVa o s = .next (s.sendsX o.d (s.core.h o.a).ah false 1) := begin_effective h

theorem handleWord_valid {h : Handle} (hv : h.st = .valid) :
    handleWord h = 1#2 ++ 0#2 ++ BitVec.ofNat 4 h.size ++ field (BitVec.ofNat 64 h.base) 12 44 ++ boolW 1 h.w ++ boolW 1 h.r ++ 0#10 := by
  rw [handleWord, hv]

end HandleInstructions

theorem getLsbD_boolW (b : Bool) : (boolW 1 b).getLsbD 0 = b := by cases b <;> rfl

/-- Settles O26: a hit, a miss, a refusal; the words that HINFO reads. -/
theorem handles : Obligations.Handles := by
  unfold Obligations.Handles
  refine ⟨fun o s h hp => ⟨fun hlt hw => ⟨fun e c hc => ?_, fun hc => ?_⟩, fun hv => execXlat_refuses h hp hv⟩,
    fun o s h => execHrel_sends h,
    fun o s h => ⟨execHinfo_sends h, execHinfoVa_sends h, fun hn => ?_, fun hs => ?_, fun hv => ⟨?_, ?_, ?_⟩⟩⟩
  · exact (execXlat_translates h hp hlt hw).trans (by rw [hc])
  · exact (execXlat_translates h hp hlt hw).trans (by rw [hc])
  · rw [handleWord, hn]
  · rw [handleWord, hs]
  · rw [handleWord_valid hv]
    exact (field_hi _ _ 62 2 (by decide)).trans ((field_hi _ _ 52 2 (by decide)).trans ((field_hi _ _ 51 2 (by decide)).trans
      ((field_hi _ _ 50 2 (by decide)).trans ((field_hi _ _ 6 2 (by decide)).trans ((field_hi _ _ 2 2 (by decide)).trans rfl)))))
  · rw [handleWord_valid hv]
    exact (bit_hi _ _ 10 (by decide)).trans ((bit_lo _ _ 0 (by decide)).trans (getLsbD_boolW _))
  · rw [handleWord_valid hv]
    exact (bit_hi _ _ 11 (by decide)).trans ((bit_hi _ _ 1 (by decide)).trans ((bit_lo _ _ 0 (by decide)).trans (getLsbD_boolW _)))

/-! ## Copy-engine commands (R233 to R240) -/

section Queueing

variable {s : State} {qu : BitVec 2} {cmd : Cmd}

/-- Outside a handler a command goes into the gate. -/
theorem queueCmd_gates (hi : s.core.sys.intrap = false) (hg : s.core.gateFull = false) : queueCmd qu cmd s = .next (s.queues qu cmd) := by
  rw [queueCmd]
  simp only [hi, hg, Bool.false_eq_true, if_false]
  rfl

theorem queueCmd_overflows (hi : s.core.sys.intrap = false) (hg : s.core.gateFull = true) : queueCmd qu cmd s = fault gateOverflow s := by
  rw [queueCmd]
  simp only [hi, hg, Bool.false_eq_true, if_false, if_true]

/-- In a handler it enters its queue at once, without tags, or waits for a place. -/
theorem queueCmd_handler (hi : s.core.sys.intrap = true) : queueCmd qu cmd s =
    if (s.core.queue qu.toNat).full then stall s
    else .next (s.mapCore (·.enqueueCmd qu.toNat
      ⟨cmd, s.core.pipe.seq, false, (s.provOf s.core).map (·.2), none, none, 0, Progress.start⟩)) := by
  rw [queueCmd]
  simp only [hi, if_true]
  rfl

theorem engineOp_poisoned {qp : PredNo} {xs : List RegNo} {k : State → Res} (h : Effective qp (xs.map .x) s)
    (p : ∃ x ∈ xs, s.core.xp x = true) : engineOp qp xs s k = fault poisonConsumed s := by
  rw [engineOp, begin_effective h, if_pos (by simpa using p)]

theorem isVa_iff {w : Word} : isVa w = true ↔ w.toNat < 2 ^ 56 := by
  rw [isVa, beq_iff_eq, field_high_eq_zero 8 rfl]

theorem sigCount_iff {g n : Word} : sigCount g n = true ↔ g.toNat < 2 ^ 8 ∧ n.toNat < 2 ^ 16 ∧ 0 < n.toNat := by
  rw [sigCount, Bool.and_eq_true, Bool.and_eq_true, beq_iff_eq, beq_iff_eq, bne_iff_ne, field_high_eq_zero 56 rfl, field_high_eq_zero 48 rfl,
    and_assoc, Nat.pos_iff_ne_zero, ne_eq, ne_eq, ← BitVec.toNat_inj]
  rfl

/-- The numeric value of a field. -/
theorem toNat_field {w : Nat} (x : BitVec w) (lo n : Nat) : (field x lo n).toNat = x.toNat / 2 ^ lo % 2 ^ n := by
  rw [field, BitVec.extractLsb'_toNat, Nat.shiftRight_eq_div_pow]

end Queueing

section Copies

variable {s : State} {o : MCQ}

/-- The three registers of a copy are readable and sound. -/
structure Sound3 (o : MCQ) (s : State) : Prop where
  eff : Effective o.qp [.x o.d, .x o.a, .x o.b] s
  d : s.core.xp o.d = false
  a : s.core.xp o.a = false
  b : s.core.xp o.b = false

theorem Sound3.starts {k : State → Res} (h : Sound3 o s) : engineOp o.qp [o.d, o.a, o.b] s k = k s :=
  engineOp_effective h.eff (by simp [h.d, h.a, h.b])

theorem execCopy_queues (h : Sound3 o s) (hd : (s.core.x o.d).toNat < 2 ^ 56) (ha : (s.core.x o.a).toNat < 2 ^ 56)
    (hb : (s.core.x o.b).toNat < 2 ^ 32) :
    execCopy o s = queueCmd o.qu (.copy (s.core.x o.d).toNat (s.core.x o.a).toNat (s.core.x o.b).toNat) s :=
  h.starts.trans (if_neg (by simp [isVa_iff.mpr hd, isVa_iff.mpr ha, (field_high_eq_zero 32 rfl).mpr hb]))

theorem execCopy_poisoned (h : Effective o.qp [.x o.d, .x o.a, .x o.b] s)
    (hp : s.core.xp o.d = true ∨ s.core.xp o.a = true ∨ s.core.xp o.b = true) : execCopy o s = fault poisonConsumed s :=
  engineOp_poisoned (xs := [o.d, o.a, o.b]) h (by simpa using hp)

theorem execCopyIn_queues {g : SigDecl} (h : Sound3 o s) (hg : s.core.decl (s.core.x o.d).toNat = some g)
    (hd : (s.core.x o.d).toNat < 2 ^ 8) (ha : (s.core.x o.a).toNat < 2 ^ 56) (hb0 : 0 < (s.core.x o.b).toNat)
    (hb : (s.core.x o.b).toNat < 2 ^ 16) (hk : g.kind = 2) (hq : g.queue = o.qu.toNat) :
    execCopyIn o s = queueCmd o.qu (.copyIn (s.core.x o.d).toNat (s.core.x o.a).toNat (s.core.x o.b).toNat) s := by
  refine h.starts.trans ((if_neg (by simp [isVa_iff.mpr ha, sigCount_iff.mpr ⟨hd, hb, hb0⟩])).trans ?_)
  simp only [execCopyIn.withSig, hg, Option.map_some, Option.getD_some]
  exact if_neg (by simp [hk, hq])

theorem execCopyOut_queues {g : SigDecl} (h : Sound3 o s) (hg : s.core.decl (s.core.x o.a).toNat = some g)
    (ha : (s.core.x o.a).toNat < 2 ^ 8) (hd : (s.core.x o.d).toNat < 2 ^ 56) (hb0 : 0 < (s.core.x o.b).toNat)
    (hb : (s.core.x o.b).toNat < 2 ^ 16) (hk : g.kind = 3) :
    execCopyOut o s = queueCmd o.qu (.copyOut (s.core.x o.d).toNat (s.core.x o.a).toNat (s.core.x o.b).toNat) s := by
  refine h.starts.trans ((if_neg (by simp [isVa_iff.mpr hd, sigCount_iff.mpr ⟨ha, hb, hb0⟩])).trans ?_)
  simp only [hg]
  exact if_neg (by simp [hk])

theorem execCopy2d_queues (h : Sound3 o s) (hd : (s.core.x o.d).toNat < 2 ^ 56) (ha : (s.core.x o.a).toNat < 2 ^ 56)
    (hpend : s.core.pendOn (.x (o.b + 1)) = none) (hp : s.core.xp (o.b + 1) = false) : execCopy2d o s =
      queueCmd o.qu (.copy2d (s.core.x o.d).toNat (s.core.x o.a).toNat ((s.core.x o.b).toNat % 2 ^ 32) ((s.core.x o.b).toNat / 2 ^ 32)
        ((s.core.x (o.b + 1)).setWidth 32).toInt ((s.core.x (o.b + 1)).extractLsb' 32 32).toInt) s := by
  have eff : Effective o.qp ([o.d, o.a, o.b, o.b + 1].map .x) s := ⟨h.eff.1, by
    have := h.eff.2
    simp only [List.map_cons, List.map_nil, List.forall_mem_cons, List.not_mem_nil, false_imp_iff, implies_true, and_true] at this ⊢
    obtain ⟨pd, pa, pb⟩ := this
    exact ⟨pd, pa, pb, hpend⟩⟩
  have lo : (field (s.core.x o.b) 0 32).toNat = (s.core.x o.b).toNat % 2 ^ 32 := by rw [toNat_field, Nat.pow_zero, Nat.div_one]
  have hi : (field (s.core.x o.b) 32 32).toNat = (s.core.x o.b).toNat / 2 ^ 32 := by
    rw [toNat_field, Nat.mod_eq_of_lt (by have := (s.core.x o.b).isLt; omega)]
  have low : field (s.core.x (o.b + 1)) 0 32 = (s.core.x (o.b + 1)).setWidth 32 :=
    BitVec.setWidth_ushiftRight_eq_extractLsb (w' := 0).symm
  refine (engineOp_effective eff (by simpa [h.d, h.a, h.b] using hp)).trans ((if_neg (by simp [isVa_iff.mpr hd, isVa_iff.mpr ha])).trans ?_)
  simp only [lo, hi, low]
  rfl

/-- A bed offset that a command may write to. -/
theorem bedDest_free {c : Core} {a : Word} {align n : Nat} (hal : a.toNat % align = 0) (hlo : c.sys.lineEnd ≤ a.toNat)
    (hhi : a.toNat < 0x180000) (hend : a.toNat + n ≤ 0x180000) : bedDest c a align n = none := by
  have plain : bedPlain c a.toNat 1 true = .bed a.toNat := by
    rw [bedPlain_inside (by simp) (by omega) (by omega), if_neg (by simp; omega), Int.toNat_natCast]
  rw [bedDest, if_neg (not_not.mpr hal), plain]
  exact if_neg (Nat.not_lt.mpr hend)

theorem execAld_queues {g : SigDecl} (h : Sound3 o s)
    (hg : s.core.decl ((s.core.x o.a).toNat % 256) = some g) (ha : (s.core.x o.a).toNat < 2 ^ 16) (hb : (s.core.x o.b).toNat < 2 ^ 48)
    (hn : 0 < (s.core.x o.b).toNat / 2 ^ 24) (harch : g.arch = true) (hslot : (s.core.x o.a).toNat / 256 < g.slots)
    (hi : (((s.core.x o.b).toNat % 2 ^ 24 : Nat) : Int) + ((s.core.x o.b).toNat / 2 ^ 24 : Nat) ≤
      (s.core.slotState ((s.core.x o.a).toNat % 256) ((s.core.x o.a).toNat / 256)).n)
    (hal : (s.core.x o.d).toNat % (if g.size = 8 then 8 else 512) = 0)
    (hlag : ¬(max (((s.core.x o.b).toNat % 2 ^ 24 : Nat) : Int) (s.core.slotState ((s.core.x o.a).toNat % 256) ((s.core.x o.a).toNat / 256)).floor <
        (((s.core.x o.b).toNat % 2 ^ 24 : Nat) : Int) + ((s.core.x o.b).toNat / 2 ^ 24 : Nat) ∧
      (s.core.slotState ((s.core.x o.a).toNat % 256) ((s.core.x o.a).toNat / 256)).n -
        max (((s.core.x o.b).toNat % 2 ^ 24 : Nat) : Int) (s.core.slotState ((s.core.x o.a).toNat % 256) ((s.core.x o.a).toNat / 256)).floor ≥
        (g.adepth : Int)))
    (hlo : s.core.sys.lineEnd ≤ (s.core.x o.d).toNat) (hhi : (s.core.x o.d).toNat < 0x180000)
    (hend : (s.core.x o.d).toNat + (s.core.x o.b).toNat / 2 ^ 24 * g.size ≤ 0x180000)
    (htab : s.core.tablePending ((s.core.x o.a).toNat % 256) = false) : execAld o s =
      queueCmd o.qu (.ald (s.core.x o.d).toNat ((s.core.x o.a).toNat % 256) ((s.core.x o.a).toNat / 256) ((s.core.x o.b).toNat % 2 ^ 24)
        ((s.core.x o.b).toNat / 2 ^ 24)) s := by
  have sig : (field (s.core.x o.a) 0 8).toNat = (s.core.x o.a).toNat % 256 := by simp [toNat_field]
  have slot : (field (s.core.x o.a) 8 8).toNat = (s.core.x o.a).toNat / 256 := by rw [toNat_field]; omega
  have i0 : (field (s.core.x o.b) 0 24).toNat = (s.core.x o.b).toNat % 2 ^ 24 := by rw [toNat_field, Nat.pow_zero, Nat.div_one]
  have n : (field (s.core.x o.b) 24 24).toNat = (s.core.x o.b).toNat / 2 ^ 24 := by rw [toNat_field]; omega
  refine h.starts.trans ?_
  simp only [sig, slot, i0, n]
  refine (if_neg (by simpa [(field_high_eq_zero 48 rfl).mpr ha, (field_high_eq_zero 16 rfl).mpr hb] using hn)).trans ?_
  simp only [hg]
  refine (if_neg ?_).trans ((if_neg ?_).trans ((if_neg hlag).trans ?_))
  · simp only [harch, Bool.not_true, Bool.false_or, Bool.or_eq_true, decide_eq_true_eq]
    omega
  · simpa using hal
  · simp only [bedDest_free (Nat.mod_one _) hlo hhi hend, htab, Bool.false_eq_true, if_false]

end Copies

section Accumulating

variable {s : State} {qp : PredNo} {qu : BitVec 2} {d a : RegNo} {xs : List RegNo} {w64 : Bool} {op : AccOp}

theorem accBytes_eq (w64 : Bool) : accBits w64 / 8 = if w64 = true then 8 else 4 := by cases w64 <;> rfl

/-- An accumulating write that brings no old value. -/
theorem accw_queues (val cmp : Core → Word) (h : Effective qp (([d, a] ++ xs).map .x) s) (hp : ∀ x ∈ [d, a] ++ xs, s.core.xp x = false)
    (hd : (s.core.x d).toNat < 2 ^ 56) (hal : (s.core.x d).toNat % (if w64 = true then 8 else 4) = 0) :
    accw qp qu d a xs w64 op val cmp none s = queueCmd qu (.accw op w64 (s.core.x d).toNat (val s.core) (cmp s.core) 0) s :=
  (engineOp_effective h hp).trans (if_neg (by simp [isVa_iff.mpr hd, accBytes_eq, hal]))

/-- One that leaves the old value at a free bed offset. -/
theorem accw_queues_old {r : RegNo} (val cmp : Core → Word) (h : Effective qp (([d, a] ++ xs).map .x) s)
    (hp : ∀ x ∈ [d, a] ++ xs, s.core.xp x = false) (hd : (s.core.x d).toNat < 2 ^ 56)
    (hal : (s.core.x d).toNat % (if w64 = true then 8 else 4) = 0) (hprov : s.isProv = false)
    (hr : (s.core.x r).toNat % (if w64 = true then 8 else 4) = 0 ∧ s.core.sys.lineEnd ≤ (s.core.x r).toNat ∧ (s.core.x r).toNat < 0x180000) :
    accw qp qu d a xs w64 op val cmp (some r) s =
      queueCmd qu (.accw op w64 (s.core.x d).toNat (val s.core) (cmp s.core) (s.core.x r).toNat) s := by
  obtain ⟨hral, hlo, hhi⟩ := hr
  have free : bedDest s.core (s.core.x r) (accBits w64 / 8) (accBits w64 / 8) = none := by
    refine bedDest_free (by rwa [accBytes_eq]) hlo hhi ?_
    rw [accBytes_eq]
    cases w64 <;> simp only [Bool.false_eq_true, if_true, if_false] at hral ⊢ <;> omega
  refine (engineOp_effective h hp).trans ((if_neg (by simp [isVa_iff.mpr hd, accBytes_eq, hal])).trans ?_)
  simp only [Option.bind_some, free, hprov, Bool.and_false, Bool.false_eq_true, if_false]
  rfl

theorem faddqOf_eq (o : MFaddq) (c : Core) : faddqOf o c = BitVec.ofInt 64 ((((if o.f32 = true then Fmt.fp32 else Fmt.fp64).decode
    (c.x o.a).toNat).scale (c.sys.dscale.get o.dsc.toFin).toInt).toInt 0 0 (-(2 ^ 63)) (2 ^ 63 - 1)) := by
  rw [faddqOf]
  cases o.f32 <;> rfl

theorem execAccwFaddq_queues {o : MFaddq} (h : Effective o.qp [.x o.d, .x o.a] s) (hpd : s.core.xp o.d = false) (hpa : s.core.xp o.a = false)
    (hd : (s.core.x o.d).toNat < 2 ^ 56) (hal : (s.core.x o.d).toNat % 8 = 0) :
    execAccwFaddq o s = queueCmd o.qu (.accw .faddq true (s.core.x o.d).toNat (faddqOf o s.core) 0 0) s := by
  rw [execAccwFaddq]
  exact accw_queues (xs := []) (faddqOf o) (fun _ => 0) h (by simp [hpd, hpa]) hd (by rwa [if_pos rfl])

variable {o : MAccB}

/-- A bed offset that takes an old value. -/
abbrev TakesOld (w64 : Bool) (c : Core) (r : RegNo) : Prop :=
  (c.x r).toNat % (if w64 = true then 8 else 4) = 0 ∧ c.sys.lineEnd ≤ (c.x r).toNat ∧ (c.x r).toNat < 0x180000

theorem execAccwSwap_queues (h : Effective o.qp [.x o.d, .x o.a, .x o.b] s) (hpd : s.core.xp o.d = false) (hpa : s.core.xp o.a = false)
    (hpb : s.core.xp o.b = false) (hd : (s.core.x o.d).toNat < 2 ^ 56) (hal : (s.core.x o.d).toNat % (if o.w64 = true then 8 else 4) = 0)
    (hprov : s.isProv = false) (hr : TakesOld o.w64 s.core o.b) : execAccwSwap o s =
      queueCmd o.qu (.accw .swap o.w64 (s.core.x o.d).toNat (s.core.x o.a) 0 (s.core.x o.b).toNat) s := by
  rw [execAccwSwap]
  exact accw_queues_old (xs := [o.b]) (·.x o.a) (fun _ => 0) h (by simp [hpd, hpa, hpb]) hd hal hprov hr

theorem execAccwCas_queues (h : Effective o.qp [.x o.d, .x o.a, .x o.b] s) (hpend : s.core.pendOn (.x (o.b + 1)) = none)
    (hpd : s.core.xp o.d = false) (hpa : s.core.xp o.a = false) (hpb : s.core.xp o.b = false) (hpc : s.core.xp (o.b + 1) = false)
    (hd : (s.core.x o.d).toNat < 2 ^ 56) (hal : (s.core.x o.d).toNat % (if o.w64 = true then 8 else 4) = 0)
    (hprov : s.isProv = false) (hr : TakesOld o.w64 s.core (o.b + 1)) : execAccwCas o s =
      queueCmd o.qu (.accw .cas o.w64 (s.core.x o.d).toNat (s.core.x o.a) (s.core.x o.b) (s.core.x (o.b + 1)).toNat) s := by
  have eff : Effective o.qp (([o.d, o.a] ++ [o.b, o.b + 1]).map .x) s := by
    obtain ⟨hqp, hregs⟩ := h
    simp only [List.forall_mem_cons, List.not_mem_nil, false_imp_iff, implies_true, and_true] at hregs
    obtain ⟨pd, pa, pb⟩ := hregs
    exact ⟨hqp, by simpa [pd, pa, pb] using hpend⟩
  rw [execAccwCas]
  exact accw_queues_old (xs := [o.b, o.b + 1]) (·.x o.a) (·.x o.b) eff (by simpa [hpd, hpa, hpb] using hpc) hd hal hprov hr

end Accumulating

/-- Settles O27: the command of each instruction, in the gate, in a handler's queue, or refused. -/
theorem engineCommands : Obligations.EngineCommands := by
  unfold Obligations.EngineCommands
  refine ⟨fun o s h hi => ⟨fun hs hg => ?_, fun hp => ?_, fun hs hg hd ha hb => ?_⟩, fun o s h hi hd ha hb ld la lb => ?_,
    fun o s h hi hg hd ha ld hal => ?_, fun o s h hi hg hd ha hb ld hprov => ?_, fun o s h hi hg hd ha ld hal => ?_⟩
  · have hs : Sound3 o s := ⟨h, hs.1, hs.2.1, hs.2.2⟩
    have gates (cmd : Cmd) : queueCmd o.qu cmd s = _ := queueCmd_gates hi hg
    exact ⟨fun hd ha hb => (execCopy_queues hs hd ha hb).trans (gates _),
      fun g hgd hd ha hb0 hb hk hq => (execCopyIn_queues hs hgd hd ha hb0 hb hk hq).trans (gates _),
      fun g hgd ha hd hb0 hb hk => (execCopyOut_queues hs hgd ha hd hb0 hb hk).trans (gates _),
      fun hd ha hpend hp => (execCopy2d_queues hs hd ha hpend hp).trans (gates _),
      fun g hgd ha hb hn harch hslot hlen hal hlag hlo hhi hend htab =>
        (execAld_queues hs hgd ha hb hn harch hslot hlen hal hlag hlo hhi hend htab).trans (gates _)⟩
  · exact execCopy_poisoned h hp
  · exact (execCopy_queues ⟨h, hs.1, hs.2.1, hs.2.2⟩ hd ha hb).trans (queueCmd_overflows hi hg)
  · have e : exec (.copy o) s = _ := (execCopy_queues ⟨h, hd, ha, hb⟩ ld la lb).trans (queueCmd_handler hi)
    exact ⟨fun hf => e.trans (if_neg (by simp [hf])), fun hf => e.trans (if_pos hf)⟩
  · have e (op : AccOp) : accw1 o op s = .next (s.queues o.qu (.accw op o.w64 (s.core.x o.d).toNat (s.core.x o.a) 0 0)) :=
      (accw_queues _ _ h (by simp [hd, ha]) ld hal).trans (queueCmd_gates hi hg)
    exact ⟨e _, e _, e _, e _, e _, e _, e _, e _⟩
  · exact fun hal => ⟨fun hfree => (execAccwSwap_queues h hd ha hb ld hal hprov hfree).trans (queueCmd_gates hi hg),
      fun hpend hp hfree => (execAccwCas_queues h hpend hd ha hb hp ld hal hprov hfree).trans (queueCmd_gates hi hg)⟩
  · have e := (execAccwFaddq_queues h hd ha ld hal).trans (queueCmd_gates hi hg)
    rw [faddqOf_eq] at e
    exact e

end Sys2Proof.Proofs

namespace Sys2Proof.Proofs

open Sys2Proof Sys2Proof.Machine Sys2Proof.Laws

/-! ## A region closed by way of a core under a wrong number (R32)

The region of a gang stands with its lead. Where the lead's place holds a core that takes itself for the core in focus, closing the region
puts that core in focus, with all that stands in its gate. O28 asks for an empty gate of every state, its cores numbered or not. -/

/-- Core 0 of a gang led by core 1; under number 1 stands a core that takes itself for core 0, a store in its gate. -/
def misled : State := { State.reset with
  core := { Core.reset 0 with unit := some ⟨true, 1, 0, 0, 0, 2, 1, 0, 0, 0, false, false, none, none⟩ }
  others := [(1, { Core.reset 0 with rg := { (Core.reset 0).rg with id := 1, gate := [⟨.store 0 [], 0, 0, none, false, false⟩] } })] }

/-- The state behind the closing of its region. -/
def misledClosed : State :=
  match misled.passing.openGate with
  | .ok u => u.closed
  | _ => misled

theorem misled_closes : misled.Closes misledClosed := by
  have h : (match misled.passing.openGate with | .ok _ => true | _ => false) = true := by decide +kernel
  refine ⟨by decide +kernel, by decide +kernel, ?_⟩
  unfold misledClosed
  cases e : misled.passing.openGate with
  | ok u => exact ⟨u, rfl, rfl⟩
  | fail f => rw [e] at h; exact absurd h Bool.false_ne_true
  | wait t => rw [e] at h; exact absurd h Bool.false_ne_true

/-- Refutes O28: a store stands in the gate behind the closing. -/
theorem not_fencesAndPosts : ¬ Obligations.FencesAndPosts := by
  unfold Obligations.FencesAndPosts
  rintro ⟨closed, -⟩
  obtain ⟨hgate, -⟩ := closed misled misledClosed misled_closes
  exact absurd hgate (by decide +kernel)

end Sys2Proof.Proofs

namespace Sys2Proof.Proofs

open Sys2Proof Sys2Proof.Machine Sys2Proof.Laws

/-! ## Flags and waits (R248, R252) -/

section FlagsAndWaits

variable {s t : State}

/-- WAITN stalls while more is out than it names. -/
theorem execWaitn_stalls {o : CW} (h : o.ld.toNat < s.core.ld ∨ o.cp.toNat < s.core.cp ∨ o.tl.toNat < s.core.mx.queue.length) :
    execWaitn o s = stall s :=
  if_pos (by simpa [or_assoc] using h)

theorem execWaitn_over {o : CW} (hl : s.core.ld ≤ o.ld.toNat) (hc : s.core.cp ≤ o.cp.toNat) (ht : s.core.mx.queue.length ≤ o.tl.toNat) :
    execWaitn o s = match s.core.faultedQueue with
      | none => .next s
      | some (q, f) => raise { f with slot := BitVec.ofNat 3 slotC, queue := BitVec.ofNat 2 q, origin := 2, rb := false } s :=
  if_neg (by simp [hl, hc, ht])

/-- In a handler a region-closing instruction of the C slot is illegal. -/
theorem closing_inHandler {k : State → Res} (h : s.core.sys.intrap = true) : closing s k = fault illegalOp s := if_pos h

theorem execFpost_closes {o : CF} (h : s.Closes t) :
    execFpost o s = .next ((t.releaseNow scopePackage).applyPost t.core.id o.f.toNat o.n.toNat) := closing_closes h

theorem execFpost_inHandler {o : CF} (h : s.core.sys.intrap = true) : execFpost o s = fault illegalOp s := closing_inHandler h

theorem execFwait_inHandler {o : CF} (h : s.core.sys.intrap = true) : execFwait o s = fault illegalOp s := closing_inHandler h

theorem execFwait_closes {o : CF} (h : s.Closes t) : execFwait o s =
    if t.core.flag o.f.toNat < o.n.toNat then stall t
    else .next (t.mapCore (·.setFlag o.f.toNat (t.core.flag o.f.toNat - o.n.toNat))) := closing_closes h

theorem flag_setFlag (c : Core) {f : Nat} (v : Nat) (hf : f < 32) (g : Nat) :
    (c.setFlag f v).flag g = if g = f then min v 65535 else c.flag g := by
  rw [Core.setFlag, dif_pos hf]
  unfold Core.flag
  by_cases hg : g < 32
  · rw [dif_pos hg, dif_pos hg]
    change ((c.f.set f _ hf)[g]).toNat = if g = f then _ else (c.f[g]).toNat
    rw [Vector.getElem_set]
    by_cases he : f = g
    · rw [if_pos he, if_pos he.symm, BitVec.toNat_ofNat]
      omega
    · rw [if_neg he, if_neg (Ne.symm he)]
  · rw [dif_neg hg, dif_neg hg, if_neg (by omega)]

end FlagsAndWaits

/-- Settles O29: when each instruction goes on, and what it leaves. -/
theorem flagsAndWaits : Obligations.FlagsAndWaits := by
  unfold Obligations.FlagsAndWaits
  refine ⟨fun o s hl hc ht => ⟨fun hq => ?_, fun q f hq => ?_⟩, fun o s h => execWaitn_stalls h,
    fun o s t h => ⟨execFpost_closes h, fun hn => ?_, fun hn => ?_⟩, fun o s h => ⟨execFpost_inHandler h, execFwait_inHandler h⟩,
    fun c f v hf => ⟨?_, fun g hg => ?_⟩⟩
  · exact (execWaitn_over hl hc ht).trans (by rw [hq])
  · exact (execWaitn_over hl hc ht).trans (by rw [hq]; rfl)
  · refine (execFwait_closes h).trans ((if_neg hn.not_gt).trans (congrArg _ (mapCore_congr rfl)))
  · exact (execFwait_closes h).trans (if_pos hn)
  · rw [flag_setFlag c v hf, if_pos rfl]
  · rw [flag_setFlag c v hf, if_neg hg]

/-! ## Phasers (R255 to R260) -/

section Phasers

variable {s t : State} {u : UnitInfo} {n : Nat} {confirmed rel : Bool} {bad waits : PhaserSet → Option Party → Bool}
  {act : PhaserSet → Option Party → Family → PhaserSet}

theorem phaserOp_inHandler (h : s.core.sys.intrap = true) : phaserOp n confirmed bad waits act rel s = fault illegalOp s := if_pos h

/-- Another member of a gang only closes its region. -/
theorem phaserOp_follower (hu : s.core.unit = some u) (hg : u.gang = true) (hm : u.member ≠ 0) (hc : s.Closes t) :
    phaserOp n confirmed bad waits act rel s = .next t := by
  rw [phaserOp, notInHandler_outside hc.outside, hu]
  exact (if_neg (by simp [hg])).trans ((if_pos (by simp [hg, hm])).trans (closing_closes hc))

/-- Member 0 of a gang, and a task of a cluster: those that act on phasers. -/
abbrev ActsOnPhasers (u : UnitInfo) : Prop := u.gang = true ∧ u.member = 0 ∨ u.gang = false ∧ u.place = 0

/-- One that acts, its checks passed and its region closed, waits or has its effect. -/
theorem phaserOp_acts (hu : s.core.unit = some u) (ha : ActsOnPhasers u) (hc : s.Closes t) (hp : confirmed = true → s.isProv = false)
    (hb : bad (s.phasers (clusterOf s.core.id) u.asid) ((s.phasers (clusterOf s.core.id) u.asid).party n u.family) = false) :
    phaserOp n confirmed bad waits act rel s =
      (let now := t.phasers (clusterOf s.core.id) u.asid
       if waits now (now.party n u.family) then stall t
       else .next (((if rel then t.unitRelease scopeCluster else t).setPhasers (act now (now.party n u.family) u.family)).servePhaser
         (clusterOf s.core.id) u.asid n)) := by
  rw [phaserOp, notInHandler_outside hc.outside, hu]
  refine (if_neg ?_).trans ((if_neg ?_).trans ((if_neg (by simp [hb])).trans ?_))
  · obtain ⟨hg, -⟩ | ⟨-, hpl⟩ := ha
    · simp [hg]
    · simp [hpl]
  · obtain ⟨-, hm⟩ | ⟨hg, -⟩ := ha
    · simp [hm]
    · simp [hg]
  · cases confirmed
    · rw [if_neg Bool.false_ne_true]
      exact closing_closes hc
    · rw [if_pos rfl]
      exact (if_neg (by simp [hp rfl])).trans (closing_closes hc)

/-- A gang's PHWAIT is a phaser operation. -/
theorem execPhwait_gang (o : CPh) (h : s.core.isTask = false) : execPhwait o s =
    phaserOp o.ph.toNat false (fun _ r => badWait r) (fun p r => (r.map (fun r => !(phGt (p.get o.ph.toNat).phase r.wp))).getD false)
      (fun p _ f => p.modParty o.ph.toNat f (fun r => { r with wp := r.wp + 1 })) false s := if_neg (by simp [h])

theorem execPhwait_inHandler (o : CPh) (h : s.core.sys.intrap = true) : execPhwait o s = fault illegalOp s := by
  unfold execPhwait
  split
  · rfl
  · exact phaserOp_inHandler h

theorem execPh_follower (hu : s.core.unit = some u) (hg : u.gang = true) (hm : u.member ≠ 0) (hc : s.Closes t) :
    (∀ o, execPhreg o s = .next t) ∧ ∀ o, execPharr o s = .next t ∧ execPhdrop o s = .next t := by
  unfold execPhreg execPharr execPhdrop
  exact ⟨fun _ => phaserOp_follower hu hg hm hc, fun _ => ⟨phaserOp_follower hu hg hm hc, phaserOp_follower hu hg hm hc⟩⟩

theorem execPh_inHandler (h : s.core.sys.intrap = true) : (∀ o, execPhreg o s = fault illegalOp s) ∧
    ∀ o, execPharr o s = fault illegalOp s ∧ execPhdrop o s = fault illegalOp s := by
  unfold execPhreg execPharr execPhdrop
  exact ⟨fun _ => phaserOp_inHandler h, fun _ => ⟨phaserOp_inHandler h, phaserOp_inHandler h⟩⟩

theorem isTask_of_gang (hu : s.core.unit = some u) (hg : u.gang = true) : s.core.isTask = false := by
  simp [Core.isTask, hu, hg]

variable {o : CPh} {r q : Party}

theorem execPhreg_acts {o : CPr} (hu : s.core.unit = some u) (ha : ActsOnPhasers u) (hc : s.Closes t) (hp : s.isProv = false)
    (hn : (s.phasers (clusterOf s.core.id) u.asid).party o.ph.toNat u.family = none)
    (hl : (s.phasers (clusterOf s.core.id) u.asid).parties.length < 1024) (hm : o.mode ≠ 3) : execPhreg o s =
      .next ((t.setPhasers ((t.phasers (clusterOf s.core.id) u.asid).register o.ph.toNat u.family (o.mode != 1) (o.mode != 0))).servePhaser
        (clusterOf s.core.id) u.asid o.ph.toNat) := by
  have mode (k : BitVec 2) : (o.mode.toNat == k.toNat) = (o.mode == k) := by
    rw [Bool.eq_iff_iff]
    simp [← BitVec.toNat_inj]
  have m3 : (o.mode.toNat == 3) = false := (mode 3).trans (beq_false_of_ne hm)
  have m1 : (o.mode.toNat != 1) = (o.mode != 1) := congrArg (!·) (mode 1)
  have m0 : (o.mode.toNat != 0) = (o.mode != 0) := congrArg (!·) (mode 0)
  rw [execPhreg]
  refine (phaserOp_acts hu ha hc (fun _ => hp) ?_).trans ?_
  · simp [hn, hl, m3]
  · rw [m1, m0]
    rfl

theorem execPharr_acts (hu : s.core.unit = some u) (ha : ActsOnPhasers u) (hc : s.Closes t) (hp : s.isProv = false)
    (hr : (s.phasers (clusterOf s.core.id) u.asid).party o.ph.toNat u.family = some r) (hs : r.sig = true)
    (hq : (t.phasers (clusterOf s.core.id) u.asid).party o.ph.toNat u.family = some q)
    (hahead : (t.phasers (clusterOf s.core.id) u.asid).ahead o.ph.toNat q = false) : execPharr o s =
      .next (((t.unitRelease scopeCluster).setPhasers ((t.phasers (clusterOf s.core.id) u.asid).arrive o.ph.toNat q)).servePhaser
        (clusterOf s.core.id) u.asid o.ph.toNat) := by
  rw [execPharr]
  refine (phaserOp_acts hu ha hc (fun _ => hp) ?_).trans ?_
  · simp [hr, hs]
  · simp only [hq, Option.map_some, Option.getD_some, hahead, Bool.false_eq_true, if_false, if_true]

theorem execPhdrop_acts (hu : s.core.unit = some u) (ha : ActsOnPhasers u) (hc : s.Closes t) (hp : s.isProv = false)
    (hr : (s.phasers (clusterOf s.core.id) u.asid).party o.ph.toNat u.family = some r)
    (hq : (t.phasers (clusterOf s.core.id) u.asid).party o.ph.toNat u.family = some q)
    (hahead : (t.phasers (clusterOf s.core.id) u.asid).ahead o.ph.toNat q = false) : execPhdrop o s =
      .next (((t.unitRelease scopeCluster).setPhasers ((t.phasers (clusterOf s.core.id) u.asid).drop o.ph.toNat q)).servePhaser
        (clusterOf s.core.id) u.asid o.ph.toNat) := by
  rw [execPhdrop]
  refine (phaserOp_acts hu ha hc (fun _ => hp) ?_).trans ?_
  · simp [hr]
  · simp only [hq, Option.map_some, Option.getD_some, hahead, Bool.false_eq_true, if_false, if_true]

/-- PHWAIT of a gang that has registered to wait, ahead of its own arrival if it signals. -/
theorem execPhwait_acts (hu : s.core.unit = some u) (ha : ActsOnPhasers u) (hg : u.gang = true) (hc : s.Closes t)
    (hr : (s.phasers (clusterOf s.core.id) u.asid).party o.ph.toNat u.family = some r) (hw : r.wait = true)
    (hs : r.sig = true → phGt r.sp r.wp = true)
    (hq : (t.phasers (clusterOf s.core.id) u.asid).party o.ph.toNat u.family = some q) : execPhwait o s =
      if phGt ((t.phasers (clusterOf s.core.id) u.asid).get o.ph.toNat).phase q.wp = true then
        .next ((t.setPhasers ((t.phasers (clusterOf s.core.id) u.asid).modParty o.ph.toNat u.family
          (fun p => { p with wp := p.wp + 1 }))).servePhaser (clusterOf s.core.id) u.asid o.ph.toNat)
      else stall t := by
  have hb : badWait (some r) = false := by
    cases hsig : r.sig <;> simp_all [badWait]
  rw [execPhwait_gang o (isTask_of_gang hu hg)]
  refine (phaserOp_acts hu ha hc (by simp) ?_).trans ?_
  · simp [hr, hb]
  · simp only [hq, Option.map_some, Option.getD_some, Bool.not_eq_true', Bool.false_eq_true, if_false]
    cases phGt ((t.phasers (clusterOf s.core.id) u.asid).get o.ph.toNat).phase q.wp <;> rfl

end Phasers

/-- Settles O30: what a party does, what another member does, and the refusal in a handler. -/
theorem phasers : Obligations.Phasers := by
  unfold Obligations.Phasers
  refine ⟨fun s t u hu hg hm hc => ?_, fun s h => ?_,
    fun s t u hu ha hc => ⟨fun o hp hn hl hm => execPhreg_acts hu ha hc hp hn hl hm,
      fun o r q hr hq => ⟨fun hp hahead => ⟨fun hs => execPharr_acts hu ha hc hp hr hs hq hahead, execPhdrop_acts hu ha hc hp hr hq hahead⟩,
        fun hg hw hs => ⟨fun hgt => ?_, fun hgt => ?_⟩⟩⟩⟩
  · obtain ⟨hreg, hparty⟩ := execPh_follower hu hg hm hc
    exact ⟨hreg, fun o => ⟨(hparty o).1, (execPhwait_gang o (isTask_of_gang hu hg)).trans (phaserOp_follower hu hg hm hc), (hparty o).2⟩⟩
  · obtain ⟨hreg, hparty⟩ := execPh_inHandler h
    exact ⟨hreg, fun o => ⟨(hparty o).1, execPhwait_inHandler o h, (hparty o).2⟩⟩
  · exact (execPhwait_acts hu ha hg hc hr hw hs hq).trans (if_pos hgt)
  · exact (execPhwait_acts hu ha hg hc hr hw hs hq).trans (if_neg (by simp [hgt]))

end Sys2Proof.Proofs

namespace Sys2Proof.Proofs

open Sys2Proof Sys2Proof.Machine Sys2Proof.Laws

/-! ## The quarry's instructions (R350 to R361) -/

section Quarry

variable {s t : State} {k : State → Res}

/-- A word a request brings, pending. -/
theorem pendWord_pendsX (d : RegNo) (sig : Option Nat) (w : Word) (s : State) : pendWord d sig w s = .next (s.pendsX d sig w) := rfl

theorem beginClosing_closes {qp : PredNo} {regs : List PDest} (h : Effective qp regs s) (hc : s.Closes t) : beginClosing qp regs s k = k s :=
  beginClosing_effective h hc.outside

theorem closingConfirmed_closes (hp : s.isProv = false) (hc : s.Closes t) : closingConfirmed s k = k t :=
  (if_neg (by simp [hp])).trans (closing_closes hc)

theorem closingDefer_closes (hp : s.canDefer = true) (hc : s.Closes t) : closingDefer s k = k t := (if_pos hp).trans (closing_closes hc)

/-- A provisional unit allocates from its launch's retractable pool only (R315). -/
theorem retracts_guard {n : Nat} (h : s.isProv = false ∨ (s.retracts n).isSome = true) :
    ¬(s.isProv && (s.retracts n).isNone) = true := by
  obtain h | h := h
  · simp [h]
  · simp [Option.isSome_iff_ne_none.mp h]

theorem execQalloc_closes {o : MDAZ} (he : Effective o.qp [.x o.a, .x o.d] s) (hp : s.core.xp o.a = false) (hc : s.Closes t)
    (ha : (s.core.x o.a).toNat < 64) (hr : s.isProv = false ∨ (s.retracts (s.core.x o.a).toNat).isSome = true) : execQalloc o s =
      .next ((t.qalloc t.core.asid (s.core.x o.a).toNat o.z).1.pendsX o.d none (t.qalloc t.core.asid (s.core.x o.a).toNat o.z).2) := by
  have hpool : (field (s.core.x o.a) 0 6).toNat = (s.core.x o.a).toNat := by
    rw [toNat_field]
    omega
  have hlow : field (s.core.x o.a) 6 58 = 0 := (field_high_eq_zero 58 rfl).mpr ha
  rw [execQalloc, beginClosing_closes he hc]
  simp only [hp, hpool, hlow, bne_self_eq_false, Bool.false_eq_true, if_false]
  exact (if_neg (retracts_guard hr)).trans (closing_closes hc)

variable {g : SigDecl} {sig slot e : Nat}

/-- The first entry of a block table that names no block. -/
theorem find_entry {tab : List Word} {i : Nat} (hi : i < tab.length) (h : (tab.getD i 0).getLsbD 0 = false)
    (hlt : ∀ j < i, (tab.getD j 0).getLsbD 0 = true) : (List.range tab.length).find? (fun e => !(bitAt (tab.getD e 0) 0)) = some i := by
  rw [List.find?_range_eq_some]
  exact ⟨by simpa [bitAt] using h, List.mem_range.mpr hi, fun j hj => by simpa [bitAt] using hlt j hj⟩

theorem find_entry_none {tab : List Word} (h : ∀ i < tab.length, (tab.getD i 0).getLsbD 0 = true) :
    (List.range tab.length).find? (fun e => !(bitAt (tab.getD e 0) 0)) = none := by
  rw [List.find?_range_eq_none]
  exact fun i hi => by simpa [bitAt] using h i hi

/-- What BTAPP does behind its region. -/
def btappEnd (o : MDAZ) (d : SigDecl) (sig slot : Nat) (s : State) : Res :=
  let tab := (s.core.slotState sig slot).table
  match (List.range tab.length).find? (fun e => !(bitAt (tab.getD e 0) 0)) with
  | none => pendWord o.d (some sig) 7 s
  | some e =>
    let (t, r) := s.qalloc s.core.asid d.pool o.z
    if field r 0 8 != 0 then pendWord o.d (some sig) r t
    else pendWord o.d (some sig) r (t.mapCore (·.setEntry sig slot e (r ||| 1)))

theorem execBtapp_closes {o : MDAZ} (he : Effective o.qp [.x o.a, .x o.d] s) (hp : s.core.xp o.a = false) (hc : s.Closes t)
    (ha : (s.core.x o.a).toNat < 2 ^ 16) (hs : s.core.selector (s.core.x o.a) = some (g, sig, slot, e))
    (hr : s.isProv = false ∨ (s.retracts g.pool).isSome = true) : execBtapp o s = btappEnd o g sig slot t := by
  have hlow : field (s.core.x o.a) 16 48 = 0 := (field_high_eq_zero 48 rfl).mpr ha
  rw [execBtapp, beginClosing_closes he hc]
  simp only [hp, hlow, hs, bne_self_eq_false, Bool.false_eq_true, if_false]
  exact (if_neg (retracts_guard hr)).trans (closing_closes hc)

theorem btappEnd_full {o : MDAZ}
    (h : ∀ i < (t.core.slotState sig slot).table.length, ((t.core.slotState sig slot).table.getD i 0).getLsbD 0 = true) :
    btappEnd o g sig slot t = .next (t.pendsX o.d (some sig) 7) := by
  simp only [btappEnd, find_entry_none h]
  rfl

theorem btappEnd_room {o : MDAZ} {i : Nat} (hi : i < (t.core.slotState sig slot).table.length)
    (h : ((t.core.slotState sig slot).table.getD i 0).getLsbD 0 = false)
    (hlt : ∀ j < i, ((t.core.slotState sig slot).table.getD j 0).getLsbD 0 = true) : btappEnd o g sig slot t =
      (let q := t.qalloc t.core.asid g.pool o.z
       if q.2.toNat % 256 ≠ 0 then .next (q.1.pendsX o.d (some sig) q.2)
       else .next ((q.1.mapCore (·.setEntry sig slot i (q.2 ||| 1))).pendsX o.d (some sig) q.2)) := by
  simp only [btappEnd, find_entry hi h hlt]
  refine ite_congr ?_ (fun _ => rfl) (fun _ => rfl)
  rw [bne_iff_ne, ne_eq, ← BitVec.toNat_inj, toNat_field]
  simp

theorem qalloc_none {asid pool : Nat} {z : Bool} (h : s.pool asid pool = none) : s.qalloc asid pool z = (s, 4) := if_pos (by simp [h])

theorem qalloc_empty {asid pool : Nat} {z : Bool} {p : Pool} (h : s.pool asid pool = some p) (ht : p.take = none) :
    s.qalloc asid pool z = (s, 2) := by
  simp [State.qalloc, State.takeBlock, h, ht]

theorem take_addr {p q : Pool} {b : Nat} (h : p.take = some (b, q)) (i : Nat) : q.addr i = p.addr i := by
  rw [Pool.take] at h
  split at h
  · obtain ⟨-, rfl⟩ := h
    rfl
  · split at h
    · cases h
    · obtain ⟨-, rfl⟩ := h
      rfl

theorem qalloc_head {asid pool : Nat} {z : Bool} {p q : Pool} {b : Nat} (h : s.pool asid pool = some p) (ht : p.take = some (b, q)) :
    (s.qalloc asid pool z).2 = BitVec.ofNat 64 (p.addr b) := by
  simp [State.qalloc, State.takeBlock, h, ht, take_addr ht]

variable {o : MDA}

theorem execQfree_closes (he : Effective o.qp [.x o.a, .x o.d] s) (hp : s.core.xp o.a = false) (ha : (s.core.x o.a).toNat < 2 ^ 56)
    (hd : s.canDefer = true) (hc : s.Closes t) : execQfree o s =
      if t.isProv then pendX o.d none .master (t.deferOr (.qfree (s.core.x o.a) (t.core.id, t.core.pipe.nextReq)) id)
      else pendWord o.d none ((t.unitRelease scopeQuarry).qfree t.core.asid (s.core.x o.a)).2
        ((t.unitRelease scopeQuarry).qfree t.core.asid (s.core.x o.a)).1 := by
  have hlow : field (s.core.x o.a) 56 8 = 0 := (field_high_eq_zero 8 rfl).mpr ha
  rw [execQfree, beginClosing_closes he hc]
  simp only [hp, hlow, bne_self_eq_false, Bool.false_eq_true, if_false]
  exact closingDefer_closes hd hc

theorem execPdecommit_closes (he : Effective o.qp [.x o.a, .x o.d] s) (hp : s.core.xp o.a = false) (ha : (s.core.x o.a).toNat < 2 ^ 56)
    (hd : s.isProv = false) (hc : s.Closes t) : execPdecommit o s =
      .next ((t.pdecommit t.core.asid (s.core.x o.a).toNat).1.pendsX o.d none (t.pdecommit t.core.asid (s.core.x o.a).toNat).2) := by
  have hlow : field (s.core.x o.a) 56 8 = 0 := (field_high_eq_zero 8 rfl).mpr ha
  rw [execPdecommit, beginClosing_closes he hc]
  simp only [hp, hlow, bne_self_eq_false, Bool.false_eq_true, if_false]
  exact closingConfirmed_closes hd hc

theorem execBtget_reads (he : Effective o.qp [.x o.a, .x o.d] s) (hp : s.core.xp o.a = false) (ha : (s.core.x o.a).toNat < 2 ^ 40)
    (hs : s.core.selector (s.core.x o.a) = some (g, sig, slot, e)) :
    execBtget o s = .next (s.pendsX o.d none (s.core.entry sig slot e)) := by
  have hlow : field (s.core.x o.a) 40 24 = 0 := (field_high_eq_zero 24 rfl).mpr ha
  rw [execBtget, begin_effective he]
  simp only [hp, hlow, hs, bne_self_eq_false, Bool.false_eq_true, if_false]
  rfl

variable {m : MDAB}

theorem execBtset_closes (he : Effective m.qp [.x m.a, .x m.b, .x m.d] s) (hpa : s.core.xp m.a = false) (hpb : s.core.xp m.b = false)
    (hd : s.isProv = false) (hc : s.Closes t) (ha : (s.core.x m.a).toNat < 2 ^ 40)
    (hs : s.core.selector (s.core.x m.a) = some (g, sig, slot, e)) (hb : (s.core.x m.b).toNat < 2 ^ 56)
    (hz : (s.core.x m.b).toNat / 2 % 2 ^ 13 = 0) : execBtset m s =
      if (s.core.x m.b).getLsbD 0 && !(t.namesBlock t.core.asid g.pool (s.core.x m.b)) then .next (t.pendsX m.d (some sig) 6)
      else .next ((t.mapCore (·.setEntry sig slot e (s.core.x m.b))).pendsX m.d (some sig) 0) := by
  have hlow : field (s.core.x m.a) 40 24 = 0 := (field_high_eq_zero 24 rfl).mpr ha
  have hhigh : field (s.core.x m.b) 56 8 = 0 := (field_high_eq_zero 8 rfl).mpr hb
  have hmid : field (s.core.x m.b) 1 13 = 0 := by
    rw [← BitVec.toNat_inj, toNat_field]
    exact hz
  rw [execBtset, beginClosing_closes he hc]
  simp only [hpa, hpb, hlow, hs, hhigh, hmid, bne_self_eq_false, Bool.or_self, Bool.false_eq_true, if_false]
  exact closingConfirmed_closes hd hc

theorem execPcommit_closes (he : Effective m.qp [.x m.a, .x m.b, .x m.d] s) (hpa : s.core.xp m.a = false) (hpb : s.core.xp m.b = false)
    (hd : s.isProv = false) (hc : s.Closes t) (ha : (s.core.x m.a).toNat < 2 ^ 56) (hk : (s.core.x m.b).toNat % 2 ^ 4 ≤ 4)
    (hz : (s.core.x m.b).toNat / 2 ^ 4 % 2 ^ 4 = 0) (hb : (s.core.x m.b).toNat < 2 ^ 14)
    (hp : ∀ p, s.pool s.core.asid ((s.core.x m.b).toNat / 2 ^ 8) = some p →
      pageBytes ((s.core.x m.b).toNat % 2 ^ 4) ≤ p.bytes ∧ (s.core.x m.a).toNat % p.bytes = 0) : execPcommit m s =
      (let r := t.pcommit t.core.asid (s.core.x m.a).toNat ((s.core.x m.b).toNat % 2 ^ 4) ((s.core.x m.b).toNat / 2 ^ 8)
       .next (r.1.pendsX m.d none r.2)) := by
  have hlow : field (s.core.x m.a) 56 8 = 0 := (field_high_eq_zero 8 rfl).mpr ha
  have hmid : field (s.core.x m.b) 4 4 = 0 := by
    rw [← BitVec.toNat_inj, toNat_field]
    exact hz
  have hhigh : field (s.core.x m.b) 14 50 = 0 := (field_high_eq_zero 50 rfl).mpr hb
  have ek : (field (s.core.x m.b) 0 4).toNat = (s.core.x m.b).toNat % 2 ^ 4 := by
    rw [toNat_field, pow_zero, Nat.div_one]
  have epool : (field (s.core.x m.b) 8 6).toNat = (s.core.x m.b).toNat / 2 ^ 8 := by
    rw [toNat_field]
    omega
  have fits : ¬(decide ((s.core.x m.b).toNat % 2 ^ 4 > 4) || ((s.pool s.core.asid ((s.core.x m.b).toNat / 2 ^ 8)).map (fun p =>
      decide (pageBytes ((s.core.x m.b).toNat % 2 ^ 4) > p.bytes) || (s.core.x m.a).toNat % p.bytes != 0)).getD false) = true := by
    rw [decide_eq_false hk.not_gt, Bool.false_or]
    cases e : s.pool s.core.asid ((s.core.x m.b).toNat / 2 ^ 8) with
    | none => exact Bool.false_ne_true
    | some p =>
      obtain ⟨hle, hal⟩ := hp p e
      simpa [hal] using hle
  rw [execPcommit, beginClosing_closes he hc]
  simp only [hpa, hpb, hlow, hmid, hhigh, ek, epool, bne_self_eq_false, Bool.or_self, Bool.false_eq_true, if_false]
  exact (if_neg fits).trans (closingConfirmed_closes hd hc)

/-- Each of the quarry's instructions that closes its region is illegal in a handler (R343). -/
theorem quarry_inHandler (h : s.core.sys.intrap = true) :
    (∀ o : MDAZ, Effective o.qp [.x o.a, .x o.d] s → execQalloc o s = fault illegalOp s ∧ execBtapp o s = fault illegalOp s) ∧
    (∀ o : MDA, Effective o.qp [.x o.a, .x o.d] s → execQfree o s = fault illegalOp s ∧ execPdecommit o s = fault illegalOp s) ∧
    ∀ o : MDAB, Effective o.qp [.x o.a, .x o.b, .x o.d] s → execBtset o s = fault illegalOp s ∧ execPcommit o s = fault illegalOp s :=
  ⟨fun _ he => ⟨beginClosing_inHandler he h, beginClosing_inHandler he h⟩,
    fun _ he => ⟨beginClosing_inHandler he h, beginClosing_inHandler he h⟩,
    fun _ he => ⟨beginClosing_inHandler he h, beginClosing_inHandler he h⟩⟩

end Quarry

/-- Settles O31: each instruction of the quarry behind its region, what QALLOC answers, the refusals in a handler. -/
theorem quarryInstructions : Obligations.QuarryInstructions := by
  unfold Obligations.QuarryInstructions
  refine ⟨fun o s t he hp hc => ⟨fun ha hr => execQalloc_closes he hp hc ha hr, fun g sig slot e ha hs hr => ?_⟩,
    fun s asid pool z => ⟨qalloc_none, fun p h => ⟨qalloc_empty h, fun b q ht => qalloc_head h ht⟩⟩,
    fun o s t he hp ha hc => ⟨fun hd hn => ?_, fun l u hd hn => ?_, fun hd => execPdecommit_closes he hp ha hd hc⟩,
    fun o s g sig slot e he hp ha hs => execBtget_reads he hp ha hs, fun s h => quarry_inHandler h,
    fun o s t he hpa hpb hd hc => ⟨fun g sig slot e ha hs hb hz => ⟨fun hn => ?_, fun hb0 hn => ?_⟩,
      fun ha hk hz hb hp => execPcommit_closes he hpa hpb hd hc ha hk hz hb hp⟩⟩
  · have act : exec (.btapp o) s = btappEnd o g sig slot t := execBtapp_closes he hp hc ha hs hr
    rw [act]
    exact ⟨btappEnd_full, fun i hi h hlt => ⟨fun hq => (btappEnd_room hi h hlt).trans (if_pos hq),
      fun hq => (btappEnd_room hi h hlt).trans (if_neg (not_not.mpr hq))⟩⟩
  · exact (execQfree_closes he hp ha hd hc).trans (if_neg (by simp [State.isProv, hn]))
  · refine (execQfree_closes he hp ha hd hc).trans ((if_pos (by simp [State.isProv, hn])).trans ?_)
    simp only [State.deferOr, hn]
    rfl
  · refine (execBtset_closes he hpa hpb hd hc ha hs hb hz).trans (if_neg ?_)
    obtain h | h := hn <;> simp only [h, Bool.false_and, Bool.not_true, Bool.and_false, Bool.false_eq_true, not_false_eq_true]
  · exact (execBtset_closes he hpa hpb hd hc ha hs hb hz).trans (if_pos (by simp [hb0, hn]))

end Sys2Proof.Proofs

namespace Sys2Proof.Proofs

open Sys2Proof Sys2Proof.Machine Sys2Proof.Laws

/-! ## A SHAPE sent by way of cores under wrong numbers (R316)

A release that SHAPE makes closes the region of its unit, which stands with a gang's lead. Where the lead's place holds a core that takes itself
for the core in focus, that core comes into focus. O32 asks, of every state, its cores numbered or not, for the ASID that is in focus behind the
release; the message names the one before it. -/

/-- A gang's unit of one member, led by a core. -/
def ledBy (asid lead : Nat) : UnitInfo := ⟨true, asid, 0, 0, 0, 1, lead, 0, 0, 0, false, false, none, none⟩

/-- Core 0 of a gang led by core 1; under numbers 1 and 2 stand cores that take themselves for core 0, of gangs led by core 2. -/
def misledShape : State := { State.reset.probe 0 with
  core := { (State.reset.probe 0).core with unit := some (ledBy 1 1), r := (State.reset.probe 0).core.r.setX 7 ⟨0x6FF0, false⟩ }
  others := [(1, { Core.reset 0 with unit := some (ledBy 1 2), rg := { (Core.reset 0).rg with id := 1 } }),
    (2, { Core.reset 0 with unit := some (ledBy 2 2), rg := { (Core.reset 0).rg with id := 1 } })] }

/-- The state behind the closing of its region. -/
def misledShapeClosed : State :=
  match misledShape.passing.openGate with
  | .ok u => u.closed
  | _ => misledShape

theorem misledShape_closes : misledShape.Closes misledShapeClosed := by
  have h : (match misledShape.passing.openGate with | .ok _ => true | _ => false) = true := by decide +kernel
  refine ⟨by decide +kernel, by decide +kernel, ?_⟩
  unfold misledShapeClosed
  cases e : misledShape.passing.openGate with
  | ok u => exact ⟨u, rfl, rfl⟩
  | fail f => rw [e] at h; exact absurd h Bool.false_ne_true
  | wait t => rw [e] at h; exact absurd h Bool.false_ne_true

/-- The ASIDs of the messages an answer leaves. -/
def sentAsids (r : Res) : List Nat :=
  match r with
  | .next t => t.disp.shapes.map (·.asid)
  | _ => []

/-- Refutes O32: the message names ASID 1, the core in focus behind the release is one of ASID 2. -/
theorem not_submissions : ¬ Obligations.Submissions := by
  unfold Obligations.Submissions
  rintro ⟨-, shape, -⟩
  obtain ⟨-, sends⟩ := shape ⟨0, 7, 0⟩ misledShape misledShapeClosed (by decide +kernel) misledShape_closes
  obtain ⟨outside, -⟩ := sends 0x6FF0 (by decide +kernel) (by decide +kernel) (by decide +kernel) (by decide +kernel) (by decide +kernel)
    (by decide +kernel) (by decide +kernel) (by decide +kernel)
  obtain ⟨final, -⟩ := outside (by decide +kernel)
  exact absurd (congrArg sentAsids final) (by decide +kernel)

end Sys2Proof.Proofs

namespace Sys2Proof.Proofs

open Sys2Proof Sys2Proof.Machine Sys2Proof.Laws

/-! ## Tile operations at issue (R185 to R203) -/

section TileOperations

variable {s t : State} {k : State → Res}

/-- A tile operation with a true predicate goes on while the queue has room, and waits without. -/
theorem tileOp_room {qp : PredNo} {regs : List PDest} (h : Effective qp regs s) (hr : s.core.tileRoom) : tileOp qp regs s k = k s :=
  (begin_effective h).trans (if_neg (Nat.not_le.mpr hr))

theorem tileOp_full {qp : PredNo} {regs : List PDest} (h : Effective qp regs s) (hr : ¬s.core.tileRoom) : tileOp qp regs s k = stall s :=
  (begin_effective h).trans (if_pos (Nat.not_lt.mp hr))

theorem tagBed_tagged {l : List (Nat × Nat)} {kind : AccKind} (h : s.tagRanges s.core.id kind l = .ok t) : tagBed l kind s k = k t :=
  withRanges_tagged k h

theorem withUndos_room {n : Nat} (hi : s.core.sys.intrap = false) (h : s.core.rg.undoCount + n ≤ 96) :
    withUndos n s k = k (s.mapCore (fun c => { c with rg := { c.rg with undoCount := c.rg.undoCount + n } })) :=
  (if_neg (by simp [hi])).trans (if_neg h.not_gt)

theorem imageFault_none {c : Core} {a : Word} {align n : Nat} {write : Bool} (ha : a.toNat % align = 0) (hn : a.toNat + n ≤ bedEnd)
    (hw : write = true → c.sys.lineEnd ≤ a.toNat) : imageFault c a align n write = none := by
  refine (if_neg (not_not.mpr ha)).trans ((if_neg hn.not_gt).trans (if_neg ?_))
  simpa using hw

/-- What an MMA's fields pick of its two image lengths (R194, R197). -/
theorem mma_lengths (mode : BitVec 3) (x y : Nat) : (if (mode.toNat == 5) = true then x else y) = if mode = 5 then x else y := by
  have e : (mode.toNat == 5) = true ↔ mode = 5 := by
    rw [beq_iff_eq, ← BitVec.toNat_inj]
    rfl
  simp only [e]

/-- The entry of an MMA. -/
def mmaEntry (o : XMma) (c : Core) (prof : Nat) (a : Opnd) (off : Nat) (remote : Option Nat) : TileOp :=
  let tile := c.tile o.acc.toNat
  .mma o.acc.toNat a off remote o.mode.toNat o.af o.bf o.ovw o.mc prof tile.sA tile.sB tile.sPoison

/-- The length of an MMA's A image and of its B image. -/
abbrev mmaA (o : XMma) : Nat := if o.mode = 5 then 17408 else 16384
abbrev mmaB (o : XMma) : Nat := if o.mode = 5 then 8704 else 8192

/-- An MMA whose registers, profile and A operand are sound. -/
structure MmaSound (o : XMma) (s : State) (prof : Nat) (a : Opnd) : Prop where
  effective : Effective o.qp (aRegs o.a ++ [.x o.b]) s
  room : s.core.tileRoom
  soundA : s.core.aPoison o.a = false
  soundB : s.core.xp o.b = false
  profile : s.core.profile = some prof
  operand : s.core.aOperand o.a (mmaA o) (if o.mode = 5 then 32768 else 16384) (mmaA o) (modeTag o.mode.toNat o.af) = .at_ a

theorem execMma_local {o : XMma} {prof : Nat} {a : Opnd} (h : MmaSound o s prof a) (hrb : o.rb = false)
    (hb : (s.core.x o.b).toNat % 512 = 0) (hn : (s.core.x o.b).toNat + mmaB o ≤ 0x180000) : execMma o s =
      tagBed (a.tagged (mmaA o) ++ [((s.core.x o.b).toNat, mmaB o)]) .read s
        (fun t => .next (t.tiles (mmaEntry o s.core prof a (s.core.x o.b).toNat none))) := by
  rw [execMma, tileOp_room h.effective h.room]
  simp only [h.soundA, h.soundB, h.profile, mma_lengths, h.operand, hrb, imageFault_none (write := false) hb hn (by simp), Bool.or_self,
    Bool.false_eq_true, if_false, Bool.not_false, if_true]
  rfl

theorem remoteB_ok {c : Core} {x : Word} {n : Nat} (hx : x.toNat < 2 ^ 25) (ho : x.toNat % 2 ^ 21 % 512 = 0)
    (hn : x.toNat % 2 ^ 21 + n ≤ 0x180000) : remoteB c x n = .ok (clusterOf c.id * 16 + x.toNat / 2 ^ 21, x.toNat % 2 ^ 21) := by
  have hhigh : field x 25 39 = 0 := (field_high_eq_zero 39 rfl).mpr hx
  have hoff : (field x 0 21).toNat = x.toNat % 2 ^ 21 := by
    rw [toNat_field, pow_zero, Nat.div_one]
  have hcore : (field x 21 4).toNat = x.toNat / 2 ^ 21 := by
    rw [toNat_field]
    omega
  simp only [remoteB, hhigh, hoff, hcore]
  refine (if_neg ?_).trans (if_neg hn.not_gt)
  rw [ho]
  simp

theorem execMma_remote {o : XMma} {prof : Nat} {a : Opnd} (h : MmaSound o s prof a) (hrb : o.rb = true)
    (hx : (s.core.x o.b).toNat < 2 ^ 25) (ho : (s.core.x o.b).toNat % 2 ^ 21 % 512 = 0)
    (hn : (s.core.x o.b).toNat % 2 ^ 21 + mmaB o ≤ 0x180000) (ht : s.tagRanges s.core.id .read (a.tagged (mmaA o)) = .ok t) :
    execMma o s =
      (let g := clusterOf s.core.id * 16 + (s.core.x o.b).toNat / 2 ^ 21
       let off := (s.core.x o.b).toNat % 2 ^ 21
       let go := fun (v : State) => .next (v.tiles (mmaEntry o s.core prof a off (some g)))
       if t.reaches g then withRanges g .read [(off, mmaB o)] t go else go t) := by
  rw [execMma, tileOp_room h.effective h.room]
  simp only [h.soundA, h.soundB, h.profile, mma_lengths, h.operand, hrb, remoteB_ok hx ho hn, Bool.or_self,
    Bool.false_eq_true, if_false, Bool.not_true, if_true]
  exact tagBed_tagged ht

theorem execMzero_enters {o : XAcc} (h : Effective o.qp [] s) (hr : s.core.tileRoom) :
    execMzero o s = .next (s.tiles (.mzero o.acc.toNat)) := tileOp_room h hr

theorem execMzero_waits {o : XAcc} (h : Effective o.qp [] s) (hr : ¬s.core.tileRoom) : execMzero o s = stall s := tileOp_full h hr

theorem imgBytes_eq (img : BitVec 2) : imgBytes img.toNat = if img = 0 then 32768 else 16384 := by
  have e : (img.toNat == 0) = true ↔ img = 0 := by
    rw [beq_iff_eq, ← BitVec.toNat_inj]
    rfl
  simp only [imgBytes, e]

theorem execMld_effective {o : XMld} (h : Effective o.qp [.x o.b] s) (hr : s.core.tileRoom) (hp : s.core.xp o.b = false) : execMld o s =
    match imageFault s.core (s.core.x o.b) 512 (if o.img = 0 then 32768 else 16384) false with
    | some code => fault code s
    | none => tagBed [((s.core.x o.b).toNat, if o.img = 0 then 32768 else 16384)] .read s
      (fun t => .next (t.tiles (.mld o.acc.toNat (s.core.x o.b).toNat o.img.toNat))) := by
  rw [execMld, tileOp_room h hr]
  simp only [hp, imgBytes_eq, Bool.false_eq_true, if_false]
  rfl

theorem execMstBed_enters {o : XMst} {n : Nat} (h : Effective o.qp [.x o.b] s) (hr : s.core.tileRoom) (hp : s.core.xp o.b = false)
    (hn : n = if o.img = 0 then 32768 else 16384)
    (ha : (s.core.x o.b).toNat % 512 = 0) (hb : (s.core.x o.b).toNat + n ≤ 0x180000) (hl : s.core.sys.lineEnd ≤ (s.core.x o.b).toNat)
    (htile : s.core.busy o.acc.toNat = true ∨ (s.core.tile o.acc.toNat).poison = false)
    (ht : s.tagRanges s.core.id .write [((s.core.x o.b).toNat, n)] = .ok t) (hi : t.core.sys.intrap = false)
    (hu : t.core.rg.undoCount + n / 512 ≤ 96) : execMstBed o s =
      .next ((t.mapCore (fun c => { c with rg := { c.rg with undoCount := c.rg.undoCount + n / 512 } })).tiles
        (.mstBed o.acc.toNat (s.core.x o.b).toNat o.img.toNat o.sat)) := by
  rw [execMstBed, tileOp_room h hr]
  simp only [hp, imgBytes_eq, ← hn, imageFault_none (write := true) ha hb (fun _ => hl), Bool.false_eq_true, if_false]
  refine (if_neg ?_).trans ((tagBed_tagged ht).trans ((withUndos_room hi hu).trans rfl))
  obtain hbusy | hsound := htile
  · simp [hbusy]
  · simp [hsound]

theorem execMstSignal_signal {o : XMss} {p : Tap} {d : SigDecl} (h : Effective o.qp [] s) (hr : s.core.tileRoom) (hq : s.core.q o.q = some p)
    (hd : s.core.decl p.sig = some d) (hlag : p.lag = 0) (hoff : p.off = 0) (hw : d.written = true)
    (hsize : d.size = if o.img = 0 then 32768 else 16384) : execMstSignal o s =
      if !(s.core.pendingNow d p.sig p.slot) then fault offRateWrite s
      else if d.tag != imgTag o.img.toNat && d.tag != tBITS then fault formatMismatch s
      else if !(s.core.busy o.acc.toNat) && (s.core.tile o.acc.toNat).poison && d.kind == 3 then fault poisonConsumed s
      else .next ((s.tiles (.mstSig o.acc.toNat p.sig p.slot (s.core.slotState p.sig p.slot).n o.img.toNat o.sat)).mapCore
        (·.setWritten d p.sig p.slot)) := by
  rw [execMstSignal, tileOp_room h hr]
  simp only [hq, withSignal, hd, hlag, hoff, hw, hsize, imgBytes_eq]
  exact if_neg (by simp)

theorem execMrowW_effective {o : XMroww} (h : Effective o.qp [.v o.a] s) (hr : s.core.tileRoom) : execMrowW o s =
    if (s.core.v o.a).tag != tF32 && (s.core.v o.a).tag != tI32 then fault formatMismatch s
    else .next (s.tiles (.mrowW o.acc.toNat o.row.toNat (s.core.v o.a).bits (s.core.v o.a).poison)) := tileOp_room h hr

/-- Archived keys and values tagged. -/
theorem tagKeys_tagged {o : AttnOp}
    (h : s.tagSamples o.slot ((List.range (o.khi - o.klo)).flatMap (fun i => [(o.ksig, o.klo + i), (o.vsig, o.klo + i)])) = .ok t) :
    tagKeys o s k = k t := by rw [tagKeys, h]

/-- The operation of an ATTN of a core. -/
def attnEntry (o : XAttn) (q : Opnd) (prof : Nat) (s : State) : AttnOp :=
  let w := s.bedWords (s.core.x o.b).toNat 8
  attnOf o q prof s.core.sys.margin
    ((s.core.slotState ((w.getD 0 0).extractLsb' 0 8).toNat ((w.getD 0 0).extractLsb' 16 8).toNat).n + 1).toNat w

/-- An ATTN whose registers, descriptor, signals and operands are sound. -/
structure AttnSound (o : XAttn) (s : State) (prof : Nat) (q : Opnd) : Prop where
  effective : Effective o.qp (aRegs o.a ++ [.x o.b]) s
  room : s.core.tileRoom
  soundA : s.core.aPoison o.a = false
  soundB : s.core.xp o.b = false
  profile : s.core.profile = some prof
  aligned : (s.core.x o.b).toNat % 64 = 0
  inBed : (s.core.x o.b).toNat + 64 ≤ 0x180000
  free : s.core.tileHolds (s.core.x o.b).toNat 64 false = false
  tableK : s.core.tablePending (attnEntry o q prof s).ksig = false
  tableV : s.core.tablePending (attnEntry o q prof s).vsig = false
  signals : s.core.attnFault o.a (attnEntry o q prof s) (s.bedWords (s.core.x o.b).toNat 8) = none
  operand : s.core.aOperand o.a (128 * (attnEntry o q prof s).d * (attnEntry o q prof s).esize)
    (128 * (attnEntry o q prof s).d * (attnEntry o q prof s).esize) (128 * (attnEntry o q prof s).d * (attnEntry o q prof s).esize)
    (attnTag (attnEntry o q prof s).fmt) = .at_ q
  addresses : s.core.attnAddrFault (attnEntry o q prof s) = none

theorem execAttn_enters {o : XAttn} {prof : Nat} {q : Opnd} (h : AttnSound o s prof q) : execAttn o s =
    (let op := attnEntry o q prof s
     let norms := if op.normBytes == 0 then [] else [(op.norms, op.normBytes)]
     tagBed (((s.core.x o.b).toNat, 64) :: (q.tagged (128 * op.d * op.esize) ++ norms ++ [(op.state, 1024)])) .read s fun s => tagKeys op s fun s =>
      tagBed [(op.state, 1024)] .write s fun s => withUndos 2 s fun s => .next (s.tiles (.attn op))) := by
  rw [execAttn, tileOp_room h.effective h.room]
  refine (if_neg (by simp [h.soundA, h.soundB])).trans ?_
  simp only [h.profile]
  refine (if_neg (not_not.mpr h.aligned)).trans ((if_neg h.inBed.not_gt).trans ((if_neg (by simp [h.free])).trans ((if_neg ?_).trans ?_)))
  · exact Bool.eq_false_iff.mp (congrArg₂ (· || ·) h.tableK h.tableV)
  · have signals := h.signals
    have operand := h.operand
    have addresses := h.addresses
    split
    · rename_i code hc
      exact absurd (hc.symm.trans signals) (by simp)
    · split
      · rename_i hc
        exact absurd (hc.symm.trans operand) (by simp)
      · rename_i code hc
        exact absurd (hc.symm.trans operand) (by simp)
      · rename_i q' hc
        obtain rfl : q' = q := PortRes.at_.inj (hc.symm.trans operand)
        split
        · rename_i code hc
          exact absurd (hc.symm.trans addresses) (by simp)
        · rfl

end TileOperations

/-- Settles O33: what each tile operation puts into the queue, its waits and its refusals. -/
theorem tileOperations : Obligations.TileOperations := by
  unfold Obligations.TileOperations
  refine ⟨fun o s t prof a he hr ha hb hp hop => ⟨fun hrb hal hn => ⟨fun ht => ?_, fun at_ ht => ?_⟩,
      fun hrb hx ho hn ht => ⟨fun hg => ?_, fun v hg hv => ?_⟩⟩,
    fun o s h => ⟨execMzero_enters h, execMzero_waits h⟩,
    fun o s t he hr hp => ⟨fun ha hn ht => ?_, fun ha => ?_, fun ha hn => ?_⟩,
    fun o s t he hr hp ha hn hl htile ht hi hu => execMstBed_enters he hr hp rfl ha hn hl htile ht hi hu,
    fun o s p d he hr hq hd hlag hoff hw hsize => ⟨fun hpend => ?_, fun hpend htag htile => ?_⟩,
    fun o s he hr => ⟨fun htag => ?_, fun h1 h2 => ?_⟩,
    fun o s t u v prof q he hr ha hb hp hal hbed hfree hk hv hsig hop haddr ht hu hv' hi hroom => ?_⟩
  · exact (execMma_local ⟨he, hr, ha, hb, hp, hop⟩ hrb hal hn).trans (tagBed_tagged ht)
  · exact (execMma_local ⟨he, hr, ha, hb, hp, hop⟩ hrb hal hn).trans (withRanges_conflict _ ht)
  · exact (execMma_remote ⟨he, hr, ha, hb, hp, hop⟩ hrb hx ho hn ht).trans (if_neg (Bool.eq_false_iff.mp hg))
  · exact (execMma_remote ⟨he, hr, ha, hb, hp, hop⟩ hrb hx ho hn ht).trans ((if_pos hg).trans (withRanges_tagged _ hv))
  · refine (execMld_effective he hr hp).trans ?_
    rw [imageFault_none ha hn (by simp)]
    exact tagBed_tagged ht
  · refine (execMld_effective he hr hp).trans ?_
    rw [imageFault, if_pos ha]
  · refine (execMld_effective he hr hp).trans ?_
    rw [imageFault, if_neg (not_not.mpr ha), if_pos (show _ > bedEnd from hn)]
  · exact (execMstSignal_signal he hr hq hd hlag hoff hw hsize).trans (if_pos (by simp [hpend]))
  · refine (execMstSignal_signal he hr hq hd hlag hoff hw hsize).trans ((if_neg (by simp [hpend])).trans ((if_neg ?_).trans (if_neg ?_)))
    · obtain h | h := htag <;> simp [h]
    · obtain h | h | h := htile <;> simp [h]
  · refine (execMrowW_effective he hr).trans (if_neg ?_)
    obtain h | h := htag <;> simp [h]
  · exact (execMrowW_effective he hr).trans (if_pos (by simp [h1, h2]))
  · refine (execAttn_enters ⟨he, hr, ha, hb, hp, hal, hbed, hfree, hk, hv, hsig, hop, haddr⟩).trans ?_
    simp only [beq_iff_eq]
    exact (tagBed_tagged ht).trans ((tagKeys_tagged hu).trans ((tagBed_tagged hv').trans (withUndos_room hi hroom)))

end Sys2Proof.Proofs

namespace Sys2Proof.Proofs

open Sys2Proof Sys2Proof.Machine Sys2Proof.Laws

/-! ## Tile rows, scale sets and the group register (R199, R200, R204) -/

section TileRegisters

variable {s : State}

theorem tile_setTile (c : Core) {n : Nat} (t : Tile) (hn : n < 8) (m : Nat) : (c.setTile n t).tile m = if m = n then t else c.tile m := by
  rw [Core.setTile, dif_pos hn]
  unfold Core.tile
  by_cases hm : m < 8
  · rw [dif_pos hm, dif_pos hm]
    change (c.acc.set n t hn)[m] = if m = n then t else c.acc[m]
    rw [Vector.getElem_set]
    simp only [eq_comm]
  · rw [dif_neg hm, dif_neg hm, if_neg (by omega)]

/-- The core after a tile has been copied into its shadow: all but the rollback state as it was. -/
theorem shadowTile_eq (c : Core) (n : Nat) : ∃ g, c.shadowTile n = { c with rg := g } := by
  unfold Core.shadowTile
  split
  · exact ⟨c.rg, rfl⟩
  · exact ⟨_, rfl⟩

theorem execMrow_reads {o : XMrow} (h : Effective o.qp [.v o.d] s) (hb : s.core.busy o.acc.toNat = false) : execMrow o s =
    .next (s.sendsV o.d ((s.core.tile o.acc.toNat).row o.row.toNat) (if o.int = true then tI32 else tF32) (s.core.tile o.acc.toNat).poison 5) := by
  rw [execMrow, begin_effective h]
  exact if_neg (by simp [hb])

theorem execMrow_busy {o : XMrow} (h : Effective o.qp [.v o.d] s) (hb : s.core.busy o.acc.toNat = true) : execMrow o s = stall s := by
  rw [execMrow, begin_effective h]
  exact if_pos hb

theorem getLsbD_row (t : Tile) (r : Nat) {i : Nat} (hi : i < 4096) :
    (t.row r).getLsbD i = (decide (i < 2048) && t.bits.getLsbD (2048 * r + i)) := by
  simp [Tile.row, elemAt, hi]

/-- The core behind MSCL on a tile, a vector and a scale register. -/
def scaled (t : Nat) (v : VReg) (b : RegNo) (c : Core) : Core :=
  (c.shadowTile t).setTile t { (c.shadowTile t).tile t with
    sA := v.bits, sB := field ((c.shadowTile t).x b) 0 32, sPoison := v.poison || (c.shadowTile t).xp b }

theorem field_zero_eq_setWidth {v n : Nat} (x : BitVec v) : field x 0 n = x.setWidth n := by
  apply BitVec.eq_of_toNat_eq
  simp [field]

theorem scaled_tile (v : VReg) (b : RegNo) (c : Core) {t : Nat} (ht : t < 8) (n : Nat) : (scaled t v b c).tile n =
    if n = t then { c.tile t with sA := v.bits, sB := (c.x b).setWidth 32, sPoison := v.poison || c.xp b } else c.tile n := by
  obtain ⟨g, e⟩ := shadowTile_eq c t
  rw [scaled, tile_setTile _ _ ht, e, field_zero_eq_setWidth]
  rfl

theorem scaled_frame (t : Nat) (v : VReg) (b : RegNo) (c : Core) : (scaled t v b c).r = c.r ∧ (scaled t v b c).mem = c.mem := by
  obtain ⟨g, e⟩ := shadowTile_eq c t
  rw [scaled, e]
  exact ⟨Core.setTile_r .., Core.setTile_mem ..⟩

theorem execMscl_source {o : XMscl} {v : VReg} (h : Effective o.qp (srcRegs o.a ++ [.x o.b]) s) (hb : s.core.busy o.acc.toNat = false)
    (hv : s.core.vsrc o.a = .val v) (hx : (s.core.x o.b).toNat < 2 ^ 32) : execMscl o s =
      if v.tag != tF32 then fault formatMismatch s
      else .next (s.mapCore (scaled o.acc.toNat v o.b)) := by
  have hlow : field (s.core.x o.b) 32 32 = 0 := (field_high_eq_zero 32 rfl).mpr hx
  rw [execMscl, begin_effective h]
  refine (if_neg (by simp [hb])).trans ((useSrc_val hv).trans (if_congr Iff.rfl rfl (if_neg ?_)))
  simp [hlow]

theorem execMgrp_effective {o : SA} (h : Effective o.qp [.x o.a] s) : execMgrp o s =
    if field (s.core.x o.a) 16 48 != 0 || (s.core.x o.a != 0 && !(bitAt (s.core.x o.a) (placeOf s.core.id))) then fault illegalOperand s
    else .next (s.mapCore (fun c => { c with mx := { c.mx with mgrp := field (s.core.x o.a) 0 16 } })) := begin_effective h

end TileRegisters

/-- Settles O34: MROW's row, MSCL's scale set, MGRP's register, and what each refuses. -/
theorem tileRegisters : Obligations.TileRegisters := by
  unfold Obligations.TileRegisters
  refine ⟨fun o s h => ⟨fun hb => ⟨_, execMrow_reads h hb, fun i hi => getLsbD_row _ _ hi⟩, fun hb => execMrow_busy h hb⟩,
    fun o s v h hb hv hx => ⟨fun htag => ⟨_, (execMscl_source h hb hv hx).trans (if_neg (by simp [htag])), ?_⟩, fun htag => ?_⟩,
    fun o s h => ⟨fun hx hb => ?_, fun hx => ?_⟩⟩
  · have tile := scaled_tile v o.b s.core o.acc.isLt
    obtain ⟨hr, hmem⟩ := scaled_frame o.acc.toNat v o.b s.core
    exact ⟨(tile _).trans (if_pos rfl), fun n hn => (tile n).trans (if_neg hn), hr, hmem, rfl⟩
  · exact (execMscl_source h hb hv hx).trans (if_pos (by simp [htag]))
  · have hhigh : field (s.core.x o.a) 16 48 = 0 := (field_high_eq_zero 48 rfl).mpr hx
    refine (execMgrp_effective h).trans ((if_neg ?_).trans (by rw [field_zero_eq_setWidth]))
    rw [hhigh]
    obtain hb | hb := hb
    · simp [hb]
    · simp [bitAt, hb]
  · refine (execMgrp_effective h).trans (if_pos ?_)
    obtain hx | ⟨hne, hb⟩ := hx
    · have hhigh : field (s.core.x o.a) 16 48 ≠ 0 := fun e => absurd ((field_high_eq_zero 48 rfl).mp e) (Nat.not_lt.mpr hx)
      exact Bool.or_eq_true_iff.mpr (.inl (bne_iff_ne.mpr hhigh))
    · exact Bool.or_eq_true_iff.mpr (.inr (by simpa [hb, bitAt] using hne))

end Sys2Proof.Proofs

namespace Sys2Proof.Proofs

open Sys2Proof Sys2Proof.Machine Sys2Proof.Laws

/-! ## The sequencer (R205 to R210) -/

section Sequencer

variable {s t : State}

/-- The bed words of a core's descriptor at a register's value. -/
abbrev seqHead (s : State) (r : RegNo) : Word := (s.seenBed s.core.id).readW (s.core.x r).toNat
abbrev seqLens (s : State) (r : RegNo) : Word := (s.seenBed s.core.id).readW ((s.core.x r).toNat + 8)

/-- An SQLD of a sound descriptor inside the bed. -/
structure SqldSound (o : SA) (s t : State) : Prop where
  effective : Effective o.qp [.x o.a] s
  sound : s.core.xp o.a = false
  aligned : (s.core.x o.a).toNat % 64 = 0
  inBed : (s.core.x o.a).toNat + 64 ≤ 0x180000
  head : seqHeadOk (seqHead s o.a) (seqLens s o.a) = true
  free : s.core.tileHolds (s.core.x o.a).toNat (8 * seqWords (seqHead s o.a)) false = false
  fits : (s.core.x o.a).toNat + 8 * seqWords (seqHead s o.a) ≤ 0x180000
  tagged : s.tagRanges s.core.id .read [((s.core.x o.a).toNat, 8 * seqWords (seqHead s o.a))] = .ok t

/-- What SQLD makes of the template bundles it has fetched. -/
def sqldEnd (c : Core) (a n : Nat) (t : State) (bs : List BundleBits) : Res :=
  match c.seqProgram (t.bedWords a n) bs with
  | none => fault illegalOperand t
  | some p => .next (t.mapCore (fun c => { c with seqr := { c.seqr with prog := some p, run := none } }))

theorem sqldEnd_program {c : Core} {a n : Nat} {bs : List BundleBits} {p : SeqProg} (h : c.seqProgram (t.bedWords a n) bs = some p) :
    sqldEnd c a n t bs = .next (t.mapCore (fun c => { c with seqr := { c.seqr with prog := some p, run := none } })) := by
  unfold sqldEnd
  split
  · rename_i hn
    exact absurd (hn.symm.trans h) (by simp)
  · rename_i q hq
    rw [Option.some.inj (hq.symm.trans h)]

theorem execSqld_fetched {o : SA} {bs : List BundleBits} (h : SqldSound o s t)
    (hf : t.fetchRun s.core.asid (seqTotal (seqLens s o.a)) (s.core.ctl.pc.toNat + 32) = .ok bs) :
    execSqld o s = sqldEnd s.core (s.core.x o.a).toNat (seqWords (seqHead s o.a)) t bs := by
  rw [execSqld, begin_effective h.effective]
  refine (if_neg (by simp [h.sound])).trans ((if_neg (not_not.mpr h.aligned)).trans ((if_neg h.inBed.not_gt).trans ?_))
  simp only [h.head, h.free, Bool.not_true, Bool.false_eq_true, if_true, if_false]
  refine (if_neg h.fits.not_gt).trans ((tagBed_tagged h.tagged).trans ?_)
  simp only [hf]
  rfl

/-- A fetch that fails names an address of the address space. -/
theorem fetchRun_error {asid n pc at_ : Nat} {code : BitVec 8} {cause : Nat} (h : s.fetchRun asid n pc = .error (code, cause, at_)) :
    at_ < 2 ^ 56 := by
  induction n generalizing pc with
  | zero => cases h
  | succ n ih =>
    rw [State.fetchRun] at h
    split at h
    · cases h
      exact Nat.mod_lt _ (by decide)
    · split at h
      · rename_i he
        cases h
        exact ih he
      · cases h

theorem execSqld_unfetched {o : SA} {code : BitVec 8} {cause pc : Nat} (h : SqldSound o s t)
    (hf : t.fetchRun s.core.asid (seqTotal (seqLens s o.a)) (s.core.ctl.pc.toNat + 32) = .error (code, cause, pc)) :
    execSqld o s = raise (withOrigin (accessFault (if code == uncommitted then (pageFault, 1) else (code, cause)).1
      (if code == uncommitted then (pageFault, 1) else (code, cause)).2 s.core.ctl.slot pc false) 3) t := by
  rw [execSqld, begin_effective h.effective]
  refine (if_neg (by simp [h.sound])).trans ((if_neg (not_not.mpr h.aligned)).trans ((if_neg h.inBed.not_gt).trans ?_))
  simp only [h.head, h.free, Bool.not_true, Bool.false_eq_true, if_true, if_false]
  refine (if_neg h.fits.not_gt).trans ((tagBed_tagged h.tagged).trans ?_)
  simp only [hf]

theorem execSqld_refuses {o : SA} (h : Effective o.qp [.x o.a] s) :
    (s.core.xp o.a = true → execSqld o s = fault poisonConsumed s) ∧
    (s.core.xp o.a = false → (s.core.x o.a).toNat % 64 ≠ 0 → execSqld o s = fault illegalOperand s) ∧
    (s.core.xp o.a = false → (s.core.x o.a).toNat % 64 = 0 → 0x180000 < (s.core.x o.a).toNat + 64 → execSqld o s = fault handleBound s) := by
  rw [execSqld, begin_effective h]
  exact ⟨fun hp => if_pos hp, fun hp ha => (if_neg (by simp [hp])).trans (if_pos ha),
    fun hp ha hb => (if_neg (by simp [hp])).trans ((if_neg (not_not.mpr ha)).trans (if_pos hb))⟩

theorem execSqgo_starts {o : SQ} {p : SeqProg} (h : Effective o.qp [] s) (hp : s.core.seqr.prog = some p) : execSqgo o s =
    .next (s.mapCore (fun c => { c with seqr := { c.seqr with
      trips := c.seqTrips p, idx := (c.seqTrips p).map (fun _ => 0), run := p.start (c.seqTrips p) } })) := by
  rw [execSqgo, begin_effective h]
  simp only [hp]
  rfl

theorem execSqgo_none {o : SQ} (h : Effective o.qp [] s) (hp : s.core.seqr.prog = none) : execSqgo o s = fault illegalOperand s := by
  rw [execSqgo, begin_effective h]
  simp only [hp]

theorem execSqabt_effective {o : SQ} (h : Effective o.qp [] s) : execSqabt o s =
    .next (s.mapCore (fun c => if c.seqr.run.isSome then { c with seqr := { c.seqr with run := none } }
      else { c with seqr := { c.seqr with prog := none } })) := begin_effective h

theorem execSqst_reads {o : XSqst} (h : Effective o.qp [.x o.d] s) :
    execSqst o s = .next (s.sendsX o.d (s.core.seqItem o.item.toNat) false 1) := begin_effective h

/-- The trip count of a level (R207). -/
theorem getElem?_seqTrips {c : Core} {p : SeqProg} {i : Nat} {l : Level} (h : p.levels[i]? = some l) :
    (c.seqTrips p)[i]? = some (if l.sl = true then (((c.slotState p.sig p.slot).n + 1).toNat + 2 ^ l.sh - 1) / 2 ^ l.sh else l.trip) := by
  simp [Core.seqTrips, h, ceilShift, Nat.shiftRight_eq_div_pow]

theorem seqItem_eq (c : Core) (n : Nat) : c.seqItem n = if n < 6 then BitVec.ofNat 64 (c.seqr.idx.getD n 0)
    else if n = 6 then BitVec.ofNat 64 ((if c.seqr.prog = none then 0 else 1) + (if c.seqr.run = none then 0 else 2) +
      4 * (match c.seqr.prog with | some p => p.inner | none => 0))
    else match c.seqr.trips[n - 8]? with
      | some k => BitVec.ofNat 64 k
      | none => Config.noTrip (n - 8) := by
  unfold Core.seqItem
  simp only [beq_iff_eq]
  refine ite_congr rfl (fun _ => rfl) (fun _ => ite_congr rfl (fun _ => ?_) (fun _ => ?_))
  · cases c.seqr.prog <;> cases c.seqr.run <;> rfl
  · cases c.seqr.trips[n - 8]? <;> rfl

end Sequencer

/-- Settles O35: the program SQLD takes or the fault it raises, SQGO's start, SQABT's end, SQST's items. -/
theorem sequencer : Obligations.Sequencer := by
  unfold Obligations.Sequencer
  refine ⟨fun o s t bs p he hp ha hb hh hf hn ht => ⟨fun hb' hprog => ?_, fun code cause pc hc => ?_⟩, fun o s h => execSqld_refuses h,
    fun o s h => ⟨fun p hp => ⟨_, execSqgo_starts h hp, hp, rfl, rfl, rfl, ?_, fun i hi => ?_, fun i l hl => getElem?_seqTrips hl⟩,
      execSqgo_none h, ?_⟩, fun o s h _ => ?_⟩
  · exact (execSqld_fetched ⟨he, hp, ha, hb, hh, hf, hn, ht⟩ hb').trans (sqldEnd_program hprog)
  · refine ⟨_, _, execSqld_unfetched ⟨he, hp, ha, hb, hh, hf, hn, ht⟩ hc, rfl, ?_, rfl, ?_⟩
    · exact congrArg (BitVec.ofNat 64) (Nat.mod_eq_of_lt (fetchRun_error hc))
    · by_cases hu : code = uncommitted
      · rw [if_pos hu, if_pos (beq_iff_eq.mpr hu)]
        rfl
      · rw [if_neg hu, if_neg (by simpa using hu)]
        rfl
  · simp [Core.seqTrips]
  · obtain ⟨n, -, hn⟩ := List.mem_map.mp hi
    exact hn.symm
  · refine (execSqabt_effective h).trans (congrArg _ (mapCore_congr ?_))
    cases e : s.core.seqr.run <;> simp
  · exact (execSqst_reads h).trans (congrArg (fun w => Host.Outcome.next (s.sendsX o.d w false 1)) (seqItem_eq s.core o.item.toNat))

end Sys2Proof.Proofs

namespace Sys2Proof.Proofs

open Sys2Proof Sys2Proof.Machine Sys2Proof.Laws

/-! ## Signals (R177 to R184, R440) -/

section Signals

variable {s : State} {d : SigDecl}

theorem withSignal_decl {sig : Nat} {k : SigDecl → Res} (h : s.core.decl sig = some d) : withSignal sig s k = k d := by rw [withSignal, h]

theorem execTapset_effective {o : XTs} (he : Effective o.qp [] s) (hd : s.core.decl o.sig.toNat = some d) : execTapset o s =
    if o.lag.toNat ≥ d.lagLimit then fault lagOverrun s else .next (s.sends (.q o.q ⟨o.sig.toNat, o.lag.toNat, 0, 0⟩) 1) :=
  (begin_effective he).trans (withSignal_decl hd)

theorem members_eq (u : Option UnitInfo) : (u.map (·.members)).getD 1 = match u with | some u => u.members | none => 1 := by cases u <;> rfl

theorem execTapsetx_effective {o : XTx} {a : Word} (he : Effective o.qp [.x o.a] s) (hx : s.core.x o.a = a) (hp : s.core.xp o.a = false)
    (hd : s.core.decl o.sig.toNat = some d) (ha : a.toNat < 2 ^ 37) (hslot : a.toNat / 2 ^ 24 % 2 ^ 8 < d.slots)
    (hoff : (a.extractLsb' 32 5).toInt = 0 ∨ d.written = true ∧
      (a.extractLsb' 32 5).toInt.natAbs < (match s.core.unit with | some u => u.members | none => 1)) : execTapsetx o s =
      if a.toNat % 2 ^ 24 ≥ d.lagLimit then fault lagOverrun s
      else if (a.extractLsb' 32 5).toInt != 0 && a.toNat % 2 ^ 24 == 0 then fault lagZero s
      else .next (s.sends (.q o.q ⟨o.sig.toNat, a.toNat % 2 ^ 24, (a.extractLsb' 32 5).toInt, a.toNat / 2 ^ 24 % 2 ^ 8⟩) 1) := by
  have hhigh : field a 37 27 = 0 := (field_high_eq_zero 27 rfl).mpr ha
  have elag : (field a 0 24).toNat = a.toNat % 2 ^ 24 := by rw [toNat_field, pow_zero, Nat.div_one]
  have eslot : (field a 24 8).toNat = a.toNat / 2 ^ 24 % 2 ^ 8 := toNat_field ..
  rw [execTapsetx, begin_effective he]
  refine (if_neg (by simp [hp])).trans ((withSignal_decl hd).trans ?_)
  rw [hx, elag, eslot]
  refine (if_neg ?_).trans ((if_neg ?_).trans rfl)
  · rw [hhigh, decide_eq_false (Nat.not_le.mpr hslot)]
    exact Bool.false_ne_true
  · rw [members_eq]
    obtain h | ⟨hw, h⟩ := hoff
    · simp [field, h]
    · simpa [hw, field] using fun _ => h

/-- TAPRD through a port of a signal it suits. -/
theorem execTaprd_signal {o : XTap} {t : Tap} (hq : s.core.q o.q = some t) (hd : s.core.decl t.sig = some d)
    (he : Effective o.qp (tapRegs (some d) o.x o.d) s) (hf : tapFits d o.x o.part.toNat o.d = true) : execTaprd o s =
      match s.core.tapRead t (o.part.toNat * d.partBytes) d.partBytes with
      | .bytes bs p => .next (s.mapCore (fun c => (pieces d o.x o.d bs p).foldl (fun c l => c.push l 4) c))
      | .wait => stall s
      | .bad code => fault code s
      | .remote core i => remoteTapRead d t o.x o.d o.part.toNat core i s
      | .archive i => archiveTapRead d t o.x o.d o.part.toNat s.core.id i s := by
  unfold execTaprd
  simp only [hq, Option.bind_some, hd]
  refine (begin_effective he).trans ((withSignal_decl hd).trans ((if_neg (by simp [hf])).trans ?_))
  cases s.core.tapRead t (o.part.toNat * d.partBytes) d.partBytes <;> rfl

section Remote

variable {t : Tap} {x : Bool} {r : RegNo} {part n : Nat} {i : Int}

/-- An index below the reader's own floor reads the prime value (R168, log 72). -/
theorem remoteTapRead_prime (h : i < (s.core.slotState t.sig t.slot).floor) : remoteTapRead d t x r part n i s =
    pendTap d x r (.lands (pieces d x r ((d.primeBytes.drop (part * d.partBytes)).take d.partBytes) false)) s := if_pos h

theorem remoteTapRead_ring (h : (s.core.slotState t.sig t.slot).floor ≤ i)
    (hr : d.arch = false ∨ t.lag < d.depth ∨ ((s.coreOf n).slotState t.sig t.slot).n - (d.depth : Int) < i) :
    remoteTapRead d t x r part n i s =
      if i ≤ (s.coreOf n).sealedIdx d t.sig t.slot then
        pendTap d x r (.lands (pieces d x r ((s.coreOf n).shareBytes d t.sig t.slot i (part * d.partBytes) d.partBytes).1
          ((s.coreOf n).shareBytes d t.sig t.slot i (part * d.partBytes) d.partBytes).2)) s
      else pendTap d x r (.remoteTap n t.sig t.slot i part x r) s := by
  refine (if_neg h.not_gt).trans (if_neg ?_)
  obtain h | h | h := hr
  · simp [h]
  · simp [Nat.not_le.mpr h]
  · simp [Int.not_le.mpr h]

theorem remoteTapRead_archive (h : (s.core.slotState t.sig t.slot).floor ≤ i) (ha : d.arch = true) (hl : d.depth ≤ t.lag)
    (hi : i ≤ ((s.coreOf n).slotState t.sig t.slot).n - (d.depth : Int)) :
    remoteTapRead d t x r part n i s = archiveTapRead d t x r part n i s :=
  (if_neg h.not_gt).trans (if_pos (by simp [ha, hl, hi]))

theorem archiveTapRead_absent {sel : Word} (h : (s.core.slotState t.sig t.slot).floor ≤ i) (ht : (s.coreOf n).tablePending t.sig = false)
    (ha : (s.coreOf n).archiveVa d t.sig t.slot i.toNat = .error sel) :
    archiveTapRead d t x r part n i s = raise { accessFault pageFault 10 s.core.ctl.slot 0 false with va := sel } s := by
  rw [archiveTapRead]
  refine (if_neg h.not_gt).trans ((if_neg (by simp [ht])).trans ?_)
  simp only [ha]

theorem archiveTapRead_reads {va : Nat} {rs : List (Nat × Nat)} (h : (s.core.slotState t.sig t.slot).floor ≤ i)
    (ht : (s.coreOf n).tablePending t.sig = false) (ha : (s.coreOf n).archiveVa d t.sig t.slot i.toNat = .ok va)
    (hs : s.span (s.coreOf n).asid va d.size .read = .ok rs) : archiveTapRead d t x r part n i s =
      pendTap d x r (.lands (pieces d x r
        (((rs.flatMap (fun e => (s.memAs (s.keyOf (s.coreOf n).asid)).read e.1 e.2)).drop (part * d.partBytes)).take d.partBytes)
        ((s.coreOf n).sig.poisoned t.sig t.slot i part || rs.any s.runPoisoned))) s := by
  rw [archiveTapRead]
  refine (if_neg h.not_gt).trans ((if_neg (by simp [ht])).trans ?_)
  simp only [ha, hs]

end Remote

section Write

variable {o : XTw} {t : Tap}

/-- TAPWR of the pending sample of a signal it suits: whether its tags, poison and the tile entries let it write. -/
theorem execTapwr_signal (hq : s.core.q o.q = some t) (hd : s.core.decl t.sig = some d) (he : Effective o.qp (tapRegs (some d) o.x o.a) s)
    (hf : tapFits d o.x o.part.toNat o.a = true) (hl : t.lag = 0) (ho : t.off = 0) (hw : d.written = true) : execTapwr o s =
      if !(s.core.pendingNow d t.sig t.slot) then fault offRateWrite s
      else if !(s.core.tapSource d o.x o.a).2.2 then fault formatMismatch s
      else if (s.core.tapSource d o.x o.a).2.1 && d.kind == 3 then fault poisonConsumed s
      else if s.core.tileHolds (d.pos t.slot (s.core.slotState t.sig t.slot).n + o.part.toNat * d.partBytes) d.partBytes true then stall s
      else withUndo s fun u => .next (u.mapCore
        (·.writePart d t o.part.toNat (s.core.tapSource d o.x o.a).1 (s.core.tapSource d o.x o.a).2.1)) := by
  unfold execTapwr
  simp only [hq, Option.bind_some, hd]
  exact (begin_effective he).trans ((withSignal_decl hd).trans (if_neg (by simp [hf, hl, ho, hw])))

/-- What a part written changes of the core: the bed, the signal unit and the undo log. -/
theorem writePart_frame (c : Core) (part : Nat) (bs : List Byte) (p : Bool) :
    (c.writePart d t part bs p).mem.bed = c.mem.bed.write (d.pos t.slot (c.slotState t.sig t.slot).n + part * d.partBytes) bs ∧
    (c.writePart d t part bs p).r = c.r ∧ (c.writePart d t part bs p).sys = c.sys ∧
    (c.writePart d t part bs p).rg.undoCount = c.rg.undoCount := by
  refine ⟨rfl, rfl, rfl, ?_⟩
  change (if c.sys.intrap then c.rg else { c.rg with undo := _ :: c.rg.undo }).undoCount = _
  split <;> rfl

end Write

theorem execSiginf_effective {o : XSi} (he : Effective o.qp [.x o.a, .x o.d] s) (hp : s.core.xp o.a = false)
    (hd : s.core.decl o.sig.toNat = some d) : execSiginf o s =
      if (s.core.x o.a).toNat ≥ d.slots then fault illegalOperand s
      else .next (s.sendsX o.d (s.core.sigItem d o.sig.toNat (s.core.x o.a).toNat o.item.toNat) false 4) := by
  rw [execSiginf, begin_effective he]
  exact (if_neg (by simp [hp])).trans (withSignal_decl hd)

section Slots

variable {o : XSl} {k : SigDecl → Word → State → Res}

theorem slotsOn_archived (he : Effective o.qp [.x o.a] s) (hp : s.core.xp o.a = false) (hd : s.core.decl o.sig.toNat = some d)
    (hk : d.kind = 0) (ha : d.arch = true) : slotsOn o s k = k d (s.core.x o.a) s := by
  rw [slotsOn, begin_effective he]
  exact (if_neg (by simp [hp])).trans ((withSignal_decl hd).trans (if_neg (by simp [hk, ha])))

theorem execSlots_asks (he : Effective o.qp [.x o.a] s) (hp : s.core.xp o.a = false) (hd : s.core.decl o.sig.toNat = some d)
    (hk : d.kind = 0) (ha : d.arch = true) (hslot : (s.core.x o.a).toNat < d.slots) :
    execSlotsClr o s = .next (s.mapCore (·.askSlots (.clr o.sig.toNat (s.core.x o.a).toNat))) ∧
    execSlotsOne o s = .next (s.mapCore (·.askSlots (.one o.sig.toNat (s.core.x o.a).toNat))) := by
  rw [execSlotsClr, execSlotsOne, slotsOn_archived he hp hd hk ha, slotsOn_archived he hp hd hk ha]
  exact ⟨if_neg (Nat.not_le.mpr hslot), if_neg (Nat.not_le.mpr hslot)⟩

theorem bedPlain_aligned {c : Core} {a n : Nat} (ha : a % n = 0) (hn : a + n ≤ 0x180000) : bedPlain c a n false = .bed a := by
  have hal : (a : Int) % n = 0 := by exact_mod_cast ha
  have hin : ¬((a : Int) < 0 ∨ (a : Int) + n > (bedEnd : Int)) := by
    have : bedEnd = 0x180000 := rfl
    omega
  rw [bedPlain, if_neg (not_not.mpr hal), if_neg hin, if_neg (by simp)]
  rfl

theorem execSlotsSel_asks (he : Effective o.qp [.x o.a] s) (hp : s.core.xp o.a = false) (hd : s.core.decl o.sig.toNat = some d)
    (hk : d.kind = 0) (ha : d.arch = true) (hal : (s.core.x o.a).toNat % 32 = 0) (hin : (s.core.x o.a).toNat + 32 ≤ 0x180000)
    (hfree : s.core.tileHolds (s.core.x o.a).toNat 32 false = false)
    (hmask : (s.seenBed s.core.id).readNat (s.core.x o.a).toNat 32 < 2 ^ d.slots) (hslots : d.slots ≤ 256) : execSlotsSel o s =
      .next (s.mapCore (·.askSlots (.sel o.sig.toNat (BitVec.ofNat 256 ((s.seenBed s.core.id).readNat (s.core.x o.a).toNat 32))))) := by
  have hlow : field (s.core.x o.a) 0 5 = 0 := by
    rw [← BitVec.toNat_inj, toNat_field, pow_zero, Nat.div_one]
    exact hal
  have hfits : ¬(BitVec.ofNat 256 ((s.seenBed s.core.id).readNat (s.core.x o.a).toNat 32)).toNat ≥ 2 ^ d.slots := by
    rw [BitVec.toNat_ofNat, Nat.mod_eq_of_lt (hmask.trans_le (Nat.pow_le_pow_right Nat.two_pos hslots))]
    exact Nat.not_le.mpr hmask
  rw [execSlotsSel, slotsOn_archived he hp hd hk ha]
  refine (if_neg (by simp [hlow])).trans ?_
  simp only [bedPlain_aligned hal hin]
  exact (if_neg (by simp [hfree])).trans (if_neg hfits)

end Slots

theorem execSigrst_unprivileged {o : XSr} (he : Effective o.qp [] s) (h : s.core.sys.priv = false) : execSigrst o s = fault privilege s :=
  (begin_effective he).trans (if_pos (by simp [h]))

theorem execSigrst_resets {o : XSr} (he : Effective o.qp [] s) (h : s.core.sys.priv = true) (hd : s.core.decl o.sig.toNat = some d)
    (hw : d.written = true) : execSigrst o s = .next (s.mapCore (·.resetFloor d o.sig.toNat)) :=
  (begin_effective he).trans ((if_neg (by simp [h])).trans ((withSignal_decl hd).trans (if_neg (by simp [hw]))))

end Signals

/-- Settles O36: ports, the places a sample is read from, the part a TAPWR writes, SIGINF, SLOTS and SIGRST. -/
theorem signals : Obligations.Signals := by
  unfold Obligations.Signals
  refine ⟨fun o s d he hd => ⟨fun h => (execTapset_effective he hd).trans (if_neg (Nat.not_le.mpr h)),
      fun h => (execTapset_effective he hd).trans (if_pos h)⟩,
    fun o s d he hp hd ha hslot hoff => ⟨fun hl h0 => ?_, fun hl => ?_, fun hl hne h0 => ?_⟩,
    fun o s t d hq hd he hf => ?_, fun o s t d hq hd he hf hl ho hw => ⟨fun hpend => ?_, fun hpend htag hpois hfree hroom => ?_⟩,
    fun o s d he hp hd => ⟨fun h => (execSiginf_effective he hp hd).trans (if_neg (Nat.not_le.mpr h)),
      fun h => (execSiginf_effective he hp hd).trans (if_pos h)⟩,
    fun o s d he hp hd hk ha => ⟨fun h => execSlots_asks he hp hd hk ha h, fun hal hin hfree hmask hslots =>
      execSlotsSel_asks he hp hd hk ha hal hin hfree hmask hslots⟩,
    fun o s d he => ⟨fun h => execSigrst_unprivileged he h, fun h hd hw => execSigrst_resets he h hd hw⟩⟩
  · refine (execTapsetx_effective he rfl hp hd ha hslot hoff).trans ((if_neg (Nat.not_le.mpr hl)).trans (if_neg ?_))
    obtain h | h := h0
    · simp [h]
    · simp only [Bool.and_eq_true, beq_iff_eq, not_and]
      exact fun _ => h
  · exact (execTapsetx_effective he rfl hp hd ha hslot hoff).trans (if_pos hl)
  · refine (execTapsetx_effective he rfl hp hd ha hslot hoff).trans ((if_neg (Nat.not_le.mpr hl)).trans (if_pos ?_))
    rw [Bool.and_eq_true, bne_iff_ne, beq_iff_eq]
    exact ⟨hne, h0⟩
  · have act := execTaprd_signal hq hd he hf
    refine ⟨fun bs p h => ?_, fun h => ?_, fun n i h hi => ?_, fun n i h hi hr => ⟨fun hle => ?_, fun hlt => ?_⟩,
      fun n i h hi ht => ?_⟩
    · exact act.trans (by simp only [h])
    · exact act.trans (by simp only [h])
    · exact act.trans (by simp only [h, remoteTapRead_prime hi])
    · exact act.trans (by simp only [h, remoteTapRead_ring hi hr, if_pos hle])
    · exact act.trans (by simp only [h, remoteTapRead_ring hi hr, if_neg hlt.not_ge])
    · have act : exec (.taprd o) s = archiveTapRead d t o.x o.d o.part.toNat n i s := by
        obtain ⟨h, rfl⟩ | ⟨h, ha, hdepth, hin⟩ := h
        · exact act.trans (by simp only [h])
        · exact act.trans (by simp only [h, remoteTapRead_archive hi ha hdepth hin])
      exact ⟨fun sel ha => act.trans (archiveTapRead_absent hi ht ha), fun va rs ha hs => act.trans (archiveTapRead_reads hi ht ha hs)⟩
  · exact (execTapwr_signal hq hd he hf hl ho hw).trans (if_pos (by simp [hpend]))
  · have act := (execTapwr_signal hq hd he hf hl ho hw).trans ((if_neg (by simp [hpend])).trans ((if_neg (by simp [htag])).trans
      ((if_neg (by obtain h | h := hpois <;> simp [h])).trans ((if_neg (by simp [hfree])).trans (withUndo_room hroom)))))
    cases hi : s.core.sys.intrap
    · rw [hi, if_neg Bool.false_ne_true] at act
      obtain ⟨hbed, hr, hsys, hcount⟩ := writePart_frame (t := t) (d := d) _ o.part.toNat (s.core.tapSource d o.x o.a).1
        (s.core.tapSource d o.x o.a).2.1
      exact ⟨_, act, hbed, hr, hsys, rfl, rfl, hcount⟩
    · rw [hi, if_pos rfl] at act
      obtain ⟨hbed, hr, hsys, hcount⟩ := writePart_frame (t := t) (d := d) s.core o.part.toNat (s.core.tapSource d o.x o.a).1
        (s.core.tapSource d o.x o.a).2.1
      exact ⟨_, act, hbed, hr, hsys, rfl, rfl, hcount⟩

end Sys2Proof.Proofs

namespace Sys2Proof.Proofs

open Sys2Proof Sys2Proof.Machine Sys2Proof.Laws

/-! ## TICK (R162 to R167, R319) -/

section Ticks

variable {s t : State}

theorem execTick_inHandler (h : s.core.sys.intrap = true) : execTick s = fault illegalOp s := if_pos h

/-- Whether a TICK ends the launch's last tick. -/
abbrev LastTick (s : State) : Prop := s.lastTick = some (s.core.sys.tick.toNat + 1)

/-- The checks of a TICK whose region has not closed. -/
theorem execTick_checks (hi : s.core.sys.intrap = false) (hb : s.core.ctl.begun = none) :
    (s.core.tickEarly = true → execTick s = stall s) ∧
    ∀ f, s.core.tickEarly = false → s.core.tickFault (s.lastTick == some (s.core.sys.tick.toNat + 1)) = some f → execTick s = raise f s := by
  rw [execTick, notInHandler_outside hi]
  simp only [hb, Option.isNone_none, Bool.true_and, Option.isSome_none, Bool.false_eq_true, if_false]
  refine ⟨fun he => if_pos he, fun f he hf => (if_neg (by simp [he])).trans ?_⟩
  simp only [hf]

/-- A TICK whose checks are over waits behind its region, or has its effect. -/
theorem execTick_closes (hc : s.Closes t) (hpass : s.core.ctl.begun ≠ none ∨ s.core.tickEarly = false ∧
      s.core.tickFault (s.lastTick == some (s.core.sys.tick.toNat + 1)) = none) : execTick s =
    (let last := s.lastTick == some (s.core.sys.tick.toNat + 1)
     if t.core.mx.queue.any (·.op.usesSample) || (!last && (t.tickWaits || !t.windowsOpen)) then stall t else .next (t.tick last)) := by
  rw [execTick, notInHandler_outside hc.outside]
  obtain hb | ⟨he, hf⟩ := hpass
  · obtain ⟨n, hb⟩ := Option.ne_none_iff_exists'.mp hb
    simp only [hb, Option.isNone_some, Bool.false_and, Bool.false_eq_true, if_false, Option.isSome_some, if_true]
    exact closing_closes hc
  · simp only [he, hf, Bool.and_false, Bool.false_eq_true, if_false, ite_self]
    exact closing_closes hc

theorem tickFault_unwritten {c : Core} {last : Bool} (h : c.unwritten = true) :
    c.tickFault last = some (precise unwrittenSample c.ctl.slot) := if_pos h

theorem tickFault_missing {c : Core} {sel : Word} (h : c.unwritten = false) (hm : c.missingBlock = some sel) :
    c.tickFault false = some { accessFault pageFault 10 c.ctl.slot 0 false with va := sel } := by
  rw [Core.tickFault, h, hm]
  rfl

theorem tickFault_none {c : Core} {last : Bool} (h : c.unwritten = false) (hm : last = true ∨ c.missingBlock = none) :
    c.tickFault last = none := by
  rw [Core.tickFault, h]
  obtain rfl | hm := hm
  · rfl
  · rw [hm]
    cases last <;> rfl

theorem countTick_sys (c : Core) : c.countTick.sys.tick = c.sys.tick + 1 ∧ c.countTick.sys.tickCycles = 0 := ⟨rfl, rfl⟩

end Ticks

/-- Settles O37: the checks of a TICK, its waits behind the region, and what it seals, counts and opens. -/
theorem ticks : Obligations.Ticks := by
  unfold Obligations.Ticks
  refine ⟨fun s h => execTick_inHandler h, fun s hi hb => ?_, fun s t hc hpass => ?_, countTick_sys⟩
  · obtain ⟨early, faults⟩ := execTick_checks hi hb
    refine ⟨early, fun he hu => faults _ he (tickFault_unwritten hu), fun sel he hu hl hm => faults _ he ?_⟩
    rw [beq_false_of_ne hl]
    exact tickFault_missing hu hm
  · have act := execTick_closes (t := t) hc (hpass.imp_right fun ⟨he, hu, h⟩ => ⟨he, tickFault_none hu (h.imp_left beq_iff_eq.mpr)⟩)
    refine ⟨fun hq => act.trans (if_pos (by simp [hq])), fun hq => ⟨fun hl => ?_, fun hl hw ho => ?_, fun hl hw => ?_⟩⟩
    · rw [beq_iff_eq.mpr hl] at act
      exact act.trans (if_neg (by simp [hq]))
    · rw [beq_false_of_ne hl] at act
      exact act.trans (if_neg (by simp [hq, hw, ho]))
    · rw [beq_false_of_ne hl] at act
      exact act.trans (if_pos (by obtain h | h := hw <;> simp [h]))

end Sys2Proof.Proofs

namespace Sys2Proof.Proofs

open Sys2Proof Sys2Proof.Machine Sys2Proof.Laws

/-! ## Events of a core: marks, landings, wakes, freeze and ballast cycles (R17, R18, R21, R29, R41, R42) -/

section CoreEvents

/-- What landings leave as it was. -/
structure SameBelow (c d : Core) : Prop where
  ctl : d.ctl = c.ctl
  seqr : d.seqr = c.seqr
  sig : d.sig = c.sig
  mem : d.mem = c.mem
  acc : d.acc = c.acc
  rg : d.rg = c.rg

theorem SameBelow.trans {c d e : Core} (h : SameBelow c d) (g : SameBelow d e) : SameBelow c e :=
  ⟨g.ctl.trans h.ctl, g.seqr.trans h.seqr, g.sig.trans h.sig, g.mem.trans h.mem, g.acc.trans h.acc, g.rg.trans h.rg⟩

theorem apply_below (l : Landing) (c : Core) : SameBelow c (l.apply c) := by cases l <;> exact ⟨rfl, rfl, rfl, rfl, rfl, rfl⟩

theorem applyAll_below (ls : List Landing) : ∀ c : Core, SameBelow c (applyAll ls c) := by
  induction ls with
  | nil => exact fun c => ⟨rfl, rfl, rfl, rfl, rfl, rfl⟩
  | cons l ls ih => exact fun c => (apply_below l c).trans (ih _)

theorem land_below (c : Core) : SameBelow c c.land :=
  have h : SameBelow c { c with pipe := { c.pipe with flights := c.pipe.flights.filter (·.count != 0) } } := ⟨rfl, rfl, rfl, rfl, rfl, rfl⟩
  h.trans (applyAll_below _ _)

theorem landAll_below (n : Nat) : ∀ c : Core, SameBelow c (Core.landAll n c) := by
  induction n with
  | zero => exact land_below
  | succ n ih =>
    intro c
    have step : SameBelow c.land { c.land with
      pipe := { c.land.pipe with flights := c.land.pipe.flights.map (fun f => { f with count := f.count - 1 }) } } :=
      ⟨rfl, rfl, rfl, rfl, rfl, rfl⟩
    exact ((land_below c).trans step).trans (ih _)

variable {s t : State} {n : Nat}

/-- A mark with no failed load, no result out and an empty gate is taken at once. -/
theorem mark_emptyGate (hf : s.core.failedLoad = none) (hp : s.core.anyPend = false) (hg : s.core.rg.gate = []) :
    s.mark = .ok { s with core := { s.core.marked with rg := { s.core.marked.rg with gate := [] } } } := by
  have fresh : s.freshGate = s := if_neg (by simp [hg])
  rw [State.mark]
  simp only [hf, fresh, hp, hg, Bool.false_eq_true, if_false, State.checkEntries, State.performGate, State.mapCore]

theorem mark_gate (h : s.mark = .ok t) : t.core.rg.gate = [] := by
  rw [State.mark] at h
  split at h
  · cases h
  · dsimp only at h
    split at h
    · cases h
    · split at h
      · exact performGate_gate _ _ _ h
      · rename_i hn
        exact absurd h (hn t)

/-- A core whose next bundle is marked. -/
structure MarksNext (n : Nat) (f : State) (w : BundleBits) : Prop where
  bundle : f.nextBundle f.core = .ok w
  runs : f.runs n = true
  marks : f.core.marks (decodeBundle w) = true

theorem execRestartMark_marks {w : BundleBits} (h : MarksNext n (s.focus n) w) : execRestartMark n s =
    match (s.focus n).mark with
    | .ok t => .next t
    | .wait t => .next t
    | .fail f => .next (enterFault f (s.focus n)) := by
  rw [execRestartMark]
  simp only [h.bundle]
  exact (if_neg (by simp [h.runs, h.marks])).trans (by cases (s.focus n).mark <;> rfl)

theorem execResultArrival_lands {k : Nat} {r : Request} {ls : List Landing}
    (h : (s.coreOf n).pipe.reqs.find? (fun r => r.num == k && (s.coreOf n).arrivable r) = some r) (hk : r.kind = .lands ls) :
    execResultArrival n k s = .next (s.modCore n (·.arrive r ls)) := by
  rw [execResultArrival, State.modCore, State.modCore]
  simp only [h, hk]

theorem wakeDone_due {v : Nat} {c : Core} (h : (v, 0) ∈ c.sys.wakes) : Core.wakeDone v c = { c with sys := { c.sys with
    wakes := c.sys.wakes.filter (fun e => e.1 != v || e.2 != 0), awake := c.sys.awake ||| BitVec.ofNat 4 (2 ^ v) } } := by
  have keep : (fun e : Nat × Nat => e.1 != v || e.2 != 0) = fun e => !(e.1 == v && e.2 == 0) := by
    funext e
    simp [bne, Bool.not_and]
  rw [keep]
  exact if_pos (List.any_eq_true.mpr ⟨_, h, by simp⟩)

/-- Each core of a list changed once by a change of its own, every number kept. -/
theorem foldl_modCore_of {f : Nat → Core → Core} (hf : ∀ k c, (f k c).id = c.id) (l : List Nat) : l.Nodup → ∀ s : State, s.Numbered →
    ∀ m, (l.foldl (fun s n => s.modCore n (f n)) s).coreOf m = if m ∈ l then f m (s.coreOf m) else s.coreOf m := by
  induction l with
  | nil => intro _ s _ m; exact (if_neg List.not_mem_nil).symm
  | cons a l ih =>
    intro hl s hs m
    obtain ⟨ha, hl⟩ := List.nodup_cons.mp hl
    have core (m : Nat) : (s.modCore a (f a)).coreOf m = if m = a then f a (s.coreOf a) else s.coreOf m :=
      coreOf_modCore s a m (f a) ((hf a _).trans (hs a))
    have numbered : (s.modCore a (f a)).Numbered := by
      intro m
      rw [core]
      split
      · rename_i e
        rw [hf, e]
        exact hs a
      · exact hs m
    refine (ih hl _ numbered m).trans ?_
    rw [core]
    by_cases e : m = a
    · subst e
      rw [if_neg ha, if_pos rfl, if_pos List.mem_cons_self]
    · simp only [List.mem_cons, e, false_or, if_false]

theorem foldl_modCore {f : Core → Core} (hf : ∀ c, (f c).id = c.id) (l : List Nat) (hl : l.Nodup) (s : State) (hs : s.Numbered) (m : Nat) :
    (l.foldl (fun s n => s.modCore n f) s).coreOf m = if m ∈ l then f (s.coreOf m) else s.coreOf m :=
  foldl_modCore_of (fun _ => hf) l hl s hs m

theorem foldl_modCore_rest {f : Core → Core} (l : List Nat) : ∀ s : State, (l.foldl (fun s n => s.modCore n f) s).turn = s.turn ∧
    (l.foldl (fun s n => s.modCore n f) s).mem = s.mem := by
  induction l with
  | nil => exact fun s => ⟨rfl, rfl⟩
  | cons a l ih =>
    intro s
    obtain ⟨hturn, hmem⟩ := ih (s.modCore a f)
    exact ⟨hturn.trans (State.modCore_turn ..), hmem.trans (State.modCore_mem ..)⟩

/-- The cycle stays while the members of a team are changed. -/
theorem foldl_freeze (l : List Nat) : ∀ s : State,
    l.foldl (fun s n => s.modCore n (Core.freeze s.cycle)) s = l.foldl (fun u n => u.modCore n (Core.freeze s.cycle)) s := by
  induction l with
  | nil => exact fun s => rfl
  | cons a l ih =>
    intro s
    refine (ih _).trans ?_
    rw [State.modCore_cycle]
    rfl

theorem freeze_sum (c : Core) (cycle : Nat) : (c.freeze cycle).pw.sum cycle cycle true = 0 := by
  have none_left : (c.pw.hist.filter (·.1 != cycle)).filter (fun e => decide (cycle ≤ e.1) && decide (e.1 ≤ cycle)) = [] := by
    rw [List.filter_filter, List.filter_eq_nil_iff]
    intro e _ h
    simp only [Bool.and_eq_true, decide_eq_true_eq, bne_iff_ne] at h
    omega
  simp only [Core.freeze, Weights.forget, Weights.sum, none_left]
  rfl

/-- The weight of 60 that a ballast cycle draws counts as ballast only. -/
theorem ballast_sum (c : Core) {cycle lo hi : Nat} (hlo : lo ≤ cycle) (hhi : cycle ≤ hi) :
    (c.ballast cycle).pw.sum lo hi true = c.pw.sum lo hi true + 60 ∧ (c.ballast cycle).pw.sum lo hi false = c.pw.sum lo hi false := by
  have all (w b : Nat) (l : List (Nat × Nat × Nat)) (f : Nat × Nat × Nat → Nat) :
      ((((cycle, w, b) :: l).filter (fun e => decide (lo ≤ e.1) && decide (e.1 ≤ hi))).map f).sum =
        f (cycle, w, b) + ((l.filter (fun e => decide (lo ≤ e.1) && decide (e.1 ≤ hi))).map f).sum := by
    simp [hlo, hhi]
  unfold Core.ballast Weights.sum
  cases e : c.pw.hist with
  | nil =>
    simp only [all]
    simp
  | cons x rest =>
    obtain ⟨n, w, b⟩ := x
    by_cases hn : n = cycle
    · subst hn
      simp only [beq_self_eq_true, if_true, all, Bool.false_eq_true, if_false]
      omega
    · simp only [beq_false_of_ne hn, all, Bool.false_eq_true, if_false, if_true]
      omega

/-- What a mark leaves of a core. -/
theorem marked_shadow (c : Core) : ∃ h, c.marked.rg.shadow = some h ∧ h.r = c.marked.r ∧ h.pc = c.ctl.pc ∧ h.dly = c.ctl.dly ∧
    h.cont = c.ctl.cont ∧ h.seqr = c.seqr ∧ h.sigs = c.sig.st ∧ c.marked.r = (c.landAll maxCount).r := by
  obtain ⟨hctl, hseqr, hsig, -, -, -⟩ := landAll_below maxCount c
  unfold Core.marked
  generalize Core.landAll maxCount c = d at *
  exact ⟨_, rfl, rfl, congrArg Ctl.pc hctl, congrArg Ctl.dly hctl, congrArg Ctl.cont hctl, hseqr, congrArg SigUnit.st hsig, rfl⟩

theorem marked_frame (c : Core) : c.marked.rg.undo = [] ∧ c.marked.rg.undoCount = 0 ∧ c.marked.rg.tiles = [] ∧ c.marked.sys.markv = true ∧
    c.marked.ctl.nextMarked = false ∧ c.marked.mem = c.mem ∧ c.marked.acc = c.acc ∧
    c.marked.pipe = (c.landAll maxCount).pipe := by
  obtain ⟨-, -, -, hmem, hacc, -⟩ := landAll_below maxCount c
  unfold Core.marked
  generalize Core.landAll maxCount c = d at *
  exact ⟨rfl, rfl, rfl, rfl, rfl, hmem, hacc, rfl⟩

end CoreEvents

/-- Settles O38: what a mark, a landing, an arrival and a wake leave; the cycles of freeze and ballast. -/
theorem coreEvents : Obligations.CoreEvents := by
  unfold Obligations.CoreEvents
  refine ⟨fun n s w hb hr hm => ⟨fun hf hp hg => ?_, fun t ht => ⟨?_, mark_gate ht⟩, fun r hr' => ?_⟩, fun n s => rfl,
    fun n k s r ls h hk => execResultArrival_lands h hk, fun n v s h => ?_, fun n s hfr hnd hnum => ?_,
    fun c cycle => ⟨rfl, freeze_sum c cycle, rfl, rfl, rfl, rfl⟩, fun n s h => if_pos h,
    fun c cycle => ⟨rfl, rfl, rfl, fun lo hi hlo hhi => ballast_sum c hlo hhi⟩⟩
  · have act := execRestartMark_marks ⟨hb, hr, hm⟩
    rw [mark_emptyGate hf hp hg] at act
    obtain ⟨h, hsh, hregs, hpc, hdly, hcont, hseqr, hsigs, hland⟩ := marked_shadow (s.focus n).core
    obtain ⟨hundo, hcount, htiles, hmarkv, hnext, hmem, hacc, hpipe⟩ := marked_frame (s.focus n).core
    generalize (s.focus n).core.marked = d at *
    refine ⟨_, h, act, hsh, hregs, hpc, hdly, hcont, hseqr, hsigs, hland, hundo, hcount, htiles, rfl, hmarkv, hnext, hmem, hacc,
      State.focus_mem .., State.focus_disp .., fun hf => ?_⟩
    exact (congrArg Pipe.flights hpipe).trans (landAll_flights _ _ hf)
  · exact (execRestartMark_marks ⟨hb, hr, hm⟩).trans (by rw [ht])
  · exact (execRestartMark_marks ⟨hb, hr, hm⟩).trans (by rw [hr'])
  · change Host.Outcome.next (s.modCore n (Core.wakeDone v)) = _
    rw [State.modCore, State.modCore, wakeDone_due h]
  · obtain ⟨m, hm, hw⟩ := hfr
    obtain ⟨hturn, hmem⟩ := foldl_modCore_rest (f := Core.freeze s.cycle) (s.coreOf n).team
      { s with turn := s.turn.filter (fun m => !((s.coreOf n).team.contains m)) }
    have act : exec (.freezeCycle n) s = _ := if_pos (List.any_eq_true.mpr ⟨m, hm, hw⟩)
    rw [foldl_freeze] at act
    exact ⟨_, act, hturn, hmem, foldl_modCore (f := Core.freeze s.cycle) (fun _ => rfl) _ hnd
      { s with turn := s.turn.filter (fun m => !((s.coreOf n).team.contains m)) } hnum⟩

end Sys2Proof.Proofs

namespace Sys2Proof.Proofs

open Sys2Proof Sys2Proof.Machine Sys2Proof.Laws

/-! ## Exceptions (R33, R342 to R344) -/

section Exceptions

variable {s : State} {n : Nat}

theorem clearReported_single {r : FaultRec} (h : r.origin ≠ 2) (n : Nat) : s.clearReported [(n, r)] = s := if_neg (by simpa using h)

theorem focus_self (s : State) : s.focus s.core.id = s := if_pos rfl

/-- A fault of one core of a unit, outside a handler, that is not a full gate's: rolled back, or precise. -/
theorem enterFault_unit {r : FaultRec} (hu : s.core.unit ≠ none) (ho : r.origin ≠ 2) (hc : r.code ≠ gateOverflow)
    (hi : s.core.sys.intrap = false) : enterFault r s =
      if r.rb = true then (s.rollFault r).focus s.core.id else s.trapTeam [(s.core.id, r)] s.core.sys.replay := by
  have hunit : s.core.unit.isNone = false := by
    cases e : s.core.unit with
    | none => exact absurd e hu
    | some u => rfl
  have hgate : (r.code == gateOverflow) = false := beq_false_of_ne hc
  rw [enterFault, State.enterFaults]
  simp only [clearReported_single ho, hunit, List.find?, hgate, hi, Bool.false_eq_true, if_false]
  cases r.rb
  · rfl
  · change ((s.focus s.core.id).rollFault r).focus s.core.id = _
    rw [focus_self]
    rfl

theorem occupied_of_unit (h : s.core.unit ≠ none) : s.core.occupied = true := by
  rw [Core.occupied, Option.isSome_iff_ne_none.mpr h, Bool.true_or]

theorem execRollbackFault_unit {r : FaultRec} (hu : (s.focus n).core.unit ≠ none) (ho : r.origin ≠ 2) (hc : r.code ≠ gateOverflow)
    (hi : (s.focus n).core.sys.intrap = false) :
    execRollbackFault n r s = .next (((s.focus n).rollFault (asRollback r)).focus (s.focus n).core.id) := by
  refine congrArg _ ((if_pos (occupied_of_unit hu)).trans ?_)
  exact (enterFault_unit (r := asRollback r) hu ho hc hi).trans (if_pos rfl)

theorem execTrapEntry_unit {r : FaultRec} (hu : (s.focus n).core.unit ≠ none) (ho : r.origin ≠ 2) (hc : r.code ≠ gateOverflow)
    (hi : (s.focus n).core.sys.intrap = false) : execTrapEntry n r s =
      .next ((s.focus n).trapTeam [((s.focus n).core.id, { r with rb := false })] (s.focus n).core.sys.replay) := by
  refine congrArg _ ((if_pos (occupied_of_unit hu)).trans ?_)
  exact (enterFault_unit (r := { r with rb := false }) hu ho hc hi).trans (if_neg Bool.false_ne_true)

theorem rollFault_declined {r : FaultRec} (hm : ∀ m ∈ s.core.team, (s.coreOf m).sys.markv = true) (hd : s.serviceOf r = .declined) :
    s.rollFault r = (s.rollTeam (s.core.rg.since + 1)).trapTeam [(s.core.id, r)] s.core.sys.replay := by
  rw [State.rollFault]
  refine (if_neg ?_).trans ?_
  · simpa using hm
  · simp only [hd]

theorem rollFault_unmarked {r : FaultRec} (hm : ∃ m ∈ s.core.team, (s.coreOf m).sys.markv = false) : s.rollFault r = s.endTeam r true :=
  if_pos (by simpa using hm)

theorem trapEntry_id (c : Core) : c.trapEntry.id = c.id := by
  unfold Core.trapEntry
  dsimp only
  split <;> rfl

theorem coreOf_trapTeam {r : FaultRec} {fs : List (Nat × FaultRec)} {replay : Bool} (hnd : s.core.team.Nodup) (hnum : s.Numbered) (m : Nat) :
    (s.trapTeam ((n, r) :: fs) replay).coreOf m = if m ∈ s.core.team
      then (match lookup ((n, r) :: fs) m with
        | some g => (s.coreOf m).record g replay false (s.coreOf m).member
        | none => (s.coreOf m).record r replay true (s.coreOf n).member).trapEntry
      else s.coreOf m := by
  refine foldl_modCore_of (f := fun k c => (match lookup ((n, r) :: fs) k with
      | some g => c.record g replay false c.member
      | none => c.record r replay true (s.coreOf n).member).trapEntry) (fun k c => ?_) _ hnd s hnum m
  refine (trapEntry_id _).trans ?_
  cases lookup ((n, r) :: fs) k <;> rfl

/-- A core rolled back keeps its number and its unit. -/
theorem rollback_id (k : Nat) (c : Core) : (c.rollback k).id = c.id ∧ (c.rollback k).unit = c.unit := by
  unfold Core.rollback
  split
  · exact ⟨rfl, rfl⟩
  · split <;> exact ⟨rfl, rfl⟩

theorem coreOf_onTeam {f : Core → Core} (hf : ∀ c, (f c).id = c.id) (hnd : s.core.team.Nodup) (hnum : s.Numbered) (m : Nat) :
    (s.onTeam f).coreOf m = if m ∈ s.core.team then f (s.coreOf m) else s.coreOf m := foldl_modCore hf _ hnd s hnum m

theorem onTeam_numbered {f : Core → Core} (hf : ∀ c, (f c).id = c.id) (hnd : s.core.team.Nodup) (hnum : s.Numbered) :
    (s.onTeam f).Numbered := by
  intro m
  rw [coreOf_onTeam hf hnd hnum]
  split
  · exact (hf _).trans (hnum m)
  · exact hnum m

theorem core_eq_coreOf (s : State) : s.core = s.coreOf s.core.id := (if_pos rfl).symm

theorem modCore_core_id (s : State) (n : Nat) (f : Core → Core) : (s.modCore n f).core.id = s.core.id := by
  unfold State.modCore State.putCore
  split
  · assumption
  · rfl

/-- The core in focus stays in focus when cores are changed. -/
theorem onTeam_core_id (f : Core → Core) (s : State) : (s.onTeam f).core.id = s.core.id := by
  have all (l : List Nat) : ∀ s : State, (l.foldl (fun s n => s.modCore n f) s).core.id = s.core.id := by
    induction l with
    | nil => exact fun _ => rfl
    | cons a l ih => exact fun s => (ih _).trans (modCore_core_id s a f)
  exact all _ s

theorem onTeam_team {f : Core → Core} (hf : ∀ c, (f c).id = c.id ∧ (f c).unit = c.unit) (hnd : s.core.team.Nodup) (hnum : s.Numbered) :
    (s.onTeam f).core.team = s.core.team := by
  have hid := onTeam_core_id f s
  have hunit : (s.onTeam f).core.unit = s.core.unit := by
    rw [core_eq_coreOf (s.onTeam f), hid, coreOf_onTeam (fun c => (hf c).1) hnd hnum, ← core_eq_coreOf s]
    split
    · exact (hf _).2
    · rfl
  rw [Core.team, Core.team, hid, hunit]

theorem coreOf_rollTeam {k : Nat} (hnd : s.core.team.Nodup) (hnum : s.Numbered) {m : Nat} (hm : m ∈ s.core.team) :
    ∃ lag log, (s.rollTeam k).coreOf m = { (s.coreOf m).rollback k with
      ctl := { ((s.coreOf m).rollback k).ctl with lag := lag }, rg := { ((s.coreOf m).rollback k).rg with log := log } } := by
  have roll (c : Core) := rollback_id k c
  have hnum1 : (s.onTeam (Core.rollback k)).Numbered := onTeam_numbered (fun c => (roll c).1) hnd hnum
  have team : (s.onTeam (Core.rollback k)).core.team = s.core.team := onTeam_team roll hnd hnum
  have core : (s.onTeam (Core.rollback k)).coreOf m = (s.coreOf m).rollback k :=
    (coreOf_onTeam (fun c => (roll c).1) hnd hnum m).trans (if_pos hm)
  rw [State.rollTeam]
  generalize s.onTeam (Core.rollback k) = t at *
  have lagged := coreOf_onTeam (s := t) (f := fun c => { c with ctl := { c.ctl with
    lag := c.ctl.issued + c.member - t.teamLeast (fun c => c.ctl.issued + c.member) } }) (fun _ => rfl) (team ▸ hnd) hnum1
  have hnum2 := onTeam_numbered (s := t) (f := fun c => { c with ctl := { c.ctl with
    lag := c.ctl.issued + c.member - t.teamLeast (fun c => c.ctl.issued + c.member) } }) (fun _ => rfl) (team ▸ hnd) hnum1
  have lagm := (lagged m).trans (if_pos (team ▸ hm))
  rw [core] at lagm
  dsimp only
  generalize t.onTeam (fun c => { c with ctl := { c.ctl with
    lag := c.ctl.issued + c.member - t.teamLeast (fun c => c.ctl.issued + c.member) } }) = u at *
  rw [coreOf_modCore _ _ _ _ (hnum2 _)]
  split
  · rename_i e
    rw [← e, lagm]
    exact ⟨_, _, rfl⟩
  · rw [lagm]
    exact ⟨_, ((s.coreOf m).rollback k).rg.log, rfl⟩

/-- What a core rolled back to a mark it can return to is. -/
theorem rollback_marked {c : Core} {h : Shadow} (hs : c.rg.shadow = some h) (hp : c.pastMark = false) (n : Nat) : c.rollback n = { c with
    r := { h.r with h := h.r.h.map (·.restored) },
    seqr := h.seqr,
    pipe := { c.pipe with flights := [], reqs := c.pipe.reqs.filter (fun r => r.seq < h.seq || c.toCome r), trapBuf := [], seq := h.seq },
    mem := { c.mem with bed := undoBed c.mem.bed c.rg.undo },
    acc := c.rg.tiles.foldl (fun a e => if q : e.1 < 8 then a.set e.1 e.2 q else a) c.acc,
    mx := c.mx.before h.seq,
    sig := c.sig.restore h.sigs h.sigPoison h.changes,
    rg := { c.rg with gate := [], undo := [], undoCount := 0, tiles := [], replayLeft := n, since := 0 },
    sys := { c.sys with replay := true, ctr := h.stochCtr, rfN := h.rfN, awake := h.awake, wakes := h.wakes },
    ctl := { c.ctl with pc := h.pc, dly := h.dly, cont := h.cont, after := h.after, nextMarked := true, issued := h.issued,
                        begun := none, done_ := [], paired := false, stream := c.ctl.stream.filter (fun e => e.trap || e.idx < h.issued) } } := by
  simp only [Core.rollback, hs]
  exact if_neg (by simp [hp])

/-- The fields of FAULT_INFO (R343). -/
theorem infoWord_fields (f : FaultRec) (replay sib nest : Bool) (member : Nat) :
    field (infoWord f replay sib nest member) 0 8 = f.code ∧ field (infoWord f replay sib nest member) 8 20 = f.detail ∧
    field (infoWord f replay sib nest member) 28 4 = 0 ∧ field (infoWord f replay sib nest member) 32 4 = BitVec.ofNat 4 member ∧
    field (infoWord f replay sib nest member) 36 2 = f.queue ∧ field (infoWord f replay sib nest member) 43 2 = f.origin ∧
    field (infoWord f replay sib nest member) 45 3 = f.slot ∧ field (infoWord f replay sib nest member) 48 16 = 0 := by
  unfold infoWord
  refine ⟨?_, ?_, ?_, ?_, ?_, ?_, ?_, ?_⟩ <;>
    simp (disch := omega) only [field_hi, field_lo, field_all, Nat.sub_self, Nat.reduceSub] <;> rfl

theorem infoWord_bits (f : FaultRec) (replay sib nest : Bool) (member : Nat) :
    (infoWord f replay sib nest member).getLsbD 38 = nest ∧ (infoWord f replay sib nest member).getLsbD 39 = sib ∧
    (infoWord f replay sib nest member).getLsbD 40 = replay ∧ (infoWord f replay sib nest member).getLsbD 41 = f.wr ∧
    (infoWord f replay sib nest member).getLsbD 42 = f.rb := by
  have bit {w : Word} {i : Nat} {b : Bool} (h : field w i 1 = boolW 1 b) : w.getLsbD i = b := by
    have := congrArg (·.getLsbD 0) h
    cases b <;> simpa [field, boolW] using this
  unfold infoWord
  refine ⟨bit ?_, bit ?_, bit ?_, bit ?_, bit ?_⟩ <;>
    simp (disch := omega) only [field_hi, field_lo, field_all, Nat.sub_self, Nat.reduceSub]

/-- Tiles put back one after another: each kept tile stands where it stood, the others stay. -/
theorem foldl_setTile (l : List (Nat × Tile)) {i : Nat} (hi : i < 8) : (l.map (·.1)).Nodup → ∀ acc : Vector Tile 8,
    (∀ t, (i, t) ∈ l → (l.foldl (fun a e => if q : e.1 < 8 then a.set e.1 e.2 q else a) acc)[i] = t) ∧
    (i ∉ l.map (·.1) → (l.foldl (fun a e => if q : e.1 < 8 then a.set e.1 e.2 q else a) acc)[i] = acc[i]) := by
  induction l with
  | nil => exact fun _ acc => ⟨fun t h => absurd h List.not_mem_nil, fun _ => rfl⟩
  | cons e l ih =>
    intro hnd acc
    obtain ⟨he, hnd⟩ := List.nodup_cons.mp hnd
    obtain ⟨kept, others⟩ := ih hnd (if q : e.1 < 8 then acc.set e.1 e.2 q else acc)
    refine ⟨fun t ht => ?_, fun hn => ?_⟩
    · obtain rfl | ht := List.mem_cons.mp ht
      · refine (others he).trans ?_
        simp [hi]
      · exact kept t ht
    · obtain ⟨hne, hn⟩ := not_or.mp (mt List.mem_cons.mpr hn)
      refine (others hn).trans ?_
      split
      · rw [Vector.getElem_set, if_neg (Ne.symm hne)]
      · rfl

theorem restored_eq (h : Handle) : h.restored = if h.st = .valid then { h with st := .stale, code := 0, cause := 0 } else h := by
  simp only [Handle.restored, beq_iff_eq]

/-- A write whose old bytes are written again has changed nothing. -/
theorem write_back {m : Memory} (h : m.wf) (a : Nat) (bs : List Byte) : (m.write a bs).write a (m.read a bs.length) = m := by
  have len : (m.read a bs.length).length = bs.length := by simp [read_eq h]
  refine eq_of_get_eq _ _ (Memory.wf_write (Memory.wf_write h a bs) a _) h fun b => ?_
  rw [get_write, get_write, len, read_eq h]
  split
  · rename_i hb
    simp [List.getD_eq_getElem?_getD, show b - a < bs.length by omega, show a + (b - a) = b by omega]
  · rfl

end Exceptions

/-- Settles O39: which exceptions a fault takes a unit into, what the fault registers tell, and what a rollback gives back. -/
theorem exceptions : Obligations.Exceptions := by
  unfold Obligations.Exceptions
  refine ⟨⟨fun n s r hu ho hc hi => ⟨fun hm hd => ?_, fun hm => ?_, execTrapEntry_unit hu ho hc hi⟩,
      fun s n r fs replay hnd hnum m => coreOf_trapTeam hnd hnum m,
      fun s k hnd hnum => ⟨fun m => coreOf_onTeam (fun c => (rollback_id k c).1) hnd hnum m, fun m hm => coreOf_rollTeam hnd hnum hm⟩,
      fun c r replay sib member => ?_⟩, fun c h n hs hp => ?_, fun m a bs us h => ?_⟩
  · exact (execRollbackFault_unit hu ho hc hi).trans (by rw [rollFault_declined hm hd])
  · exact (execRollbackFault_unit hu ho hc hi).trans (by rw [rollFault_unmarked hm])
  · obtain ⟨hcode, hdetail, hzero, hmember, hqueue, horigin, hslot, htop⟩ := infoWord_fields r replay sib c.sys.intrap member
    obtain ⟨hnest, hsib, hreplay, hwr, hrb⟩ := infoWord_bits r replay sib c.sys.intrap member
    exact ⟨rfl, hcode, hdetail, hzero, hmember, hqueue, hnest, hsib, hreplay, hwr, hrb, horigin, hslot, htop⟩
  · rw [rollback_marked hs hp]
    refine ⟨rfl, rfl, rfl, rfl, rfl, rfl, fun r => ?_, fun e => ?_, rfl, rfl, rfl, rfl, rfl, fun d => ?_, rfl, rfl, rfl, rfl, rfl, rfl,
      rfl, rfl, fun hnd i hi => ?_, rfl, rfl, rfl, rfl⟩
    · simp
    · simp [Matrix.before]
    · refine Eq.trans ?_ (restored_eq _)
      simp [Core.h]
    · obtain ⟨kept, others⟩ := foldl_setTile c.rg.tiles hi hnd c.acc
      simp only [Core.tile, dif_pos hi]
      exact ⟨kept, others⟩
  · exact congrArg (fun m => undoBed m us) (write_back h a bs)

end Sys2Proof.Proofs

namespace Sys2Proof.Proofs

open Sys2Proof Sys2Proof.Machine Sys2Proof.Laws

/-! ## Entries of the tile queue (R185, R192, R197, R202 to R204) -/

section TileEntries

variable {s : State} {n : Nat} {e : TileEnt} {es : List TileEnt}

/-- An entry at the head that nothing holds. -/
structure HeadEntry (s : State) (e : TileEnt) (es : List TileEnt) : Prop where
  queue : s.core.mx.queue = e :: es
  sound : s.core.mx.fault = none
  free : s.core.mx.held = false

/-- The step of an entry. -/
def tileStep (s : State) (e : TileEnt) : TileRes :=
  match e.op with
  | .attn o => s.runAttn e o
  | _ => s.runTile e

theorem execTileEntryComplete_head (h : HeadEntry (s.focus n) e es) : execTileEntryComplete n s =
    match tileStep (s.focus n) e with
    | .done t => .next (t.mapCore (·.popTile))
    | .more t => .next t
    | .wait => .next (s.focus n)
    | .fault f => .next ((s.focus n).mapCore (fun c => { c with mx := { c.mx with fault := some f } })) := by
  rw [execTileEntryComplete]
  simp only [h.queue]
  refine (if_neg (by simp [h.sound, h.free])).trans ?_
  unfold tileStep
  cases e.op <;> rfl

theorem execTileEntryComplete_held (hq : (s.focus n).core.mx.queue = e :: es) (h : (s.focus n).core.mx.held = true) :
    execTileEntryComplete n s = .next (s.focus n) := by
  rw [execTileEntryComplete]
  simp only [hq]
  exact if_pos (by simp [h])

/-- A tile an entry has written: what of the core has changed with it. -/
theorem entryTile_frame (c : Core) (e : TileEnt) {k : Nat} (hk : k < 8) (v : Tile) :
    (c.entryTile e k v).tile k = v ∧ (∀ j, j ≠ k → (c.entryTile e k v).tile j = c.tile j) ∧ (c.entryTile e k v).mx = c.mx ∧
    (c.entryTile e k v).r = c.r ∧ (c.entryTile e k v).mem = c.mem ∧ (c.entryTile e k v).sys = c.sys := by
  obtain ⟨g, hg⟩ : ∃ g, (if c.afterMark e then c.shadowTile k else c) = { c with rg := g } := by
    split
    · exact shadowTile_eq c k
    · exact ⟨c.rg, rfl⟩
  rw [Core.entryTile, hg]
  exact ⟨(tile_setTile _ _ hk _).trans (if_pos rfl), fun j hj => (tile_setTile _ _ hk _).trans (if_neg hj), Core.setTile_mx ..,
    Core.setTile_r .., Core.setTile_mem .., Core.setTile_sys ..⟩

/-- An entry performed that writes its tile and leaves. -/
structure WritesTile (s : State) (n k : Nat) (es : List TileEnt) (v : Tile) (t : State) : Prop where
  next : execTileEntryComplete n s = .next t
  tile : t.core.tile k = v
  others : ∀ j, j ≠ k → t.core.tile j = (s.focus n).core.tile j
  queue : t.core.mx.queue = es
  regs : t.core.r = (s.focus n).core.r
  bed : t.core.mem = (s.focus n).core.mem
  sys : t.core.sys = (s.focus n).core.sys
  mem : t.mem = s.mem

theorem writesTile_of_step {k : Nat} {v : Tile} (h : HeadEntry (s.focus n) e es) (hk : k < 8)
    (hs : tileStep (s.focus n) e = .done ((s.focus n).mapCore (fun c => c.entryTile e k v))) : ∃ t, WritesTile s n k es v t := by
  have act := execTileEntryComplete_head h
  rw [hs] at act
  obtain ⟨htile, hothers, hmx, hr, hmem, hsys⟩ := entryTile_frame (s.focus n).core e hk v
  refine ⟨_, act, htile, hothers, ?_, hr, hmem, hsys, State.focus_mem ..⟩
  change (((s.focus n).core.entryTile e k v).mx.queue.drop 1) = es
  rw [hmx, h.queue]
  rfl

/-- An entry that writes the bed: what of the core has changed with it. -/
theorem entryBed_frame (c : Core) (e : TileEnt) (a : Nat) (bs : List Byte) :
    (c.entryBed e a bs).mem.bed = c.mem.bed.write a bs ∧ (c.entryBed e a bs).acc = c.acc ∧ (c.entryBed e a bs).mx = c.mx ∧
    (c.entryBed e a bs).r = c.r := ⟨rfl, rfl, rfl, rfl⟩

/-- Rows put into tiles leave the queue. -/
theorem putRows_mx (o : AttnOp) (e : TileEnt) (rows : List (List Nat)) (poison : Bool) (c : Core) : (o.putRows e rows poison c).mx = c.mx := by
  have tile (c : Core) (k : Nat) (v : Tile) : (c.entryTile e k v).mx = c.mx := by
    obtain ⟨g, hg⟩ : ∃ g, (if c.afterMark e then c.shadowTile k else c) = { c with rg := g } := by
      split
      · exact shadowTile_eq c k
      · exact ⟨c.rg, rfl⟩
    rw [Core.entryTile, hg]
    exact Core.setTile_mx ..
  have all (l : List (Nat × Nat)) (v : Core → Nat × Nat → Tile) : ∀ c : Core,
      (l.foldl (fun c th => c.entryTile e th.1 (v c th)) c).mx = c.mx := by
    induction l with
    | nil => exact fun _ => rfl
    | cons th l ih => exact fun c => (ih _).trans (tile c _ _)
  exact all _ _ c

theorem attnEnd_mx (c : Core) (e : TileEnt) (o : AttnOp) : (c.attnEnd e o).mx = c.mx := putRows_mx o e _ o.poison c

/-! The numbers an entry computes. -/

/-- An element of rows of one length laid end to end. -/
theorem getElem?_flatMap {α β : Type} {k : Nat} (f : α → List β) (l : List α) (hl : ∀ x ∈ l, (f x).length = k) {j : Nat} (hj : j < k) :
    ∀ i, (l.flatMap f)[k * i + j]? = l[i]?.bind (fun x => (f x)[j]?) := by
  induction l with
  | nil => intro i; simp
  | cons a l ih =>
    have ha := hl a List.mem_cons_self
    intro i
    rw [List.flatMap_cons]
    cases i with
    | zero =>
      rw [Nat.mul_zero, Nat.zero_add, List.getElem?_append_left (by omega)]
      rfl
    | succ i =>
      rw [List.getElem?_append_right (by rw [ha, Nat.mul_succ]; omega), ha, show k * (i + 1) + j - k = k * i + j by rw [Nat.mul_succ]; omega]
      exact ih (fun x hx => hl x (List.mem_cons_of_mem _ hx)) i

/-- An element of a table over two lists, row by row. -/
theorem getD_table {α β : Type} (as : List α) (bs : List β) (f : α → Nat → β → Nat → Nat) {i j : Nat} (a0 : α) (b0 : β)
    (hi : i < as.length) (hj : j < bs.length) :
    ((as.zip (List.range as.length)).flatMap (fun x => (bs.zip (List.range bs.length)).map (fun y => f x.1 x.2 y.1 y.2))).getD
      (bs.length * i + j) 0 = f (as.getD i a0) i (bs.getD j b0) j := by
  rw [List.getD_eq_getElem?_getD, getElem?_flatMap _ _ (by simp) hj]
  simp [hi, hj, List.getD_eq_getElem?_getD]

theorem length_imageRows (w n : Nat) (bs : List Byte) : (imageRows w n bs).length = n := by simp [imageRows]

theorem length_operandRows {p : Profile} {mode : Nat} {af : Bool} {n : Nat} {bs : List Byte} (h : mode ≠ 5) :
    (operandRows p mode af n bs).length = n := by
  rw [operandRows]
  simp [h, length_imageRows]

/-- The elements of bytes, packed, are the bytes. -/
theorem packElems_elemsOfBytes {n w : Nat} (hw : 0 < w) (bs : List Byte) (hn : n = 8 * bs.length / w * w) :
    packElems n w (elemsOfBytes w bs) = BitVec.ofNat n (natOfBytes bs) := by
  apply BitVec.eq_of_getLsbD_eq
  intro j hj
  have hi : j / w < 8 * bs.length / w := Nat.div_lt_of_lt_mul (by rw [Nat.mul_comm]; omega)
  rw [getLsbD_packElems hw _ hj, BitVec.getLsbD_ofNat, decide_eq_true hj, Bool.true_and, elemsOfBytes, List.getD_eq_getElem?_getD,
    List.getElem?_map, List.getElem?_range hi, Option.map_some, Option.getD_some, natBits, Nat.testBit_mod_two_pow, Nat.testBit_shiftRight,
    decide_eq_true (Nat.mod_lt _ hw), Bool.true_and, Nat.div_add_mod]

theorem length_fill (n : Nat) : ∀ (a : Nat) (m : Memory), (Memory.fill a n m).length = n := by
  induction n with
  | zero => exact fun _ _ => rfl
  | succ n ih =>
    intro a m
    cases m with
    | nil => exact congrArg (· + 1) (ih _ _)
    | cons c m =>
      rw [Memory.fill]
      split <;> exact congrArg (· + 1) (ih _ _)

theorem length_read (m : Memory) (a n : Nat) : (m.read a n).length = n := length_fill n a _

theorem natBits_natOfBytes {bs : List Byte} {i : Nat} (h : i < bs.length) : natBits (natOfBytes bs) (8 * i) 8 = bs[i].toNat := by
  rw [← ofNat_natOfBytes_shiftRight bs i h, BitVec.toNat_ofNat]
  rfl

theorem elemsOfBytes_bytes (bs : List Byte) : elemsOfBytes 8 bs = bs.map (·.toNat) := by
  rw [elemsOfBytes]
  refine List.ext_getElem (by simp) fun i hi hi' => ?_
  rw [List.length_map] at hi'
  simp only [List.getElem_map, List.getElem_range, natBits_natOfBytes hi']

/-- A row of 128 bytes. -/
theorem row_eq {bs : List Byte} {i : Nat} (h : 128 * i + 128 ≤ bs.length) :
    (bs.drop (128 * i)).take 128 = (List.range 128).map (fun k => bs.getD (128 * i + k) 0) := by
  refine List.ext_getElem (by simp; omega) fun k hk hk' => ?_
  rw [List.length_map, List.length_range] at hk'
  simp [List.getD_eq_getElem?_getD, show 128 * i + k < bs.length by omega]

theorem getD_imageRows_bytes {bs : List Byte} {n i : Nat} (hi : i < n) (h : 128 * n ≤ bs.length) :
    (imageRows 8 n bs).getD i [] = (List.range 128).map (fun k => (bs.getD (128 * i + k) 0).toNat) := by
  have row : 128 * i + 128 ≤ bs.length := le_trans (by omega) h
  rw [imageRows, List.getD_eq_getElem?_getD, List.getElem?_map, List.getElem?_range hi, Option.map_some, Option.getD_some, elemsOfBytes_bytes,
    row_eq row, List.map_map]
  rfl

theorem foldl_add_sum {α : Type} (f : α → Int) (l : List α) : ∀ a : Int, l.foldl (fun t x => t + f x) a = a + (l.map f).sum := by
  induction l with
  | nil => intro a; simp
  | cons x l ih => intro a; simp [ih, Int.add_assoc]

theorem ofNat_natWrap (z : Int) : BitVec.ofNat 32 (natWrap 32 z) = BitVec.ofInt 32 z := by
  apply BitVec.eq_of_toNat_eq
  rw [BitVec.toNat_ofNat, BitVec.toNat_ofInt, natWrap]
  omega

/-- The old word that an MMA adds to. -/
theorem inc_eq (ovw : Bool) (old : TileBits) {k : Nat} (hk : k < 8192) :
    (if ovw then List.replicate 8192 0 else elemsOf old 32).getD k 0 = if ovw = true then 0 else (old.extractLsb' (32 * k) 32).toNat := by
  cases ovw
  · exact getD_elemsOf old hk
  · exact (List.getD_eq_getElem?_getD ..).trans (by rw [if_pos rfl, List.getElem?_replicate, if_pos hk]; rfl)

section Words

variable {af bf ovw : Bool} {prof : Nat} {sA : VBits} {sB : BitVec 32} {old : TileBits} {a b : List Byte} {i j : Nat}

theorem mmaWords_int (hi : i < 128) (hj : j < 64) : (mmaWords 2 af bf ovw prof sA sB old a b).getD (64 * i + j) 0 =
    mmaInt af bf (if ovw = true then 0 else (old.extractLsb' (32 * (64 * i + j)) 32).toNat) ((imageRows 8 128 a).getD i [])
      ((imageRows 8 64 b).getD j []) := by
  rw [← inc_eq ovw old (show 64 * i + j < 8192 by omega)]
  have table := getD_table (imageRows 8 128 a) (imageRows 8 64 b) (fun r i c j =>
    mmaInt af bf ((if ovw then List.replicate 8192 0 else elemsOf old 32).getD (64 * i + j) 0) r c) (i := i) (j := j) [] []
    (by rwa [length_imageRows]) (by rwa [length_imageRows])
  rw [length_imageRows, length_imageRows] at table
  exact table

theorem mmaWords_float {mode : Nat} {p : Profile} (hp : profileOf prof = some p) (h5 : mode ≠ 5) (h2 : mode ≠ 2) (hi : i < 128) (hj : j < 64) :
    (mmaWords mode af bf ovw prof sA sB old a b).getD (64 * i + j) 0 =
      mmaElem p mode (if ovw = true then 0 else (old.extractLsb' (32 * (64 * i + j)) 32).toNat) (sA.extractLsb' (32 * i) 32).toNat sB.toNat
        ((operandRows p mode af 128 a).getD i []) ((operandRows p mode bf 64 b).getD j []) := by
  rw [← inc_eq ovw old (show 64 * i + j < 8192 by omega)]
  have table := getD_table (operandRows p mode af 128 a) (operandRows p mode bf 64 b) (fun r i c j =>
    mmaElem p mode ((if ovw then List.replicate 8192 0 else elemsOf old 32).getD (64 * i + j) 0) (sA.extractLsb' (32 * i) 32).toNat sB.toNat r c)
    (i := i) (j := j) [] [] (by rwa [length_operandRows h5]) (by rwa [length_operandRows h5])
  rw [length_operandRows h5, length_operandRows h5] at table
  refine Eq.trans ?_ table
  rw [mmaWords, if_neg (by simpa using h2)]
  simp only [hp]
  rfl

/-- An INT8 product of a row and a row. -/
theorem mmaInt_sum (acc : Nat) (x y : Nat → Byte) : BitVec.ofNat 32 (mmaInt af bf acc ((List.range 128).map (fun k => (x k).toNat))
      ((List.range 128).map (fun k => (y k).toNat))) = BitVec.ofNat 32 acc +
    BitVec.ofInt 32 (((List.range 128).map (fun k => (if af = true then (x k).toInt else ((x k).toNat : Int)) *
      (if bf = true then (y k).toInt else ((y k).toNat : Int)))).sum) := by
  rw [mmaInt, ofNat_natWrap, List.zip_map', List.foldl_map]
  simp only [sNat_toNat_bits (w := 8) (by decide)]
  rw [foldl_add_sum, BitVec.ofInt_add, BitVec.ofInt_natCast]

end Words

theorem mzero_step {k : Nat} (ho : e.op = .mzero k) : tileStep s e =
    .done (s.mapCore (fun c => c.entryTile e k { s.core.tile k with bits := 0, poison := false })) := by
  rw [tileStep, ho]
  dsimp only
  rw [State.runTile, ho]
  rfl

theorem mld_step {k a : Nat} (ho : e.op = .mld k a 0) : tileStep s e =
    .done (s.mapCore (fun c => c.entryTile e k { s.core.tile k with
      bits := BitVec.ofNat 262144 (natOfBytes ((s.bedBefore e.idx s.core.id).read a 32768)),
      poison := linesPoisoned s.core.mem.poisoned a 32768 })) := by
  rw [← packElems_elemsOfBytes (w := 32) (by decide) _ (by rw [length_read]), tileStep, ho]
  dsimp only
  rw [State.runTile, ho]
  rfl

theorem mrowW_step {k row : Nat} {b : VBits} {p : Bool} (ho : e.op = .mrowW k row b p) : tileStep s e =
    .done (s.mapCore (fun c => c.entryTile e k { s.core.tile k with
      bits := putField (s.core.tile k).bits (2048 * row) (b.setWidth 2048), poison := (s.core.tile k).poison || p })) := by
  rw [tileStep, ho]
  dsimp only
  rw [State.runTile, ho]
  rfl

/-- A row of a tile replaced by the low half of a vector. -/
theorem getLsbD_putRow (x : TileBits) (row : Nat) (b : VBits) {i : Nat} (hi : i < 262144) :
    (putField x (2048 * row) (b.setWidth 2048)).getLsbD i =
      if 2048 * row ≤ i ∧ i < 2048 * (row + 1) then b.getLsbD (i - 2048 * row) else x.getLsbD i := by
  rw [getLsbD_putField _ _ _ hi, Nat.mul_succ]
  split
  · rename_i h
    rw [BitVec.getLsbD_setWidth, decide_eq_true (show i - 2048 * row < 2048 by omega), Bool.true_and]
  · rfl

/-- An MST of a sound tile, and of a poisoned one. -/
theorem mstBed_step {k a : Nat} {img : Nat} {sat : Bool} (ho : e.op = .mstBed k a img sat) : tileStep s e =
    if (s.core.tile k).poison then .fault (tileFault poisonConsumed 0 0 true)
    else .done (s.mapCore (fun c => c.entryBed e a (storeImage img sat (c.tile k).bits))) := by
  rw [tileStep, ho]
  dsimp only
  rw [State.runTile, ho]

/-- An MMA of two operands in the bed of its own core. -/
theorem mma_step {k a b mode : Nat} {af bf ovw mc : Bool} {prof : Nat} {sA : VBits} {sB : BitVec 32} {sp : Bool} (h5 : mode ≠ 5)
    (ho : e.op = .mma k (.bed a) b none mode af bf ovw mc prof sA sB sp) : tileStep s e =
      .done (s.mapCore (fun c => c.entryTile e k { s.core.tile k with
        bits := packElems 262144 32 (mmaWords mode af bf ovw prof sA sB (s.core.tile k).bits
          ((s.bedBefore e.idx s.core.id).read a 16384) ((s.bedBefore e.idx s.core.id).read b 8192)),
        poison := linesPoisoned s.core.mem.poisoned a 16384 || linesPoisoned s.core.mem.poisoned b 8192 ||
          (!ovw && (s.core.tile k).poison) || ((mode == 1 || !ovw) && sp) })) := by
  have hm : (mode == 5) = false := beq_false_of_ne h5
  have self : s.coreOf s.core.id = s.core := if_pos rfl
  rw [tileStep, ho]
  dsimp only
  rw [State.runTile, ho]
  dsimp only
  rw [State.runMma]
  simp only [Option.getD_none, Option.isSome_none, Bool.false_and, Bool.false_eq_true, if_false, hm, bne_self_eq_false, self]
  rfl

section Attn

variable {o : AttnOp} {j : Nat}

theorem attn_begins (ho : e.op = .attn o) (hn : o.next = none) :
    tileStep s e = .more (s.mapCore (fun c => c.attnBegin (s.bedBefore e.idx s.core.id) e o)) := by
  rw [tileStep, ho]
  dsimp only
  rw [State.runAttn, hn]
  simp only [State.mapCore]

theorem attn_ends (ho : e.op = .attn o) (hn : o.next = some j) (hj : o.khi ≤ o.klo ∨ o.khi ≤ 64 * j) :
    tileStep s e = .done (s.mapCore (fun c => c.attnEnd e o)) := by
  rw [tileStep, ho]
  dsimp only
  rw [State.runAttn, hn]
  exact if_pos (by simpa using hj)

theorem attn_computes (ho : e.op = .attn o) (hn : o.next = some j) (hk : o.klo < o.khi) (hj : 64 * j < o.khi) {l : List (Nat × Nat × Nat)}
    {p : Profile} (hl : o.maps = some l) (hp : profileOf o.prof = some p) : tileStep s e = .more (s.attnTile e o p j) := by
  rw [tileStep, ho]
  dsimp only
  rw [State.runAttn, hn]
  refine (if_neg (by simp [hk, hj])).trans ?_
  simp only [hl, hp]

end Attn

end TileEntries

/-- Settles O40: each entry of the tile queue performed, the report of its fault, and every element of an MMA. -/
theorem tileEntries : Obligations.TileEntries := by
  unfold Obligations.TileEntries
  refine ⟨⟨fun n s e es hq => ⟨fun hh => execTileEntryComplete_held hq hh, fun hf hh => ?_⟩, fun n s r hr => ?_⟩,
    fun af bf ovw prof sA sB old a b ha hb i hi j hj => ?_,
    fun mode af bf ovw prof p sA sB old a b hp hm h2 ha hb i hi j hj => ?_⟩
  · have head : HeadEntry (s.focus n) e es := ⟨hq, hf, hh⟩
    have writes {k : Nat} {v : Tile} (hk : k < 8) (hs : tileStep (s.focus n) e = .done ((s.focus n).mapCore (fun c => c.entryTile e k v))) :
        ∃ t, exec (.tileEntryComplete n) s = .next t ∧ t.core.tile k = v ∧ (∀ j, j ≠ k → t.core.tile j = (s.focus n).core.tile j) ∧
          t.core.mx.queue = es ∧ t.core.r = (s.focus n).core.r ∧ t.core.mem = (s.focus n).core.mem ∧ t.core.sys = (s.focus n).core.sys ∧
          t.mem = s.mem := by
      obtain ⟨t, w⟩ := writesTile_of_step head hk hs
      exact ⟨t, w.next, w.tile, w.others, w.queue, w.regs, w.bed, w.sys, w.mem⟩
    have act := execTileEntryComplete_head head
    refine ⟨fun k hk ho => writes hk (mzero_step ho), fun k hk a ho => writes hk (mld_step ho),
      fun k hk row hrow b p ho => ⟨_, writes hk (mrowW_step ho), fun i hi => getLsbD_putRow _ _ _ hi⟩,
      fun k hk a b mode af bf ovw mc prof sA sB sp hm ho => writes hk (mma_step (by omega) ho),
      fun k a sat ho => ⟨fun hp => ?_, fun hp => ?_⟩, fun o ho => ⟨fun hn => ?_, fun j hn => ⟨fun hj => ?_, fun hk hj l p hl hp => ?_⟩⟩⟩
    · rw [mstBed_step ho, hp, if_neg Bool.false_ne_true] at act
      obtain ⟨hbed, hacc, hmx, hr⟩ := entryBed_frame (s.focus n).core e a (storeImage 0 sat ((s.focus n).core.tile k).bits)
      refine ⟨_, act, hbed, hacc, ?_, hr, State.focus_mem ..⟩
      exact (congrArg (fun m : Matrix => m.queue.drop 1) hmx).trans (by rw [hq]; rfl)
    · rw [mstBed_step ho, hp, if_pos rfl] at act
      exact ⟨_, _, act, rfl, rfl, rfl, hq, rfl, rfl⟩
    · rw [attn_begins ho hn] at act
      exact act
    · rw [attn_ends ho hn hj] at act
      refine ⟨_, act, ?_⟩
      exact (congrArg (fun m : Matrix => m.queue.drop 1) (attnEnd_mx (s.focus n).core e o)).trans (by rw [hq]; rfl)
    · rw [attn_computes ho hn hk hj hl hp] at act
      exact act
  · rw [show exec (.tileFaultReport n) s = execTileFaultReport n s from rfl, execTileFaultReport]
    simp only [hr]
    rfl
  · rw [mmaWords_int hi hj, getD_imageRows_bytes hi (by omega), getD_imageRows_bytes hj (by omega), mmaInt_sum]
    congr 1
    cases ovw
    · exact elem_ofNat_toNat _
    · rfl
  · have w := mmaWords_float (af := af) (bf := bf) (ovw := ovw) (sA := sA) (sB := sB) (old := old) (a := a) (b := b) hp (by omega) h2 hi hj
    refine ⟨fun h1 => w.trans (if_neg (by simpa using h1)), fun h1 => ?_⟩
    subst h1
    exact w

end Sys2Proof.Proofs

namespace Sys2Proof.Proofs

open Sys2Proof Sys2Proof.Machine Sys2Proof.Laws

/-! ## Commands at the head of a queue (R232 to R244) -/

section CommandQueues

theorem queue_setQueue (c : Core) {n : Nat} (q : Queue) (hn : n < 4) (m : Nat) : (c.setQueue n q).queue m = if m = n then q else c.queue m := by
  rw [Core.setQueue, dif_pos hn]
  unfold Core.queue
  by_cases hm : m < 4
  · rw [dif_pos hm, dif_pos hm]
    change (c.eng.set n q hn)[m] = if m = n then q else c.eng[m]
    rw [Vector.getElem_set]
    simp only [eq_comm]
  · rw [dif_neg hm, dif_neg hm, if_neg (by omega)]

theorem queue_popCmd (c : Core) {q : Nat} (hq : q < 4) :
    (c.popCmd q).queue q = { c.queue q with ents := (c.queue q).ents.drop 1 } := (queue_setQueue c _ hq q).trans (if_pos rfl)

theorem queue_popCmd_ne (c : Core) {q m : Nat} (h : m ≠ q) : (c.popCmd q).queue m = c.queue m := by
  by_cases hq : q < 4
  · exact (queue_setQueue c _ hq m).trans (if_neg h)
  · rw [Core.popCmd, Core.setQueue, dif_neg hq]

theorem popCmd_frame (c : Core) (q : Nat) : (c.popCmd q).r = c.r ∧ (c.popCmd q).mem = c.mem ∧ (c.popCmd q).id = c.id ∧
    (c.popCmd q).unit = c.unit ∧ ((c.popCmd q).queue q).target = (c.queue q).target ∧ ((c.popCmd q).queue q).faulted = (c.queue q).faulted := by
  refine ⟨Core.setQueue_r .., Core.setQueue_mem .., Core.setQueue_id .., Core.setQueue_unit .., ?_⟩
  by_cases hq : q < 4
  · rw [queue_popCmd c hq]
    exact ⟨rfl, rfl⟩
  · rw [Core.popCmd, Core.setQueue, dif_neg hq]
    exact ⟨rfl, rfl⟩

variable {s : State} {n q : Nat} {e : QEnt} {es : List QEnt}

/-- A run's state with its entry gone and its region closed: the core but for its queue, and memory. -/
theorem complete_frame (r : Run) (e : QEnt) :
    (r.complete e false).core = r.s.core.popCmd r.q ∧ (r.complete e false).mem = r.s.mem := by
  have closed : (if r.region == 0 then r.s else r.s.closeRegion r.region).core = r.s.core ∧
      (if r.region == 0 then r.s else r.s.closeRegion r.region).mem = r.s.mem := by
    split <;> exact ⟨rfl, rfl⟩
  obtain ⟨hcore, hmem⟩ := closed
  exact ⟨congrArg (·.popCmd r.q) hcore, hmem⟩

theorem beginRun_frame (s : State) (q : Nat) (e : QEnt) :
    (s.beginRun q e).s.core = s.core ∧ (s.beginRun q e).s.mem = s.mem ∧ (s.beginRun q e).q = q ∧ (s.beginRun q e).pr = e.pr := by
  unfold State.beginRun
  split <;> exact ⟨rfl, rfl, rfl, rfl⟩

/-- A command at the head that nothing holds. -/
structure FreeHead (s : State) (q : Nat) (e : QEnt) (es : List QEnt) : Prop where
  queue : (s.core.queue q).ents = e :: es
  free : e.held = none
  unit : s.core.unit ≠ none

theorem execCommandComplete_head (h : FreeHead (s.focus n) q e es) : execCommandComplete n q s = .next ((s.focus n).performHead q e) := by
  have hu : (s.focus n).core.unit.isNone = false := by
    cases e : (s.focus n).core.unit with
    | none => exact absurd e h.unit
    | some u => rfl
  rw [execCommandComplete]
  simp only [h.queue]
  exact if_neg (by simp [h.free, hu])

/-- What a completed command leaves: its entry gone, the registers as they were. -/
theorem complete_head (h : (s.core.queue q).ents = e :: es) (hq : q < 4) :
    ((((s.beginRun q e).complete e false).core.queue q).ents = es ∧ ((s.beginRun q e).complete e false).core.r = s.core.r) ∧
    (((s.beginRun q e).complete e false).core.queue q).faulted = (s.core.queue q).faulted ∧
    (((s.beginRun q e).complete e false).core.queue q).target = (s.core.queue q).target ∧
    ((s.beginRun q e).complete e false).core.mem = s.core.mem ∧ ((s.beginRun q e).complete e false).mem = s.mem := by
  obtain ⟨hcore, hmem⟩ := complete_frame (s.beginRun q e) e
  obtain ⟨bcore, bmem, bq, -⟩ := beginRun_frame s q e
  rw [bcore, bq] at hcore
  obtain ⟨hr, hcmem, -, -, htarget, hfaulted⟩ := popCmd_frame s.core q
  rw [hcore]
  refine ⟨⟨?_, hr⟩, hfaulted, htarget, hcmem, hmem.trans bmem⟩
  rw [queue_popCmd _ hq, h]
  rfl

/-- With no notice target, or for a command that has none, a good completion is as another. -/
theorem complete_quiet {r : Run} (h : (r.s.core.queue r.q).target = none) : r.complete e true = r.complete e false := by
  have core := (complete_frame r e).1
  have target : ((r.complete e false).core.queue r.q).target = none := by
    rw [core]
    exact (popCmd_frame r.s.core r.q).2.2.2.2.1.trans h
  have good : r.complete e true = if (true && e.cmd.noticed) = true then r.notice (r.complete e false) else r.complete e false := by
    unfold Run.complete
    rfl
  rw [good]
  split
  · rw [Run.notice, target]
  · rfl

theorem complete_noticed {r : Run} (h : e.cmd.noticed = true) : r.complete e true = r.notice (r.complete e false) := by
  unfold Run.complete
  dsimp only
  rw [if_pos (by simp [h])]
  rfl

/-- In a FAULTED queue a command is discarded (R233). -/
theorem performHead_faulted (hf : ∀ i m, e.cmd ≠ .fence i m) (h : (s.core.queue q).faulted ≠ none) :
    s.performHead q e = (s.beginRun q e).complete e false := by
  have some_fault : (s.core.queue q).faulted.isSome = true := Option.isSome_iff_ne_none.mpr h
  rw [State.performHead]
  cases hc : e.cmd with
  | fence i m => exact absurd hc (hf i m)
  | _ => exact if_pos some_fault

/-- The queues whose heads a fence joins. -/
theorem performHead_fence {i : Nat} {m : BitVec 4} (hc : e.cmd = .fence i m) : s.performHead q e =
    if ((List.range 4).filter (fun j => m.getLsbD j)).all (fun j => ((s.core.queue j).ents.head?.map (fun h => h.cmd == .fence i m)).getD false)
    then s.mapCore (fun c => ((List.range 4).filter (fun j => m.getLsbD j)).foldl (fun c j => c.popCmd j) c) else s := by
  rw [State.performHead]
  simp only [hc]

theorem queue_foldl_popCmd (l : List Nat) : l.Nodup → (∀ j ∈ l, j < 4) → ∀ (c : Core) (j : Nat),
    (j ∈ l → ((l.foldl (fun c j => c.popCmd j) c).queue j).ents = (c.queue j).ents.drop 1) ∧
    (j ∉ l → (l.foldl (fun c j => c.popCmd j) c).queue j = c.queue j) := by
  induction l with
  | nil => exact fun _ _ c j => ⟨fun h => absurd h List.not_mem_nil, fun _ => rfl⟩
  | cons a l ih =>
    intro hnd hlt c j
    obtain ⟨ha, hnd⟩ := List.nodup_cons.mp hnd
    obtain ⟨hin, hout⟩ := ih hnd (fun k hk => hlt k (List.mem_cons_of_mem _ hk)) (c.popCmd a) j
    refine ⟨fun hj => ?_, fun hj => ?_⟩
    · by_cases e : j = a
      · subst e
        refine (congrArg Queue.ents (hout ha)).trans ?_
        rw [queue_popCmd c (hlt _ List.mem_cons_self)]
      · exact (hin ((List.mem_cons.mp hj).resolve_left e)).trans (congrArg (·.ents.drop 1) (queue_popCmd_ne c e))
    · obtain ⟨hne, hj⟩ := not_or.mp (mt List.mem_cons.mpr hj)
      exact (hout hj).trans (queue_popCmd_ne c hne)

/-- The queues a fence names. -/
theorem mem_fenceQueues {m : BitVec 4} {j : Nat} : j ∈ (List.range 4).filter (fun j => m.getLsbD j) ↔ j < 4 ∧ m.getLsbD j = true := by
  simp

theorem performHead_notify {d : Word} {dest : Family} (hc : e.cmd = .notify d dest) (hf : (s.core.queue q).faulted = none) :
    s.performHead q e = ((s.beginRun q e).complete e false).mapCore (fun c =>
      c.setQueue q { c.queue q with target := if d == 0 then none else some (d, dest) }) := by
  rw [State.performHead]
  simp only [hc, hf, Option.isSome_none, Bool.false_eq_true, if_false]

theorem performHead_copyIn {sig src k : Nat} (hc : e.cmd = .copyIn sig src k) (hf : (s.core.queue q).faulted = none)
    (hw : s.core.endWait = true) : s.performHead q e = (s.beginRun q e).complete e true := by
  rw [State.performHead]
  simp only [hc, hf, Option.isSome_none, Bool.false_eq_true, if_false]
  exact if_pos (by simp [hw])

/-! Commands of at most a line, performed at once. -/

/-- A command outside every region, its unit's writes confirmed, in a queue with no notice target. -/
structure PlainHead (f : State) (q : Nat) (e : QEnt) : Prop where
  region : e.region = 0
  untagged : e.tagged = false
  fresh : e.pr = Progress.start
  noRegion : f.region 0 = none
  confirmed : f.entryProv e = none
  own : f.ownProv f.core = []
  sound : (f.core.queue q).faulted = none
  quiet : (f.core.queue q).target = none

/-- The run of such a command. -/
abbrev plainRun (f : State) (q : Nat) : Run := ⟨f, 0, none, q, Progress.start⟩

theorem beginRun_plain {f : State} (h : PlainHead f q e) : f.beginRun q e = plainRun f q := by
  have : (e.region != 0 || !e.tagged) = true := by simp [h.untagged]
  rw [State.beginRun, if_pos this, h.region, h.confirmed, h.fresh]

/-- The state with more blocks held. -/
def holding (f : State) (hs : List Hold) : State := { f with holds := f.holds ++ hs }

theorem holdAt_holding (f : State) (q pa : Nat) : ∃ hs, f.holdAt q pa = holding f hs := by
  have none_more : f = holding f [] := by rw [holding, List.append_nil]
  unfold State.holdAt
  split
  · split
    · exact ⟨[], none_more⟩
    · exact ⟨_, rfl⟩
  · exact ⟨[], none_more⟩

theorem holding_holding (f : State) (hs gs : List Hold) : holding (holding f hs) gs = holding f (hs ++ gs) := by
  rw [holding, holding, holding]
  simp only [List.append_assoc]

/-- What is found with some blocks held is found with more. -/
theorem locate_holding {f : State} {hs : List Hold} {pr : Progress} {va n : Nat} {need : Need} {l : Loc}
    (h : (⟨f, 0, none, q, Progress.start⟩ : Run).locate va n need = .ok l) :
    (⟨holding f hs, 0, none, q, pr⟩ : Run).locate va n need = .ok l := by
  have held (b : Nat × Nat) (hb : f.holdsBlock f.core.asid f.core.id q b = true) :
      (holding f hs).holdsBlock (holding f hs).core.asid (holding f hs).core.id q b = true := by
    rw [State.holdsBlock, holding, List.any_append]
    exact Bool.or_eq_true_iff.mpr (.inl hb)
  have translate : (holding f hs).translate (holding f hs).core.asid va need = f.translate f.core.asid va need := rfl
  have leaf : (holding f hs).leaf (holding f hs).core.asid va = f.leaf f.core.asid va := rfl
  have block (pa : Nat) : (holding f hs).blockOfPa (holding f hs).core.asid pa = f.blockOfPa f.core.asid pa := rfl
  unfold Run.locate at h ⊢
  cases hw : windowOf va with
  | some g =>
    simp only [hw] at h ⊢
    exact h
  | none =>
    simp only [hw] at h ⊢
    by_cases ht : f.touchesHeader f.core.asid va n = true
    · rw [if_pos ht] at h
      cases h
    · rw [if_neg ht] at h
      rw [if_neg (show ¬(holding f hs).touchesHeader (holding f hs).core.asid va n = true from ht), translate, leaf]
      simp only [block]
      cases hp : f.translate f.core.asid va need with
      | ok pa =>
        simp only [hp] at h ⊢
        exact h
      | error c =>
        simp only [hp] at h ⊢
        split at h
        · rename_i pa hk
          obtain ⟨ent, hent, hk⟩ := Option.bind_eq_some_iff.mp hk
          obtain ⟨b, hb, hk⟩ := Option.bind_eq_some_iff.mp hk
          split at hk
          · rename_i hin
            rw [hent, Option.bind_some, hb, Option.bind_some, if_pos (held b hin), hk]
            exact h
          · cases hk
        · cases h

/-- A range that ends with its line is one line. -/
theorem lineRanges_single {va n : Nat} (hva : va < 2 ^ 56) (hn : 0 < n) (h : n ≤ 64 - va % 64) : rangeFrom va n 0 = [(va, n)] := by
  have hne : (n == 0) = false := beq_false_of_ne (by omega)
  rw [rangeFrom, lineRanges, Nat.add_zero, Nat.sub_zero, linesOf]
  simp only [hne, Nat.add_zero, Nat.min_eq_left h, Nat.mod_eq_of_lt hva, Nat.sub_self]
  cases n / 64 <;> rfl

/-- An access of a command outside every region makes no tag. -/
theorem tag_noRegion {r : Run} {l : Loc} {va n : Nat} {kind : AccKind} (h : r.s.region r.region = none) : r.tag l va n kind = .ok r := by
  have free (lines : List Nat) : r.s.tagAccess r.region lines kind = .ok r.s := by rw [State.tagAccess, h]
  cases l <;> simp only [Run.tag, free]

theorem reach_holding {f : State} {hs : List Hold} {pr : Progress} (l : Loc) : ∃ gs,
    (⟨holding f hs, 0, none, q, pr⟩ : Run).reach l = ⟨holding f gs, 0, none, q, pr⟩ := by
  cases l with
  | bed g off => exact ⟨hs, rfl⟩
  | mem pa =>
    obtain ⟨gs, e⟩ := holdAt_holding (holding f hs) q pa
    rw [holding_holding] at e
    exact ⟨hs ++ gs, by rw [Run.reach, e]⟩

/-- The bytes at a place with their marks, of a unit with no unconfirmed writes. -/
theorem get_holding {f : State} {hs : List Hold} {pr : Progress} (ho : f.ownProv f.core = []) (l : Loc) (n : Nat) :
    (⟨holding f hs, 0, none, q, pr⟩ : Run).get l n = match l with
      | .mem pa => ((f.memAs (f.keyOf f.core.asid)).read pa n).map (fun b => (b, linesPoisoned f.poisoned pa n))
      | .bed g off => ((f.coreOf g).mem.bed.read off n).map (fun b => (b, linesPoisoned (f.coreOf g).mem.poisoned off n)) := by
  have own : (holding f hs).ownProv (holding f hs).core = [] := ho
  cases l with
  | mem pa =>
    simp only [Run.get, Run.memory, own, List.foldl_nil]
    rfl
  | bed g off =>
    simp only [Run.get, Run.bed, own, List.foldl_nil]
    rfl

/-- A source of one line read. -/
theorem readLines_line {f : State} {src len : Nat} {l : Loc} (hr : f.region 0 = none) (hl : (plainRun f q).locate src len .read = .ok l)
    (hfree : ∀ g off, l = .bed g off → (f.coreOf g).tileHolds off len false = false) : ∃ hs,
    (plainRun f q).readLines true [(src, len)] =
      (⟨holding f hs, 0, none, q, ⟨0, (⟨holding f hs, 0, none, q, Progress.start⟩ : Run).get l len, 0⟩⟩, none) := by
  have start : plainRun f q = ⟨holding f [], 0, none, q, Progress.start⟩ := by rw [holding, List.append_nil]
  obtain ⟨hs, reached⟩ := reach_holding (q := q) (f := f) (hs := []) (pr := Progress.start) l
  refine ⟨hs, ?_⟩
  rw [Run.readLines]
  have located : (plainRun f q).locateIn true src len .read = .ok l := hl
  simp only [located]
  have tagged : (⟨holding f hs, 0, none, q, Progress.start⟩ : Run).tag l src len .read = .ok ⟨holding f hs, 0, none, q, Progress.start⟩ :=
    tag_noRegion hr
  rw [start, reached, tagged]
  cases l with
  | mem pa => rfl
  | bed g off =>
    refine (if_neg (by simpa using hfree g off rfl)).trans rfl

theorem sealLines_holding (key : Option Nat) (hs : List Hold) (ls : List Nat) : ∀ f : State,
    ls.foldl (·.sealLine key) (holding f hs) = holding (ls.foldl (·.sealLine key) f) hs := by
  induction ls with
  | nil => exact fun _ => rfl
  | cons l ls ih =>
    intro f
    have step : (holding f hs).sealLine key l = holding (f.sealLine key l) hs := by
      unfold State.sealLine
      have sealed : (holding f hs).sealed = f.sealed := rfl
      rw [sealed]
      cases lookup f.sealed l with
      | some k => by_cases hk : (key == some k) = true <;> simp only [hk] <;> rfl
      | none => by_cases hk : key.isNone = true <;> simp only [hk] <;> rfl
    exact (congrArg (fun s => ls.foldl (·.sealLine key) s) step).trans (ih _)

theorem storeAt_holding (f : State) (hs : List Hold) (asid va pa : Nat) (bs : List Byte) :
    (holding f hs).storeAt asid va pa bs = holding (f.storeAt asid va pa bs) hs :=
  congrArg (fun s => s.writeMem pa bs) (sealLines_holding (f.keyAt asid va) hs (memLines pa bs.length) f)

/-- A run outside every region that has written memory and left the core as it was. -/
structure Wrote (f : State) (q : Nat) (m : Memory) (r : Run) : Prop where
  region : r.region = 0
  queue : r.q = q
  core : r.s.core = f.core
  mem : r.s.mem = m

/-- The lines of some bytes marked where a marked byte came. -/
def marking (s : State) (pa : Nat) (bs : List Marked) : State :=
  { s with poisoned := markLines s.poisoned pa (bs.map (·.1)).length (bs.any (·.2)) }

/-- A destination of one line in memory written. -/
theorem writeLines_line {f : State} {hs : List Hold} {pr : Progress} {dst len pa : Nat} (hr : f.region 0 = none)
    (hl : (plainRun f q).locate dst len .write = .ok (.mem pa)) (hpa : pa < portPa) (hput : pr.put = 0) : ∃ r,
    (⟨holding f hs, 0, none, q, pr⟩ : Run).writeLines [(dst, len)] = (r, none) ∧
      Wrote f q (f.storeAt f.core.asid dst pa ((pr.got.take len).map (·.1))).mem r := by
  obtain ⟨gs, reached⟩ := reach_holding (q := q) (f := f) (hs := hs) (pr := pr) (.mem pa)
  have located : (⟨holding f hs, 0, none, q, pr⟩ : Run).locate dst len .write = .ok (.mem pa) := locate_holding hl
  have put (bs : List Marked) : (⟨holding f gs, 0, none, q, pr⟩ : Run).put (.mem pa) dst bs =
      .ok ⟨marking (holding (f.storeAt f.core.asid dst pa (bs.map (·.1))) gs) pa bs, 0, none, q, pr⟩ := by
    have tagged (n : Nat) : (⟨holding f gs, 0, none, q, pr⟩ : Run).tag (.mem pa) dst n .write = .ok ⟨holding f gs, 0, none, q, pr⟩ :=
      tag_noRegion hr
    rw [← storeAt_holding]
    unfold Run.put
    refine (if_neg hpa.not_ge).trans ?_
    simp only [tagged]
    rfl
  rw [Run.writeLines]
  simp only [located, reached, put, hput, List.drop_zero]
  exact ⟨_, rfl, rfl, rfl, storeAt_core .., rfl⟩

/-- A good end of a run that has written memory, its queue with no notice target. -/
theorem endRun_wrote {f : State} {m : Memory} {r : Run} (h : Wrote f q m r) (hq : q < 4) (hh : (f.core.queue q).ents = e :: es)
    (ht : (f.core.queue q).target = none) :
    ((endRun e (r, none)).core.queue q).ents = es ∧ (endRun e (r, none)).core.r = f.core.r ∧ (endRun e (r, none)).core.mem = f.core.mem ∧
    (endRun e (r, none)).mem = m := by
  have quiet : endRun e (r, none) = r.complete e false := complete_quiet (by rw [h.core, h.queue]; exact ht)
  obtain ⟨hcore, hmem⟩ := complete_frame r e
  rw [h.core, h.queue] at hcore
  rw [quiet, hcore]
  obtain ⟨hr, hcmem, -, -, -, -⟩ := popCmd_frame f.core q
  refine ⟨?_, hr, hcmem, hmem.trans h.mem⟩
  rw [queue_popCmd _ hq, hh]
  rfl

/-- A COPY of at most a line into memory. -/
theorem copy_line {f : State} {dst src len pa : Nat} {l : Loc} (hr : f.region 0 = none) (ho : f.ownProv f.core = []) (hsrc : src < 2 ^ 56)
    (hdst : dst < 2 ^ 56) (hlen : 0 < len) (hsl : len ≤ 64 - src % 64) (hdl : len ≤ 64 - dst % 64) (hpa : pa < portPa)
    (hl : (plainRun f q).locate src len .read = .ok l) (hd : (plainRun f q).locate dst len .write = .ok (.mem pa))
    (hfree : ∀ g off, l = .bed g off → (f.coreOf g).tileHolds off len false = false) : ∃ r,
    (plainRun f q).copy true dst src len = (r, none) ∧ Wrote f q (f.storeAt f.core.asid dst pa (match l with
      | .mem b => (f.memAs (f.keyOf f.core.asid)).read b len
      | .bed g off => (f.coreOf g).mem.bed.read off len)).mem r := by
  obtain ⟨hs, reads⟩ := readLines_line hr hl hfree
  obtain ⟨r, writes, hw⟩ := writeLines_line (hs := hs) 
    (pr := ⟨0, (⟨holding f hs, 0, none, q, Progress.start⟩ : Run).get l len, 0⟩) hr hd hpa rfl
  refine ⟨r.rowDone, ?_, hw.region, hw.queue, hw.core, hw.mem.trans ?_⟩
  · rw [Run.copy, show (plainRun f q).pr.got.length = 0 from rfl, lineRanges_single hsrc hlen hsl, reads]
    dsimp only
    rw [lineRanges_single hdst hlen hdl, writes]
  · refine congrArg (fun bs => (f.storeAt f.core.asid dst pa bs).mem) ?_
    rw [get_holding ho]
    cases l with
    | mem b => simp only [List.map_take, List.map_map]; simp [Function.comp_def, length_read, List.take_of_length_le]
    | bed g off => simp only [List.map_take, List.map_map]; simp [Function.comp_def, length_read, List.take_of_length_le]

theorem performHead_copy {f : State} {dst src len : Nat} (h : PlainHead f q e) (hc : e.cmd = .copy dst src len)
    (hp : len ≠ 64 ∨ f.portChannel f.core.asid dst = none) : f.performHead q e = endRun e ((plainRun f q).copy true dst src len) := by
  have port : (if len == 64 then f.portChannel f.core.asid dst else none) = none := by
    obtain hp | hp := hp
    · exact if_neg (by simpa using hp)
    · rw [hp, ite_self]
  rw [State.performHead, beginRun_plain h]
  simp only [hc, h.sound, Option.isSome_none, Bool.false_eq_true, if_false, port]

/-- The lines of a range taken up under a key, and some bytes written. -/
def written (s : State) (key : Option Nat) (pa : Nat) (bs : List Byte) (n : Nat) : State :=
  { s.seal key pa n with mem := (s.seal key pa n).mem.write pa bs }

/-- An accumulating write that keeps no old value. -/
theorem accw_port {f : State} {op : AccOp} {w64 : Bool} {va pa old : Nat} {a cmp : Word} (hr : f.region 0 = none) (ho : f.ownProv f.core = [])
    (hswap : op ≠ .swap) (hcas : op ≠ .cas) (hl : (plainRun f q).locate va (if w64 = true then 8 else 4) .both = .ok (.mem pa))
    (hpa : pa < portPa) (hsound : linesPoisoned f.poisoned pa (if w64 = true then 8 else 4) = false) : ∃ r,
    (plainRun f q).accw op w64 va a cmp old = (r, none) ∧ Wrote f q
      ((f.seal (f.keyAt f.core.asid va) pa (if w64 = true then 8 else 4)).mem.write pa (bytesOfNat (accNew op (8 * (if w64 = true then 8 else 4))
        (natOfBytes ((f.memAs (f.keyOf f.core.asid)).read pa (if w64 = true then 8 else 4))) a.toNat cmp.toNat)
          (if w64 = true then 8 else 4))) r := by
  have bytes : accBits w64 / 8 = if w64 = true then 8 else 4 := by cases w64 <;> rfl
  generalize (if w64 = true then 8 else 4) = n at *
  have keeps : (op == .swap || op == .cas) = false := by simp [hswap, hcas]
  have start : plainRun f q = ⟨holding f [], 0, none, q, Progress.start⟩ := by rw [holding, List.append_nil]
  obtain ⟨hs, reached⟩ := reach_holding (q := q) (f := f) (hs := []) (pr := Progress.start) (.mem pa)
  rw [← start] at reached
  have tagged : (⟨holding f hs, 0, none, q, Progress.start⟩ : Run).tag (.mem pa) va n .acc = .ok ⟨holding f hs, 0, none, q, Progress.start⟩ :=
    tag_noRegion hr
  have sound : linesPoisoned (holding f hs).poisoned pa n = false := hsound
  have run : (plainRun f q).accw op w64 va a cmp old = (⟨written (holding f hs) (f.keyAt f.core.asid va) pa (bytesOfNat (accNew op (8 * n)
      (natOfBytes ((f.memAs (f.keyOf f.core.asid)).read pa n)) a.toNat cmp.toNat) n) n, 0, none, q, Progress.start⟩, none) := by
    rw [Run.accw]
    dsimp only
    refine (if_neg Bool.false_ne_true).trans ?_
    simp only [bytes, keeps, hl, reached]
    refine (if_neg Bool.false_ne_true).trans ((if_neg (by simp [sound])).trans ?_)
    simp only [tagged, get_holding ho, List.map_map]
    refine (if_neg Bool.false_ne_true).trans ?_
    rw [if_neg hpa.not_ge]
    simp only [Function.comp_def, List.map_id']
    rfl
  obtain ⟨m, l, hseal⟩ := sealLines_frame (f.keyAt f.core.asid va) (memLines pa n) f
  have hold : (holding f hs).seal (f.keyAt f.core.asid va) pa n = holding (f.seal (f.keyAt f.core.asid va) pa n) hs := sealLines_holding _ _ _ _
  have core : (f.seal (f.keyAt f.core.asid va) pa n).core = f.core := by rw [State.seal, hseal]
  refine ⟨_, run, rfl, rfl, ?_, ?_⟩
  · rw [written, hold]
    exact core
  · rw [written, hold]
    rfl

theorem performHead_accw {f : State} {op : AccOp} {w64 : Bool} {va old : Nat} {a cmp : Word} (h : PlainHead f q e)
    (hc : e.cmd = .accw op w64 va a cmp old) : f.performHead q e = endRun e ((plainRun f q).accw op w64 va a cmp old) := by
  rw [State.performHead, beginRun_plain h]
  simp only [hc, h.sound, Option.isSome_none, Bool.false_eq_true, if_false]

/-- The notice of a command complete, posted or deferred (R243, R294). -/
theorem notice_posts {r : Run} {d : Word} {dest : Family} (ht : (r.s.core.queue r.q).target = some (d, dest)) (hn : e.cmd.noticed = true) :
    (r.prov = none → r.complete e true = ((r.complete e false).releaseRegion r.region scopePackage).post r.s.core.id d dest 1) ∧
    ∀ l b u, r.prov = some (l, b) → r.s.core.unit = some u → u.family ≠ dest →
      r.complete e true = (r.complete e false).modLaunch l.key (fun l => { l with defer_ := l.defer_ ++
        [⟨b, (r.complete e false).agentOf (r.complete e false).core,
          .notice (some (desigCore d r.s.core.id, desigFlag d, dest)) r.region⟩] }) := by
  obtain ⟨hcore, -⟩ := complete_frame r e
  obtain ⟨-, -, hid, hunit, htarget, -⟩ := popCmd_frame r.s.core r.q
  have target : ((r.complete e false).core.queue r.q).target = some (d, dest) := by rw [hcore, htarget, ht]
  have id : (r.complete e false).core.id = r.s.core.id := by rw [hcore, hid]
  have unit : (r.complete e false).core.unit = r.s.core.unit := by rw [hcore, hunit]
  rw [complete_noticed hn]
  unfold Run.notice
  simp only [target, id, unit]
  refine ⟨fun hp => ?_, fun l b u hp hu hne => ?_⟩
  · simp only [hp]
  · have other : ((some u).map (·.family == dest)).getD false = false := beq_false_of_ne hne
    simp only [hp, hu, other, Bool.false_eq_true, if_false]

/-! Samples. -/

theorem tag_q {r t : Run} {l : Loc} {va n : Nat} {kind : AccKind} (h : r.tag l va n kind = .ok t) : t.q = r.q := by
  unfold Run.tag at h
  dsimp only at h
  split at h
  · cases h
    rfl
  · cases h
  · cases h

theorem reach_q (r : Run) (l : Loc) : (r.reach l).q = r.q := by cases l <;> rfl

theorem readLines_q {window : Bool} (ls : List (Nat × Nat)) : ∀ r : Run, (r.readLines window ls).1.q = r.q := by
  induction ls with
  | nil => exact fun _ => rfl
  | cons x ls ih =>
    intro r
    rw [Run.readLines]
    split
    · rfl
    · dsimp only
      split_ifs
      · rfl
      · split
        · rfl
        · rename_i ht
          exact (ih _).trans ((tag_q ht).trans (reach_q r _))

theorem put_q {r t : Run} {l : Loc} {va : Nat} {bs : List Marked} (h : r.put l va bs = .ok t) : t.q = r.q := by
  have buffered {la : Launch} {u : Nat} {w : ProvWrite} (h : (match r.s.launch la.key with
      | none => (Except.error Stop.wait : Except Stop Run)
      | some la => if la.room w then .ok { r with s := r.s.bufferWrite la u (r.s.agentOf r.s.core) r.region w } else .error .wait) = .ok t) :
      t.q = r.q := by
    split at h
    · cases h
    · split at h
      · cases h
        rfl
      · cases h
  unfold Run.put at h
  dsimp only at h
  split at h
  · split at h
    · cases h
      rfl
    · exact buffered h
  · split at h
    · cases h
      rfl
    · split at h
      · cases h
      · rename_i ht
        have kept := tag_q ht
        cases h
        exact kept
  · split at h
    · exact buffered h
    · split at h
      · cases h
      · split at h
        · cases h
        · rename_i ht
          have kept := tag_q ht
          cases h
          exact kept

theorem writeLines_q (ls : List (Nat × Nat)) : ∀ r : Run, (r.writeLines ls).1.q = r.q := by
  induction ls with
  | nil => exact fun _ => rfl
  | cons x ls ih =>
    intro r
    rw [Run.writeLines]
    split
    · rfl
    · split
      · rfl
      · rename_i ht
        exact (ih _).trans ((put_q ht).trans (reach_q r _))

end CommandQueues

section MovingSamples

variable {s : State} {n q : Nat} {e : QEnt} {es : List QEnt} {sig : Nat} {d : SigDecl}

/-- The command's entry goes on at the head; the rest of the core stays. -/
theorem progress_head {r : Run} (cmd : Cmd) (va k : Nat) (hq : r.q < 4) :
    (r.progress e cmd va k).core.mem = r.s.core.mem ∧ (r.progress e cmd va k).core.sig = r.s.core.sig ∧ (r.progress e cmd va k).mem = r.s.mem ∧
    ∃ x, ((r.progress e cmd va k).core.queue r.q).ents = x :: (r.s.core.queue r.q).ents.drop 1 ∧ x.cmd = cmd :=
  ⟨Core.setQueue_mem .., Core.setQueue_sig .., rfl, _, congrArg Queue.ents ((queue_setQueue _ _ hq _).trans (if_pos rfl)), rfl⟩

/-- An ingress sample in its ring: its bytes, its poisoned parts, its index. -/
def ingressed (d : SigDecl) (sig : Nat) (j : Int) (r : Run) : State :=
  r.s.mapCore (fun c =>
    let sg := c.sig.setParts sig 0 j ((List.range d.parts).filter (fun p =>
      ((r.pr.got.drop (p * d.partBytes)).take d.partBytes).any (·.2)))
    { c with mem := c.mem.writeBed (d.pos 0 j) (r.pr.got.map (·.1)),
             sig := { sg with st := sg.st.modify sig (fun g => { g with arr := j }) } })

/-- An egress sample gone: its index. -/
def egressed (sig : Nat) (j : Int) (r : Run) : State :=
  r.s.mapCore (fun c => { c with sig := { c.sig with st := c.sig.st.modify sig (fun g => { g with arr := j }) } })

theorem getElem?_modify_arr (l : List SigState) (f : SigState → SigState) (j : Int) (h : ∀ g, (f g).arr = j) :
    ((l.modify sig f)[sig]?).map (·.arr) = (l[sig]?).map (fun _ => j) := by
  rw [List.getElem?_modify_eq, Option.map_eq_map, Option.map_map]
  exact congrArg (Option.map · _) (funext h)

theorem execIngressSampleDelivery_head {src k : Nat} (hh : ((s.focus n).core.queue q).ents = e :: es) (hfree : e.held = none)
    (hf : ((s.focus n).core.queue q).faulted = none) (hd : (s.focus n).core.decl sig = some d) (hc : e.cmd = .copyIn sig src (k + 1))
    (hw : (s.focus n).core.endWait = false) :
    let c := (s.focus n).core
    let j := ((c.sig.st[sig]?).map (·.arr)).getD (-1) + 1
    (j - (c.slotState sig 0).n < (d.depth : Int) - (d.lag : Int) → c.tileHolds (d.pos 0 j) d.size true = false →
      ∀ r, ((s.focus n).beginRun q e).readLines false (rangeFrom src d.size e.pr.got.length) = (r, none) →
        ∃ t, execIngressSampleDelivery n q s = .next (({ r with s := t } : Run).progress e (.copyIn sig ((src + d.size) % 2 ^ 56) k)
            ((src + d.size) % 2 ^ 56) (k * d.size)) ∧
          t.core.mem.bed = r.s.core.mem.bed.write (d.pos 0 j) (r.pr.got.map (·.1)) ∧
          (t.core.sig.st[sig]?).map (·.arr) = (r.s.core.sig.st[sig]?).map (fun _ => j) ∧ t.core.queue r.q = r.s.core.queue r.q ∧
          t.mem = r.s.mem) ∧
    ((d.depth : Int) - (d.lag : Int) ≤ j - (c.slotState sig 0).n → execIngressSampleDelivery n q s = .next (s.focus n)) := by
  intro c j
  have step : execIngressSampleDelivery n q s =
      if j - (c.slotState sig 0).n ≥ (d.depth : Int) - (d.lag : Int) || c.tileHolds (d.pos 0 j) d.size true then
        .next (s.focus n) else match ((s.focus n).beginRun q e).readLines false (rangeFrom src d.size e.pr.got.length) with
      | (r, some st) => .next (stopCmd e r st)
      | (r, none) => .next (({ r with s := ingressed d sig j r } : Run).progress e (.copyIn sig ((src + d.size) % 2 ^ 56) k)
            ((src + d.size) % 2 ^ 56) (k * d.size)) := by
    rw [execIngressSampleDelivery]
    simp only [hh, hc]
    refine (if_neg (by simp [hfree, hf, hw])).trans ?_
    simp only [hd, (beginRun_frame (s.focus n) q e).2.2.2]
    rfl
  refine ⟨fun hroom hfree r hr => ?_, fun hfull => ?_⟩
  · refine ⟨ingressed d sig j r, ?_, rfl, ?_, rfl, rfl⟩
    · rw [step, if_neg (by simp [hfree]; omega), hr]
    · exact getElem?_modify_arr _ _ _ (fun _ => rfl)
  · rw [step, if_pos (by simp [hfull])]

theorem execEgressSampleDrain_head {dst k : Nat} (hh : ((s.focus n).core.queue q).ents = e :: es) (hfree : e.held = none)
    (hf : ((s.focus n).core.queue q).faulted = none) (hd : (s.focus n).core.decl sig = some d) (hc : e.cmd = .copyOut dst sig (k + 1)) :
    let c := (s.focus n).core
    let j := ((c.sig.st[sig]?).map (·.arr)).getD (-1) + 1
    (j ≤ (s.focus n).drainable d sig → c.tileHolds (d.pos 0 j) d.size false = false →
      ∀ r, (((s.focus n).beginRun q e).have_ (c.ringMarked d sig 0 j)).writeLines (rangeFrom dst d.size e.pr.put) = (r, none) →
        execEgressSampleDrain n q s = .next (({ r with s := egressed sig j r } : Run).progress e (.copyOut ((dst + d.size) % 2 ^ 56) sig k)
            ((dst + d.size) % 2 ^ 56) (k * d.size))) ∧
    ((s.focus n).drainable d sig < j → execEgressSampleDrain n q s = .next (s.focus n)) := by
  intro c j
  have step : execEgressSampleDrain n q s = if j > (s.focus n).drainable d sig || c.tileHolds (d.pos 0 j) d.size false
      then .next (s.focus n) else match (((s.focus n).beginRun q e).have_ (c.ringMarked d sig 0 j)).writeLines (rangeFrom dst d.size e.pr.put) with
      | (r, some st) => .next (stopCmd e r st)
      | (r, none) => .next (({ r with s := egressed sig j r } : Run).progress e (.copyOut ((dst + d.size) % 2 ^ 56) sig k)
            ((dst + d.size) % 2 ^ 56) (k * d.size)) := by
    rw [execEgressSampleDrain]
    simp only [hh, hc]
    refine (if_neg (by simp [hfree, hf])).trans ?_
    simp only [hd, Run.have_, (beginRun_frame (s.focus n) q e).2.2.2]
    rfl
  refine ⟨fun hroom hfree r hr => ?_, fun hfull => ?_⟩
  · rw [step, if_neg (by simp [hfree]; omega), hr]
  · rw [step, if_pos (by simp [hfull])]

theorem length_delFirst {α : Type} {p : α → Bool} : ∀ {l : List α} {a : α}, l.find? p = some a → (delFirst p l).length + 1 = l.length
  | b :: l, a, h => by
    rw [delFirst]
    split
    · rfl
    · rename_i hb
      exact congrArg Nat.succ (length_delFirst ((List.find?_cons_of_neg hb).symm.trans h))

/-- A core put back changes nothing but the cores. -/
theorem putCore_frame (s : State) (c : Core) : (s.putCore c).disp = s.disp ∧ (s.putCore c).mem = s.mem := by
  unfold State.putCore
  split <;> exact ⟨rfl, rfl⟩

/-- The first sample on its way to a mirror arrived. -/
def mirrored (d : SigDecl) (sig : Nat) (m : MirrorMsg) (k : Core) : Core :=
  let sg := (k.sig.setParts sig 0 m.idx (m.poison.filter (· < d.parts)))
  let sg := { sg with st := sg.st.modify sig (fun g => { g with arr := m.idx, low := if g.arr < 0 then m.idx else g.low }) }
  { k with mem := k.mem.writeBed (d.pos 0 m.idx) m.bytes, sig := sg }

/-- The mirror messages on their way. -/
def withMirrors (s : State) (l : List MirrorMsg) : State := { s with disp := { s.disp with mirrors := l } }

theorem execMirrorSampleArrival_arrives {u : UnitInfo} {l : Launch} {m : MirrorMsg} (hu : (s.coreOf n).unit = some u)
    (hl : s.launchOf u = some l) (hd : (s.coreOf n).decl sig = some d) (hk : d.kind = 1)
    (hm : s.disp.mirrors.find? (fun m => m.launch == l.key && m.stage == u.stage && m.member == u.member && m.sig == sig) = some m)
    (hidx : (((s.coreOf n).sig.st[sig]?).map (·.arr)).getD (-1) < m.idx) (hc : s.confirmed m.holds = true)
    (hfree : (s.coreOf n).tileHolds (d.pos 0 m.idx) d.size true = false) (hsize : m.bytes.length = d.size) :
    execMirrorSampleArrival n sig s = .next ((withMirrors s (delFirst (fun m => m.launch == l.key && m.stage == u.stage && m.member == u.member &&
      m.sig == sig) s.disp.mirrors)).putCore (mirrored d sig m (s.coreOf n))) := by
  have whole : m.bytes.take d.size ++ List.replicate (d.size - m.bytes.length) 0 = m.bytes := by
    rw [← hsize, List.take_length, Nat.sub_self, List.replicate_zero, List.append_nil]
  rw [execMirrorSampleArrival]
  simp only [hu, hl, hd, hm, whole]
  refine (if_neg ?_).trans (by rw [mirrored, ← hu]; rfl)
  simp only [hk, hc, hfree, bne_self_eq_false, Bool.not_true, Bool.or_false, Bool.false_or, decide_eq_true_eq]
  omega

end MovingSamples

/-- Settles O41: the head of a queue performed by its kind, a sample moved by its window, a mirror's arrival in order. -/
theorem commandEvents : Obligations.CommandEvents := by
  unfold Obligations.CommandEvents
  refine ⟨⟨?_, fun r e d dest ht _ hn => notice_posts ht hn⟩, ?_, ?_⟩
  · intro n q s e es f c hq hh hfree hu
    have run : exec (.commandComplete n q) s = .next (f.performHead q e) := execCommandComplete_head ⟨hh, hfree, hu⟩
    obtain ⟨gone, faulted, target, cmem, mem⟩ := complete_head hh hq
    have bq : (f.beginRun q e).q = q := (beginRun_frame f q e).2.2.1
    have bcore : (f.beginRun q e).s.core = c := (beginRun_frame f q e).1
    intro ans
    refine ⟨?_, ?_, ?_, ?_, ?_⟩
    · intro hnf hf
      refine ⟨_, run, ?_⟩
      rw [performHead_faulted hnf hf]
      exact ⟨gone.1, gone.2, faulted, cmem, mem⟩
    · intro d dest hc hf
      refine ⟨_, run, ?_⟩
      rw [performHead_notify hc hf]
      refine ⟨?_, (Core.setQueue_r ..).trans gone.2, ?_, mem⟩
      · exact (congrArg Queue.ents ((queue_setQueue _ _ hq q).trans (if_pos rfl))).trans gone.1
      · exact (congrArg Queue.target ((queue_setQueue _ _ hq q).trans (if_pos rfl))).trans (if_congr beq_iff_eq rfl rfl)
    · intro sig src k hc hw ht
      by_cases hf : (c.queue q).faulted = none
      · refine ⟨_, run, ?_⟩
        rw [performHead_copyIn hc hf hw, complete_quiet (by rw [bcore, bq]; exact ht)]
        exact ⟨gone.1, gone.2, cmem, mem⟩
      · refine ⟨_, run, ?_⟩
        rw [performHead_faulted (fun i m h => by simp [hc] at h) hf]
        exact ⟨gone.1, gone.2, cmem, mem⟩
    · intro i m hc named
      refine ⟨fun hall => ⟨_, run, ?_⟩, fun j hj hne => ?_⟩
      · rw [performHead_fence hc, if_pos]
        · obtain popped := fun j => queue_foldl_popCmd ((List.range 4).filter (fun j => m.getLsbD j)) (List.nodup_range.filter _)
            (fun j hj => (mem_fenceQueues.mp hj).1) c j
          exact ⟨fun j hj => (popped j).1 (mem_fenceQueues.mpr hj), fun j hj => (popped j).2 (mt mem_fenceQueues.mp hj)⟩
        · refine List.all_eq_true.mpr fun j hj => ?_
          obtain ⟨h, hs, he, hm⟩ := hall j (mem_fenceQueues.mp hj)
          have head : f.core.queue j = c.queue j := rfl
          simp [head, he, hm]
      · refine run.trans ?_
        rw [performHead_fence hc, if_neg]
        intro hall
        have atHead := List.all_eq_true.mp hall j (mem_fenceQueues.mpr hj)
        cases he : (c.queue j).ents.head? with
        | none => simp [show (f.core.queue j).ents.head? = none from he] at atHead
        | some h =>
          refine hne h he ?_
          simpa [show (f.core.queue j).ents.head? = some h from he] using atHead
    · intro hr hut hfresh hnr hp ho hs ht
      have plain : PlainHead f q e := ⟨hr, hut, hfresh, hnr, hp, ho, hs, ht⟩
      refine ⟨?_, ?_⟩
      · intro dst src len l pa hc hsrc hdst hlen hsl hdl hpa hport r hl hd
        have line := fun hfree => copy_line hnr ho hsrc hdst hlen hsl hdl hpa hl hd hfree
        refine ⟨fun b hb => ⟨_, run, ?_⟩, fun g off hb hfree => ⟨_, run, ?_⟩⟩
        all_goals subst hb
        · obtain ⟨r, copies, wrote⟩ := line (fun _ _ h => by cases h)
          obtain ⟨hents, hregs, -, hmem⟩ := endRun_wrote (e := e) wrote hq hh ht
          rw [performHead_copy plain hc hport, copies]
          exact ⟨hents, hregs, hmem⟩
        · obtain ⟨r, copies, wrote⟩ := line (fun _ _ h => by cases h; exact hfree)
          obtain ⟨hents, hregs, -, hmem⟩ := endRun_wrote (e := e) wrote hq hh ht
          rw [performHead_copy plain hc hport, copies]
          exact ⟨hents, hregs, hmem⟩
      · intro op w64 va pa old a cmp hc hswap hcas n hl hpa hsound
        obtain ⟨r, accs, wrote⟩ := accw_port (a := a) (cmp := cmp) (old := old) hnr ho hswap hcas hl hpa hsound
        obtain ⟨hents, hregs, hcmem, hmem⟩ := endRun_wrote (e := e) wrote hq hh ht
        refine ⟨_, run, ?_⟩
        rw [performHead_accw plain hc, accs]
        exact ⟨hents, hregs, hmem, hcmem⟩
  · intro n q s e es sig d f c arr j hq hh hfree hf hd
    refine ⟨fun src k hc hw => ?_, fun dst k hc => ?_⟩
    · obtain ⟨moves, waits⟩ := execIngressSampleDelivery_head hh hfree hf hd hc hw
      refine ⟨fun hroom htile r hr => ?_, waits⟩
      have rq : r.q < 4 := by
        have kept := readLines_q (window := false) (rangeFrom src d.size e.pr.got.length) (f.beginRun q e)
        rw [hr, (beginRun_frame f q e).2.2.1] at kept
        exact kept.trans_lt hq
      obtain ⟨t, run, hbed, harr, hqueue, hmem⟩ := moves hroom htile r hr
      obtain ⟨pmem, psig, pm, x, hents, hx⟩ := progress_head (r := { r with s := t }) (e := e) (.copyIn sig ((src + d.size) % 2 ^ 56) k)
        ((src + d.size) % 2 ^ 56) (k * d.size) rq
      refine ⟨_, x, run, (congrArg CoreMem.bed pmem).trans hbed, (congrArg (fun g : SigUnit => (g.st[sig]?).map (·.arr)) psig).trans harr,
        hents.trans (congrArg (fun u : Queue => x :: u.ents.drop 1) hqueue), hx, pm.trans hmem⟩
    · obtain ⟨moves, waits⟩ := execEgressSampleDrain_head hh hfree hf hd hc
      refine ⟨fun hroom htile r hr => ?_, waits⟩
      have rq : r.q < 4 := by
        have kept := writeLines_q (rangeFrom dst d.size e.pr.put) ((f.beginRun q e).have_ (c.ringMarked d sig 0 j))
        rw [hr, Run.have_, (beginRun_frame f q e).2.2.1] at kept
        exact kept.trans_lt hq
      obtain ⟨-, psig, pm, x, hents, hx⟩ := progress_head (r := { r with s := egressed sig j r }) (e := e)
        (.copyOut ((dst + d.size) % 2 ^ 56) sig k) ((dst + d.size) % 2 ^ 56) (k * d.size) rq
      exact ⟨_, x, moves hroom htile r hr, (congrArg (fun g : SigUnit => (g.st[sig]?).map (·.arr)) psig).trans
        (getElem?_modify_arr _ (fun g => { g with arr := j }) j (fun _ => rfl)), hents, hx, pm⟩
  · intro n sig s u l d m k hid hu hl hd hk hm hidx hconf hfree hsize
    have there := coreOf_putCore (withMirrors s (delFirst (fun m => m.launch == l.key && m.stage == u.stage && m.member == u.member &&
      m.sig == sig) s.disp.mirrors)) (mirrored d sig m k)
    rw [show (mirrored d sig m k).id = n from hid] at there
    obtain ⟨hdisp, hmem⟩ := putCore_frame (withMirrors s (delFirst (fun m => m.launch == l.key && m.stage == u.stage && m.member == u.member &&
      m.sig == sig) s.disp.mirrors)) (mirrored d sig m k)
    refine ⟨_, execMirrorSampleArrival_arrives hu hl hd hk hm hidx hconf hfree hsize, ?_⟩
    rw [there]
    exact ⟨rfl, getElem?_modify_arr _ _ _ (fun _ => rfl), 
      (congrArg (fun x : Disp => x.mirrors.length + 1) hdisp).trans (length_delFirst hm), hmem, rfl⟩

end Sys2Proof.Proofs

namespace Sys2Proof.Proofs

open Sys2Proof Sys2Proof.Machine Sys2Proof.Laws

/-! ## Steps that keep device memory canonical and cores at their numbers -/

theorem lookup_assocDel {α : Type} (l : List (Nat × α)) (k j : Nat) :
    lookup (assocDel l k) j = if j = k then none else lookup l j := by
  rw [lookup, assocDel, List.find?_filter]
  by_cases h : j = k
  · rw [if_pos h]
    have gone : l.find? (fun e => decide ((e.1 != k) = true ∧ (e.1 == j) = true)) = none := by
      simp [h]
    rw [gone]
    rfl
  · rw [if_neg h, lookup]
    refine congrArg (fun p => (List.find? p l).map (·.2)) (funext fun e => ?_)
    by_cases he : e.1 = j
    · simp [he, h]
    · simp [he]

/-- What the model's updates keep: device memory's canonical form (R39), and a core that stands at its own number. -/
structure Kept (s t : State) : Prop where
  wf : s.mem.wf → t.mem.wf
  home : ∀ n, (s.coreOf n).id = n → (t.coreOf n).id = n

namespace Kept

variable {s t u : State}

theorem refl (s : State) : Kept s s := ⟨id, fun _ => id⟩

theorem trans (h : Kept s t) (g : Kept t u) : Kept s u := ⟨g.wf ∘ h.wf, fun n => g.home n ∘ h.home n⟩

/-- Cores and memory as they were. -/
theorem of_same (hc : t.core = s.core) (ho : t.others = s.others) (hm : t.mem = s.mem) : Kept s t := by
  refine ⟨fun h => by rwa [hm], fun n h => ?_⟩
  rwa [State.coreOf, hc, ho]

theorem of_mem (hc : t.core = s.core) (ho : t.others = s.others) (hm : s.mem.wf → t.mem.wf) : Kept s t := by
  refine ⟨hm, fun n h => ?_⟩
  rwa [State.coreOf, hc, ho]

theorem putCore (s : State) (c : Core) : Kept s (s.putCore c) := by
  refine ⟨fun h => by rwa [(putCore_frame s c).2], fun n h => ?_⟩
  by_cases e : n = c.id
  · rw [e, coreOf_putCore]
  · rwa [coreOf_putCore_ne _ _ e]

theorem modCore (s : State) (n : Nat) (f : Core → Core) : Kept s (s.modCore n f) := putCore s _

theorem mapCore {f : Core → Core} (h : (f s.core).id = s.core.id) : Kept s (s.mapCore f) := by
  have put : s.mapCore f = s.putCore (f s.core) := by rw [State.putCore, if_pos h, State.mapCore]
  rw [put]
  exact putCore s _

theorem focus (s : State) (n : Nat) : Kept s (s.focus n) := by
  unfold State.focus
  split
  · exact refl s
  · refine ⟨id, fun m h => ?_⟩
    change (if (s.coreOf n).id = m then s.coreOf n else
      (lookup (assocSet (assocDel s.others n) s.core.id s.core) m).getD (Core.reset m)).id = m
    split
    · assumption
    · by_cases e : s.core.id = m
      · rw [e, lookup_assocSet, if_pos rfl]
        exact e
      · rw [State.coreOf, if_neg e] at h
        rw [lookup_assocSet_ne _ _ (Ne.symm e), lookup_assocDel]
        split
        · rfl
        · exact h

theorem foldl {α : Type} {f : State → α → State} (h : ∀ s a, Kept s (f s a)) : ∀ (l : List α) (s : State), Kept s (l.foldl f s)
  | [], s => refl s
  | a :: l, s => (h s a).trans (foldl h l _)

theorem closeRegion (s : State) (rid : Nat) : Kept s (s.closeRegion rid) := of_same rfl rfl rfl

theorem unitClose (s : State) : Kept s s.unitClose := by
  unfold State.unitClose
  dsimp only
  split
  · exact refl s
  · exact (closeRegion s _).trans (modCore ..)

theorem tagAccess {rid : Nat} {l : List Nat} {k : AccKind} (h : s.tagAccess rid l k = .ok t) : Kept s t := by
  have frame := tagAccess_frame h
  exact of_same frame.core frame.others frame.mem

theorem unitRegion (s : State) : Kept s s.unitRegion.1 := by
  unfold State.unitRegion
  split
  · exact refl s
  · dsimp only
    split
    · exact refl s
    · refine Kept.trans (t := (s.openRegion s.unitAgent s.core.sys.tick.toNat false).1) (of_same rfl rfl rfl) ?_
      dsimp only
      exact modCore ..

theorem unitTag {l : List Nat} {k : AccKind} (h : s.unitTag l k = .ok t) : Kept s t := (unitRegion s).trans (tagAccess h)

theorem storeAt (s : State) (asid va pa : Nat) (bs : List Byte) : Kept s (s.storeAt asid va pa bs) := by
  obtain ⟨m, l, p, e⟩ := storeAt_frame s asid va pa bs
  exact of_mem (by rw [e]) (by rw [e]) (fun h => State.wf_storeAt h ..)

theorem onMem (m : Memory) (t : TeamStore) (h : m.wf) : (t.onMem m).wf := by
  unfold TeamStore.onMem
  split
  · exact Memory.wf_write h ..
  · exact h

theorem logStore (s : State) (st : TeamStore) (b : State) : Kept s (s.logStore st b) := by
  unfold State.logStore
  split
  · exact refl s
  · dsimp only
    refine Kept.trans ?_ (modCore ..)
    split
    · exact refl s
    · split
      · exact of_mem rfl rfl (onMem _ _)
      · exact modCore ..

theorem setCluster (s : State) (k : Nat) (c : Cluster) : Kept s (s.setCluster k c) := of_same rfl rfl rfl

theorem clWrite (s : State) (off : Nat) (v : Word) : Kept s (s.clWrite off v) := by
  unfold State.clWrite
  dsimp only
  split_ifs
  · exact refl s
  · exact setCluster ..
  · exact (setCluster ..).trans (modCore ..)
  · unfold State.clStartWrite
    dsimp only
    split_ifs
    · exact refl s
    · exact modCore ..
    · exact refl s
  · exact refl s

theorem bufferWrite (s : State) (l : Launch) (unit : Nat) (a : AgentAt) (rid : Nat) (w : ProvWrite) : Kept s (s.bufferWrite l unit a rid w) :=
  of_same rfl rfl rfl

theorem performRun {va idx : Nat} {r : Nat × List Byte} (h : s.performRun va idx r = some t) : Kept s t := by
  unfold State.performRun at h
  dsimp only at h
  split_ifs at h
  · cases h
    exact refl s
  · cases h
    exact clWrite ..
  · cases h
    exact refl s
  · split at h
    · split_ifs at h
      cases h
      exact bufferWrite ..
    · cases h
      exact (storeAt ..).trans (logStore ..)

theorem performRuns {va idx : Nat} : ∀ (runs : List (Nat × List Byte)) (o : Option State), (∀ x, o = some x → Kept s x) →
    runs.foldl (fun o r => o.bind (fun s => s.performRun va idx r)) o = some t → Kept s t
  | [], o, ho, h => ho t h
  | r :: runs, o, ho, h => by
    refine performRuns runs _ (fun x hx => ?_) h
    obtain ⟨y, hy, hx⟩ := Option.bind_eq_some_iff.mp hx
    exact (ho y hy).trans (performRun hx)

theorem performEntry {op : GateOp} {idx : Nat} (h : s.performEntry op idx = some t) : Kept s t := by
  cases op with
  | store va runs => exact performRuns runs (some s) (fun x hx => by cases hx; exact refl s) h
  | remote n off b =>
    simp only [State.performEntry] at h
    split at h
    · split_ifs at h
      cases h
      exact bufferWrite ..
    · split_ifs at h
      cases h
      exact (modCore ..).trans (logStore ..)
  | cmd q e =>
    simp only [State.performEntry] at h
    split_ifs at h
    cases h
    exact mapCore (Core.setQueue_id ..)

theorem checkEntry {g : GateEnt} (h : s.checkEntry g = .ok t) : Kept s t := by
  unfold State.checkEntry at h
  split at h
  · cases h
  · split_ifs at h
    · cases h
      exact refl s
    · split at h
      · rename_i ht
        cases h
        exact unitTag ht
      · cases h
      · cases h

theorem freshGate (s : State) : Kept s s.freshGate := by
  unfold State.freshGate
  split
  · exact mapCore rfl
  · exact refl s

/-- A gate entry performed early, the ones before it having been. -/
def earlyStep (a : State × List GateEnt × Bool) (g : GateEnt) : State × List GateEnt × Bool :=
  let (t, out, on) := a
  if !on || g.done then (t, out ++ [g], on)
  else if g.op matches .cmd _ _ then (t, out ++ [g], false)
  else match t.checkEntry g with
    | .ok u => match u.performEntry g.op g.idx with
      | some v => (v, out ++ [{ g with done := true }], true)
      | none => (t, out ++ [g], false)
    | _ => (t, out ++ [g], false)

theorem earlyStep_state (a : State × List GateEnt × Bool) (g : GateEnt) : Kept a.1 (earlyStep a g).1 := by
  obtain ⟨t, out, on⟩ := a
  unfold earlyStep
  dsimp only
  split_ifs
  · exact refl t
  · exact refl t
  · split
    · rename_i hu
      split
      · rename_i hv
        exact (checkEntry hu).trans (performEntry hv)
      · exact refl t
    · exact refl t

theorem earlySteps : ∀ (gs : List GateEnt) (a : State × List GateEnt × Bool), Kept a.1 (gs.foldl earlyStep a).1
  | [], a => refl a.1
  | g :: gs, a => (earlyStep_state a g).trans (earlySteps gs _)

/-- The early stores performed with the member in focus; the focus then goes back. -/
theorem performEarly_back (s : State) (n : Nat) : ∃ t, s.performEarly n = t.focus s.core.id ∧ Kept s t :=
  ⟨_, rfl, (((focus s n).trans (freshGate _)).trans (earlySteps _ (_, [], true))).trans (mapCore rfl)⟩

theorem performEarly (s : State) (n : Nat) : Kept s (s.performEarly n) := by
  obtain ⟨t, e, kept⟩ := performEarly_back s n
  rw [e]
  exact kept.trans (focus ..)

theorem focus_core_id {n : Nat} (h : (s.coreOf n).id = n) : (s.focus n).core.id = n := by
  unfold State.focus
  split
  · assumption
  · exact h

theorem performEarly_core_id (s : State) (n : Nat) : (s.performEarly n).core.id = s.core.id := by
  obtain ⟨t, e, kept⟩ := performEarly_back s n
  rw [e]
  exact focus_core_id (kept.home _ (by rw [coreOf_focus]))

theorem performEarlys_core_id : ∀ (l : List Nat) (s : State), (l.foldl State.performEarly s).core.id = s.core.id
  | [], _ => rfl
  | n :: l, s => (performEarlys_core_id l _).trans (performEarly_core_id s n)

theorem teamVisible_core_id (s : State) : s.teamVisible.core.id = s.core.id := by
  unfold State.teamVisible
  split
  · rfl
  · exact performEarlys_core_id _ s

theorem teamVisible (s : State) : Kept s s.teamVisible := by
  unfold State.teamVisible
  split
  · exact refl s
  · exact foldl performEarly _ s

theorem unitRelease (s : State) (scope : Nat) : Kept s (s.unitRelease scope) := by
  unfold State.unitRelease
  split
  · exact refl s
  · exact ((teamVisible s).trans (unitClose _)).trans (of_same rfl rfl rfl)

theorem deferOr (s : State) (act : Deferred) {now : State → State} (h : Kept s (now s)) : Kept s (s.deferOr act now) := by
  unfold State.deferOr
  split
  · exact h
  · exact of_same rfl rfl rfl

theorem releaseNow (s : State) (scope : Nat) : Kept s (s.releaseNow scope) := (unitRelease s scope).trans (deferOr _ _ (refl _))

theorem unitClose_core_id (s : State) : s.unitClose.core.id = s.core.id := by
  unfold State.unitClose
  dsimp only
  split
  · rfl
  · exact modCore_core_id ..

theorem releaseNow_core_id (s : State) (scope : Nat) : (s.releaseNow scope).core.id = s.core.id := by
  have released : (s.unitRelease scope).core.id = s.core.id := by
    unfold State.unitRelease
    split
    · rfl
    · exact (unitClose_core_id _).trans (teamVisible_core_id s)
  unfold State.releaseNow State.deferOr
  split <;> exact released

theorem syncHeader (s : State) (asid ptr : Nat) : Kept s (s.syncHeader asid ptr) := by
  unfold State.syncHeader State.writeHeader
  split
  · exact refl s
  · split
    · exact storeAt ..
    · exact refl s

theorem modFrame_core (s : State) (asid ptr : Nat) (g : Frame → Frame) : (s.modFrame asid ptr g).core = s.core := by
  unfold State.modFrame State.syncHeader State.writeHeader
  split
  · rfl
  · split
    · exact storeAt_core ..
    · rfl

theorem modFrame (s : State) (asid ptr : Nat) (g : Frame → Frame) : Kept s (s.modFrame asid ptr g) := by
  unfold State.modFrame
  refine Kept.trans ?_ (syncHeader ..)
  exact of_same rfl rfl rfl

end Kept

/-! ## Units: their ends, suspensions, starts and images (R250, R262, R323) -/

section UnitLife

variable {s t : State} {n : Nat} {u : UnitInfo}

theorem reportQueues_none {ns : List Nat} (h : t.faultedQueues ns = []) : t.reportQueues ns = t := by rw [State.reportQueues, h, List.foldl_nil]

theorem finishUnit_leaves {byFault : Bool} (hc : t.committing u = false) (hw : t.dropWaits u.family = false) (hd : t.canDefer = true)
    (hq : t.faultedQueues t.core.team = []) (hr : t.faultRoom (t.fnOf u.asid) (if byFault then 1 else 0) = true) :
    t.finishUnit u byFault =
      (if byFault then t.unitRecord (t.faultCore u) 0 (t.coreOf (t.faultCore u)).sys.faultInfo (t.coreOf (t.faultCore u)).sys.faultVa
        (t.coreOf (t.faultCore u)).sys.trapPc else t).leave u byFault := by
  have room : t.faultRoom (t.fnOf u.asid) ((t.faultedQueues t.core.team).length + if byFault then 1 else 0) = true := by
    rw [hq, List.length_nil, Nat.zero_add, hr]
  rw [State.finishUnit]
  dsimp only
  rw [if_neg (by simp [hc, hw, hd, room]), reportQueues_none hq, hq]
  cases byFault <;> rfl

theorem execUnitEnd_settles (hu : (s.focus n).core.unit = some u) (he : ∀ m ∈ (s.focus n).core.team, ((s.focus n).coreOf m).endWait = true)
    (hs : (s.focus n).settleAll n (s.focus n).core.team = .go t) : execUnitEnd n s =
      .next (t.finishUnit u ((s.focus n).core.team.any (fun m => (t.coreOf m).ctl.after == some (.ending .fault)))) := by
  have ended : (s.focus n).core.team.all (fun m => ((s.focus n).coreOf m).endWait) = true := List.all_eq_true.mpr he
  rw [execUnitEnd]
  simp only [hu, hs]
  exact if_neg (by simp only [ended]; exact Bool.false_ne_true)

theorem coreOf_vacate (h : (s.coreOf n).id = n) (m : Nat) :
    (s.vacate n).coreOf m = if m = n then (s.coreOf n).vacate else s.coreOf m := coreOf_modCore s n m Core.vacate h

theorem vacate_disp (s : State) (n : Nat) : (s.vacate n).disp = s.disp :=
  (congrArg (fun t : State => t.disp) (modCore_rest s n Core.vacate) :)

theorem vacate_mem (s : State) (n : Nat) : (s.vacate n).mem = s.mem := State.modCore_mem ..

theorem addr48_eq (a : Word) : addr48 a = (a.setWidth 48).setWidth 64 := by
  refine BitVec.eq_of_toNat_eq ?_
  rw [addr48, zext, BitVec.toNat_ushiftRight, BitVec.toNat_shiftLeft, BitVec.toNat_setWidth, BitVec.toNat_setWidth, Nat.shiftLeft_eq,
    Nat.shiftRight_eq_div_pow]
  omega

theorem suspend_yields (hc : t.committing u = false) (hq : t.faultedQueues [t.core.id] = [])
    (hp : ∀ i < 6, t.core.xp (BitVec.ofNat 6 (8 + i)) = false) : t.suspend u .yield =
      (((t.modFrame u.asid u.frame (fun g => { g with spd := t.core.spd })).releaseNow (placeScope u.place)).enqueue (t.core.toRec u)
        (domainAt u.place t.core.id)).vacate t.core.id := by
  have sound : (List.range 6).any (fun i => t.core.xp (BitVec.ofNat 6 (8 + i))) = false :=
    List.any_eq_false.mpr fun i hi => by simp [hp i (List.mem_range.mp hi)]
  have id : ((t.modFrame u.asid u.frame (fun g => { g with spd := t.core.spd })).releaseNow (placeScope u.place)).core.id = t.core.id := by
    rw [Kept.releaseNow_core_id, Kept.modFrame_core]
  unfold State.suspend
  dsimp only
  rw [if_neg (by simp [hc]), if_neg (by simp [hq])]
  rw [if_neg (by simp only [sound]; exact Bool.false_ne_true)]
  have placed (t : State) (r : Rec) : t.placeRecord u r .yield = some (t.enqueue r (domainAt r.place t.core.id)) := rfl
  simp only [placed, id]
  rfl

theorem execTaskSuspend_yields (hu : (s.focus n).core.unit = some u) (hg : u.gang = false)
    (ha : (s.focus n).core.ctl.after = some (.ending .yield)) (hd : (s.focus n).core.ctl.dly = 0) (hs : (s.focus n).settle n = .go t) :
    execTaskSuspend n s = .next (t.suspend u .yield) := by
  rw [execTaskSuspend]
  simp only [hu, ha, hs]
  exact (if_neg (by simp [hg, hd])).trans (if_neg (by simp))

/-! Posts to a flag (R253). -/

theorem serveFlags_none (l : List Nat) : ∀ s : State, s.disp.waits = [] → l.foldl (fun s f => s.serveFlag n f) s = s := by
  induction l with
  | nil => exact fun _ _ => rfl
  | cons f l ih =>
    intro s h
    have served : s.serveFlag n f = s := by
      unfold State.serveFlag
      split
      · rfl
      · rw [h, List.foldl_nil]
    rw [List.foldl_cons, served]
    exact ih s h

/-- A post on its way taken off. -/
def withPosts (s : State) (l : List (Nat × Nat × Nat × Family)) : State := { s with disp := { s.disp with posts := l } }

theorem execFlagPostArrival_posts {k c : Nat} {p : Nat × Nat × Nat × Family} (hw : s.disp.waits = [])
    (hp : s.disp.posts.find? (fun p => p.1 == n && p.2.1 == k && p.2.2.1 == c) = some p)
    (hf : (s.coreOf n).unit.map (·.family) = some p.2.2.2) : execFlagPostArrival n k c s =
      .next ((withPosts s (delFirst (fun p => p.1 == n && p.2.1 == k && p.2.2.1 == c) s.disp.posts)).modCore n
        (fun x => x.setFlag k (x.flag k + c))) := by
  obtain ⟨v, hv, hfam⟩ := Option.map_eq_some_iff.mp hf
  have serves := serveFlags_none (n := n) [k] ((withPosts s (delFirst (fun p => p.1 == n && p.2.1 == k && p.2.2.1 == c) s.disp.posts)).modCore n
    (fun x => x.setFlag k (x.flag k + c))) (by rw [modCore_rest]; exact hw)
  rw [execFlagPostArrival]
  simp only [hp]
  refine congrArg Host.Outcome.next ?_
  rw [State.deliverPost]
  refine (if_pos ?_).trans serves
  change ((s.coreOf n).unit.map (·.family == p.2.2.2)).getD false = true
  rw [hv, Option.map_some, Option.getD_some, hfam]
  exact beq_self_eq_true _

/-! Starts. -/

/-- What an x register reads as in a register file. -/
def regAt (g : Regs) (d : RegNo) : XReg := if d = 0 then XReg.zero else g.x.get d.toFin

theorem x_eq_regAt (c : Core) (d : RegNo) : c.x d = (regAt c.r d).val := rfl

theorem regAt_setX {a : RegNo} (h : a ≠ 0) (g : Regs) (v : XReg) (d : RegNo) : regAt (g.setX a v) d = if d = a then v else regAt g d := by
  by_cases hd : d = 0
  · subst hd
    rw [if_neg h.symm]
    rfl
  · rw [regAt, if_neg hd, regAt, if_neg hd, Regs.setX, if_neg h]
    exact get_set_toFin (w := 6) ..

theorem regAt_launch (d : RegNo) : regAt Regs.launch d = ⟨if d = 2 then 0x180000 else 0, false⟩ := xr_launch 0 d

/-- The registers a record carries, x8 to x13. -/
def carried (g : Regs) (l : List Word) : Regs := (l.zip (List.range 6)).foldl (fun g e => g.setX (BitVec.ofNat 6 (8 + e.2)) ⟨e.1, false⟩) g

theorem regAt_carried {l : List Word} (h : l.length = 6) (g : Regs) (d : RegNo) :
    regAt (carried g l) d = if 8 ≤ d.toNat ∧ d.toNat < 14 then ⟨l.getD (d.toNat - 8) 0, false⟩ else regAt g d := by
  obtain ⟨a, b, c, e, f, i, rfl⟩ : ∃ a b c e f i, l = [a, b, c, e, f, i] := by
    match l, h with
    | [a, b, c, e, f, i], _ => exact ⟨a, b, c, e, f, i, rfl⟩
  have six : carried g [a, b, c, e, f, i] = (((((g.setX 8 ⟨a, false⟩).setX 9 ⟨b, false⟩).setX 10 ⟨c, false⟩).setX 11
      ⟨e, false⟩).setX 12 ⟨f, false⟩).setX 13 ⟨i, false⟩ := rfl
  have is (k : Nat) (hk : k < 64) : d = BitVec.ofNat 6 k ↔ d.toNat = k := by
    rw [← BitVec.toNat_inj, BitVec.toNat_ofNat, Nat.mod_eq_of_lt hk]
  rw [six, regAt_setX (by decide), regAt_setX (by decide), regAt_setX (by decide), regAt_setX (by decide), regAt_setX (by decide),
    regAt_setX (by decide)]
  split_ifs <;> simp_all
  omega

/-- A core on which a task starts. -/
def taskStart (s : State) (n : Nat) (r : Rec) (x : Ctx) (f : Frame) (c : Core) : Core :=
  let u : UnitInfo := ⟨false, r.asid, r.launch, 0, 0, 1, n, r.frame, r.prio, r.place, r.prov, r.reissue, r.block, r.serves⟩
  let c := c.start u x (((s.launchOf u).map (·.desc)).getD noLaunch) r.resume
  { c with
    r := (carried c.r r.carry).setX 2 ⟨c.sys.spillBase - BitVec.ofNat 64 f.spd, false⟩,
    sys := { c.sys with ovf := BitVec.ofNat 64 ((r.frame + f.size) % 2 ^ 56) }, lastPick := r.asid }

theorem startTask_starts {r : Rec} {x : Ctx} {f : Frame} (hx : s.ctx r.asid = some x) (hf : s.frame r.asid r.frame = some f) :
    s.startTask n r = (s.modCore n (taskStart s n r x f)).dropBedTags n := by
  rw [State.startTask]
  simp only [hx, hf]
  rfl

/-- A core on which a member of a gang starts. -/
def memberStart (la : Launch) (x : Ctx) (u : UnitInfo) (g m : Nat) (c : Core) : Core :=
  let c := c.start u x la.desc (BitVec.ofNat 64 (dEntry la.desc))
  { c with r := c.r.setX 8 ⟨dWord la.desc 5, false⟩, sig := startSignals la g, ctl := { c.ctl with lag := m },
           sys := { c.sys with stage := BitVec.ofNat 8 g, tickBudget := la.tickBudget } }

/-- The unit of such a member. -/
def memberUnit (la : Launch) (g m : Nat) : UnitInfo :=
  ⟨true, la.asid, la.id, g, m, dMembers la.desc, la.placed.getD g 0, 0, 0, 0, false, false, none, none⟩

theorem execUnitStart_starts {l g m : Nat} {la : Launch} {x : Ctx} (hl : s.launch l = some la) (hx : s.ctx la.asid = some x)
    (hg : (g, m) ∈ la.toStart) (hn : la.placed.getD g 0 + m = n) (hid : (s.coreOf n).id = n) : ∃ t, execUnitStart l g m n s = .next t ∧
      t.coreOf n = if (dPredicted la.desc && la.final == some 0) = true then
        (memberStart la x (memberUnit la g m) g m (s.coreOf n)).cutStream 0 else memberStart la x (memberUnit la g m) g m (s.coreOf n) := by
  have run : execUnitStart l g m n s = .next (((s.modLaunch la.key (fun l => { l with toStart := l.toStart.filter (· != (g, m)) })).modCore n
      (fun c => if (dPredicted la.desc && la.final == some 0) = true then (memberStart la x (memberUnit la g m) g m c).cutStream 0
        else memberStart la x (memberUnit la g m) g m c)).dropBedTags n) := by
    rw [execUnitStart]
    simp only [hl, hx]
    exact if_neg (by rw [hn]; simp [hg])
  refine ⟨_, run, (coreOf_modCore _ n n _ ?_).trans (if_pos rfl)⟩
  split <;> exact hid

/-! Images (R43, R323, R330). -/

/-- The state with an image more, its holds the image's. -/
def withImage (s : State) (n : Nat) (i : Image) : State :=
  { s with disp := { s.disp with images := s.disp.images ++ [i], nextKey := s.disp.nextKey + 1 },
           holds := s.holds.map (fun (h : Hold) => if h.core == n then { h with core := i.holder } else h) }

/-- The image a saved task leaves. -/
def savedImage (s : State) (n : Nat) (u : UnitInfo) : Image := ⟨s.disp.nextKey, (s.coreOf n).attnRestart, false, u.prio, Config.imageBytes⟩

theorem execPreempt_saves (hu : (s.coreOf n).unit = some u) (hg : u.gang = false) (hc : s.committing u = false)
    (hr : s.saveRoom u.asid 1 = true) (hb : s.bedStill n u = true) (hid : (s.coreOf n).id = n) :
    ∃ t, execPreempt n s = .next t ∧ (t.coreOf n).unit = none ∧ t.disp.images = s.disp.images ++ [savedImage s n u] := by
  have saved : ((withImage s n (savedImage s n u)).vacate n).disp.images = s.disp.images ++ [savedImage s n u] := by
    rw [vacate_disp]
    rfl
  have left : (((withImage s n (savedImage s n u)).vacate n).coreOf n).unit = none :=
    congrArg Core.unit ((coreOf_vacate (s := withImage s n (savedImage s n u)) hid n).trans (if_pos rfl))
  have save : s.saveCore n false u.prio = ((withImage s n (savedImage s n u)).vacate n, s.disp.nextKey) := rfl
  rw [execPreempt]
  simp only [hu, hg, save]
  refine ⟨_, (if_neg Bool.false_ne_true).trans (if_neg (by simp [hc, hr, hb])), ?_, ?_⟩
  · split <;> exact left
  · split <;> exact saved

theorem coreOf_restoreOn (s : State) (n : Nat) (i : Image) (hw : s.disp.waits = []) : ∃ p u w a,
    (s.restoreOn n i).coreOf n = { i.core with
      id := n, r := { i.core.r with h := i.core.r.h.map (·.restored) }, sys := i.core.sys.restored (s.coreOf n).sys,
      mem := { i.core.mem with tlb := (s.coreOf n).mem.tlb }, pipe := p, unit := u, pw := w, lastPick := a } := by
  unfold State.restoreOn
  dsimp only
  rw [serveFlags_none]
  · exact ⟨_, _, _, _, coreOf_putCore s _⟩
  · exact (congrArg (fun d : Disp => d.waits) (putCore_frame s _).1).trans hw

theorem restored_st (h : Handle) : h.restored.st ≠ .valid := by
  unfold Handle.restored
  split
  · exact fun h => by cases h
  · next hne => simpa using hne

end UnitLife

/-- Settles O42: a unit's end, its suspension, its start, its image saved and put back. -/
theorem unitEvents : Obligations.UnitEvents := by
  unfold Obligations.UnitEvents
  refine ⟨?_, ?_, ?_, ?_, ?_, ?_, ?_, ?_, ?_, ?_⟩
  · intro n s t u f ends hu he hs hc hw hd hq
    have run : exec (.unitEnd n) s = .next (t.finishUnit u ends) := execUnitEnd_settles hu he hs
    refine ⟨fun h hr => run.trans ?_, fun h hr => run.trans ?_⟩
    · rw [h, finishUnit_leaves (byFault := false) hc hw hd hq hr]
      rfl
    · rw [h, finishUnit_leaves (byFault := true) hc hw hd hq hr]
      rfl
  · intro n s hid k
    have hk : k = (s.coreOf n).vacate := (coreOf_vacate hid n).trans (if_pos rfl)
    rw [hk]
    exact ⟨rfl, rfl, rfl, rfl, rfl, rfl, rfl, vacate_mem s n, fun m hm => (coreOf_vacate hid m).trans (if_neg hm)⟩
  · intro n s t u f hu hg ha hd hs hc hq hp r
    refine ⟨addr48_eq _, fun i hi => ?_, ?_⟩
    · have carry : r.carry = (List.range 6).map (fun i => t.core.x (BitVec.ofNat 6 (8 + i))) := rfl
      rw [carry, List.getD_eq_getElem?_getD, List.getElem?_map, List.getElem?_range hi]
      rfl
    · exact (execTaskSuspend_yields hu hg ha hd hs).trans (congrArg _ (suspend_yields hc hq hp))
  · intro n k c s p hk hid hw hp hf
    have core := (coreOf_modCore (withPosts s (delFirst (fun p => p.1 == n && p.2.1 == k && p.2.2.1 == c) s.disp.posts)) n n
      (fun x => x.setFlag k (x.flag k + c)) ((Core.setFlag_id ..).trans hid)).trans (if_pos rfl)
    refine ⟨_, execFlagPostArrival_posts hw hp hf, ?_⟩
    rw [core, modCore_rest]
    refine ⟨(flag_setFlag _ _ hk k).trans (if_pos rfl), fun j hj => (flag_setFlag _ _ hk j).trans (if_neg hj), length_delFirst hp,
      Core.setFlag_r .., rfl⟩
  · intro n s k r hk hr
    change execTaskPick n s = _
    rw [execTaskPick]
    simp only [hk, hr]
  · intro n s r x f hid hx hf hl k
    have hk : k = taskStart s n r x f (s.coreOf n) := by
      change (s.startTask n r).coreOf n = _
      rw [startTask_starts hx hf]
      exact (coreOf_modCore s n n (taskStart s n r x f) hid).trans (if_pos rfl)
    have reg (d : RegNo) : k.x d = (if d = 2 then k.sys.spillBase - BitVec.ofNat 64 f.spd
        else if 8 ≤ d.toNat ∧ d.toNat < 14 then r.carry.getD (d.toNat - 8) 0 else 0) := by
      rw [hk, x_eq_regAt, taskStart]
      dsimp only
      rw [regAt_setX (by decide), regAt_carried hl]
      split
      · rfl
      · split
        · rfl
        · rw [show (Core.start (s.coreOf n) _ x _ r.resume).r = Regs.launch from rfl, regAt_launch]
          simp_all
    refine ⟨⟨_, by rw [hk]; rfl, rfl, rfl, rfl, rfl⟩, by rw [hk]; rfl, fun i hi => ?_, (reg 2).trans (if_pos rfl), fun d hd hr => ?_,
      by rw [hk]; rfl, by rw [hk]; rfl, by rw [hk]; rfl⟩
    · have at_ : (BitVec.ofNat 6 (8 + i)).toNat = 8 + i := by rw [BitVec.toNat_ofNat, Nat.mod_eq_of_lt (by omega)]
      have hne : BitVec.ofNat 6 (8 + i) ≠ 2 := fun e => by
        have := congrArg BitVec.toNat e
        rw [at_, show (2 : RegNo).toNat = 2 from rfl] at this
        omega
      rw [reg, if_neg hne, at_, if_pos (by omega), Nat.add_sub_cancel_left]
    · rw [reg, if_neg hd, if_neg (by omega)]
  · intro l g m n s la x hl hx hg hn hid
    obtain ⟨t, run, core⟩ := execUnitStart_starts hl hx hg hn hid
    refine ⟨fun hp hf => ⟨t, run, ?_⟩, fun hne => ⟨t, memberUnit la g m, run, ?_⟩⟩
    · rw [core, if_pos (by simp [hp, hf])]
      exact ⟨rfl, rfl⟩
    · rw [core, if_neg (by simpa using hne)]
      refine ⟨rfl, rfl, rfl, rfl, rfl, rfl, ?_, ?_, rfl, rfl, rfl, rfl, rfl, rfl, rfl⟩
      · exact (congrArg XReg.val (regAt_setX (by decide) Regs.launch _ 8)).trans rfl
      · exact (congrArg XReg.val (regAt_setX (by decide) Regs.launch _ 2)).trans rfl
  · intro n s u hu hg hc hr hb hid
    exact execPreempt_saves hu hg hc hr hb hid
  · intro n k s i hi hg hid is hr
    change execResume n k s = _
    rw [execResume]
    simp only [hi, hg]
    refine (if_pos trivial).trans (if_neg ?_)
    rw [hid]
    simpa using hr
  · intro n s i hw k
    obtain ⟨p, u, w, a, hk⟩ := coreOf_restoreOn s n i hw
    have hk : k = _ := hk
    rw [hk]
    refine ⟨rfl, rfl, rfl, rfl, rfl, rfl, rfl, rfl, rfl, rfl, rfl, fun d => ?_⟩
    have restored : ((i.core.r.h.map (·.restored)).get d.toFin) = (i.core.r.h.get d.toFin).restored := Vector.getElem_map ..
    exact (congrArg (·.st ≠ .valid) restored).mpr (restored_st _)

end Sys2Proof.Proofs

namespace Sys2Proof.Proofs

open Sys2Proof Sys2Proof.Machine Sys2Proof.Laws

/-! ## Walks, drained blocks, moved pages (R292, R331, R352) -/

section Storage

variable {s : State} {n : Nat}

/-- A neighbour's entry first, then the tables (R331). -/
theorem resolve_alone {k : Core} {ah : Word} (h : (s.cores.all (fun c => c.id == k.id || clusterOf c.id != clusterOf k.id ||
    !(c.mem.tlb.any (·.covers k.asid ah.toNat)))) = true) : s.resolve k ah = match s.walkAny k.asid ah.toNat with
      | .page p => ((p.tlb k.asid).handle ah, some (p.tlb k.asid))
      | .fail code cause => (⟨.stale, ah, 0, 0, 0, false, false, code, cause⟩, none)
      | .uncommitted p => (⟨.stale, ah, p.base, p.size, 0, false, false, uncommitted, 0⟩, none) := by
  have far : (s.cores.filter (fun d => d.id != k.id && clusterOf d.id == clusterOf k.id)).findSome?
      (fun d => d.mem.tlb.find? (·.covers k.asid ah.toNat)) = none := by
    refine List.findSome?_eq_none_iff.mpr fun c hc => List.find?_eq_none.mpr fun e he hcov => ?_
    obtain ⟨hmem, hnear⟩ := List.mem_filter.mp hc
    have apart := List.all_eq_true.mp h c hmem
    have : c.mem.tlb.any (·.covers k.asid ah.toNat) = true := List.any_eq_true.mpr ⟨e, he, hcov⟩
    simp_all
  unfold State.resolve
  dsimp only
  rw [far] <;> rfl

theorem tlbFill_room {c : Core} {e : TlbEnt} (h : c.mem.tlb.length < 64) :
    (c.tlbFill e).r = c.r ∧ (c.tlbFill e).id = c.id ∧ e ∈ (c.tlbFill e).mem.tlb := by
  have room : (c.mem.tlb.filter (fun t => !(t.asid == e.asid && t.base == e.base && t.size == e.size))).length < 64 :=
    (List.length_filter_le ..).trans_lt h
  unfold Core.tlbFill
  dsimp only
  rw [if_pos room]
  exact ⟨rfl, rfl, List.mem_append_right _ List.mem_cons_self⟩

theorem arrive_handle {c : Core} {r : Request} {d : BitVec 4} (v : Handle) (h : .h d ∈ r.dests) :
    (c.arrive r [.h d v]).h d = v ∧ (c.arrive r [.h d v]).r.x = c.r.x ∧ (c.arrive r [.h d v]).id = c.id ∧
    (c.arrive r [.h d v]).mem = c.mem := by
  have mine : ([Landing.h d v].filter (fun l => (l.pdest.map r.dests.contains).getD true)) = [.h d v] := by
    have : r.dests.contains (.h d) = true := List.contains_iff_mem.mpr h
    exact List.filter_eq_self.mpr fun l hl => by
      rw [List.mem_singleton.mp hl]
      exact this
  unfold Core.arrive
  dsimp only
  rw [mine]
  exact ⟨(get_set_toFin (w := 4) ..).trans (if_pos rfl), rfl, rfl, rfl⟩

/-- The core that a walk leaves: the translation it found, its handle. -/
def walked (k : Core) (r : Request) (d : BitVec 4) (w : Handle × Option TlbEnt) : Core :=
  (match w.2 with
    | none => k
    | some e => k.tlbFill e).arrive r [.h d w.1]

theorem execTranslationWalkDone_resolves {m : BitVec 4} {r : Request} {d : BitVec 4} {p : Handle}
    (hr : (s.coreOf n).pipe.reqs.find? (fun r => r.dests.contains (.h m) && r.seq < (s.coreOf n).pipe.seq) = some r)
    (hk : r.kind = .lands [.h d p]) : execTranslationWalkDone n m.toNat s =
      .next (s.putCore (walked (s.coreOf n) r d (s.resolve (s.coreOf n) p.ah))) := by
  rw [execTranslationWalkDone]
  simp only [BitVec.ofNat_toNat, BitVec.setWidth_eq, hr, hk]
  rfl

theorem walked_frame {k : Core} {r : Request} {d : BitVec 4} {w : Handle × Option TlbEnt} (hd : .h d ∈ r.dests) (h : k.mem.tlb.length < 64) :
    (walked k r d w).h d = w.1 ∧ (walked k r d w).r.x = k.r.x ∧ (walked k r d w).id = k.id ∧
    (∀ e, w.2 = some e → e ∈ (walked k r d w).mem.tlb) ∧
    (w.2 = none → (walked k r d w).mem.tlb = k.mem.tlb) := by
  obtain ⟨v, e⟩ := w
  cases e with
  | none =>
    obtain ⟨hv, hx, hid, hmem⟩ := arrive_handle (c := k) v hd
    exact ⟨hv, hx, hid, fun _ h => by simp at h, fun _ => congrArg (·.tlb) hmem⟩
  | some e =>
    obtain ⟨hr, hid, hin⟩ := tlbFill_room (e := e) h
    obtain ⟨hv, hx, hid', hmem⟩ := arrive_handle (c := k.tlbFill e) v hd
    refine ⟨hv, hx.trans (congrArg (·.x) hr), hid'.trans hid, fun g hg => ?_, fun h => by simp at h⟩
    obtain rfl : e = g := Option.some.inj hg
    rw [walked, hmem]
    exact hin

/-! Bytes copied (R292). -/

theorem get_moved (old new : Nat) : ∀ (m : Memory), (∀ c ∈ m, old ≤ c.1) → ∀ a,
    Memory.get (m.map (fun c => (c.1 - old + new, c.2))) a = if new ≤ a then m.get (a - new + old) else 0
  | [], _, a => by simp [Memory.get, Memory.unlisted]
  | c :: m, h, a => by
    have hc := h c List.mem_cons_self
    have rest := get_moved old new m (fun d hd => h d (List.mem_cons_of_mem _ hd)) a
    rw [List.map_cons, Memory.get, Memory.get, rest]
    dsimp only
    by_cases e : c.1 - old + new = a
    · rw [if_pos e, if_pos (by omega), if_pos (by omega)]
    · rw [if_neg e]
      split
      · rw [if_neg (by omega)]
      · rfl

theorem get_copyTo (m : Memory) (old new n a : Nat) :
    (m.copyTo old new n).get a = if new ≤ a ∧ a < new + n then m.get (a - new + old) else m.get a := by
  have low (h : new ≤ a) : ∀ c ∈ m.filter (fun c => c.1 < new), c.1 ≠ a := fun c hc => by
    have := (List.mem_filter.mp hc).2
    simp at this
    omega
  have high (h : a < new + n) : ∀ c ∈ m.filter (fun c => new + n ≤ c.1), c.1 ≠ a := fun c hc => by
    have := (List.mem_filter.mp hc).2
    simp at this
    omega
  have mid (h : a < new ∨ new + n ≤ a) :
      ∀ c ∈ (m.filter (fun c => old ≤ c.1 && c.1 < old + n)).map (fun c => (c.1 - old + new, c.2)), c.1 ≠ a :=
    fun c hc => by
      obtain ⟨d, hd, rfl⟩ := List.mem_map.mp hc
      have := (List.mem_filter.mp hd).2
      simp at this ⊢
      omega
  have fromOld : ∀ c ∈ m.filter (fun c => old ≤ c.1 && c.1 < old + n), old ≤ c.1 := fun c hc => by
    have := (List.mem_filter.mp hc).2
    simp at this
    exact this.1
  unfold Memory.copyTo
  split
  · next h =>
    rw [get_append_left _ (high h.2), get_append_of_not_listed _ (low h.1), get_moved old new _ fromOld, if_pos h.1,
      get_filter m (fun b => decide (old ≤ b) && decide (b < old + n)), if_pos (by simp; omega)]
  · next h =>
    by_cases hlow : a < new
    · rw [get_append_left _ (high (by omega)), get_append_left _ (mid (.inl hlow)), get_filter m (fun b => decide (b < new)),
        if_pos (by simp; omega)]
    · rw [List.append_assoc, get_append_of_not_listed _ (low (by omega)), get_append_of_not_listed _ (mid (.inr (by omega))),
        get_filter m (fun b => decide (new + n ≤ b)), if_pos (by simp; omega)]

/-- A handle of a context whose page has moved (R330). -/
def moveStale (old n : Nat) (h : Handle) : Handle :=
  if h.st == .valid && (decide (h.pa < old + n) && decide (old < h.pa + pageBytes h.size)) then { h with st := .stale, code := 0, cause := 0 } else h

theorem moveStale_valid {old n : Nat} {h : Handle} (hv : (moveStale old n h).st = .valid) :
    old + n ≤ (moveStale old n h).pa ∨ (moveStale old n h).pa + pageBytes (moveStale old n h).size ≤ old := by
  unfold moveStale at hv ⊢
  split at hv
  · cases hv
  · next hne =>
    rw [if_neg hne]
    simp [hv] at hne
    omega

theorem h_migrate (c : Core) (old new n : Nat) (d : BitVec 4) : (c.migrate c.asid old new n).h d = moveStale old n (c.h d) := by
  have whole : (c.migrate c.asid old new n).r.h = c.r.h.map (moveStale old n) := by
    unfold Core.migrate
    dsimp only
    exact congrArg (fun k : Core => k.r.h) (if_pos (beq_self_eq_true _))
  rw [Core.h, whole]
  exact Vector.getElem_map ..

end Storage

/-- Settles O43: a walk's answer, a block let go, a page moved byte by byte, no VALID handle on its old place. -/
theorem storageEvents : Obligations.StorageEvents := by
  unfold Obligations.StorageEvents
  refine ⟨?_, ?_, ?_, ?_, ?_⟩
  · intro n m s r d p k hid hr hk hd hall hroom
    obtain ⟨hh, hx, hkid, hin, hsame⟩ := walked_frame (w := s.resolve k p.ah) hd hroom
    have core := coreOf_putCore s (walked k r d (s.resolve k p.ah))
    rw [hkid, hid] at core
    have alone := resolve_alone (k := k) (ah := p.ah) (by rw [hid]; exact hall)
    refine ⟨_, execTranslationWalkDone_resolves hr hk, (putCore_frame ..).2, ?_, fun g hg => ?_, fun code cause hc => ?_⟩
    · rw [core]
      exact hx
    · rw [core]
      rw [hg] at alone
      refine ⟨hh.trans (congrArg (·.1) alone), hin _ (congrArg (·.2) alone)⟩
    · rw [core, hh]
      rw [hc] at alone
      exact ⟨congrArg (·.1.st) alone, congrArg (·.1.code) alone, hsame (congrArg (·.2) alone)⟩
  · intro asid pool blk s hb
    have run : exec (.blockDrainDone asid pool blk) s =
        .next (if s.held asid pool blk then s else s.modPool asid pool (·.free blk)) := by
      change execBlockDrainDone asid pool blk s = _
      rw [execBlockDrainDone, State.drained, hb]
    exact ⟨fun h => run.trans (by rw [h]; rfl), fun h => run.trans (by rw [h]; rfl)⟩
  · intro asid va pa s x p hx hp hal hend hpa hapart
    change execPageMigration asid va pa s = _
    rw [execPageMigration]
    simp only [hx, hp]
    refine if_neg ?_
    simp [hal]
    omega
  · intro m old new n hm hapart
    refine ⟨Memory.wf_copyTo hm .., fun i hi => ?_, fun a ha => ?_⟩
    · rw [get_copyTo, if_pos (by omega)]
      exact congrArg m.get (by omega)
    · rw [get_copyTo, if_neg (by omega)]
  · intro c old new n d hv
    rw [h_migrate] at hv ⊢
    exact moveStale_valid hv

end Sys2Proof.Proofs

namespace Sys2Proof.Proofs

open Sys2Proof Sys2Proof.Machine Sys2Proof.Laws

/-! ## Launches and graphs (R298 to R322) -/

section Keyed

variable {α : Type}

theorem find?_map_keyed (l : List α) (key : α → Nat) (k : Nat) (f : α → α) (hf : ∀ a, key a = k → key (f a) = k) :
    (l.map (fun a => if key a == k then f a else a)).find? (fun a => key a == k) = (l.find? (fun a => key a == k)).map f := by
  induction l with
  | nil => rfl
  | cons a l ih =>
    rw [List.map_cons, List.find?_cons, List.find?_cons]
    by_cases h : key a = k
    · have ha : (key a == k) = true := beq_iff_eq.mpr h
      have hfa : (key (f a) == k) = true := beq_iff_eq.mpr (hf a h)
      simp only [ha, if_true, hfa, Option.map_some]
    · have ha : (key a == k) = false := beq_false_of_ne h
      simp only [ha, Bool.false_eq_true, if_false]
      exact ih

end Keyed

section Launches

variable {s t : State} {k : Nat} {l : Launch}

theorem launch_key (h : s.launch k = some l) : l.key = k := by simpa using List.find?_some h

theorem launch_modLaunch {f : Launch → Launch} (hf : ∀ l : Launch, l.key = k → (f l).key = k) :
    (s.modLaunch k f).launch k = (s.launch k).map f := find?_map_keyed s.disp.launches Launch.key k f hf

theorem graph_key {g : Graph} (h : s.graphOf k = some g) : g.key = k := by simpa using List.find?_some h

theorem graphOf_modGraph {f : Graph → Graph} (hf : ∀ g : Graph, g.key = k → (f g).key = k) :
    (s.modGraph k f).graphOf k = (s.graphOf k).map f := find?_map_keyed s.disp.graphs Graph.key k f hf

/-- Answers change nothing but cores, running and saved. -/
theorem answers_frame (w : Word) (l : List (Nat × Nat)) : ∀ s : State, ∃ c o i,
    l.foldl (fun s e => s.answer e.2 w) s = { s with core := c, others := o, disp := { s.disp with images := i } } := by
  induction l with
  | nil => exact fun s => ⟨_, _, _, rfl⟩
  | cons e l ih =>
    intro s
    obtain ⟨c, o, i, h⟩ := ih (s.answer e.2 w)
    exact ⟨c, o, i, h⟩

/-! Acceptance (R298). -/

variable {m : Submit} {ms : List Submit} {q : HwQueue}

/-- The submissions that wait. -/
def withSubmits (s : State) (ms : List Submit) : State := { s with disp := { s.disp with submits := ms } }

theorem execLaunchAccept_accepts (h : s.disp.submits = m :: ms) (hm : m.host = none) :
    execLaunchAccept s = .next ((withSubmits s ms).accept m) := by
  have unread : (m.host.isSome = true) = False := by rw [hm]; simp
  rw [execLaunchAccept]
  simp only [h, unread, if_false]
  rfl

theorem refuseSubmit_unit (hm : m.host = none) (st : Nat) :
    s.refuseSubmit m st = s.answerSubmit m (BitVec.ofNat 64 (st * 2 ^ 32)) := by
  rw [State.refuseSubmit]
  exact if_pos (by rw [hm]; rfl)

theorem accept_unqueued (hq : s.hwq m.queue = none) : s.accept m = s.refuseSubmit m 8 := by
  rw [State.accept]
  simp only [hq]
  rfl

theorem accept_denied (hq : s.hwq m.queue = some q) (h : q.owner ≠ m.asid ∨ s.mayRun m.asid = false) : s.accept m = s.refuseSubmit m 8 := by
  rw [State.accept]
  simp only [hq]
  exact if_pos (by simpa using h)

/-- A queue that takes a submission. -/
structure TakesSubmit (s : State) (m : Submit) (q : HwQueue) : Prop where
  queue : s.hwq m.queue = some q
  owner : q.owner = m.asid
  run : s.mayRun m.asid = true

theorem accept_full (h : TakesSubmit s m q) (hf : 64 ≤ q.ents.length) : s.accept m = s.refuseSubmit m 7 := by
  rw [State.accept]
  simp only [h.queue]
  exact (if_neg (by simp [h.owner, h.run])).trans (if_pos hf)

theorem accept_open (h : TakesSubmit s m q) (hf : q.ents.length < 64) : s.accept m =
    if m.kind == 1 then
      match s.acceptLaunch m.asid m.queue m.desc with
      | .error st => s.refuseSubmit m st
      | .ok l =>
        let l := { l with key := (s.nextIds m.asid).2.1, id := (s.nextIds m.asid).2.2, notify := m.notify, issuer := m.issuer, host := m.host }
        let t := { (s.nextIds m.asid).1 with disp := { (s.nextIds m.asid).1.disp with launches := (s.nextIds m.asid).1.disp.launches ++ [l] } }
        (State.appendHw t m.queue (.launch (s.nextIds m.asid).2.1)).answerSubmit m (BitVec.ofNat 64 (s.nextIds m.asid).2.2)
    else if m.kind == 2 then
      match acceptGraph 0 m.asid 0 m.queue m.addr m.desc with
      | .error st => s.refuseSubmit m st
      | .ok g =>
        let g := { g with key := (s.nextIds m.asid).2.1, id := (s.nextIds m.asid).2.2, notify := m.notify, issuer := m.issuer, host := m.host }
        let t := { (s.nextIds m.asid).1 with disp := { (s.nextIds m.asid).1.disp with graphs := (s.nextIds m.asid).1.disp.graphs ++ [g] } }
        (State.appendHw t m.queue (.graph (s.nextIds m.asid).2.1)).answerSubmit m (BitVec.ofNat 64 (s.nextIds m.asid).2.2)
    else s.refuseSubmit m stDescInvalid := by
  rw [State.accept]
  simp only [h.queue]
  exact (if_neg (by simp [h.owner, h.run])).trans (if_neg hf.not_ge)

/-- An entry at the tail of its queue. -/
theorem hwq_appendHw {t : State} (e : HwEnt) (hq : t.hwq m.queue = some q) :
    ((t.appendHw m.queue e).hwq m.queue).map (·.ents) = some (q.ents ++ [e]) := by
  have found : (t.appendHw m.queue e).hwq m.queue = (t.hwq m.queue).map (fun q => { q with ents := q.ents ++ [e] }) :=
    find?_map_keyed t.disp.hw HwQueue.n m.queue _ (fun _ h => h)
  rw [found, hq]
  rfl

theorem accept_launch (h : TakesSubmit s m q) (hf : q.ents.length < 64) (hk : m.kind = 1)
    (ha : s.acceptLaunch m.asid m.queue m.desc = .ok l) : ∃ la, (s.accept m).disp.launches = s.disp.launches ++ [la] ∧
      la.desc = l.desc ∧ la.id = ((s.ctx m.asid).map (·.nextId)).getD 1 ∧ la.asid = l.asid ∧ la.notify = m.notify ∧
      (s.accept m).disp.submits = s.disp.submits ∧ (s.accept m).mem = s.mem ∧
      ((s.accept m).hwq m.queue).map (·.ents) = some (q.ents ++ [.launch la.key]) := by
  rw [accept_open h hf, if_pos (by rw [hk]; rfl), ha]
  dsimp only
  unfold State.answerSubmit
  generalize ht : State.appendHw _ m.queue (.launch (s.nextIds m.asid).2.1) = t
  obtain ⟨c, o, i, he⟩ := answers_frame (BitVec.ofNat 64 (s.nextIds m.asid).2.2) (m.answer.toList ++ m.also) t
  rw [he]
  subst ht
  exact ⟨_, rfl, rfl, rfl, rfl, rfl, rfl, rfl, hwq_appendHw _ h.queue⟩

theorem acceptGraph_ok {key asid id queue addr : Nat} {desc : Option (List Word)} {g : Graph} (h : acceptGraph key asid id queue addr desc = .ok g) :
    g.addr = addr := by
  unfold acceptGraph at h
  split at h
  · cases h
  · split at h
    · cases h
    · cases h
      rfl

theorem accept_graph {g : Graph} (h : TakesSubmit s m q) (hf : q.ents.length < 64) (hk : m.kind = 2)
    (ha : acceptGraph 0 m.asid 0 m.queue m.addr m.desc = .ok g) : ∃ gr, (s.accept m).disp.graphs = s.disp.graphs ++ [gr] ∧
      gr.addr = m.addr ∧ gr.id = ((s.ctx m.asid).map (·.nextId)).getD 1 ∧ gr.start = g.start ∧
      ((s.accept m).hwq m.queue).map (·.ents) = some (q.ents ++ [.graph gr.key]) := by
  rw [accept_open h hf, if_neg (by rw [hk]; exact Bool.false_ne_true), if_pos (by rw [hk]; rfl), ha]
  dsimp only
  unfold State.answerSubmit
  generalize ht : State.appendHw _ m.queue (.graph (s.nextIds m.asid).2.1) = t
  obtain ⟨c, o, i, he⟩ := answers_frame (BitVec.ofNat 64 (s.nextIds m.asid).2.2) (m.answer.toList ++ m.also) t
  rw [he]
  subst ht
  exact ⟨_, rfl, acceptGraph_ok (g := g) ha, rfl, rfl, hwq_appendHw _ h.queue⟩

end Launches

/-! Starts (R302 to R304). -/

section Starts

variable {s t : State} {k : Nat} {l : Launch} {q : HwQueue}

theorem clearRefused_none (h : ∀ q ∈ s.disp.hw, ∀ st x, ∀ p, s.hwq q.n = some p → p.ents.head? ≠ some (.refused st x)) :
    s.clearRefused = s := by
  have inner (q : HwQueue) (hq : q ∈ s.disp.hw) : ∀ l : List Nat, l.foldl (fun s _ =>
      match (s.hwq q.n).bind (·.ents.head?) with
      | some (.refused st h) => (s.completeHost h st 0 0).popHw q.n
      | _ => s) s = s := by
    intro l
    induction l with
    | nil => rfl
    | cons a l ih =>
      rw [List.foldl_cons]
      split
      · next st x hhead =>
        obtain ⟨p, hp, hhead⟩ := Option.bind_eq_some_iff.mp hhead
        exact absurd hhead (h q hq st x p hp)
      · exact ih
  have outer : ∀ l : List HwQueue, (∀ q ∈ l, q ∈ s.disp.hw) → l.foldl (fun s q => (List.range q.ents.length).foldl (fun s _ =>
      match (s.hwq q.n).bind (·.ents.head?) with
      | some (.refused st h) => (s.completeHost h st 0 0).popHw q.n
      | _ => s) s) s = s := by
    intro l
    induction l with
    | nil => exact fun _ => rfl
    | cons a l ih =>
      intro hl
      rw [List.foldl_cons, inner a (hl a List.mem_cons_self)]
      exact ih fun q hq => hl q (List.mem_cons_of_mem _ hq)
  exact outer s.disp.hw fun _ h => h

theorem preemptReserved_none (h : s.disp.reserving = none) : s.preemptReserved = s := by
  rw [State.preemptReserved, h]
  rfl

/-- A launch placed: every member of every stage is to start. -/
def placedLaunch (s : State) (l : Launch) (firsts : List Nat) : Launch :=
  { s.started l with
    placed := firsts, unitsLeft := dStages l.desc,
    toStart := (List.range (dStages l.desc)).flatMap (fun k => (List.range (dMembers l.desc)).map (fun m => (k, m))) }

theorem mem_toStart {firsts : List Nat} {g m : Nat} :
    (g, m) ∈ (placedLaunch s l firsts).toStart ↔ g < dStages l.desc ∧ m < dMembers l.desc := by
  change (g, m) ∈ (List.range (dStages l.desc)).flatMap (fun k => (List.range (dMembers l.desc)).map (fun m => (k, m))) ↔ _
  simp only [List.mem_flatMap, List.mem_range, List.mem_map, Prod.mk.injEq]
  constructor
  · rintro ⟨a, ha, b, hb, rfl, rfl⟩
    exact ⟨ha, hb⟩
  · rintro ⟨hg, hm⟩
    exact ⟨g, hg, m, hm, rfl, rfl⟩

theorem startGang_placed {firsts : List Nat} (hr : s.disp.reserving = none) (hf : s.resumeFirst (s.prioOf l) = false)
    (hp : placeStages (s.placeFree l) (dMembers l.desc) none [] l.stageMap = some firsts) :
    s.startGang l = some (s.modLaunch l.key (fun _ => placedLaunch s l firsts)) := by
  have unreserved : (s.disp.reserving == some (s.started l).key) = false := by rw [hr]; rfl
  rw [State.startGang, hf, hp]
  refine (if_neg Bool.false_ne_true).trans (congrArg some ?_)
  dsimp only
  rw [unreserved]
  rfl

/-- The only queue with something in it is picked. -/
theorem pickQueue_only (hq : s.disp.hw = [q]) (he : q.ents ≠ []) : ∃ below, s.pickQueue [] = some (q, false, below) := by
  have live : s.disp.hw.filter (fun q => !q.ents.isEmpty && !([] : List Nat).contains q.n) = [q] := by
    rw [hq, List.filter_cons, if_pos (by simpa using he), List.filter_nil]
  have top : ([q].map (·.prio)).max? = some q.prio := rfl
  have low : (([q].map (·.prio)).filter (· < q.prio)).max? = none := by simp
  unfold State.pickQueue
  simp only [live, top, low]
  refine ⟨[q].any (fun x => decide (x.prio < q.prio)), ?_⟩
  simp only [List.filter_cons, beq_self_eq_true, if_true, List.filter_nil]
  rfl

/-- The queue that was served last, and its age. -/
def servedHw (s : State) (n age : Nat) : State := { s with disp := { s.disp with hwLast := n, hwAge := age } }

theorem execLaunchStart_gang {firsts : List Nat} (hw : s.disp.hw = [q]) (he : q.ents = [.launch k]) (hl : s.launch k = some l)
    (hg : dGang l.desc = true) (hr : s.disp.reserving = none) (hf : s.resumeFirst (s.prioOf l) = false)
    (hp : placeStages (s.placeFree l) (dMembers l.desc) none [] l.stageMap = some firsts) : ∃ age,
    execLaunchStart s = .next (servedHw ((s.modLaunch l.key (fun _ => placedLaunch s l firsts)).popHw q.n) q.n age) := by
  have only : s.hwq q.n = some q := by rw [State.hwq, hw, List.find?_cons, beq_self_eq_true]
  have clear : s.clearRefused = s := clearRefused_none fun p hp st x r hr' => by
    rw [hw, List.mem_singleton] at hp
    subst hp
    rw [only] at hr'
    cases hr'
    rw [he]
    simp
  obtain ⟨below, pick⟩ := pickQueue_only hw (by rw [he]; simp)
  have start : s.startHead q = ((s.modLaunch l.key (fun _ => placedLaunch s l firsts)).popHw q.n, true) := by
    rw [State.startHead, he]
    simp only [List.head?_cons, hl, hg, if_true, startGang_placed hr hf hp]
  obtain ⟨age, serve⟩ : ∃ age, s.serveQueues s.disp.hw.length [] =
      servedHw ((s.modLaunch l.key (fun _ => placedLaunch s l firsts)).popHw q.n) q.n age := by
    rw [hw, List.length_singleton, State.serveQueues]
    simp only [pick, start]
    exact ⟨_, rfl⟩
  refine ⟨age, ?_⟩
  have emptied : (servedHw ((s.modLaunch l.key (fun _ => placedLaunch s l firsts)).popHw q.n) q.n age).disp.hw = [{ q with ents := [] }] := by
    change s.disp.hw.map _ = _
    rw [hw, List.map_singleton, if_pos (beq_self_eq_true _), he]
    rfl
  rw [execLaunchStart, clear, preemptReserved_none hr, serve, clearRefused_none]
  · exact congrArg Host.Outcome.next (preemptReserved_none hr)
  · intro p hp st x r hr'
    have hr' := List.mem_of_find?_eq_some hr'
    rw [emptied, List.mem_singleton] at hr'
    subst hr'
    simp

/-! Blocks (R306). -/

theorem writeHeader_disp (s : State) (asid ptr : Nat) (ws : List Word) : (s.writeHeader asid ptr ws).disp = s.disp := by
  unfold State.writeHeader
  split
  · obtain ⟨m, x, p, e⟩ := storeAt_frame s asid ptr _ (ws.flatMap (fun w => bytesOf w 8))
    rw [e]
  · rfl

theorem rootTask_launches {c : Ctx} {entry size prio place launch : Nat} {reissue prov : Bool} {carry : List Word} {block serves : Option Nat}
    {r : Rec} (h : s.rootTask c entry size prio place launch reissue prov carry block serves = some (t, r)) : t.disp.launches = s.disp.launches := by
  obtain ⟨⟨v, p⟩, hv, h⟩ := Option.map_eq_some_iff.mp h
  obtain ⟨a, -, hv⟩ := Option.map_eq_some_iff.mp hv
  cases h
  cases hv
  exact (congrArg (fun d : Disp => d.launches) (writeHeader_disp _ c.asid p _)).trans rfl

/-- A launch with one block more dealt. -/
def dealtLaunch (mark : Nat) (l : Launch) : Launch :=
  { l with cursor := l.cursor + 1, rotation := mark, unitsLeft := l.unitsLeft + 1, blocks := l.blocks ++ [(l.cursor, .waiting)] }

theorem deal_deals (hl : s.launch k = some l) (h : s.deal l = some t) : ∃ la, t.launch k = some la ∧ la.cursor = l.cursor + 1 ∧
    la.blocks = l.blocks ++ [(l.cursor, .waiting)] ∧ la.unitsLeft = l.unitsLeft + 1 := by
  unfold State.deal at h
  split at h
  · cases h
  · split at h
    · next d mark c _ _ =>
      split at h
      · cases h
      · obtain ⟨⟨v, r⟩, hv, h⟩ := Option.map_eq_some_iff.mp h
        have kept : v.launch k = some l := (congrArg (List.find? (fun x : Launch => x.key == k)) (rootTask_launches hv)).trans hl
        subst h
        have key := launch_key hl
        subst key
        refine ⟨_, (launch_modLaunch (s := v) (f := dealtLaunch mark) (fun _ h => h)).trans (congrArg (Option.map _) kept), rfl, rfl, rfl⟩
    · cases h

theorem execBlockDeal_deals (hl : s.launch k = some l) (hs : l.st = .started) (hg : dGang l.desc = false) (ha : l.again = []) :
    execBlockDeal k s = .next ((s.deal l).getD s) := by
  have again : s.dealAgain l = none := by rw [State.dealAgain, ha]
  rw [execBlockDeal]
  simp only [hl, again]
  exact if_pos (by simp [hs, hg])

/-! Completion (R309). -/

theorem noticeLaunch_mem (s : State) (asid : Nat) (d : Option Word) (i : Option (Nat × Family)) : (s.noticeLaunch asid d i).mem = s.mem := by
  unfold State.noticeLaunch
  split
  · dsimp only
    split <;> rfl
  · rfl

theorem completeHost_frame (s : State) (h : Option (Nat × Nat × BitVec 32)) (st sh id : Nat) :
    (s.completeHost h st sh id).disp = s.disp ∧ (s.completeHost h st sh id).mem = s.mem := by
  unfold State.completeHost
  split <;> exact ⟨rfl, rfl⟩

theorem countKernel_frame (s : State) (l : Launch) : (s.countKernel l).disp.launches = s.disp.launches ∧ (s.countKernel l).mem = s.mem := by
  unfold State.countKernel
  split <;> exact ⟨rfl, rfl⟩

/-- The completion word (R309). -/
def completionWord (l : Launch) : Word := BitVec.ofNat 64 (l.final.getD 0 * 2 ^ 32 + (if l.low then 512 else 0) + 256 + l.status)

theorem completeLaunch_mem (s : State) (l : Launch) : (s.completeLaunch l).mem =
    (if dCell l.desc == 0 then s else s.writeCell l.asid (dCell l.desc + 8) (completionWord l)).mem := by
  unfold State.completeLaunch
  dsimp only
  rw [(countKernel_frame ..).2, (completeHost_frame ..).2]
  exact noticeLaunch_mem ..

theorem completeLaunch_gone (s : State) (l : Launch) : (s.completeLaunch l).launch l.key = none := by
  refine List.find?_eq_none.mpr fun x hx => ?_
  obtain ⟨-, hne⟩ := List.mem_filter.mp hx
  simpa using hne

end Starts

/-! Shapes (R316, R317). -/

section Shapes

variable {s t : State} {l : Launch} {m : ShapeMsg} {ms : List ShapeMsg}

/-- The posts that wait. -/
def withShapes (s : State) (ms : List ShapeMsg) : State := { s with disp := { s.disp with shapes := ms } }

/-- The launch whose cell a post names. -/
def waitsOn (m : ShapeMsg) (l : Launch) : Bool := l.asid == m.asid && l.waits && dCell l.desc != 0 && dCell l.desc == m.cell

/-- A final shape written into its cell. -/
def shapeWritten (s : State) (m : ShapeMsg) : State := s.storeAt m.asid m.cell m.pa (bytesOf (BitVec.ofNat 64 (2 ^ 63 + m.v)) 8)

/-- Whether a post's cell still stands where it was found. -/
def cellThere (s : State) (m : ShapeMsg) : Bool :=
  match s.translate m.asid m.cell .write with
  | .ok pa => pa == m.pa
  | .error _ => false

/-- A post taken by the launch that waits for it, where there is one. -/
def shapeTaken (s : State) (m : ShapeMsg) : State :=
  match s.disp.launches.find? (waitsOn m) with
  | none => s
  | some l => s.postShape l m

theorem execShapePost_posts (h : s.disp.shapes = m :: ms) (hp : s.translate m.asid m.cell .write = .ok m.pa) : execShapePost s =
    if m.final && ((s.memAs (s.keyOf m.asid)).readW m.pa).getLsbD 63 then .next (withShapes s ms)
    else .next (shapeTaken (if m.final then shapeWritten (withShapes s ms) m else withShapes s ms) m) := by
  have step : execShapePost s =
      if m.final && cellThere (withShapes s ms) m && ((s.memAs (s.keyOf m.asid)).readW m.pa).getLsbD 63 then .next (withShapes s ms)
      else match (if m.final && cellThere (withShapes s ms) m then shapeWritten (withShapes s ms) m else withShapes s ms).disp.launches.find?
          (waitsOn m) with
        | none => .next (if m.final && cellThere (withShapes s ms) m then shapeWritten (withShapes s ms) m else withShapes s ms)
        | some l => .next ((if m.final && cellThere (withShapes s ms) m then shapeWritten (withShapes s ms) m else
            withShapes s ms).postShape l m) := by
    rw [execShapePost, h] <;> rfl
  have there : cellThere (withShapes s ms) m = true := by
    rw [cellThere, show (withShapes s ms).translate m.asid m.cell .write = .ok m.pa from hp]
    exact beq_self_eq_true _
  rw [step, there, Bool.and_true]
  refine if_congr Iff.rfl rfl ?_
  generalize (if m.final then shapeWritten (withShapes s ms) m else withShapes s ms) = w
  unfold shapeTaken
  split <;> rfl

theorem sealLines_withShapes (key : Option Nat) (ls : List Nat) (ms : List ShapeMsg) : ∀ s : State,
    ls.foldl (·.sealLine key) (withShapes s ms) = withShapes (ls.foldl (·.sealLine key) s) ms := by
  induction ls with
  | nil => exact fun _ => rfl
  | cons l ls ih =>
    intro s
    have step : (withShapes s ms).sealLine key l = withShapes (s.sealLine key l) ms := by
      unfold State.sealLine
      have sealed : (withShapes s ms).sealed = s.sealed := rfl
      rw [sealed]
      cases lookup s.sealed l with
      | some k => by_cases hk : (key == some k) = true <;> simp only [hk] <;> rfl
      | none => by_cases hk : key.isNone = true <;> simp only [hk] <;> rfl
    exact (congrArg (fun s => ls.foldl (·.sealLine key) s) step).trans (ih _)

theorem shapeWritten_mem (s : State) (ms : List ShapeMsg) (m : ShapeMsg) :
    (shapeWritten (withShapes s ms) m).mem = (s.storeAt m.asid m.cell m.pa (bytesOf (BitVec.ofNat 64 (2 ^ 63 + m.v)) 8)).mem :=
  (congrArg (fun t : State => (t.writeMem m.pa (bytesOf (BitVec.ofNat 64 (2 ^ 63 + m.v)) 8)).mem)
    (sealLines_withShapes (s.keyAt m.asid m.cell) (memLines m.pa _) ms s)).trans rfl

theorem shapeWritten_launches (s : State) (m : ShapeMsg) : (shapeWritten s m).disp.launches = s.disp.launches := by
  obtain ⟨a, b, c, e⟩ := storeAt_frame s m.asid m.cell m.pa (bytesOf (BitVec.ofNat 64 (2 ^ 63 + m.v)) 8)
  rw [shapeWritten, e]

theorem shapeEvents_queued (h : s.launch l.key = some l) (hq : l.st = .queued) : s.shapeEvents l.key = s := by
  rw [State.shapeEvents, h]
  exact if_pos (by rw [hq]; rfl)

/-- A launch whose final shape is fixed. -/
def finalLaunch (m : ShapeMsg) (l₀ : Launch) (l : Launch) : Launch :=
  { l with floor := max m.v l₀.floor, low := decide (m.v < l.floor), final := some (max m.v l₀.floor), waits := false }

theorem postShape_final (hf : m.final = true) (h : s.launch l.key = some l) (hq : l.st = .queued) :
    (s.postShape l m).launch l.key = some (finalLaunch m l l) := by
  have fixed : ((s.modLaunch l.key (finalLaunch m l)).observe l (max m.v l.floor)).launch l.key = some (finalLaunch m l l) :=
    (launch_modLaunch (f := finalLaunch m l) (fun _ h => h)).trans (congrArg _ h)
  have post : s.postShape l m = ((s.modLaunch l.key (finalLaunch m l)).observe l (max m.v l.floor)).shapeEvents l.key := by
    rw [State.postShape, if_pos hf]
    rfl
  have events : ((s.modLaunch l.key (finalLaunch m l)).observe l (max m.v l.floor)).shapeEvents l.key = _ :=
    shapeEvents_queued (l := finalLaunch m l l) fixed hq
  rw [post, events]
  exact fixed

/-- A launch whose floor is raised. -/
def raisedLaunch (m : ShapeMsg) (l : Launch) : Launch := { l with floor := m.v, pred := max l.pred m.v }

theorem postShape_floor (hf : m.final = false) (h : s.launch l.key = some l) (hq : l.st = .queued) : (s.postShape l m).mem = s.mem ∧
    ∃ la, (s.postShape l m).launch l.key = some la ∧ la.floor = max m.v l.floor ∧ la.final = l.final ∧ la.waits = l.waits := by
  rw [State.postShape, if_neg (by rw [hf]; exact Bool.false_ne_true)]
  split
  · next hv =>
    have raised : (s.modLaunch l.key (raisedLaunch m)).launch l.key = some (raisedLaunch m l) :=
      (launch_modLaunch (f := raisedLaunch m) (fun _ h => h)).trans (congrArg _ h)
    have events : (s.modLaunch l.key (raisedLaunch m)).shapeEvents l.key = s.modLaunch l.key (raisedLaunch m) :=
      shapeEvents_queued (l := raisedLaunch m l) raised hq
    refine ⟨(congrArg (fun s : State => s.mem) events).trans rfl, raisedLaunch m l, ?_, (Nat.max_eq_left (Nat.le_of_lt hv)).symm, rfl, rfl⟩
    exact (congrArg (·.launch l.key) events).trans raised
  · next hv => exact ⟨rfl, l, h, (Nat.max_eq_right (Nat.not_lt.mp hv)).symm, rfl, rfl⟩

/-! Commit (R294, R318, R319). -/

theorem execBlockCommit_gang {k b : Nat} (h : s.launch k = some l) (hg : dGang l.desc = true) :
    execBlockCommit k b s = .next (s.commitTicks l.key l.dueTicks) := by
  rw [execBlockCommit]
  simp only [h, hg, if_true]

/-- A block's commit: as far as nothing must wait, then its next state. -/
def committed (s : State) (l : Launch) (b : Nat) (st : BlockSt) : State :=
  match s.commitUnit l.key b with
  | (t, true) => (t.confirmBlock l b).modLaunch l.key (·.setBlock b (fun _ => st))
  | (t, false) => t

theorem execBlockCommit_grid {k b : Nat} (h : s.launch k = some l) (hg : dGang l.desc = false) : execBlockCommit k b s =
    match l.block b with
    | some .commit => .next (committed s l b .runC)
    | some .endP => if b < l.floor then .next (committed s l b .done) else .next s
    | _ => .next s := by
  rw [execBlockCommit]
  simp only [h, hg, Bool.false_eq_true, if_false]
  rfl

theorem commitWrite_writes {v : State} {e : ProvEnt} {id : Nat} (ht : s.tileInWay e.write = false)
    (hr : s.regionAgain e.by_ e.unit e.region = (t, id)) (ha : t.tagAccess id e.write.lines e.write.kind = .ok v) :
    s.commitWrite e = some ((v.performProv e.by_.fam.asid e.write).closeRegion id) := by
  rw [State.commitWrite, if_neg (by rw [ht]; exact Bool.false_ne_true), hr]
  simp only [ha]

end Shapes

/-! Visits of a graph's nodes (R320, R322). -/

section GraphVisits

variable {s : State} {g : Graph} {n : Nat}

/-- A graph with its one visit taken up. -/
def visiting (g : Graph) : Graph := { g with visits := [] }

/-- The graph's record of the visit just begun. -/
def visitBegun (s : State) (g : Graph) : State := s.modGraph g.key (fun _ => visiting g)

theorem visitGraph_visits (hv : g.visits = [n]) (hr : g.running.length < 63) : s.visitGraph g =
    if n > g.nodes then (visitBegun s g).modGraph g.key (·.fail stGraphInvalid)
    else match s.node g n with
      | none => (visitBegun s g).modGraph g.key (·.fail stDescFault)
      | some w => if nodeBad w then (visitBegun s g).modGraph g.key (·.fail stGraphInvalid) else (visitBegun s g).visitNode (visiting g) n w := by
  have few : (g.paths ≥ 64) = False := by
    rw [Graph.paths, hv, List.length_singleton]
    exact eq_false (by omega)
  have ready : g.visits.find? (fun n => !(s.visitWaits g n)) = some n := by
    rw [hv, List.find?_cons, State.visitWaits]
    simp only [few, decide_false, Bool.false_and, Bool.not_false]
  have left : g.visits.erase n = [] := by rw [hv, List.erase_cons_head]
  rw [State.visitGraph, ready]
  simp only [left]
  rfl

/-- A graph changed after its visit has begun. -/
theorem graphOf_visited (hg : s.graphOf g.key = some g) (f : Graph → Graph) (hf : ∀ h : Graph, (f h).key = h.key) :
    ((visitBegun s g).modGraph g.key f).graphOf g.key = some (f (visiting g)) := by
  have begun : (visitBegun s g).graphOf g.key = some (visiting g) :=
    (graphOf_modGraph (f := fun _ => visiting g) (fun _ _ => rfl)).trans (congrArg (Option.map _) hg)
  exact (graphOf_modGraph (fun h hk => (hf h).trans hk)).trans (congrArg (Option.map f) begun)

theorem execGraphVisit_started (hg : s.graphOf g.key = some g) (hs : g.st = .started) : execGraphVisit g.key s = .next (s.visitGraph g) := by
  rw [execGraphVisit]
  simp only [hg, hs, beq_self_eq_true, if_true]

theorem go_visiting (hf : g.failed = false) (k : Nat) : ((visiting g).go k).visits = (if k = 0xFFF then [] else [k]) ∧
    ((visiting g).go k).running = g.running ∧ ((visiting g).go k).failed = false := by
  unfold Graph.go
  have failed : (visiting g).failed = false := hf
  by_cases hk : k = 0xFFF
  · rw [if_pos (by simp [hk, noNode]), if_pos hk]
    exact ⟨rfl, rfl, hf⟩
  · rw [if_neg (by simp [failed, noNode]; exact hk), if_neg hk]
    exact ⟨rfl, rfl, hf⟩

end GraphVisits

section GraphAnswers

variable {s : State} {g : Graph} {n : Nat}

/-- What a visit answers: the graph as it stands then, memory and launches as they were. -/
def Visits (s : State) (g : Graph) (p : Graph → Prop) : Prop :=
  ∃ t h, exec (.graphVisit g.key) s = .next t ∧ t.graphOf g.key = some h ∧ p h ∧ t.mem = s.mem ∧ t.disp.launches = s.disp.launches

/-- A graph whose first visit can be made. -/
structure CanVisit (s : State) (g : Graph) (n : Nat) : Prop where
  there : s.graphOf g.key = some g
  started : g.st = .started
  visit : g.visits = [n]
  few : g.running.length < 63
  sound : g.failed = false

theorem visits_of {p : Graph → Prop} {f : Graph → Graph} (h : CanVisit s g n)
    (hv : s.visitGraph g = (visitBegun s g).modGraph g.key f) (hf : ∀ h : Graph, (f h).key = h.key) (hp : p (f (visiting g))) :
    Visits s g p := by
  refine ⟨_, f (visiting g), (execGraphVisit_started h.there h.started).trans (congrArg _ hv), graphOf_visited h.there f hf, hp, rfl, rfl⟩

theorem visits_past (h : CanVisit s g n) (hn : g.nodes < n) : Visits s g (fun h => h.failed = true ∧ h.status = 10 ∧ h.visits = []) := by
  refine visits_of h ((visitGraph_visits h.visit h.few).trans (if_pos hn)) (fun _ => rfl) ⟨rfl, ?_, rfl⟩
  exact if_neg (by rw [visiting, h.sound]; exact Bool.false_ne_true)

theorem visitGraph_node {w : List Word} (h : CanVisit s g n) (hn : n ≤ g.nodes) (hw : s.node g n = some w) (hb : nodeBad w = false) :
    s.visitGraph g = (visitBegun s g).visitNode (visiting g) n w := by
  rw [visitGraph_visits h.visit h.few, if_neg (Nat.not_lt.mpr hn), hw]
  exact if_neg (by rw [hb]; exact Bool.false_ne_true)

theorem go_key (g : Graph) (k : Nat) : (g.go k).key = g.key := by
  unfold Graph.go
  split <;> rfl

theorem go_tables (g : Graph) (k : Nat) : (g.go k).iters = g.iters ∧ (g.go k).arrivals = g.arrivals := by
  unfold Graph.go
  split <;> exact ⟨rfl, rfl⟩

/-- The graph behind a visit: on to one node or at its end, what runs still running. -/
def Onward (g h : Graph) (k : Nat) : Prop := h.visits = (if k = 0xFFF then [] else [k]) ∧ h.running = g.running ∧ h.failed = false

section Nodes

variable {w : List Word} {v : Word}

theorem visitNode_branch (hk : nKind w = 1) (hv : s.predicate g.asid (nAddr w) = some v) :
    s.visitNode g n w = s.modGraph g.key (·.go (if v != 0 then nNext w else nAlt w)) := by
  rw [State.visitNode]
  simp only [hk, hv]

/-- A loop's turn counted, and what follows. -/
def turned (n turns next : Nat) (g : Graph) : Graph := ({ g with iters := assocSet g.iters n turns } : Graph).go next

theorem visitNode_loop (hk : nKind w = 2) (hv : s.predicate g.asid (nAddr w) = some v) : s.visitNode g n w =
    if v != 0 && (nMax w == 0 || (lookup g.iters n).getD 0 < nMax w) then
      s.modGraph g.key (turned n ((lookup g.iters n).getD 0 + 1) (nNext w))
    else s.modGraph g.key (turned n 0 (nAlt w)) := by
  rw [State.visitNode]
  simp only [hk, hv]
  rfl

/-- A join's arrivals counted. -/
def joined (n arr : Nat) (g : Graph) : Graph := { g with arrivals := assocSet g.arrivals n arr }

theorem visitNode_join (hk : nKind w = 3) : s.visitNode g n w =
    if (lookup g.arrivals n).getD 0 + 1 == nJcount w then s.modGraph g.key (fun g => (joined n 0 g).go (nNext w))
    else s.modGraph g.key (joined n ((lookup g.arrivals n).getD 0 + 1)) := by
  rw [State.visitNode]
  simp only [hk]
  rfl

theorem onward_turned (hf : g.failed = false) (n turns next : Nat) :
    Onward g (turned n turns next (visiting g)) next ∧ lookup (turned n turns next (visiting g)).iters n = some turns := by
  have h := go_visiting (g := { g with iters := assocSet g.iters n turns }) hf next
  exact ⟨h, (congrArg (lookup · n) (go_tables _ next).1).trans (lookup_assocSet_self ..)⟩

theorem onward_joined (hf : g.failed = false) (n arr next : Nat) :
    Onward g ((joined n arr (visiting g)).go next) next ∧ lookup ((joined n arr (visiting g)).go next).arrivals n = some arr := by
  have h := go_visiting (g := { g with arrivals := assocSet g.arrivals n arr }) hf next
  exact ⟨h, (congrArg (lookup · n) (go_tables _ next).2).trans (lookup_assocSet_self ..)⟩

end Nodes

end GraphAnswers

/-- Settles O44: a launch judged, started, dealt, shaped, committed and completed; a graph's visit by the node's kind. -/
theorem launchEvents : Obligations.LaunchEvents := by
  unfold Obligations.LaunchEvents
  refine ⟨⟨?_, ?_, ?_, ?_, ?_, ?_, ?_, ?_⟩, ?_⟩
  · intro s m ms v hs hm refused
    have run : exec .launchAccept s = .next (v.accept m) := execLaunchAccept_accepts hs hm
    have refuses {st : Nat} (h : v.accept m = v.refuseSubmit m st) : refused st :=
      run.trans (congrArg _ (h.trans (refuseSubmit_unit hm st)))
    refine ⟨fun hq => refuses (accept_unqueued hq), fun q hq => ⟨fun h => refuses (accept_denied hq h), fun ho hr => ?_⟩⟩
    have takes : TakesSubmit v m q := ⟨hq, ho, hr⟩
    refine ⟨fun hf => refuses (accept_full takes hf), ?_⟩
    intro hf id
    refine ⟨fun hk => ⟨fun st he => refuses ?_, fun l hl => ?_⟩, fun hk g hg => ?_⟩
    · rw [accept_open takes hf, if_pos (by rw [hk]; rfl), he]
    · obtain ⟨la, h⟩ := accept_launch takes hf hk hl
      exact ⟨_, la, run, h⟩
    · obtain ⟨gr, h⟩ := accept_graph takes hf hk hg
      exact ⟨_, gr, run, h⟩
  · intro s q k l firsts hw he hl hg hr hf hp
    obtain ⟨age, run⟩ := execLaunchStart_gang hw he hl hg hr hf hp
    obtain rfl := launch_key hl
    refine ⟨_, placedLaunch s l firsts, run, ?_, rfl, rfl, fun g m => mem_toStart, rfl, rfl, ?_⟩
    · exact (launch_modLaunch (f := fun _ => placedLaunch s l firsts) (fun _ _ => rfl)).trans (congrArg (Option.map _) hl)
    · have popped : (s.popHw q.n).hwq q.n = (s.hwq q.n).map (fun q => { q with ents := q.ents.drop 1 }) :=
        find?_map_keyed s.disp.hw HwQueue.n q.n _ (fun _ h => h)
      refine (congrArg (Option.map (·.ents)) popped).trans ?_
      rw [State.hwq, hw, List.find?_cons, beq_self_eq_true]
      simp [he]
  · intro k s l hl hs hg ha
    have run : exec (.blockDeal k) s = .next ((s.deal l).getD s) := execBlockDeal_deals hl hs hg ha
    refine ⟨fun hlim => run.trans ?_, fun u hu => ⟨run.trans (by rw [hu]; rfl), deal_deals hl hu⟩⟩
    rw [State.deal, if_pos hlim]
    rfl
  · intro k s l hl
    have run : exec (.launchComplete k) s = if l.done then .next (s.completeLaunch l) else .next s := by
      change execLaunchComplete k s = _
      rw [execLaunchComplete]
      simp only [hl]
    obtain rfl := launch_key hl
    refine ⟨fun hd => run.trans (if_neg (by rw [hd]; exact Bool.false_ne_true)), fun hd => ⟨_, run.trans (if_pos hd), completeLaunch_gone s l,
      fun hc => ?_, fun pa hc hp => ?_⟩⟩
    · rw [completeLaunch_mem, if_pos (by simp [hc])]
    · rw [completeLaunch_mem, if_neg (by simp [hc]), State.writeCell, hp]
      rfl
  · intro s m ms hs hp v word
    have run : exec .shapePost s = _ := execShapePost_posts hs hp
    refine ⟨fun hf hb => run.trans (if_pos ?_), fun hf hb => ?_, fun hf l hfind hl hq => ?_⟩
    · rw [hf]
      exact hb
    · have closed : (m.final && ((s.memAs (s.keyOf m.asid)).readW m.pa).getLsbD 63) = false := by
        rw [hf]
        exact hb
      rw [closed, hf] at run
      have launches := shapeWritten_launches (withShapes s ms) m
      refine ⟨_, run, fun hnone => ?_, fun l hfind hl hq => ⟨finalLaunch m l l, ?_, rfl, rfl, rfl, rfl⟩⟩
      · have none_waits : shapeTaken (shapeWritten (withShapes s ms) m) m = shapeWritten (withShapes s ms) m := by
          rw [shapeTaken, launches, show (withShapes s ms).disp.launches = [] from hnone]
          rfl
        exact (congrArg (fun s : State => s.mem) none_waits).trans (shapeWritten_mem s ms m)
      · have taken : shapeTaken (shapeWritten (withShapes s ms) m) m = (shapeWritten (withShapes s ms) m).postShape l m := by
          rw [shapeTaken, launches, show (withShapes s ms).disp.launches.find? (waitsOn m) = some l from hfind]
        refine (congrArg (·.launch l.key) taken).trans (postShape_final hf ?_ hq)
        rw [State.launch, launches]
        exact hl
    · have open_ : (m.final && ((s.memAs (s.keyOf m.asid)).readW m.pa).getLsbD 63) = false := by
        rw [hf]
        rfl
      rw [open_, hf] at run
      have taken : shapeTaken (withShapes s ms) m = (withShapes s ms).postShape l m := by
        rw [shapeTaken, show (withShapes s ms).disp.launches.find? (waitsOn m) = some l from hfind]
      obtain ⟨hmem, la, hla, hfloor, hfinal, hwaits⟩ := postShape_floor (s := withShapes s ms) hf hl hq
      exact ⟨_, la, run, (congrArg (·.launch l.key) taken).trans hla, hfloor, hfinal, hwaits,
        (congrArg (fun s : State => s.mem) taken).trans hmem⟩
  · intro k b s l hl go
    refine ⟨fun hg => execBlockCommit_gang hl hg, fun hg => ?_⟩
    have run : exec (.blockCommit k b) s = _ := execBlockCommit_grid hl hg
    have goes {st : BlockSt} (h : exec (.blockCommit k b) s = .next (committed s l b st)) : go st := fun t =>
      ⟨fun hc => h.trans (by rw [committed, hc]), fun hc => h.trans (by rw [committed, hc])⟩
    refine ⟨fun hb => goes (run.trans (by rw [hb])), fun hb hlt => goes (run.trans ?_), fun hb hge => run.trans ?_⟩
    · rw [hb]
      exact if_pos hlt
    · rw [hb]
      exact if_neg (Nat.not_lt.mpr hge)
  · intro s key e es
    refine ⟨fun h => ?_, fun t h => ?_⟩
    · rw [State.commitWrites, h]
    · rw [State.commitWrites, h]
  · intro s t v e id ht hr ha
    refine ⟨_, commitWrite_writes ht hr ha, fun va pa b hw => ?_, fun va pa op w64 a hw => ?_⟩
    · rw [hw]
      rfl
    · rw [hw]
      cases w64 <;> rfl
  · intro s g n hg hs hv hr hf onward ans
    have can : CanVisit s g n := ⟨hg, hs, hv, hr, hf⟩
    refine ⟨fun hn => visits_past can hn, ?_⟩
    intro w hn hw hb nx alt kind
    have node := visitGraph_node can hn hw hb
    have kindIs {k : Nat} {b : BitVec 4} (h : kind = b) (e : b.toNat = k) : nKind w = k := (congrArg BitVec.toNat h).trans e
    refine ⟨?_, ?_⟩
    · intro v hp
      refine ⟨fun hk => ?_, ?_⟩
      · have step := visitNode_branch (s := visitBegun s g) (g := visiting g) (n := n) (kindIs hk rfl) hp
        refine visits_of can (node.trans step) (fun h => go_key h _) ?_
        have next : (if v != 0 then nNext w else nAlt w) = if v = 0 then alt else nx := by
          by_cases hv : v = 0
          · rw [if_pos hv, if_neg (by simp [hv])]
            rfl
          · rw [if_neg hv, if_pos (by simpa using hv)]
            rfl
        rw [next]
        exact go_visiting hf _
      · intro hk turns max
        have step := visitNode_loop (s := visitBegun s g) (g := visiting g) (n := n) (kindIs hk rfl) hp
        have again : (v != 0 && (nMax w == 0 || (lookup (visiting g).iters n).getD 0 < nMax w)) = (v != 0 && (max == 0 || turns < max)) := rfl
        rw [again] at step
        refine ⟨fun hnz hmax => ?_, fun hend => ?_⟩
        · have goes : (v != 0 && (max == 0 || turns < max)) = true := Bool.and_eq_true_iff.mpr ⟨bne_iff_ne.mpr hnz, by simpa using hmax⟩
          exact visits_of can (node.trans (step.trans (if_pos goes))) (fun h => go_key _ _) (onward_turned hf n (turns + 1) nx)
        · refine visits_of can (node.trans (step.trans (if_neg ?_))) (fun h => go_key _ _) (onward_turned hf n 0 alt)
          obtain hz | ⟨hm, hle⟩ := hend
          · simp [hz]
          · simp [hm, Nat.not_lt.mpr hle]
    · intro hk arr
      have step := visitNode_join (s := visitBegun s g) (g := visiting g) (n := n) (kindIs hk rfl)
      refine ⟨fun ha => ?_, fun ha => ?_⟩
      · exact visits_of can (node.trans (step.trans (if_pos (beq_iff_eq.mpr ha)))) (fun h => go_key _ _) (onward_joined hf n 0 nx)
      · exact visits_of can (node.trans (step.trans (if_neg (mt beq_iff_eq.mp ha)))) (fun h => rfl) ⟨rfl, lookup_assocSet_self ..⟩

end Sys2Proof.Proofs

namespace Sys2Proof.Proofs

open Sys2Proof Sys2Proof.Machine Sys2Proof.Laws

/-! ## The host's rings, replies and accesses (R388 to R398) -/

section Bytes

theorem natOfBytes_cons (b : Byte) (bs : List Byte) : natOfBytes (b :: bs) = b.toNat + 256 * natOfBytes bs := by
  rw [natOfBytes, Nat.shiftLeft_eq, Nat.mul_comm]

theorem pow_succ_bytes (k : Nat) : 2 ^ (8 * (k + 1)) = 256 * 2 ^ (8 * k) := by
  rw [Nat.mul_add, Nat.pow_add]
  ring

theorem natOfBytes_mod : ∀ (k : Nat) (bs : List Byte), natOfBytes bs % 2 ^ (8 * k) = natOfBytes (bs.take k)
  | 0, bs => by rw [Nat.mul_zero, Nat.pow_zero, Nat.mod_one, List.take_zero, natOfBytes]
  | k + 1, [] => by rw [List.take_nil, natOfBytes, Nat.zero_mod]
  | k + 1, b :: bs => by
    have ih := natOfBytes_mod k bs
    have hb : b.toNat < 256 := b.isLt
    have low : (b.toNat + 256 * natOfBytes bs) % 256 = b.toNat := by omega
    have high : (b.toNat + 256 * natOfBytes bs) / 256 = natOfBytes bs := by omega
    rw [List.take_succ_cons, natOfBytes_cons, natOfBytes_cons, ← ih, pow_succ_bytes, Nat.mod_mul, low, high]

theorem natOfBytes_div : ∀ (k : Nat) (bs : List Byte), natOfBytes bs / 2 ^ (8 * k) = natOfBytes (bs.drop k)
  | 0, bs => by rw [Nat.mul_zero, Nat.pow_zero, Nat.div_one, List.drop_zero]
  | k + 1, [] => by rw [List.drop_nil, natOfBytes, Nat.zero_div]
  | k + 1, b :: bs => by
    have ih := natOfBytes_div k bs
    have hb : b.toNat < 256 := b.isLt
    have high : (b.toNat + 256 * natOfBytes bs) / 256 = natOfBytes bs := by omega
    rw [List.drop_succ_cons, natOfBytes_cons, ← ih, pow_succ_bytes, ← Nat.div_div_eq_div_mul, high]

theorem toNat_wordOfBytes {bs : List Byte} (h : bs.length ≤ 8) : (wordOfBytes bs).toNat = natOfBytes bs := by
  rw [wordOfBytes, BitVec.toNat_ofNat, show (64 : Nat) = 8 * 8 from rfl, natOfBytes_mod, List.take_of_length_le h]

theorem dWord_wordsOf {n i : Nat} (hi : i < n) (bs : List Byte) : dWord (wordsOf n bs) i = wordOfBytes ((bs.drop (8 * i)).take 8) := by
  rw [dWord, wordsOf, List.getD_eq_getElem?_getD, List.getElem?_map, List.getElem?_range hi]
  rfl

/-- A field of whole bytes in a record of words. -/
theorem dField_wordsOf {n i : Nat} (hi : i < n) (bs : List Byte) (a k : Nat) :
    dField (wordsOf n bs) i (8 * a) (8 * k) = natOfBytes ((((bs.drop (8 * i)).take 8).drop a).take k) := by
  rw [dField, dWord_wordsOf hi, toNat_field, toNat_wordOfBytes (List.length_take_le ..), natOfBytes_div, natOfBytes_mod]

end Bytes

section HostRings

variable {s : State} {fn : Nat} {f : Fn}

theorem fn_modFn {g : Fn → Fn} (h : s.fn fn = some f) (hg : ∀ f : Fn, f.n = fn → (g f).n = fn) : (s.modFn fn g).fn fn = some (g f) :=
  (find?_map_keyed s.fns Fn.n fn g hg).trans (congrArg (Option.map g) h)

theorem fn_n (h : s.fn fn = some f) : f.n = fn := by simpa using List.find?_some h

theorem sqOf_setSq {q : Nat} {r r' : Ring} (h : f.sqOf q = some r) (hq : r'.q = q) : (f.setSq r').sqOf q = some r' := by
  subst hq
  have kept : ((f.sqs.map (fun x => if x.q == r'.q then r' else x)).find? (fun x => x.q == r'.q)) =
      (f.sqs.find? (fun x => x.q == r'.q)).map (fun _ => r') :=
    find?_map_keyed f.sqs Ring.q r'.q (fun _ => r') (fun _ _ => rfl)
  exact kept.trans (congrArg (Option.map _) h)

theorem cqOf_setCq {q : Nat} {r r' : Ring} (h : f.cqOf q = some r) (hq : r'.q = q) : (f.setCq r').cqOf q = some r' := by
  subst hq
  have kept : ((f.cqs.map (fun x => if x.q == r'.q then r' else x)).find? (fun x => x.q == r'.q)) =
      (f.cqs.find? (fun x => x.q == r'.q)).map (fun _ => r') :=
    find?_map_keyed f.cqs Ring.q r'.q (fun _ => r') (fun _ _ => rfl)
  exact kept.trans (congrArg (Option.map _) h)

theorem sqOf_q {q : Nat} {r : Ring} (h : f.sqOf q = some r) : r.q = q := by simpa using List.find?_some h

theorem cqOf_q {q : Nat} {r : Ring} (h : f.cqOf q = some r) : r.q = q := by simpa using List.find?_some h

/-- A ring's state settled; nothing else of it changes. -/
theorem settle_eq {r : Ring} (h : r.st ≠ 2) : r.settle = { r with st := if r.out = 0 then 0 else 1 } := by
  rw [Ring.settle, if_neg (by simpa using h)]
  simp only [beq_iff_eq]

theorem settle_st {r : Ring} (h : r.st ≠ 2) : r.settle.st ≠ 2 := by
  rw [settle_eq h]
  dsimp only
  split <;> decide

theorem settle_frame (r : Ring) : r.settle.q = r.q ∧ r.settle.tail = r.tail ∧ r.settle.head = r.head ∧ r.settle.base = r.base ∧
    r.settle.n = r.n ∧ r.settle.phase = r.phase := by
  unfold Ring.settle
  split <;> exact ⟨rfl, rfl, rfl, rfl, rfl, rfl⟩

/-- What an event on a function answers. -/
def Serves (s : State) (fn : Nat) (e : Instr) (p : Fn → Prop) : Prop :=
  ∃ t g, exec e s = .next t ∧ t.fn fn = some g ∧ p g ∧ t.mem = s.mem ∧ t.core = s.core

theorem serves_modFn {e : Instr} {p : Fn → Prop} {g : Fn → Fn} (h : s.fn fn = some f) (he : exec e s = .next (s.modFn fn g))
    (hg : ∀ f : Fn, f.n = fn → (g f).n = fn) (hp : p (g f)) : Serves s fn e p := ⟨_, g f, he, fn_modFn h hg, hp, rfl, rfl⟩

variable {q : Nat} {r : Ring} {v : BitVec 32}

/-- TAIL written to a submission queue. -/
def tailOf (q v : Nat) (f : Fn) : Fn :=
  match f.sqOf q with
  | none => f
  | some r => f.setSq (r.tailWrite v)

theorem tailOf_n (q v : Nat) (f : Fn) : (tailOf q v f).n = f.n := by
  unfold tailOf
  split <;> rfl

theorem serves_sqTail {p : Fn → Prop} (h : s.fn fn = some f) (hq : f.sqOf q = some r) (hp : p (f.setSq (r.tailWrite v.toNat))) :
    Serves s fn (.sqTail fn q v) p := by
  refine serves_modFn h (g := tailOf q v.toNat) rfl (fun f hf => (tailOf_n ..).trans hf) ?_
  rw [tailOf, hq]
  exact hp

theorem tailWrite_moves (hs : r.st ≠ 2) (hv : v.toNat < r.size) (ho : r.out + (v.toNat + r.size - r.tail) % r.size < r.size) :
    r.tailWrite v.toNat = ({ r with tail := v.toNat } : Ring).settle := by
  rw [Ring.tailWrite, if_neg (by simpa using hs), if_neg (by simp; omega)]

theorem tailWrite_errs (hs : r.st ≠ 2) (h : r.size ≤ v.toNat ∨ r.size ≤ r.out + (v.toNat + r.size - r.tail) % r.size) :
    r.tailWrite v.toNat = { r with st := 2, head := r.tail } := by
  rw [Ring.tailWrite, if_neg (by simpa using hs), if_pos (by simpa using h)]

theorem headWrite_moves (hs : r.st ≠ 2) (hv : v.toNat < r.size) (ho : (v.toNat + r.size - r.head) % r.size ≤ r.out) :
    r.headWrite v.toNat = ({ r with head := v.toNat } : Ring).settle := by
  rw [Ring.headWrite, if_neg (by simpa using hs), if_neg (by simp; omega)]

theorem headWrite_errs (hs : r.st ≠ 2) (h : r.size ≤ v.toNat ∨ r.out < (v.toNat + r.size - r.head) % r.size) :
    r.headWrite v.toNat = { r with st := 2, head := r.tail } := by
  rw [Ring.headWrite, if_neg (by simpa using hs), if_pos (by simpa using h)]

/-- The submission a record is. -/
def recordSubmit (fn : Nat) (r : Ring) (bs : List Byte) : Submit :=
  { kind := dField (wordsOf 8 bs) 0 0 8, asid := r.owner, queue := r.hw, addr := dField (wordsOf 8 bs) 1 0 56, desc := none, notify := none,
    issuer := none, answer := none, also := [], host := some (fn, r.cq, field (dWord (wordsOf 8 bs) 0) 32 32) }

theorem execSubmissionRecord_reads (h : s.fn fn = some f) (hq : f.sqOf q = some r) (hs : r.st ≠ 2) (ho : r.out ≠ 0) : ∃ t,
    execSubmissionRecord fn q s = .next t ∧ t.fn fn = some (f.setSq ({ r with head := (r.head + 1) % r.size } : Ring).settle) ∧
    t.disp.submits = s.disp.submits ++ [recordSubmit fn r (f.mem.read (r.base + 64 * r.head) 64)] ∧ t.mem = s.mem := by
  have there : (s.fn fn).bind (fun f => (f.sqOf q).map (fun r => (f, r))) = some (f, r) := by rw [h, Option.bind_some, hq, Option.map_some]
  rw [execSubmissionRecord]
  simp only [there]
  refine ⟨_, if_neg (by simp [hs, ho]), ?_, rfl, rfl⟩
  exact fn_modFn (g := fun f => f.setSq ({ r with head := (r.head + 1) % r.size } : Ring).settle) h (fun _ h => h)

theorem recordSubmit_fields {bs : List Byte} (hl : bs.length = 64) :
    (recordSubmit fn r bs).kind = (bs.getD 0 0).toNat ∧ (recordSubmit fn r bs).addr = natOfBytes ((bs.drop 8).take 7) ∧
    (recordSubmit fn r bs).host = some (fn, r.cq, BitVec.ofNat 32 (natOfBytes ((bs.drop 4).take 4))) := by
  refine ⟨?_, ?_, ?_⟩
  · refine (dField_wordsOf (i := 0) (by decide) bs 0 1).trans ?_
    obtain ⟨b, bs, rfl⟩ := List.exists_cons_of_length_pos (by omega : 0 < bs.length)
    simp [natOfBytes]
  · refine (dField_wordsOf (i := 1) (by decide) bs 0 7).trans (congrArg natOfBytes ?_)
    rw [List.drop_zero, List.take_take]
    rfl
  · refine congrArg (fun x : BitVec 32 => some (fn, r.cq, x)) (BitVec.eq_of_toNat_eq ?_)
    rw [BitVec.toNat_ofNat, show (32 : Nat) = 8 * 4 from rfl, natOfBytes_mod, List.take_take]
    refine (dField_wordsOf (i := 0) (by decide) bs 4 4).trans (congrArg natOfBytes ?_)
    rw [Nat.mul_zero, List.drop_zero, List.drop_take, List.take_take]

/-! Completions (R391). -/

/-- HEAD written to a completion queue. -/
def headOf (q v : Nat) (f : Fn) : Fn :=
  match f.cqOf q with
  | none => f
  | some r => (f.setCq (r.headWrite v)).deliver

theorem sendComps_n : ∀ (l : List CompOut) (f : Fn), (f.sendComps l).n = f.n
  | [], _ => rfl
  | c :: cs, f => by
    rw [Fn.sendComps]
    split
    · exact sendComps_n cs f
    · split
      · exact sendComps_n cs f
      · exact sendComps_n cs _

theorem sendFaults_n : ∀ (l : List FaultOut) (f : Fn), (f.sendFaults l).n = f.n
  | [], _ => rfl
  | c :: cs, f => by
    rw [Fn.sendFaults]
    split
    · rfl
    · split
      · rfl
      · exact sendFaults_n cs _

theorem deliver_n (f : Fn) : f.deliver.n = f.n := (sendFaults_n ..).trans (sendComps_n ..)

theorem headOf_n (q v : Nat) (f : Fn) : (headOf q v f).n = f.n := by
  unfold headOf
  split
  · rfl
  · exact deliver_n _

theorem serves_cqHead {p : Fn → Prop} (h : s.fn fn = some f) (hq : f.cqOf q = some r) (hp : p (f.setCq (r.headWrite v.toNat)).deliver) :
    Serves s fn (.cqHead fn q v) p := by
  refine serves_modFn h (g := headOf q v.toNat) rfl (fun f hf => (headOf_n ..).trans hf) ?_
  rw [headOf, hq]
  exact hp

/-- With nothing waiting, nothing is delivered. -/
theorem deliver_nothing (hc : f.comps = []) (hf : f.faults = []) : f.deliver = f := by
  rw [Fn.deliver, hc, Fn.sendComps, ← hc]
  dsimp only
  rw [hf, Fn.sendFaults, ← hf]

/-- One completion that waits, its ring with room. -/
theorem deliver_one {c : CompOut} (hc : f.comps = [c]) (hf : f.faults = []) (hq : f.cqOf c.cq = some r) (hr : r.full = false) (hs : r.st ≠ 2) :
    f.deliver = { f with comps := [], mem := (r.push f.mem c.words).2, cqs := (f.setCq (r.push f.mem c.words).1).cqs } := by
  have there : ({ f with comps := [] } : Fn).cqOf c.cq = some r := hq
  have room : (r.full || r.st == 2) = false := by simp [hr, hs]
  rw [Fn.deliver, hc, Fn.sendComps, there]
  dsimp only
  rw [room, if_neg Bool.false_ne_true, Fn.sendComps]
  simp only [Fn.setCq, hf, Fn.sendFaults]

/-- A record's first word with its phase. -/
def phased (b : Bool) (w : Word) : Word := w ||| (if b then BitVec.ofNat 64 (2 ^ 63) else 0)

theorem phased_append (b : Bool) (x : BitVec 8) (y : BitVec 32) :
    phased b (0#24 ++ x ++ y : BitVec 64) = ((if b then 1#1 else 0#1) ++ 0#23 ++ x ++ y : BitVec 64) := by
  refine BitVec.eq_of_getLsbD_eq fun i hi => ?_
  have top : (BitVec.ofNat 64 (2 ^ 63)).getLsbD i = decide (i = 63) := by
    rw [show BitVec.ofNat 64 (2 ^ 63) = BitVec.twoPow 64 63 from rfl, BitVec.getLsbD_twoPow]
    simp [eq_comm]
  rw [phased, BitVec.getLsbD_or]
  cases b
  · simp
  · rw [if_pos rfl, if_pos rfl, top]
    simp only [BitVec.getLsbD_append, BitVec.getLsbD_zero]
    by_cases h63 : i = 63
    · subst h63
      rfl
    · have one : (1#1).getLsbD (i - 32 - 8 - 23) = decide (i - 32 - 8 - 23 = 0) := by
        rw [BitVec.getLsbD_one]
        simp
      rw [one]
      simp only [h63, decide_false, Bool.or_false]
      split_ifs <;> simp_all
      omega

theorem push_mem (m : Memory) (ws : List Word) : (r.push m ws).2 =
    m.write (r.base + r.tail * (8 * ws.length)) ((phased r.phase (ws.headD 0) :: ws.drop 1).flatMap (fun w => bytesOf w 8)) := by
  unfold Ring.push phased
  rfl

theorem push_completion (m : Memory) (c : CompOut) : (r.push m c.words).2 = m.write (r.base + 32 * r.tail)
    ([(if r.phase then 1#1 else 0#1) ++ 0#23 ++ BitVec.ofNat 8 c.status ++ c.tag, BitVec.ofNat 32 c.shape ++ BitVec.ofNat 32 c.id,
      0#64, 0#64].flatMap (fun w => bytesOf w 8)) := by
  have word : phased r.phase (c.words.headD 0) = _ := phased_append r.phase (BitVec.ofNat 8 c.status) c.tag
  have place : r.base + r.tail * (8 * c.words.length) = r.base + 32 * r.tail := by
    rw [show c.words.length = 4 from rfl]
    omega
  rw [push_mem, word, place]
  rfl

theorem push_tail (m : Memory) (ws : List Word) (h : r.tail < r.size) : (r.push m ws).1.tail = (r.tail + 1) % r.size ∧ (r.push m ws).1.q = r.q := by
  unfold Ring.push
  dsimp only
  split
  · next he =>
    refine ⟨(settle_frame _).2.1.trans ?_, (settle_frame _).1⟩
    rw [beq_iff_eq.mp he, Nat.mod_self]
  · next hne =>
    have hne : r.tail + 1 ≠ r.size := by simpa using hne
    refine ⟨(settle_frame _).2.1.trans ?_, (settle_frame _).1⟩
    rw [Nat.mod_eq_of_lt (by omega)]

/-- HEAD written to the fault queue. -/
def faultHeadOf (v : Nat) (f : Fn) : Fn :=
  match f.fq with
  | none => f
  | some r => ({ f with fq := some (r.headWrite v) } : Fn).deliver

theorem faultHeadOf_n (v : Nat) (f : Fn) : (faultHeadOf v f).n = f.n := by
  unfold faultHeadOf
  split
  · rfl
  · exact deliver_n _

theorem serves_fqHead {p : Fn → Prop} (h : s.fn fn = some f) (hq : f.fq = some r)
    (hp : p ({ f with fq := some (r.headWrite v.toNat) } : Fn).deliver) : Serves s fn (.fqHead fn v) p := by
  refine serves_modFn h (g := faultHeadOf v.toNat) rfl (fun f hf => (faultHeadOf_n ..).trans hf) ?_
  rw [faultHeadOf, hq]
  exact hp

/-! Replies (R392). -/

theorem lookup_map {α : Type} (l : List (Nat × α)) (g : α → α) (k : Nat) : lookup (l.map (fun e => (e.1, g e.2))) k = (lookup l k).map g := by
  rw [lookup, lookup, List.find?_map, Option.map_map, Option.map_map]
  rfl

/-- Every core changed reads as changed, where one that no list holds stays at reset. -/
theorem coreOf_mapAllCores {g : Core → Core} (hid : ∀ c, (g c).id = c.id) {m : Nat} (hg : g (Core.reset m) = Core.reset m) :
    (s.mapAllCores g).coreOf m = g (s.coreOf m) := by
  rw [State.coreOf, State.coreOf, State.mapAllCores]
  dsimp only
  rw [hid, lookup_map]
  split
  · rfl
  · cases lookup s.others m with
    | none => exact hg.symm
    | some c => rfl

theorem resumed_reset (n page m : Nat) : (Core.reset m).resumed n page = Core.reset m := by
  have eng : (Core.reset m).eng.map (fun q => { q with ents := q.ents.map (fun e => if e.held == some n then { e with held := none } else e) }) =
      (Core.reset m).eng := Vector.map_replicate ..
  unfold Core.resumed
  dsimp only
  rw [eng]
  exact if_neg Bool.false_ne_true

theorem resumed_ctl (n page : Nat) (c : Core) : (c.resumed n page).id = c.id ∧ (c.resumed n page).ctl.after = c.ctl.after ∧
    (c.resumed n page).ctl.parked = if c.ctl.parked = some n then none else c.ctl.parked := by
  unfold Core.resumed
  dsimp only
  by_cases h : c.ctl.parked = some n
  · rw [if_pos (beq_iff_eq.mpr h), if_pos h]
    exact ⟨rfl, rfl, rfl⟩
  · rw [if_neg (mt beq_iff_eq.mp h), if_neg h]
    exact ⟨rfl, rfl, rfl⟩

theorem replyEnd_ends {z : FaultReq} {n : Nat} {x : FaultRec} (hz : z.fault = some (n, x)) (c : Core) : (c.replyEnd z).id = c.id ∧
    (c.ctl.parked = some z.num → (c.replyEnd z).ctl.parked = none ∧ (c.replyEnd z).ctl.after = some (.ending .fault) ∧
      (c.replyEnd z).sys.faultVa = x.va) := by
  unfold Core.replyEnd
  simp only [hz]
  split
  · exact ⟨rfl, fun _ => ⟨rfl, rfl, rfl⟩⟩
  · next h => exact ⟨rfl, fun hp => absurd (beq_iff_eq.mpr hp) h⟩

theorem replyEnd_reset {z : FaultReq} {n : Nat} {x : FaultRec} (hz : z.fault = some (n, x)) (m : Nat) :
    (Core.reset m).replyEnd z = Core.reset m := by
  have eng : (Core.reset m).eng.map (fun k => if k.ents.any (fun e => e.held == some z.num) then
      { k with ents := k.ents.filter (fun e => e.held != some z.num), faulted := some x } else k) = (Core.reset m).eng := Vector.map_replicate ..
  unfold Core.replyEnd
  simp only [hz]
  rw [eng]
  exact if_neg Bool.false_ne_true

/-- A request that is over. -/
def withoutRequest (s : State) (n : Nat) : State := { s with disp := { s.disp with reqs := s.disp.reqs.filter (·.num != n) } }

theorem num_withoutRequest (n : Nat) : ∀ y ∈ (withoutRequest s n).disp.reqs, y.num ≠ n := fun y hy => by
  simpa using (List.mem_filter.mp hy).2

theorem execFaultReplyResume_resumes {req : BitVec 24} {z : FaultReq} (hp : s.pagingOf fn req.toNat = some z)
    (hz : s.disp.reqs.find? (·.num == z.num) = some z) :
    execFaultReplyResume fn req s = .next (withoutRequest (s.mapAllCores (Core.resumed z.num z.page)) z.num) := by
  rw [execFaultReplyResume, hp, Option.map_some, Option.getD_some, State.resumeRequest, hz]
  rfl

theorem execFaultReplyEnd_ends {req : BitVec 24} {z : FaultReq} (hp : s.pagingOf fn req.toNat = some z) :
    execFaultReplyEnd fn req s = .next (withoutRequest ((s.dropHeld z.num).mapAllCores (Core.replyEnd z)) z.num) := by
  rw [execFaultReplyEnd, hp]
  rfl

theorem closeRegions_frame (l : List (Nat × Nat × Nat)) : ∀ s : State,
    (l.foldl (fun s e => if e.2.2 == 0 then s else s.closeRegion e.2.2) s).core = s.core ∧
    (l.foldl (fun s e => if e.2.2 == 0 then s else s.closeRegion e.2.2) s).others = s.others ∧
    (l.foldl (fun s e => if e.2.2 == 0 then s else s.closeRegion e.2.2) s).mem = s.mem := by
  induction l with
  | nil => exact fun _ => ⟨rfl, rfl, rfl⟩
  | cons e l ih =>
    intro s
    rw [List.foldl_cons]
    obtain ⟨hc, ho, hm⟩ := ih (if e.2.2 == 0 then s else s.closeRegion e.2.2)
    rw [hc, ho, hm]
    split <;> exact ⟨rfl, rfl, rfl⟩

theorem dropHeld_frame (s : State) (n : Nat) : (∀ m, (s.dropHeld n).coreOf m = s.coreOf m) ∧ (s.dropHeld n).mem = s.mem := by
  obtain ⟨hc, ho, hm⟩ := closeRegions_frame (s.heldQueues n) s
  have hc : (s.dropHeld n).core = s.core := hc
  have ho : (s.dropHeld n).others = s.others := ho
  refine ⟨fun m => ?_, hm⟩
  rw [State.coreOf, hc, ho]
  rfl

/-! Accesses (R398). -/

theorem hostRuns_inside {c : Ctx} {a va n : Nat} {need : Need} {rs : List (Nat × Nat)} (h : s.fn fn = some f)
    (hc : s.ctx a = some c) (hf : c.fn = fn) (hi : f.tdisp = .run ∨ c.bounceBase ≤ va ∧ va + n ≤ c.bounceBase + c.bounceSize)
    (hs : s.span a va n need = .ok rs) :
    s.hostRuns fn a va n need = some rs := by
  have reaches : c.hostReaches (f.tdisp == .run) va n = true := by
    rw [Ctx.hostReaches]
    simpa using hi
  rw [State.hostRuns]
  simp only [h, hc, hs]
  exact if_pos (by simp [hf, reaches])

theorem hostRuns_outside {c : Ctx} {a va n : Nat} {need : Need} (h : s.fn fn = some f) (hc : s.ctx a = some c)
    (hi : ¬(f.tdisp = .run ∨ c.bounceBase ≤ va ∧ va + n ≤ c.bounceBase + c.bounceSize)) : s.hostRuns fn a va n need = none := by
  have reaches : c.hostReaches (f.tdisp == .run) va n = false := by
    rw [Ctx.hostReaches, Bool.eq_false_iff]
    simpa using hi
  rw [State.hostRuns]
  simp only [h, hc]
  exact if_neg (by simp [reaches])

theorem execHostMemoryAccess_writes {a : Nat} {va : Word} {bs : List Byte} {rs : List (Nat × Nat)} (ha : a ≠ 0)
    (h : s.hostRuns fn a va.toNat bs.length .write = some rs) :
    execHostMemoryAccess fn a va true bs s = .next (s.storeRuns a va.toNat (layRuns rs bs)) := by
  rw [execHostMemoryAccess]
  simp only [beq_false_of_ne ha, h, Bool.false_eq_true, if_false, if_true]

theorem execHostMemoryAccess_drops {a : Nat} {va : Word} {bs : List Byte} (ha : a ≠ 0)
    (h : s.hostRuns fn a va.toNat bs.length .write = none) :
    execHostMemoryAccess fn a va true bs s = .next (s.modFn fn (fun f => { f with dropped := f.dropped + 1 })) := by
  rw [execHostMemoryAccess]
  simp only [beq_false_of_ne ha, h, Bool.false_eq_true, if_false, if_true]

theorem execHostMemoryAccess_reads {a : Nat} {va : Word} {bs : List Byte} {rs : List (Nat × Nat)} (ha : a ≠ 0)
    (h : s.hostRuns fn a va.toNat bs.length .read = some rs) : execHostMemoryAccess fn a va false bs s =
      .next (s.modFn fn (fun f => { f with lastRead := rs.flatMap (fun r => (s.memAs (s.keyAt a va.toNat)).read r.1 r.2) })) := by
  rw [execHostMemoryAccess]
  simp only [beq_false_of_ne ha, h, Bool.false_eq_true, if_false]

theorem execHostMemoryAccess_ones {a : Nat} {va : Word} {bs : List Byte} (ha : a ≠ 0) (h : s.hostRuns fn a va.toNat bs.length .read = none) :
    execHostMemoryAccess fn a va false bs s = .next (s.modFn fn (fun f => { f with lastRead := List.replicate bs.length 0xFF })) := by
  rw [execHostMemoryAccess]
  simp only [beq_false_of_ne ha, h, Bool.false_eq_true, if_false]

theorem storeRuns_one (a va pa : Nat) (bs : List Byte) : s.storeRuns a va (layRuns [(pa, bs.length)] bs) = s.storeAt a va pa bs := by
  rw [layRuns, layRuns, List.take_length, State.storeRuns]
  rfl

end HostRings

/-- Settles O45: the rings' doorbells and records, the replies to a request, the host's accesses. -/
theorem hostEvents : Obligations.HostEvents := by
  unfold Obligations.HostEvents
  intro fn q s f h ans
  refine ⟨?_, ?_, ?_, ?_, ?_, ?_⟩
  · intro r v hq hs size held new
    have rq := sqOf_q hq
    refine ⟨fun hv ho => ?_, fun hbad => ?_, ?_⟩
    · refine serves_sqTail h hq ⟨_, sqOf_setSq hq ?_, ?_⟩
      · rw [tailWrite_moves hs hv ho]
        exact (settle_frame _).1.trans rq
      · rw [tailWrite_moves hs hv ho]
        exact ⟨(settle_frame _).2.1, (settle_frame _).2.2.1, congrArg Ring.st (settle_eq (r := { r with tail := v.toNat }) hs)⟩
    · refine serves_sqTail h hq ⟨_, sqOf_setSq hq ?_, ?_⟩
      · rw [tailWrite_errs hs hbad]
        exact rq
      · rw [tailWrite_errs hs hbad]
        exact ⟨rfl, rfl⟩
    · intro hheld bs
      obtain ⟨t, run, hfn, hsub, hmem⟩ := execSubmissionRecord_reads h hq hs hheld
      obtain ⟨hkind, haddr, hhost⟩ := recordSubmit_fields (fn := fn) (r := r) (length_read f.mem (r.base + 64 * r.head) 64)
      exact ⟨t, _, _, _, run, hfn, sqOf_setSq hq ((settle_frame _).1.trans rq), (settle_frame _).2.2.1, (settle_frame _).2.1, hsub, hkind, haddr,
        rfl, rfl, hhost, hmem⟩
  · intro r v hq hs hfaults size held read
    have rq := cqOf_q hq
    refine ⟨fun hv ho hc => ?_, fun hbad hc => ?_, fun c hv ho hc hcq htail hroom => ?_⟩
    · refine serves_cqHead h hq ?_
      rw [deliver_nothing (f := f.setCq _) hc hfaults, headWrite_moves hs hv ho]
      exact ⟨_, cqOf_setCq hq ((settle_frame _).1.trans rq), (settle_frame _).2.2.1, (settle_frame _).2.1, rfl⟩
    · refine serves_cqHead h hq ?_
      rw [deliver_nothing (f := f.setCq _) hc hfaults, headWrite_errs hs hbad]
      exact ⟨_, cqOf_setCq hq rq, rfl, rfl⟩
    · refine serves_cqHead h hq ?_
      have moved := headWrite_moves (v := v) hs hv ho
      obtain ⟨fq, ftail, fhead, fbase, fn', fphase⟩ := settle_frame { r with head := v.toNat }
      have there : (f.setCq (r.headWrite v.toNat)).cqOf q = some ({ r with head := v.toNat } : Ring).settle := by
        rw [moved]
        exact cqOf_setCq hq (fq.trans rq)
      have open_ : ({ r with head := v.toNat } : Ring).settle.full = false := by
        rw [Ring.full, Ring.out, Ring.size, ftail, fhead, fn']
        exact decide_eq_false (Nat.not_le.mpr hroom)
      have tail := push_tail (r := ({ r with head := v.toNat } : Ring).settle) (f.setCq (r.headWrite v.toNat)).mem c.words
        (by rw [ftail, Ring.size, fn']; exact htail)
      have written := push_completion (r := ({ r with head := v.toNat } : Ring).settle) (f.setCq (r.headWrite v.toNat)).mem c
      rw [fbase, ftail, fphase] at written
      rw [deliver_one (f := f.setCq _) hc hfaults (hcq ▸ there) open_ (settle_st hs)]
      refine ⟨rfl, written, _, cqOf_setCq there (tail.2.trans (fq.trans rq)), tail.1.trans ?_⟩
      rw [ftail, Ring.size, fn']
  · intro r v hq hs hc hfaults size hv ho
    refine serves_fqHead h hq ?_
    rw [deliver_nothing (f := { f with fq := some (r.headWrite v.toNat) }) hc hfaults, headWrite_moves hs hv ho]
    exact ⟨_, rfl, (settle_frame _).2.2.1, (settle_frame _).2.1⟩
  · intro req z n r hp hz hfind
    have gone (t : State) (k m : Nat) : (withoutRequest t k).coreOf m = t.coreOf m := rfl
    refine ⟨⟨_, execFaultReplyResume_resumes hp hfind, rfl, num_withoutRequest _, fun m => ?_⟩,
      _, execFaultReplyEnd_ends hp, (dropHeld_frame s z.num).2, num_withoutRequest _, fun m hm => ?_⟩
    · have core := coreOf_mapAllCores (s := s) (fun c => (resumed_ctl z.num z.page c).1) (resumed_reset z.num z.page m)
      obtain ⟨-, hafter, hparked⟩ := resumed_ctl z.num z.page (s.coreOf m)
      rw [gone, core]
      exact ⟨hparked, hafter⟩
    · have core := coreOf_mapAllCores (s := s.dropHeld z.num) (fun c => (replyEnd_ends hz c).1) (replyEnd_reset hz m)
      rw [gone, core, (dropHeld_frame s z.num).1]
      exact (replyEnd_ends hz _).2 hm
  · intro req hp
    refine ⟨?_, ?_⟩
    · change execFaultReplyResume fn req s = _
      rw [execFaultReplyResume, hp]
      rfl
    · change execFaultReplyEnd fn req s = _
      rw [execFaultReplyEnd, hp]
  · intro a va bs read write
    refine ⟨fun ha => ?_, fun c ha hc hfn => ?_⟩
    · subst ha
      refine ⟨serves_modFn h (g := (·.ownAccess va.toNat true bs)) rfl (fun _ h => h) ⟨rfl, fun x => ?_⟩,
        serves_modFn h (g := (·.ownAccess va.toNat false bs)) rfl (fun _ h => h) ⟨rfl, rfl⟩⟩
      exact List.mem_filter.trans (by simp)
    · refine ⟨fun pa hi hs => ?_, fun pa hi hs => ?_, fun ho => ⟨?_, ?_⟩⟩
      · refine ⟨_, (execHostMemoryAccess_writes ha (hostRuns_inside h hc hfn hi hs)).trans (congrArg _ (storeRuns_one ..)), rfl, storeAt_core ..⟩
      · refine serves_modFn h (execHostMemoryAccess_reads ha (hostRuns_inside h hc hfn hi hs)) (fun _ h => h) ?_
        simp
      · exact serves_modFn h (execHostMemoryAccess_drops ha (hostRuns_outside h hc ho)) (fun _ h => h) rfl
      · exact serves_modFn h (execHostMemoryAccess_ones ha (hostRuns_outside h hc ho)) (fun _ h => h) rfl

end Sys2Proof.Proofs

namespace Sys2Proof.Proofs

open Sys2Proof Sys2Proof.Machine Sys2Proof.Laws

/-! ## The mailbox (R441) -/

section Mailbox

variable {s t : State} {fn : Nat} {f g : Fn} {addr : Word} {code : Nat} {fs : List (Nat × Nat × Nat)}
  {k : Fn → List Word → State → State × Nat}

theorem mailbox_idle (h : s.fn fn = some f) (hb : f.busy = none) :
    mailbox code fn addr fs k s = .next (s.modFn fn (fun f => { f with busy := some addr })) := by
  rw [mailbox]
  simp only [h, hb]

/-- What the mailbox does with the word it is busy with. -/
theorem mailbox_busy {a : Word} (h : s.fn fn = some f) (hb : f.busy = some a) : mailbox code fn addr fs k s =
    if a != addr then .next s
    else if !(cmdAddrOk addr) then .next (s.mailboxDone fn mbInvalid)
    else if !(f.readable addr.toNat 64) then .next (s.mailboxDone fn mbFault)
    else if dField (f.cmdRecord addr) 0 0 8 != code && mbCodes.contains (dField (f.cmdRecord addr) 0 0 8) then .next s
    else if dField (f.cmdRecord addr) 0 0 8 != code || !(onlyFields (f.cmdRecord addr) fs) then .next (s.mailboxDone fn mbInvalid)
    else .next ((k f (f.cmdRecord addr) s).1.mailboxDone fn (k f (f.cmdRecord addr) s).2) := by
  rw [mailbox]
  simp only [h, hb]

theorem mailbox_other {a : Word} (h : s.fn fn = some f) (hb : f.busy = some a) (ha : a ≠ addr) : mailbox code fn addr fs k s = .next s :=
  (mailbox_busy h hb).trans (if_pos (bne_iff_ne.mpr ha))

theorem mailbox_own (h : s.fn fn = some f) (hb : f.busy = some addr) : mailbox code fn addr fs k s =
    if !(cmdAddrOk addr) then .next (s.mailboxDone fn mbInvalid)
    else if !(f.readable addr.toNat 64) then .next (s.mailboxDone fn mbFault)
    else if dField (f.cmdRecord addr) 0 0 8 != code && mbCodes.contains (dField (f.cmdRecord addr) 0 0 8) then .next s
    else if dField (f.cmdRecord addr) 0 0 8 != code || !(onlyFields (f.cmdRecord addr) fs) then .next (s.mailboxDone fn mbInvalid)
    else .next ((k f (f.cmdRecord addr) s).1.mailboxDone fn (k f (f.cmdRecord addr) s).2) :=
  (mailbox_busy h hb).trans (if_neg (by simp))

theorem cmdAddrOk_iff : cmdAddrOk addr = true ↔ addr.toNat % 64 = 0 ∧ addr.toNat < 2 ^ 56 := by
  have := addr.isLt
  rw [cmdAddrOk, Bool.and_eq_true, beq_iff_eq, beq_iff_eq, ← BitVec.toNat_inj, ← BitVec.toNat_inj, toNat_field, toNat_field]
  change addr.toNat / 2 ^ 0 % 2 ^ 6 = 0 ∧ addr.toNat / 2 ^ 56 % 2 ^ 8 = 0 ↔ _
  omega

/-- A record the mailbox can read at the word's address. -/
structure SoundRecord (f : Fn) (addr : Word) : Prop where
  placed : cmdAddrOk addr = true
  readable : f.readable addr.toNat 64 = true

theorem mailbox_sound (h : s.fn fn = some f) (hb : f.busy = some addr) (hs : SoundRecord f addr) : mailbox code fn addr fs k s =
    if dField (f.cmdRecord addr) 0 0 8 != code && mbCodes.contains (dField (f.cmdRecord addr) 0 0 8) then .next s
    else if dField (f.cmdRecord addr) 0 0 8 != code || !(onlyFields (f.cmdRecord addr) fs) then .next (s.mailboxDone fn mbInvalid)
    else .next ((k f (f.cmdRecord addr) s).1.mailboxDone fn (k f (f.cmdRecord addr) s).2) :=
  (mailbox_own h hb).trans ((if_neg (by simp [hs.placed])).trans (if_neg (by simp [hs.readable])))

theorem mailbox_performs (h : s.fn fn = some f) (hb : f.busy = some addr) (hs : SoundRecord f addr)
    (hc : dField (f.cmdRecord addr) 0 0 8 = code) (ho : onlyFields (f.cmdRecord addr) fs = true) :
    mailbox code fn addr fs k s = .next ((k f (f.cmdRecord addr) s).1.mailboxDone fn (k f (f.cmdRecord addr) s).2) := by
  rw [mailbox_sound h hb hs, if_neg (by simp [hc]), if_neg (by simp [hc, ho])]

/-- A command over: its status, its count, BUSY clear. -/
def closedFn (st : Nat) (f : Fn) : Fn := { f with status := BitVec.ofNat 8 st, done := f.done + 1, busy := none }

/-- How a command ends. -/
def Finishes (s : State) (fn : Nat) (f : Fn) (e : Instr) (status : BitVec 8) (p : State → Fn → Prop) : Prop :=
  ∃ t g, exec e s = .next t ∧ t.fn fn = some g ∧ g.status = status ∧ g.done = f.done + 1 ∧ g.busy = none ∧ p t g ∧ t.mem = s.mem

theorem finishes {e : Instr} {st : Nat} {status : BitVec 8} {p : State → Fn → Prop} (run : exec e s = .next (t.mailboxDone fn st))
    (hg : t.fn fn = some g) (hd : g.done = f.done) (hm : t.mem = s.mem) (hs : BitVec.ofNat 8 st = status)
    (hp : p (t.mailboxDone fn st) (closedFn st g)) : Finishes s fn f e status p :=
  ⟨_, closedFn st g, run, fn_modFn (g := closedFn st) hg (fun _ h => h), hs, congrArg (· + 1) hd, rfl, hp, hm⟩

/-! Rings configured. -/

theorem find?_setRing (rs : List Ring) (q : Nat) {r : Ring} (h : r.q = q) : (setRing rs q (some r)).find? (fun x => x.q == q) = some r := by
  have gone : (rs.filter (·.q != q)).find? (fun x => x.q == q) = none := List.find?_eq_none.mpr fun x hx => by
    have := (List.mem_filter.mp hx).2
    simpa using this
  rw [setRing, List.find?_append, gone, Option.none_or]
  simp [h]

theorem sendFaults_frame : ∀ (l : List FaultOut) (f : Fn), (f.sendFaults l).cqs = f.cqs ∧ (f.sendFaults l).done = f.done
  | [], _ => ⟨rfl, rfl⟩
  | c :: cs, f => by
    rw [Fn.sendFaults]
    split
    · exact ⟨rfl, rfl⟩
    · split
      · exact ⟨rfl, rfl⟩
      · exact sendFaults_frame cs _

/-- With no completion waiting, a delivery leaves the completion queues. -/
theorem deliver_noComps (h : f.comps = []) : f.deliver.cqs = f.cqs ∧ f.deliver.done = f.done := by
  have none_sent : (Fn.sendComps { f with comps := [] } f.comps).cqs = f.cqs ∧ (Fn.sendComps { f with comps := [] } f.comps).done = f.done := by
    rw [h]
    exact ⟨rfl, rfl⟩
  obtain ⟨hc, hd⟩ := sendFaults_frame (Fn.sendComps { f with comps := [] } f.comps).faults (Fn.sendComps { f with comps := [] } f.comps)
  exact ⟨hc.trans none_sent.1, hd.trans none_sent.2⟩

theorem ringOk_of {n base bytes : Nat} (h6 : 6 ≤ n) (h16 : n ≤ 16) (hb : base % (bytes * 2 ^ n) = 0) : ringOk n base bytes = true := by
  simp [ringOk, h6, h16, hb]

end Mailbox

/-! The commands on a sound record. -/

section Commands

variable {s : State} {fn : Nat} {f : Fn} {addr : Word}

/-- A sound command of a code, its record's other bits zero. -/
structure Commands (s : State) (fn : Nat) (f : Fn) (addr : Word) (code : Nat) (fs : List (Nat × Nat × Nat)) : Prop where
  fn : s.fn fn = some f
  busy : f.busy = some addr
  sound : SoundRecord f addr
  code : dField (f.cmdRecord addr) 0 0 8 = code
  fields : onlyFields (f.cmdRecord addr) fs = true

theorem Commands.performs {code : Nat} {fs : List (Nat × Nat × Nat)} (h : Commands s fn f addr code fs)
    (k : Fn → List Word → State → State × Nat) :
    mailbox code fn addr fs k s = .next ((k f (f.cmdRecord addr) s).1.mailboxDone fn (k f (f.cmdRecord addr) s).2) :=
  mailbox_performs h.fn h.busy h.sound h.code h.fields

/-- A command's answer, its effect computed. -/
theorem Commands.answers {code : Nat} {fs : List (Nat × Nat × Nat)} (h : Commands s fn f addr code fs)
    {k : Fn → List Word → State → State × Nat}
    {t : State} {st : Nat} (hk : k f (f.cmdRecord addr) s = (t, st)) : mailbox code fn addr fs k s = .next (t.mailboxDone fn st) := by
  rw [h.performs, hk]

abbrev sqFields : List (Nat × Nat × Nat) := [(1, 0, 6), (1, 16, 10), (1, 32, 3), (1, 40, 6), (1, 48, 16), (2, 0, 56), (3, 0, 5)]

theorem execSqConf_locked (h : Commands s fn f addr 1 sqFields) (hl : f.locked = true) : execSqConf fn addr s = .next (s.mailboxDone fn 4) := by
  refine h.answers ?_
  dsimp only
  rw [if_pos hl]
  rfl

theorem execSqConf_size (h : Commands s fn f addr 1 sqFields) (hl : f.locked = false) (hn : dField (f.cmdRecord addr) 3 0 5 ≠ 0)
    (hr : dField (f.cmdRecord addr) 3 0 5 < 6 ∨ 16 < dField (f.cmdRecord addr) 3 0 5) : execSqConf fn addr s = .next (s.mailboxDone fn 1) := by
  have bad : ringOk (dField (f.cmdRecord addr) 3 0 5) (dField (f.cmdRecord addr) 2 0 56) 64 = false := by
    rw [ringOk, Bool.eq_false_iff]
    simp only [ne_eq, Bool.or_eq_true, beq_iff_eq, Bool.and_eq_true, decide_eq_true_eq, hn, false_or]
    omega
  refine h.answers ?_
  dsimp only
  rw [if_neg (by rw [hl]; exact Bool.false_ne_true), if_pos (by rw [bad]; rfl)]
  rfl

/-- A submission queue bound to its hardware queue. -/
def sqBound (s : State) (fn : Nat) (w : List Word) : State :=
  ({ s with disp := { s.disp with hw := s.disp.hw.filter (fun h => !(h.fn == fn && h.sq == dField w 1 0 6)) ++
      [⟨dField w 1 16 10, dField w 1 48 16, dField w 1 32 3, fn, dField w 1 0 6, []⟩] } } : State).modFn fn (fun f => { f with
    sqs := setRing f.sqs (dField w 1 0 6) (some (Ring.empty (dField w 1 0 6) (dField w 2 0 56) (dField w 3 0 5) (dField w 1 40 6) (dField w 1 16 10)
      (dField w 1 48 16))) })

theorem execSqConf_binds {c : Ctx} (h : Commands s fn f addr 1 sqFields) (hl : f.locked = false) (h6 : 6 ≤ dField (f.cmdRecord addr) 3 0 5)
    (h16 : dField (f.cmdRecord addr) 3 0 5 ≤ 16) (hb : dField (f.cmdRecord addr) 2 0 56 % (64 * 2 ^ dField (f.cmdRecord addr) 3 0 5) = 0)
    (hc : s.ctx (dField (f.cmdRecord addr) 1 48 16) = some c) (hcf : c.fn = fn) (hq : f.sqOf (dField (f.cmdRecord addr) 1 0 6) = none)
    (hw : ∀ h ∈ s.disp.hw, h.n ≠ dField (f.cmdRecord addr) 1 16 10 ∧ ¬(h.fn = fn ∧ h.sq = dField (f.cmdRecord addr) 1 0 6)) :
    execSqConf fn addr s = .next ((sqBound s fn (f.cmdRecord addr)).mailboxDone fn 0) := by
  have nonzero : (dField (f.cmdRecord addr) 3 0 5 != 0) = true := bne_iff_ne.mpr (by omega)
  have zero : (dField (f.cmdRecord addr) 3 0 5 == 0) = false := beq_false_of_ne (by omega)
  have owner : s.fnOf (dField (f.cmdRecord addr) 1 48 16) = fn := by rw [State.fnOf, hc, Option.map_some, Option.getD_some, hcf]
  have held : s.disp.hw.any (fun h => (h.fn == fn && h.sq == dField (f.cmdRecord addr) 1 0 6) && !h.ents.isEmpty) = false :=
    List.any_eq_false.mpr fun x hx => by
      have := (hw x hx).2
      simp_all
  have taken : s.disp.hw.any (fun h => h.n == dField (f.cmdRecord addr) 1 16 10 &&
      !(h.fn == fn && h.sq == dField (f.cmdRecord addr) 1 0 6)) = false :=
    List.any_eq_false.mpr fun x hx => by
      have := (hw x hx).1
      simp_all
  refine h.answers ?_
  dsimp only
  rw [if_neg (by rw [hl]; exact Bool.false_ne_true), if_neg (by rw [ringOk_of h6 h16 hb]; exact Bool.false_ne_true),
    if_neg (by simp [hc]), if_neg (by simp [owner]), if_neg (by simp only [hq, held, taken]; simp)]
  simp only [zero]
  rfl

theorem hwq_sqBound (w : List Word) (hw : ∀ h ∈ s.disp.hw, h.n ≠ dField w 1 16 10 ∧ ¬(h.fn = fn ∧ h.sq = dField w 1 0 6)) :
    (sqBound s fn w).hwq (dField w 1 16 10) = some ⟨dField w 1 16 10, dField w 1 48 16, dField w 1 32 3, fn, dField w 1 0 6, []⟩ := by
  have gone : (s.disp.hw.filter (fun h => !(h.fn == fn && h.sq == dField w 1 0 6))).find? (fun h => h.n == dField w 1 16 10) = none :=
    List.find?_eq_none.mpr fun x hx => by simpa using (hw x (List.mem_of_mem_filter hx)).1
  change (s.disp.hw.filter (fun h : HwQueue => !(h.fn == fn && h.sq == dField w 1 0 6)) ++ [_]).find? (fun h : HwQueue =>
    h.n == dField w 1 16 10) = _
  rw [List.find?_append, gone, Option.none_or, List.find?_cons, beq_self_eq_true]

theorem execCqConf_sets (h : Commands s fn f addr 2 [(1, 0, 6), (2, 0, 56), (3, 0, 5)]) (hl : f.locked = false)
    (h6 : 6 ≤ dField (f.cmdRecord addr) 3 0 5) (h16 : dField (f.cmdRecord addr) 3 0 5 ≤ 16)
    (hb : dField (f.cmdRecord addr) 2 0 56 % (32 * 2 ^ dField (f.cmdRecord addr) 3 0 5) = 0)
    (hq : f.cqOf (dField (f.cmdRecord addr) 1 0 6) = none) : execCqConf fn addr s = .next ((s.modFn fn (fun f' => ({ f' with
      cqs := setRing f'.cqs (dField (f.cmdRecord addr) 1 0 6) (some (Ring.empty (dField (f.cmdRecord addr) 1 0 6) (dField (f.cmdRecord addr) 2 0 56)
        (dField (f.cmdRecord addr) 3 0 5) 0 0 0)) } : Fn).deliver)).mailboxDone fn 0) := by
  have zero : (dField (f.cmdRecord addr) 3 0 5 == 0) = false := beq_false_of_ne (by omega)
  refine h.answers ?_
  dsimp only
  rw [if_neg (by rw [hl]; exact Bool.false_ne_true), if_neg (by rw [ringOk_of h6 h16 hb]; exact Bool.false_ne_true), if_neg (by simp [hq])]
  simp only [zero]
  rfl

theorem execFqConf_sets (h : Commands s fn f addr 3 [(2, 0, 56), (3, 0, 5)]) (hl : f.locked = false)
    (h6 : 6 ≤ dField (f.cmdRecord addr) 3 0 5) (h16 : dField (f.cmdRecord addr) 3 0 5 ≤ 16)
    (hb : dField (f.cmdRecord addr) 2 0 56 % (64 * 2 ^ dField (f.cmdRecord addr) 3 0 5) = 0) (hq : f.fq = none) :
    execFqConf fn addr s = .next ((s.modFn fn (fun f' => ({ f' with fq := some (Ring.empty 64 (dField (f.cmdRecord addr) 2 0 56)
        (dField (f.cmdRecord addr) 3 0 5) 0 0 0) } : Fn).deliver)).mailboxDone fn 0) := by
  have zero : (dField (f.cmdRecord addr) 3 0 5 == 0) = false := beq_false_of_ne (by omega)
  refine h.answers ?_
  dsimp only
  rw [if_neg (by rw [hl]; exact Bool.false_ne_true), if_neg (by rw [ringOk_of h6 h16 hb]; exact Bool.false_ne_true), if_neg (by simp [hq])]
  simp only [zero]
  rfl

theorem execQReset_resets {r : Ring} (h : Commands s fn f addr 4 [(1, 0, 8)]) (hk : dField (f.cmdRecord addr) 1 6 2 = 0)
    (hq : f.sqOf (dField (f.cmdRecord addr) 1 0 6) = some r) :
    execQReset fn addr s = .next ((s.modFn fn (fun f => f.setSq r.reset)).mailboxDone fn 0) := by
  refine h.answers ?_
  simp only [hk, hq]
  rfl

/-! Contexts. -/

theorem execCtxCreate_judges (h : Commands s fn f addr 0x10 [(1, 0, 56)]) (hl : f.locked = false) : execCtxCreate fn addr s =
    if !(f.readable (dField (f.cmdRecord addr) 1 0 56) 1152) then .next (s.mailboxDone fn 2)
    else if s.boot.recovery || !(contextOk (wordsOf 144 (f.mem.read (dField (f.cmdRecord addr) 1 0 56) 1152))) ||
        (s.ctx (dField (wordsOf 144 (f.mem.read (dField (f.cmdRecord addr) 1 0 56) 1152)) 0 0 16)).isSome then .next (s.mailboxDone fn 3)
    else .next (({ s with ctxs := s.ctxs ++ [contextOf fn (Config.fresh s.free) (wordsOf 144 (f.mem.read (dField (f.cmdRecord addr) 1 0 56) 1152))],
                          free := s.free + 1 } : State).mailboxDone fn 0) := by
  refine (h.performs _).trans ?_
  dsimp only
  rw [if_neg (by rw [hl]; exact Bool.false_ne_true)]
  split_ifs <;> rfl

theorem execCtxCreate_unread (h : Commands s fn f addr 0x10 [(1, 0, 56)]) (hl : f.locked = false)
    (hr : f.readable (dField (f.cmdRecord addr) 1 0 56) 1152 = false) : execCtxCreate fn addr s = .next (s.mailboxDone fn 2) :=
  (execCtxCreate_judges h hl).trans (if_pos (by rw [hr]; rfl))

theorem execCtxCreate_refuses (h : Commands s fn f addr 0x10 [(1, 0, 56)]) (hl : f.locked = false)
    (hr : f.readable (dField (f.cmdRecord addr) 1 0 56) 1152 = true)
    (bad : s.boot.recovery = true ∨ contextOk (wordsOf 144 (f.mem.read (dField (f.cmdRecord addr) 1 0 56) 1152)) = false ∨
      s.ctx (dField (wordsOf 144 (f.mem.read (dField (f.cmdRecord addr) 1 0 56) 1152)) 0 0 16) ≠ none) :
    execCtxCreate fn addr s = .next (s.mailboxDone fn 3) := by
  refine (execCtxCreate_judges h hl).trans ((if_neg (by rw [hr]; exact Bool.false_ne_true)).trans (if_pos ?_))
  rw [Bool.or_eq_true, Bool.or_eq_true, or_assoc]
  exact bad.imp_right (Or.imp (fun h => by rw [h]; rfl) Option.isSome_iff_ne_none.mpr)

theorem execCtxCreate_creates (h : Commands s fn f addr 0x10 [(1, 0, 56)]) (hl : f.locked = false)
    (hr : f.readable (dField (f.cmdRecord addr) 1 0 56) 1152 = true) (hb : s.boot.recovery = false)
    (ok : contextOk (wordsOf 144 (f.mem.read (dField (f.cmdRecord addr) 1 0 56) 1152)) = true)
    (new : s.ctx (dField (wordsOf 144 (f.mem.read (dField (f.cmdRecord addr) 1 0 56) 1152)) 0 0 16) = none) : execCtxCreate fn addr s =
    .next (({ s with ctxs := s.ctxs ++ [contextOf fn (Config.fresh s.free) (wordsOf 144 (f.mem.read (dField (f.cmdRecord addr) 1 0 56) 1152))],
                     free := s.free + 1 } : State).mailboxDone fn 0) := by
  refine (execCtxCreate_judges h hl).trans ((if_neg (by rw [hr]; exact Bool.false_ne_true)).trans (if_neg ?_))
  rw [hb, ok, new]
  exact Bool.false_ne_true

theorem find?_contextOf (w : List Word) (key : Nat) (h : s.ctx (dField w 0 0 16) = none) :
    (s.ctxs ++ [contextOf fn key w]).find? (fun c => c.asid == dField w 0 0 16) = some (contextOf fn key w) := by
  have gone : s.ctxs.find? (fun c => c.asid == dField w 0 0 16) = none := h
  rw [List.find?_append, gone, Option.none_or, List.find?_cons, show (contextOf fn key w).asid = dField w 0 0 16 from rfl, beq_self_eq_true]

theorem execCtxDestroy_judges {c : Ctx} (h : Commands s fn f addr 0x11 [(1, 0, 16)]) (hl : f.locked = false)
    (hc : s.ctx (dField (f.cmdRecord addr) 1 0 16) = some c) (hf : c.fn = fn) : execCtxDestroy fn addr s =
    if s.ctxBusy (dField (f.cmdRecord addr) 1 0 16) then .next (s.mailboxDone fn 5)
    else .next ((s.dropCtx (dField (f.cmdRecord addr) 1 0 16)).mailboxDone fn 0) := by
  refine (h.performs _).trans ?_
  simp only [hc]
  rw [if_neg (by simp [hf, hl])]
  split <;> rfl

theorem ctx_dropCtx (a : Nat) : (s.dropCtx a).ctx a = none :=
  List.find?_eq_none.mpr fun x hx => by simpa using (List.mem_filter.mp hx).2

abbrev invFields : List (Nat × Nat × Nat) := [(1, 0, 16), (2, 0, 56), (3, 0, 4)]

theorem execInvalidate_denied {c : Ctx} (h : Commands s fn f addr 0x12 invFields) (hc : s.ctx (dField (f.cmdRecord addr) 1 0 16) = some c)
    (hf : c.fn ≠ fn) : execInvalidate fn addr s = .next (s.mailboxDone fn 4) := by
  refine h.answers ?_
  simp only [hc]
  exact if_pos (bne_iff_ne.mpr hf)

theorem execInvalidate_revokes {c : Ctx} (h : Commands s fn f addr 0x12 invFields) (hc : s.ctx (dField (f.cmdRecord addr) 1 0 16) = some c)
    (hf : c.fn = fn) (hk : dField (f.cmdRecord addr) 3 0 4 ≤ 9)
    (ha : dField (f.cmdRecord addr) 2 0 56 % pageBytes (dField (f.cmdRecord addr) 3 0 4) = 0) : execInvalidate fn addr s =
    .next ((s.revoke (dField (f.cmdRecord addr) 1 0 16) (dField (f.cmdRecord addr) 2 0 56) (pageBytes (dField (f.cmdRecord addr) 3 0 4))).mailboxDone
      fn 0) := by
  refine h.answers ?_
  simp only [hc]
  rw [if_neg (by simp [hf]), if_neg (by simp [ha]; omega)]
  rfl

/-- No translation of a revoked page is left. -/
theorem revoke_tlb (asid base bytes : Nat) (c : Core) : ∀ e ∈ (c.revoke asid base bytes).mem.tlb, e.asid = asid →
    e.base + pageBytes e.size ≤ base ∨ base + bytes ≤ e.base := fun e he ha => by
  have kept : (c.revoke asid base bytes).mem.tlb =
      c.mem.tlb.filter (fun e => !(e.asid == asid && e.base < base + bytes && base < e.base + pageBytes e.size)) := by
    unfold Core.revoke
    dsimp only
    split <;> rfl
  rw [kept] at he
  have := (List.mem_filter.mp he).2
  simp [ha] at this
  omega

theorem execPredClear_empties (h : Commands s fn f addr 0x13 []) :
    execPredClear fn addr s = .next (({ s with disp := { s.disp with sites := [] } } : State).mailboxDone fn 0) := h.performs _

end Commands

section Codes

variable {s : State} {fn : Nat} {f : Fn} {addr : Word} {c : Nat} {e : Instr}

/-- The events of the mailbox, with their codes. -/
def MbEvent (fn : Nat) (addr : Word) (c : Nat) (e : Instr) : Prop :=
  (c, e) ∈ List.zip mbCodes [.sqConf fn addr, .cqConf fn addr, .fqConf fn addr, .qReset fn addr, .ctxCreate fn addr, .ctxDestroy fn addr, .invalidate fn addr,
    .predClear fn addr]

/-- Each mailbox event is one command of its code. -/
theorem exec_mbEvent (he : MbEvent fn addr c e) (s : State) : ∃ fs k, exec e s = mailbox c fn addr fs k s := by
  simp only [MbEvent, mbCodes, List.zip_cons_cons, List.zip_nil_left, List.mem_cons, List.not_mem_nil, or_false, Prod.mk.injEq] at he
  obtain ⟨rfl, rfl⟩ | ⟨rfl, rfl⟩ | ⟨rfl, rfl⟩ | ⟨rfl, rfl⟩ | ⟨rfl, rfl⟩ | ⟨rfl, rfl⟩ | ⟨rfl, rfl⟩ | ⟨rfl, rfl⟩ := he
  · exact ⟨_, _, show execSqConf .. = _ from execSqConf.eq_1 ..⟩
  · exact ⟨_, _, show execCqConf .. = _ from execCqConf.eq_1 ..⟩
  · exact ⟨_, _, show execFqConf .. = _ from execFqConf.eq_1 ..⟩
  · exact ⟨_, _, show execQReset .. = _ from execQReset.eq_1 ..⟩
  · exact ⟨_, _, show execCtxCreate .. = _ from execCtxCreate.eq_1 ..⟩
  · exact ⟨_, _, show execCtxDestroy .. = _ from execCtxDestroy.eq_1 ..⟩
  · exact ⟨_, _, show execInvalidate .. = _ from execInvalidate.eq_1 ..⟩
  · exact ⟨_, _, show execPredClear .. = _ from execPredClear.eq_1 ..⟩

theorem mem_mbCodes (he : MbEvent fn addr c e) : c ∈ mbCodes := (List.of_mem_zip he).1

/-- A refused command. -/
theorem refused {fs : List (Nat × Nat × Nat)} {k : Fn → List Word → State → State × Nat} {st : Nat} {status : BitVec 8} (hf : s.fn fn = some f)
    (run : exec e s = mailbox c fn addr fs k s) (h : mailbox c fn addr fs k s = .next (s.mailboxDone fn st)) (hs : BitVec.ofNat 8 st = status) :
    Finishes s fn f e status (fun t _ => t.disp = s.disp ∧ t.ctxs = s.ctxs ∧ t.core = s.core) :=
  finishes (run.trans h) hf rfl rfl hs ⟨rfl, rfl, rfl⟩

theorem refused_address (he : MbEvent fn addr c e) (hf : s.fn fn = some f) (hb : f.busy = some addr)
    (hp : ¬(addr.toNat % 64 = 0 ∧ addr.toNat < 2 ^ 56)) :
    Finishes s fn f e 1 (fun t _ => t.disp = s.disp ∧ t.ctxs = s.ctxs ∧ t.core = s.core) := by
  obtain ⟨fs, k, run⟩ := exec_mbEvent he s
  exact refused (st := 1) hf run ((mailbox_own hf hb).trans (if_pos (by simpa using mt cmdAddrOk_iff.mp hp))) rfl

theorem refused_record (he : MbEvent fn addr c e) (hf : s.fn fn = some f) (hb : f.busy = some addr)
    (hp : addr.toNat % 64 = 0 ∧ addr.toNat < 2 ^ 56) (hr : f.readable addr.toNat 64 = false) :
    Finishes s fn f e 2 (fun t _ => t.disp = s.disp ∧ t.ctxs = s.ctxs ∧ t.core = s.core) := by
  obtain ⟨fs, k, run⟩ := exec_mbEvent he s
  refine refused (st := 2) hf run ((mailbox_own hf hb).trans ?_) rfl
  rw [if_neg (by rw [cmdAddrOk_iff.mpr hp]; exact Bool.false_ne_true), if_pos (by rw [hr]; rfl)]
  rfl

theorem refused_code (he : MbEvent fn addr c e) (hf : s.fn fn = some f) (hb : f.busy = some addr) (hs : SoundRecord f addr)
    (hn : dField (f.cmdRecord addr) 0 0 8 ∉ mbCodes) :
    Finishes s fn f e 1 (fun t _ => t.disp = s.disp ∧ t.ctxs = s.ctxs ∧ t.core = s.core) := by
  obtain ⟨fs, k, run⟩ := exec_mbEvent he s
  have other : (dField (f.cmdRecord addr) 0 0 8 != c) = true := bne_iff_ne.mpr fun h => hn (h ▸ mem_mbCodes he)
  have uncoded : mbCodes.contains (dField (f.cmdRecord addr) 0 0 8) = false := by
    rw [Bool.eq_false_iff]
    exact mt List.contains_iff_mem.mp hn
  refine refused (st := 1) hf run ((mailbox_sound hf hb hs).trans ?_) rfl
  rw [if_neg (by rw [uncoded, Bool.and_false]; exact Bool.false_ne_true), if_pos (by rw [other, Bool.true_or])]
  rfl

/-- A record of another command is left to that command's event. -/
theorem left_to_its_event (he : MbEvent fn addr c e) (hf : s.fn fn = some f) (hb : f.busy = some addr) (hs : SoundRecord f addr)
    (hin : dField (f.cmdRecord addr) 0 0 8 ∈ mbCodes) (hne : dField (f.cmdRecord addr) 0 0 8 ≠ c) : exec e s = .next s := by
  obtain ⟨fs, k, run⟩ := exec_mbEvent he s
  refine run.trans ((mailbox_sound hf hb hs).trans (if_pos ?_))
  rw [bne_iff_ne.mpr hne, List.contains_iff_mem.mpr hin, Bool.and_self]

end Codes

/-- Settles O46: the word written, the record judged, each command performed or refused with its status. -/
theorem mailboxCommands : Obligations.MailboxCommands := by
  unfold Obligations.MailboxCommands
  intro fn addr s f hf w bits placed sound codes cmd done q base n
  refine ⟨?_, ?_⟩
  · intro c e he nothing
    obtain ⟨fs, k, run⟩ := exec_mbEvent he s
    refine ⟨fun hb => run.trans (mailbox_idle hf hb), fun a hb ha => run.trans (mailbox_other hf hb ha), fun hb => ?_⟩
    refine ⟨refused_address he hf hb, fun hp hs => refused_record he hf hb hp ?_, fun hs => refused_code he hf hb ⟨cmdAddrOk_iff.mpr hs.1, hs.2⟩,
      fun hs => left_to_its_event he hf hb ⟨cmdAddrOk_iff.mpr hs.1, hs.2⟩⟩
    rw [Bool.eq_false_iff]
    exact fun h => hs ⟨hp, h⟩
  · intro hb
    have commands {code : Nat} {fs : List (Nat × Nat × Nat)} (h : cmd code fs) : Commands s fn f addr code fs :=
      ⟨hf, hb, ⟨cmdAddrOk_iff.mpr h.1.1, h.1.2⟩, h.2.1, h.2.2⟩
    refine ⟨?_, ?_, ?_, ?_, ?_, ?_, ?_, ?_⟩
    · intro hcmd hw owner
      refine ⟨fun hl => ?_, fun hl hn hr => ?_, fun hl h6 h16 hal ⟨c, hc, hcf⟩ hq hfree => ?_⟩
      · exact finishes (execSqConf_locked (commands hcmd) hl) hf rfl rfl rfl rfl
      · exact finishes (execSqConf_size (commands hcmd) hl hn hr) hf rfl rfl rfl rfl
      · refine finishes (execSqConf_binds (commands hcmd) hl h6 h16 hal hc hcf hq hfree) (fn_modFn hf (fun _ h => h)) rfl rfl rfl ⟨?_, ?_⟩
        · exact find?_setRing f.sqs q rfl
        · exact hwq_sqBound (f.cmdRecord addr) hfree
    · intro hcmd hl h6 h16 hal hq hcomps
      have kept := deliver_noComps (f := { f with cqs := setRing f.cqs q (some (Ring.empty q base n 0 0 0)) }) hcomps
      refine finishes (execCqConf_sets (commands hcmd) hl h6 h16 hal hq) (fn_modFn hf (fun f h => (deliver_n _).trans h)) kept.2 rfl rfl ?_
      exact (congrArg (List.find? (fun x : Ring => x.q == q)) kept.1).trans (find?_setRing f.cqs q rfl)
    · intro hcmd hl h6 h16 hal hq hfaults hcomps
      have kept := deliver_nothing (f := { f with fq := some (Ring.empty 64 base n 0 0 0) }) hcomps hfaults
      refine finishes (execFqConf_sets (commands hcmd) hl h6 h16 hal hq) (fn_modFn hf (fun f h => (deliver_n _).trans h))
        ?_ rfl rfl ?_
      · exact (congrArg Fn.done kept :)
      · exact (congrArg Fn.fq kept :)
    · intro hcmd hk r hq
      exact finishes (execQReset_resets (commands hcmd) hk hq) (fn_modFn hf (fun _ h => h)) rfl rfl rfl
        ⟨_, sqOf_setSq hq (r' := r.reset) (sqOf_q (r := r) hq), rfl, rfl, rfl, rfl, rfl⟩
    · intro hcmd hl c a held
      refine ⟨fun hr => ?_, fun hr bad => ?_, fun hr hb ok new => ?_⟩
      · exact finishes (execCtxCreate_unread (commands hcmd) hl hr) hf rfl rfl rfl rfl
      · exact finishes (execCtxCreate_refuses (commands hcmd) hl hr bad) hf rfl rfl rfl rfl
      · exact finishes (execCtxCreate_creates (commands hcmd) hl hr hb ok new) hf rfl rfl rfl
          ⟨_, find?_contextOf _ _ new, rfl, rfl, rfl, rfl, rfl, rfl, rfl⟩
    · intro hcmd hl c hc hcf
      have run : exec (.ctxDestroy fn addr) s = _ := execCtxDestroy_judges (commands hcmd) hl hc hcf
      refine ⟨fun hbusy => ?_, fun hidle => ?_⟩
      · exact finishes (run.trans (if_pos hbusy)) hf rfl rfl rfl rfl
      · exact finishes (run.trans (if_neg (Bool.eq_false_iff.mp hidle))) hf rfl rfl rfl (ctx_dropCtx _)
    · intro hcmd c hc
      refine ⟨fun hcf => ?_, fun hcf hk hal => ?_⟩
      · exact finishes (execInvalidate_denied (commands hcmd) hc hcf) hf rfl rfl rfl rfl
      · exact finishes (execInvalidate_revokes (commands hcmd) hc hcf hk hal) hf rfl rfl rfl (revoke_tlb _ _ _ s.core)
    · intro hcmd
      exact finishes (execPredClear_empties (commands hcmd)) hf rfl rfl rfl rfl

end Sys2Proof.Proofs

namespace Sys2Proof.Proofs

open Sys2Proof Sys2Proof.Machine Sys2Proof.Laws

/-! ## The power states of a cluster (R437 to R439) -/

section Clusters

variable {s : State} {k : Nat}

theorem cluster_setCluster (s : State) (k : Nat) (c : Cluster) : (s.setCluster k c).cluster k = c := by
  rw [State.cluster, State.setCluster_clusters, lookup_assocSet_self, Option.getD_some]

theorem coreOf_setCluster (s : State) (k : Nat) (c : Cluster) (n : Nat) : (s.setCluster k c).coreOf n = s.coreOf n := rfl

/-! Requests. -/

/-- A request noted, before it is judged. -/
def Cluster.noted (c : Cluster) (v : Nat) : Cluster := { c with req := v, wpend := if v == 0 then false else c.wpend }

theorem request_eq (c : Cluster) {v : Nat} (h : v ≤ 3) :
    c.request v = if c.target.isSome then Cluster.noted c v else (Cluster.noted c v).judge := by
  rw [Cluster.request, if_neg (by omega)]
  rfl

theorem request_waits {c : Cluster} {v : Nat} (h : v ≤ 3) (ht : c.target ≠ none) : c.request v = Cluster.noted c v :=
  (request_eq c h).trans (if_pos (Option.isSome_iff_ne_none.mpr ht))

theorem request_judged {c : Cluster} {v : Nat} (h : v ≤ 3) (ht : c.target = none) : c.request v = (Cluster.noted c v).judge :=
  (request_eq c h).trans (if_neg (by simp [ht]))

/-- A judgement sets only the target and BADREQ. -/
theorem judge_frame (c : Cluster) : c.judge.req = c.req ∧ c.judge.state = c.state ∧ c.judge.saved = c.saved ∧ c.judge.wpend = c.wpend := by
  rw [Cluster.judge]
  split_ifs <;> exact ⟨rfl, rfl, rfl, rfl⟩

theorem judge_reached {c : Cluster} (h : c.req = c.state) : c.judge = { c with badreq := false } := if_pos (beq_iff_eq.mpr h)

theorem judge_next {c : Cluster} (hr : c.req ≤ 3) (h : c.req ≠ c.state) (hn : c.req = 0 ∨ c.req = c.state + 1) :
    c.judge = { c with badreq := false, target := some c.req } := by
  rw [Cluster.judge, if_neg (by simpa using h), if_pos (by simpa [hr] using hn)]

theorem judge_bad {c : Cluster} (h : c.req ≠ c.state) (h0 : c.req ≠ 0) (hn : c.req ≠ c.state + 1) : c.judge = { c with badreq := true } := by
  rw [Cluster.judge, if_neg (by simpa using h), if_neg (by simp [h0, hn])]

/-- What a request leaves of its cluster. -/
theorem request_frame (c : Cluster) {v : Nat} (h : v ≤ 3) : (c.request v).req = v ∧ (c.request v).state = c.state ∧
    (c.request v).saved = c.saved ∧ (c.request v).wpend = (c.wpend && decide (v ≠ 0)) := by
  have noted : (Cluster.noted c v).wpend = (c.wpend && decide (v ≠ 0)) := by
    by_cases h0 : v = 0 <;> simp [Cluster.noted, h0]
  rw [request_eq c h]
  split
  · exact ⟨rfl, rfl, rfl, noted⟩
  · obtain ⟨req, state, saved, wpend⟩ := judge_frame (Cluster.noted c v)
    exact ⟨req, state, saved, wpend.trans noted⟩

theorem clRequest_inside (hk : k < 56) (v : Nat) : s.clRequest k v = s.setCluster k ((s.cluster k).request v) := if_neg (by omega)

theorem exec_clReq {v : Nat} {e : Instr} (h : (v, e) ∈ [(0, Instr.clReqRun k), (1, .clReqQuiesced k), (2, .clReqSaved k), (3, .clReqGated k)])
    (s : State) : exec e s = .next (s.clRequest k v) ∧ v ≤ 3 := by
  simp only [List.mem_cons, Prod.mk.injEq, List.not_mem_nil, or_false] at h
  obtain ⟨rfl, rfl⟩ | ⟨rfl, rfl⟩ | ⟨rfl, rfl⟩ | ⟨rfl, rfl⟩ := h <;> exact ⟨rfl, by omega⟩

/-! States reached. -/

/-- The state asked for is the one reached: nothing waits to be judged. -/
theorem reached_asked {c : Cluster} (h : c.target = some c.req) : c.reached = { c with state := c.req, target := none, badreq := false } := by
  rw [Cluster.reached, h]
  exact judge_reached rfl

/-- A fold that changes one core of its own at each turn changes each named core once, and no other. -/
theorem coreOf_foldl {ι : Type} {g : State → ι → State} {named : ι → Nat} {F : ι → Core → Core}
    (step : ∀ s e, (s.coreOf (named e)).id = named e →
      ∀ m, (g s e).coreOf m = if m = named e then F e (s.coreOf (named e)) else s.coreOf m) :
    ∀ (l : List ι) (s : State), (l.map named).Nodup → (∀ e ∈ l, (s.coreOf (named e)).id = named e) →
      (∀ e ∈ l, (l.foldl g s).coreOf (named e) = F e (s.coreOf (named e))) ∧ ∀ m, m ∉ l.map named → (l.foldl g s).coreOf m = s.coreOf m
  | [], _, _, _ => ⟨nofun, fun _ _ => rfl⟩
  | e :: es, s, nodup, home => by
    rw [List.map_cons, List.nodup_cons] at nodup
    have here := step s e (home e List.mem_cons_self)
    have apart : ∀ x ∈ es, named x ≠ named e := fun x hx h => nodup.1 (h ▸ List.mem_map_of_mem hx)
    have home' : ∀ x ∈ es, ((g s e).coreOf (named x)).id = named x := fun x hx => by
      rw [here, if_neg (apart x hx)]
      exact home x (List.mem_cons_of_mem _ hx)
    obtain ⟨changed, kept⟩ := coreOf_foldl step es (g s e) nodup.2 home'
    refine ⟨fun x hx => ?_, fun m hm => ?_⟩
    · rcases List.mem_cons.mp hx with rfl | hx
      · rw [List.foldl_cons, kept _ nodup.1, here, if_pos rfl]
      · rw [List.foldl_cons, changed x hx, here, if_neg (apart x hx)]
    · rw [List.map_cons, List.mem_cons, not_or] at hm
      rw [List.foldl_cons, kept m hm.2, here, if_neg hm.1]

theorem nodup_clCores (k : Nat) : (clCores k).Nodup := List.Nodup.map (fun _ _ h => by simpa using h) List.nodup_range

theorem mem_clCores {n : Nat} (h : n < 16) : 16 * k + n ∈ clCores k := List.mem_map_of_mem (List.mem_range.mpr h)

/-- Gated cores hold nothing. -/
theorem coreOf_gate (home : ∀ n ∈ clCores k, (s.coreOf n).id = n) : ∀ n ∈ clCores k, (s.gate k).coreOf n = (s.coreOf n).gated :=
  (coreOf_foldl (g := fun s n => (s.modCore n Core.gated).dropBedTags n) (named := id) (F := fun _ => Core.gated)
    (fun s n h m => coreOf_modCore s n m Core.gated h) (clCores k) s (by rw [List.map_id]; exact nodup_clCores k) home).1

theorem cluster_gate : (s.gate k).cluster k = s.cluster k := by
  have kept (l : List Nat) : ∀ s : State, (l.foldl (fun s n => (s.modCore n Core.gated).dropBedTags n) s).clusters = s.clusters := by
    induction l with
    | nil => exact fun _ => rfl
    | cons n ns ih => exact fun s => (ih _).trans (State.modCore_clusters ..)
  exact congrArg (fun cs => (lookup cs k).getD Cluster.reset) (kept (clCores k) s)

/-- The latched values stand in their cores again. -/
theorem coreOf_restoreLatches (hl : (s.cluster k).saved.length = 16) (home : ∀ n ∈ clCores k, (s.coreOf n).id = n) :
    ∀ e ∈ (clCores k).zip (s.cluster k).saved, (s.restoreLatches k).coreOf e.1 = (s.coreOf e.1).relimit e.2 :=
  (coreOf_foldl (g := fun s e => s.modCore e.1 (Core.relimit e.2)) (named := Prod.fst) (F := fun e => Core.relimit e.2)
    (fun s e h m => coreOf_modCore s e.1 m (Core.relimit e.2) h) _ s
    (by rw [List.map_fst_zip (by rw [clCores, List.length_map, List.length_range, hl])]; exact nodup_clCores k)
    (fun e he => home e.1 (List.of_mem_zip he).1)).1

theorem restoreLatches_cluster : (s.restoreLatches k).cluster k = { s.cluster k with saved := [] } := by
  have kept (l : List (Nat × Nat × Nat)) : ∀ s : State, (l.foldl (fun s e => s.modCore e.1 (Core.relimit e.2)) s).clusters = s.clusters := by
    induction l with
    | nil => exact fun _ => rfl
    | cons n ns ih => exact fun s => (ih _).trans (State.modCore_clusters ..)
  refine (cluster_setCluster ..).trans ?_
  exact congrArg (fun cs => { (lookup cs k).getD Cluster.reset with saved := [] }) (kept _ s)

/-- With no unit on the cluster there is none to pre-empt. -/
theorem quiesce_idle (h : ∀ n ∈ clCores k, (s.coreOf n).unit = none) : s.quiesce k = s := by
  have idle : ∀ l : List Nat, (∀ n ∈ l, (s.coreOf n).unit = none) → l.foldl (fun s n => match execPreempt n s with
    | .next t => t
    | _ => s) s = s := by
    intro l
    induction l with
    | nil => exact fun _ => rfl
    | cons n ns ih =>
      intro h
      have still : execPreempt n s = .next s := by
        rw [execPreempt, h n List.mem_cons_self]
      rw [List.foldl_cons, still]
      exact ih fun m hm => h m (List.mem_cons_of_mem _ hm)
  exact idle (clCores k) h

/-- A cluster that has reached what was asked for. -/
theorem setCluster_reached {c : Cluster} (hc : s.cluster k = c) (ht : c.target = some c.req) :
    (s.setCluster k (s.cluster k).reached).cluster k = { c with state := c.req, target := none, badreq := false } := by
  rw [cluster_setCluster, hc, reached_asked ht]

theorem stateReached_run (h : (s.cluster k).target = some 0) :
    execClStateReached k s = .next ((s.restoreLatches k).setCluster k ((s.restoreLatches k).cluster k).reached) := by
  rw [execClStateReached, h]
  rfl

theorem stateReached_quiesced (h : (s.cluster k).target = some 1) (idle : ∀ n ∈ clCores k, (s.coreOf n).unit = none) :
    execClStateReached k s = .next (s.setCluster k (s.cluster k).reached) := by
  rw [execClStateReached, h]
  dsimp only
  rw [quiesce_idle idle, if_pos (List.all_eq_true.mpr fun n hn => Option.isNone_iff_eq_none.mpr (idle n hn))]
  rfl

/-- A cluster whose units are not gone keeps moving. -/
theorem stateReached_next (h : (s.cluster k).target = some 1) : ∃ t, execClStateReached k s = .next t := by
  rw [execClStateReached, h]
  exact ⟨_, rfl⟩

theorem stateReached_saved (h : (s.cluster k).target = some 2) :
    execClStateReached k s = .next ((s.retain k).setCluster k ((s.retain k).cluster k).reached) := by
  rw [execClStateReached, h]
  rfl

theorem stateReached_gated {n : Nat} (h : (s.cluster k).target = some n) (hn : 3 ≤ n) :
    execClStateReached k s = .next ((s.gate k).setCluster k ((s.gate k).cluster k).reached) := by
  obtain ⟨m, rfl⟩ := Nat.exists_eq_add_of_le' hn
  rw [execClStateReached, h]
  rfl

end Clusters

/-! Wakes and starts. -/

/-- A cluster woken. -/
theorem cluster_clWakeWrite (s : State) (k : Nat) : (s.clWakeWrite k).cluster k = { s.cluster k with wpend := true } := by
  rw [State.clWakeWrite, State.cluster, State.modCore_clusters]
  exact cluster_setCluster s k { s.cluster k with wpend := true }

/-- The post of a wake. -/
theorem flag_clWakeWrite {s : State} (k : Nat) (home : (s.coreOf 896).id = 896) :
    ((s.clWakeWrite k).coreOf 896).flag 0 = min ((s.coreOf 896).flag 0 + 1) 65535 := by
  have core := coreOf_modCore (s.setCluster k { s.cluster k with wpend := true }) 896 896 (fun c => c.setFlag 0 (c.flag 0 + 1))
    ((Core.setFlag_id ..).trans home)
  rw [if_pos rfl] at core
  rw [State.clWakeWrite, plinthId, core, flag_setFlag _ _ (by omega), if_pos rfl]
  rfl

/-- A core that CL_START starts. -/
def startedAt (v : Word) (c : Core) : Core :=
  { c with ctl := { c.ctl with halted := false, pc := (field v 0 48).setWidth 64, dly := 0, after := none, firmware := true },
           sys := { c.sys with priv := true } }

/-- A word whose high bits are clear and whose PC is a bundle's address starts a halted core. -/
theorem clStart_judges {s : State} {k : Nat} {v : Word} (hk : k < 56) (hv : v.toNat < 2 ^ 52) (ha : v.toNat % 32 = 0) : execClStart k v s = .next
    (if (s.coreOf (k * 16 + (field v 48 4).toNat)).ctl.halted then s.modCore (k * 16 + (field v 48 4).toNat) (startedAt v) else s) := by
  have high : field v 52 12 = 0 := by
    apply BitVec.eq_of_toNat_eq
    rw [toNat_field, Nat.div_eq_of_lt hv]
    rfl
  have low : field v 0 5 = 0 := by
    apply BitVec.eq_of_toNat_eq
    rw [toNat_field, pow_zero, Nat.div_one]
    exact ha
  rw [execClStart, if_neg (by omega), State.clStartWrite, if_neg (by simp [high, low])]
  rfl

/-- Settles O52: requests judged, the five states reached, wakes and starts. -/
theorem clusterEvents : Obligations.ClusterEvents := by
  unfold Obligations.ClusterEvents
  refine ⟨?_, ?_, ?_, ?_⟩
  · intro k v e s hk he c
    obtain ⟨run, hv⟩ := exec_clReq he s
    obtain ⟨req, state, saved, wpend⟩ := request_frame c hv
    refine ⟨_, run.trans (congrArg _ (clRequest_inside hk v)), req, state, saved, wpend, fun ht => ?_, fun ht => ?_⟩
    · rw [show c.request v = _ from request_judged hv ht]
      refine ⟨fun h => ?_, fun h hn => ?_, fun h h0 hn => ?_⟩
      · rw [judge_reached (c := Cluster.noted c v) h]
        exact ⟨ht, rfl⟩
      · rw [judge_next (c := Cluster.noted c v) hv h hn]
        exact ⟨rfl, rfl⟩
      · rw [judge_bad (c := Cluster.noted c v) h h0 hn]
        exact ⟨ht, rfl⟩
    · rw [show c.request v = _ from request_waits hv ht]
      exact ⟨rfl, rfl⟩
  · intro k s c cores home
    refine ⟨fun ht => ?_, fun ht => ?_⟩
    · change execClStateReached k s = _
      rw [execClStateReached, show (s.cluster k).target = none from ht]
    · have asked : (s.cluster k).target = some (s.cluster k).req := ht
      obtain hr | hr | hr | hr : (s.cluster k).req = 0 ∨ (s.cluster k).req = 1 ∨ (s.cluster k).req = 2 ∨ 3 ≤ (s.cluster k).req := by omega
      · have reached := setCluster_reached (c := { s.cluster k with saved := [] }) (restoreLatches_cluster (s := s) (k := k)) asked
        refine ⟨_, stateReached_run (asked.trans (congrArg some hr)), fun _ => ?_, fun h => ?_, fun h => ?_, fun h => ?_,
          fun _ hl i hi b hb => ?_⟩
        · rw [reached]
          exact ⟨rfl, rfl, rfl⟩
        · exact absurd (hr.symm.trans h) (by decide)
        · exact absurd (hr.symm.trans h) (by decide)
        · exact absurd (hr.symm.trans h) (by decide)
        · have zipped : (16 * k + i, b) ∈ (clCores k).zip (s.cluster k).saved := by
            rw [List.mem_iff_getElem?]
            exact ⟨i, by simp [List.getElem?_zip_eq_some, clCores, hi, show (s.cluster k).saved[i]? = some b from hb]⟩
          have core := coreOf_restoreLatches hl home _ zipped
          rw [coreOf_setCluster, core]
          exact ⟨rfl, rfl⟩
      · obtain ⟨t, run⟩ := stateReached_next (asked.trans (congrArg some hr))
        refine ⟨t, run, fun h => absurd hr h, fun _ idle => ?_, fun h => ?_, fun h => ?_, fun h => ?_⟩
        · rw [stateReached_quiesced (asked.trans (congrArg some hr)) idle] at run
          cases run
          rw [setCluster_reached rfl asked]
          exact ⟨hr, rfl, fun _ => rfl⟩
        · exact absurd (hr.symm.trans h) (by decide)
        · exact absurd (hr.symm.trans h) (by decide)
        · exact absurd (hr.symm.trans h) (by decide)
      · have reached := setCluster_reached (s := s.retain k) (cluster_setCluster ..) asked
        refine ⟨_, stateReached_saved (asked.trans (congrArg some hr)), fun _ => ?_, fun h => ?_, fun _ => ?_, fun h => ?_, fun h => ?_⟩
        · rw [reached]
          exact ⟨rfl, rfl, rfl⟩
        · exact absurd (hr.symm.trans h) (by decide)
        · rw [reached]
          rfl
        · exact absurd (hr.symm.trans h) (by decide)
        · exact absurd (hr.symm.trans h) (by decide)
      · have reached := setCluster_reached (cluster_gate (s := s) (k := k)) asked
        have low : ∀ {m : Nat}, m < 3 → (s.cluster k).req ≠ m := fun hm h => by omega
        refine ⟨_, stateReached_gated asked hr, fun _ => ?_, fun h => ?_, fun h => ?_, fun _ n hn => ?_, fun h => ?_⟩
        · rw [reached]
          exact ⟨rfl, rfl, rfl⟩
        · exact (low (by decide) h).elim
        · exact (low (by decide) h).elim
        · rw [coreOf_setCluster, coreOf_gate home n hn]
          exact ⟨rfl, rfl, rfl⟩
        · exact (low (by decide) h).elim
  · intro k s hk home
    have woken := cluster_clWakeWrite s k
    exact ⟨_, (congrArg Host.Outcome.next (if_neg (by omega)) : execClWake k s = .next (s.clWakeWrite k)), by rw [woken], by rw [woken],
      flag_clWakeWrite k home, State.modCore_mem ..⟩
  · intro k v s hk hv ha n
    have run : exec (.clStart k v) s = _ := clStart_judges hk hv ha
    refine ⟨fun hh home => ?_, fun hh => run.trans (congrArg _ (if_neg (Bool.eq_false_iff.mp hh)))⟩
    have core := coreOf_modCore s n n (startedAt v) home
    rw [if_pos rfl] at core
    have pc : (field v 0 48).setWidth 64 = (v.setWidth 48).setWidth 64 := congrArg (BitVec.setWidth 64) (by
      apply BitVec.eq_of_toNat_eq
      rw [toNat_field, BitVec.toNat_setWidth, pow_zero, Nat.div_one])
    refine ⟨_, run.trans (congrArg _ (if_pos hh)), ?_⟩
    change (State.coreOf _ n).ctl.halted = false ∧ _
    rw [show (s.modCore (k * 16 + (field v 48 4).toNat) (startedAt v)).coreOf n = _ from core]
    exact ⟨rfl, pc, rfl, rfl, rfl⟩

end Sys2Proof.Proofs

namespace Sys2Proof.Proofs

open Sys2Proof Sys2Proof.Machine Sys2Proof.Laws

/-! ## Errors (R433 to R436) -/

section Errors

variable {s : State}

theorem errLog_inst (s : State) (i : Nat) : (s.errLog i).inst = i := by
  rw [State.errLog]
  cases h : s.errs.find? (·.inst == i) with
  | none => rfl
  | some e => exact beq_iff_eq.mp (List.find?_some (p := fun e => ErrLog.inst e == i) h)

/-- A log put back is read; no other changes. -/
theorem errLog_setErrLog (s : State) (e : ErrLog) (i : Nat) : (s.setErrLog e).errLog i = if i = e.inst then e else s.errLog i := by
  rw [State.errLog, State.setErrLog, List.find?_append]
  split
  next h =>
    have gone : (s.errs.filter (fun x => x.inst != e.inst)).find? (fun x => x.inst == i) = none := List.find?_eq_none.mpr fun x hx => by
      have := (List.mem_filter.mp hx).2
      simp_all
    rw [gone, Option.none_or, List.find?_cons, h, beq_self_eq_true]
    rfl
  next h =>
    have same : (s.errs.filter (fun x => x.inst != e.inst)).find? (fun x => x.inst == i) = s.errs.find? (fun x => x.inst == i) := by
      rw [List.find?_filter]
      congr 1
      funext x
      by_cases hx : x.inst = i <;> simp [hx, h]
    have other : [e].find? (fun x => x.inst == i) = none := by simp [Ne.symm h]
    rw [same, other, Option.or_none, State.errLog]

/-! The log of an array (R435). -/

variable (e : ErrLog) (addr : Word) (asid synd : BitVec 16) (ue : Bool)

/-- ARM cleared where the error was the injected flip. -/
theorem injReg_fired (w : Word) : (if bitAt w 16 then putField w 16 0#1 else w) = w &&& ~~~0x10000 := by
  have bits (i : Nat) (hi : i < 64) : (w &&& ~~~0x10000).getLsbD i = (w.getLsbD i && decide (i ≠ 16)) := by
    rw [show (0x10000 : Word) = BitVec.twoPow 64 16 from rfl, BitVec.getLsbD_and, BitVec.getLsbD_not, BitVec.getLsbD_twoPow]
    simp [hi, eq_comm]
  apply BitVec.eq_of_getLsbD_eq
  intro i hi
  rw [bits i hi]
  split
  · rw [getLsbD_putField _ _ _ hi]
    by_cases h : i = 16
    · subst h
      simp
    · rw [if_neg (by omega)]
      simp [h]
  next unarmed =>
    by_cases h : i = 16
    · subst h
      simpa [bitAt] using unarmed
    · simp [h]

theorem log_first (h : e.valid = false) : e.log addr asid synd ue =
    ⟨e.inst, 1, e.injReg.getLsbD 16, false, ue, true, addr, asid, synd, e.injReg &&& ~~~0x10000⟩ := by
  rw [← injReg_fired, ErrLog.log, if_pos (by rw [h]; rfl)]
  rfl

/-- A further error is counted. -/
theorem log_again (h : e.valid = true) : (e.log addr asid synd ue).valid = true ∧ (e.log addr asid synd ue).inst = e.inst ∧
    (e.log addr asid synd ue).count = min (e.count + 1) (2 ^ 32 - 1) ∧ (e.log addr asid synd ue).ovf = true := by
  rw [ErrLog.log, if_neg (by rw [h]; exact Bool.false_ne_true)]
  by_cases worse : (ue && !e.ue) = true
  · rw [if_pos worse]
    exact ⟨h, rfl, rfl, rfl⟩
  · rw [if_neg worse]
    exact ⟨h, rfl, rfl, rfl⟩

/-- The first uncorrectable error takes the record. -/
theorem log_worse (h : e.valid = true) (hu : ue = true) (he : e.ue = false) :
    (e.log addr asid synd ue).addr = addr ∧ (e.log addr asid synd ue).ue = true := by
  rw [ErrLog.log, if_neg (by rw [h]; exact Bool.false_ne_true), if_pos (by rw [hu, he]; rfl)]
  exact ⟨rfl, rfl⟩

theorem log_keeps (h : e.valid = true) (hk : ue = false ∨ e.ue = true) :
    (e.log addr asid synd ue).addr = e.addr ∧ (e.log addr asid synd ue).synd = e.synd := by
  have kept : (ue && !e.ue) = false := by
    obtain h | h := hk <;> simp [h]
  rw [ErrLog.log, if_neg (by rw [h]; exact Bool.false_ne_true), if_neg (by rw [kept]; exact Bool.false_ne_true)]
  exact ⟨rfl, rfl⟩

theorem log_inst : (e.log addr asid synd ue).inst = e.inst := by
  cases h : e.valid with
  | true => exact (log_again e addr asid synd ue h).2.1
  | false => rw [log_first e addr asid synd ue h]

theorem log_valid : (e.log addr asid synd ue).valid = true := by
  cases h : e.valid with
  | true => exact (log_again e addr asid synd ue h).1
  | false => rw [log_first e addr asid synd ue h]

/-! What is lost (R433, R434). -/

/-- The core an uncorrectable error of class 0, 1 or 2 damages. -/
def damagedCore (cls a : Nat) (c : Core) : Core :=
  match cls with
  | 0 => { c with mem := { c.mem with poisoned := markLine c.mem.poisoned a } }
  | 1 => { c with r := c.r.poisonReg a }
  | _ => c.setTile a { c.tile a with poison := true }

theorem damage_core (cls n : Nat) (addr : Word) (hc : cls < 3) : s.damage cls n addr true = s.modCore n (damagedCore cls addr.toNat) := by
  obtain rfl | rfl | rfl : cls = 0 ∨ cls = 1 ∨ cls = 2 := by omega
  all_goals rfl

theorem damagedCore_id (cls a : Nat) (c : Core) : (damagedCore cls a c).id = c.id := by
  unfold damagedCore
  split
  · rfl
  · rfl
  · exact Core.setTile_id ..

theorem damage_line (cls n : Nat) (addr : Word) (h4 : 4 ≤ cls) (h6 : cls ≤ 6) :
    s.damage cls n addr true = { s with poisoned := markLine s.poisoned addr.toNat } := by
  obtain rfl | rfl | rfl : cls = 4 ∨ cls = 5 ∨ cls = 6 := by omega
  all_goals rfl

theorem mem_markLine (l : List Nat) (a : Nat) : a / 64 ∈ markLine l a := by
  rw [markLine]
  split
  next h => exact List.contains_iff_mem.mp h
  next => exact List.mem_append_right _ List.mem_cons_self

theorem poisonReg_x {d : RegNo} (hd : d ≠ 0) (c : Core) : (damagedCore 1 d.toNat c).xp d = true ∧ (damagedCore 1 d.toNat c).x d = c.x d := by
  have named : c.r.poisonReg d.toNat = c.r.setX d { c.r.x.get d.toFin with poison := true } := by
    rw [Regs.poisonReg, if_pos d.isLt, BitVec.ofNat_toNat, BitVec.setWidth_eq]
  have reg : (damagedCore 1 d.toNat c).xr d = { c.r.x.get d.toFin with poison := true } := by
    rw [damagedCore, named]
    exact (regAt_setX hd c.r _ d).trans (if_pos rfl)
  have old : c.xr d = c.r.x.get d.toFin := if_neg hd
  rw [Core.xp, Core.x, reg, Core.x, old]
  exact ⟨rfl, rfl⟩

theorem poisonReg_v (d : RegNo) (c : Core) :
    ((damagedCore 1 (64 + d.toNat) c).v d).poison = true ∧ ((damagedCore 1 (64 + d.toNat) c).v d).bits = (c.v d).bits := by
  have hd := d.isLt
  have named : c.r.poisonReg (64 + d.toNat) = c.r.setV d { c.r.v.get d.toFin with poison := true } := by
    rw [Regs.poisonReg, if_neg (by omega), if_pos (by omega), Nat.add_sub_cancel_left, BitVec.ofNat_toNat, BitVec.setWidth_eq]
  have reg : (damagedCore 1 (64 + d.toNat) c).v d = { c.r.v.get d.toFin with poison := true } := by
    rw [damagedCore, named]
    exact Vector.getElem_set_self d.isLt
  rw [reg]
  exact ⟨rfl, rfl⟩

theorem poisonTile {i : Nat} (hi : i < 8) (c : Core) :
    ((damagedCore 2 i c).tile i).poison = true ∧ ((damagedCore 2 i c).tile i).bits = (c.tile i).bits := by
  rw [damagedCore, tile_setTile _ _ hi, if_pos rfl]
  · exact ⟨rfl, rfl⟩
  all_goals nofun

/-- The low w bits of a word. -/
theorem zext_eq_setWidth (v : Word) {w : Nat} (h : w ≤ 64) : zext v w = (v.setWidth w).setWidth 64 := by
  apply BitVec.eq_of_getLsbD_eq
  intro i hi
  rw [zext, BitVec.getLsbD_ushiftRight, BitVec.getLsbD_shiftLeft, BitVec.getLsbD_setWidth, BitVec.getLsbD_setWidth]
  by_cases hw : i < w
  · rw [show 64 - w + i - (64 - w) = i by omega]
    simp [hw, hi]
    omega
  · simp [hw]
    omega

/-! Links (R407). -/

theorem losePaths_reset (t : State) (m : Nat) : State.losePaths t s (Core.reset m) = Core.reset m := rfl

/-- A link that goes down. -/
theorem coreOf_relink (f : Fabric → Fabric) (m : Nat) : (s.relink f).coreOf m = State.losePaths (s.mapFabric f) s (s.coreOf m) := by
  rw [State.relink]
  exact coreOf_mapAllCores (s := s.mapFabric f) (g := (s.mapFabric f).losePaths s) (fun _ => rfl) rfl

theorem mem_linkDown (f : Fabric) (l : Nat) : l ∉ (f.linkDown l).links ∧ l ∈ (f.linkDown l).downLinks :=
  ⟨fun h => by simpa using (List.mem_filter.mp h).2, List.mem_append_right _ List.mem_cons_self⟩

end Errors

/-- Settles O51: what an error poisons, its log, the ninth CRC error of a link, logs cleared and registers written. -/
theorem errorEvents : Obligations.ErrorEvents := by
  unfold Obligations.ErrorEvents
  refine ⟨?_, ?_, ?_⟩
  · intro inst addr asid synd ue s e
    have logged : ((s.damage (inst / 1024) (inst % 1024) addr ue).setErrLog (e.log addr asid synd ue)).errLog inst = e.log addr asid synd ue := by
      rw [errLog_setErrLog, if_pos]
      rw [log_inst, errLog_inst]
    refine ⟨_, rfl, fun h => ?_, fun h hc => ?_, fun hu => ⟨fun home => ?_, fun h4 h6 => ?_⟩⟩
    · rw [logged, log_first e addr asid synd ue h, errLog_inst]
    · obtain ⟨_, _, count, ovf⟩ := log_again e addr asid synd ue h
      rw [logged]
      exact ⟨count.trans (by omega), ovf, log_worse e addr asid synd ue h, log_keeps e addr asid synd ue h⟩
    · subst hu
      have core (cls : Nat) (hcls : inst / 1024 = cls) (hlt : cls < 3) :
          ((s.damage (inst / 1024) (inst % 1024) addr true).setErrLog (e.log addr asid synd true)).coreOf (inst % 1024) =
            damagedCore cls addr.toNat (s.coreOf (inst % 1024)) := by
        rw [hcls, damage_core cls _ addr hlt]
        exact (coreOf_modCore s _ _ _ ((damagedCore_id ..).trans home)).trans (if_pos rfl)
      refine ⟨fun hcls => ?_, fun hcls d hd ha => ?_, fun hcls d ha => ?_, fun hcls i hi ha => ?_⟩
      · rw [core 0 hcls (by omega)]
        exact ⟨mem_markLine .., rfl⟩
      · rw [core 1 hcls (by omega), ha]
        exact poisonReg_x hd _
      · rw [core 1 hcls (by omega), ha]
        exact poisonReg_v d _
      · rw [core 2 hcls (by omega), ha]
        exact poisonTile hi _
    · subst hu
      rw [damage_line _ _ addr h4 h6]
      exact ⟨mem_markLine .., rfl, rfl⟩
  · intro l s n
    have run (t : State) (down : Bool) (hd : decide (n ≥ 8) = down)
        (ht : (if down then s.relink (·.linkDown l) else s.mapFabric (fun f => { f with retries := assocSet f.retries l (n + 1) })) = t) :
        exec (.linkCrcError l) s = .next (t.setErrLog ((t.errLog (7 * 1024 + l)).log 0 0 0 down)) := by
      subst hd ht
      rfl
    have valid (t : State) (down : Bool) : ((t.setErrLog ((t.errLog (7 * 1024 + l)).log 0 0 0 down)).errLog (7168 + l)).valid = true := by
      rw [errLog_setErrLog, if_pos (by rw [log_inst, errLog_inst])]
      exact log_valid ..
    by_cases hn : n < 8
    · exact ⟨_, run _ false (decide_eq_false (by omega)) rfl, rfl, valid .., fun _ => ⟨lookup_assocSet_self .., rfl, rfl⟩,
        fun h => absurd hn (by omega)⟩
    · obtain ⟨gone, down⟩ := mem_linkDown s.fabric l
      exact ⟨_, run _ true (decide_eq_true (by omega)) rfl, rfl, valid .., fun h => absurd h hn, fun _ => ⟨gone, down, coreOf_relink _⟩⟩
  · intro inst v s
    refine ⟨⟨_, rfl, rfl, ?_, fun i hi => ?_⟩, _, rfl, rfl, ?_, fun i hi => ?_⟩
    · exact (errLog_setErrLog ..).trans (if_pos rfl)
    · exact (errLog_setErrLog ..).trans (if_neg hi)
    · refine (errLog_setErrLog ..).trans ((if_pos (errLog_inst s inst).symm).trans ?_)
      rw [zext_eq_setWidth v (by omega)]
    · refine (errLog_setErrLog ..).trans (if_neg ?_)
      exact fun h => hi (h.trans (errLog_inst s inst))

end Sys2Proof.Proofs

namespace Sys2Proof.Proofs

open Sys2Proof Sys2Proof.Machine Sys2Proof.Laws

/-! ## Power (R426, R428 to R432) -/

section Power

variable {s : State}

/-! The dies. -/

theorem die_modDie {d : Nat} (f : DiePower → DiePower) (hd : d < s.power.dies.length) (j : Nat) :
    (s.modDie d f).die j = if j = d then f (s.die d) else s.die j := by
  rw [State.die, State.modDie, State.die, State.die]
  dsimp only
  rw [List.getElem?_mapIdx]
  by_cases h : j = d
  · subst h
    rw [List.getElem?_eq_getElem hd, if_pos rfl]
    simp
  · rw [if_neg h]
    cases s.power.dies[j]? with
    | none => rfl
    | some x => simp [h]

theorem length_modDie (d : Nat) (f : DiePower → DiePower) : (s.modDie d f).power.dies.length = s.power.dies.length := List.length_mapIdx

/-- A state changed in its dies only. -/
structure DiesOnly (s t : State) : Prop where
  core : t.core = s.core
  fenced : t.fenced = s.fenced
  pticks : t.pticks = s.pticks
  cap : t.power.cap = s.power.cap
  hub : t.power.hub = s.power.hub
  length : t.power.dies.length = s.power.dies.length

theorem DiesOnly.modDie (d : Nat) (f : DiePower → DiePower) : DiesOnly s (s.modDie d f) := ⟨rfl, rfl, rfl, rfl, rfl, length_modDie d f⟩

theorem DiesOnly.trans {t u : State} (h : DiesOnly s t) (k : DiesOnly t u) : DiesOnly s u :=
  ⟨k.core.trans h.core, k.fenced.trans h.fenced, k.pticks.trans h.pticks, k.cap.trans h.cap, k.hub.trans h.hub, k.length.trans h.length⟩

/-! The end of a period. -/

/-- A period closed on some dies. -/
def closeDies (used : List Nat) (ds : List Nat) (s : State) : State := ds.foldl (fun s d => s.modDie d (fun x => x.close (used.getD d 0))) s

theorem closeDies_diesOnly (used : List Nat) : ∀ (ds : List Nat) (s : State), DiesOnly s (closeDies used ds s)
  | [], _ => ⟨rfl, rfl, rfl, rfl, rfl, rfl⟩
  | d :: ds, _ => (DiesOnly.modDie d _).trans (closeDies_diesOnly used ds _)

theorem die_closeDies (used : List Nat) : ∀ (ds : List Nat) (s : State), ds.Nodup → (∀ d ∈ ds, d < s.power.dies.length) →
    ∀ j, (closeDies used ds s).die j = if j ∈ ds then (s.die j).close (used.getD j 0) else s.die j
  | [], _, _, _, _ => rfl
  | d :: ds, s, nodup, bound, j => by
    rw [List.nodup_cons] at nodup
    have hd := bound d List.mem_cons_self
    have rest := die_closeDies used ds (s.modDie d (fun x => x.close (used.getD d 0))) nodup.2
      (fun k hk => by rw [length_modDie]; exact bound k (List.mem_cons_of_mem _ hk)) j
    refine rest.trans ?_
    rw [die_modDie _ hd]
    by_cases h : j = d
    · subst h
      rw [if_neg nodup.1, if_pos rfl, if_pos List.mem_cons_self]
    · rw [if_neg h]
      simp [h]

/-! The ring (R429). -/

theorem ring_cons (demand : List Nat) (d : Nat) (ds : List Nat) (spare : Nat) (s : State) : State.ring demand (d :: ds) spare s =
    State.ring demand ds ((s.die d).take (demand.getD d 0) spare).2 (s.modDie d (fun _ => ((s.die d).take (demand.getD d 0) spare).1)) := rfl

theorem ring_diesOnly (demand : List Nat) : ∀ (ds : List Nat) (spare : Nat) (s : State), DiesOnly s (State.ring demand ds spare s)
  | [], _, _ => ⟨rfl, rfl, rfl, rfl, rfl, rfl⟩
  | d :: ds, _, _ => (DiesOnly.modDie d _).trans (ring_diesOnly demand ds _ _)

/-- Each die takes of what is left when the ring reaches it; no more is taken than was to spare. -/
theorem ring_takes (demand : List Nat) : ∀ (ds : List Nat) (spare : Nat) (s : State), ds.Nodup → (∀ d ∈ ds, d < s.power.dies.length) →
    (∀ d ∈ ds, ∃ left, (State.ring demand ds spare s).die d = ((s.die d).take (demand.getD d 0) left).1) ∧
    (∀ d ∉ ds, (State.ring demand ds spare s).die d = s.die d) ∧
    (ds.map (fun d => ((State.ring demand ds spare s).die d).taken)).sum ≤ spare
  | [], _, _, _, _ => ⟨nofun, fun _ _ => rfl, Nat.zero_le _⟩
  | d :: ds, spare, s, nodup, bound => by
    rw [List.nodup_cons] at nodup
    have hd := bound d List.mem_cons_self
    have bound' : ∀ k ∈ ds, k < (s.modDie d (fun _ => ((s.die d).take (demand.getD d 0) spare).1)).power.dies.length := fun k hk => by
      rw [length_modDie]
      exact bound k (List.mem_cons_of_mem _ hk)
    obtain ⟨takes, keeps, total⟩ := ring_takes demand ds ((s.die d).take (demand.getD d 0) spare).2 _ nodup.2 bound'
    rw [ring_cons]
    have first := (keeps d nodup.1).trans ((die_modDie _ hd d).trans (if_pos rfl))
    refine ⟨fun k hk => ?_, fun k hk => ?_, ?_⟩
    · rcases List.mem_cons.mp hk with rfl | hk
      · exact ⟨spare, first⟩
      · obtain ⟨left, h⟩ := takes k hk
        have apart : k ≠ d := fun h => nodup.1 (h ▸ hk)
        exact ⟨left, by rw [h, die_modDie _ hd, if_neg apart]⟩
    · rw [List.mem_cons, not_or] at hk
      rw [keeps k hk.2, die_modDie _ hd, if_neg hk.1]
    · have taken : ((s.die d).take (demand.getD d 0) spare).1.taken + ((s.die d).take (demand.getD d 0) spare).2 = spare := by
        rw [DiePower.take]
        exact Nat.add_sub_cancel' (Nat.min_le_right _ _)
      rw [List.map_cons, List.sum_cons, first]
      omega

/-- The first die of the ring may take all that is to spare. -/
theorem ring_first (demand : List Nat) {d : Nat} {ds : List Nat} (spare : Nat) (nodup : (d :: ds).Nodup)
    (bound : ∀ k ∈ d :: ds, k < s.power.dies.length) :
    (State.ring demand (d :: ds) spare s).die d = ((s.die d).take (demand.getD d 0) spare).1 := by
  have hd := bound d List.mem_cons_self
  have kept := (ring_takes demand ds ((s.die d).take (demand.getD d 0) spare).2 (s.modDie d (fun _ => ((s.die d).take (demand.getD d 0) spare).1))
    nodup.of_cons (fun k hk => by rw [length_modDie]; exact bound k (List.mem_cons_of_mem _ hk))).2.1 d (List.nodup_cons.mp nodup).1
  rw [ring_cons, kept, die_modDie _ hd, if_pos rfl]

/-! The order of the ring. -/

theorem mem_ringOrder {p d : Nat} : d ∈ s.ringOrder p ↔ d < 8 ∧ d ∉ s.fenced := by
  have turned : (∃ i ∈ List.range 8, (p + i) % 8 = d) ↔ d < 8 := by
    constructor
    · rintro ⟨i, _, rfl⟩
      omega
    · exact fun h => ⟨(d + 8 - p % 8) % 8, List.mem_range.mpr (by omega), by omega⟩
  rw [State.ringOrder, List.mem_filter, List.mem_map, turned]
  simp

theorem nodup_ringOrder (p : Nat) : (s.ringOrder p).Nodup :=
  (List.Nodup.map_on (fun i hi j hj h => by rw [List.mem_range] at hi hj; omega) List.nodup_range).filter _

theorem ringOrder_perm (p : Nat) : (s.ringOrder p).Perm ((List.range 8).filter (fun d => !(s.fenced.contains d))) :=
  (List.perm_ext_iff_of_nodup (nodup_ringOrder p) (List.nodup_range.filter _)).mpr fun d => by
    rw [mem_ringOrder, List.mem_filter, List.mem_range]
    simp

theorem ringOrder_head {p : Nat} (h : p % 8 ∉ s.fenced) : ∃ ds, s.ringOrder p = p % 8 :: ds :=
  ⟨_, List.filter_cons_of_pos (by simpa using h)⟩

/-- What a period leaves of a die that stands in the ring. -/
theorem take_close (x : DiePower) (demand used left : Nat) :
    ((x.close used).take demand left).1.base = x.base ∧
    ((x.close used).take demand left).1.taken = min (demand + min (x.debt + (used - x.budget)) 65535 - x.base) left ∧
    ((x.close used).take demand left).1.budget =
      x.base + ((x.close used).take demand left).1.taken - min (x.debt + (used - x.budget)) 65535 ∧
    ((x.close used).take demand left).1.debt =
      min (x.debt + (used - x.budget)) 65535 - x.base - ((x.close used).take demand left).1.taken ∧
    ((x.close used).take demand left).1.used = min used 65535 ∧
    ((x.close used).take demand left).1.caplim = max 91 (5824 * x.budget / max used 1) := by
  rw [DiePower.take]
  exact ⟨rfl, rfl, rfl, rfl, rfl, rfl⟩

/-- What the ring may give in a period: the cap without the hub and the bases of the dies not fenced. -/
def spareOf (s : State) : Nat :=
  s.power.cap - s.power.hub - (((List.range 8).filter (fun d => !(s.fenced.contains d))).map (fun d => (s.die d).base)).sum

/-- The period closed and the ring passed. -/
def ringPassed (demand used : List Nat) (s : State) : State :=
  State.ring demand (s.ringOrder (s.power.period + 1)) (spareOf s) (closeDies used (s.ringOrder 0) s)

theorem ringPassed_diesOnly (demand used : List Nat) : DiesOnly s (ringPassed demand used s) :=
  (closeDies_diesOnly ..).trans (ring_diesOnly ..)

theorem execPowerRingPeriod_passes (demand used : List Nat) (h8 : s.power.dies.length = 8) : execPowerRingPeriod demand used s = .next
    { ringPassed demand used s with power := { (ringPassed demand used s).power with period := s.power.period + 1 },
                                    pticks := (ringPassed demand used s).pticks + 100 } := by
  have closed := closeDies_diesOnly used (s.ringOrder 0) s
  have order : (closeDies used (s.ringOrder 0) s).ringOrder (s.power.period + 1) = s.ringOrder (s.power.period + 1) := by
    rw [State.ringOrder, closed.fenced, State.ringOrder]
  have base (d : Nat) : ((closeDies used (s.ringOrder 0) s).die d).base = (s.die d).base := by
    rw [die_closeDies used _ s (nodup_ringOrder 0) (fun d hd => h8 ▸ (mem_ringOrder.mp hd).1)]
    split <;> rfl
  have spare : (closeDies used (s.ringOrder 0) s).power.cap - (closeDies used (s.ringOrder 0) s).power.hub -
      ((s.ringOrder (s.power.period + 1)).map (fun d => ((closeDies used (s.ringOrder 0) s).die d).base)).sum = spareOf s := by
    rw [closed.cap, closed.hub, List.map_congr_left (fun d _ => base d), ((ringOrder_perm _).map _).sum_eq, spareOf]
  unfold closeDies at order spare
  rw [execPowerRingPeriod]
  dsimp only
  rw [order, spare]
  rfl

section Passed

variable (demand used : List Nat) (h8 : s.power.dies.length = 8)
include h8

theorem die_closed {d : Nat} (hd : d < 8 ∧ d ∉ s.fenced) : (closeDies used (s.ringOrder 0) s).die d = (s.die d).close (used.getD d 0) :=
  (die_closeDies used _ s (nodup_ringOrder 0) (fun _ hd => h8 ▸ (mem_ringOrder.mp hd).1) d).trans (if_pos (mem_ringOrder.mpr hd))

theorem bound_closed {p : Nat} : ∀ d ∈ s.ringOrder p, d < (closeDies used (s.ringOrder 0) s).power.dies.length := fun d hd => by
  rw [(closeDies_diesOnly ..).length, h8]
  exact (mem_ringOrder.mp hd).1

theorem ringPassed_die {d : Nat} (hd : d < 8 ∧ d ∉ s.fenced) :
    ∃ left, (ringPassed demand used s).die d = (((s.die d).close (used.getD d 0)).take (demand.getD d 0) left).1 := by
  obtain ⟨left, h⟩ := (ring_takes demand _ (spareOf s) _ (nodup_ringOrder (s.power.period + 1)) (bound_closed used h8)).1 d (mem_ringOrder.mpr hd)
  exact ⟨left, h.trans (by rw [die_closed used h8 hd])⟩

theorem ringPassed_taken :
    (((List.range 8).filter (fun d => !(s.fenced.contains d))).map (fun d => ((ringPassed demand used s).die d).taken)).sum ≤ spareOf s := by
  rw [← ((ringOrder_perm (s.power.period + 1)).map _).sum_eq]
  exact (ring_takes demand _ (spareOf s) _ (nodup_ringOrder (s.power.period + 1)) (bound_closed used h8)).2.2

theorem ringPassed_first (hd : (s.power.period + 1) % 8 ∉ s.fenced) : (ringPassed demand used s).die ((s.power.period + 1) % 8) =
    (((s.die ((s.power.period + 1) % 8)).close (used.getD ((s.power.period + 1) % 8) 0)).take (demand.getD ((s.power.period + 1) % 8) 0)
      (spareOf s)).1 := by
  obtain ⟨ds, order⟩ := ringOrder_head hd
  have nodup := nodup_ringOrder (s := s) (s.power.period + 1)
  have bound := bound_closed (p := s.power.period + 1) used h8
  rw [order] at nodup bound
  rw [ringPassed, order, ring_first demand (spareOf s) nodup bound, die_closed used h8 ⟨Nat.mod_lt _ (by decide), hd⟩]

end Passed

/-! Registers, voltage, watchdogs. -/

theorem tryPower_takes {p : Power} (h : p.hub + (p.dies.map (·.base)).sum ≤ p.cap) : s.tryPower p = .next { s with power := p } :=
  congrArg Host.Outcome.next (if_neg (by rw [Power.exceeds, decide_eq_true_eq]; omega))

theorem tryPower_refuses {p : Power} (h : p.cap < p.hub + (p.dies.map (·.base)).sum) : s.tryPower p = .next s :=
  congrArg Host.Outcome.next (if_pos (decide_eq_true h))

/-- The stall a watchdog reports is reported once. -/
def reportedCore (c : Core) : Core := { c with pw := { c.pw with reported := true } }

theorem sendComps_fq : ∀ (l : List CompOut) (f : Fn), (f.sendComps l).fq = f.fq ∧ (f.sendComps l).faults = f.faults
  | [], _ => ⟨rfl, rfl⟩
  | c :: cs, f => by
    rw [Fn.sendComps]
    split
    · exact sendComps_fq cs f
    · split
      · exact sendComps_fq cs f
      · exact sendComps_fq cs _

/-- A function without a fault queue keeps its fault records waiting. -/
theorem deliver_faults {f : Fn} (hq : f.fq = none) : f.deliver.faults = f.faults := by
  obtain ⟨fq, faults⟩ := sendComps_fq f.comps { f with comps := [] }
  rw [Fn.deliver]
  cases h : (Fn.sendComps { f with comps := [] } f.comps).faults with
  | nil =>
    rw [Fn.sendFaults]
    exact h.symm.trans faults
  | cons w ws =>
    rw [Fn.sendFaults, fq.trans hq]
    exact h.symm.trans faults

theorem postFault_reports {fn : Nat} {f : Fn} (h : s.fn fn = some f) (hq : f.fq = none) (w : List Word) :
    ∃ g, (s.postFault fn w).fn fn = some g ∧ g.faults = f.faults ++ [⟨w⟩] :=
  ⟨_, fn_modFn (s := s.arbitrate 1 fn) (g := fun f => ({ f with faults := f.faults ++ [⟨w⟩] } : Fn).deliver) h
    (fun _ hf => (deliver_n _).trans hf), deliver_faults (f := { f with faults := f.faults ++ [⟨w⟩] }) hq⟩

theorem watchdogDue_reported {n : Nat} (h : (s.coreOf n).pw.reported = true) : s.watchdogDue n = false := by
  rw [State.watchdogDue]
  simp [h]

theorem asid_of {c : Core} {u : UnitInfo} (h : c.unit = some u) : c.asid = u.asid := by rw [Core.asid, h, Option.map_some, Option.getD_some]

/-- A watchdog that is due reports, where the function has room for the record. -/
theorem execWatchdogExpiry_reports {n : Nat} (due : s.watchdogDue n = true) (room : s.faultsFull (s.fnOf (s.coreOf n).asid) = false) :
    execWatchdogExpiry n s = .next ((s.postFault (s.fnOf (s.coreOf n).asid) (faultWords 3 0 (s.coreOf n).asid
      (BitVec.ofNat 64 (s.coreOf n).pw.stall) 0 (s.coreOf n).ctl.pc (((s.coreOf n).unit.map (·.launch)).getD 0) n)).modCore n reportedCore) :=
  if_neg (by rw [due, room]; exact Bool.false_ne_true)

theorem faultsFull_room {fn : Nat} {f : Fn} (h : s.fn fn = some f) (hl : f.faults.length < 256) : s.faultsFull fn = false := by
  rw [State.faultsFull, show s.fns.find? (·.n == fn) = some f from h, Option.map_some, Option.getD_some]
  exact decide_eq_false (by omega)

theorem execCurLimitBaseSet_judges (n : Nat) (v : Word) : execCurLimitBaseSet n v s =
    if 2 ^ 29 ≤ v.toNat ∨ v.extractLsb' 13 3 ≠ 0 ∨ 5824 < (v.extractLsb' 0 13).toNat ∨ 5824 < (v.extractLsb' 16 13).toNat then .next s
    else .next (s.modCore n (fun c => { c with sys := { c.sys with
      limitBase := if (v.extractLsb' 0 13).toNat < 91 then 91 else (v.extractLsb' 0 13).toNat, slopeBase := (v.extractLsb' 16 13).toNat } })) := by
  have high : (field v 29 35 != 0) = decide (2 ^ 29 ≤ v.toNat) := by
    have := v.isLt
    rw [Bool.eq_iff_iff, bne_iff_ne, decide_eq_true_eq, ne_eq, ← BitVec.toNat_inj, toNat_field]
    change ¬v.toNat / 2 ^ 29 % 2 ^ 35 = 0 ↔ _
    omega
  have floor (n : Nat) : max 91 n = if n < 91 then 91 else n := by
    split <;> omega
  rw [execCurLimitBaseSet]
  dsimp only
  rw [high, floor]
  exact if_congr (by simp [field, or_assoc, bne_iff_ne]) rfl rfl

end Power

/-- Settles O50: the ring's period, the over-cap limit, the registers, low voltage, watchdogs and base limits. -/
theorem powerEvents : Obligations.PowerEvents := by
  unfold Obligations.PowerEvents
  refine ⟨?_, ?_, ?_, ?_, ?_, ?_, ?_⟩
  · intro demand used s h8 dies spare owed wants
    have kept := ringPassed_diesOnly (s := s) demand used
    refine ⟨_, execPowerRingPeriod_passes demand used h8, rfl, congrArg (· + 100) kept.pticks, kept.core, fun d hd => ?_,
      ringPassed_taken demand used h8, fun hd => ?_⟩
    · have live : d < 8 ∧ d ∉ s.fenced := by simpa [dies] using hd
      obtain ⟨left, taken⟩ := ringPassed_die demand used h8 live
      obtain ⟨base, take, budget, debt, drawn, caplim⟩ := take_close (s.die d) (demand.getD d 0) (used.getD d 0) left
      rw [← taken] at base take budget debt drawn caplim
      exact ⟨base, take.trans_le (Nat.min_le_left ..), budget, debt, drawn, caplim⟩
    · have live : (s.power.period + 1) % 8 ∉ s.fenced := by
        simpa [dies, Nat.mod_lt] using hd
      exact (congrArg DiePower.taken (ringPassed_first demand used h8 live)).trans (take_close ..).2.1
  · intro d s
    refine ⟨fun h h2 => congrArg Host.Outcome.next (if_pos (by simp [h, h2])), fun h => congrArg Host.Outcome.next (if_neg ?_)⟩
    obtain h | h := h
    · simp [h]
    · simp
      omega
  · intro d v s cap hub bases u
    have capped := tryPower_takes (s := s) (p := { s.power with hub := hub, cap := cap })
    have exceeding := tryPower_refuses (s := s) (p := { s.power with hub := hub, cap := cap })
    refine ⟨capped, exceeding, tryPower_takes (p := u.power), tryPower_refuses (p := u.power), ?_⟩
    change Host.Outcome.next _ = _
    rw [zext_eq_setWidth v (by omega)]
  · intro d col f s hd hcol h20 h90 h8
    have ok : freqOk f = true := by simp [freqOk, h20, h90]
    have run : exec (.voltageLow d col f) s = .next ((s.modDie d (fun x => { x with freqLimit := min x.freqLimit f })).emergency f) :=
      if_neg (by simp [ok]; omega)
    refine ⟨_, run, ?_, rfl, ?_, rfl⟩
    · exact congrArg DiePower.freqLimit ((die_modDie (fun x => { x with freqLimit := min x.freqLimit f }) (by omega) d).trans (if_pos rfl))
    · exact (Nat.min_le_right _ _).trans (Nat.min_le_right _ _)
  · intro fn v s f hf
    refine ⟨_, _, rfl, fn_modFn (g := fun f => { f with wdogEn := bitAt v 6, wdogExp := min 48 (max 20 (field v 0 6).toNat) }) hf (fun _ h => h),
      rfl, ?_⟩
    change min 48 (max 20 (v.extractLsb' 0 6).toNat) = _
    split_ifs <;> omega
  · intro n s f u k home hn hu hf hq hlen due
    have asid : (s.coreOf n).asid = u.asid := asid_of hu
    have room : s.faultsFull (s.fnOf (s.coreOf n).asid) = false := by
      rw [asid]
      exact faultsFull_room hf hlen
    have words : faultWords 3 0 (s.coreOf n).asid (BitVec.ofNat 64 (s.coreOf n).pw.stall) 0 (s.coreOf n).ctl.pc
        (((s.coreOf n).unit.map (·.launch)).getD 0) n = [BitVec.ofNat 64 (3 * 2 ^ 48 + u.asid), BitVec.ofNat 64 k.pw.stall, 0, k.ctl.pc,
          BitVec.ofNat 64 (u.launch % 2 ^ 32 * 2 ^ 32 + n), 0, 0, 0] := by
      rw [faultWords, asid, show (s.coreOf n).unit = some u from hu, if_neg (show ¬plinthId ≤ n by rw [plinthId]; omega)]
      rfl
    have run := execWatchdogExpiry_reports due room
    rw [words, asid] at run
    obtain ⟨g, hg, faults⟩ := postFault_reports hf hq [BitVec.ofNat 64 (3 * 2 ^ 48 + u.asid), BitVec.ofNat 64 k.pw.stall, 0, k.ctl.pc,
      BitVec.ofNat 64 (u.launch % 2 ^ 32 * 2 ^ 32 + n), 0, 0, 0]
    have core (w : List Word) : ((s.postFault (s.fnOf u.asid) w).modCore n reportedCore).coreOf n = reportedCore k :=
      (coreOf_modCore (s.postFault (s.fnOf u.asid) w) n n reportedCore home).trans (if_pos rfl)
    refine ⟨_, g, run, core _, State.modCore_mem .., ?_, faults, watchdogDue_reported (by rw [core]; rfl)⟩
    rw [State.fn, State.modCore_fns]
    exact hg
  · intro n v s limit slope
    refine ⟨fun h29 h13 hl hs => (execCurLimitBaseSet_judges n v).trans (if_neg ?_), fun h => (execCurLimitBaseSet_judges n v).trans (if_pos h)⟩
    simp only [not_or, not_le, not_lt, ne_eq, not_not]
    exact ⟨h29, h13, hl, hs⟩

end Sys2Proof.Proofs

namespace Sys2Proof.Proofs

open Sys2Proof Sys2Proof.Machine Sys2Proof.Laws

/-! ## The lintel (R413 to R419) -/

section Lintel

variable {l : Lintel} {me t p c : Nat}

/-- What stands at t: G the least ceiling of the live members, the package at the lesser of G and its own limit. -/
def Stands (k : Lintel) (me t : Nat) : Prop :=
  k.applied = min k.g k.own ∧ (k.has me = false → k.g = 90) ∧
    (k.has me = true → (∃ m ∈ k.members, k.g = k.ceiling t m) ∧ ∀ m ∈ k.members, k.g ≤ k.ceiling t m)

theorem settle_stands (l : Lintel) (me t : Nat) : Stands (l.settle me t) me t := by
  have lone (h : l.has me = false) : (l.settle me t).g = 90 := if_neg (show ¬Lintel.has _ me = true from Bool.eq_false_iff.mp h)
  have least (h : l.has me = true) : (l.settle me t).g = ((l.members.map ((l.settle me t).ceiling t)).min?).getD 90 :=
    if_pos (show Lintel.has _ me = true from h)
  refine ⟨rfl, lone, fun h => ?_⟩
  obtain ⟨x, hx, _⟩ := List.any_eq_true.mp h
  obtain ⟨g, hg⟩ : ∃ g, (l.members.map ((l.settle me t).ceiling t)).min? = some g := by
    cases hm : (l.members.map ((l.settle me t).ceiling t)).min? with
    | none => exact absurd (List.map_eq_nil_iff.mp (List.min?_eq_none_iff.mp hm)) (List.ne_nil_of_mem hx)
    | some g => exact ⟨g, rfl⟩
  rw [least h, hg, Option.getD_some]
  rw [List.min?_eq_some_iff] at hg
  obtain ⟨hmem, hle⟩ := hg
  obtain ⟨m, hm, rfl⟩ := List.mem_map.mp hmem
  exact ⟨⟨m, hm, rfl⟩, fun m' hm' => hle _ (List.mem_map_of_mem hm')⟩

/-! Notices in force (R414). -/

/-- A package's newest notice in force is the only one of its that stands. -/
theorem standing_newest {n : Notice} (hn : n.t ≤ t) : ∀ ns : List Notice,
    (standing t (ns ++ [n])).filter (fun m => m.pkg == n.pkg && m.t ≤ t) = [n]
  | [] => by
    simp [standing, hn]
  | m :: ns => by
    rw [List.cons_append, standing]
    split
    · exact standing_newest hn ns
    next h =>
      have other : m.pkg ≠ n.pkg := fun hp => h (List.any_eq_true.mpr ⟨n, List.mem_append_right _ List.mem_cons_self, by simp [hp, hn]⟩)
      rw [List.filter_cons_of_neg (by simp [other])]
      exact standing_newest hn ns

theorem ceiling_newest {k : Lintel} {n : Notice} {ns : List Notice} (hk : k.notices = standing t (ns ++ [n])) (hn : n.t ≤ t) (x : Nat) :
    k.ceiling t (n.pkg, x) = min x n.ceiling := by
  rw [Lintel.ceiling, hk, standing_newest hn ns]
  rfl

/-- A package's ceiling lowered, what stands seen to. -/
def Lowered (l k : Lintel) (me t p c : Nat) : Prop := Stands k me t ∧ k.members = l.members ∧ ∀ x, k.ceiling t (p, x) = min x c

theorem settle_lowered {k : Lintel} {n : Notice} {ns : List Notice} (hm : k.members = l.members) (hk : k.notices = ns ++ [n]) (hn : n.t ≤ t) :
    Lowered l (k.settle me t) me t n.pkg n.ceiling :=
  ⟨settle_stands k me t, hm, ceiling_newest (congrArg (standing t) hk) hn⟩

theorem hears_eq (l : Lintel) (p t : Nat) : ∃ h, l.hears p t = { l with heard := h } := by
  rw [Lintel.hears]
  split
  · exact ⟨_, rfl⟩
  · exact ⟨l.heard, rfl⟩

theorem hears_heard (h : l.has p = true) : lookup (l.hears p t).heard p = some t := by
  rw [Lintel.hears, if_pos h]
  exact lookup_assocSet_self ..

theorem freqOk_of {f : Nat} (h20 : 20 ≤ f) (h90 : f ≤ 90) : freqOk f = true := by simp [freqOk, h20, h90]

end Lintel

/-! Reference time (R414, R415). -/

section Time

variable {s : State}

/-- The next epoch boundary. -/
def nextEpoch (s : State) : Nat := (s.refTime / 1000000 + 1) * 1000000

theorem nextEpoch_ahead (s : State) : s.refTime < nextEpoch s ∧ nextEpoch s ≤ s.refTime + 1000000 := by
  rw [nextEpoch]
  omega

/-- Time passed without an epoch boundary. -/
def passed (s : State) (t : Nat) : State :=
  { s with refTime := max s.refTime t, lintel := s.lintel.pass s.fabric.pkg s.refTime (max s.refTime t) }

theorem passTo_within {t : Nat} (fuel : Nat) (h : t < nextEpoch s) : s.passTo t (fuel + 1) = passed s t :=
  if_neg (show ¬nextEpoch s ≤ t by omega)

/-- An epoch boundary passed. -/
def atBoundary (s : State) : State :=
  let u : State := { s with refTime := nextEpoch s, lintel := s.lintel.epochAt s.fabric.pkg s.refTime (nextEpoch s) }
  if s.lintel.has s.fabric.pkg || u.lintel.has s.fabric.pkg then u.arbitrate 3 s.fabric.pkg else u

theorem passTo_across {t : Nat} (fuel : Nat) (h : nextEpoch s ≤ t) : s.passTo t (fuel + 1) = (atBoundary s).passTo t fuel := if_pos h

theorem atBoundary_frame (s : State) : (atBoundary s).core = s.core ∧ (atBoundary s).refTime = nextEpoch s ∧
    (atBoundary s).fabric = s.fabric ∧ (atBoundary s).lintel = s.lintel.epochAt s.fabric.pkg s.refTime (nextEpoch s) := by
  rw [atBoundary]
  dsimp only
  split <;> exact ⟨rfl, rfl, rfl, rfl⟩

theorem atBoundary_arb (h : s.lintel.has s.fabric.pkg = true) : (atBoundary s).arb = s.arb + 1 := by
  rw [atBoundary]
  dsimp only
  rw [if_pos (by rw [h, Bool.true_or])]
  rfl

theorem advance_within {t : Nat} (h : t < nextEpoch s) : s.advance t = passed s t := passTo_within _ h

theorem advance_next (s : State) : s.advance (nextEpoch s) = passed (atBoundary s) (nextEpoch s) := by
  obtain ⟨_, refTime, _, _⟩ := atBoundary_frame s
  have ahead := nextEpoch_ahead (atBoundary s)
  rw [State.advance, passTo_across _ le_rfl]
  exact passTo_within _ (by omega)

/-- No more than one boundary lies in 10 µs. -/
theorem advance_heartbeat (s : State) : (s.advance (s.refTime + 10000)).refTime = s.refTime + 10000 ∧
    (s.advance (s.refTime + 10000)).core = s.core := by
  by_cases h : s.refTime + 10000 < nextEpoch s
  · rw [advance_within h]
    exact ⟨Nat.max_eq_right (by omega), rfl⟩
  · obtain ⟨core, refTime, _, _⟩ := atBoundary_frame s
    have here := nextEpoch_ahead s
    have ahead := nextEpoch_ahead (atBoundary s)
    have apart : nextEpoch (atBoundary s) = nextEpoch s + 1000000 := by
      rw [nextEpoch, refTime, nextEpoch]
      omega
    rw [State.advance, passTo_across (s := s) (t := s.refTime + 10000) _ (by omega)]
    have run : (atBoundary s).passTo (s.refTime + 10000) ((s.refTime + 10000 - s.refTime) / epochLength + 1) =
        passed (atBoundary s) (s.refTime + 10000) := passTo_within (s := atBoundary s) (t := s.refTime + 10000) _ (by omega)
    rw [run]
    exact ⟨Nat.max_eq_right (show (atBoundary s).refTime ≤ s.refTime + 10000 by omega), core⟩

end Time

/-! The record of an epoch (R415, R418). -/

section Epochs

variable {s : State} {l k : Lintel} {me old t : Nat}

/-- Whether a change reached the leader 50 µs before the boundary. -/
def countedBy (t : Nat) (c : Change) : Bool := decide (c.at_ + noticeLead ≤ t)

/-- The lintel without its silent members, and without the changes that the boundary takes. -/
def beforeRecord (l : Lintel) (t : Nat) : Lintel :=
  { l with members := l.members.filter (fun m => !(l.silent.contains m.1)), changes := l.changes.filter (fun c => !(countedBy t c)) }

/-- What the changes of a boundary make of the lintel. -/
def changed (l : Lintel) (t : Nat) : Lintel := (l.changes.filter (countedBy t)).foldl (Change.apply t) (beforeRecord l t)

theorem epochAt_stays (h : (changed l t).has me = true) : l.epochAt me old t =
    { (changed l t).pass me old t with
      leader := ((((changed l t).pass me old t).members.map (·.1)).min?).getD me, epoch := ((changed l t).pass me old t).epoch + 1 } := if_pos h

/-- What a boundary's record leaves, where the package stays a member: `k` is the lintel with the record's changes. -/
structure Recorded (s : State) (k : Lintel) (u : State) : Prop where
  core : u.core = s.core
  refTime : u.refTime = nextEpoch s
  arb : u.arb = s.arb + 1
  epoch : u.lintel.epoch = k.epoch + 1
  members : u.lintel.members = k.members
  stands : Stands u.lintel s.fabric.pkg (nextEpoch s)
  changes : u.lintel.changes = k.changes
  leader : ∀ m ∈ k.members, u.lintel.leader ≤ m.1
  notices : u.lintel.notices = standing (nextEpoch s) (standing (nextEpoch s) k.notices)

theorem least_leader (ms : List (Nat × Nat)) (me : Nat) : ∀ m ∈ ms, ((ms.map (·.1)).min?).getD me ≤ m.1 := fun m hm => by
  cases h : (ms.map (·.1)).min? with
  | none => exact absurd (List.map_eq_nil_iff.mp (List.min?_eq_none_iff.mp h)) (List.ne_nil_of_mem hm)
  | some g => exact (List.min?_eq_some_iff.mp h).2 _ (List.mem_map_of_mem hm)

/-- A package that does not lead hears from its leader. -/
def hearsLeader (a : State) : State := a.mapLintel (fun l => if l.leader == a.fabric.pkg then l else l.hears l.leader a.refTime)

theorem hearsLeader_eq (a : State) : ∃ h, hearsLeader a = { a with lintel := { a.lintel with heard := h } } := by
  by_cases leads : (a.lintel.leader == a.fabric.pkg) = true
  · refine ⟨a.lintel.heard, ?_⟩
    rw [hearsLeader, State.mapLintel, if_pos leads]
  · obtain ⟨h, heard⟩ := hears_eq a.lintel a.lintel.leader a.refTime
    refine ⟨h, ?_⟩
    rw [hearsLeader, State.mapLintel, if_neg leads, heard]

theorem execEpochBoundary_eq (s : State) : execEpochBoundary s = .next (hearsLeader (s.advance (nextEpoch s))) := by
  rw [execEpochBoundary]
  exact congrArg (fun n => Host.Outcome.next (hearsLeader (s.advance n))) rfl

theorem execEpochBoundary_records (hme : s.lintel.has s.fabric.pkg = true) (hk : changed s.lintel (nextEpoch s) = k)
    (hkme : k.has s.fabric.pkg = true) : ∃ u, execEpochBoundary s = .next u ∧ Recorded s k u := by
  subst hk
  obtain ⟨core, refTime, fabric, lintel⟩ := atBoundary_frame s
  rw [epochAt_stays hkme] at lintel
  have arb := atBoundary_arb hme
  obtain ⟨h, heard⟩ := hearsLeader_eq (passed (atBoundary s) (nextEpoch s))
  refine ⟨_, (execEpochBoundary_eq s).trans (congrArg Host.Outcome.next ((congrArg hearsLeader (advance_next s)).trans heard)), ?_⟩
  generalize atBoundary s = a at *
  have now : max a.refTime (nextEpoch s) = nextEpoch s := by rw [refTime, Nat.max_self]
  exact {
    core := core
    refTime := now
    arb := arb
    epoch := (congrArg Lintel.epoch lintel :)
    members := (congrArg Lintel.members lintel :)
    stands := by
      have stood : Stands (a.lintel.pass a.fabric.pkg a.refTime (max a.refTime (nextEpoch s))) s.fabric.pkg (nextEpoch s) := by
        rw [fabric, now]
        exact settle_stands ..
      exact stood
    changes := (congrArg Lintel.changes lintel :)
    leader := fun m hm => (congrArg Lintel.leader lintel).trans_le (least_leader _ _ m hm)
    notices := by
      have stood : standing (max a.refTime (nextEpoch s)) a.lintel.notices =
          standing (nextEpoch s) (standing (nextEpoch s) (changed s.lintel (nextEpoch s)).notices) := by
        rw [now, lintel]
        rfl
      exact stood }

end Epochs

/-! ## Collectives that end (R410, R418) -/

section Colls

variable {s : State}

theorem writeCell_frame (s : State) (asid va : Nat) (w : Word) :
    ∃ m l p, s.writeCell asid va w = { s with mem := m, sealed := l, poisoned := p } := by
  rw [State.writeCell]
  split
  · exact storeAt_frame ..
  · exact ⟨s.mem, s.sealed, s.poisoned, rfl⟩

/-- The end of a collective changes its cell, the posts sent and the list of those that run. -/
theorem endColl_frame (s : State) (c : Coll) (status : Nat) : ∃ m l p d, s.endColl c status = { s with
    mem := m, sealed := l, poisoned := p, disp := d, fabric := { s.fabric with colls := s.fabric.colls.filter (·.ch != c.ch) } } := by
  have cell : ∃ m l p, (if cCell c.desc % 8 == 0 then
      (s.mapFabric (fun f => { f with colls := f.colls.filter (·.ch != c.ch) })).writeCell c.asid (cCell c.desc)
        (BitVec.ofNat 64 (cSeq c.desc * 2 ^ 32 + 256 + status))
      else s.mapFabric (fun f => { f with colls := f.colls.filter (·.ch != c.ch) })) =
      { s with mem := m, sealed := l, poisoned := p, fabric := { s.fabric with colls := s.fabric.colls.filter (·.ch != c.ch) } } := by
    split
    · obtain ⟨m, l, p, h⟩ := writeCell_frame (s.mapFabric (fun f => { f with colls := f.colls.filter (·.ch != c.ch) })) c.asid (cCell c.desc)
        (BitVec.ofNat 64 (cSeq c.desc * 2 ^ 32 + 256 + status))
      exact ⟨m, l, p, h⟩
    · exact ⟨s.mem, s.sealed, s.poisoned, rfl⟩
  obtain ⟨m, l, p, cell⟩ := cell
  rw [State.endColl, State.finishColl]
  dsimp only
  rw [cell]
  cases c.dest with
  | none => exact ⟨m, l, p, s.disp, rfl⟩
  | some f => exact ⟨m, l, p, _, rfl⟩

/-- Collectives ended one after another. -/
theorem endColls_frame (status : Nat) : ∀ (cs : List Coll) (s : State),
    (cs.foldl (·.endColl · status) s).core = s.core ∧ (cs.foldl (·.endColl · status) s).arb = s.arb ∧
    (cs.foldl (·.endColl · status) s).lintel = s.lintel ∧
    (cs.foldl (·.endColl · status) s).fabric.colls = s.fabric.colls.filter (fun x => cs.all (fun c => x.ch != c.ch))
  | [], s => ⟨rfl, rfl, rfl, by simp⟩
  | c :: cs, s => by
    obtain ⟨m, l, p, d, ended⟩ := endColl_frame s c status
    obtain ⟨core, arb, lintel, colls⟩ := endColls_frame status cs (s.endColl c status)
    rw [List.foldl_cons, core, arb, lintel, colls, ended]
    refine ⟨rfl, rfl, rfl, ?_⟩
    rw [List.filter_filter]
    exact List.filter_congr fun x _ => by rw [List.all_cons, Bool.and_comm]

/-- Of the collectives those stay whose channel names no silent package. -/
theorem silenceColls_frame (s : State) : s.silenceColls.core = s.core ∧ s.silenceColls.arb = s.arb ∧ s.silenceColls.lintel = s.lintel ∧
    s.silenceColls.fabric.colls = s.fabric.colls.filter (fun c => !(s.namesSilent c.ch)) := by
  obtain ⟨core, arb, lintel, colls⟩ := endColls_frame 0x20 (s.fabric.colls.filter (fun c => s.namesSilent c.ch)) s
  refine ⟨core, arb, lintel, colls.trans (List.filter_congr fun x hx => ?_)⟩
  rw [Bool.eq_iff_iff, List.all_eq_true, Bool.not_eq_true']
  constructor
  · intro h
    cases named : s.namesSilent x.ch with
    | false => rfl
    | true => exact absurd (h x (List.mem_filter.mpr ⟨hx, named⟩)) (by simp)
  · intro h c hc
    rw [bne_iff_ne]
    intro same
    have named := (List.mem_filter.mp hc).2
    rw [← same, h] at named
    exact Bool.false_ne_true named

end Colls

section Changes

variable {l : Lintel} {t me : Nat}

theorem changed_none (h : l.changes = []) : changed l t = beforeRecord l t := by
  rw [changed, h]
  rfl

theorem changed_counted {c : Change} (h : l.changes = [c]) (hc : c.at_ + 50000 ≤ t) : changed l t = Change.apply t (beforeRecord l t) c := by
  have counted : countedBy t c = true := decide_eq_true hc
  rw [changed, h, List.filter_cons_of_pos counted]
  rfl

theorem changed_late {c : Change} (h : l.changes = [c]) (hc : t < c.at_ + 50000) : changed l t = beforeRecord l t := by
  have late : ¬countedBy t c = true := by
    rw [countedBy, decide_eq_true_eq, noticeLead]
    omega
  rw [changed, h, List.filter_cons_of_neg late]
  rfl

theorem changes_counted {c : Change} (h : l.changes = [c]) (hc : c.at_ + 50000 ≤ t) : (beforeRecord l t).changes = [] := by
  have counted : countedBy t c = true := decide_eq_true hc
  change l.changes.filter (fun c => !(countedBy t c)) = []
  rw [h, List.filter_cons_of_neg (by simp [counted])]
  rfl

theorem changes_late {c : Change} (h : l.changes = [c]) (hc : t < c.at_ + 50000) : (beforeRecord l t).changes = l.changes := by
  have late : countedBy t c = false := decide_eq_false (by rw [noticeLead]; omega)
  change l.changes.filter (fun c => !(countedBy t c)) = l.changes
  rw [h, List.filter_cons_of_pos (by simp [late])]
  rfl

theorem mem_has {k : Lintel} {x : Nat} (h : (me, x) ∈ k.members) : k.has me = true := List.any_eq_true.mpr ⟨_, h, beq_self_eq_true _⟩

theorem has_mem {k : Lintel} (h : k.has me = true) : ∃ x, (me, x) ∈ k.members := by
  obtain ⟨m, hm, e⟩ := List.any_eq_true.mp h
  exact ⟨m.2, by rw [← beq_iff_eq.mp e]; exact hm⟩

theorem raised_members (k : Lintel) (p c r : Nat) :
    (Change.apply t k ⟨0, p, c, r⟩).members = k.members.map (fun m => if m.1 = p then (m.1, c) else m) :=
  List.map_congr_left fun _ _ => if_congr beq_iff_eq rfl rfl

/-- A member that is not silent stays one through the record. -/
theorem beforeRecord_mem {x : Nat} (h : (me, x) ∈ l.members) (hs : me ∉ l.silent) : (me, x) ∈ (beforeRecord l t).members :=
  List.mem_filter.mpr ⟨h, by simpa using hs⟩

end Changes

section Events

variable {s : State} {p c t : Nat}

/-- The lintel with a notice more. -/
def noticed (k : Lintel) (me p c t now : Nat) : Lintel := ({ k with notices := k.notices ++ [⟨p, c, t, now⟩] } : Lintel).settle me now

theorem execLoweringNotice_arrives (hp : s.lintel.has p = true) (hc : freqOk c = true) (hne : p ≠ s.fabric.pkg) : execLoweringNotice p c t s =
    .next (({ s with lintel := noticed (s.lintel.hears p s.refTime) s.fabric.pkg p c t s.refTime } : State).arbitrate 2 p) := by
  have other : (p == s.fabric.pkg) = false := beq_false_of_ne hne
  rw [execLoweringNotice, hp, hc, other]
  rfl

theorem execLoweringNotice_own (hp : s.lintel.has p = true) (hc : freqOk c = true) (he : p = s.fabric.pkg) (ht : s.refTime + 50000 ≤ t) :
    execLoweringNotice p c t s = .next { s with lintel := noticed s.lintel s.fabric.pkg p c t s.refTime } := by
  have own : (p == s.fabric.pkg) = true := beq_iff_eq.mpr he
  have ahead : decide (t < s.refTime + noticeLead) = false := decide_eq_false (by rw [noticeLead]; omega)
  rw [execLoweringNotice, hp, hc, own]
  dsimp only
  rw [ahead]
  rfl

theorem execLoweringNotice_near (he : p = s.fabric.pkg) (ht : t < s.refTime + 50000) : execLoweringNotice p c t s = .next s :=
  if_pos (by simp [he, noticeLead, ht])

theorem execLoweringNoticeDue_none (h : ∀ n ∈ s.lintel.notices, n.t ≤ s.refTime) : execLoweringNoticeDue s = .next s := by
  have none_ahead : (s.lintel.notices.map (·.t)).filter (s.refTime < ·) = [] := List.filter_eq_nil_iff.mpr fun x hx => by
    obtain ⟨n, hn, rfl⟩ := List.mem_map.mp hx
    simpa using h n hn
  rw [execLoweringNoticeDue, none_ahead]
  rfl

theorem execLoweringNoticeDue_next {n : Notice} (h : s.lintel.notices = [n]) (ht : s.refTime < n.t) :
    execLoweringNoticeDue s = .next (s.advance n.t) := by
  have ahead : ((s.lintel.notices.map (·.t)).filter (s.refTime < ·)).min? = some n.t := by
    rw [h, List.map_cons, List.map_nil, List.filter_cons_of_pos (p := fun x => decide (s.refTime < x)) (decide_eq_true ht)]
    rfl
  rw [execLoweringNoticeDue, ahead, Option.map_some, Option.getD_some]

/-- The one notice falls due. -/
theorem pass_due {l : Lintel} {n : Notice} (me : Nat) {old : Nat} (h : l.notices = [n]) (ht : old < n.t) :
    Lowered l (l.pass me old n.t) me n.t n.pkg n.ceiling ∧ (l.pass me old n.t).own = if n.pkg = me then n.ceiling else l.own := by
  refine ⟨settle_lowered (ns := []) rfl h le_rfl, ?_⟩
  have mine : (standing n.t l.notices).filter (fun m => m.pkg == me && old < m.t && m.t ≤ n.t) = if n.pkg = me then [n] else [] := by
    have alone : standing n.t [n] = [n] := rfl
    rw [h, alone]
    by_cases hp : n.pkg = me <;> simp [hp, ht]
  change ((((standing n.t l.notices).filter (fun m => m.pkg == me && old < m.t && m.t ≤ n.t)).getLast?).map (·.ceiling)).getD l.own = _
  rw [mine]
  split <;> rfl

theorem execRaiseJoinLeave_notes {kind : Nat} (h : kind = 2 ∨ kind < 2 ∧ freqOk c = true) : ∃ x, execRaiseJoinLeave kind p c s = .next
    { s with lintel := { s.lintel with
      heard := x, changes := s.lintel.changes ++ [⟨kind, p, c, s.refTime⟩],
      own := if kind == 0 && p == s.fabric.pkg then max s.lintel.own c else s.lintel.own,
      applied := min s.lintel.g (if kind == 0 && p == s.fabric.pkg then max s.lintel.own c else s.lintel.own) } } := by
  have taken : ¬(decide (kind > 2) || (kind != 2 && !(freqOk c))) = true := by
    obtain rfl | ⟨hk, hc⟩ := h
    · simp
    · simp [hc]
      omega
  rw [execRaiseJoinLeave, if_neg taken, State.mapLintel]
  by_cases hp : (p == s.fabric.pkg) = true
  · rw [if_pos hp]
    exact ⟨s.lintel.heard, rfl⟩
  · obtain ⟨x, heard⟩ := hears_eq s.lintel p s.refTime
    rw [if_neg hp, heard]
    exact ⟨x, rfl⟩

/-- The lintel once a member is declared silent. -/
def silenced (k : Lintel) (p : Nat) : Lintel := { k with silent := k.silent ++ [p], silenced := min (k.silenced + 1) 65535 }

theorem execMemberSilent_declares (hp : s.lintel.has p = true) (hs : p ∉ s.lintel.silent)
    (hq : s.lintel.leader ≠ s.fabric.pkg ∨ p ≠ s.fabric.pkg ∧ s.unheard p = true) : execMemberSilent p s = .next
    (({ s with lintel := silenced (if s.lintel.leader = s.fabric.pkg then s.lintel else s.lintel.hears s.lintel.leader s.refTime) p } :
      State).silenceColls.arbitrate 4 p) := by
  have taken : ¬(!(s.lintel.has p) || s.lintel.silent.contains p ||
      (s.lintel.leader == s.fabric.pkg && (p == s.fabric.pkg || !(s.unheard p)))) = true := by
    rw [hp]
    obtain h | ⟨h, hu⟩ := hq <;> simp [*]
  rw [execMemberSilent, if_neg taken]
  by_cases h : s.lintel.leader = s.fabric.pkg
  · rw [if_pos h, h, beq_self_eq_true]
    rfl
  · rw [if_neg h, beq_false_of_ne h]
    rfl

theorem execLeaderTimeout_succeeds {n : Nat} (hme : s.lintel.has s.fabric.pkg = true) (hl : s.lintel.leader ≠ s.fabric.pkg)
    (hu : s.unheard s.lintel.leader = true) (hn : s.lintel.successor = some n) :
    execLeaderTimeout s = .next { s with lintel := { s.lintel with leader := n } } := by
  rw [execLeaderTimeout, if_neg (by simp [hme, hl, hu]), hn]
  rfl

/-- A package that has left its group. -/
def isolated (s : State) : State :=
  { s with lintel := { s.lintel.alone s.fabric.pkg s.refTime with silent := s.lintel.silent.filter (· != s.fabric.pkg) ++ [s.fabric.pkg] } }

theorem execMemberIsolated_leaves (hme : s.lintel.has s.fabric.pkg = true)
    (hl : s.lintel.leader ≠ s.fabric.pkg ∧ s.unheard s.lintel.leader = true)
    (hn : ∀ n, s.lintel.successor = some n → n ≠ s.fabric.pkg ∧ s.unheard n = true) :
    execMemberIsolated s = .next ((isolated s).silenceColls.arbitrate 4 s.fabric.pkg) := by
  have quiet : (s.lintel.successor.map (fun n => n != s.fabric.pkg && s.unheard n)).getD true = true := by
    cases h : s.lintel.successor with
    | none => rfl
    | some n => simp [hn n h]
  rw [execMemberIsolated, if_neg (by rw [hme, quiet]; simp [hl])]
  rfl

theorem execUrgentNotice_applies {f : Nat} (hp : s.lintel.has p = true) (hne : p ≠ s.fabric.pkg) (hf : freqOk f = true) :
    execUrgentNotice p f s = .next ((({ s with lintel := { (s.lintel.hears p s.refTime).urgent s.fabric.pkg p f s.refTime with
      breach := min (s.lintel.breach + 1) 65535 } } : State).arbitrate 2 p).arbitrate 5 p) := by
  rw [execUrgentNotice, if_neg (by simp [hp, hne, hf])]
  rfl

end Events

/-- Settles O49: notices, the epoch's record, heartbeats, silence, succession and emergencies of the lintel. -/
theorem lintelEvents : Obligations.LintelEvents := by
  unfold Obligations.LintelEvents
  intro s l me now ans stands lowered next quiet
  refine ⟨?_, ?_, ?_, ?_, ?_, ?_, ?_, ?_, ?_, ?_, ?_⟩
  · intro p c t hp h20 h90 noted
    have noted_of (k : Lintel) (u : State) (hk : k.members = l.members ∧ k.own = l.own ∧ k.notices = l.notices ++ [⟨p, c, t, now⟩])
        (hu : u.lintel = k.settle me now) : noted u := by
      obtain ⟨members, own, notices⟩ := hk
      dsimp only [noted]
      rw [hu]
      exact ⟨members, own, settle_stands k me now, congrArg (standing now) notices,
        fun ht => settle_lowered (n := ⟨p, c, t, now⟩) members notices ht⟩
    refine ⟨fun hne => ?_, fun he ht => ?_, fun he ht => execLoweringNotice_near he ht⟩
    · obtain ⟨x, heard⟩ := hears_eq l p now
      refine ⟨_, execLoweringNotice_arrives hp (freqOk_of h20 h90) hne, rfl,
        noted_of { l with heard := x, notices := l.notices ++ [⟨p, c, t, now⟩] } _ ⟨rfl, rfl, rfl⟩ ?_, ?_, rfl⟩
      · exact congrArg (fun k => noticed k me p c t now) heard
      · exact hears_heard (l := l) hp
    · exact ⟨_, execLoweringNotice_own hp (freqOk_of h20 h90) he ht, rfl,
        noted_of { l with notices := l.notices ++ [⟨p, c, t, now⟩] } _ ⟨rfl, rfl, rfl⟩ rfl, rfl⟩
  · exact execLoweringNoticeDue_none
  · intro p c t r hn ht htn
    have run := execLoweringNoticeDue_next (n := ⟨p, c, t, r⟩) hn ht
    obtain ⟨lowered, own⟩ := pass_due me (n := ⟨p, c, t, r⟩) hn ht
    rw [advance_within htn] at run
    have at_t : max s.refTime t = t := Nat.max_eq_right ht.le
    refine ⟨_, run, rfl, ?_⟩
    rw [passed, at_t]
    exact ⟨lowered, own, rfl⟩
  · intro kind p c hk
    obtain ⟨x, run⟩ := execRaiseJoinLeave_notes (s := s) (p := p) (hk.imp_right (And.imp_right fun h => freqOk_of h.1 h.2))
    refine ⟨_, run, rfl, rfl, rfl, rfl, ?_⟩
    exact if_congr (by simp [me]) rfl rfl
  · intro hme hs live record
    obtain ⟨x, hx⟩ := has_mem hme
    have stays : (beforeRecord l next).has me = true := mem_has (beforeRecord_mem hx hs)
    have recorded {k : Lintel} (hk : changed l next = k) (he : k.epoch = l.epoch) (hc : k.changes = [])
        (hkme : k.has me = true) : record k.members := by
      obtain ⟨u, run, u⟩ := execEpochBoundary_records (s := s) hme hk hkme
      exact ⟨_, run, u.core, u.refTime, u.epoch.trans (congrArg (· + 1) he), u.members, u.stands, u.changes.trans hc, u.arb, u.leader⟩
    refine ⟨fun _ hc => ?_, fun p c t r hn ht hc => ?_, fun p c r _ hr => ⟨fun hc => ?_, fun hp hc => ?_, fun hp hc => ?_⟩,
      fun kind p c r _ hr hc => ?_⟩
    · exact recorded (changed_none hc) rfl (by rw [beforeRecord, hc]; rfl) stays
    · obtain ⟨u, run, u⟩ := execEpochBoundary_records (s := s) hme (changed_none hc) stays
      have notices := u.notices
      rw [show (beforeRecord s.lintel (nextEpoch s)).notices = [] ++ [⟨p, c, t, r⟩] from hn] at notices
      exact ⟨_, run, u.core, u.stands, u.members, ceiling_newest (n := ⟨p, c, t, r⟩) (ns := []) notices ht⟩
    · have raised := recorded (changed_counted hc hr) rfl (changes_counted hc hr)
        (mem_has (x := if me = p then c else x) (List.mem_map.mpr ⟨_, beforeRecord_mem hx hs, by
          by_cases hp : me = p <;> simp [hp]⟩))
      rwa [raised_members] at raised
    · exact recorded (changed_counted hc hr) rfl (changes_counted hc hr)
        (mem_has (List.mem_append_left _ (List.mem_filter.mpr ⟨beforeRecord_mem hx hs, bne_iff_ne.mpr (Ne.symm hp)⟩)))
    · exact recorded (changed_counted hc hr) rfl (changes_counted hc hr)
        (mem_has (List.mem_filter.mpr ⟨beforeRecord_mem hx hs, bne_iff_ne.mpr (Ne.symm hp)⟩))
    · obtain ⟨u, run, u⟩ := execEpochBoundary_records (s := s) hme (changed_late hc hr) stays
      exact ⟨_, run, u.core, u.changes.trans (changes_late hc hr), u.members⟩
  · intro p
    refine ⟨fun hp => ?_, fun hp hh => ?_⟩
    · obtain ⟨refTime, core⟩ := advance_heartbeat s
      exact ⟨_, congrArg Host.Outcome.next (if_pos (beq_iff_eq.mpr hp)), core, refTime⟩
    · exact ⟨_, congrArg Host.Outcome.next (if_neg (by simpa using hp)), rfl, hears_heard hh, rfl⟩
  · intro p hp hs hq k v named
    have run := execMemberSilent_declares hp hs (hq.imp_right (And.imp_right decide_eq_true))
    have declared : ({ s with lintel := silenced k p } : State) = v := by
      have kept : k.silent = l.silent ∧ k.silenced = l.silenced := by
        obtain ⟨x, heard⟩ := hears_eq l l.leader now
        dsimp only [k]
        split
        · exact ⟨rfl, rfl⟩
        · rw [heard]
          exact ⟨rfl, rfl⟩
      dsimp only [v]
      rw [silenced, kept.1, kept.2]
    rw [show ({ s with lintel := silenced (if s.lintel.leader = s.fabric.pkg then s.lintel else s.lintel.hears s.lintel.leader s.refTime) p } :
      State) = v from declared] at run
    obtain ⟨core, arb, lintel, colls⟩ := silenceColls_frame v
    refine ⟨⟨_, run, core, lintel, congrArg (· + 1) arb, colls⟩, fun c hc hn => run.trans ?_⟩
    have one : v.fabric.colls.filter (fun c => v.namesSilent c.ch) = [c] := by
      rw [show v.fabric.colls = [c] from hc, List.filter_cons_of_pos (p := fun c : Coll => v.namesSilent c.ch) hn,
        List.filter_nil]
    rw [State.silenceColls, one]
    rfl
  · intro n hme hq hn
    exact execLeaderTimeout_succeeds hme hq.1 (decide_eq_true hq.2) hn
  · intro hme hq hn
    have run := execMemberIsolated_leaves hme ⟨hq.1, decide_eq_true hq.2⟩ (fun n hs => ⟨(hn n hs).1, decide_eq_true (hn n hs).2⟩)
    obtain ⟨core, arb, lintel, _⟩ := silenceColls_frame (isolated s)
    have gone : ({ l with members := l.members.filter (·.1 != me), leader := 0 } : Lintel).has me = false := by
      rw [Lintel.has, List.any_eq_false]
      exact fun m hm => by simpa using (List.mem_filter.mp hm).2
    have own_limit := (settle_stands { l with members := l.members.filter (·.1 != me), leader := 0 } me now)
    refine ⟨_, run, core, ?_⟩
    dsimp only
    rw [show ((isolated s).silenceColls.arbitrate 4 s.fabric.pkg).lintel = (isolated s).lintel from lintel]
    refine ⟨rfl, own_limit.1.trans (by rw [own_limit.2.1 gone]; rfl), rfl, List.mem_append_right _ List.mem_cons_self, congrArg (· + 1) arb⟩
  · intro f h20 h90
    refine ⟨_, congrArg Host.Outcome.next (if_pos (freqOk_of h20 h90)), rfl, ?_, rfl, ?_, rfl⟩
    · exact settle_lowered (n := ⟨me, min l.own f, now, now⟩) rfl rfl le_rfl
    · exact (Nat.min_le_right ..).trans (Nat.min_le_right ..)
  · intro p f hp hne h20 h90
    obtain ⟨x, heard⟩ := hears_eq l p now
    have run := execUrgentNotice_applies hp hne (freqOk_of h20 h90)
    rw [show s.lintel.hears p s.refTime = _ from heard] at run
    have fell := settle_lowered (l := l) (k := { l with heard := x, notices := l.notices.filter (·.pkg != p) ++ [⟨p, f, now, now⟩] })
      (me := me) (n := ⟨p, f, now, now⟩) rfl rfl le_rfl
    refine ⟨_, run, rfl, fell, fun hme => ?_, rfl, rfl, BitVec.add_assoc s.arb 1 1⟩
    obtain ⟨y, hy⟩ := has_mem hp
    have least := (fell.1.2.2 hme).2 _ hy
    rw [fell.2.2 y] at least
    exact (Nat.min_le_left ..).trans (least.trans (Nat.min_le_right ..))

end Sys2Proof.Proofs

namespace Sys2Proof.Proofs

open Sys2Proof Sys2Proof.Machine Sys2Proof.Laws

/-! ## A die fenced under wrong numbers (R421)

A fence takes the units off the cores of its die, which it finds by the numbers the cores give themselves. O47 asks, of every state, its cores
numbered or not, that a core in focus on another die stays as it is. Where a core that takes itself for the die's stands under another number, and
under the die's number one that takes itself for the core in focus, the fence empties the latter, and with it the core in focus. -/

/-- Core 0 at the second bundle; under number 112, of die 1, a core that takes itself for core 0, and one for core 112 elsewhere. -/
def misledFence : State := { State.reset with
  core := { Core.reset 0 with ctl := { (Core.reset 0).ctl with pc := 32 } }
  others := [(112, Core.reset 0), (113, Core.reset 112)] }

/-- Where the core in focus stands in an answer. -/
def placeIn (r : Res) : Word :=
  match r with
  | .next t => t.core.ctl.pc
  | _ => 0

theorem misledFence_moves : placeIn (exec (.dieFence 1) misledFence) = 0 := by decide +kernel

/-- Refutes O47: die 1 is fenced, and core 0 of die 0 does not stay as it is. -/
theorem not_trustEvents : ¬ Obligations.TrustEvents := by
  unfold Obligations.TrustEvents
  rintro ⟨-, -, -, -, -, -, fence, -⟩
  obtain ⟨t, run, -, -, kept, -⟩ := (fence 1 misledFence).1 (by decide) (by decide +kernel) rfl (by decide +kernel)
  have place : placeIn (exec (.dieFence 1) misledFence) = 32 := by
    rw [run]
    exact congrArg (fun c => c.ctl.pc) (kept (by decide +kernel))
  rw [misledFence_moves] at place
  exact absurd place (by decide)

end Sys2Proof.Proofs

namespace Sys2Proof.Proofs

open Sys2Proof Sys2Proof.Machine Sys2Proof.Laws

/-! ## The fabric (R399, R407 to R412, R425) -/

section FabricLinks

variable {s : State} {f : Fabric} {l k : Nat}

theorem mem_filter_ne {ls : List Nat} : k ∈ ls.filter (· != l) ↔ k ∈ ls ∧ k ≠ l := by simp

/-- Links that go down take accesses in flight with them and leave memory. -/
theorem relink_frame (g : Fabric → Fabric) : (s.relink g).fabric = g s.fabric ∧ (s.relink g).mem = s.mem ∧
    ∀ n, (s.relink g).coreOf n = State.losePaths { s with fabric := (s.relink g).fabric } s (s.coreOf n) :=
  ⟨rfl, rfl, coreOf_relink g⟩

/-- A link down: the others stay. -/
theorem links_linkDown (f : Fabric) (h : k ≠ l) : k ∈ (f.linkDown l).links ↔ k ∈ f.links := mem_filter_ne.trans (and_iff_left h)

/-- Link l up. -/
def linkUp (l : Nat) (f : Fabric) : Fabric :=
  { f with links := f.links.filter (· != l) ++ [l], downLinks := f.downLinks.filter (· != l),
           lost := f.lost.filter (fun p => !(Config.pathVia l p)), retries := assocDel f.retries l }

theorem execLinkBringUp_up : execLinkBringUp l true s = .next { s with fabric := linkUp l s.fabric } := rfl

/-- A package lost. -/
def pathLost (p : Nat) (f : Fabric) : Fabric := if f.lost.contains p then f else { f with lost := f.lost ++ [p] }

theorem mem_pathLost : k ∈ (pathLost l f).lost ↔ k = l ∨ k ∈ f.lost := by
  rw [pathLost]
  split
  next h =>
    have lost : l ∈ f.lost := List.contains_iff_mem.mp h
    exact ⟨Or.inr, fun hk => hk.elim (fun e => e ▸ lost) id⟩
  next => simp [or_comm]

theorem pathLost_links : (pathLost l f).links = f.links := by
  rw [pathLost]
  split <;> rfl

end FabricLinks

/-! Bindings (R408). -/

section Bindings

variable {s : State}

/-- Collectives ended leave the bindings, the ports, the package's number and the lintel. -/
theorem endColls_bindings (status : Nat) : ∀ (cs : List Coll) (s : State), ∃ ks,
    (cs.foldl (·.endColl · status) s).fabric = { s.fabric with colls := ks }
  | [], s => ⟨s.fabric.colls, rfl⟩
  | c :: cs, s => by
    obtain ⟨m, l, p, d, ended⟩ := endColl_frame s c status
    obtain ⟨ks, rest⟩ := endColls_bindings status cs (s.endColl c status)
    exact ⟨ks, by rw [List.foldl_cons, rest, ended]⟩

/-- Whether a collective's context is bound to its channel. -/
def boundColl (s : State) (c : Coll) : Bool := s.fabric.bindings.any (fun b => b.ch == c.ch && b.asid == c.asid)

/-- Only collectives whose context is still bound to their channel stay. -/
theorem endUnbound_colls : ∀ k ∈ s.endUnbound.fabric.colls, k ∈ s.fabric.colls ∧ boundColl s k = true := fun k hk => by
  rw [State.endUnbound, (endColls_frame ..).2.2.2, List.mem_filter, List.all_eq_true] at hk
  refine ⟨hk.1, ?_⟩
  by_contra unbound
  have gone := hk.2 k (List.mem_filter.mpr ⟨hk.1, by simpa [boundColl] using unbound⟩)
  simp at gone

theorem endUnbound_none (h : s.fabric.colls = []) : s.endUnbound = s := by
  rw [State.endUnbound, h]
  rfl

/-- The group's lintel as it begins. -/
def newGroup (pkg group : Nat) (members : List Nat) (s : State) : Lintel :=
  { s.lintel with group := group, leader := (members.min?).getD pkg, members := members.map (fun m => (m, if m == pkg then s.lintel.own else 90)),
                  notices := [], changes := [], heard := members.map (fun m => (m, s.refTime)), silent := [], g := s.lintel.own,
                  applied := s.lintel.own }

/-- Whether the package is already what the binding says. -/
def inGroup (pkg group : Nat) (members : List Nat) (s : State) : Bool :=
  s.lintel.group == group && s.fabric.pkg == pkg && members.all (fun m => s.lintel.members.any (·.1 == m))

/-- The package bound, before collectives end. -/
def groupBound (pkg group ch asid : Nat) (members ranks : List Nat) (s : State) : State :=
  { s with
    fabric := { s.fabric with
      pkg := pkg,
      bindings := s.fabric.bindings.filter (fun b => b.ch != ch && b.group == group) ++
        (if asid == 0 then [] else [⟨ch, asid, group, members, ranks, false⟩]),
      ports := if asid == 0 || s.fabric.ports.any (·.1 == asid) then s.fabric.ports else s.fabric.ports ++ [(asid, Config.portPage asid)] }
    lintel := if inGroup pkg group members s then s.lintel else newGroup pkg group members s }

theorem execGroupBinding_binds (pkg group ch asid : Nat) (members ranks : List Nat) :
    execGroupBinding pkg group ch asid members ranks s = .next (groupBound pkg group ch asid members ranks s).endUnbound := rfl

theorem mem_groupBound_bindings {pkg group ch asid : Nat} {members ranks : List Nat} {b : Binding} :
    b ∈ (groupBound pkg group ch asid members ranks s).fabric.bindings ↔ asid ≠ 0 ∧ b = ⟨ch, asid, group, members, ranks, false⟩ ∨
      b ∈ s.fabric.bindings ∧ b.ch ≠ ch ∧ b.group = group := by
  have new : b ∈ (if asid == 0 then [] else [(⟨ch, asid, group, members, ranks, false⟩ : Binding)]) ↔
      asid ≠ 0 ∧ b = ⟨ch, asid, group, members, ranks, false⟩ := by
    by_cases h : asid = 0 <;> simp [h]
  have kept : b ∈ s.fabric.bindings.filter (fun b => b.ch != ch && b.group == group) ↔
      b ∈ s.fabric.bindings ∧ b.ch ≠ ch ∧ b.group = group := by
    simp
  rw [groupBound, List.mem_append, new, kept, or_comm]

theorem mem_groupBound_ports {pkg group ch asid : Nat} {members ranks : List Nat} (h0 : asid ≠ 0) (new : ∀ e ∈ s.fabric.ports, e.1 ≠ asid)
    (e : Nat × Nat) :
    e ∈ (groupBound pkg group ch asid members ranks s).fabric.ports ↔ e = (asid, Config.portPage asid) ∨ e ∈ s.fabric.ports := by
  have absent : (asid == 0 || s.fabric.ports.any (·.1 == asid)) = false := by
    rw [beq_false_of_ne h0, Bool.false_or, List.any_eq_false]
    exact fun e he => by simpa using new e he
  rw [groupBound]
  dsimp only
  rw [absent, if_neg Bool.false_ne_true, List.mem_append, List.mem_singleton, or_comm]

theorem endUnbound_frame : ∃ ks, s.endUnbound.fabric = { s.fabric with colls := ks } ∧ s.endUnbound.lintel = s.lintel := by
  obtain ⟨ks, fabric⟩ := endColls_bindings 0x23 (s.fabric.colls.filter (fun c => !(boundColl s c))) s
  exact ⟨ks, fabric, (endColls_frame ..).2.2.1⟩

theorem min_of_members {ms : List Nat} (h : ms ≠ []) (d : Nat) : (ms.min?).getD d ∈ ms ∧ ∀ m ∈ ms, (ms.min?).getD d ≤ m := by
  cases hm : ms.min? with
  | none => exact absurd (List.min?_eq_none_iff.mp hm) h
  | some g => exact List.min?_eq_some_iff.mp hm

end Bindings

/-! Collectives (R409 to R412). -/

section Collectives

variable {s : State} {ch asid : Nat} {d : List Word}

theorem execCollectiveSubmit_submits (h : ch < 64) :
    execCollectiveSubmit asid ch d s = .next (s.submitColl ⟨ch, asid, d, s.core.id, s.flagUnit asid s.core.id d⟩) := if_neg (by omega)

theorem namesSilent_iff : s.namesSilent ch = true ↔ ∃ b ∈ s.fabric.bindings, b.ch = ch ∧ ∃ r ∈ b.ranks, r ∈ s.lintel.silent := by
  simp [State.namesSilent]

section Submits

variable {c : Coll} {b : Binding}

theorem submitColl_unbound (h : s.fabric.bindings.find? (fun b => b.ch == c.ch && b.asid == c.asid) = none) :
    s.submitColl c = s.finishColl c 0x23 := by
  rw [State.submitColl, h]

/-- A collective of a bound channel judged. -/
theorem submitColl_bound (h : s.fabric.bindings.find? (fun b => b.ch == c.ch && b.asid == c.asid) = some b) : s.submitColl c =
    if s.fabric.colls.any (·.ch == c.ch) || collBad c.desc then s.finishColl c 0x23
    else if s.namesSilent c.ch then s.finishColl c 0x20
    else if b.withdrawn then s.finishColl c 0x21
    else { s with fabric := { s.fabric with colls := s.fabric.colls ++ [c] } } := by
  rw [State.submitColl, h]

end Submits

/-- The word a collective ends with, stored at its cell. -/
theorem writeCell_stores {a va pa : Nat} (ht : s.translate a va .write = .ok pa) (w : Word) :
    s.writeCell a va w = s.storeAt a va pa (bytesOf w 8) := by
  rw [State.writeCell, ht]

theorem finishColl_cell {c : Coll} {status pa : Nat} (ht : s.translate c.asid (cCell c.desc) .write = .ok pa) (h8 : cCell c.desc % 8 = 0)
    (hd : c.dest = none) :
    s.finishColl c status = s.storeAt c.asid (cCell c.desc) pa (bytesOf (BitVec.ofNat 64 (cSeq c.desc * 2 ^ 32 + 256 + status)) 8) := by
  rw [State.finishColl, if_pos (beq_iff_eq.mpr h8), writeCell_stores ht, hd]

theorem finishColl_posts {c : Coll} {status pa : Nat} {f : Family} (ht : s.translate c.asid (cCell c.desc) .write = .ok pa)
    (h8 : cCell c.desc % 8 = 0) (hd : c.dest = some f) : s.finishColl c status =
    (s.storeAt c.asid (cCell c.desc) pa (bytesOf (BitVec.ofNat 64 (cSeq c.desc * 2 ^ 32 + 256 + status)) 8)).sendPost
      (desigCore (cFlag c.desc) c.core) (desigFlag (cFlag c.desc)) 1 f := by
  rw [State.finishColl, if_pos (beq_iff_eq.mpr h8), writeCell_stores ht, hd]

/-- A sum of INT32 elements, wrapped, is the sum of the ranks' elements modulo 2^32. -/
theorem reduceElem_sum (xs : List Nat) : BitVec.ofNat 32 (reduceElem 0 0 xs) = xs.foldl (fun (a : BitVec 32) x => a + BitVec.ofNat 32 x) 0 := by
  have wraps (z : Int) : BitVec.ofNat 32 (natWrap 32 z) = BitVec.ofInt 32 z := by
    apply BitVec.eq_of_toNat_eq
    rw [BitVec.toNat_ofNat, BitVec.toNat_ofInt, natWrap]
    omega
  have signed (x : Nat) : BitVec.ofInt 32 (sNat 32 x) = BitVec.ofNat 32 x := by
    apply BitVec.eq_of_toNat_eq
    rw [BitVec.toNat_ofNat, BitVec.toNat_ofInt, sNat]
    split <;> omega
  have sum : ∀ (xs : List Nat) (a : Int), xs.foldl (fun (a : BitVec 32) x => a + BitVec.ofNat 32 x) (BitVec.ofInt 32 a) =
      BitVec.ofInt 32 (a + (xs.map (sNat 32)).sum) := by
    intro xs
    induction xs with
    | nil => intro a; simp
    | cons x xs ih =>
      intro a
      rw [List.foldl_cons, List.map_cons, List.sum_cons, ← add_assoc, ← ih (a + sNat 32 x), BitVec.ofInt_add, signed]
  exact (wraps _).trans ((congrArg (BitVec.ofInt 32) (zero_add _).symm).trans (sum xs 0).symm)

/-! The agreement of the engines (R410, R412). -/

/-- What the other ranks bring that carries the collective's SEQ. -/
abbrev matesOf (d : List Word) (peers : List CollPeer) : List CollPeer := peers.filter (fun x => cSeq x.desc == cSeq d)

/-- The package's rank in a binding. -/
abbrev rankIn (s : State) (b : Binding) : Nat := (b.ranks.filter (· < s.fabric.pkg)).length

/-- The package's own source. -/
abbrev ownSrc (s : State) (c : Coll) (p : Nat) : Option (List Byte) :=
  if cOp c.desc == 4 then some [] else s.readVa c.asid (cSrc c.desc) (cSrcLen c.desc p)

/-- The status of an end at which every rank could be served or not. -/
abbrev endStatus (mates : List CollPeer) : Nat := if mates.all (·.dstOk) then 0 else 0x24

/-- Every other rank of a binding has brought its descriptor. -/
def AllHere (s : State) (b : Binding) (mates : List CollPeer) : Prop := ∀ i < b.ranks.length, i ≠ rankIn s b → ∃ x ∈ mates, x.rank = i

/-- A descriptor is not to be had for its rank. -/
def BadRanks (s : State) (b : Binding) (d : List Word) (mates : List CollPeer) : Prop :=
  collRanksBad d b.ranks.length (rankIn s b) = true ∨ ∃ x ∈ mates, collRanksBad x.desc b.ranks.length x.rank = true

theorem allHere_iff {b : Binding} {mates : List CollPeer} :
    (!(((List.range b.ranks.length).filter (· != rankIn s b)).all (fun i => mates.any (·.rank == i)))) = true ↔ ¬AllHere s b mates := by
  simp [AllHere]

theorem badRanks_iff {b : Binding} {mates : List CollPeer} : (collRanksBad d b.ranks.length (rankIn s b) ||
    mates.any (fun x => collRanksBad x.desc b.ranks.length x.rank)) = true ↔ BadRanks s b d mates := by
  simp [BadRanks]

section Complete

variable {peers : List CollPeer} {c : Coll} {b : Binding} (hc : s.fabric.colls.find? (·.ch == ch) = some c)
  (hb : s.fabric.bindings.find? (·.ch == ch) = some b)
include hc hb

theorem complete_waits (h : ¬AllHere s b (matesOf c.desc peers)) : execCollectiveComplete ch peers s = .next s := by
  rw [execCollectiveComplete, hc, hb]
  exact if_pos (allHere_iff.mpr h)

variable (here : AllHere s b (matesOf c.desc peers))
include here

theorem complete_invalid (h : BadRanks s b c.desc (matesOf c.desc peers)) : execCollectiveComplete ch peers s = .next (s.endColl c 0x23) := by
  rw [execCollectiveComplete, hc, hb]
  exact (if_neg (mt allHere_iff.mp (not_not.mpr here))).trans (if_pos (badRanks_iff.mpr h))

variable (sound : ¬BadRanks s b c.desc (matesOf c.desc peers))
include sound

theorem complete_differs (h : (matesOf c.desc peers).any (fun x => collDiffers c.desc x.desc) = true) :
    execCollectiveComplete ch peers s = .next (s.endColl c 0x22) := by
  rw [execCollectiveComplete, hc, hb]
  exact (if_neg (mt allHere_iff.mp (not_not.mpr here))).trans ((if_neg (mt badRanks_iff.mp sound)).trans (if_pos h))

variable (same : ¬(matesOf c.desc peers).any (fun x => collDiffers c.desc x.desc) = true)
include same

theorem complete_unread (h : collSrcs c.desc b.ranks.length (rankIn s b) (ownSrc s c b.ranks.length) (matesOf c.desc peers) = none) :
    execCollectiveComplete ch peers s = .next (s.endColl c 0x24) := by
  rw [execCollectiveComplete, hc, hb]
  dsimp only
  rw [if_neg (mt allHere_iff.mp (not_not.mpr here)), if_neg (mt badRanks_iff.mp sound), if_neg same, h]

variable {srcs : List (List Byte)}
  (read : collSrcs c.desc b.ranks.length (rankIn s b) (ownSrc s c b.ranks.length) (matesOf c.desc peers) = some srcs)
include read

theorem complete_nothing (h : collResult c.desc (rankIn s b) srcs = []) :
    execCollectiveComplete ch peers s = .next (s.endColl c (endStatus (matesOf c.desc peers))) := by
  rw [execCollectiveComplete, hc, hb]
  dsimp only
  refine (if_neg (mt allHere_iff.mp (not_not.mpr here))).trans ((if_neg (mt badRanks_iff.mp sound)).trans ((if_neg same).trans ?_))
  simp only [read]
  exact if_pos (List.isEmpty_iff.mpr h)

variable (some_out : collResult c.desc (rankIn s b) srcs ≠ [])
include some_out

theorem complete_unmapped {e : BitVec 8 × Nat × Nat}
    (h : s.span c.asid (cDst c.desc) (collResult c.desc (rankIn s b) srcs).length .write = .error e) :
    execCollectiveComplete ch peers s = .next (s.endColl c 0x24) := by
  rw [execCollectiveComplete, hc, hb]
  dsimp only
  refine (if_neg (mt allHere_iff.mp (not_not.mpr here))).trans ((if_neg (mt badRanks_iff.mp sound)).trans ((if_neg same).trans ?_))
  simp only [read, h]
  exact if_neg (mt List.isEmpty_iff.mp some_out)

theorem complete_writes {pa : Nat} (h : s.span c.asid (cDst c.desc) (collResult c.desc (rankIn s b) srcs).length .write =
    .ok [(pa, (collResult c.desc (rankIn s b) srcs).length)]) : execCollectiveComplete ch peers s =
    .next ((s.storeAt c.asid (cDst c.desc) pa (collResult c.desc (rankIn s b) srcs)).endColl c (endStatus (matesOf c.desc peers))) := by
  rw [execCollectiveComplete, hc, hb]
  dsimp only
  refine (if_neg (mt allHere_iff.mp (not_not.mpr here))).trans ((if_neg (mt badRanks_iff.mp sound)).trans ((if_neg same).trans ?_))
  simp only [read, h, storeRuns_one]
  exact if_neg (mt List.isEmpty_iff.mp some_out)

end Complete

end Collectives

/-- Settles O48: links, bindings, collectives submitted, agreed on and withdrawn. -/
theorem fabricEvents : Obligations.FabricEvents := by
  unfold Obligations.FabricEvents
  refine ⟨?_, ?_, ?_, ?_, ?_, ?_, reduceElem_sum⟩
  · intro l s lose down
    have goes_down (e : Instr) (he : exec e s = .next (s.relink (·.linkDown l))) : down e := by
      obtain ⟨gone, listed⟩ := mem_linkDown s.fabric l
      obtain ⟨_, mem, cores⟩ := relink_frame (s := s) (·.linkDown l)
      exact ⟨_, he, listed, gone, fun k hk => links_linkDown s.fabric hk, rfl, mem, cores⟩
    refine ⟨goes_down _ rfl, goes_down _ rfl, ⟨_, execLinkBringUp_up, ?_, ?_, fun k hk => ?_, fun p => ?_⟩, _, rfl, fun k => ?_, ?_, ?_⟩
    · exact List.mem_append_right _ List.mem_cons_self
    · exact fun h => (mem_filter_ne.mp h).2 rfl
    · exact mem_filter_ne.trans (and_iff_left hk)
    · rw [linkUp, List.mem_filter, Bool.not_eq_true']
    · exact mem_pathLost (f := s.fabric)
    · exact pathLost_links
    · exact ⟨rfl, coreOf_relink _⟩
  · intro pkg group ch asid members ranks s hm
    obtain ⟨ks, fabric, lintel⟩ := endUnbound_frame (s := groupBound pkg group ch asid members ranks s)
    have colls := endUnbound_colls (s := groupBound pkg group ch asid members ranks s)
    refine ⟨_, execGroupBinding_binds .., ?_, fun b => ?_, fun k hk => ?_, fun h0 => ?_, fun h0 new e => ?_, fun hg => ?_, fun hg hp hh => ?_,
      fun h0 => ?_⟩
    · rw [fabric]
      rfl
    · rw [fabric]
      exact mem_groupBound_bindings (pkg := pkg)
    · obtain ⟨here, bound⟩ := colls k hk
      refine ⟨here, ?_⟩
      rw [fabric]
      simpa [boundColl] using bound
    · rw [fabric]
      exact if_pos (by simp [h0])
    · rw [fabric]
      exact mem_groupBound_ports (pkg := pkg) (group := group) (ch := ch) (members := members) (ranks := ranks) h0 new e
    · have other : inGroup pkg group members s = false := by simp [inGroup, hg]
      obtain ⟨leads, least⟩ := min_of_members hm pkg
      rw [lintel, show (groupBound pkg group ch asid members ranks s).lintel = newGroup pkg group members s from
        if_neg (Bool.eq_false_iff.mp other)]
      exact ⟨rfl, leads, least, List.map_congr_left fun m _ => congrArg (Prod.mk m) (if_congr beq_iff_eq rfl rfl)⟩
    · rw [lintel]
      refine if_pos ?_
      rw [inGroup, hg, hp, beq_self_eq_true, beq_self_eq_true]
      exact List.all_eq_true.mpr hh
    · rw [endUnbound_none (s := groupBound pkg group ch asid members ranks s) h0]
      exact ⟨rfl, rfl⟩
  · intro asid ch d s hch c ends found silent free
    have run : exec (.collectiveSubmit asid ch d) s = .next (s.submitColl c) := execCollectiveSubmit_submits hch
    have taken : s.fabric.colls.any (·.ch == ch) = true ↔ ¬free := by simp [free]
    refine ⟨fun h => run.trans (congrArg _ ?_), fun b hb hfree hbad => ?_⟩
    · cases hfound : found with
      | none => exact submitColl_unbound hfound
      | some b =>
        refine (submitColl_bound hfound).trans (if_pos (Bool.or_eq_true_iff.mpr ?_))
        obtain h | h | h := h
        · exact nomatch hfound.symm.trans h
        · exact .inl (taken.mpr h)
        · exact .inr h
    · have judged := run.trans (congrArg _ ((submitColl_bound (c := c) hb).trans (if_neg (by
        rw [show s.fabric.colls.any (·.ch == c.ch) = false from Bool.eq_false_iff.mpr (mt taken.mp (not_not.mpr hfree)),
          show collBad c.desc = false from hbad]
        exact Bool.false_ne_true))))
      refine ⟨fun hs => judged.trans (congrArg _ (if_pos (namesSilent_iff.mpr hs))), fun hs hw => ?_, fun hs hw => ?_⟩
      · exact judged.trans (congrArg _ ((if_neg (mt namesSilent_iff.mp hs)).trans (if_pos hw)))
      · exact judged.trans (congrArg _ ((if_neg (mt namesSilent_iff.mp hs)).trans (if_neg (Bool.eq_false_iff.mp hw))))
  · intro s c status pa cell flag t ht h8
    exact ⟨fun hd => finishColl_cell ht h8 hd, fun f hd => finishColl_posts ht h8 hd⟩
  · intro ch peers s c b hc hb d p r mates differs bad all ends
    have ended (t : State) (status : Nat) (h : exec (.collectiveComplete ch peers) s = .next (t.endColl c status)) : ends t status := by
      have named : c.ch = ch := by simpa using List.find?_some hc
      rw [State.endColl, named] at h
      exact h
    have disagree : (matesOf c.desc peers).any (fun x => collDiffers c.desc x.desc) = true ↔ ∃ x ∈ mates, differs x.desc := by
      simp [collDiffers, differs, mates, d, or_assoc, and_assoc]
    refine ⟨complete_waits hc hb, fun here h => ended _ _ (complete_invalid hc hb here h),
      fun here sound h => ended _ _ (complete_differs hc hb here sound (disagree.mpr h)), fun here sound h => ?_⟩
    have same := mt disagree.mp (by rintro ⟨x, hx, hd⟩; exact h x hx hd)
    have own : (if cOp d = 4 then some [] else s.readVa c.asid (cSrc d) (cSrcLen d p)) = ownSrc s c b.ranks.length :=
      if_congr beq_iff_eq.symm rfl rfl
    have status : (if ∀ x ∈ mates, x.dstOk = true then 0 else 0x24) = endStatus (matesOf c.desc peers) := if_congr List.all_eq_true.symm rfl rfl
    intro srcs
    have sources : srcs = collSrcs d p r (ownSrc s c b.ranks.length) mates := congrArg (fun o => collSrcs d p r o mates) own
    refine ⟨fun hn => ended _ _ (complete_unread hc hb here sound same (sources.symm.trans hn)), fun l hl => ?_⟩
    have read := sources.symm.trans hl
    refine ⟨fun ho => ?_, fun e ho he => ended _ _ (complete_unmapped hc hb here sound same read ho he), fun pa ho hp => ?_⟩
    · rw [status]
      exact ended _ _ (complete_nothing hc hb here sound same read ho)
    · rw [status]
      exact ended _ _ (complete_writes hc hb here sound same read ho hp)
  · intro ch s bs w
    have run : exec (.memberWithdrawn ch) s = .next (((w.fabric.colls.find? (·.ch == ch)).map (fun c => w.endColl c 0x21)).getD w) := rfl
    refine ⟨fun hc => run.trans (congrArg _ ?_), fun c hc => run.trans (congrArg _ ?_)⟩
    · rw [show w.fabric.colls.find? (·.ch == ch) = none from hc]
      rfl
    · have named : c.ch = ch := by simpa using List.find?_some hc
      rw [show w.fabric.colls.find? (·.ch == ch) = some c from hc, Option.map_some, Option.getD_some, State.endColl, named]
      rfl

end Sys2Proof.Proofs

namespace Sys2Proof.Proofs

open Sys2Proof Sys2Proof.Machine Sys2Proof.Laws

/-! ## A step of the package (R9, R22, R32, R273, R421) -/

section Steps

variable {s : State} {n pa : Nat} {ns : List Nat} {b : Bundle} {w : BundleBits}

theorem step_input {i : Instr} {is : List Instr} (ha : s.agenda = i :: is) : step s = State.input { s with agenda := is } i := by
  rw [step, ha]

theorem input_runs (h : s.stopped = false) (i : Instr) : s.input i = exec i s := by
  rw [State.input.eq_def, h]

theorem input_reset (h : s.stopped = true) (img : BootImage) : s.input (.coldReset img) = execColdReset img s := by
  rw [State.input.eq_def, h]

theorem input_stopped (h : s.stopped = true) {i : Instr} (hi : ∀ img, i ≠ .coldReset img) : s.input i = .fault .packageStopped := by
  rw [State.input.eq_def, h]
  cases i
  case coldReset img => exact absurd rfl (hi img)
  all_goals rfl

theorem step_turn (ha : s.agenda = []) (hs : s.stopped = false) (ht : s.turn = n :: ns) : step s = State.takeTurn { s with turn := ns } n := by
  rw [step, ha, if_neg (by rw [hs]; exact Bool.false_ne_true), ht]

theorem step_stopped (ha : s.agenda = []) (hs : s.stopped = true) : step s = .fault .packageStopped := by
  rw [step, ha, if_pos hs]

/-- A core that issues alone has its turn. -/
theorem takeTurn_solo {r : TeamRes} (hid : (s.focus n).core.id = n) (hin : (s.focus n).inTurn = [n]) (hf : (s.focus n).wouldFreeze n = false)
    (h : (s.focus n).soloTurn = .next r) : s.takeTurn n = State.afterTurn n (s.focus n).lagging r := by
  have freeze : ¬[n].any (s.focus n).wouldFreeze = true := by simp [hf]
  rw [State.takeTurn, hin, if_neg freeze]
  dsimp only
  rw [if_pos (show ([] : List Nat).isEmpty = true from rfl), show (s.focus n).focus n = s.focus n from if_pos hid, h]

/-- The members of a gang have their turn together. -/
theorem takeTurn_gang {ready : List Nat} {r : TeamRes} (hin : (s.focus n).inTurn = ready) (h2 : 2 ≤ ready.length)
    (hf : ∀ m ∈ ready, (s.focus n).wouldFreeze m = false) (h : (s.focus n).gangTurn ready = .next r) :
    s.takeTurn n = State.afterTurn n (s.focus n).lagging r := by
  have freeze : ¬ready.any (s.focus n).wouldFreeze = true := by
    rw [List.any_eq_true]
    exact fun ⟨m, hm, h⟩ => Bool.false_ne_true ((hf m hm).symm.trans h)
  match ready with
  | m :: k :: ms =>
    rw [State.takeTurn, hin, if_neg freeze]
    dsimp only
    rw [if_neg (show ¬(k :: ms).isEmpty = true from Bool.false_ne_true), h]

/-! One bundle. -/

theorem soloTurn_done {t : Turn} (h : s.issue = .next t) : s.soloTurn = .next t.done := by
  rw [State.soloTurn, h]
  cases t <;> rfl

theorem nextBundle_fetched (ht : s.core.template = none) (hl : s.core.lead = s.core.id)
    (hp : s.translate s.core.asid s.core.ctl.pc.toNat .fetch = .ok pa) :
    s.nextBundle s.core = .ok (bundleOfBytes ((s.memAs (s.keyOf s.core.asid)).read pa 32)) := by
  rw [State.nextBundle, ht]
  dsimp only
  rw [if_pos (beq_iff_eq.mpr hl)]
  dsimp only
  rw [State.fetch, hp]

/-- A fetched bundle that nothing refuses or marks is performed. -/
theorem issue_performs (about : s.AboutTo n (decodeBundle w)) (hw : s.nextBundle s.core = .ok w) : s.issue = s.perform w := by
  obtain ⟨_, _, _, fault, _, _, begun, _, static, marks⟩ := about
  rw [State.issue, fault]
  dsimp only
  rw [begun]
  dsimp only
  rw [hw]
  dsimp only
  rw [State.bundle, static]
  dsimp only
  rw [if_neg (by rw [marks]; exact Bool.false_ne_true)]

/-! The slots of a bundle that holds one instruction. -/

variable {k : Nat} {i : Instr} {t : State}

theorem slot_runs (h : exec i (s.atSlot k) = .next t) : s.slot k i = .next ⟨t.settled, t.core.ctl.stalled, t.core.ctl.passed, t.core.ctl.raised⟩ := by
  rw [State.slot, show exec i (s.mapCore _) = .next t from h]
  rfl

/-- What one slot's instruction answers for its bundle. -/
def oneSlot (s : State) (k : Nat) (t : State) (holds : Bool) : SlotsRes :=
  ⟨if t.core.ctl.stalled || t.core.ctl.raised.isSome then s else t.settled, t.core.ctl.stalled && holds,
    if t.core.ctl.stalled then [] else (t.core.ctl.raised.map (fun f => (k, f))).toList⟩

theorem slots_one (h : exec i (s.atSlot k) = .next t) (holds : Bool → List (Nat × Instr) → Bool) :
    s.slots holds [(k, i)] = .next (oneSlot s k t (holds t.core.ctl.passed [])) := by
  rw [State.slots, slot_runs h]
  dsimp only
  rw [State.slots]
  dsimp only
  rw [Bool.or_false, List.append_nil]
  rfl

theorem oneSlot_held (holds : Bool) : (oneSlot s k t holds).held = (t.core.ctl.stalled && holds) := rfl

theorem oneSlot_faults {holds : Bool} (h : t.core.ctl.stalled = false) :
    (oneSlot s k t holds).raised = (t.core.ctl.raised.map (fun f => (k, f))).toList := by
  rw [oneSlot, h]
  rfl

theorem oneSlot_sound {holds : Bool} (h : t.core.ctl.stalled = true ∨ t.core.ctl.raised = none) : (oneSlot s k t holds).raised = [] := by
  obtain h | h := h <;> simp [oneSlot, h]

theorem oneSlot_st {holds : Bool} (h : t.core.ctl.stalled = false) (hr : t.core.ctl.raised = none) : (oneSlot s k t holds).st = t.settled := by
  simp [oneSlot, h, hr]

theorem lowestFault_one (e : FaultRec) : lowestFault [(k, e)] = some e := by
  simp [lowestFault]

/-! Its region-closing slot. -/

variable {safe : Option State} {before : Core}

theorem close_raises {e : FaultRec} (h : exec i (s.atSlot k) = .next t) (hr : t.core.ctl.raised = some e) (v : State) :
    s.close (some v) before w false [(k, i)] = .next (.raises e v) := by
  rw [State.close, slot_runs h]
  dsimp only
  rw [hr]
  rfl

theorem close_stalls (h : exec i (s.atSlot k) = .next t) (hr : t.core.ctl.raised = none) (hs : t.core.ctl.stalled = true) (v : State) :
    s.close (some v) before w false [(k, i)] = .next (.stalls (if t.core.ctl.passed then t.settled.asBegun w else v)) := by
  rw [State.close, slot_runs h]
  dsimp only
  rw [hr, hs]
  rfl

theorem close_issues (h : exec i (s.atSlot k) = .next t) (hr : t.core.ctl.raised = none) (hs : t.core.ctl.stalled = false) (v : State) :
    s.close (some v) before w false [(k, i)] =
      .next ((t.settled.mapCore (fun c => { c with ctl := { c.ctl with done_ := c.ctl.done_ ++ [k] } })).issued before w false) := by
  rw [State.close, slot_runs h]
  dsimp only
  rw [hr, hs]
  rfl

/-! Performing a bundle. -/

/-- The registers that a bundle's closing instructions read. -/
abbrev closeRegs (b : Bundle) : List PDest := (closeSlots b).flatMap (fun e => closerRegs e.2)

/-- A bundle that is no template, its closing instructions' registers at hand: what its slots answer. -/
structure Slotted (s : State) (w : BundleBits) (q g : SlotsRes) : Prop where
  template : s.core.template = none
  ready : ∀ d ∈ closeRegs (decodeBundle w), (s.opened (decodeBundle w)).core.pendOn d = none
  open_ : (s.opened (decodeBundle w)).slots (fun _ _ => true) (openSlots (decodeBundle w)) = .next q
  closing : q.st.foreseen.slots closerHolds (closeSlots (decodeBundle w)) = .next g

theorem failedOn_none {c : Core} {ds : List PDest} (h : ∀ d ∈ ds, c.pendOn d = none) : c.failedOn ds = none :=
  List.findSome?_eq_none_iff.mpr fun d hd => by rw [h d hd, Option.bind_none]

section Performs

variable {q g : SlotsRes} (h : Slotted s w q g)
include h

theorem Slotted.none_pending : ¬(closeRegs (decodeBundle w)).any (fun d => ((s.opened (decodeBundle w)).core.pendOn d).isSome) = true := fun hp => by
  obtain ⟨d, hd, hp⟩ := List.any_eq_true.mp hp
  rw [h.ready d hd] at hp
  exact Bool.false_ne_true hp

/-- A slot that holds its bundle leaves it with no effect. -/
theorem Slotted.holds (hh : (q.held || g.held) = true) : s.perform w = .next (.stalls s) := by
  rw [State.perform, h.template]
  dsimp only
  rw [if_neg (by simp), failedOn_none h.ready]
  dsimp only
  rw [if_neg h.none_pending, h.open_]
  dsimp only
  rw [h.closing]
  exact if_pos hh

variable (hh : (q.held || g.held) = false)
include hh

/-- A slot that raises a fault suppresses its bundle. -/
theorem Slotted.raises {e : FaultRec} (he : lowestFault (q.raised ++ g.raised) = some e) : s.perform w = .next (.raises e s) := by
  rw [State.perform, h.template]
  dsimp only
  rw [if_neg (by simp), failedOn_none h.ready]
  dsimp only
  rw [if_neg h.none_pending, h.open_]
  dsimp only
  rw [h.closing]
  dsimp only
  rw [if_neg (Bool.eq_false_iff.mp hh), he]

/-- A bundle whose slots stand goes on with its closing slots. -/
theorem Slotted.closes (hr : q.raised ++ g.raised = []) (hm : bothMultiply (decodeBundle w) = false) :
    s.perform w = q.st.close (some s) (s.opened (decodeBundle w)).core w false (closeSlots (decodeBundle w)) := by
  rw [State.perform, h.template]
  dsimp only
  rw [if_neg (by simp), failedOn_none h.ready]
  dsimp only
  rw [if_neg h.none_pending, h.open_]
  dsimp only
  rw [h.closing]
  dsimp only
  rw [if_neg (Bool.eq_false_iff.mp hh), hr, show lowestFault [] = none from rfl]
  exact if_neg (by rw [hm]; exact Bool.false_ne_true)

end Performs

/-! A bundle that holds no instruction, or one. -/

/-- The instruction that gates clusters, which runs last among its bundle's. -/
def isRfmode : Instr → Bool
  | .rfmode _ => true
  | _ => false

theorem openSlots_eq (b : Bundle) : openSlots b =
    (b.instrs.filter (fun e => !e.2.regionClosing)).filter (fun e => e.1 != slotM && e.1 != slotX && !(isRfmode e.2)) ++
    (if ((b.instrs.filter (fun e => !e.2.regionClosing)).filter (fun e => e.1 == slotX)).any (fun e => xWrites e.2) then
      (b.instrs.filter (fun e => !e.2.regionClosing)).filter (fun e => e.1 == slotM) ++
        (b.instrs.filter (fun e => !e.2.regionClosing)).filter (fun e => e.1 == slotX)
     else (b.instrs.filter (fun e => !e.2.regionClosing)).filter (fun e => e.1 == slotX) ++
        (b.instrs.filter (fun e => !e.2.regionClosing)).filter (fun e => e.1 == slotM)) ++
    (b.instrs.filter (fun e => !e.2.regionClosing)).filter (fun e => isRfmode e.2) := rfl

theorem openSlots_one (hb : b.instrs = [(k, i)]) (hc : i.regionClosing = false) (hr : isRfmode i = true → k ≠ slotM ∧ k ≠ slotX) :
    openSlots b = [(k, i)] := by
  have apart : slotM ≠ slotX := by decide
  rw [openSlots_eq, hb, List.filter_cons_of_pos (by simp [hc]), List.filter_nil]
  by_cases rf : isRfmode i = true
  · obtain ⟨hm, hx⟩ := hr rf
    simp [rf, hm, hx]
  · by_cases hm : k = slotM
    · simp [rf, hm, apart]
    · by_cases hx : k = slotX
      · simp [rf, hx, apart.symm]
      · simp [rf, hm, hx]

theorem openSlots_closing (hb : b.instrs = [(k, i)]) (hc : i.regionClosing = true) : openSlots b = [] := by
  rw [openSlots_eq, hb, List.filter_cons_of_neg (by simp [hc]), List.filter_nil]
  rfl

theorem closeSlots_one (hb : b.instrs = [(k, i)]) (hc : i.regionClosing = true) : closeSlots b = [(k, i)] := by
  rw [closeSlots, hb, List.filter_cons_of_pos (by simp [hc]), List.filter_nil]
  by_cases h : k = slotC <;> simp [h]

theorem closeSlots_open (hb : b.instrs = [(k, i)]) (hc : i.regionClosing = false) : closeSlots b = [] := by
  rw [closeSlots, hb, List.filter_cons_of_neg (by simp [hc]), List.filter_nil]
  rfl

theorem slots_empty (hb : b.instrs = []) : openSlots b = [] ∧ closeSlots b = [] := by
  rw [openSlots_eq, closeSlots, hb]
  exact ⟨rfl, rfl⟩

theorem mem_instrs {k : Nat} {i : Instr} (h : b.slots[k]? = some (.ok i)) : (k, i) ∈ b.instrs := by
  rw [Bundle.instrs, List.mem_filterMap]
  exact ⟨(.ok i, k), List.mem_zipIdx_iff_getElem?.mpr h, rfl⟩

theorem of_mem_instrs {k : Nat} {i : Instr} (h : (k, i) ∈ b.instrs) : b.slots[k]? = some (.ok i) := by
  rw [Bundle.instrs, List.mem_filterMap] at h
  obtain ⟨⟨d, j⟩, hd, he⟩ := h
  cases d with
  | ok i' =>
    cases he
    exact List.mem_zipIdx_iff_getElem?.mp hd
  | nop => cases he
  | bad _ => cases he

theorem holds_ok {p : Instr → Bool} {d : SlotDec} (h : d.holds p = true) : ∃ i, d = .ok i := by
  cases d with
  | ok i => exact ⟨i, rfl⟩
  | nop => exact absurd h Bool.false_ne_true
  | bad _ => exact absurd h Bool.false_ne_true

/-- Two multiplications are two instructions. -/
theorem bothMultiply_few (hb : ∀ x ∈ b.instrs, ∀ y ∈ b.instrs, x = y) : bothMultiply b = false := by
  rw [Bool.eq_false_iff]
  intro both
  rw [bothMultiply, Bool.and_eq_true] at both
  obtain ⟨i0, h0⟩ := holds_ok both.1
  obtain ⟨i1, h1⟩ := holds_ok both.2
  have m0 : (4, i0) ∈ b.instrs := mem_instrs (congrArg some h0)
  have m1 : (5, i1) ∈ b.instrs := mem_instrs (congrArg some h1)
  have same : (4 : Nat) = 5 := congrArg Prod.fst (hb _ m0 _ m1)
  exact absurd same (by decide)

theorem slots_m (b : Bundle) : b.slots[slotM]? = some b.m := rfl
theorem slots_x (b : Bundle) : b.slots[slotX]? = some b.x := rfl

/-- RFMODE stands in neither the M nor the X slot. -/
theorem rfmode_slot {o : VRfm} (h : (k, .rfmode o) ∈ (decodeBundle w).instrs) : k ≠ slotM ∧ k ≠ slotX := by
  have at_ := of_mem_instrs h
  have opcode {u : BundleBits} (hu : encode (.rfmode o) = some u) : (field u 140 40) ≠ 0#40 := by
    obtain rfl := Option.some.inj hu
    rw [inV0, field_shift_eq _ _ (by omega)]
    intro zero
    have top := wVI_op 0x3e#6 o.qp 0#3 0#6 0#7 (0#11 ++ o.n)
    rw [zero, field_zero] at top
    exact absurd top (by decide)
  constructor
  · rintro rfl
    have dec : (decodeBundle w).m = .ok (.rfmode o) := Option.some.inj ((slots_m _).symm.trans at_)
    have enc := opcode (encode_of_decodeM dec)
    exact enc (field_shift_hi _ _ _ _ (by omega))
  · rintro rfl
    have dec : (decodeBundle w).x = .ok (.rfmode o) := Option.some.inj ((slots_x _).symm.trans at_)
    have enc := opcode (encode_of_decodeX dec)
    exact enc (field_shift _ _ _ _ (by omega))

theorem instrs_one (hb : b.instrs = [(k, i)]) : ∀ x ∈ b.instrs, ∀ y ∈ b.instrs, x = y := fun x hx y hy => by
  rw [hb, List.mem_singleton] at hx hy
  rw [hx, hy]

/-- A bundle without an instruction issues. -/
theorem perform_empty (ht : s.core.template = none) (hb : (decodeBundle w).instrs = []) :
    s.perform w = .next ((s.opened (decodeBundle w)).issued (s.opened (decodeBundle w)).core w false) := by
  obtain ⟨opens, closes⟩ := slots_empty hb
  have slotted : Slotted s w ⟨s.opened (decodeBundle w), false, []⟩ ⟨(s.opened (decodeBundle w)).foreseen, false, []⟩ :=
    ⟨ht, by rw [closeRegs, closes]; exact nofun, by rw [opens]; rfl, by rw [closes]; rfl⟩
  rw [slotted.closes rfl rfl (bothMultiply_few (by rw [hb]; exact nofun)), closes, State.close]

section Open

variable (ht : s.core.template = none) (hb : (decodeBundle w).instrs = [(k, i)]) (hc : i.regionClosing = false)
  (run : exec i ((s.opened (decodeBundle w)).atSlot k) = .next t)
include ht hb hc run

/-- What an instruction that closes no region answers. -/
theorem slotted_open : Slotted s w (oneSlot (s.opened (decodeBundle w)) k t true)
    ⟨(oneSlot (s.opened (decodeBundle w)) k t true).st.foreseen, false, []⟩ where
  template := ht
  ready := by
    rw [closeRegs, closeSlots_open hb hc]
    exact nofun
  open_ := by
    rw [openSlots_one hb hc fun hr => ?_]
    · exact slots_one run _
    · cases i with
      | rfmode o => exact rfmode_slot (by rw [hb]; exact List.mem_cons_self)
      | _ => exact absurd hr Bool.false_ne_true
  closing := by
    rw [closeSlots_open hb hc]
    rfl

theorem perform_stalls (hs : t.core.ctl.stalled = true) : s.perform w = .next (.stalls s) :=
  (slotted_open ht hb hc run).holds (by rw [oneSlot_held, hs]; rfl)

theorem perform_raises {e : FaultRec} (hs : t.core.ctl.stalled = false) (hr : t.core.ctl.raised = some e) : s.perform w = .next (.raises e s) := by
  refine (slotted_open ht hb hc run).raises (by rw [oneSlot_held, hs]; rfl) ?_
  rw [oneSlot_faults hs, hr, List.append_nil]
  exact lowestFault_one e

theorem perform_issues (hs : t.core.ctl.stalled = false) (hr : t.core.ctl.raised = none) :
    s.perform w = .next (t.settled.issued (s.opened (decodeBundle w)).core w false) := by
  rw [(slotted_open ht hb hc run).closes (by rw [oneSlot_held, hs]; rfl) (by rw [oneSlot_sound (.inr hr)]; rfl) (bothMultiply_few (instrs_one hb)),
    closeSlots_open hb hc, oneSlot_st hs hr, State.close]

end Open

section Closing

variable {v : State} (ht : s.core.template = none) (hb : (decodeBundle w).instrs = [(k, i)]) (hc : i.regionClosing = true)
  (ready : ∀ d ∈ closerRegs i, (s.opened (decodeBundle w)).core.pendOn d = none)
  (judged : exec i ((s.opened (decodeBundle w)).foreseen.atSlot k) = .next v)
include ht hb hc ready judged

/-- What a closing instruction answers on the state foreseen. -/
theorem slotted_closing : Slotted s w ⟨s.opened (decodeBundle w), false, []⟩
    (oneSlot (s.opened (decodeBundle w)).foreseen k v (closerHolds v.core.ctl.passed [])) where
  template := ht
  ready := by
    rw [closeRegs, closeSlots_one hb hc]
    simpa using ready
  open_ := by
    rw [openSlots_closing hb hc]
    rfl
  closing := by
    rw [closeSlots_one hb hc]
    exact slots_one judged _

theorem perform_closing_stalls (hs : v.core.ctl.stalled = true) (hp : v.core.ctl.passed = false) : s.perform w = .next (.stalls s) :=
  (slotted_closing ht hb hc ready judged).holds (by rw [oneSlot_held, hs, hp]; rfl)

theorem perform_closing_raises {e : FaultRec} (hs : v.core.ctl.stalled = false) (hr : v.core.ctl.raised = some e) :
    s.perform w = .next (.raises e s) := by
  refine (slotted_closing ht hb hc ready judged).raises (by rw [oneSlot_held, hs]; rfl) ?_
  rw [oneSlot_faults hs, hr]
  exact lowestFault_one e

/-- What is foreseen stands: the bundle goes on with its closing slot. -/
theorem perform_closing (h : v.core.ctl.stalled = true ∧ v.core.ctl.passed = true ∨ v.core.ctl.stalled = false ∧ v.core.ctl.raised = none) :
    s.perform w = (s.opened (decodeBundle w)).close (some s) (s.opened (decodeBundle w)).core w false [(k, i)] := by
  have held : (v.core.ctl.stalled && closerHolds v.core.ctl.passed []) = false := by
    obtain ⟨_, hp⟩ | ⟨hs, _⟩ := h
    · rw [hp]
      exact Bool.and_false _
    · rw [hs]
      rfl
  have sound : v.core.ctl.stalled = true ∨ v.core.ctl.raised = none := h.imp And.left And.right
  rw [(slotted_closing ht hb hc ready judged).closes held (by rw [oneSlot_sound sound]; rfl) (bothMultiply_few (instrs_one hb)),
    closeSlots_one hb hc]

end Closing

/-! A gang. -/

theorem gangTurn_holds {ready : List Nat} {faults : List (Nat × FaultRec)} (h : s.judged ready = .next (true, faults)) :
    s.gangTurn ready = .next ⟨s.heldTeam ready, false⟩ := by
  rw [State.gangTurn, h]

theorem gangTurn_issues {ready : List Nat} (h : s.judged ready = .next (false, [])) : s.gangTurn ready = s.issueAll ready s [] ready := by
  rw [State.gangTurn, h]

theorem gangTurn_faults {ready : List Nat} {faults : List (Nat × FaultRec)} (h : s.judged ready = .next (false, faults)) (hf : faults ≠ []) :
    s.gangTurn ready = .next ⟨(s.tilesReported faults).enterFaults faults, false⟩ := by
  cases faults with
  | nil => exact absurd rfl hf
  | cons f fs => rw [State.gangTurn, h]

end Steps

/-- Settles O53: inputs, the turn of a core with one instruction or none, a gang's turn, and a package that has stopped. -/
theorem stepRunsDecoded : Obligations.StepRunsDecoded := by
  unfold Obligations.StepRunsDecoded
  refine ⟨?_, ?_, ?_, ?_⟩
  · intro i is s ha hs
    exact (step_input ha).trans (input_runs (s := { s with agenda := is }) hs i)
  · intro n pa ns s ha hs ht f hpa w b r ends about
    obtain ⟨hid, hin, hf, _, template, lead, _⟩ := id about
    have ends_of {t : Turn} (h : f.perform w = .next t) : ends t :=
      (step_turn ha hs ht).trans (takeTurn_solo hid hin hf (soloTurn_done ((issue_performs about
        (nextBundle_fetched template (lead.trans hid.symm) hpa)).trans h)))
    refine ⟨fun hb => ends_of (perform_empty template hb), fun k i t hb run => ⟨fun hc => ?_, fun v hc ready judged => ?_⟩⟩
    · exact ⟨fun hst => ends_of (perform_stalls template hb hc run hst), fun e hst hr => ends_of (perform_raises template hb hc run hst hr),
        fun hst hr => ends_of (perform_issues template hb hc run hst hr)⟩
    · refine ⟨fun hst hp => ends_of (perform_closing_stalls template hb hc ready judged hst hp),
        fun e hst hr => ends_of (perform_closing_raises template hb hc ready judged hst hr), fun stands => ?_⟩
      have goes := perform_closing template hb hc ready judged stands
      exact ⟨fun e hr => ends_of (goes.trans (close_raises run hr f)), fun hr hst => ends_of (goes.trans (close_stalls run hr hst f)),
        fun hr hst => ends_of (goes.trans (close_issues run hr hst f))⟩
  · intro n ns ready stalls faults s ha hs ht f hin h2 hf judged
    have ends_of {r : TeamRes} (h : f.gangTurn ready = .next r) : step s = State.afterTurn n f.lagging r :=
      (step_turn ha hs ht).trans (takeTurn_gang hin h2 hf h)
    refine ⟨fun hst => ?_, fun hst hne => ?_, fun r hst he hr => ?_⟩
    · subst hst
      exact ends_of (gangTurn_holds judged)
    · subst hst
      exact ends_of (gangTurn_faults judged hne)
    · subst hst he
      exact ends_of ((gangTurn_issues judged).trans hr)
  · intro s hs
    exact ⟨fun ha => step_stopped ha hs, fun img is ha => (step_input ha).trans (input_reset (s := { s with agenda := is }) hs img),
      fun i is ha hi => (step_input ha).trans (input_stopped (s := { s with agenda := is }) hs hi)⟩

end Sys2Proof.Proofs

namespace Sys2Proof.Proofs

open Sys2Proof Sys2Proof.Machine Sys2Proof.Laws

/-! ## Device memory stays canonical: the operations of the state

`Canon W m` says that the memory m is canonical once W holds. With W the canonical form of the memory a step starts from it is the invariant;
what a step answers is then one statement (`Sound`) for every start, canonical or not. -/

/-- Memory that is canonical (R39) where W holds. -/
structure Canon (W : Prop) (m : Memory) : Prop where
  wf : W → m.wf

section Operations

variable {W : Prop}

theorem Canon.of_kept {s t : State} (h : Canon W s.mem) (k : Kept s t) : Canon W t.mem := ⟨fun w => k.wf (h.wf w)⟩

theorem Canon.of_eq {m n : Memory} (h : Canon W m) (e : n = m) : Canon W n := e ▸ h

theorem foldl_mem {α : Type} {f : State → α → State} (h : ∀ s a, (f s a).mem = s.mem) (l : List α) (s : State) :
    (l.foldl f s).mem = s.mem := by
  induction l generalizing s with
  | nil => rfl
  | cons a l ih => exact (ih _).trans (h s a)

theorem canon_foldl {α : Type} {f : State → α → State} (hf : ∀ s a, Canon W s.mem → Canon W (f s a).mem) (l : List α) {s : State}
    (h : Canon W s.mem) : Canon W (l.foldl f s).mem := by
  induction l generalizing s with
  | nil => exact h
  | cons a l ih => exact ih (hf s a h)

/-- What an opened gate leaves: every state it answers has canonical memory. -/
structure CanonGate (W : Prop) (r : GateRes) : Prop where
  ok : ∀ {t}, r = .ok t → Canon W t.mem
  wait : ∀ {t}, r = .wait t → Canon W t.mem

theorem CanonGate.of_ok {s : State} (h : Canon W s.mem) : CanonGate W (.ok s) := ⟨fun e => by cases e; exact h, nofun⟩

theorem CanonGate.of_wait {s : State} (h : Canon W s.mem) : CanonGate W (.wait s) := ⟨nofun, fun e => by cases e; exact h⟩

theorem CanonGate.of_fail (f : FaultRec) : CanonGate W (.fail f) := ⟨nofun, nofun⟩

@[simp] theorem canon_write {m : Memory} (h : Canon W m) (a : Nat) (bs : List Byte) : Canon W (m.write a bs) :=
  ⟨fun w => Memory.wf_write (h.wf w) a bs⟩

@[simp] theorem canon_clear {m : Memory} (h : Canon W m) (a n : Nat) : Canon W (m.clear a n) := ⟨fun w => Memory.wf_clear (h.wf w) a n⟩

@[simp] theorem canon_accMem {m : Memory} (h : Canon W m) (pa : Nat) (op : AccOp) (w64 : Bool) (a cmp : Word) :
    Canon W (accMem m pa op w64 a cmp) := canon_write h ..

@[simp] theorem putCore_mem (s : State) (c : Core) : (s.putCore c).mem = s.mem := (putCore_frame s c).2

theorem canon_map_getD {α : Type} {o : Option α} {f : α → State} {s : State} (h : Canon W s.mem) (hf : ∀ a, Canon W (f a).mem) :
    Canon W ((o.map f).getD s).mem := by
  cases o with
  | none => exact h
  | some a => exact hf a

@[simp] theorem canon_seal {s : State} (h : Canon W s.mem) (key : Option Nat) (pa n : Nat) : Canon W (s.seal key pa n).mem :=
  ⟨fun w => State.wf_seal (h.wf w) key pa n⟩

@[simp] theorem revoke_mem (s : State) (asid base bytes : Nat) : (s.revoke asid base bytes).mem = s.mem := by rw [State.revoke]

@[simp] theorem canon_storeAt {s : State} (h : Canon W s.mem) (asid va pa : Nat) (bs : List Byte) : Canon W (s.storeAt asid va pa bs).mem :=
  ⟨fun w => State.wf_storeAt (h.wf w) asid va pa bs⟩

@[simp] theorem canon_storeRuns {s : State} (h : Canon W s.mem) (asid va : Nat) (rs : List (Nat × List Byte)) :
    Canon W (s.storeRuns asid va rs).mem := by
  unfold State.storeRuns
  generalize va = a
  induction rs generalizing s a with
  | nil => exact h
  | cons r rs ih => exact ih (canon_storeAt h ..) _

@[simp] theorem openRegion_mem (s : State) (a : AgentAt) (tick : Nat) (cmd : Bool) : (s.openRegion a tick cmd).1.mem = s.mem := by
  rw [State.openRegion]

theorem tagAccess_mem {s t : State} {rid : Nat} {l : List Nat} {k : AccKind} (e : s.tagAccess rid l k = .ok t) : t.mem = s.mem :=
  (tagAccess_frame e).mem

@[simp] theorem sweep_mem (s : State) : s.sweep.mem = s.mem := by rw [State.sweep]

@[simp] theorem closeRegion_mem (s : State) (rid : Nat) : (s.closeRegion rid).mem = s.mem := by simp [State.closeRegion]

@[simp] theorem release_mem (s : State) (f : Family) (scope : Nat) : (s.release f scope).mem = s.mem := by simp [State.release]

@[simp] theorem endFamily_mem (s : State) (f : Family) : (s.endFamily f).mem = s.mem := by simp [State.endFamily]

@[simp] theorem dropFamilyTags_mem (s : State) (f : Family) : (s.dropFamilyTags f).mem = s.mem := by simp [State.dropFamilyTags]

@[simp] theorem dropTicks_mem (s : State) (f : Family) (tick : Nat) : (s.dropTicks f tick).mem = s.mem := by simp [State.dropTicks]

@[simp] theorem dropDone_mem (s : State) (lo n : Nat) : (s.dropDone lo n).mem = s.mem := by simp [State.dropDone]

@[simp] theorem dropLines_mem (s : State) (lo n : Nat) : (s.dropLines lo n).mem = s.mem := by simp [State.dropLines]

@[simp] theorem unitRegion_mem (s : State) : s.unitRegion.1.mem = s.mem := by
  unfold State.unitRegion
  dsimp only
  split_ifs <;> simp

theorem unitTag_mem {s t : State} {l : List Nat} {k : AccKind} (e : s.unitTag l k = .ok t) : t.mem = s.mem :=
  (tagAccess_mem e).trans (unitRegion_mem s)

@[simp] theorem releaseRegion_mem (s : State) (rid scope : Nat) : (s.releaseRegion rid scope).mem = s.mem := by simp [State.releaseRegion]

@[simp] theorem regionAgain_mem (s : State) (a : AgentAt) (tick rid : Nat) : (s.regionAgain a tick rid).1.mem = s.mem := by
  unfold State.regionAgain
  split_ifs <;> rfl

@[simp] theorem unitClose_mem (s : State) : s.unitClose.mem = s.mem := by
  unfold State.unitClose
  dsimp only
  split <;> simp

@[simp] theorem canon_writeHeader {s : State} (h : Canon W s.mem) (asid ptr : Nat) (ws : List Word) :
    Canon W (s.writeHeader asid ptr ws).mem := by
  unfold State.writeHeader
  split <;> simp [h]

@[simp] theorem canon_syncHeader {s : State} (h : Canon W s.mem) (asid ptr : Nat) : Canon W (s.syncHeader asid ptr).mem :=
  h.of_kept (Kept.syncHeader s asid ptr)

@[simp] theorem canon_modFrame {s : State} (h : Canon W s.mem) (asid ptr : Nat) (g : Frame → Frame) : Canon W (s.modFrame asid ptr g).mem :=
  h.of_kept (Kept.modFrame s asid ptr g)

theorem canon_newFrame {s : State} (h : Canon W s.mem) {c : Ctx} {size parent : Nat} {t : State × Nat}
    (e : s.newFrame c size parent = some t) : Canon W t.1.mem := by
  obtain ⟨p, -, rfl⟩ := Option.map_eq_some_iff.mp e
  refine canon_writeHeader ?_ ..
  exact h

@[simp] theorem ready_mem (s : State) (d : Domain) (asid lv : Nat) (r : Ready) (front : Bool) : (s.ready d asid lv r front).mem = s.mem := by
  rw [State.ready]

@[simp] theorem enqueue_mem (s : State) (r : Rec) (d : Domain) : (s.enqueue r d).mem = s.mem := by simp [State.enqueue]

@[simp] theorem takePick_mem (s : State) (c : Cand) : (s.takePick c).mem = s.mem := by rw [State.takePick]

@[simp] theorem dropReady_mem (s : State) (p : Ready → Bool) : (s.dropReady p).mem = s.mem := by rw [State.dropReady]

@[simp] theorem canon_tryUnpark {s : State} (h : Canon W s.mem) (asid ptr : Nat) : Canon W (s.tryUnpark asid ptr).mem := by
  unfold State.tryUnpark
  split
  · exact h
  · split
    · exact h
    · split_ifs <;> simp [h]

@[simp] theorem dropFrame_mem (s : State) (asid ptr : Nat) : (s.dropFrame asid ptr).mem = s.mem := by rw [State.dropFrame]

@[simp] theorem canon_join {s : State} (h : Canon W s.mem) (asid ptr : Nat) : Canon W (s.join asid ptr).mem := by
  unfold State.join
  dsimp only
  repeat' split
  all_goals simp [h]

@[simp] theorem canon_endFrame {s : State} (h : Canon W s.mem) (asid ptr : Nat) : Canon W (s.endFrame asid ptr).mem := by
  unfold State.endFrame
  repeat' split
  all_goals simp [h]

theorem canon_rootTask {s : State} (h : Canon W s.mem) {c : Ctx} {entry size prio place launch : Nat} {reissue prov : Bool}
    {carry : List Word} {block serves : Option Nat} {t : State × Rec}
    (e : s.rootTask c entry size prio place launch reissue prov carry block serves = some t) : Canon W t.1.mem := by
  obtain ⟨p, new, rfl⟩ := Option.map_eq_some_iff.mp e
  exact canon_newFrame h new

@[simp] theorem onTeam_mem (s : State) (f : Core → Core) : (s.onTeam f).mem = s.mem := by simp [State.onTeam, foldl_mem]

@[simp] theorem trapReturn_mem (s : State) : s.trapReturn.mem = s.mem := by simp [State.trapReturn]

@[simp] theorem rollTeam_mem (s : State) (k : Nat) : (s.rollTeam k).mem = s.mem := by simp [State.rollTeam]

@[simp] theorem postFault_mem (s : State) (fn : Nat) (w : List Word) : (s.postFault fn w).mem = s.mem := by simp [State.postFault]

@[simp] theorem canon_serveCommits {s : State} (h : Canon W s.mem) : Canon W s.serveCommits.mem := by
  unfold State.serveCommits
  refine canon_foldl (fun s q hs => ?_) _ h
  split_ifs
  · exact hs
  · split
    · exact hs
    · dsimp only
      split
      · exact hs
      · rename_i new
        exact canon_rootTask hs new

@[simp] theorem canon_commitRequest {s : State} (h : Canon W s.mem) (asid page size pool va : Nat) :
    Canon W (s.commitRequest asid page size pool va).1.mem := by
  unfold State.commitRequest
  split <;> simp [h]

@[simp] theorem pagingRequest_mem (s : State) (f : FaultRec) (replay : Bool) : (s.pagingRequest f replay).1.mem = s.mem := by
  simp [State.pagingRequest]

@[simp] theorem trapTeam_mem (s : State) (fs : List (Nat × FaultRec)) (replay : Bool) : (s.trapTeam fs replay).mem = s.mem := by
  unfold State.trapTeam
  split <;> simp [foldl_mem]

@[simp] theorem endTeam_mem (s : State) (f : FaultRec) (discard : Bool) : (s.endTeam f discard).mem = s.mem := by
  simp [State.endTeam, foldl_mem]

@[simp] theorem parkTeam_mem (s : State) (k n : Nat) : (s.parkTeam k n).mem = s.mem := by simp [State.parkTeam]

@[simp] theorem canon_rollFault {s : State} (h : Canon W s.mem) (f : FaultRec) : Canon W (s.rollFault f).mem := by
  unfold State.rollFault
  dsimp only
  repeat' split
  all_goals simp [h]

@[simp] theorem clearReported_mem (s : State) (fs : List (Nat × FaultRec)) : (s.clearReported fs).mem = s.mem := by
  refine foldl_mem (fun s e => ?_) fs s
  split <;> simp

@[simp] theorem canon_enterFaults {s : State} (h : Canon W s.mem) (fs : List (Nat × FaultRec)) : Canon W (State.enterFaults fs s).mem := by
  unfold State.enterFaults
  dsimp only
  repeat' split
  all_goals simp [h]

@[simp] theorem canon_enterFault {s : State} (h : Canon W s.mem) (f : FaultRec) : Canon W (enterFault f s).mem := by simp [enterFault, h]

@[simp] theorem clWakeWrite_mem (s : State) (k : Nat) : (s.clWakeWrite k).mem = s.mem := by simp [State.clWakeWrite]

@[simp] theorem clStartWrite_mem (s : State) (k : Nat) (v : Word) : (s.clStartWrite k v).mem = s.mem := by
  unfold State.clStartWrite
  dsimp only
  split_ifs <;> simp

@[simp] theorem canon_logStore {s : State} (h : Canon W s.mem) (t : TeamStore) (b : State) : Canon W (s.logStore t b).mem :=
  h.of_kept (Kept.logStore s t b)

@[simp] theorem canon_storeOwn {s : State} (h : Canon W s.mem) (off : Nat) (bs : List Byte) : Canon W (s.storeOwn off bs).mem := by
  unfold State.storeOwn
  refine canon_logStore ?_ ..
  exact h

theorem tagRanges_mem {core : Nat} {kind : AccKind} (l : List (Nat × Nat)) :
    ∀ {s t : State}, s.tagRanges core kind l = .ok t → t.mem = s.mem := by
  induction l with
  | nil =>
    intro s t e
    cases e
    rfl
  | cons r rest ih =>
    intro s t e
    unfold State.tagRanges at e
    dsimp only at e
    split_ifs at e
    · exact ih e
    · split at e
      · cases e
      · cases e
      · rename_i tagged
        exact (ih e).trans (unitTag_mem tagged)
    · exact ih e
    · split at e
      · cases e
      · cases e
      · rename_i tagged
        exact (ih e).trans (unitTag_mem tagged)

@[simp] theorem freshGate_mem (s : State) : s.freshGate.mem = s.mem := by
  unfold State.freshGate
  split <;> simp

theorem canon_performEntry {s t : State} (h : Canon W s.mem) {op : GateOp} {idx : Nat} (e : s.performEntry op idx = some t) : Canon W t.mem :=
  h.of_kept (Kept.performEntry e)

theorem canon_checkEntry {s : State} (h : Canon W s.mem) (g : GateEnt) : CanonGate W (s.checkEntry g) := by
  unfold State.checkEntry
  split
  · exact CanonGate.of_fail _
  · split_ifs
    · exact CanonGate.of_ok h
    · split
      · rename_i tagged
        exact CanonGate.of_ok (h.of_eq (unitTag_mem tagged))
      · exact CanonGate.of_fail _
      · exact CanonGate.of_wait h

theorem canon_checkEntries {s : State} (h : Canon W s.mem) (gs : List GateEnt) : CanonGate W (s.checkEntries gs) := by
  induction gs generalizing s with
  | nil => exact CanonGate.of_ok h
  | cons g gs ih =>
    have checked := canon_checkEntry h g
    unfold State.checkEntries
    split
    · rename_i e
      exact ih (checked.ok e)
    · exact checked

theorem canon_performGate {s : State} (h : Canon W s.mem) (gs : List GateEnt) : CanonGate W (s.performGate gs) := by
  induction gs generalizing s with
  | nil => exact CanonGate.of_ok (h.of_eq (State.mapCore_mem ..))
  | cons g gs ih =>
    unfold State.performGate
    split
    · rename_i t done
      refine ih ?_
      split_ifs at done
      · cases done
        exact h
      · exact canon_performEntry h done
    · exact CanonGate.of_wait (h.of_eq (State.mapCore_mem ..))

theorem canon_openGate {s : State} (h : Canon W s.mem) : CanonGate W s.openGate := by
  have checked := canon_checkEntries (h.of_eq (freshGate_mem s)) s.freshGate.core.rg.gate
  unfold State.openGate
  dsimp only
  split
  · rename_i e
    exact canon_performGate ((checked.ok e).of_eq (State.mapCore_mem ..)) _
  · exact checked

@[simp] theorem closed_mem (s : State) : s.closed.mem = s.mem := by simp [State.closed]

@[simp] theorem canon_teamVisible {s : State} (h : Canon W s.mem) : Canon W s.teamVisible.mem := h.of_kept (Kept.teamVisible s)

@[simp] theorem canon_unitRelease {s : State} (h : Canon W s.mem) (scope : Nat) : Canon W (s.unitRelease scope).mem := by
  unfold State.unitRelease
  split <;> simp [h]

@[simp] theorem canon_deferOr {s : State} (h : Canon W s.mem) (act : Deferred) {now : State → State} (hn : Canon W (now s).mem) :
    Canon W (s.deferOr act now).mem := by
  unfold State.deferOr
  split
  · exact hn
  · exact h

@[simp] theorem canon_releaseNow {s : State} (h : Canon W s.mem) (scope : Nat) : Canon W (s.releaseNow scope).mem := by
  simp [State.releaseNow, h]

@[simp] theorem modPool_mem (s : State) (a n : Nat) (f : Pool → Pool) : (s.modPool a n f).mem = s.mem := by simp [State.modPool]

@[simp] theorem canon_mapLeaves {s : State} (h : Canon W s.mem) (asid va n : Nat) (f : Nat → Nat → Nat) :
    Canon W (s.mapLeaves asid va n f).mem := by
  refine canon_foldl (fun s a hs => ?_) _ h
  split
  · exact hs
  · exact canon_write hs ..

@[simp] theorem drained_mem (s : State) (asid pool blk : Nat) : (s.drained asid pool blk).mem = s.mem := by
  unfold State.drained
  split
  · split_ifs <;> simp
  · rfl

@[simp] theorem setHolds_mem (s : State) (asid core agent : Nat) (bs : List (Nat × Nat)) : (s.setHolds asid core agent bs).mem = s.mem := by
  rw [State.setHolds]

@[simp] theorem dropTags_mem (s : State) (pa n : Nat) : (s.dropTags pa n).mem = s.mem := by simp [State.dropTags]

@[simp] theorem canon_leaveBlock {s : State} (h : Canon W s.mem) (asid pool blk : Nat) : Canon W (s.leaveBlock asid pool blk).mem := by
  unfold State.leaveBlock
  split <;> simp [h]

theorem canon_takeBlock {s : State} (h : Canon W s.mem) {asid pool : Nat} {z : Bool} {st : BlkState} {t : State × Nat}
    (e : s.takeBlock asid pool z st = some t) : Canon W t.1.mem := by
  unfold State.takeBlock at e
  split at e
  · cases e
  · split at e
    · cases e
    · cases e
      dsimp only
      split_ifs
      · exact canon_foldl (fun s a hs => canon_clear hs ..) _ (by simp [foldl_mem, h])
      · simp [foldl_mem, h]

@[simp] theorem canon_qalloc {s : State} (h : Canon W s.mem) (asid pool : Nat) (z : Bool) : Canon W (s.qalloc asid pool z).1.mem := by
  unfold State.qalloc
  split_ifs
  · exact h
  · dsimp only
    split
    · exact h
    · rename_i taken
      exact canon_takeBlock h taken

@[simp] theorem canon_qfree {s : State} (h : Canon W s.mem) (asid : Nat) (a : Word) : Canon W (s.qfree asid a).1.mem := by
  unfold State.qfree
  split
  · exact h
  · split
    · exact h
    · split_ifs <;> simp [h]

@[simp] theorem canon_pcommit {s : State} (h : Canon W s.mem) (asid va k pool : Nat) : Canon W (s.pcommit asid va k pool).1.mem := by
  unfold State.pcommit
  split
  · exact h
  · dsimp only
    split_ifs
    · exact h
    · exact h
    · split
      · exact h
      · rename_i taken
        exact canon_mapLeaves (s := _) (canon_takeBlock h taken) ..

@[simp] theorem canon_pdecommit {s : State} (h : Canon W s.mem) (asid va : Nat) : Canon W (s.pdecommit asid va).1.mem := by
  unfold State.pdecommit
  split
  · exact h
  · dsimp only
    split_ifs
    · exact h
    · exact h
    · split
      · exact canon_leaveBlock (canon_mapLeaves (by simp [foldl_mem, h]) ..) ..
      · exact canon_mapLeaves (by simp [foldl_mem, h]) ..

@[simp] theorem canon_writeBack {s : State} (h : Canon W s.mem) (d : SigDecl) (sig slot i : Nat) : Canon W (s.writeBack d sig slot i).mem := by
  unfold State.writeBack
  split <;> simp [h]

@[simp] theorem publish_mem (s : State) (sig : Nat) (d : SigDecl) : (s.publish sig d).mem = s.mem := by
  unfold State.publish
  dsimp only
  repeat' split
  all_goals simp

@[simp] theorem serveTaps_mem (s : State) : s.serveTaps.mem = s.mem := by simp [State.serveTaps]

@[simp] theorem sealTick_mem (s : State) : s.sealTick.mem = s.mem := by simp [State.sealTick, foldl_mem]

@[simp] theorem canon_openTick {s : State} (h : Canon W s.mem) : Canon W s.openTick.mem := by
  unfold State.openTick
  refine canon_foldl (fun s e hs => ?_) _ (by simp [h])
  dsimp only
  split_ifs
  · exact hs
  · refine canon_foldl (fun s k hs => ?_) _ hs
    split_ifs
    · exact hs
    · exact canon_writeBack (by simp [hs]) ..
    · simp [hs]

@[simp] theorem countTicks_mem (s : State) : s.countTicks.mem = s.mem := by
  unfold State.countTicks
  repeat' split
  all_goals simp

@[simp] theorem canon_tick {s : State} (h : Canon W s.mem) (last : Bool) : Canon W (s.tick last).mem := by
  unfold State.tick
  split <;> simp [h]

@[simp] theorem attnTile_mem (s : State) (e : TileEnt) (o : AttnOp) (p : Profile) (j : Nat) : (s.attnTile e o p j).mem = s.mem := by
  simp [State.attnTile]

@[simp] theorem serveWait_mem (s : State) (w : Wait) : (s.serveWait w).mem = s.mem := by
  unfold State.serveWait
  split <;> simp

@[simp] theorem serveFlag_mem (s : State) (core f : Nat) : (s.serveFlag core f).mem = s.mem := by
  unfold State.serveFlag
  split
  · rfl
  · refine foldl_mem (fun s w => ?_) _ _
    split_ifs <;> simp

@[simp] theorem applyPost_mem (s : State) (core f n : Nat) : (s.applyPost core f n).mem = s.mem := by simp [State.applyPost]

@[simp] theorem post_mem (s : State) (here : Nat) (d : Word) (dest : Family) (n : Nat) : (s.post here d dest n).mem = s.mem := by
  unfold State.post
  dsimp only
  split_ifs <;> simp

@[simp] theorem deliverPost_mem (s : State) (core f n : Nat) (dest : Family) : (s.deliverPost core f n dest).mem = s.mem := by
  unfold State.deliverPost
  split <;> simp

@[simp] theorem canon_writeCell {s : State} (h : Canon W s.mem) (asid va : Nat) (w : Word) : Canon W (s.writeCell asid va w).mem := by
  unfold State.writeCell
  split <;> simp [h]

@[simp] theorem canon_finishColl {s : State} (h : Canon W s.mem) (c : Coll) (status : Nat) : Canon W (s.finishColl c status).mem := by
  unfold State.finishColl
  dsimp only
  repeat' split
  all_goals simp [h]

@[simp] theorem canon_submitColl {s : State} (h : Canon W s.mem) (c : Coll) : Canon W (s.submitColl c).mem := by
  unfold State.submitColl
  repeat' split
  all_goals simp [h]

@[simp] theorem readAgain_mem (s : State) (a : Again) : (s.readAgain a).1.mem = s.mem := by
  unfold State.readAgain
  split
  · split
    · rfl
    · split
      · rfl
      · rfl
      · rename_i tagged
        exact unitTag_mem tagged
  · dsimp only
    split
    · rename_i tagged
      exact tagRanges_mem _ tagged
    · rfl
    · rfl

@[simp] theorem issueAgain_mem (s : State) : s.issueAgain.mem = s.mem := by
  refine foldl_mem (fun s r => ?_) _ _
  split <;> simp

@[simp] theorem holdAt_mem (s : State) (q pa : Nat) : (s.holdAt q pa).mem = s.mem := by
  unfold State.holdAt
  split
  · split_ifs <;> rfl
  · rfl

@[simp] theorem notice_mem (r : Run) (s : State) : (r.notice s).mem = s.mem := by
  unfold Run.notice
  split
  · rfl
  · split
    · simp
    · dsimp only
      split_ifs <;> simp

@[simp] theorem keepHolds_mem (s : State) (q : Nat) (left : List (Nat × Nat)) : (s.keepHolds q left).mem = s.mem := by rw [State.keepHolds]

@[simp] theorem servePhaser_mem (s : State) (cluster asid n : Nat) : (s.servePhaser cluster asid n).mem = s.mem := by
  refine foldl_mem (fun s w => ?_) _ _
  dsimp only
  split_ifs
  · rfl
  · split
    · rfl
    · split_ifs <;> simp

theorem canon_fork {s t : State} (h : Canon W s.mem) {u : UnitInfo} {c : Ctx} {entry val : Word} {size : Nat}
    (e : s.fork u c entry val size = some t) : Canon W t.mem := by
  obtain ⟨p, new, rfl⟩ := Option.map_eq_some_iff.mp e
  have made := canon_newFrame h new
  obtain ⟨t, p⟩ := p
  dsimp only at made ⊢
  split
  · exact canon_releaseNow (canon_modFrame made ..) _
  · refine canon_releaseNow ?_ _
    exact canon_modFrame made ..

@[simp] theorem recordWait_mem (s : State) (u : UnitInfo) (obj : WaitObj) (d : Word) : (s.recordWait u obj d).mem = s.mem := by
  unfold State.recordWait
  cases obj <;> simp

@[simp] theorem dropBedTags_mem (s : State) (n : Nat) : (s.dropBedTags n).mem = s.mem := by simp [State.dropBedTags]

@[simp] theorem canon_vacate {s : State} (h : Canon W s.mem) (n : Nat) : Canon W (s.vacate n).mem := by rwa [vacate_mem]

@[simp] theorem startTask_mem (s : State) (n : Nat) (r : Rec) : (s.startTask n r).mem = s.mem := by
  unfold State.startTask
  split <;> simp

@[simp] theorem dropFailing_mem (s : State) : s.dropFailing.mem = s.mem := by simp [State.dropFailing]

@[simp] theorem unitRecord_mem (s : State) (n kind : Nat) (info va pc : Word) : (s.unitRecord n kind info va pc).mem = s.mem := by
  simp [State.unitRecord]

@[simp] theorem reportQueues_mem (s : State) (ns : List Nat) : (s.reportQueues ns).mem = s.mem := by simp [State.reportQueues, foldl_mem]

@[simp] theorem dropParties_mem (s : State) (f : Family) : (s.dropParties f).mem = s.mem := by
  refine foldl_mem (fun s e => ?_) _ _
  simp

@[simp] theorem mapAllCores_mem (s : State) (f : Core → Core) : (s.mapAllCores f).mem = s.mem := by rw [State.mapAllCores]

@[simp] theorem resumeRequest_mem (s : State) (n : Nat) : (s.resumeRequest n).mem = s.mem := by
  unfold State.resumeRequest
  split <;> simp

@[simp] theorem canon_taskGone {s : State} (h : Canon W s.mem) (asid frame launch : Nat) (block serves : Option Nat) (failed : Bool) :
    Canon W (s.taskGone asid frame launch block serves failed).mem := by
  unfold State.taskGone
  split <;> simp [h]

@[simp] theorem canon_endDead {s : State} (h : Canon W s.mem) (ticket : Nat) : Canon W (s.endDead ticket).mem := by
  unfold State.endDead
  dsimp only
  repeat' split
  all_goals simp [h]

@[simp] theorem canon_dropWaiters {s : State} (h : Canon W s.mem) (f : Family) : Canon W (s.dropWaiters f).mem := by
  unfold State.dropWaiters
  exact canon_foldl (fun s w hs => canon_endDead hs w.ticket) _ h

@[simp] theorem canon_endRelease {s : State} (h : Canon W s.mem) (u : UnitInfo) : Canon W (s.endRelease u).mem := by
  simp [State.endRelease, h]

@[simp] theorem canon_leave {s : State} (h : Canon W s.mem) (u : UnitInfo) (failed : Bool) : Canon W (s.leave u failed).mem := by
  have empty : Canon W ((s.core.team.foldl State.vacate (s.endRelease u)).mem) := canon_foldl (fun s n hs => canon_vacate hs n) _ (by simp [h])
  unfold State.leave
  dsimp only
  split_ifs
  · simp [empty]
  · refine canon_taskGone ?_ ..
    exact empty

@[simp] theorem canon_finishUnit {s : State} (h : Canon W s.mem) (u : UnitInfo) (byFault : Bool) : Canon W (s.finishUnit u byFault).mem := by
  unfold State.finishUnit
  dsimp only
  split_ifs <;> simp [h]

@[simp] theorem canon_endInstead {s : State} (h : Canon W s.mem) (u : UnitInfo) (f : FaultRec) : Canon W (s.endInstead u f).mem := by
  unfold State.endInstead
  split <;> simp [h]

theorem canon_placeRecord {s t : State} (h : Canon W s.mem) {u : UnitInfo} {r : Rec} {k : EndKind}
    (e : s.placeRecord u r k = some t) : Canon W t.mem := by
  unfold State.placeRecord at e
  dsimp only at e
  split at e
  · cases e
    simp [h]
  · split at e
    · cases e
    · split_ifs at e
      · cases e
        simp [h]
      · cases e
        exact h
  · cases e
    simp [h]

@[simp] theorem canon_suspend {s : State} (h : Canon W s.mem) (u : UnitInfo) (k : EndKind) : Canon W (s.suspend u k).mem := by
  unfold State.suspend
  dsimp only
  split
  · exact h
  · split
    · exact canon_finishUnit h ..
    · split
      · exact canon_endInstead h ..
      · split
        · exact canon_endInstead h ..
        · split
          · exact h
          · rename_i placed
            exact canon_vacate (canon_placeRecord (by simp [h]) placed) _

@[simp] theorem pickRecord_mem (s : State) (r : Rec) : (s.pickRecord r).1.mem = s.mem := by
  unfold State.pickRecord
  repeat' split
  all_goals simp

@[simp] theorem restoreOn_mem (s : State) (n : Nat) (i : Image) : (s.restoreOn n i).mem = s.mem := by
  unfold State.restoreOn
  refine (foldl_mem (fun s f => serveFlag_mem s n f) _ _).trans ?_
  simp

@[simp] theorem saveCore_mem (s : State) (n : Nat) (gang : Bool) (prio : Nat) : (s.saveCore n gang prio).1.mem = s.mem := vacate_mem ..

@[simp] theorem preemptLaunch_mem (s : State) (l : Launch) : (s.preemptLaunch l).mem = s.mem := by
  unfold State.preemptLaunch
  dsimp only
  split_ifs
  · rfl
  · exact foldl_mem (fun s n => saveCore_mem ..) _ _

@[simp] theorem answer_mem (s : State) (n : Nat) (w : Word) : (s.answer n w).mem = s.mem := by simp [State.answer]

@[simp] theorem appendHw_mem (s : State) (n : Nat) (e : HwEnt) : (s.appendHw n e).mem = s.mem := by rw [State.appendHw]

@[simp] theorem completeHost_mem (s : State) (h : Option (Nat × Nat × BitVec 32)) (status shape id : Nat) :
    (s.completeHost h status shape id).mem = s.mem := by
  unfold State.completeHost
  split <;> simp

@[simp] theorem answerSubmit_mem (s : State) (m : Submit) (w : Word) : (s.answerSubmit m w).mem = s.mem :=
  foldl_mem (fun _ _ => answer_mem ..) _ _

@[simp] theorem refuseSubmit_mem (s : State) (m : Submit) (status : Nat) : (s.refuseSubmit m status).mem = s.mem := by
  unfold State.refuseSubmit
  dsimp only
  split_ifs <;> simp

@[simp] theorem nextIds_mem (s : State) (asid : Nat) : (s.nextIds asid).1.mem = s.mem := by simp [State.nextIds]

@[simp] theorem accept_mem (s : State) (m : Submit) : (s.accept m).mem = s.mem := by
  unfold State.accept
  dsimp only
  repeat' split
  all_goals simp

@[simp] theorem insertKernel_mem (s : State) (n : Nat) (key : Nat) : (s.insertKernel n key).mem = s.mem := by rw [State.insertKernel]

@[simp] theorem visitKernel_mem (s : State) (g : Graph) (w : List Word) : (s.visitKernel g w).mem = s.mem := by
  unfold State.visitKernel
  split <;> simp

@[simp] theorem visitNode_mem (s : State) (g : Graph) (n : Nat) (w : List Word) : (s.visitNode g n w).mem = s.mem := by
  unfold State.visitNode
  dsimp only
  repeat' split
  all_goals simp

@[simp] theorem visitGraph_mem (s : State) (g : Graph) : (s.visitGraph g).mem = s.mem := by
  unfold State.visitGraph
  dsimp only
  repeat' split
  all_goals simp

@[simp] theorem startGraph_mem (s : State) (g : Graph) : (s.startGraph g).mem = s.mem := by simp [State.startGraph]

@[simp] theorem countKernel_mem (s : State) (l : Launch) : (s.countKernel l).mem = s.mem := by
  unfold State.countKernel
  split <;> simp

theorem canon_deal {s t : State} (h : Canon W s.mem) {l : Launch} (e : s.deal l = some t) : Canon W t.mem := by
  unfold State.deal at e
  split_ifs at e
  split at e
  · split_ifs at e
    obtain ⟨r, made, rfl⟩ := Option.map_eq_some_iff.mp e
    simpa using canon_rootTask h made
  · cases e

theorem canon_dealAgain {s t : State} (h : Canon W s.mem) {l : Launch} (e : s.dealAgain l = some t) : Canon W t.mem := by
  unfold State.dealAgain at e
  split at e
  · dsimp only at e
    split_ifs at e
    split at e
    · rename_i made
      cases e
      simpa using canon_rootTask h made
    · cases e
  · cases e

theorem canon_startGrid {s t : State} (h : Canon W s.mem) {l : Launch} (e : s.startGrid l = some t) : Canon W t.mem := by
  unfold State.startGrid at e
  dsimp only at e
  split_ifs at e
  · cases e
    exact h
  · exact canon_deal (by simpa using h) e

theorem startGang_mem {s t : State} {l : Launch} (e : s.startGang l = some t) : t.mem = s.mem := by
  unfold State.startGang at e
  split_ifs at e
  obtain ⟨firsts, -, rfl⟩ := Option.map_eq_some_iff.mp e
  dsimp only
  split_ifs <;> simp

@[simp] theorem reserve_mem (s : State) (l : Launch) : (s.reserve l).mem = s.mem := by
  unfold State.reserve
  dsimp only
  repeat' split
  all_goals simp

@[simp] theorem popHw_mem (s : State) (n : Nat) : (s.popHw n).mem = s.mem := by rw [State.popHw]

@[simp] theorem canon_startHead {s : State} (h : Canon W s.mem) (q : HwQueue) : Canon W (s.startHead q).1.mem := by
  unfold State.startHead
  split
  · split
    · simp [h]
    · split_ifs
      · split
        · rename_i started
          simpa using h.of_eq (startGang_mem started)
        · simp [h]
      · split
        · rename_i started
          simpa using canon_startGrid h started
        · exact h
  · split <;> simp [h]
  · simp [h]
  · exact h

theorem canon_serveQueues (fuel : Nat) : ∀ {s : State}, Canon W s.mem → ∀ tried : List Nat, Canon W (s.serveQueues fuel tried).mem := by
  induction fuel with
  | zero => exact fun h _ => h
  | succ fuel ih =>
    intro s h tried
    unfold State.serveQueues
    split
    · exact h
    · rename_i q _ _ _
      have started := canon_startHead h q
      split
      · rename_i e
        rw [e] at started
        exact started
      · rename_i e
        rw [e] at started
        exact ih started _

@[simp] theorem canon_clearRefused {s : State} (h : Canon W s.mem) : Canon W s.clearRefused.mem := by
  refine canon_foldl (fun s q hs => canon_foldl (fun s _ hs => ?_) _ hs) _ h
  split <;> simp [hs]

@[simp] theorem preemptReserved_mem (s : State) : s.preemptReserved.mem = s.mem := by
  unfold State.preemptReserved
  split
  · rfl
  · refine foldl_mem (fun s l => ?_) _ _
    split_ifs <;> simp

@[simp] theorem canon_completeLaunch {s : State} (h : Canon W s.mem) (l : Launch) : Canon W (s.completeLaunch l).mem := by
  unfold State.completeLaunch
  dsimp only
  split_ifs <;> simp [noticeLaunch_mem, h]

@[simp] theorem canon_completeGraph {s : State} (h : Canon W s.mem) (g : Graph) : Canon W (s.completeGraph g).mem := by
  unfold State.completeGraph
  dsimp only
  split_ifs <;> simp [noticeLaunch_mem, h]

@[simp] theorem commitBed_mem (s : State) (asid launch core : Nat) (f : CoreMem → CoreMem) : (s.commitBed asid launch core f).mem = s.mem := by
  unfold State.commitBed
  dsimp only
  split <;> simp

@[simp] theorem canon_performProv {s : State} (h : Canon W s.mem) (asid : Nat) (w : ProvWrite) : Canon W (s.performProv asid w).mem := by
  cases w with
  | bytes => exact canon_storeAt h ..
  | remote => exact h.of_eq (commitBed_mem ..)
  | accw => exact canon_accMem (canon_seal h ..) ..
  | accwBed => exact h.of_eq (commitBed_mem ..)

theorem canon_commitWrite {s t : State} (h : Canon W s.mem) {e : ProvEnt} (c : s.commitWrite e = some t) : Canon W t.mem := by
  unfold State.commitWrite at c
  split_ifs at c
  dsimp only at c
  split at c
  · rename_i tagged
    cases c
    have kept : Canon W _ := h.of_eq ((tagAccess_mem tagged).trans (regionAgain_mem ..))
    simp [kept]
  · cases c

@[simp] theorem canon_commitAct {s : State} (h : Canon W s.mem) (e : DeferEnt) : Canon W (s.commitAct e).mem := by
  unfold State.commitAct
  dsimp only
  split
  · split_ifs <;> simp [h]
  · simp [h]
  · simp [h]
  · simp [h]
  · simp [h]
  · split
    · split_ifs <;> simp [h]
    · simp [h]
  · simp [h]

theorem canon_commitWrites {key : Nat} (es : List ProvEnt) : ∀ {s : State}, Canon W s.mem → Canon W (s.commitWrites key es).1.mem := by
  induction es with
  | nil => exact fun h => h
  | cons e es ih =>
    intro s h
    unfold State.commitWrites
    split
    · exact h
    · rename_i done
      exact ih (by simpa using canon_commitWrite h done)

@[simp] theorem canon_commitUnit {s : State} (h : Canon W s.mem) (key b : Nat) : Canon W (s.commitUnit key b).1.mem := by
  unfold State.commitUnit
  split
  · exact h
  · rename_i l _
    have written := canon_commitWrites (key := key) (l.prov.filter (·.unit == b)) h
    split
    · rename_i e
      rwa [e] at written
    · rename_i e
      rw [e] at written
      exact canon_foldl (fun s e hs => canon_commitAct hs e) _ (by simpa using written)

theorem canon_commitTicks {key : Nat} (ts : List Nat) : ∀ {s : State}, Canon W s.mem → Canon W (s.commitTicks key ts).mem := by
  induction ts with
  | nil => exact fun h => h
  | cons b bs ih =>
    intro s h
    have done := canon_commitUnit h key b
    unfold State.commitTicks
    split
    · rename_i e
      rw [e] at done
      exact ih done
    · rename_i e
      rwa [e] at done

@[simp] theorem mapRecs_mem (s : State) (f : Rec → Rec) : (s.mapRecs f).mem = s.mem := by rw [State.mapRecs]

@[simp] theorem canon_confirmBlock {s : State} (h : Canon W s.mem) (l : Launch) (b : Nat) : Canon W (s.confirmBlock l b).mem :=
  canon_foldl (fun s f hs => canon_syncHeader hs ..) _ (by simp [h])

@[simp] theorem keepBlocks_mem (s : State) (l : Launch) (b : Nat) : (s.keepBlocks l b).mem = s.mem := by simp [State.keepBlocks, foldl_mem]

@[simp] theorem discard_mem (s : State) (p : TaskSel) : (s.discard p).mem = s.mem := by
  unfold State.discard
  refine (foldl_mem (fun s n => vacate_mem s n) _ _).trans ?_
  simp

@[simp] theorem clearEntries_mem (s : State) (asid addr : Nat) : (s.clearEntries asid addr).mem = s.mem := by simp [State.clearEntries]

@[simp] theorem canon_returnBlocks {s : State} (h : Canon W s.mem) (l : Launch) (b : Nat) : Canon W (s.returnBlocks l b).mem := by
  unfold State.returnBlocks
  split
  · exact h
  · exact canon_foldl (fun s i hs => by simp [hs]) _ h

@[simp] theorem canon_squash {s : State} (h : Canon W s.mem) (l : Launch) (b : Nat) : Canon W (s.squash l b).mem := by
  unfold State.squash
  simp [foldl_mem, h]

@[simp] theorem dropBlock_mem (s : State) (l : Launch) (b : Nat) : (s.dropBlock l b).mem = s.mem := by simp [State.dropBlock]

@[simp] theorem canon_blockEvents {s : State} (h : Canon W s.mem) (key : Nat) : Canon W (s.blockEvents key).mem := by
  unfold State.blockEvents
  split
  · exact h
  · refine canon_foldl (fun s e hs => ?_) _ h
    split
    · exact hs
    · split
      · split_ifs <;> simp [hs]
      · split_ifs <;> simp [hs]
      · split_ifs <;> simp [hs]
      · exact hs

@[simp] theorem canon_cutStreams {s : State} (h : Canon W s.mem) (l : Launch) (n : Nat) : Canon W (s.cutStreams l n).mem := by
  have returned (ts : List Nat) : Canon W (ts.foldl (fun s t => s.returnBlocks l t) s).mem :=
    canon_foldl (fun s t hs => canon_returnBlocks hs l t) _ h
  unfold State.cutStreams
  refine Canon.of_eq ?_ (State.modLaunch_mem ..)
  refine canon_foldl (fun s f hs => canon_dropWaiters (by simpa using hs) f) _ ?_
  simp [foldl_mem, returned]

@[simp] theorem observe_mem (s : State) (l : Launch) (n : Nat) : (s.observe l n).mem = s.mem := rfl

@[simp] theorem canon_shapeEvents {s : State} (h : Canon W s.mem) (key : Nat) : Canon W (s.shapeEvents key).mem := by
  unfold State.shapeEvents
  dsimp only
  repeat' split
  all_goals simp [h, foldl_mem]

@[simp] theorem canon_postShape {s : State} (h : Canon W s.mem) (l : Launch) (m : ShapeMsg) : Canon W (s.postShape l m).mem := by
  unfold State.postShape
  split_ifs
  · exact canon_shapeEvents (by simpa using h) _
  · exact canon_shapeEvents (by simpa using h) _
  · exact h

@[simp] theorem dropHeld_mem (s : State) (n : Nat) : (s.dropHeld n).mem = s.mem := by
  unfold State.dropHeld
  refine foldl_mem (fun s e => ?_) _ _
  split_ifs <;> simp

@[simp] theorem mailboxDone_mem (s : State) (fn status : Nat) : (s.mailboxDone fn status).mem = s.mem := by simp [State.mailboxDone]

@[simp] theorem withdraw_mem (s : State) (asid : Nat) : (s.withdraw asid).mem = s.mem := by rw [State.withdraw]

@[simp] theorem dropCtx_mem (s : State) (a : Nat) : (s.dropCtx a).mem = s.mem := by simp [State.dropCtx]

@[simp] theorem spdmAnswers_mem (s : State) (ok : Bool) (f : Spdm → Spdm) (ws : List Word) : (s.spdmAnswers ok f ws).mem = s.mem := by
  unfold State.spdmAnswers
  split <;> simp

@[simp] theorem dropReserve_mem (s : State) : s.dropReserve.mem = s.mem := by
  unfold State.dropReserve
  split <;> simp

@[simp] theorem canon_abortQueues {s : State} (h : Canon W s.mem) (fn status : Nat) : Canon W (s.abortQueues fn status).mem := by
  unfold State.abortQueues
  refine (canon_foldl (fun s q hs => ?_) _ h).of_eq (dropReserve_mem _)
  refine canon_foldl (fun s e hs => ?_) _ hs
  split
  · split <;> simp [hs]
  · split <;> simp [hs]
  · simp [hs]

theorem setTdisp_mem {s t : State} {fn : Nat} {old new : Tdisp} (e : s.setTdisp fn old new = some t) : t.mem = s.mem := by
  unfold State.setTdisp at e
  split_ifs at e
  split at e
  · cases e
  · split_ifs at e
    cases e
    rfl

@[simp] theorem canon_discardGangs {s : State} (h : Canon W s.mem) (p : Nat → Nat → Bool) : Canon W (s.discardGangs p).mem := by
  unfold State.discardGangs
  refine canon_foldl (fun s f hs => canon_dropWaiters (by simpa using hs) f) _ ?_
  simpa [foldl_mem, vacate_mem] using h

@[simp] theorem canon_cutLaunch {s : State} (h : Canon W s.mem) (l : Launch) (status : Nat) : Canon W (s.cutLaunch l status).mem := by
  unfold State.cutLaunch
  have returned {u : State} (hu : Canon W u.mem) (bs : List (Nat × BlockSt)) : Canon W (bs.foldl (fun s e => s.returnBlocks l e.1) u).mem :=
    canon_foldl (fun s e hs => canon_returnBlocks hs l e.1) _ hu
  simp [foldl_mem, returned, h]

@[simp] theorem canon_loseTask {s : State} (h : Canon W s.mem) (t : Lost) : Canon W (s.loseTask t).mem := by
  unfold State.loseTask
  refine canon_taskGone ?_ ..
  simp [foldl_mem, vacate_mem, h]

@[simp] theorem canon_reissue {s : State} (h : Canon W s.mem) (l : Launch) (b : Nat) : Canon W (s.reissue l b).mem := by
  unfold State.reissue
  simp [foldl_mem, h]

@[simp] theorem canon_loseOf {s : State} (h : Canon W s.mem) (t : Lost) : Canon W (s.loseOf t).mem := by
  unfold State.loseOf
  dsimp only
  split <;> simp [h]

@[simp] theorem canon_repair {s : State} (h : Canon W s.mem) (d : Nat) (lost : List Lost) (gone : Nat → Nat → Bool) (key : Nat) :
    Canon W (s.repair d lost gone key).mem := by
  unfold State.repair
  split
  · exact h
  · dsimp only
    split_ifs
    · simp [h]
    · exact h
    · exact h
    · refine canon_foldl (fun s b hs => ?_) _ h
      split
      · exact hs
      · split_ifs <;> simp [hs]
    · exact canon_foldl (fun s t hs => canon_loseOf hs t) _ (by simp [h])

@[simp] theorem relink_mem (s : State) (f : Fabric → Fabric) : (s.relink f).mem = s.mem := by simp [State.relink]

@[simp] theorem canon_endColl {s : State} (h : Canon W s.mem) (c : Coll) (status : Nat) : Canon W (s.endColl c status).mem := by
  unfold State.endColl
  exact canon_finishColl (by simpa using h) ..

@[simp] theorem canon_endUnbound {s : State} (h : Canon W s.mem) : Canon W s.endUnbound.mem :=
  canon_foldl (fun _ c hs => canon_endColl hs c 0x23) _ h

@[simp] theorem canon_silenceColls {s : State} (h : Canon W s.mem) : Canon W s.silenceColls.mem :=
  canon_foldl (fun _ c hs => canon_endColl hs c 0x20) _ h

@[simp] theorem damage_mem (s : State) (cls unit : Nat) (addr : Word) (ue : Bool) : (s.damage cls unit addr ue).mem = s.mem := by
  unfold State.damage
  split <;> simp

@[simp] theorem clRequest_mem (s : State) (k v : Nat) : (s.clRequest k v).mem = s.mem := by
  unfold State.clRequest
  split <;> simp

@[simp] theorem retain_mem (s : State) (k : Nat) : (s.retain k).mem = s.mem := by simp [State.retain]

@[simp] theorem gate_mem (s : State) (k : Nat) : (s.gate k).mem = s.mem := by simp [State.gate, foldl_mem]

@[simp] theorem restoreLatches_mem (s : State) (k : Nat) : (s.restoreLatches k).mem = s.mem := by simp [State.restoreLatches, foldl_mem]

theorem passTo_mem (t : Nat) (fuel : Nat) : ∀ s : State, (State.passTo t fuel s).mem = s.mem := by
  induction fuel with
  | zero => exact fun _ => rfl
  | succ fuel ih =>
    intro s
    rw [State.passTo]
    generalize Lintel.epochAt _ _ _ _ = k
    dsimp only
    split
    · refine (ih _).trans ?_
      split <;> rfl
    · rfl

@[simp] theorem advance_mem (s : State) (t : Nat) : (s.advance t).mem = s.mem := passTo_mem ..

@[simp] theorem emergency_mem (s : State) (f : Nat) : (s.emergency f).mem = s.mem := by simp [State.emergency]

@[simp] theorem canon_foreseen {s : State} (h : Canon W s.mem) : Canon W s.foreseen.mem := by
  have opened := canon_openGate h
  unfold State.foreseen
  refine Canon.of_eq ?_ (State.mapCore_mem ..)
  split
  · rename_i e
    exact opened.ok e
  · rename_i e
    exact opened.wait e
  · exact h

@[simp] theorem afterDelay_mem (s : State) : s.afterDelay.1.mem = s.mem := by
  rcases after : s.core.ctl.after with _ | p
  · rw [State.afterDelay, after]
  · cases p with
    | trap n r => rw [afterDelay_trap after, State.mapCore_mem]
    | rft => rw [afterDelay_rft after, trapReturn_mem, State.mapCore_mem]
    | halt => rw [afterDelay_halt after, State.mapCore_mem]
    | _ => rw [State.afterDelay, after]

@[simp] theorem asBegun_mem (s : State) (w : BundleBits) : (s.asBegun w).mem = s.mem := by simp [State.asBegun]

@[simp] theorem opened_mem (s : State) (b : Sys2Proof.Bundle) : (s.opened b).mem = s.mem := by
  unfold State.opened
  dsimp only
  split <;> simp

@[simp] theorem canon_trapped {s : State} (h : Canon W s.mem) (ts : List (Nat × FaultRec)) : Canon W (s.trapped ts).mem := by
  unfold State.trapped
  split <;> simp [h]

@[simp] theorem tilesReported_mem (s : State) (fs : List (Nat × FaultRec)) : (s.tilesReported fs).mem = s.mem := by
  simp [State.tilesReported, foldl_mem]

@[simp] theorem pruned_mem (s : State) : s.pruned.mem = s.mem := by
  unfold State.pruned
  split <;> simp

@[simp] theorem nextCycle_mem (s : State) : s.nextCycle.mem = s.mem := by rw [State.nextCycle]

@[simp] theorem nearer_mem (ns : List Nat) (s : State) : (State.nearer ns s).mem = s.mem := by simp [State.nearer, foldl_mem]

end Operations

section Commands

variable {W : Prop}

@[simp] theorem reach_mem (r : Run) (l : Loc) : (r.reach l).s.mem = r.s.mem := by
  cases l with
  | mem pa => exact holdAt_mem ..
  | bed g off => rfl

theorem tag_mem {r t : Run} {l : Loc} {va n : Nat} {kind : AccKind} (e : r.tag l va n kind = .ok t) : t.s.mem = r.s.mem := by
  unfold Run.tag at e
  dsimp only at e
  split at e
  · rename_i tagged
    cases e
    exact tagAccess_mem tagged
  · cases e
  · cases e

@[simp] theorem beginRun_mem (s : State) (q : Nat) (e : QEnt) : (s.beginRun q e).s.mem = s.mem := by
  unfold State.beginRun
  split <;> rfl

/-- A write that goes into the launch's buffer leaves memory. -/
theorem buffer_mem {r t : Run} {la : Launch} {u : Nat} {w : ProvWrite}
    (e : (match r.s.launch la.key with
      | none => .error .wait
      | some la => if la.room w then .ok { r with s := r.s.bufferWrite la u (r.s.agentOf r.s.core) r.region w }
          else .error Stop.wait : Except Stop Run) = .ok t) : t.s.mem = r.s.mem := by
  split at e
  · cases e
  · split_ifs at e
    cases e
    rfl

theorem canon_put {r t : Run} (h : Canon W r.s.mem) {l : Loc} {va : Nat} {bs : List Marked} (e : r.put l va bs = .ok t) : Canon W t.s.mem := by
  unfold Run.put at e
  dsimp only at e
  split at e
  · split_ifs at e
    · cases e
      exact h
    · exact h.of_eq (buffer_mem e)
  · split_ifs at e
    · cases e
      exact h
    · split at e
      · cases e
      · rename_i tagged
        cases e
        exact canon_storeAt (h.of_eq (tag_mem tagged)) ..
  · split at e
    · exact h.of_eq (buffer_mem e)
    · split_ifs at e
      split at e
      · cases e
      · rename_i tagged
        cases e
        exact h.of_eq ((State.modCore_mem ..).trans (tag_mem tagged))

@[simp] theorem readLines_mem (window : Bool) (l : List (Nat × Nat)) : ∀ r : Run, (r.readLines window l).1.s.mem = r.s.mem := by
  induction l with
  | nil => exact fun _ => rfl
  | cons x rest ih =>
    intro r
    unfold Run.readLines
    split
    · rfl
    · dsimp only
      split_ifs
      · rfl
      · split
        · rfl
        · rename_i tagged
          exact (ih _).trans ((tag_mem tagged).trans (reach_mem ..))

@[simp] theorem canon_writeLines (l : List (Nat × Nat)) : ∀ {r : Run}, Canon W r.s.mem → Canon W (r.writeLines l).1.s.mem := by
  induction l with
  | nil => exact fun h => h
  | cons x rest ih =>
    intro r h
    unfold Run.writeLines
    split
    · exact h
    · split
      · exact h
      · rename_i put
        have written := canon_put (h.of_eq (reach_mem ..)) put
        exact ih written

theorem canon_copy {r : Run} (h : Canon W r.s.mem) (window : Bool) (dst src n : Nat) : Canon W (r.copy window dst src n).1.s.mem := by
  have read := h.of_eq (readLines_mem window (rangeFrom src n r.pr.got.length) r)
  unfold Run.copy
  split
  · rename_i t e
    rw [e] at read
    have written := canon_writeLines (rangeFrom dst n t.pr.put) read
    split
    · rename_i e
      rw [e] at written
      exact written
    · exact written
  · exact read

theorem canon_submit {r : Run} (h : Canon W r.s.mem) (ch src : Nat) : Canon W (r.submit ch src).1.s.mem := by
  have read := h.of_eq (readLines_mem true (rangeFrom src 64 r.pr.got.length) r)
  unfold Run.submit
  split
  · rename_i e
    rw [e] at read
    dsimp only [Run.rowDone]
    split
    · exact canon_submitColl read _
    · exact read
  · exact read

theorem canon_copyRows (dst src len : Nat) (ds ss : Int) (n : Nat) :
    ∀ {r : Run}, Canon W r.s.mem → Canon W (r.copyRows dst src len ds ss n).1.s.mem := by
  induction n with
  | zero => exact fun h => h
  | succ n ih =>
    intro r h
    have copied := canon_copy h true (rowAt dst ds r.pr.rows) (rowAt src ss r.pr.rows) len
    unfold Run.copyRows
    split
    · rename_i e
      rw [e] at copied
      exact ih copied
    · exact copied

/-- One sample written, and the others after it. -/
theorem canon_aldWrite {off sig slot : Nat} {d : SigDecl} {rest : List Nat}
    (ih : ∀ {r : Run}, Canon W r.s.mem → Canon W (r.ald off sig slot d rest).1.s.mem) {r : Run} (h : Canon W r.s.mem) (l : List (Nat × Nat)) :
    Canon W (match r.writeLines l with
      | (t, none) => t.rowDone.ald off sig slot d rest
      | e => e).1.s.mem := by
  have written := canon_writeLines l h
  split
  · rename_i e
    rw [e] at written
    exact ih written
  · exact written

theorem canon_ald (off sig slot : Nat) (d : SigDecl) (is : List Nat) :
    ∀ {r : Run}, Canon W r.s.mem → Canon W (r.ald off sig slot d is).1.s.mem := by
  induction is with
  | nil => exact fun h => h
  | cons i rest ih =>
    intro r h
    unfold Run.ald
    dsimp only
    split_ifs
    · exact canon_aldWrite ih h _
    · exact canon_aldWrite (r := r.have_ (d.primeBytes.map (·, false))) ih h _
    · exact canon_aldWrite (r := r.have_ (r.s.core.ringMarked d sig slot i)) ih h _
    · split
      · exact h
      · rename_i va _
        have read := h.of_eq (readLines_mem true (rangeFrom va d.size r.pr.got.length) r)
        split
        · rename_i e
          rw [e] at read
          exact canon_aldWrite ih read _
        · exact read

/-- The old value of an accumulating write goes to the issuing core's bed, where it is asked for. -/
theorem canon_accwOld {t : Run} (h : Canon W t.s.mem) (old : Bool) (pr : Progress) (l : List (Nat × Nat)) :
    Canon W (if old then ({ t with pr := pr } : Run).writeLines l else (t, none)).1.s.mem := by
  split
  · exact canon_writeLines l h
  · exact h

theorem canon_accw {r : Run} (h : Canon W r.s.mem) (op : AccOp) (w64 : Bool) (va : Nat) (a cmp : Word) (old : Nat) :
    Canon W (r.accw op w64 va a cmp old).1.s.mem := by
  unfold Run.accw
  dsimp only
  split
  · exact canon_writeLines _ h
  · split
    · exact h
    · rename_i l _
      have reached := h.of_eq (reach_mem r l)
      generalize r.reach l = r at reached ⊢
      cases l with
      | mem pa =>
        dsimp only
        split
        · exact reached
        · split
          · split
            · exact reached
            · split <;> exact reached
          · split
            · exact reached
            · split
              · exact reached
              · rename_i tagged
                refine canon_accwOld ?_ ..
                have kept := reached.of_eq (tag_mem tagged)
                split
                · exact kept
                · exact canon_write (canon_seal kept ..) ..
      | bed g off =>
        dsimp only
        split
        · exact reached
        · split
          · split
            · exact reached
            · split <;> exact reached
          · split
            · exact reached
            · split
              · exact reached
              · rename_i tagged
                exact canon_accwOld ((reached.of_eq (tag_mem tagged)).of_eq (State.modCore_mem ..)) ..

@[simp] theorem canon_complete {r : Run} (h : Canon W r.s.mem) (e : QEnt) (good : Bool) : Canon W (r.complete e good).mem := by
  unfold Run.complete
  dsimp only
  split_ifs <;> simp [h]

@[simp] theorem canon_failed {r : Run} (h : Canon W r.s.mem) (e : QEnt) (f : FaultRec) : Canon W (r.failed e f).mem :=
  (canon_complete h e false).of_eq (State.mapCore_mem ..)

@[simp] theorem still_mem (r : Run) (e : QEnt) (held served : Option Nat) : (r.still e held served).mem = r.s.mem := by
  unfold Run.still
  dsimp only
  split <;> simp

theorem canon_stopCmd {r : Run} (h : Canon W r.s.mem) (e : QEnt) (st : Stop) : Canon W (stopCmd e r st).mem := by
  unfold stopCmd
  cases st with
  | wait => exact h.of_eq (still_mem ..)
  | fault f =>
    dsimp only
    split_ifs
    · exact canon_failed h ..
    · exact (canon_commitRequest h ..).of_eq (still_mem ..)
    · exact h.of_eq (still_mem ..)
    · exact h.of_eq ((still_mem ..).trans (pagingRequest_mem ..))
    · exact canon_failed h ..

theorem canon_endRun {x : Run × Option Stop} (h : Canon W x.1.s.mem) (e : QEnt) : Canon W (endRun e x).mem := by
  unfold endRun
  split
  · exact canon_complete h ..
  · exact canon_stopCmd h ..

@[simp] theorem progress_mem (r : Run) (e : QEnt) (cmd : Cmd) (va n : Nat) : (r.progress e cmd va n).mem = r.s.mem := rfl

theorem canon_performHead {s : State} (h : Canon W s.mem) (q : Nat) (e : QEnt) : Canon W (s.performHead q e).mem := by
  have begun := h.of_eq (beginRun_mem s q e)
  unfold State.performHead
  dsimp only
  split
  · split_ifs <;> simp [h]
  · split_ifs
    · exact canon_complete begun ..
    · split
      · refine canon_endRun ?_ e
        split
        · exact canon_submit begun ..
        · exact canon_copy begun ..
      · split_ifs
        · exact canon_endRun begun e
        · exact canon_endRun (canon_copyRows _ _ _ _ _ _ begun) e
      · exact canon_endRun (canon_accw begun ..) e
      · split
        · exact canon_endRun begun e
        · exact canon_endRun (canon_ald _ _ _ _ _ begun) e
      · exact (canon_complete begun e false).of_eq (State.mapCore_mem ..)
      · split_ifs
        · exact canon_endRun begun e
        · exact h
      · split_ifs
        · exact canon_endRun begun e
        · exact h
      · exact h

end Commands

end Sys2Proof.Proofs

namespace Sys2Proof.Proofs

open Sys2Proof Sys2Proof.Machine Sys2Proof.Laws

/-! ## What an instruction or an event answers: a state, and its memory canonical -/

/-- An answer that is a state, with canonical memory where W holds. -/
def Sound (W : Prop) (r : Res) : Prop := ∃ t, r = .next t ∧ Canon W t.mem

section Answers

variable {W : Prop} {s : State}

theorem sound_next (h : Canon W s.mem) : Sound W (.next s) := ⟨s, rfl, h⟩

@[simp] theorem sound_next_iff : Sound W (.next s) ↔ Canon W s.mem :=
  ⟨fun ⟨t, e, h⟩ => by cases e; exact h, sound_next⟩

theorem sound_ite {p : Prop} [Decidable p] {a b : Res} (ha : Sound W a) (hb : Sound W b) : Sound W (if p then a else b) := by
  split <;> assumption

@[simp] theorem sound_stall (h : Canon W s.mem) : Sound W (stall s) := sound_next (by simpa using h)

@[simp] theorem sound_raise (h : Canon W s.mem) (f : FaultRec) : Sound W (raise f s) := sound_next (by simpa using canon_enterFault h f)

@[simp] theorem sound_fault (h : Canon W s.mem) (code : BitVec 8) : Sound W (fault code s) := sound_raise h _

@[simp] theorem sound_faultAt (h : Canon W s.mem) (code : BitVec 8) (cause va : Nat) (wr rb : Bool) :
    Sound W (faultAt code cause va wr rb s) := sound_raise h _

@[simp] theorem sound_ok (h : Canon W s.mem) (f : Core → Core) : Sound W (ok s f) := sound_next (by simpa using h)

theorem sound_begin (h : Canon W s.mem) {qp : PredNo} {regs : List PDest} {k : State → Res} (hk : Sound W (k s)) :
    Sound W (begin qp regs s k) := by
  unfold begin
  split
  · exact sound_raise h _
  · exact sound_ite (sound_stall h) (sound_ite hk (sound_next h))

theorem sound_withUndo (h : Canon W s.mem) {k : State → Res} (hk : ∀ t, Canon W t.mem → Sound W (k t)) : Sound W (withUndo s k) :=
  sound_ite (hk s h) (sound_ite (sound_fault h _) (hk _ (by simpa using h)))

theorem sound_withUndos (h : Canon W s.mem) (n : Nat) {k : State → Res} (hk : ∀ t, Canon W t.mem → Sound W (k t)) :
    Sound W (withUndos n s k) :=
  sound_ite (hk s h) (sound_ite (sound_fault h _) (hk _ (by simpa using h)))

theorem sound_withRanges (h : Canon W s.mem) {core : Nat} {kind : AccKind} {l : List (Nat × Nat)} {k : State → Res}
    (hk : ∀ t, Canon W t.mem → Sound W (k t)) : Sound W (withRanges core kind l s k) := by
  unfold withRanges
  split
  · rename_i tagged
    exact hk _ (h.of_eq (tagRanges_mem _ tagged))
  · exact sound_stall h
  · exact sound_faultAt h ..

theorem sound_tagBed (h : Canon W s.mem) {l : List (Nat × Nat)} {kind : AccKind} {k : State → Res}
    (hk : ∀ t, Canon W t.mem → Sound W (k t)) : Sound W (tagBed l kind s k) := sound_withRanges h hk

theorem sound_closing (h : Canon W s.mem) {k : State → Res} (hk : ∀ t, Canon W t.mem → Sound W (k t)) : Sound W (closing s k) := by
  unfold closing
  split_ifs
  · exact sound_fault h _
  · dsimp only
    split
    · exact sound_raise (by simpa using h) _
    · have passed := h.of_eq (State.mapCore_mem s (fun c => { c with ctl := { c.ctl with passed := true } }))
      have opened := canon_openGate passed
      split
      · exact sound_raise passed _
      · rename_i e
        exact sound_stall (opened.wait e)
      · rename_i e
        exact hk _ ((opened.ok e).of_eq (closed_mem _))

theorem sound_closingDefer (h : Canon W s.mem) {k : State → Res} (hk : ∀ t, Canon W t.mem → Sound W (k t)) :
    Sound W (closingDefer s k) := sound_ite (sound_closing h hk) (sound_stall h)

theorem sound_closingConfirmed (h : Canon W s.mem) {k : State → Res} (hk : ∀ t, Canon W t.mem → Sound W (k t)) :
    Sound W (closingConfirmed s k) := sound_ite (sound_stall h) (sound_closing h hk)

theorem sound_notInHandler (h : Canon W s.mem) {k : State → Res} (hk : Sound W (k s)) : Sound W (notInHandler s k) :=
  sound_ite (sound_fault h _) hk

theorem sound_beginClosing (h : Canon W s.mem) {qp : PredNo} {regs : List PDest} {k : State → Res} (hk : Sound W (k s)) :
    Sound W (beginClosing qp regs s k) := sound_begin h (sound_notInHandler h hk)

theorem sound_useSrc (h : Canon W s.mem) {a : Src} {k : VReg → Res} (hk : ∀ v, Sound W (k v)) : Sound W (useSrc a s k) := by
  unfold useSrc
  split
  · exact hk _
  · exact sound_stall h
  · exact sound_fault h _

@[simp] theorem sound_writeX (h : Canon W s.mem) (d : RegNo) (v : Word) (p : Bool) (lat : Nat) : Sound W (writeX d v p lat s) := sound_ok h _

@[simp] theorem sound_writeV (h : Canon W s.mem) (d : RegNo) (b : VBits) (t : Tag) (p : Bool) (lat : Nat) :
    Sound W (writeV d b t p lat s) := sound_ok h _

@[simp] theorem sound_writeP (h : Canon W s.mem) (d : PredNo) (b : Bool) (lat : Nat) : Sound W (writeP d b lat s) := sound_ok h _

@[simp] theorem sound_writeMasked (h : Canon W s.mem) (km : BitVec 3) (d : RegNo) (b : VBits) (t : Tag) (p : Bool) (lat : Nat) :
    Sound W (writeMasked km d b t p lat s) :=
  sound_ite (sound_writeV h ..) (sound_ite (sound_fault h _) (sound_writeV h ..))

theorem sound_withSignal (h : Canon W s.mem) {sig : Nat} {k : SigDecl → Res} (hk : ∀ d, Sound W (k d)) : Sound W (withSignal sig s k) := by
  unfold withSignal
  split
  · exact sound_fault h _
  · exact hk _

@[simp] theorem sound_pendX (h : Canon W s.mem) (d : RegNo) (sig : Option Nat) (kind : ReqKind) : Sound W (pendX d sig kind s) := sound_ok h _

@[simp] theorem sound_pendWord (h : Canon W s.mem) (d : RegNo) (sig : Option Nat) (w : Word) : Sound W (pendWord d sig w s) := sound_ok h _

theorem sound_tileOp (h : Canon W s.mem) {qp : PredNo} {regs : List PDest} {k : State → Res} (hk : Sound W (k s)) :
    Sound W (tileOp qp regs s k) := sound_begin h (sound_ite (sound_stall h) hk)

theorem sound_engineOp (h : Canon W s.mem) {qp : PredNo} {xs : List RegNo} {k : State → Res} (hk : Sound W (k s)) :
    Sound W (engineOp qp xs s k) := sound_begin h (sound_ite (sound_fault h _) hk)

theorem sound_closingEngineOp (h : Canon W s.mem) {qp : PredNo} {xs : List RegNo} {k : State → Res} (hk : Sound W (k s)) :
    Sound W (closingEngineOp qp xs s k) := sound_beginClosing h (sound_ite (sound_fault h _) hk)

theorem sound_taskOnly (h : Canon W s.mem) {k : UnitInfo → Res} (hk : ∀ u, Sound W (k u)) : Sound W (taskOnly s k) := by
  unfold taskOnly
  split
  · exact sound_ite (sound_fault h _) (hk _)
  · exact sound_fault h _

@[simp] theorem sound_execBr (h : Canon W s.mem) (o : SBr) : Sound W (execBr o s) := sound_begin h (by simp [h])

@[simp] theorem sound_execCall (h : Canon W s.mem) (o : SBr) : Sound W (execCall o s) := sound_begin h (by simp [h])

@[simp] theorem sound_jump (h : Canon W s.mem) (d a : RegNo) : Sound W (jump d a s) := by
  unfold jump
  split_ifs <;> simp [h]

@[simp] theorem sound_execBrx (h : Canon W s.mem) (o : SU) : Sound W (execBrx o s) := sound_begin h (by simp [h])

@[simp] theorem sound_execRet (h : Canon W s.mem) (o : SA) : Sound W (execRet o s) := sound_begin h (by simp [h])

@[simp] theorem sound_execChk (h : Canon W s.mem) (o : SI) : Sound W (execChk o s) := by
  refine sound_begin h ?_
  split <;> simp [h]

@[simp] theorem sound_execChkv (h : Canon W s.mem) (o : SI) : Sound W (execChkv o s) := by
  refine sound_begin h ?_
  split <;> simp [h]

@[simp] theorem sound_execTrap (h : Canon W s.mem) (o : STrap) : Sound W (execTrap o s) := sound_begin h (by simp [h])

@[simp] theorem sound_execRft (h : Canon W s.mem) (o : SQ) : Sound W (execRft o s) := by
  refine sound_begin h ?_
  split_ifs <;> simp [h]

@[simp] theorem sound_execHalt (h : Canon W s.mem) (o : SQ) : Sound W (execHalt o s) := by
  refine sound_begin h ?_
  split <;> simp [h]

@[simp] theorem sound_execQalloc (h : Canon W s.mem) (o : MDAZ) : Sound W (execQalloc o s) := by
  refine sound_beginClosing h ?_
  dsimp only
  split_ifs
  · exact sound_fault h _
  · exact sound_fault h _
  · exact sound_stall h
  · exact sound_closing h fun t ht => sound_pendWord (canon_qalloc ht ..) ..

@[simp] theorem sound_execQfree (h : Canon W s.mem) (o : MDA) : Sound W (execQfree o s) := by
  refine sound_beginClosing h ?_
  dsimp only
  split_ifs
  · exact sound_fault h _
  · exact sound_fault h _
  · refine sound_closingDefer h fun t ht => ?_
    split_ifs
    · exact sound_pendX (canon_deferOr ht _ ht) ..
    · exact sound_pendWord (canon_qfree (canon_unitRelease ht _) ..) ..

@[simp] theorem sound_execBtset (h : Canon W s.mem) (o : MDAB) : Sound W (execBtset o s) := by
  refine sound_beginClosing h (sound_ite (sound_fault h _) (sound_ite (sound_fault h _) ?_))
  split
  · exact sound_fault h _
  · refine sound_ite (sound_fault h _) (sound_closingConfirmed h fun t ht => ?_)
    exact sound_ite (sound_pendWord ht ..) (sound_pendWord (ht.of_eq (State.mapCore_mem ..)) ..)

@[simp] theorem sound_execBtget (h : Canon W s.mem) (o : MDA) : Sound W (execBtget o s) := by
  refine sound_begin h ?_
  dsimp only
  repeat' split
  all_goals simp [h]

@[simp] theorem sound_execBtapp (h : Canon W s.mem) (o : MDAZ) : Sound W (execBtapp o s) := by
  refine sound_beginClosing h ?_
  dsimp only
  split_ifs
  · exact sound_fault h _
  · exact sound_fault h _
  · split
    · exact sound_fault h _
    · rename_i d _ _ _ _
      refine sound_ite (sound_stall h) (sound_closing h fun t ht => ?_)
      split
      · exact sound_pendWord ht ..
      · have taken := canon_qalloc ht t.core.asid d.pool o.z
        exact sound_ite (sound_pendWord taken ..) (sound_pendWord (taken.of_eq (State.mapCore_mem ..)) ..)

@[simp] theorem sound_execPcommit (h : Canon W s.mem) (o : MDAB) : Sound W (execPcommit o s) :=
  sound_beginClosing h (sound_ite (sound_fault h _) (sound_ite (sound_fault h _) (sound_ite (sound_fault h _)
    (sound_closingConfirmed h fun _ ht => sound_pendWord (canon_pcommit ht ..) ..))))

@[simp] theorem sound_execPdecommit (h : Canon W s.mem) (o : MDA) : Sound W (execPdecommit o s) :=
  sound_beginClosing h (sound_ite (sound_fault h _) (sound_ite (sound_fault h _)
    (sound_closingConfirmed h fun _ ht => sound_pendWord (canon_pdecommit ht ..) ..)))

@[simp] theorem sound_execBlockDrainDone (h : Canon W s.mem) (asid pool blk : Nat) : Sound W (execBlockDrainDone asid pool blk s) := by
  simp [execBlockDrainDone, h]

@[simp] theorem sound_execTapset (h : Canon W s.mem) (o : XTs) : Sound W (execTapset o s) := by
  refine sound_begin h (sound_withSignal h fun _ => ?_)
  split <;> simp [h]

@[simp] theorem sound_execTapsetx (h : Canon W s.mem) (o : XTx) : Sound W (execTapsetx o s) := by
  refine sound_begin h (sound_ite (sound_fault h _) (sound_withSignal h fun d => ?_))
  split_ifs <;> simp [h]

@[simp] theorem sound_pendTap (h : Canon W s.mem) (d : SigDecl) (x : Bool) (r : RegNo) (k : ReqKind) : Sound W (pendTap d x r k s) := by
  simp [pendTap, h]

@[simp] theorem sound_archiveTapRead (h : Canon W s.mem) (d : SigDecl) (t : Tap) (x : Bool) (r : RegNo) (part core : Nat) (i : Int) :
    Sound W (archiveTapRead d t x r part core i s) := by
  unfold archiveTapRead
  dsimp only
  repeat' split
  all_goals simp [h]

@[simp] theorem sound_remoteTapRead (h : Canon W s.mem) (d : SigDecl) (t : Tap) (x : Bool) (r : RegNo) (part core : Nat) (i : Int) :
    Sound W (remoteTapRead d t x r part core i s) := by
  unfold remoteTapRead
  dsimp only
  split_ifs <;> simp [h]

@[simp] theorem sound_execTaprd (h : Canon W s.mem) (o : XTap) : Sound W (execTaprd o s) := by
  unfold execTaprd
  dsimp only
  refine sound_begin h ?_
  split
  · exact sound_fault h _
  · refine sound_withSignal h fun d => sound_ite (sound_fault h _) ?_
    split <;> simp [h]

@[simp] theorem sound_execTapwr (h : Canon W s.mem) (o : XTw) : Sound W (execTapwr o s) := by
  unfold execTapwr
  dsimp only
  refine sound_begin h ?_
  split
  · exact sound_fault h _
  · refine sound_withSignal h fun d => sound_ite (sound_fault h _) (sound_ite (sound_fault h _) (sound_ite (sound_fault h _) ?_))
    exact sound_ite (sound_fault h _) (sound_ite (sound_stall h) (sound_withUndo h fun t ht => sound_ok ht _))

@[simp] theorem sound_execSiginf (h : Canon W s.mem) (o : XSi) : Sound W (execSiginf o s) :=
  sound_begin h (sound_ite (sound_fault h _) (sound_withSignal h fun _ => sound_ite (sound_fault h _) (sound_writeX h ..)))

theorem sound_slotsOn (h : Canon W s.mem) {o : XSl} {k : SigDecl → Word → State → Res} (hk : ∀ d a, Sound W (k d a s)) :
    Sound W (slotsOn o s k) :=
  sound_begin h (sound_ite (sound_fault h _) (sound_withSignal h fun d => sound_ite (sound_fault h _) (hk d _)))

@[simp] theorem sound_execSlotsSel (h : Canon W s.mem) (o : XSl) : Sound W (execSlotsSel o s) := by
  refine sound_slotsOn h fun d a => sound_ite (sound_fault h _) ?_
  split
  · exact sound_fault h _
  · exact sound_fault h _
  · dsimp only
    split_ifs <;> simp [h]

theorem sound_execSlotsClr (h : Canon W s.mem) (o : XSl) : Sound W (execSlotsClr o s) :=
  sound_slotsOn h fun _ _ => sound_ite (sound_fault h _) (sound_ok h _)

theorem sound_execSlotsOne (h : Canon W s.mem) (o : XSl) : Sound W (execSlotsOne o s) :=
  sound_slotsOn h fun _ _ => sound_ite (sound_fault h _) (sound_ok h _)

@[simp] theorem sound_execSigrst (h : Canon W s.mem) (o : XSr) : Sound W (execSigrst o s) :=
  sound_begin h (sound_ite (sound_fault h _) (sound_withSignal h fun _ => sound_ite (sound_fault h _) (sound_ok h _)))

@[simp] theorem sound_execTick (h : Canon W s.mem) : Sound W (execTick s) := by
  refine sound_notInHandler h (sound_ite (sound_stall h) ?_)
  split
  · exact sound_raise h _
  · exact sound_closing h fun t ht => sound_ite (sound_stall ht) (sound_next (canon_tick ht _))

@[simp] theorem sound_execMirrorSampleArrival (h : Canon W s.mem) (c sig : Nat) : Sound W (execMirrorSampleArrival c sig s) := by
  unfold execMirrorSampleArrival
  dsimp only
  repeat' split
  all_goals simp [h]

@[simp] theorem sound_execMma (h : Canon W s.mem) (o : XMma) : Sound W (execMma o s) := by
  refine sound_tileOp h (sound_ite (sound_fault h _) ?_)
  split
  · exact sound_fault h _
  · split
    · exact sound_stall h
    · exact sound_fault h _
    · dsimp only
      split
      · exact sound_fault h _
      · refine sound_ite (sound_tagBed h fun t ht => sound_ok ht _) (sound_tagBed h fun t ht => ?_)
        exact sound_ite (sound_withRanges ht fun u hu => sound_ok hu _) (sound_ok ht _)

@[simp] theorem sound_execMzero (h : Canon W s.mem) (o : XAcc) : Sound W (execMzero o s) := sound_tileOp h (by simp [h])

@[simp] theorem sound_execMld (h : Canon W s.mem) (o : XMld) : Sound W (execMld o s) := by
  refine sound_tileOp h (sound_ite (sound_fault h _) ?_)
  split
  · exact sound_fault h _
  · exact sound_tagBed h fun t ht => sound_ok ht _

@[simp] theorem sound_execMstBed (h : Canon W s.mem) (o : XMst) : Sound W (execMstBed o s) := by
  refine sound_tileOp h (sound_ite (sound_fault h _) ?_)
  split
  · exact sound_fault h _
  · exact sound_ite (sound_fault h _) (sound_tagBed h fun t ht => sound_withUndos ht _ fun u hu => sound_ok hu _)

@[simp] theorem sound_execMstSignal (h : Canon W s.mem) (o : XMss) : Sound W (execMstSignal o s) := by
  refine sound_tileOp h ?_
  dsimp only
  split
  · exact sound_fault h _
  · refine sound_withSignal h fun d => ?_
    split_ifs <;> simp [h]

@[simp] theorem sound_execMrow (h : Canon W s.mem) (o : XMrow) : Sound W (execMrow o s) := by
  refine sound_begin h ?_
  dsimp only
  split_ifs <;> simp [h]

@[simp] theorem sound_execMrowW (h : Canon W s.mem) (o : XMroww) : Sound W (execMrowW o s) := by
  refine sound_tileOp h ?_
  dsimp only
  split_ifs <;> simp [h]

@[simp] theorem sound_execMscl (h : Canon W s.mem) (o : XMscl) : Sound W (execMscl o s) := by
  refine sound_begin h (sound_ite (sound_stall h) (sound_useSrc h fun v => ?_))
  split_ifs <;> simp [h]

@[simp] theorem sound_execMgrp (h : Canon W s.mem) (o : SA) : Sound W (execMgrp o s) := by
  refine sound_begin h ?_
  dsimp only
  split_ifs <;> simp [h]

@[simp] theorem sound_execSqld (h : Canon W s.mem) (o : SA) : Sound W (execSqld o s) := by
  refine sound_begin h (sound_ite (sound_fault h _) (sound_ite (sound_fault h _) (sound_ite (sound_fault h _) ?_)))
  refine sound_ite (sound_stall h) (sound_ite (sound_fault h _) (sound_ite (sound_fault h _) (sound_tagBed h fun t ht => ?_)))
  split
  · exact sound_raise ht _
  · split
    · exact sound_fault ht _
    · exact sound_ok ht _

@[simp] theorem sound_execSqgo (h : Canon W s.mem) (o : SQ) : Sound W (execSqgo o s) := by
  refine sound_begin h ?_
  split <;> simp [h]

@[simp] theorem sound_execSqabt (h : Canon W s.mem) (o : SQ) : Sound W (execSqabt o s) := sound_begin h (by simp [h])

@[simp] theorem sound_execSqst (h : Canon W s.mem) (o : XSqst) : Sound W (execSqst o s) := sound_begin h (by simp [h])

theorem tagSamples_mem {slot : Nat} (l : List (Nat × Nat)) : ∀ {s t : State}, s.tagSamples slot l = .ok t → t.mem = s.mem := by
  induction l with
  | nil =>
    intro s t e
    cases e
    rfl
  | cons k ks ih =>
    intro s t e
    unfold State.tagSamples at e
    split at e
    · exact ih e
    · split at e
      · exact ih e
      · split at e
        · cases e
        · cases e
        · rename_i tagged
          exact (ih e).trans (unitTag_mem tagged)

theorem sound_tagKeys (h : Canon W s.mem) {o : AttnOp} {k : State → Res} (hk : ∀ t, Canon W t.mem → Sound W (k t)) :
    Sound W (tagKeys o s k) := by
  unfold tagKeys
  dsimp only
  split
  · rename_i tagged
    exact hk _ (h.of_eq (tagSamples_mem _ tagged))
  · exact sound_stall h
  · exact sound_faultAt h ..

@[simp] theorem sound_execAttn (h : Canon W s.mem) (o : XAttn) : Sound W (execAttn o s) := by
  refine sound_tileOp h (sound_ite (sound_fault h _) ?_)
  split
  · exact sound_fault h _
  · refine sound_ite (sound_fault h _) (sound_ite (sound_fault h _) (sound_ite (sound_stall h) (sound_ite (sound_stall h) ?_)))
    split
    · exact sound_fault h _
    · dsimp only
      split
      · exact sound_stall h
      · exact sound_fault h _
      · split
        · exact sound_fault h _
        · exact sound_tagBed h fun t ht => sound_tagKeys ht fun u hu => sound_tagBed hu fun v hv => sound_withUndos hv _ fun w hw => sound_ok hw _

/-- What a tile entry leaves: every state it answers has canonical memory. -/
structure CanonTile (W : Prop) (r : TileRes) : Prop where
  done : ∀ {t}, r = .done t → Canon W t.mem
  more : ∀ {t}, r = .more t → Canon W t.mem

theorem CanonTile.of_done (h : Canon W s.mem) : CanonTile W (.done s) := ⟨fun e => by cases e; exact h, nofun⟩

theorem CanonTile.of_more (h : Canon W s.mem) : CanonTile W (.more s) := ⟨nofun, fun e => by cases e; exact h⟩

theorem CanonTile.of_wait : CanonTile W .wait := ⟨nofun, nofun⟩

theorem CanonTile.of_fault (f : FaultRec) : CanonTile W (.fault f) := ⟨nofun, nofun⟩

theorem canon_runMma (h : Canon W s.mem) (e : TileEnt) (acc : Nat) (a : Opnd) (b : Nat) (remote : Option Nat) (mode : Nat) (af bf ovw : Bool)
    (prof : Nat) (sA : VBits) (sB : BitVec 32) (sPoison : Bool) :
    CanonTile W (s.runMma e acc a b remote mode af bf ovw prof sA sB sPoison) := by
  have done (f : Core → Core) : CanonTile W (.done (s.mapCore f)) := CanonTile.of_done (h.of_eq (State.mapCore_mem ..))
  unfold State.runMma
  dsimp only
  split_ifs
  · exact CanonTile.of_fault _
  · exact CanonTile.of_wait
  · exact done _
  · exact CanonTile.of_wait
  · exact done _

theorem canon_runTile (h : Canon W s.mem) (e : TileEnt) : CanonTile W (s.runTile e) := by
  have updated (f : Core → Core) : CanonTile W (.done (s.mapCore f)) := CanonTile.of_done (h.of_eq (State.mapCore_mem ..))
  unfold State.runTile
  dsimp only
  split
  · exact canon_runMma h ..
  · exact updated _
  · exact updated _
  · split
    · exact CanonTile.of_fault _
    · exact updated _
  · split
    · exact CanonTile.of_done h
    · split
      · exact CanonTile.of_fault _
      · exact updated _
  · exact updated _
  · exact CanonTile.of_wait

theorem canon_runAttn (h : Canon W s.mem) (e : TileEnt) (o : AttnOp) : CanonTile W (s.runAttn e o) := by
  have updated (f : Core → Core) : Canon W (s.mapCore f).mem := h.of_eq (State.mapCore_mem ..)
  unfold State.runAttn
  split
  · exact CanonTile.of_more (updated _)
  · split
    · exact CanonTile.of_done (updated _)
    · dsimp only
      split
      · split
        · exact CanonTile.of_done h
        · exact CanonTile.of_more (h.of_eq (attnTile_mem ..))
      · split
        · exact CanonTile.of_more (updated _)
        · split
          · exact CanonTile.of_fault _
          · exact CanonTile.of_more (updated _)

@[simp] theorem sound_execTileEntryComplete (h : Canon W s.mem) (c : Nat) : Sound W (execTileEntryComplete c s) := by
  have focused := h.of_eq (State.focus_mem s c)
  unfold execTileEntryComplete
  dsimp only
  split
  · exact sound_next focused
  · rename_i e _ _
    refine sound_ite (sound_next focused) ?_
    split
    · rename_i ran
      refine sound_next (Canon.of_eq ?_ (State.mapCore_mem ..))
      split at ran
      · exact (canon_runAttn focused e _).done ran
      · exact (canon_runTile focused e).done ran
    · rename_i ran
      refine sound_next ?_
      split at ran
      · exact (canon_runAttn focused e _).more ran
      · exact (canon_runTile focused e).more ran
    · exact sound_next focused
    · exact sound_next (focused.of_eq (State.mapCore_mem ..))

@[simp] theorem sound_execTileFaultReport (h : Canon W s.mem) (c : Nat) : Sound W (execTileFaultReport c s) := by
  have focused := h.of_eq (State.focus_mem s c)
  unfold execTileFaultReport
  dsimp only
  split
  · exact sound_next focused
  · exact sound_next (canon_enterFault (focused.of_eq (State.mapCore_mem ..)) _)

@[simp] theorem sound_execFlagPostArrival (h : Canon W s.mem) (c f n : Nat) : Sound W (execFlagPostArrival c f n s) := by
  unfold execFlagPostArrival
  dsimp only
  repeat' split
  all_goals simp [h]

@[simp] theorem sound_pendLoad (h : Canon W s.mem) (d : PDest) (k : ReqKind) (again : Option Again) : Sound W (pendLoad d k again s) := by
  unfold pendLoad
  split <;> simp [h]

@[simp] theorem sound_failLoad (h : Canon W s.mem) (d : PDest) (code : BitVec 8) (cause va : Nat) : Sound W (failLoad d code cause va s) :=
  sound_pendLoad h ..

@[simp] theorem sound_readLines (h : Canon W s.mem) (d : PDest) (va : Nat) (lines : List Nat) (land : State → Landing) (again : Again) :
    Sound W (readLines d va lines land again s) := by
  unfold readLines
  split
  · exact sound_failLoad h ..
  · exact sound_stall h
  · rename_i tagged
    exact sound_pendLoad (h.of_eq (unitTag_mem tagged)) ..

@[simp] theorem sound_loadRuns (h : Canon W s.mem) (d : PDest) (va n : Nat) (rs : List (Nat × Nat)) (land : LandForm) :
    Sound W (loadRuns d va n rs land s) := sound_ite (sound_failLoad h ..) (sound_readLines h ..)

@[simp] theorem sound_loadBed (h : Canon W s.mem) (base : RegNo) (add : Int) (n lat : Nat) (d : PDest) (land : LandForm) :
    Sound W (loadBed base add n lat d land s) := by
  refine sound_ite (sound_fault h _) ?_
  split
  · exact sound_fault h _
  · split <;> simp [h]
  · refine sound_ite (sound_stall h) ?_
    split
    · exact sound_faultAt h ..
    · exact sound_stall h
    · rename_i tagged
      exact sound_ok (h.of_eq (unitTag_mem tagged)) _

@[simp] theorem sound_ldBed (h : Canon W s.mem) (o : ML) (n : Nat) (sgn : Bool) : Sound W (ldBed o n sgn s) := sound_begin h (by simp [h])

@[simp] theorem sound_execVld (h : Canon W s.mem) (o : MLTag) : Sound W (execVld o s) := sound_begin h (by simp [h])

@[simp] theorem sound_gateStore (h : Canon W s.mem) (va : Nat) (rs : Except (BitVec 8 × Nat) (List (Nat × Nat))) (bs : List Byte) :
    Sound W (gateStore va rs bs s) := by
  unfold gateStore
  dsimp only
  refine sound_ite ?_ (sound_ite (sound_fault h _) ?_)
  · split
    · exact sound_faultAt h ..
    · split
      · rename_i done
        exact sound_next (canon_performEntry h done)
      · exact sound_stall h
  · split <;> exact sound_ok h _

@[simp] theorem sound_storeBed (h : Canon W s.mem) (base : RegNo) (add : Int) (bs : List Byte) : Sound W (storeBed base add bs s) := by
  unfold storeBed
  dsimp only
  split
  · exact sound_fault h _
  · exact sound_gateStore h ..
  · refine sound_ite (sound_stall h) ?_
    split
    · exact sound_faultAt h ..
    · exact sound_stall h
    · rename_i tagged
      exact sound_withUndo (h.of_eq (unitTag_mem tagged)) fun t ht => sound_next (canon_storeOwn ht ..)

@[simp] theorem sound_stBed (h : Canon W s.mem) (o : ML) (n : Nat) : Sound W (stBed o n s) := by
  refine sound_begin h ?_
  split <;> simp [h]

@[simp] theorem sound_execVst (h : Canon W s.mem) (o : MLV) : Sound W (execVst o s) := by
  refine sound_begin h ?_
  split <;> simp [h]

theorem sound_withLanes (h : Canon W s.mem) {n : Nat} {write : Bool} {ls : List (Nat × Nat)} {k : State → Res}
    (hk : ∀ t, Canon W t.mem → Sound W (k t)) : Sound W (withLanes n write ls s k) :=
  sound_ite (sound_stall h) (sound_withRanges h hk)

@[simp] theorem sound_execVgath (h : Canon W s.mem) (o : MGath) : Sound W (execVgath o s) := by
  refine sound_begin h (sound_ite (sound_fault h _) ?_)
  split
  · exact sound_fault h _
  · exact sound_withLanes h fun t ht => sound_ite (sound_fault ht _) (sound_writeV ht ..)

@[simp] theorem sound_execVscat (h : Canon W s.mem) (o : MScat) : Sound W (execVscat o s) := by
  refine sound_begin h (sound_ite (sound_fault h _) ?_)
  split
  · exact sound_fault h _
  · refine sound_withLanes h fun t ht => sound_withUndo ht fun u hu => sound_next ?_
    exact canon_foldl (fun v e hv => canon_storeOwn hv ..) _ hu

@[simp] theorem sound_loadRemote (h : Canon W s.mem) (base : RegNo) (add : Int) (n : Nat) (d : PDest) (land : LandForm) :
    Sound W (loadRemote base add n d land s) := by
  unfold loadRemote
  dsimp only
  repeat' split
  all_goals simp [h]

@[simp] theorem sound_storeRemote (h : Canon W s.mem) (base : RegNo) (add : Int) (bs : List Byte) : Sound W (storeRemote base add bs s) := by
  unfold storeRemote
  split
  · exact sound_faultAt h ..
  · refine sound_ite ?_ (sound_ite (sound_fault h _) (sound_ok h _))
    split
    · rename_i done
      exact sound_next (canon_performEntry h done)
    · exact sound_stall h

@[simp] theorem sound_execRld (h : Canon W s.mem) (o : ML) : Sound W (execRld o s) := sound_begin h (by simp [h])

@[simp] theorem sound_execRvld (h : Canon W s.mem) (o : MLTag) : Sound W (execRvld o s) := sound_begin h (by simp [h])

@[simp] theorem sound_execRst (h : Canon W s.mem) (o : ML) : Sound W (execRst o s) := by
  refine sound_begin h ?_
  split <;> simp [h]

@[simp] theorem sound_execRvst (h : Canon W s.mem) (o : MLV) : Sound W (execRvst o s) := by
  refine sound_begin h ?_
  split <;> simp [h]

theorem canon_throughHandle {s t : State} (h : Canon W s.mem) {hn : BitVec 4} {xi : RegNo} {off : Int} {n : Nat} {w : Bool} {r : HRes}
    (e : s.throughHandle hn xi off n w = (t, r)) : Canon W t.mem := by
  have kept := throughHandle_mem s hn xi off n w
  rw [e] at kept
  exact h.of_eq kept

@[simp] theorem sound_loadHandle (h : Canon W s.mem) (o : BitVec 4 × RegNo × Int) (n : Nat) (d : PDest) (land : LandForm) :
    Sound W (loadHandle o n d land s) := by
  refine sound_ite (sound_fault h _) ?_
  split
  · rename_i e
    exact sound_faultAt (canon_throughHandle h e) ..
  · rename_i e
    exact sound_failLoad (canon_throughHandle h e) ..
  · rename_i e
    exact sound_loadRuns (canon_throughHandle h e) ..

@[simp] theorem sound_gld (h : Canon W s.mem) (o : MG) (n : Nat) : Sound W (gld o n s) := sound_begin h (by simp [h])

@[simp] theorem sound_execGvld (h : Canon W s.mem) (o : MGTag) : Sound W (execGvld o s) := sound_begin h (by simp [h])

@[simp] theorem sound_storeHandle (h : Canon W s.mem) (o : BitVec 4 × RegNo × Int) (bs : List Byte) : Sound W (storeHandle o bs s) := by
  unfold storeHandle
  split
  · rename_i e
    exact sound_faultAt (canon_throughHandle h e) ..
  · rename_i e
    exact sound_gateStore (canon_throughHandle h e) ..
  · rename_i e
    exact sound_gateStore (canon_throughHandle h e) ..

@[simp] theorem sound_gst (h : Canon W s.mem) (o : MG) (n : Nat) : Sound W (gst o n s) := by
  refine sound_begin h ?_
  split <;> simp [h]

@[simp] theorem sound_execGvst (h : Canon W s.mem) (o : MGV) : Sound W (execGvst o s) := by
  refine sound_begin h ?_
  split <;> simp [h]

@[simp] theorem sound_glds (h : Canon W s.mem) (o : MG) (n : Nat) : Sound W (glds o n s) := by
  refine sound_begin h (sound_ite (sound_fault h _) ?_)
  split
  · rename_i e
    exact sound_pendLoad (canon_throughHandle h e) ..
  · rename_i e
    exact sound_pendLoad (canon_throughHandle h e) ..
  · rename_i e
    have through := canon_throughHandle h e
    refine sound_ite (sound_pendLoad through ..) ?_
    split
    · exact sound_pendLoad through ..
    · exact sound_stall through
    · rename_i tagged
      exact sound_pendLoad (through.of_eq (unitTag_mem tagged)) ..

@[simp] theorem sound_execPref (h : Canon W s.mem) (o : MPref) : Sound W (execPref o s) := by
  refine sound_begin h ?_
  dsimp only
  split_ifs <;> simp [h]

@[simp] theorem sound_execXlat (h : Canon W s.mem) (o : MXlat) : Sound W (execXlat o s) := by
  refine sound_begin h ?_
  dsimp only
  repeat' split
  all_goals simp [h]

@[simp] theorem sound_execHrel (h : Canon W s.mem) (o : MHrel) : Sound W (execHrel o s) := sound_begin h (by simp [h])

@[simp] theorem sound_execHinfo (h : Canon W s.mem) (o : MHinfo) : Sound W (execHinfo o s) := sound_begin h (by simp [h])

@[simp] theorem sound_execHinfoVa (h : Canon W s.mem) (o : MHinfo) : Sound W (execHinfoVa o s) := sound_begin h (by simp [h])

@[simp] theorem sound_execTranslationWalkDone (h : Canon W s.mem) (c n : Nat) : Sound W (execTranslationWalkDone c n s) := by
  unfold execTranslationWalkDone
  dsimp only
  split
  · exact sound_next h
  · split
    · exact sound_next (h.of_eq (putCore_mem ..))
    · exact sound_next h

@[simp] theorem sound_queueCmd (h : Canon W s.mem) (qu : BitVec 2) (cmd : Cmd) : Sound W (queueCmd qu cmd s) := by
  unfold queueCmd
  dsimp only
  split_ifs <;> simp [h]

@[simp] theorem sound_execCopy (h : Canon W s.mem) (o : MCQ) : Sound W (execCopy o s) := by
  refine sound_engineOp h ?_
  dsimp only
  split_ifs <;> simp [h]

@[simp] theorem sound_execCopyIn (h : Canon W s.mem) (o : MCQ) : Sound W (execCopyIn o s) := by
  refine sound_engineOp h (sound_ite (sound_fault h _) ?_)
  unfold execCopyIn.withSig
  rcases s.core.decl _ with _ | g
  · exact sound_fault h _
  · exact sound_ite (sound_fault h _) (sound_queueCmd h ..)

@[simp] theorem sound_execCopyOut (h : Canon W s.mem) (o : MCQ) : Sound W (execCopyOut o s) := by
  refine sound_engineOp h ?_
  repeat' split
  all_goals simp [h]

@[simp] theorem sound_execCopy2d (h : Canon W s.mem) (o : MCQ) : Sound W (execCopy2d o s) := by
  refine sound_engineOp h ?_
  dsimp only
  split_ifs <;> simp [h]

@[simp] theorem sound_execAld (h : Canon W s.mem) (o : MCQ) : Sound W (execAld o s) := by
  refine sound_engineOp h ?_
  dsimp only
  repeat' split
  all_goals simp [h]

@[simp] theorem sound_accw (h : Canon W s.mem) (qp : PredNo) (qu : BitVec 2) (d a : RegNo) (xs : List RegNo) (w64 : Bool) (op : AccOp)
    (val : Core → Word) (cmp : Core → Word) (old : Option RegNo) :
    Sound W (accw qp qu d a xs w64 op val cmp old s) := by
  refine sound_engineOp h ?_
  dsimp only
  repeat' split
  all_goals simp [h]

@[simp] theorem sound_accw1 (h : Canon W s.mem) (o : MAcc) (op : AccOp) : Sound W (accw1 o op s) := sound_accw h ..

@[simp] theorem sound_execQnotify (h : Canon W s.mem) (o : MNot) : Sound W (execQnotify o s) := by
  refine sound_closingEngineOp h ?_
  dsimp only
  split
  · exact sound_raise h _
  · exact sound_closing h fun t ht => sound_queueCmd ht ..

@[simp] theorem sound_execQfence (h : Canon W s.mem) (o : MQf) : Sound W (execQfence o s) :=
  sound_beginClosing h (sound_closing h fun _ ht => sound_ite (sound_stall ht) (sound_ok ht _))

@[simp] theorem sound_execFpostr (h : Canon W s.mem) (o : MPost) : Sound W (execFpostr o s) := by
  refine sound_closingEngineOp h (sound_ite (sound_fault h _) ?_)
  split
  · exact sound_raise h _
  · refine sound_ite (sound_raise h _) (sound_ite (sound_fault h _) (sound_ite (sound_fault h _) (sound_closingDefer h fun t ht => ?_)))
    exact sound_next (canon_deferOr ht _ ((canon_unitRelease ht _).of_eq (post_mem ..)))

@[simp] theorem sound_fence (h : Canon W s.mem) (o : MFence) (rel : Bool) (waits : Core → Bool) : Sound W (fence o rel waits s) :=
  sound_beginClosing h (sound_ite (sound_fault h _) (sound_closing h fun _ ht =>
    sound_ite (sound_stall ht) (sound_ite (sound_next (canon_releaseNow ht _)) (sound_next ht))))

@[simp] theorem sound_execWaitn (h : Canon W s.mem) (o : CW) : Sound W (execWaitn o s) := by
  unfold execWaitn
  dsimp only
  repeat' split
  all_goals simp [h]

@[simp] theorem sound_execCommandComplete (h : Canon W s.mem) (c q : Nat) : Sound W (execCommandComplete c q s) := by
  have focused := h.of_eq (State.focus_mem s c)
  unfold execCommandComplete
  dsimp only
  split
  · exact sound_next focused
  · exact sound_ite (sound_next focused) (sound_next (canon_performHead focused ..))

@[simp] theorem sound_execIngressSampleDelivery (h : Canon W s.mem) (c q : Nat) : Sound W (execIngressSampleDelivery c q s) := by
  have focused := h.of_eq (State.focus_mem s c)
  unfold execIngressSampleDelivery
  dsimp only
  split
  · rename_i e _ _
    split
    · rename_i sig src n _
      refine sound_ite (sound_next focused) ?_
      split
      · exact sound_next focused
      · rename_i d _
        refine sound_ite (sound_next focused) ?_
        have read := ((focused.of_eq (beginRun_mem _ q e))).of_eq
          (readLines_mem false (rangeFrom src d.size ((s.focus c).beginRun q e).pr.got.length) ((s.focus c).beginRun q e))
        split
        · rename_i r
          rw [r] at read
          exact sound_next (canon_stopCmd read ..)
        · rename_i r
          rw [r] at read
          exact sound_next (read.of_eq (progress_mem ..))
    · exact sound_next focused
  · exact sound_next focused

@[simp] theorem sound_execEgressSampleDrain (h : Canon W s.mem) (c q : Nat) : Sound W (execEgressSampleDrain c q s) := by
  have focused := h.of_eq (State.focus_mem s c)
  unfold execEgressSampleDrain
  dsimp only
  split
  · rename_i e _ _
    split
    · rename_i dst sig n _
      refine sound_ite (sound_next focused) ?_
      split
      · exact sound_next focused
      · rename_i d _
        refine sound_ite (sound_next focused) ?_
        have begun (bs : List Marked) : Canon W (((s.focus c).beginRun q e).have_ bs).s.mem := focused.of_eq (beginRun_mem _ q e)
        replace begun := begun ((s.focus c).core.ringMarked d sig 0 ((((s.focus c).core.sig.st[sig]?).map (·.arr)).getD (-1) + 1))
        generalize ((s.focus c).beginRun q e).have_ _ = run at begun ⊢
        have written := canon_writeLines (rangeFrom dst d.size run.pr.put) begun
        split
        · rename_i r
          rw [r] at written
          exact sound_next (canon_stopCmd written ..)
        · rename_i r
          rw [r] at written
          exact sound_next (written.of_eq (progress_mem ..))
    · exact sound_next focused
  · exact sound_next focused

@[simp] theorem sound_execFpost (h : Canon W s.mem) (o : CF) : Sound W (execFpost o s) :=
  sound_closing h fun _ ht => sound_next ((canon_releaseNow ht _).of_eq (applyPost_mem ..))

@[simp] theorem sound_execFwait (h : Canon W s.mem) (o : CF) : Sound W (execFwait o s) :=
  sound_closing h fun _ ht => sound_ite (sound_stall ht) (sound_ok ht _)

@[simp] theorem sound_phaserOp (h : Canon W s.mem) (n : Nat) (confirmed : Bool) (bad waits : PhaserSet → Option Party → Bool)
    (act : PhaserSet → Option Party → Family → PhaserSet) (rel : Bool) : Sound W (phaserOp n confirmed bad waits act rel s) := by
  refine sound_notInHandler h ?_
  split
  · exact sound_fault h _
  · rename_i u _
    have goes (t : State) (ht : Canon W t.mem) : Sound W (
        let set := t.phasers (clusterOf s.core.id) u.asid
        let r := set.party n u.family
        if waits set r then stall t
        else
          let t := if rel then t.unitRelease scopeCluster else t
          .next ((t.setPhasers (act set r u.family)).servePhaser (clusterOf s.core.id) u.asid n)) := by
      refine sound_ite (sound_stall ht) (sound_next (Canon.of_eq ?_ (servePhaser_mem ..)))
      split_ifs <;> simp [ht]
    refine sound_ite (sound_fault h _) (sound_ite (sound_closing h fun t ht => sound_next ht) (sound_ite (sound_fault h _) ?_))
    cases confirmed
    · exact sound_closing h goes
    · exact sound_closingConfirmed h goes

@[simp] theorem sound_execPhreg (h : Canon W s.mem) (o : CPr) : Sound W (execPhreg o s) := by simp [execPhreg, h]

@[simp] theorem sound_execPharr (h : Canon W s.mem) (o : CPh) : Sound W (execPharr o s) := by simp [execPharr, h]

@[simp] theorem sound_execPhwait (h : Canon W s.mem) (o : CPh) : Sound W (execPhwait o s) := by
  unfold execPhwait
  split <;> simp [h]

@[simp] theorem sound_execPhdrop (h : Canon W s.mem) (o : CPh) : Sound W (execPhdrop o s) := by simp [execPhdrop, h]

@[simp] theorem sound_execFork (h : Canon W s.mem) (o : SAB) : Sound W (execFork o s) := by
  refine sound_taskOnly h fun u => sound_beginClosing h (sound_ite (sound_fault h _) (sound_ite (sound_fault h _) (sound_closing h fun t ht => ?_)))
  split
  · exact sound_faultAt ht ..
  · split
    · rename_i n c _ _
      rcases e : t.fork u c (s.core.x o.a) (t.core.x o.b) n with _ | f
      · exact sound_stall ht
      · exact sound_next (canon_fork ht e)
    · exact sound_fault ht _

@[simp] theorem sound_execSync (h : Canon W s.mem) (o : SQ) : Sound W (execSync o s) :=
  sound_taskOnly h fun _ => sound_beginClosing h (sound_closing h fun _ ht =>
    sound_ite (sound_next ht) (sound_ok (canon_modFrame ht ..) _))

@[simp] theorem sound_execRetf (h : Canon W s.mem) (o : SQ) : Sound W (execRetf o s) :=
  sound_taskOnly h fun _ => sound_beginClosing h (sound_ite (sound_fault h _) (sound_closing h fun _ ht => sound_ok ht _))

@[simp] theorem sound_execTend (h : Canon W s.mem) (o : SQ) : Sound W (execTend o s) := by
  unfold execTend
  split
  · exact sound_fault h _
  · exact sound_begin h (sound_ite (sound_fault h _) (sound_ite (sound_ok h _) (sound_closing h fun t ht => sound_ok ht _)))

@[simp] theorem sound_execYield (h : Canon W s.mem) (o : SQ) : Sound W (execYield o s) :=
  sound_taskOnly h fun _ => sound_beginClosing h (sound_closing h fun _ ht => sound_ok ht _)

@[simp] theorem sound_execWaitc (h : Canon W s.mem) (o : SA) : Sound W (execWaitc o s) := by
  have waits {t : State} (ht : Canon W t.mem) (u : UnitInfo) (obj : WaitObj) (d : Word) : Sound W (.next (t.recordWait u obj d)) :=
    sound_next (ht.of_eq (recordWait_mem ..))
  refine sound_taskOnly h fun u => sound_beginClosing h (sound_ite (sound_fault h _) (sound_ite ?_ (sound_ite (sound_fault h _) ?_)))
  · exact sound_ite (sound_fault h _) (sound_closingConfirmed h fun t ht => waits ht ..)
  · dsimp only
    split
    · exact sound_raise h _
    · exact sound_ite (sound_raise h _) (sound_closing h fun t ht => waits ht ..)

/-- What a core settled leaves: every state it answers has canonical memory. -/
structure CanonSettle (W : Prop) (r : Settle) : Prop where
  go : ∀ {t}, r = .go t → Canon W t.mem
  wait : ∀ {t}, r = .wait t → Canon W t.mem
  fail : ∀ {t f}, r = .fail t f → Canon W t.mem

theorem CanonSettle.of_go (h : Canon W s.mem) : CanonSettle W (.go s) := ⟨fun e => by cases e; exact h, nofun, nofun⟩

theorem CanonSettle.of_wait (h : Canon W s.mem) : CanonSettle W (.wait s) := ⟨nofun, fun e => by cases e; exact h, nofun⟩

theorem CanonSettle.of_fail (h : Canon W s.mem) (f : FaultRec) : CanonSettle W (.fail s f) := ⟨nofun, nofun, fun e => by cases e; exact h⟩

theorem canon_settle (h : Canon W s.mem) (n : Nat) : CanonSettle W (s.settle n) := by
  unfold State.settle
  have landed := (h.of_eq (State.focus_mem s n)).of_eq (State.mapCore_mem _ (Core.landAll maxCount))
  generalize (s.focus n).mapCore (Core.landAll maxCount) = t at landed ⊢
  dsimp only
  split
  · exact CanonSettle.of_fail landed _
  · split
    · exact CanonSettle.of_wait landed
    · generalize ht : (if t.core.ctl.after == some (.ending .fault) then t.dropFailing else t) = u
      have dropped : Canon W u.mem := by
        rw [← ht]
        split
        · exact landed.of_eq (dropFailing_mem _)
        · exact landed
      have opened := canon_openGate dropped
      split
      · exact CanonSettle.of_fail dropped _
      · rename_i e
        exact CanonSettle.of_wait (opened.wait e)
      · rename_i e
        split
        · exact CanonSettle.of_wait (opened.ok e)
        · exact CanonSettle.of_go ((opened.ok e).of_eq (unitClose_mem _))

/-- By the recursion of `settleAll` itself: its equation lemmas would land every result of a core. -/
theorem canon_settleAll (c : Nat) (ns : List Nat) : ∀ {s : State}, Canon W s.mem → CanonSettle W (s.settleAll c ns) := by
  delta State.settleAll State.settleAll._f
  induction ns with
  | nil => exact fun h => CanonSettle.of_go (h.of_eq (State.focus_mem ..))
  | cons n ns ih =>
    intro s h
    have settled := canon_settle h n
    dsimp only at ih ⊢
    split
    · rename_i e
      exact ih (settled.go e)
    · exact settled

@[simp] theorem sound_execUnitEnd (h : Canon W s.mem) (c : Nat) : Sound W (execUnitEnd c s) := by
  have focused := h.of_eq (State.focus_mem s c)
  unfold execUnitEnd
  dsimp only
  split
  · exact sound_next focused
  · refine sound_ite (sound_next focused) ?_
    have settled := canon_settleAll c (s.focus c).core.team focused
    split
    · rename_i e
      exact sound_next ((settled.wait e).of_eq (State.focus_mem ..))
    · rename_i e
      exact sound_next (canon_enterFault (settled.fail e) _)
    · rename_i e
      exact sound_next (canon_finishUnit (settled.go e) ..)

@[simp] theorem sound_execTaskSuspend (h : Canon W s.mem) (c : Nat) : Sound W (execTaskSuspend c s) := by
  have focused := h.of_eq (State.focus_mem s c)
  unfold execTaskSuspend
  dsimp only
  split
  · refine sound_ite (sound_next focused) (sound_ite (sound_next focused) ?_)
    have settled := canon_settle focused c
    split
    · rename_i e
      exact sound_next (settled.wait e)
    · rename_i e
      exact sound_next (canon_enterFault (settled.fail e) _)
    · rename_i e
      exact sound_next (canon_suspend (settled.go e) ..)
  · exact sound_next focused

@[simp] theorem sound_execPreempt (h : Canon W s.mem) (c : Nat) : Sound W (execPreempt c s) := by
  unfold execPreempt
  split
  · exact sound_next h
  · rename_i u _
    refine sound_ite (sound_next ?_) (sound_ite (sound_next h) (sound_next ?_))
    · rcases s.launchOf u with _ | l
      · exact h
      · exact h.of_eq (preemptLaunch_mem s l)
    · have saved := h.of_eq (saveCore_mem s c false u.prio)
      dsimp only
      split_ifs <;> exact saved

@[simp] theorem sound_execTaskPick (h : Canon W s.mem) (c : Nat) : Sound W (execTaskPick c s) := by
  unfold execTaskPick
  dsimp only
  repeat' split
  all_goals simp [h]

@[simp] theorem sound_execResume (h : Canon W s.mem) (c k : Nat) : Sound W (execResume c k s) := by
  unfold execResume
  split
  · exact sound_next h
  · refine sound_ite (sound_ite (sound_next h) (sound_next ?_)) (sound_ite (sound_execTaskPick h c) (sound_next h))
    simpa [foldl_mem] using h

@[simp] theorem canon_sendSubmit {s : State} (h : Canon W s.mem) (kind : Nat) (o : MDAB) : Canon W (s.sendSubmit kind o).mem :=
  (canon_unitRelease h scopePackage).of_eq (foldl_mem (fun _ _ => State.modCore_mem ..) _ _)

@[simp] theorem sound_submitOp (h : Canon W s.mem) (kind : Nat) (o : MDAB) : Sound W (submitOp kind o s) :=
  sound_beginClosing h (sound_ite (sound_closing h fun _ ht => sound_next ht) (sound_ite (sound_fault h _) (sound_ite (sound_fault h _)
    (sound_closingConfirmed h fun _ ht => sound_pendX (canon_sendSubmit ht ..) ..))))

@[simp] theorem sound_shapeOp (h : Canon W s.mem) (final : Bool) (o : MAB) : Sound W (shapeOp final o s) := by
  refine sound_beginClosing h (sound_ite (sound_closing h fun t ht => sound_next ht) (sound_ite (sound_fault h _) (sound_ite (sound_fault h _) ?_)))
  split
  · exact sound_faultAt h ..
  · exact sound_closingDefer h fun t ht => sound_next (canon_deferOr ht _ (canon_unitRelease ht _))

@[simp] theorem sound_execLaunchAccept (h : Canon W s.mem) : Sound W (execLaunchAccept s) := by
  unfold execLaunchAccept
  split <;> simp [h]

@[simp] theorem sound_execGraphVisit (h : Canon W s.mem) (g : Nat) : Sound W (execGraphVisit g s) := by
  unfold execGraphVisit
  repeat' split
  all_goals simp [h]

@[simp] theorem sound_execBlockDeal (h : Canon W s.mem) (l : Nat) : Sound W (execBlockDeal l s) := by
  unfold execBlockDeal
  split
  · exact sound_next h
  · rename_i l _
    refine sound_ite (sound_next ?_) (sound_next h)
    split
    · rename_i dealt
      exact canon_dealAgain h dealt
    · rcases e : s.deal l with _ | t
      · exact h
      · exact canon_deal h e

@[simp] theorem sound_execLaunchStart (h : Canon W s.mem) : Sound W (execLaunchStart s) := by
  have cleared {u : State} (hu : Canon W u.mem) : Canon W u.clearRefused.preemptReserved.mem :=
    (canon_clearRefused hu).of_eq (preemptReserved_mem _)
  exact sound_next (cleared (canon_serveQueues _ (cleared h) _))

@[simp] theorem sound_execUnitStart (h : Canon W s.mem) (l stage m c : Nat) : Sound W (execUnitStart l stage m c s) := by
  unfold execUnitStart
  dsimp only
  repeat' split
  all_goals simp [h]

@[simp] theorem sound_execLaunchComplete (h : Canon W s.mem) (l : Nat) : Sound W (execLaunchComplete l s) := by
  unfold execLaunchComplete
  repeat' split
  all_goals simp [h]

@[simp] theorem sound_execBlockCommit (h : Canon W s.mem) (l b : Nat) : Sound W (execBlockCommit l b s) := by
  unfold execBlockCommit
  split
  · exact sound_next h
  · rename_i l _
    have committed := canon_commitUnit h l.key b
    have goes (dest : BlockSt) : Canon W (match s.commitUnit l.key b with
        | (t, true) => (t.confirmBlock l b).modLaunch l.key (fun l => l.setBlock b (fun _ => dest))
        | (t, false) => t).mem := by
      split
      · rename_i e
        rw [e] at committed
        exact (canon_confirmBlock committed l b).of_eq (State.modLaunch_mem ..)
      · rename_i e
        rw [e] at committed
        exact committed
    refine sound_ite (sound_next (canon_commitTicks _ h)) ?_
    split
    · exact sound_next (goes _)
    · exact sound_ite (sound_next (goes _)) (sound_next h)
    · exact sound_next h

@[simp] theorem sound_execShapePost (h : Canon W s.mem) : Sound W (execShapePost s) := by
  unfold execShapePost
  dsimp only
  repeat' split
  all_goals simp [h]

@[simp] theorem sound_execSqTail (h : Canon W s.mem) (fn q : Nat) (v : BitVec 32) : Sound W (execSqTail fn q v s) := by simp [execSqTail, h]

@[simp] theorem sound_execCqHead (h : Canon W s.mem) (fn q : Nat) (v : BitVec 32) : Sound W (execCqHead fn q v s) := by simp [execCqHead, h]

@[simp] theorem sound_execFqHead (h : Canon W s.mem) (fn : Nat) (v : BitVec 32) : Sound W (execFqHead fn v s) := by simp [execFqHead, h]

@[simp] theorem sound_execSubmissionRecord (h : Canon W s.mem) (fn q : Nat) : Sound W (execSubmissionRecord fn q s) := by
  unfold execSubmissionRecord
  repeat' split
  all_goals simp [h]

@[simp] theorem sound_execFaultReplyResume (h : Canon W s.mem) (fn : Nat) (req : BitVec 24) : Sound W (execFaultReplyResume fn req s) := by
  refine sound_next ?_
  rcases s.pagingOf fn req.toNat with _ | q
  · exact h
  · exact h.of_eq (resumeRequest_mem ..)

@[simp] theorem sound_execFaultReplyEnd (h : Canon W s.mem) (fn : Nat) (req : BitVec 24) : Sound W (execFaultReplyEnd fn req s) := by
  unfold execFaultReplyEnd
  split <;> simp [h]

theorem sound_mailbox (h : Canon W s.mem) {code fn : Nat} {addr : Word} {fs : List (Nat × Nat × Nat)} {k : Fn → List Word → State → State × Nat}
    (hk : ∀ f w, (k f w s).1.mem = s.mem) : Sound W (mailbox code fn addr fs k s) := by
  have done (r : State × Nat) (e : r.1.mem = s.mem) : Sound W (.next (r.1.mailboxDone fn r.2)) :=
    sound_next (h.of_eq ((mailboxDone_mem ..).trans e))
  unfold mailbox
  split
  · exact sound_next h
  · rename_i f _
    dsimp only
    split
    · exact sound_next (h.of_eq (State.modFn_mem ..))
    · refine sound_ite (sound_next h) (sound_ite (done (s, mbInvalid) rfl) (sound_ite (done (s, mbFault) rfl) ?_))
      exact sound_ite (sound_next h) (sound_ite (done (s, mbInvalid) rfl) (done _ (hk f _)))

@[simp] theorem sound_execSqConf (h : Canon W s.mem) (fn : Nat) (addr : Word) : Sound W (execSqConf fn addr s) := by
  refine sound_mailbox h fun f w => ?_
  dsimp only
  split_ifs <;> rfl

@[simp] theorem sound_execCqConf (h : Canon W s.mem) (fn : Nat) (addr : Word) : Sound W (execCqConf fn addr s) := by
  refine sound_mailbox h fun f w => ?_
  dsimp only
  split_ifs <;> rfl

@[simp] theorem sound_execFqConf (h : Canon W s.mem) (fn : Nat) (addr : Word) : Sound W (execFqConf fn addr s) := by
  refine sound_mailbox h fun f w => ?_
  dsimp only
  split_ifs <;> rfl

@[simp] theorem sound_execQReset (h : Canon W s.mem) (fn : Nat) (addr : Word) : Sound W (execQReset fn addr s) := by
  refine sound_mailbox h fun f w => ?_
  dsimp only
  split
  · split <;> rfl
  · split <;> rfl
  · split
    · rfl
    · split_ifs <;> rfl
  · rfl

@[simp] theorem sound_execCtxCreate (h : Canon W s.mem) (fn : Nat) (addr : Word) : Sound W (execCtxCreate fn addr s) := by
  refine sound_mailbox h fun f w => ?_
  dsimp only
  split_ifs <;> rfl

@[simp] theorem sound_execCtxDestroy (h : Canon W s.mem) (fn : Nat) (addr : Word) : Sound W (execCtxDestroy fn addr s) := by
  refine sound_mailbox h fun f w => ?_
  dsimp only
  split
  · rfl
  · split_ifs <;> simp

@[simp] theorem sound_execInvalidate (h : Canon W s.mem) (fn : Nat) (addr : Word) : Sound W (execInvalidate fn addr s) := by
  refine sound_mailbox h fun f w => ?_
  dsimp only
  split
  · rfl
  · split_ifs <;> simp

@[simp] theorem sound_execPredClear (h : Canon W s.mem) (fn : Nat) (addr : Word) : Sound W (execPredClear fn addr s) :=
  sound_mailbox h fun _ _ => rfl

@[simp] theorem sound_mailboxAct (h : Canon W s.mem) (fn : Nat) : Sound W (s.mailboxAct fn) := by
  unfold State.mailboxAct
  split
  · exact sound_next h
  · exact sound_execCqConf h ..
  · exact sound_execFqConf h ..
  · exact sound_execQReset h ..
  · exact sound_execCtxCreate h ..
  · exact sound_execCtxDestroy h ..
  · exact sound_execInvalidate h ..
  · exact sound_execPredClear h ..
  · exact sound_execSqConf h ..

@[simp] theorem sound_execHostMemoryAccess (h : Canon W s.mem) (fn asid : Nat) (va : Word) (write : Bool) (bytes : List Byte) :
    Sound W (execHostMemoryAccess fn asid va write bytes s) := by
  unfold execHostMemoryAccess
  dsimp only
  repeat' split
  all_goals simp [h]

@[simp] theorem sound_execColdReset (s : State) (img : BootImage) : Sound W (execColdReset img s) := sound_next ⟨fun _ => Memory.wf_reset⟩

@[simp] theorem sound_execAntiRollbackRaise (h : Canon W s.mem) (v : Nat) (sigOk : Bool) : Sound W (execAntiRollbackRaise v sigOk s) := by
  unfold execAntiRollbackRaise
  split <;> simp [h]

@[simp] theorem sound_execGetVersion (h : Canon W s.mem) (_r : SpdmReq) : Sound W (execGetVersion _r s) := by simp [execGetVersion, h]

@[simp] theorem sound_execGetCapabilities (h : Canon W s.mem) (_r : SpdmReq) : Sound W (execGetCapabilities _r s) := by
  simp [execGetCapabilities, h]

@[simp] theorem sound_execNegotiateAlgorithms (h : Canon W s.mem) (_r : SpdmReq) : Sound W (execNegotiateAlgorithms _r s) := by
  simp [execNegotiateAlgorithms, h]

@[simp] theorem sound_execGetDigests (h : Canon W s.mem) (_r : SpdmReq) : Sound W (execGetDigests _r s) := by simp [execGetDigests, h]

@[simp] theorem sound_execGetCertificate (h : Canon W s.mem) (_r : SpdmReq) : Sound W (execGetCertificate _r s) := by simp [execGetCertificate, h]

@[simp] theorem sound_execChallenge (h : Canon W s.mem) (r : SpdmReq) : Sound W (execChallenge r s) := by simp [execChallenge, h]

@[simp] theorem sound_execGetMeasurements (h : Canon W s.mem) (r : SpdmReq) : Sound W (execGetMeasurements r s) := by
  simp [execGetMeasurements, h]

@[simp] theorem sound_execKeyExchange (h : Canon W s.mem) (_r : SpdmReq) : Sound W (execKeyExchange _r s) := by simp [execKeyExchange, h]

@[simp] theorem sound_execFinish (h : Canon W s.mem) (r : SpdmReq) : Sound W (execFinish r s) := by simp [execFinish, h]

@[simp] theorem sound_execEndSession (h : Canon W s.mem) (_r : SpdmReq) : Sound W (execEndSession _r s) := by simp [execEndSession, h]

theorem canon_setTdisp (h : Canon W s.mem) (fn : Nat) (old new : Tdisp) : Canon W ((s.setTdisp fn old new).getD s).mem := by
  rcases e : s.setTdisp fn old new with _ | t
  · exact h
  · exact h.of_eq (setTdisp_mem e)

@[simp] theorem sound_execTdispLock (h : Canon W s.mem) (fn : Nat) : Sound W (execTdispLock fn s) := sound_next (canon_setTdisp h ..)

@[simp] theorem sound_execTdispEnterRun (h : Canon W s.mem) (fn : Nat) : Sound W (execTdispEnterRun fn s) := sound_next (canon_setTdisp h ..)

@[simp] theorem sound_execTdispLeaveRun (h : Canon W s.mem) (fn : Nat) (err : Bool) : Sound W (execTdispLeaveRun fn err s) := by
  refine sound_next ?_
  rcases e : s.setTdisp fn .run (if err then .error else .unlocked) with _ | t
  · exact h
  · exact canon_abortQueues (h.of_eq (setTdisp_mem e)) ..

@[simp] theorem sound_execVfReset (h : Canon W s.mem) (fn : Nat) : Sound W (execVfReset fn s) := by
  refine sound_ite (sound_next h) (sound_next ?_)
  refine Canon.of_eq ?_ (foldl_mem (fun s c => withdraw_mem ..) _ _)
  refine Canon.of_eq ?_ (discard_mem ..)
  refine canon_foldl (fun s l hs => canon_cutLaunch hs l _) _ ?_
  exact canon_abortQueues (h.of_eq (State.arbitrate_mem ..)) fn stVfReset

@[simp] theorem sound_execDieFence (h : Canon W s.mem) (d : Nat) : Sound W (execDieFence d s) := by
  refine sound_ite (sound_next h) (sound_next ?_)
  have elected {t : State} (ht : Canon W t.mem) :
      Canon W (if t.master == d then ({ t with master := t.lowestDie } : State).arbitrate 7 t.lowestDie else t).mem := by
    split <;> exact ht
  refine elected (Canon.of_eq ?_ (foldl_mem (fun s n => vacate_mem s n) _ _))
  refine canon_foldl (fun s t hs => canon_loseTask hs t) _ ?_
  refine Canon.of_eq ?_ (foldl_mem (fun s f => dropFamilyTags_mem s f) _ _)
  exact canon_foldl (fun s k hs => canon_repair hs d _ _ k) _ h

@[simp] theorem sound_execHubDieFatal (h : Canon W s.mem) (_h : Nat) : Sound W (execHubDieFatal _h s) := by simp [execHubDieFatal, h]

@[simp] theorem sound_vf1 (h : Canon W s.mem) (qp : PredNo) (km : BitVec 3) (d : RegNo) (a : Src) (fmt : BitVec 2) (lat : Nat) (f : Nat → Nat) :
    Sound W (vf1 qp km d a fmt lat f s) := by
  refine sound_begin h (sound_useSrc h fun _ => ?_)
  split <;> simp [h]

@[simp] theorem sound_vf2 (h : Canon W s.mem) (qp : PredNo) (km : BitVec 3) (d : RegNo) (a b : Src) (fmt : BitVec 2) (btag : Tag)
    (lat : Nat) (f : Nat → Nat → Nat) :
    Sound W (vf2 qp km d a b fmt btag lat f s) := by
  refine sound_begin h (sound_useSrc h fun _ => sound_useSrc h fun _ => ?_)
  split <;> simp [h]

@[simp] theorem sound_vfOp (h : Canon W s.mem) (o : VF) (lat : Nat) (f : Nat → FV → FV → FV) : Sound W (vfOp o lat f s) := by simp [vfOp, h]

@[simp] theorem sound_vfAcc (h : Canon W s.mem) (o : VF) (f : Nat → FV → FV → FV → FV) : Sound W (vfAcc o f s) := by
  refine sound_begin h (sound_useSrc h fun _ => sound_useSrc h fun _ => ?_)
  dsimp only
  split_ifs <;> simp [h]

@[simp] theorem sound_vfMinMax (h : Canon W s.mem) (o : VFmm) (f : FV → FV → FV) : Sound W (vfMinMax o f s) := by simp [vfMinMax, h]

@[simp] theorem sound_execVabs (h : Canon W s.mem) (o : VF1) : Sound W (execVabs o s) := by simp [execVabs, h]

@[simp] theorem sound_execVneg (h : Canon W s.mem) (o : VF1) : Sound W (execVneg o s) := by simp [execVneg, h]

@[simp] theorem sound_execVsqrt (h : Canon W s.mem) (o : VFr) : Sound W (execVsqrt o s) := by simp [execVsqrt, h]

@[simp] theorem sound_execVscl (h : Canon W s.mem) (o : VF) : Sound W (execVscl o s) := by simp [execVscl, h]

@[simp] theorem sound_vi2 (h : Canon W s.mem) (qp : PredNo) (km : BitVec 3) (d : RegNo) (a b : Src) (w : BitVec 2) (f : Nat → Nat → Nat) :
    Sound W (vi2 qp km d a b w f s) := by
  refine sound_begin h (sound_useSrc h fun _ => sound_useSrc h fun _ => ?_)
  split <;> simp [h]

@[simp] theorem sound_viOp (h : Canon W s.mem) (o : VI) (f : Int → Int → Int) : Sound W (viOp o f s) := by simp [viOp, h]

@[simp] theorem sound_execVimad (h : Canon W s.mem) (o : VI) : Sound W (execVimad o s) := by
  refine sound_begin h (sound_useSrc h fun _ => sound_useSrc h fun _ => ?_)
  dsimp only
  split_ifs <;> simp [h]

@[simp] theorem sound_execVshl (h : Canon W s.mem) (o : VI) : Sound W (execVshl o s) := by simp [execVshl, h]

@[simp] theorem sound_execVsar (h : Canon W s.mem) (o : VIw) : Sound W (execVsar o s) := by simp [execVsar, h]

@[simp] theorem sound_execVimin (h : Canon W s.mem) (o : VIs) : Sound W (execVimin o s) := by simp [execVimin, h]

@[simp] theorem sound_execVimax (h : Canon W s.mem) (o : VIs) : Sound W (execVimax o s) := by simp [execVimax, h]

@[simp] theorem sound_execViabs (h : Canon W s.mem) (o : VIabs) : Sound W (execViabs o s) := by
  refine sound_begin h (sound_useSrc h fun _ => ?_)
  split <;> simp [h]

@[simp] theorem sound_vbit (h : Canon W s.mem) (o : V2) (f : VBits → VBits → VBits) : Sound W (vbit o f s) :=
  sound_begin h (sound_useSrc h fun _ => sound_useSrc h fun _ => by simp [h])

@[simp] theorem sound_execVdot4 (h : Canon W s.mem) (o : VDot) : Sound W (execVdot4 o s) := by
  refine sound_begin h (sound_useSrc h fun _ => sound_useSrc h fun _ => ?_)
  dsimp only
  split_ifs <;> simp [h]

@[simp] theorem sound_writeK (h : Canon W s.mem) (km d : BitVec 3) (m : Mask) (lat : Nat) : Sound W (writeK km d m lat s) := by simp [writeK, h]

@[simp] theorem sound_execVcmp (h : Canon W s.mem) (o : VCmp) : Sound W (execVcmp o s) := by
  refine sound_begin h (sound_useSrc h fun _ => sound_useSrc h fun _ => ?_)
  dsimp only
  split_ifs <;> simp [h]

@[simp] theorem sound_execVselk (h : Canon W s.mem) (o : VSelk) : Sound W (execVselk o s) :=
  sound_begin h (sound_useSrc h fun _ => sound_useSrc h fun _ => by simp [h])

@[simp] theorem sound_klog (h : Canon W s.mem) (o : KL) (f : Mask → Mask → Mask) : Sound W (klog o f s) := sound_begin h (by simp [h])

@[simp] theorem sound_execKnot (h : Canon W s.mem) (o : KL1) : Sound W (execKnot o s) := sound_begin h (by simp [h])

@[simp] theorem sound_execKmov (h : Canon W s.mem) (o : KL1) : Sound W (execKmov o s) := sound_begin h (by simp [h])

@[simp] theorem sound_execKmovV2k (h : Canon W s.mem) (o : KV) : Sound W (execKmovV2k o s) := by
  refine sound_begin h (sound_useSrc h fun _ => ?_)
  split <;> simp [h]

@[simp] theorem sound_execKmovK2v (h : Canon W s.mem) (o : VK) : Sound W (execKmovK2v o s) := sound_begin h (by simp [h])

@[simp] theorem sound_execVpermb (h : Canon W s.mem) (o : VPb) : Sound W (execVpermb o s) := by
  refine sound_begin h (sound_useSrc h fun _ => sound_useSrc h fun _ => ?_)
  split <;> simp [h]

@[simp] theorem sound_execVperml (h : Canon W s.mem) (o : V2) : Sound W (execVperml o s) := by
  refine sound_begin h (sound_useSrc h fun _ => sound_useSrc h fun _ => ?_)
  split <;> simp [h]

@[simp] theorem sound_execVpermlTwo (h : Canon W s.mem) (o : V2) : Sound W (execVpermlTwo o s) := by
  refine sound_begin h (sound_useSrc h fun _ => sound_useSrc h fun _ => ?_)
  split <;> simp [h]

@[simp] theorem sound_redFloat (h : Canon W s.mem) (o : VRd) (ident : FV) (f : FV → FV → FV) : Sound W (redFloat o ident f s) :=
  sound_begin h (sound_useSrc h fun _ => sound_ite (sound_fault h _) (sound_writeV h ..))

@[simp] theorem sound_redInt (h : Canon W s.mem) (o : VRd) (sgn : Bool) (ident : Int) (f : Int → Int → Int) (fin : Int → Nat) :
    Sound W (redInt o sgn ident f fin s) :=
  sound_begin h (sound_useSrc h fun _ => sound_ite (sound_fault h _) (sound_writeV h ..))

@[simp] theorem sound_execVmov (h : Canon W s.mem) (o : VMv) : Sound W (execVmov o s) := sound_begin h (sound_useSrc h fun _ => by simp [h])

@[simp] theorem sound_execVbcast (h : Canon W s.mem) (o : VBc) : Sound W (execVbcast o s) := sound_begin h (by simp [h])

@[simp] theorem sound_execVimm (h : Canon W s.mem) (o : VIm) : Sound W (execVimm o s) := sound_begin h (by simp [h])

@[simp] theorem sound_execVtag (h : Canon W s.mem) (o : VTg) : Sound W (execVtag o s) := sound_begin h (sound_useSrc h fun _ => by simp [h])

@[simp] theorem sound_execRfmode (h : Canon W s.mem) (o : VRfm) : Sound W (execRfmode o s) := by
  refine sound_begin h ?_
  dsimp only
  split_ifs <;> simp [h]

@[simp] theorem sound_execLinkBringUp (h : Canon W s.mem) (l : Nat) (ok : Bool) : Sound W (execLinkBringUp l ok s) := by
  unfold execLinkBringUp
  split <;> simp [h]

@[simp] theorem sound_execLinkAuthFail (h : Canon W s.mem) (l : Nat) : Sound W (execLinkAuthFail l s) := by simp [execLinkAuthFail, h]

@[simp] theorem sound_execLinkPathLost (h : Canon W s.mem) (pkg : Nat) : Sound W (execLinkPathLost pkg s) := by simp [execLinkPathLost, h]

@[simp] theorem sound_execGroupBinding (h : Canon W s.mem) (pkg group ch asid : Nat) (members ranks : List Nat) :
    Sound W (execGroupBinding pkg group ch asid members ranks s) := by
  simp [execGroupBinding, h]

@[simp] theorem sound_execCollectiveSubmit (h : Canon W s.mem) (asid ch : Nat) (desc : List Word) :
    Sound W (execCollectiveSubmit asid ch desc s) := by
  unfold execCollectiveSubmit
  split <;> simp [h]

@[simp] theorem sound_execCollectiveComplete (h : Canon W s.mem) (ch : Nat) (peers : List CollPeer) :
    Sound W (execCollectiveComplete ch peers s) := by
  unfold execCollectiveComplete
  dsimp only
  repeat' split
  all_goals simp [h]

@[simp] theorem sound_execMemberWithdrawn (h : Canon W s.mem) (ch : Nat) : Sound W (execMemberWithdrawn ch s) :=
  sound_next (canon_map_getD (h.of_eq (State.mapFabric_mem ..)) (fun c => canon_endColl (h.of_eq (State.mapFabric_mem ..)) c 0x21))

@[simp] theorem sound_execErrStatClear (h : Canon W s.mem) (inst : Nat) : Sound W (execErrStatClear inst s) := by simp [execErrStatClear, h]

@[simp] theorem sound_execErrInjWrite (h : Canon W s.mem) (inst : Nat) (v : Word) : Sound W (execErrInjWrite inst v s) := by
  simp [execErrInjWrite, h]

@[simp] theorem sound_execErrorDetected (h : Canon W s.mem) (inst : Nat) (addr : Word) (asid synd : BitVec 16) (ue : Bool) :
    Sound W (execErrorDetected inst addr asid synd ue s) := by
  simp [execErrorDetected, h]

@[simp] theorem sound_execLinkCrcError (h : Canon W s.mem) (l : Nat) : Sound W (execLinkCrcError l s) := by
  unfold execLinkCrcError
  dsimp only
  split_ifs <;> simp [h]

@[simp] theorem sound_execClReqRun (h : Canon W s.mem) (k : Nat) : Sound W (execClReqRun k s) := by simp [execClReqRun, h]

@[simp] theorem sound_execClReqQuiesced (h : Canon W s.mem) (k : Nat) : Sound W (execClReqQuiesced k s) := by simp [execClReqQuiesced, h]

@[simp] theorem sound_execClReqSaved (h : Canon W s.mem) (k : Nat) : Sound W (execClReqSaved k s) := by simp [execClReqSaved, h]

@[simp] theorem sound_execClReqGated (h : Canon W s.mem) (k : Nat) : Sound W (execClReqGated k s) := by simp [execClReqGated, h]

@[simp] theorem sound_execClWake (h : Canon W s.mem) (k : Nat) : Sound W (execClWake k s) := by
  unfold execClWake
  split <;> simp [h]

@[simp] theorem sound_execClStart (h : Canon W s.mem) (k : Nat) (v : Word) : Sound W (execClStart k v s) := by
  unfold execClStart
  split <;> simp [h]

@[simp] theorem canon_quiesce (h : Canon W s.mem) (k : Nat) : Canon W (s.quiesce k).mem := by
  refine canon_foldl (fun s n hs => ?_) _ h
  obtain ⟨t, e, ht⟩ := sound_execPreempt hs n
  rw [e]
  exact ht

@[simp] theorem sound_execClStateReached (h : Canon W s.mem) (k : Nat) : Sound W (execClStateReached k s) := by
  unfold execClStateReached
  dsimp only
  split
  · exact sound_next h
  · exact sound_next ((h.of_eq (restoreLatches_mem s k)).of_eq (State.setCluster_mem ..))
  · refine sound_next ?_
    have quiet := canon_quiesce h k
    split_ifs
    · exact quiet.of_eq (State.setCluster_mem ..)
    · exact quiet
  · exact sound_next ((h.of_eq (retain_mem s k)).of_eq (State.setCluster_mem ..))
  · exact sound_next ((h.of_eq (gate_mem s k)).of_eq (State.setCluster_mem ..))

@[simp] theorem sound_execEpochBoundary (h : Canon W s.mem) : Sound W (execEpochBoundary s) :=
  sound_next (h.of_eq ((State.mapLintel_mem ..).trans (advance_mem ..)))

@[simp] theorem sound_execLoweringNotice (h : Canon W s.mem) (pkg ceiling t : Nat) : Sound W (execLoweringNotice pkg ceiling t s) := by
  unfold execLoweringNotice
  dsimp only
  split_ifs <;> simp [h]

@[simp] theorem sound_execLoweringNoticeDue (h : Canon W s.mem) : Sound W (execLoweringNoticeDue s) :=
  sound_next (canon_map_getD h (fun t => h.of_eq (advance_mem s t)))

@[simp] theorem sound_execRaiseJoinLeave (h : Canon W s.mem) (kind pkg ceiling : Nat) : Sound W (execRaiseJoinLeave kind pkg ceiling s) := by
  unfold execRaiseJoinLeave
  split <;> simp [h]

@[simp] theorem sound_execHeartbeat (h : Canon W s.mem) (pkg : Nat) : Sound W (execHeartbeat pkg s) := by
  unfold execHeartbeat
  split <;> simp [h]

@[simp] theorem sound_execMemberSilent (h : Canon W s.mem) (pkg : Nat) : Sound W (execMemberSilent pkg s) :=
  sound_ite (sound_next h) (sound_next (Canon.of_eq (canon_silenceColls (h.of_eq (State.mapLintel_mem ..))) (State.arbitrate_mem ..)))

@[simp] theorem sound_execLeaderTimeout (h : Canon W s.mem) : Sound W (execLeaderTimeout s) := by
  unfold execLeaderTimeout
  dsimp only
  repeat' split
  all_goals simp [h]

@[simp] theorem sound_execMemberIsolated (h : Canon W s.mem) : Sound W (execMemberIsolated s) :=
  sound_ite (sound_next h) (sound_next (Canon.of_eq (canon_silenceColls (h.of_eq (State.mapLintel_mem ..))) (State.arbitrate_mem ..)))

@[simp] theorem sound_execEmergencyLimit (h : Canon W s.mem) (f : Nat) : Sound W (execEmergencyLimit f s) := by
  unfold execEmergencyLimit
  split <;> simp [h]

@[simp] theorem sound_execUrgentNotice (h : Canon W s.mem) (pkg f : Nat) : Sound W (execUrgentNotice pkg f s) := by
  unfold execUrgentNotice
  split <;> simp [h]

theorem canon_mark (h : Canon W s.mem) : CanonGate W s.mark := by
  unfold State.mark
  split
  · exact CanonGate.of_fail _
  · have fresh := h.of_eq (freshGate_mem s)
    dsimp only
    split
    · exact CanonGate.of_wait fresh
    · have checked := canon_checkEntries fresh s.freshGate.core.rg.gate
      split
      · rename_i e
        exact canon_performGate ((checked.ok e).of_eq (State.mapCore_mem ..)) _
      · exact checked

@[simp] theorem sound_execRestartMark (h : Canon W s.mem) (c : Nat) : Sound W (execRestartMark c s) := by
  have focused := h.of_eq (State.focus_mem s c)
  have marked := canon_mark focused
  unfold execRestartMark
  dsimp only
  split
  · exact sound_next focused
  · refine sound_ite (sound_next focused) ?_
    split
    · rename_i e
      exact sound_next (marked.ok e)
    · rename_i e
      exact sound_next (marked.wait e)
    · exact sound_next (canon_enterFault focused _)

@[simp] theorem sound_execResultLanding (h : Canon W s.mem) (c : Nat) : Sound W (execResultLanding c s) := by simp [execResultLanding, h]

@[simp] theorem sound_execResultArrival (h : Canon W s.mem) (c n : Nat) : Sound W (execResultArrival c n s) := by simp [execResultArrival, h]

@[simp] theorem sound_execClusterWakeDone (h : Canon W s.mem) (c v : Nat) : Sound W (execClusterWakeDone c v s) := by
  simp [execClusterWakeDone, h]

@[simp] theorem sound_execRollbackFault (h : Canon W s.mem) (c : Nat) (f : FaultRec) : Sound W (execRollbackFault c f s) := by
  unfold execRollbackFault
  dsimp only
  split_ifs <;> simp [h]

@[simp] theorem sound_execTrapEntry (h : Canon W s.mem) (c : Nat) (f : FaultRec) : Sound W (execTrapEntry c f s) := by
  unfold execTrapEntry
  dsimp only
  split_ifs <;> simp [h]

theorem canon_migrate (h : Canon W s.mem) (x : Ctx) (p : Page) (pa : Nat) : Canon W (s.migrate x p pa).mem := by
  have written (l : List (Nat × Nat)) (g : Nat × Nat → List Byte) :
      ∀ {m : Memory}, Canon W m → Canon W (l.foldl (fun m e => m.write e.1 (g e)) m) := by
    induction l with
    | nil => exact fun hm => hm
    | cons e l ih => exact fun hm => ih (canon_write hm ..)
  exact written _ (fun e => bytesOfNat (e.2 - entAddr e.2 + movePa p.pa pa (pageBytes p.size) (entAddr e.2)) 8)
    ⟨fun w => Memory.wf_copyTo (h.wf w) ..⟩

@[simp] theorem sound_execPageMigration (h : Canon W s.mem) (asid : Nat) (va : Word) (pa : Nat) : Sound W (execPageMigration asid va pa s) := by
  unfold execPageMigration
  split
  · exact sound_ite (sound_next h) (sound_next (canon_migrate h ..))
  · exact sound_next h

@[simp] theorem sound_execCurLimitBaseSet (h : Canon W s.mem) (c : Nat) (v : Word) : Sound W (execCurLimitBaseSet c v s) := by
  unfold execCurLimitBaseSet
  dsimp only
  split_ifs <;> simp [h]

@[simp] theorem sound_execFreezeCycle (h : Canon W s.mem) (c : Nat) : Sound W (execFreezeCycle c s) :=
  sound_ite (sound_next (h.of_eq (foldl_mem (fun _ _ => State.modCore_mem ..) _ _))) (sound_next h)

@[simp] theorem sound_execBallastCycle (h : Canon W s.mem) (c : Nat) : Sound W (execBallastCycle c s) := by
  unfold execBallastCycle
  split <;> simp [h]

theorem ring_mem (demand ds : List Nat) : ∀ (spare : Nat) (s : State), (State.ring demand ds spare s).mem = s.mem := by
  induction ds with
  | nil => exact fun _ _ => rfl
  | cons d ds ih => exact fun spare s => (ih _ _).trans (State.modDie_mem ..)

@[simp] theorem sound_execPowerRingPeriod (h : Canon W s.mem) (demand used : List Nat) : Sound W (execPowerRingPeriod demand used s) :=
  sound_next (h.of_eq ((ring_mem ..).trans (foldl_mem (fun _ _ => State.modDie_mem ..) _ _)))

@[simp] theorem sound_execOvercapBallastLimit (h : Canon W s.mem) (d : Nat) : Sound W (execOvercapBallastLimit d s) := by
  unfold execOvercapBallastLimit
  dsimp only
  split_ifs <;> simp [h]

@[simp] theorem sound_tryPower (h : Canon W s.mem) (p : Power) : Sound W (State.tryPower s p) := by
  unfold State.tryPower
  split <;> simp [h]

@[simp] theorem sound_execPkgCapWrite (h : Canon W s.mem) (v : Word) : Sound W (execPkgCapWrite v s) := by simp [execPkgCapWrite, h]

@[simp] theorem sound_execDiePwrWrite (h : Canon W s.mem) (d : Nat) (v : Word) : Sound W (execDiePwrWrite d v s) := by simp [execDiePwrWrite, h]

@[simp] theorem sound_execVtrimWrite (h : Canon W s.mem) (d : Nat) (v : Word) : Sound W (execVtrimWrite d v s) := by simp [execVtrimWrite, h]

@[simp] theorem sound_execVoltageLow (h : Canon W s.mem) (d col f : Nat) : Sound W (execVoltageLow d col f s) := by
  unfold execVoltageLow
  split <;> simp [h]

@[simp] theorem sound_execWdogCtlWrite (h : Canon W s.mem) (fn : Nat) (v : Word) : Sound W (execWdogCtlWrite fn v s) := by
  simp [execWdogCtlWrite, h]

@[simp] theorem sound_execWatchdogExpiry (h : Canon W s.mem) (c : Nat) : Sound W (execWatchdogExpiry c s) := by
  unfold execWatchdogExpiry
  dsimp only
  split_ifs <;> simp [h]

@[simp] theorem sound_alu2 (h : Canon W s.mem) (o : SR) (lat : Nat) (f : Word → Word → Word) : Sound W (alu2 o lat f s) :=
  sound_begin h (by simp [h])

@[simp] theorem sound_aluI (h : Canon W s.mem) (o : SI) (lat : Nat) (f : Word → Word → Word) : Sound W (aluI o lat f s) :=
  sound_begin h (by simp [h])

@[simp] theorem sound_aluSh (h : Canon W s.mem) (o : SShI) (f : Word → Nat → Word) : Sound W (aluSh o f s) := sound_begin h (by simp [h])

@[simp] theorem sound_alu1 (h : Canon W s.mem) (o : SU) (f : Word → Word) : Sound W (alu1 o f s) := sound_begin h (by simp [h])

@[simp] theorem sound_writeCompare (h : Canon W s.mem) (o : SC) (c : Bool) (lat : Nat) : Sound W (writeCompare o c lat s) := sound_ok h _

@[simp] theorem sound_compare (h : Canon W s.mem) (o : SC) (poison c : Bool) (lat : Nat) :
    Sound W (Machine.compare o poison c lat s) := sound_ite (sound_fault h _) (sound_writeCompare h ..)

@[simp] theorem sound_plog (h : Canon W s.mem) (o : SP) (f : Bool → Bool → Bool) : Sound W (plog o f s) := sound_begin h (by simp [h])

@[simp] theorem sound_execExts (h : Canon W s.mem) (o : SBits) : Sound W (execExts o s) := sound_begin h (by simp [h])

@[simp] theorem sound_execExtz (h : Canon W s.mem) (o : SBits) : Sound W (execExtz o s) := sound_begin h (by simp [h])

@[simp] theorem sound_execDep (h : Canon W s.mem) (o : SBits) : Sound W (execDep o s) := sound_begin h (by simp [h])

@[simp] theorem sound_execLea (h : Canon W s.mem) (o : SLea) : Sound W (execLea o s) := sound_begin h (by simp [h])

@[simp] theorem sound_execSel (h : Canon W s.mem) (o : SSel) : Sound W (execSel o s) := sound_begin h (by simp [h])

@[simp] theorem sound_execMovi (h : Canon W s.mem) (o : SL) : Sound W (execMovi o s) := sound_begin h (by simp [h])

@[simp] theorem sound_execMovk (h : Canon W s.mem) (o : SMovk) : Sound W (execMovk o s) := sound_begin h (by simp [h])

@[simp] theorem sound_execVextr (h : Canon W s.mem) (o : SElem) : Sound W (execVextr o s) := by
  refine sound_begin h ?_
  split <;> simp [h]

@[simp] theorem sound_execVins (h : Canon W s.mem) (o : SElem) : Sound W (execVins o s) := by
  refine sound_begin h ?_
  split <;> simp [h]

@[simp] theorem sound_execIcmp (h : Canon W s.mem) (o : SC) : Sound W (execIcmp o s) := sound_begin h (by simp [h])

@[simp] theorem sound_execIcmpi (h : Canon W s.mem) (o : SC) : Sound W (execIcmpi o s) := sound_begin h (by simp [h])

@[simp] theorem sound_execFcmp (h : Canon W s.mem) (o : SC) : Sound W (execFcmp o s) := sound_begin h (by simp [h])

@[simp] theorem sound_execPnot (h : Canon W s.mem) (o : SP1) : Sound W (execPnot o s) := sound_begin h (by simp [h])

@[simp] theorem sound_execPget (h : Canon W s.mem) (o : SD) : Sound W (execPget o s) := sound_begin h (by simp [h])

@[simp] theorem sound_execPset (h : Canon W s.mem) (o : SA) : Sound W (execPset o s) := by
  refine sound_begin h ?_
  split <;> simp [h]

@[simp] theorem sound_fp2 (h : Canon W s.mem) (o : SFp) (lat : Nat) (f : Nat → FV → FV → FV) : Sound W (fp2 o lat f s) :=
  sound_begin h (by simp [h])

@[simp] theorem sound_execFsqrt (h : Canon W s.mem) (o : SFp1) : Sound W (execFsqrt o s) := sound_begin h (by simp [h])

@[simp] theorem sound_execFfma (h : Canon W s.mem) (o : SFp) : Sound W (execFfma o s) := sound_begin h (by simp [h])

@[simp] theorem sound_execFcvt (h : Canon W s.mem) (o : SCvt) : Sound W (execFcvt o s) := by
  unfold execFcvt
  refine sound_begin h ?_
  dsimp only
  split
  · exact sound_writeX h ..
  · exact sound_writeX h ..
  · exact sound_writeX h ..
  · exact sound_ok h _

@[simp] theorem sound_execMfs (h : Canon W s.mem) (o : SMfs) : Sound W (execMfs o s) := sound_begin h (by simp [h])

@[simp] theorem sound_execMts (h : Canon W s.mem) (o : SMts) : Sound W (execMts o s) := by
  refine sound_begin h ?_
  split_ifs <;> simp [h]

@[simp] theorem sound_execVcvt (h : Canon W s.mem) (o : VCv) : Sound W (execVcvt o s) := by
  refine sound_begin h (sound_useSrc h fun x => sound_ite (sound_fault h _) (sound_ite (sound_fault h _) (sound_ite (sound_fault h _) ?_)))
  refine sound_ite (sound_fault h _) (sound_ite (sound_fault h _) (sound_writeMasked ?_ ..))
  split
  · exact h.of_eq (State.mapCore_mem ..)
  · exact h

end Answers

end Sys2Proof.Proofs

namespace Sys2Proof.Proofs

open Sys2Proof Sys2Proof.Machine Sys2Proof.Laws

section Steps

variable {W : Prop} {s : State}

/-- Every instruction and every event answers a state, and keeps device memory canonical. -/
theorem sound_exec (h : Canon W s.mem) (i : Instr) : Sound W (exec i s) := by
  cases i with
  | iadd o => exact show Sound W (execIadd o s) from sound_alu2 h ..
  | isub o => exact show Sound W (execIsub o s) from sound_alu2 h ..
  | andR o => exact show Sound W (execAnd o s) from sound_alu2 h ..
  | orR o => exact show Sound W (execOr o s) from sound_alu2 h ..
  | xor o => exact show Sound W (execXor o s) from sound_alu2 h ..
  | andn o => exact show Sound W (execAndn o s) from sound_alu2 h ..
  | orn o => exact show Sound W (execOrn o s) from sound_alu2 h ..
  | shl o => exact show Sound W (execShl o s) from sound_alu2 h ..
  | shr o => exact show Sound W (execShr o s) from sound_alu2 h ..
  | sar o => exact show Sound W (execSar o s) from sound_alu2 h ..
  | ror o => exact show Sound W (execRor o s) from sound_alu2 h ..
  | imin o => exact show Sound W (execImin o s) from sound_alu2 h ..
  | imax o => exact show Sound W (execImax o s) from sound_alu2 h ..
  | iminz o => exact show Sound W (execIminz o s) from sound_alu2 h ..
  | imaxz o => exact show Sound W (execImaxz o s) from sound_alu2 h ..
  | iaddi o => exact show Sound W (execIaddi o s) from sound_aluI h ..
  | andi o => exact show Sound W (execAndi o s) from sound_aluI h ..
  | ori o => exact show Sound W (execOri o s) from sound_aluI h ..
  | xori o => exact show Sound W (execXori o s) from sound_aluI h ..
  | shli o => exact show Sound W (execShli o s) from sound_aluSh h ..
  | shri o => exact show Sound W (execShri o s) from sound_aluSh h ..
  | sari o => exact show Sound W (execSari o s) from sound_aluSh h ..
  | rori o => exact show Sound W (execRori o s) from sound_aluSh h ..
  | imul o => exact show Sound W (execImul o s) from sound_alu2 h ..
  | imulh o => exact show Sound W (execImulh o s) from sound_alu2 h ..
  | imulhz o => exact show Sound W (execImulhz o s) from sound_alu2 h ..
  | idiv o => exact show Sound W (execIdiv o s) from sound_alu2 h ..
  | idivz o => exact show Sound W (execIdivz o s) from sound_alu2 h ..
  | irem o => exact show Sound W (execIrem o s) from sound_alu2 h ..
  | iremz o => exact show Sound W (execIremz o s) from sound_alu2 h ..
  | imuli o => exact show Sound W (execImuli o s) from sound_aluI h ..
  | clz o => exact show Sound W (execClz o s) from sound_alu1 h ..
  | ctz o => exact show Sound W (execCtz o s) from sound_alu1 h ..
  | popc o => exact show Sound W (execPopc o s) from sound_alu1 h ..
  | brev o => exact show Sound W (execBrev o s) from sound_alu1 h ..
  | bswap o => exact show Sound W (execBswap o s) from sound_alu1 h ..
  | iabs o => exact show Sound W (execIabs o s) from sound_alu1 h ..
  | ineg o => exact show Sound W (execIneg o s) from sound_alu1 h ..
  | exts _ => exact sound_execExts h ..
  | extz _ => exact sound_execExtz h ..
  | dep _ => exact sound_execDep h ..
  | lea _ => exact sound_execLea h ..
  | sel _ => exact sound_execSel h ..
  | movi _ => exact sound_execMovi h ..
  | movk _ => exact sound_execMovk h ..
  | vextr _ => exact sound_execVextr h ..
  | vins _ => exact sound_execVins h ..
  | icmp _ => exact sound_execIcmp h ..
  | icmpi _ => exact sound_execIcmpi h ..
  | fcmp _ => exact sound_execFcmp h ..
  | pand o => exact show Sound W (execPand o s) from sound_plog h ..
  | por o => exact show Sound W (execPor o s) from sound_plog h ..
  | pxor o => exact show Sound W (execPxor o s) from sound_plog h ..
  | pandn o => exact show Sound W (execPandn o s) from sound_plog h ..
  | pnot _ => exact sound_execPnot h ..
  | pget _ => exact sound_execPget h ..
  | pset _ => exact sound_execPset h ..
  | fadd o => exact show Sound W (execFadd o s) from sound_fp2 h ..
  | fsub o => exact show Sound W (execFsub o s) from sound_fp2 h ..
  | fmul o => exact show Sound W (execFmul o s) from sound_fp2 h ..
  | fdiv o => exact show Sound W (execFdiv o s) from sound_fp2 h ..
  | fsqrt _ => exact sound_execFsqrt h ..
  | fmin o => exact show Sound W (execFmin o s) from sound_fp2 h ..
  | fmax o => exact show Sound W (execFmax o s) from sound_fp2 h ..
  | ffma _ => exact sound_execFfma h ..
  | fcvt _ => exact sound_execFcvt h ..
  | mfs _ => exact sound_execMfs h ..
  | mts _ => exact sound_execMts h ..
  | trap _ => exact sound_execTrap h ..
  | rft _ => exact sound_execRft h ..
  | halt _ => exact sound_execHalt h ..
  | br _ => exact sound_execBr h ..
  | call _ => exact sound_execCall h ..
  | brx _ => exact sound_execBrx h ..
  | ret _ => exact sound_execRet h ..
  | chk _ => exact sound_execChk h ..
  | chkv _ => exact sound_execChkv h ..
  | fork _ => exact sound_execFork h ..
  | sync _ => exact sound_execSync h ..
  | retf _ => exact sound_execRetf h ..
  | tend _ => exact sound_execTend h ..
  | yield _ => exact sound_execYield h ..
  | waitc _ => exact sound_execWaitc h ..
  | ldb o => exact show Sound W (execLdb o s) from sound_ldBed h ..
  | ldbz o => exact show Sound W (execLdbz o s) from sound_ldBed h ..
  | ldh o => exact show Sound W (execLdh o s) from sound_ldBed h ..
  | ldhz o => exact show Sound W (execLdhz o s) from sound_ldBed h ..
  | ldw o => exact show Sound W (execLdw o s) from sound_ldBed h ..
  | ldwz o => exact show Sound W (execLdwz o s) from sound_ldBed h ..
  | ldd o => exact show Sound W (execLdd o s) from sound_ldBed h ..
  | stb o => exact show Sound W (execStb o s) from sound_stBed h ..
  | sth o => exact show Sound W (execSth o s) from sound_stBed h ..
  | stw o => exact show Sound W (execStw o s) from sound_stBed h ..
  | std o => exact show Sound W (execStd o s) from sound_stBed h ..
  | vld _ => exact sound_execVld h ..
  | vst _ => exact sound_execVst h ..
  | vgath _ => exact sound_execVgath h ..
  | vscat _ => exact sound_execVscat h ..
  | rld _ => exact sound_execRld h ..
  | rst _ => exact sound_execRst h ..
  | rvld _ => exact sound_execRvld h ..
  | rvst _ => exact sound_execRvst h ..
  | gldb o => exact show Sound W (execGldb o s) from sound_gld h ..
  | gldh o => exact show Sound W (execGldh o s) from sound_gld h ..
  | gldw o => exact show Sound W (execGldw o s) from sound_gld h ..
  | gldd o => exact show Sound W (execGldd o s) from sound_gld h ..
  | gstb o => exact show Sound W (execGstb o s) from sound_gst h ..
  | gsth o => exact show Sound W (execGsth o s) from sound_gst h ..
  | gstw o => exact show Sound W (execGstw o s) from sound_gst h ..
  | gstd o => exact show Sound W (execGstd o s) from sound_gst h ..
  | gvld _ => exact sound_execGvld h ..
  | gvst _ => exact sound_execGvst h ..
  | gldsW o => exact show Sound W (execGldsW o s) from sound_glds h ..
  | gldsD o => exact show Sound W (execGldsD o s) from sound_glds h ..
  | pref _ => exact sound_execPref h ..
  | copy _ => exact sound_execCopy h ..
  | copyIn _ => exact sound_execCopyIn h ..
  | copyOut _ => exact sound_execCopyOut h ..
  | copy2d _ => exact sound_execCopy2d h ..
  | accwAdd o => exact show Sound W (execAccwAdd o s) from sound_accw1 h ..
  | accwMin o => exact show Sound W (execAccwMin o s) from sound_accw1 h ..
  | accwMax o => exact show Sound W (execAccwMax o s) from sound_accw1 h ..
  | accwMinz o => exact show Sound W (execAccwMinz o s) from sound_accw1 h ..
  | accwMaxz o => exact show Sound W (execAccwMaxz o s) from sound_accw1 h ..
  | accwAnd o => exact show Sound W (execAccwAnd o s) from sound_accw1 h ..
  | accwOr o => exact show Sound W (execAccwOr o s) from sound_accw1 h ..
  | accwXor o => exact show Sound W (execAccwXor o s) from sound_accw1 h ..
  | accwSwap o => exact show Sound W (execAccwSwap o s) from sound_accw h ..
  | accwCas o => exact show Sound W (execAccwCas o s) from sound_accw h ..
  | accwFaddq o => exact show Sound W (execAccwFaddq o s) from sound_accw h ..
  | ald _ => exact sound_execAld h ..
  | qnotify _ => exact sound_execQnotify h ..
  | qfence _ => exact sound_execQfence h ..
  | fpostr _ => exact sound_execFpostr h ..
  | fenceRel o => exact show Sound W (execFenceRel o s) from sound_fence h ..
  | fenceAcq o => exact show Sound W (execFenceAcq o s) from sound_fence h ..
  | fenceFull o => exact show Sound W (execFenceFull o s) from sound_fence h ..
  | fenceFullq o => exact show Sound W (execFenceFullq o s) from sound_fence h ..
  | xlat _ => exact sound_execXlat h ..
  | hrel _ => exact sound_execHrel h ..
  | hinfo _ => exact sound_execHinfo h ..
  | hinfoVa _ => exact sound_execHinfoVa h ..
  | pcommit _ => exact sound_execPcommit h ..
  | pdecommit _ => exact sound_execPdecommit h ..
  | qalloc _ => exact sound_execQalloc h ..
  | qfree _ => exact sound_execQfree h ..
  | btset _ => exact sound_execBtset h ..
  | btget _ => exact sound_execBtget h ..
  | btapp _ => exact sound_execBtapp h ..
  | launch o => exact show Sound W (execLaunch o s) from sound_submitOp h ..
  | shapeFinal o => exact show Sound W (execShapeFinal o s) from sound_shapeOp h ..
  | shapeFloor o => exact show Sound W (execShapeFloor o s) from sound_shapeOp h ..
  | graph o => exact show Sound W (execGraph o s) from sound_submitOp h ..
  | vadd o => exact show Sound W (execVadd o s) from sound_vfOp h ..
  | vsub o => exact show Sound W (execVsub o s) from sound_vfOp h ..
  | vmul o => exact show Sound W (execVmul o s) from sound_vfOp h ..
  | vfma o => exact show Sound W (execVfma o s) from sound_vfAcc h ..
  | vfms o => exact show Sound W (execVfms o s) from sound_vfAcc h ..
  | vfnma o => exact show Sound W (execVfnma o s) from sound_vfAcc h ..
  | vmin o => exact show Sound W (execVmin o s) from sound_vfMinMax h ..
  | vmax o => exact show Sound W (execVmax o s) from sound_vfMinMax h ..
  | vabs _ => exact sound_execVabs h ..
  | vneg _ => exact sound_execVneg h ..
  | vdiv o => exact show Sound W (execVdiv o s) from sound_vf2 h ..
  | vsqrt _ => exact sound_execVsqrt h ..
  | vrcp o => exact show Sound W (execVrcp o s) from sound_vf1 h ..
  | vrsq o => exact show Sound W (execVrsq o s) from sound_vf1 h ..
  | vexp2 o => exact show Sound W (execVexp2 o s) from sound_vf1 h ..
  | vlog2 o => exact show Sound W (execVlog2 o s) from sound_vf1 h ..
  | vtanh o => exact show Sound W (execVtanh o s) from sound_vf1 h ..
  | vscl _ => exact sound_execVscl h ..
  | viadd o => exact show Sound W (execViadd o s) from sound_viOp h ..
  | visub o => exact show Sound W (execVisub o s) from sound_viOp h ..
  | vimul o => exact show Sound W (execVimul o s) from sound_viOp h ..
  | vimad _ => exact sound_execVimad h ..
  | vshl _ => exact sound_execVshl h ..
  | vshr o => exact show Sound W (execVshr o s) from sound_vi2 h ..
  | vsar _ => exact sound_execVsar h ..
  | vand o => exact show Sound W (execVand o s) from sound_vbit h ..
  | vor o => exact show Sound W (execVor o s) from sound_vbit h ..
  | vxor o => exact show Sound W (execVxor o s) from sound_vbit h ..
  | vandn o => exact show Sound W (execVandn o s) from sound_vbit h ..
  | vimin _ => exact sound_execVimin h ..
  | vimax _ => exact sound_execVimax h ..
  | vdot4 _ => exact sound_execVdot4 h ..
  | viabs _ => exact sound_execViabs h ..
  | vcmp _ => exact sound_execVcmp h ..
  | vselk _ => exact sound_execVselk h ..
  | kand o => exact show Sound W (execKand o s) from sound_klog h ..
  | kor o => exact show Sound W (execKor o s) from sound_klog h ..
  | kxor o => exact show Sound W (execKxor o s) from sound_klog h ..
  | kandn o => exact show Sound W (execKandn o s) from sound_klog h ..
  | knot _ => exact sound_execKnot h ..
  | kmov _ => exact sound_execKmov h ..
  | kmovV2k _ => exact sound_execKmovV2k h ..
  | kmovK2v _ => exact sound_execKmovK2v h ..
  | vcvt _ => exact sound_execVcvt h ..
  | vpermb _ => exact sound_execVpermb h ..
  | vperml _ => exact sound_execVperml h ..
  | vpermlTwo _ => exact sound_execVpermlTwo h ..
  | vredFsum o => exact show Sound W (execVredFsum o s) from sound_redFloat h ..
  | vredFmax o => exact show Sound W (execVredFmax o s) from sound_redFloat h ..
  | vredFmin o => exact show Sound W (execVredFmin o s) from sound_redFloat h ..
  | vredIsum o => exact show Sound W (execVredIsum o s) from sound_redInt h ..
  | vredImax o => exact show Sound W (execVredImax o s) from sound_redInt h ..
  | vredImin o => exact show Sound W (execVredImin o s) from sound_redInt h ..
  | vredImaxz o => exact show Sound W (execVredImaxz o s) from sound_redInt h ..
  | vredIminz o => exact show Sound W (execVredIminz o s) from sound_redInt h ..
  | vmov _ => exact sound_execVmov h ..
  | vbcast _ => exact sound_execVbcast h ..
  | vimm _ => exact sound_execVimm h ..
  | vtag _ => exact sound_execVtag h ..
  | rfmode _ => exact sound_execRfmode h ..
  | mma _ => exact sound_execMma h ..
  | mzero _ => exact sound_execMzero h ..
  | mld _ => exact sound_execMld h ..
  | mstBed _ => exact sound_execMstBed h ..
  | mstSignal _ => exact sound_execMstSignal h ..
  | mrow _ => exact sound_execMrow h ..
  | mrowW _ => exact sound_execMrowW h ..
  | mscl _ => exact sound_execMscl h ..
  | mgrp _ => exact sound_execMgrp h ..
  | sqld _ => exact sound_execSqld h ..
  | sqgo _ => exact sound_execSqgo h ..
  | sqst _ => exact sound_execSqst h ..
  | sqabt _ => exact sound_execSqabt h ..
  | attn _ => exact sound_execAttn h ..
  | tapset _ => exact sound_execTapset h ..
  | tapsetx _ => exact sound_execTapsetx h ..
  | taprd _ => exact sound_execTaprd h ..
  | tapwr _ => exact sound_execTapwr h ..
  | siginf _ => exact sound_execSiginf h ..
  | slotsSel _ => exact sound_execSlotsSel h ..
  | slotsClr _ => exact sound_execSlotsClr h ..
  | slotsOne _ => exact sound_execSlotsOne h ..
  | sigrst _ => exact sound_execSigrst h ..
  | tick => exact sound_execTick h
  | fwait _ => exact sound_execFwait h ..
  | fpost _ => exact sound_execFpost h ..
  | waitn _ => exact sound_execWaitn h ..
  | phreg _ => exact sound_execPhreg h ..
  | pharr _ => exact sound_execPharr h ..
  | phwait _ => exact sound_execPhwait h ..
  | phdrop _ => exact sound_execPhdrop h ..
  | restartMark _ => exact sound_execRestartMark h ..
  | resultLanding _ => exact sound_execResultLanding h ..
  | resultArrival _ _ => exact sound_execResultArrival h ..
  | clusterWakeDone _ _ => exact sound_execClusterWakeDone h ..
  | freezeCycle _ => exact sound_execFreezeCycle h ..
  | ballastCycle _ => exact sound_execBallastCycle h ..
  | rollbackFault _ _ => exact sound_execRollbackFault h ..
  | trapEntry _ _ => exact sound_execTrapEntry h ..
  | tileEntryComplete _ => exact sound_execTileEntryComplete h ..
  | tileFaultReport _ => exact sound_execTileFaultReport h ..
  | commandComplete _ _ => exact sound_execCommandComplete h ..
  | ingressSampleDelivery _ _ => exact sound_execIngressSampleDelivery h ..
  | egressSampleDrain _ _ => exact sound_execEgressSampleDrain h ..
  | mirrorSampleArrival _ _ => exact sound_execMirrorSampleArrival h ..
  | unitEnd _ => exact sound_execUnitEnd h ..
  | taskSuspend _ => exact sound_execTaskSuspend h ..
  | flagPostArrival _ _ _ => exact sound_execFlagPostArrival h ..
  | taskPick _ => exact sound_execTaskPick h ..
  | preempt _ => exact sound_execPreempt h ..
  | resume _ _ => exact sound_execResume h ..
  | launchAccept => exact sound_execLaunchAccept h
  | launchStart => exact sound_execLaunchStart h
  | blockDeal _ => exact sound_execBlockDeal h ..
  | unitStart _ _ _ _ => exact sound_execUnitStart h ..
  | launchComplete _ => exact sound_execLaunchComplete h ..
  | shapePost => exact sound_execShapePost h
  | blockCommit _ _ => exact sound_execBlockCommit h ..
  | graphVisit _ => exact sound_execGraphVisit h ..
  | translationWalkDone _ _ => exact sound_execTranslationWalkDone h ..
  | pageMigration _ _ _ => exact sound_execPageMigration h ..
  | blockDrainDone _ _ _ => exact sound_execBlockDrainDone h ..
  | sqTail _ _ _ => exact sound_execSqTail h ..
  | submissionRecord _ _ => exact sound_execSubmissionRecord h ..
  | cqHead _ _ _ => exact sound_execCqHead h ..
  | fqHead _ _ => exact sound_execFqHead h ..
  | faultReplyResume _ _ => exact sound_execFaultReplyResume h ..
  | faultReplyEnd _ _ => exact sound_execFaultReplyEnd h ..
  | sqConf _ _ => exact sound_execSqConf h ..
  | cqConf _ _ => exact sound_execCqConf h ..
  | fqConf _ _ => exact sound_execFqConf h ..
  | qReset _ _ => exact sound_execQReset h ..
  | ctxCreate _ _ => exact sound_execCtxCreate h ..
  | ctxDestroy _ _ => exact sound_execCtxDestroy h ..
  | invalidate _ _ => exact sound_execInvalidate h ..
  | predClear _ _ => exact sound_execPredClear h ..
  | hostMemoryAccess _ _ _ _ _ => exact sound_execHostMemoryAccess h ..
  | coldReset _ => exact sound_execColdReset ..
  | getVersion r => exact sound_execGetVersion h r
  | getCapabilities r => exact sound_execGetCapabilities h r
  | negotiateAlgorithms r => exact sound_execNegotiateAlgorithms h r
  | getDigests r => exact sound_execGetDigests h r
  | getCertificate r => exact sound_execGetCertificate h r
  | challenge _ => exact sound_execChallenge h ..
  | getMeasurements _ => exact sound_execGetMeasurements h ..
  | keyExchange r => exact sound_execKeyExchange h r
  | finish _ => exact sound_execFinish h ..
  | endSession r => exact sound_execEndSession h r
  | tdispLeaveRun _ _ => exact sound_execTdispLeaveRun h ..
  | linkAuthFail _ => exact sound_execLinkAuthFail h ..
  | linkPathLost _ => exact sound_execLinkPathLost h ..
  | collectiveSubmit _ _ _ => exact sound_execCollectiveSubmit h ..
  | collectiveComplete _ _ => exact sound_execCollectiveComplete h ..
  | loweringNotice _ _ _ => exact sound_execLoweringNotice h ..
  | loweringNoticeDue => exact sound_execLoweringNoticeDue h
  | raiseJoinLeave _ _ _ => exact sound_execRaiseJoinLeave h ..
  | epochBoundary => exact sound_execEpochBoundary h
  | heartbeat _ => exact sound_execHeartbeat h ..
  | memberSilent _ => exact sound_execMemberSilent h ..
  | leaderTimeout => exact sound_execLeaderTimeout h
  | memberIsolated => exact sound_execMemberIsolated h
  | emergencyLimit _ => exact sound_execEmergencyLimit h ..
  | urgentNotice _ _ => exact sound_execUrgentNotice h ..
  | dieFence _ => exact sound_execDieFence h ..
  | hubDieFatal r => exact sound_execHubDieFatal h r
  | vfReset _ => exact sound_execVfReset h ..
  | memberWithdrawn _ => exact sound_execMemberWithdrawn h ..
  | powerRingPeriod _ _ => exact sound_execPowerRingPeriod h ..
  | overcapBallastLimit _ => exact sound_execOvercapBallastLimit h ..
  | pkgCapWrite _ => exact sound_execPkgCapWrite h ..
  | diePwrWrite _ _ => exact sound_execDiePwrWrite h ..
  | vtrimWrite _ _ => exact sound_execVtrimWrite h ..
  | voltageLow _ _ _ => exact sound_execVoltageLow h ..
  | wdogCtlWrite _ _ => exact sound_execWdogCtlWrite h ..
  | watchdogExpiry _ => exact sound_execWatchdogExpiry h ..
  | errorDetected _ _ _ _ _ => exact sound_execErrorDetected h ..
  | linkCrcError _ => exact sound_execLinkCrcError h ..
  | errStatClear _ => exact sound_execErrStatClear h ..
  | errInjWrite _ _ => exact sound_execErrInjWrite h ..
  | clReqRun _ => exact sound_execClReqRun h ..
  | clReqQuiesced _ => exact sound_execClReqQuiesced h ..
  | clReqSaved _ => exact sound_execClReqSaved h ..
  | clReqGated _ => exact sound_execClReqGated h ..
  | clStateReached _ => exact sound_execClStateReached h ..
  | clWake _ => exact sound_execClWake h ..
  | clStart _ _ => exact sound_execClStart h ..
  | linkBringUp _ _ => exact sound_execLinkBringUp h ..
  | tdispLock _ => exact sound_execTdispLock h ..
  | tdispEnterRun _ => exact sound_execTdispEnterRun h ..
  | antiRollbackRaise _ _ => exact sound_execAntiRollbackRaise h ..
  | groupBinding _ _ _ _ _ _ => exact sound_execGroupBinding h ..
  | curLimitBaseSet _ _ => exact sound_execCurLimitBaseSet h ..

/-! ### From the instruction to the step

What the slots of a bundle, a member's turn and a unit's turn answer is a value whose states have canonical memory. -/

/-- A run that neither faults nor is refused, with what its answer keeps. -/
def Answers {α : Type} (P : α → Prop) (r : Host.Outcome α Fault Refusal) : Prop := ∃ x, r = .next x ∧ P x

theorem Answers.of_next {α : Type} {P : α → Prop} {x : α} (h : P x) : Answers P (.next x) := ⟨x, rfl, h⟩

theorem answers_slot (h : Canon W s.mem) (k : Nat) (i : Instr) : Answers (fun r : SlotRes => Canon W r.st.mem) (s.slot k i) := by
  unfold State.slot
  obtain ⟨t, e, ht⟩ := sound_exec (h.of_eq (State.mapCore_mem s
    (fun c => { c with ctl := { c.ctl with slot := k, raised := none, stalled := false, passed := false } }))) i
  rw [e]
  exact .of_next (ht.of_eq (State.mapCore_mem ..))

theorem answers_slots (holds : Bool → List (Nat × Instr) → Bool) (l : List (Nat × Instr)) : ∀ {s : State}, Canon W s.mem →
    Answers (fun q : SlotsRes => Canon W q.st.mem) (s.slots holds l) := by
  induction l with
  | nil => exact fun h => .of_next h
  | cons e es ih =>
    intro s h
    obtain ⟨r, er, hr⟩ := answers_slot h e.1 e.2
    have kept : Canon W (if r.stalls || r.raised.isSome then s else r.st).mem := by split <;> assumption
    obtain ⟨q, eq, hq⟩ := ih kept
    unfold State.slots
    simp only [er, eq]
    exact .of_next hq

/-- How a core's turn ends with canonical memory. -/
structure CanonTurn (W : Prop) (r : Turn) : Prop where
  issued : ∀ {t f}, r = .issued t f → Canon W t.mem
  stalls : ∀ {t}, r = .stalls t → Canon W t.mem
  raises : ∀ {f t}, r = .raises f t → Canon W t.mem

theorem CanonTurn.of_issued (h : Canon W s.mem) (f : Option FaultRec) : CanonTurn W (.issued s f) :=
  ⟨fun e => by cases e; exact h, nofun, nofun⟩

theorem CanonTurn.of_stalls (h : Canon W s.mem) : CanonTurn W (.stalls s) := ⟨nofun, fun e => by cases e; exact h, nofun⟩

theorem CanonTurn.of_raises (h : Canon W s.mem) (f : FaultRec) : CanonTurn W (.raises f s) := ⟨nofun, nofun, fun e => by cases e; exact h⟩

theorem canon_issued (h : Canon W s.mem) (before : Core) (w : BundleBits) (template : Bool) :
    CanonTurn W (s.issued before w template) := by
  have updated (f g : Core → Core) : Canon W ((s.mapCore f).mapCore g).mem :=
    h.of_eq ((State.mapCore_mem ..).trans (State.mapCore_mem ..))
  unfold State.issued
  dsimp only
  split_ifs
  · exact .of_issued (updated ..) _
  · exact .of_issued ((updated ..).of_eq (afterDelay_mem _)) _
  · exact .of_issued (updated ..) _

theorem answers_close (l : List (Nat × Instr)) {safe : Option State} (hsafe : ∀ t, safe = some t → Canon W t.mem) (before : Core)
    (w : BundleBits) (template : Bool) : ∀ {s : State}, Canon W s.mem → Answers (CanonTurn W) (s.close safe before w template l) := by
  induction l generalizing safe with
  | nil => exact fun h => .of_next (canon_issued h ..)
  | cons e es ih =>
    intro s h
    have back : Canon W (safe.getD (s.asBegun w)).mem := by
      cases safe with
      | none => exact h.of_eq (asBegun_mem s w)
      | some t => exact hsafe t rfl
    obtain ⟨r, er, hr⟩ := answers_slot h e.1 e.2
    unfold State.close
    simp only [er]
    split
    · exact .of_next (.of_raises back _)
    · split
      · refine .of_next (.of_stalls ?_)
        split
        · exact hr.of_eq (asBegun_mem ..)
        · exact back
      · exact ih (fun _ e => by cases e) (hr.of_eq (State.mapCore_mem ..))

theorem answers_perform (h : Canon W s.mem) (w : BundleBits) : Answers (CanonTurn W) (s.perform w) := by
  obtain ⟨q, eq, hq⟩ := answers_slots (fun _ _ => true) (openSlots (decodeBundle w)) (h.of_eq (opened_mem s (decodeBundle w)))
  obtain ⟨g, eg, -⟩ := answers_slots closerHolds (closeSlots (decodeBundle w)) (canon_foreseen hq)
  unfold State.perform
  dsimp only
  split
  · exact .of_next (.of_stalls h)
  · split
    · exact .of_next (.of_raises h _)
    · split
      · exact .of_next (.of_stalls h)
      · simp only [eq, eg]
        split
        · exact .of_next (.of_stalls h)
        · split
          · exact .of_next (.of_raises h _)
          · split
            · exact .of_next (.of_stalls (h.of_eq (State.mapCore_mem ..)))
            · exact answers_close _ (fun t e => by cases e; exact h) _ _ _ hq

theorem answers_bundle (h : Canon W s.mem) (w : BundleBits) : Answers (CanonTurn W) (s.bundle w) := by
  have marked := canon_mark h
  unfold State.bundle
  dsimp only
  split
  · exact .of_next (.of_raises h _)
  · split_ifs
    · split
      · rename_i e
        exact answers_perform (marked.ok e) w
      · rename_i e
        exact .of_next (.of_stalls (marked.wait e))
      · exact .of_next (.of_raises h _)
    · exact answers_perform h w

theorem answers_issue (h : Canon W s.mem) : Answers (CanonTurn W) s.issue := by
  unfold State.issue
  split
  · exact .of_next (.of_raises (h.of_eq (State.mapCore_mem ..)) _)
  · split
    · exact answers_close _ (fun _ e => by cases e) _ _ _ h
    · split
      · exact .of_next (.of_raises h _)
      · exact answers_bundle h _

theorem canon_stalled (h : Canon W s.mem) (ready : List Nat) : Canon W (ready.foldl (fun s m => (s.focus m).stallCycle) s).mem :=
  canon_foldl (fun s m hs => (hs.of_eq (State.focus_mem s m)).of_eq (State.stallCycle_mem _)) ready h

theorem canon_heldTeam (h : Canon W s.mem) (ready : List Nat) : Canon W (s.heldTeam ready).mem := by
  refine canon_stalled (canon_foldl (fun s m hs => ?_) ready h) ready
  obtain ⟨r, e, turn⟩ := answers_issue (hs.of_eq (State.focus_mem s m))
  rw [e]
  cases r with
  | stalls t => exact turn.stalls rfl
  | issued t f => exact hs
  | raises f t => exact hs

theorem answers_issueAll {start : State} (hstart : Canon W start.mem) (ready : List Nat) (l : List Nat) :
    ∀ {s : State} (ts : List (Nat × FaultRec)), Canon W s.mem →
      Answers (fun r : TeamRes => Canon W r.st.mem) (start.issueAll ready s ts l) := by
  induction l with
  | nil => exact fun ts h => .of_next (canon_trapped h ts)
  | cons m ms ih =>
    intro s ts h
    obtain ⟨r, e, turn⟩ := answers_issue (h.of_eq (State.focus_mem s m))
    unfold State.issueAll
    rw [e]
    cases r with
    | issued t f => exact ih _ (turn.issued rfl)
    | stalls t => exact .of_next (canon_stalled hstart ready)
    | raises f t => exact .of_next (canon_enterFaults (hstart.of_eq (State.focus_mem ..)) _)

theorem answers_judged (h : Canon W s.mem) (l : List Nat) : Answers (fun _ => True) (s.judged l) := by
  induction l with
  | nil => exact .of_next trivial
  | cons m ms ih =>
    obtain ⟨r, e, -⟩ := answers_issue (h.of_eq (State.focus_mem s m))
    obtain ⟨⟨st, fs⟩, ems, -⟩ := ih
    unfold State.judged
    rw [e, ems]
    cases r <;> exact .of_next trivial

theorem answers_gangTurn (h : Canon W s.mem) (ready : List Nat) : Answers (fun r : TeamRes => Canon W r.st.mem) (s.gangTurn ready) := by
  obtain ⟨⟨held, fs⟩, e, -⟩ := answers_judged h ready
  unfold State.gangTurn
  rw [e]
  cases held with
  | true => exact .of_next (canon_heldTeam h ready)
  | false =>
    cases fs with
    | nil => exact answers_issueAll h ready ready [] h
    | cons f fs => exact .of_next (canon_enterFaults (h.of_eq (tilesReported_mem ..)) _)

theorem answers_soloTurn (h : Canon W s.mem) : Answers (fun r : TeamRes => Canon W r.st.mem) s.soloTurn := by
  obtain ⟨r, e, turn⟩ := answers_issue h
  unfold State.soloTurn
  rw [e]
  cases r with
  | issued t f => exact .of_next (canon_trapped (turn.issued rfl) _)
  | stalls t => exact .of_next ((turn.stalls rfl).of_eq (State.stallCycle_mem t))
  | raises f t => exact .of_next (canon_enterFault (turn.raises rfl) f)

theorem sound_act (h : Canon W s.mem) (a : Act) : Sound W (a.run s) := by
  cases a with
  | resultArrival c n => exact sound_execResultArrival h ..
  | walkDone c n => exact sound_execTranslationWalkDone h ..
  | tileDone c => exact sound_execTileEntryComplete h ..
  | commandDone c q => exact sound_execCommandComplete h ..
  | ingress c q => exact sound_execIngressSampleDelivery h ..
  | egress c q => exact sound_execEgressSampleDrain h ..
  | mirror c g => exact sound_execMirrorSampleArrival h ..
  | unitEnd c => exact sound_execUnitEnd h ..
  | suspend c => exact sound_execTaskSuspend h ..
  | watchdog c => exact sound_execWatchdogExpiry h ..
  | post c f n => exact sound_execFlagPostArrival h ..
  | accept => exact sound_execLaunchAccept h
  | start => exact sound_execLaunchStart h
  | deal l => exact sound_execBlockDeal h ..
  | unitStart l g m c => exact sound_execUnitStart h ..
  | complete l => exact sound_execLaunchComplete h ..
  | shapePost => exact sound_execShapePost h
  | commit l b => exact sound_execBlockCommit h ..
  | visit g => exact sound_execGraphVisit h ..
  | pick c => exact sound_execTaskPick h ..
  | deadWait t => exact sound_next (canon_endDead h t)
  | resume c k => exact sound_execResume h ..
  | drained asid pool blk => exact sound_execBlockDrainDone h ..
  | record f q => exact sound_execSubmissionRecord h ..
  | mailbox f => exact sound_mailboxAct h f
  | reached k => exact sound_execClStateReached h k
  | overcap d => exact sound_execOvercapBallastLimit h d

theorem sound_boundary (h : Canon W s.mem) : Sound W s.boundary := by
  unfold State.boundary
  split
  · exact sound_next (h.of_eq (nextCycle_mem s))
  · rename_i a _
    obtain ⟨t, e, ht⟩ := sound_act h a
    rw [e]
    exact sound_next (ht.of_eq (nextCycle_mem t))

theorem sound_ballasted (h : Canon W s.mem) (n : Nat) : Sound W (s.ballasted n) :=
  sound_ite (sound_execBallastCycle h n) (sound_next h)

theorem sound_afterTurn {r : TeamRes} (h : Canon W r.st.mem) (lead : Nat) (lagging : List Nat) :
    Sound W (State.afterTurn lead lagging r) := by
  have ballast (l : List Nat) : ∀ {o : Res}, Sound W o → Sound W (l.foldl (fun o n => match o with
      | .next t => t.ballasted n
      | o => o) o) := by
    induction l with
    | nil => exact fun ho => ho
    | cons n l ih =>
      rintro _ ⟨t, rfl, ht⟩
      exact ih (sound_ballasted ht n)
  refine ballast _ (sound_next (Canon.of_eq ?_ (State.focus_mem ..)))
  split
  · exact h.of_eq ((pruned_mem _).trans (nearer_mem ..))
  · exact h

theorem sound_takeTurn (h : Canon W s.mem) (n : Nat) : Sound W (s.takeTurn n) := by
  have focused := h.of_eq (State.focus_mem s n)
  unfold State.takeTurn
  dsimp only
  split_ifs
  · exact sound_execFreezeCycle focused n
  · split
    · exact sound_next (focused.of_eq (nearer_mem ..))
    · rename_i m ms _
      have turn : Answers (fun r : TeamRes => Canon W r.st.mem)
          (if ms.isEmpty then ((s.focus n).focus m).soloTurn else (s.focus n).gangTurn (s.focus n).inTurn) := by
        split_ifs
        · exact answers_soloTurn (focused.of_eq (State.focus_mem ..))
        · exact answers_gangTurn focused _
      obtain ⟨r, e, hr⟩ := turn
      rw [e]
      exact sound_afterTurn hr ..

theorem step_boundary (ha : s.agenda = []) (hs : s.stopped = false) (ht : s.turn = []) : step s = s.boundary := by
  rw [step, ha, if_neg (by rw [hs]; exact Bool.false_ne_true), ht]

theorem sound_input (alive : s.stopped = false) (h : Canon W s.mem) (i : Instr) : Sound W (s.input i) := by
  rw [input_runs alive]
  exact sound_exec h i

/-- A step of a package that has not been stopped answers a state, and keeps device memory canonical. -/
theorem sound_step (alive : s.stopped = false) (h : Canon W s.mem) : Sound W (step s) := by
  rcases ha : s.agenda with _ | ⟨i, is⟩
  · rcases ht : s.turn with _ | ⟨n, ns⟩
    · rw [step_boundary ha alive ht]
      exact sound_boundary h
    · rw [step_turn ha alive ht]
      exact sound_takeTurn (s := { s with turn := ns }) h n
  · rw [step_input ha]
    exact sound_input (s := { s with agenda := is }) alive h i

/-- While the package stands stopped, only a cold reset has an effect (R421): it leaves the reset's memory. -/
theorem wf_of_input_stopped {i : Instr} {t : State} (stopped : s.stopped = true) (e : s.input i = .next t) : t.mem.wf := by
  by_cases hi : ∃ img, i = .coldReset img
  · obtain ⟨img, rfl⟩ := hi
    rw [input_reset stopped] at e
    cases e
    exact Memory.wf_reset
  · rw [input_stopped stopped (fun img h => hi ⟨img, h⟩)] at e
    cases e

theorem wf_of_step_stopped {t : State} (stopped : s.stopped = true) (e : step s = .next t) : t.mem.wf := by
  rcases ha : s.agenda with _ | ⟨i, is⟩
  · rw [step_stopped ha stopped] at e
    cases e
  · rw [step_input ha] at e
    exact wf_of_input_stopped (s := { s with agenda := is }) stopped e

end Steps

/-- Settles O59: each step answers a state whose memory is canonical where the memory it started from is, or performs a cold reset. -/
theorem canonicalMemory : Obligations.CanonicalMemory := by
  intro s t wf e
  cases stopped : s.stopped with
  | true => exact wf_of_step_stopped stopped e
  | false =>
    obtain ⟨u, eu, hu⟩ := sound_step (W := s.mem.wf) stopped ⟨id⟩
    cases eu.symm.trans e
    exact hu.wf wf

/-- Settles O60: no instruction, event or turn of a package that is not stopped answers a fault of the machine or a refusal. -/
theorem progress : Obligations.Progress := fun s alive => by
  obtain ⟨t, e, -⟩ := sound_step (W := False) alive ⟨False.elim⟩
  exact ⟨t, e⟩

end Sys2Proof.Proofs
